-- ==== Sys2Proof/Word.lean ====
section
/-!
DEFINITION. The word types of the block (00_scope.md R6, R7) and the type of sparse maps.
-/

namespace Sys2Proof

/-- One byte of memory. -/
abbrev Byte := BitVec 8

/-- A 16-bit halfword. -/
abbrev W16 := BitVec 16

/-- A register, or one on-chip data word (R66, R106). -/
abbrev W32 := BitVec 32

/-- A 64-bit field: addresses, positions, timestamps. -/
abbrev W64 := BitVec 64

/-- Sparse data by key: the keys strictly rise, and no entry equals what an unlisted key reads as
(`SMap.wf` in Machine/Map.lean). -/
abbrev SMap (α : Type) := List (Nat × α)

end Sys2Proof
end

