-- ==== Sys2Proof/Types.lean ====
section
/-!
DEFINITION. The operand types of the commands: ports, Chaell transactions, fabric messages, gang tables and the structured
forms of the messages whose layout the spec does not give (log 11).
-/

namespace Sys2Proof

/-- The requesters of a page's port arbiter (03 R72): both Chaell ports, I3C, the test port and queued TXN commands. -/
inductive Port where
  | ch0 | ch1 | i3c | test | txn
  deriving DecidableEq, Repr

/-- A Chaell transaction (15 R409): `kind` is TYPE, `poison` the mask of R411 when TFLAGS.POISON is set. -/
structure ChTxn where
  kind : Nat
  tag : Nat
  len : Nat
  status : Nat
  addr : Nat
  poison : Option W32
  data : List Byte
  deriving DecidableEq, Repr

/-- A collective group of a group table (11 R300, R308): number, RING, LIST_OFF, and its drift in order. -/
structure Group where
  num : Nat
  isRing : Bool
  off : Nat
  drift : List Nat
  deriving DecidableEq, Repr

/-- A copy of the gang's tables (11 R300): members with their STATE (1 ACTIVE, 2 FAILED) and valid groups. -/
structure Tables where
  gen : Nat
  master : Nat
  deputy : Nat
  members : List (Nat × Nat)
  groups : List Group
  deriving DecidableEq, Repr

/-- What a keep holder receives (14 R382, R383): a piece of a record, the header and section table that end it, or those of a record that
is kept elsewhere, for the ledger alone. -/
inductive KeepPart where
  | piece | table | ledger
  deriving DecidableEq, Repr

/-- A gang-control message whose layout the spec does not give, as the device sends it (log 11). -/
inductive GangMsg where
  | joinRequest
  | tables (epoch : Nat) (t : Tables) (barrier heartbeat : Nat)
  | heartbeat
  | heartbeatAnswer
  | declaration (dev : Nat)
  | takeoverRequest
  | takeoverAck
  | waitReport (tally group waitsOn : Nat)
  | readRequest (va n : Nat)                 -- remote read (09 R241)
  | readAnswer (va : Nat) (data : List Byte) (poison : Nat) (fault : Bool)
  | keepWrite (slot off : Nat) (data : List Byte)   -- securing: part of a record for a keep slot (14 R386)
  | keepTable (slot : Nat) (data : List Byte)       -- securing: header and section table for slot and ledger (14 R382)
  | ledgerTable (slot : Nat) (data : List Byte)     -- securing: header and section table for the ledger alone (14 R382)
  | restoreRequest (live : Bool) (rdev epoch : Nat) -- RESTORE: its source's newest record of a device, or its live blocks (14 R392)
  | keepAck (slot : Nat)
  | keepRefuse (slot cause : Nat)                   -- CAUSE of 14 R401: 1 TARGET, 2 SIZE, 5 SPACE
  deriving DecidableEq, Repr

/-- A fabric message (11 R288): header fields and payload. `body` is what a payload says whose layout the spec does not give
(log 11). -/
structure Msg where
  dst : Nat
  src : Nat
  mseq : Nat
  cls : Nat
  hops : Nat
  mgen : Nat
  poison : Nat
  payload : List Byte
  body : Option GangMsg
  deriving DecidableEq, Repr

/-- The processors of 16 R445: SEC, PWR, SCH, one RCX core, or one control core. -/
inductive ProcId where
  | sec | pwr | sch
  | rcx (core : Fin 4)
  | core (cl : Fin 32)
  deriving DecidableEq, Repr

/-- What a restore's source has delivered (14 R393): nothing yet, nothing to deliver, a keep holder's record, or a replica's
epoch and current blocks (manifest ID, block, bytes), each with whether a word of it read poisoned. -/
inductive RestoreData where
  | waiting
  | absent
  | record (bytes : List Byte) (poison : Bool)
  | blocks (epoch : Nat) (bs : List (Nat × Nat × List Byte)) (poison : Bool)
  deriving DecidableEq, Repr

/-- Why the device wakes (17 R481). -/
inductive Wake where
  | access       -- a host or management access that needs a domain that is off
  | record       -- a record to be written while the fabric is off
  | message      -- a message arriving on an adit
  | timer        -- a WAIT timer one exit latency away
  deriving DecidableEq, Repr

/-- Bits of a stored on-chip word that flipped before it is read (04 R107): `store` and `word` name it as the row says. -/
structure Upset where
  store : Nat
  word : Nat
  bits : List Nat
  deriving DecidableEq, Repr

end Sys2Proof
end

