-- ==== Sys2Proof/Syntax.lean ====
section
/-!
DEFINITION. The commands of the block: one constructor for each row of the command table, with its operands. Instance numbers
are bounded by their type; operands with other bounds are checked in WellFormed. The commands without operands stand last.
-/

namespace Sys2Proof

/-- A command: an access, an event on a pin or link, a timer, or a step of one of the block's engines. -/
inductive Instr where
  /-- POWER_UP (R41). -/
  | powerUp (vinMv lowMs : Nat)
  /-- INPUT_ENTERS_RANGE (R42). -/
  | inputEntersRange (vinMv : Nat)
  /-- OVER_VOLTAGE_SHUTDOWN (R37). -/
  | overVoltageShutdown (vinMv : Nat)
  /-- INPUT_OV_WARN (R35). -/
  | inputOvWarn (vinMv : Nat)
  /-- DROOP (R35). -/
  | droop (vinMv : Nat)
  /-- STRAP_CHANGED (R55). -/
  | strapChangedEvent (live : Fin 4)
  /-- CONFIRM (R54). -/
  | confirm (port : Port) (value : W32)
  /-- LIMIT_W (R56). -/
  | limitW (port : Port) (value : W32)
  /-- ALERT_CLEAR (R57). -/
  | alertClear (port : Port) (value : W32)
  /-- ENVELOPE_EXCURSION_HEIGHT (R58). -/
  | envelopeExcursionHeight (watts : Nat)
  /-- ENVELOPE_EXCURSION_LENGTH (R58). -/
  | envelopeExcursionLength (watts : Nat)
  /-- PACING_UPDATE (R484). -/
  | pacingUpdateRow (predicted : List Nat) (vinMv iin10mA avgW sampleW : Nat)
  /-- I3C_PRIVATE_WRITE (R65). -/
  | i3cPrivateWrite (off : Nat) (data : List Byte)
  /-- I3C_PRIVATE_READ (R65). -/
  | i3cPrivateRead (off words : Nat)
  /-- SETDASA (R47). -/
  | setdasa (static addr : Nat)
  /-- ENTDAA (R47). -/
  | entdaa (addr : Nat)
  /-- REGISTER_WRITE (R66). -/
  | registerWrite (port : Port) (off size : Nat) (value : W32)
  /-- COUNTER_LO_READ (R136). -/
  | counterLoRead (port : Port) (off : Nat)
  /-- BLK_EVT_CLR (R69). -/
  | blkEvtClr (port : Port) (page : Nat) (value : W32)
  /-- BLK_EVT_EN (R70). -/
  | blkEvtEn (port : Port) (page : Nat) (value : W32)
  /-- BEGIN (R74). -/
  | txnBegin (port : Port) (page timeout : Nat)
  /-- COMMIT (R74). -/
  | txnCommit (port : Port) (page timeout : Nat)
  /-- ROLLBACK (R74). -/
  | txnRollback (port : Port) (page timeout : Nat)
  /-- TXN_SAFE_POINT_APPLY (R75). -/
  | txnSafePointApply (page : Nat) (storageError : Bool)
  /-- TXN_TIMEOUT (R74). -/
  | txnTimeoutRow (page : Nat) (deviceWide : Bool)
  /-- SINGLE_WRITE_APPLY (R76). -/
  | singleWriteApply (page : Nat)
  /-- SINGLE_WRITE_TIMEOUT (R76). -/
  | singleWriteTimeout (page : Nat)
  /-- TX_BEGIN (R79). -/
  | txBeginRow (port : Port) (timeout : Nat)
  /-- TX_COMMIT (R79). -/
  | txCommitRow (port : Port) (timeout : Nat)
  /-- TX_ROLLBACK (R79). -/
  | txRollbackRow (port : Port) (timeout : Nat)
  /-- OPU_GROUP_ENTRY (R113), in the ACLK cycle `aclk` of a PCLK cycle (17 R484); `upsets` here and below are the flips of the words that the row
  reads (log 133). -/
  | opuGroupEntry (opu : Fin 128) (aclk : Nat) (upsets : List Upset)
  /-- TILE_FILL_COMPLETE (R118). -/
  | tileFillComplete (opu : Fin 128)
  /-- DRAIN_ROW_ACCEPT (R120). -/
  | drainRowAccept (cl : Fin 32) (drain : Fin 3) (aclk : Nat) (upsets : List Upset)
  /-- ACC_LOAD_ROW (R119). -/
  | accLoadRow (opu : Fin 128) (aclk : Nat) (upsets : List Upset)
  /-- WEIGHT_SLOT_FILLED (R125). -/
  | weightSlotFilled (opu : Fin 128) (slot : Nat)
  /-- DRAIN_STALL (R137). -/
  | drainStallRow (opu : Fin 128)
  /-- OP_CLR_CYCLES (R135). -/
  | opClrCycles (port : Port) (opu : Fin 128)
  /-- OP_CLR_ECC (R135). -/
  | opClrEcc (port : Port) (opu : Fin 128)
  /-- VE_ROW_LAND (R142). -/
  | veRowLand (ve : Fin 64) (stream : Fin 2) (upsets : List Upset)
  /-- LANDING_BUFFER_RELEASE (R143). -/
  | landingBufferRelease (ve : Fin 64)
  /-- VE_GROUP_RUN (R153). -/
  | veGroupRun (ve : Fin 64) (aclk : Nat) (upsets : List Upset)
  /-- ROWSTAT_FINALISATION (R188). -/
  | rowstatFinalisation (ve : Fin 64) (upsets : List Upset)
  /-- VE_OUTPUT_ROW (R159). -/
  | veOutputRow (ve : Fin 64)
  /-- SUMMARY_AND_GUARDS (R164). -/
  | summaryAndGuards (queue : Fin 512) (count : Nat)
  /-- LAND_WAIT (R169). -/
  | landWaitRow (ve : Fin 64)
  /-- VE_CLR_CYCLES (R168). -/
  | veClrCycles (port : Port) (ve : Fin 64)
  /-- VE_CLR_ECC (R168). -/
  | veClrEcc (port : Port) (ve : Fin 64)
  /-- CLR_TBL (R199). -/
  | clrTbl (port : Port) (ve : Fin 64)
  /-- ADD (R150). -/
  | veAdd (ve : Fin 64) (m : Fin 128) (n : Fin 256) (dst : Fin 8) (srcA srcB : Fin 64)
  /-- SUB (R150). -/
  | veSub (ve : Fin 64) (m : Fin 128) (n : Fin 256) (dst : Fin 8) (srcA srcB : Fin 64)
  /-- MUL (R150). -/
  | veMul (ve : Fin 64) (m : Fin 128) (n : Fin 256) (dst : Fin 8) (srcA srcB : Fin 64)
  /-- FMA (R150). -/
  | veFma (ve : Fin 64) (m : Fin 128) (n : Fin 256) (dst : Fin 8) (srcA srcB srcC : Fin 64)
  /-- FMS (R150). -/
  | veFms (ve : Fin 64) (m : Fin 128) (n : Fin 256) (dst : Fin 8) (srcA srcB srcC : Fin 64)
  /-- MAX (R151). -/
  | veMax (ve : Fin 64) (m : Fin 128) (n : Fin 256) (dst : Fin 8) (srcA srcB : Fin 64)
  /-- MIN (R151). -/
  | veMin (ve : Fin 64) (m : Fin 128) (n : Fin 256) (dst : Fin 8) (srcA srcB : Fin 64)
  /-- ABS (R150). -/
  | veAbs (ve : Fin 64) (m : Fin 128) (n : Fin 256) (dst : Fin 8) (srcA : Fin 64)
  /-- NEG (R150). -/
  | veNeg (ve : Fin 64) (m : Fin 128) (n : Fin 256) (dst : Fin 8) (srcA : Fin 64)
  /-- CLAMP (R151). -/
  | veClamp (ve : Fin 64) (m : Fin 128) (n : Fin 256) (dst : Fin 8) (srcA srcB srcC : Fin 64)
  /-- DIV (R151). -/
  | veDiv (ve : Fin 64) (m : Fin 128) (n : Fin 256) (dst : Fin 8) (srcA srcB : Fin 64)
  /-- SQRT (R151). -/
  | veSqrt (ve : Fin 64) (m : Fin 128) (n : Fin 256) (dst : Fin 8) (srcA : Fin 64)
  /-- SFU (R176). -/
  | veSfu (ve : Fin 64) (m : Fin 128) (n : Fin 256) (dst : Fin 8) (srcA srcB : Fin 64) (upsets : List Upset)
  /-- CVTR (R151). -/
  | veCvtr (ve : Fin 64) (m : Fin 128) (n : Fin 256) (dst : Fin 8) (srcA srcB : Fin 64)
  /-- SELGT (R150). -/
  | veSelgt (ve : Fin 64) (m : Fin 128) (n : Fin 256) (dst : Fin 8) (srcA srcB srcC : Fin 64)
  /-- CMPEQ (R150). -/
  | veCmpeq (ve : Fin 64) (m : Fin 128) (n : Fin 256) (dst : Fin 8) (srcA srcB : Fin 64)
  /-- CMPLT (R150). -/
  | veCmplt (ve : Fin 64) (m : Fin 128) (n : Fin 256) (dst : Fin 8) (srcA srcB : Fin 64)
  /-- CMPLE (R150). -/
  | veCmple (ve : Fin 64) (m : Fin 128) (n : Fin 256) (dst : Fin 8) (srcA srcB : Fin 64)
  /-- ISNAN (R150). -/
  | veIsnan (ve : Fin 64) (m : Fin 128) (n : Fin 256) (dst : Fin 8) (srcA : Fin 64)
  /-- SEL (R151). -/
  | veSel (ve : Fin 64) (m : Fin 128) (n : Fin 256) (dst : Fin 8) (srcA srcB srcC : Fin 64)
  /-- IADD (R150). -/
  | veIadd (ve : Fin 64) (m : Fin 128) (n : Fin 256) (dst : Fin 8) (srcA srcB : Fin 64)
  /-- ISUB (R150). -/
  | veIsub (ve : Fin 64) (m : Fin 128) (n : Fin 256) (dst : Fin 8) (srcA srcB : Fin 64)
  /-- IMUL (R150). -/
  | veImul (ve : Fin 64) (m : Fin 128) (n : Fin 256) (dst : Fin 8) (srcA srcB : Fin 64)
  /-- AND (R150). -/
  | veAnd (ve : Fin 64) (m : Fin 128) (n : Fin 256) (dst : Fin 8) (srcA srcB : Fin 64)
  /-- OR (R150). -/
  | veOr (ve : Fin 64) (m : Fin 128) (n : Fin 256) (dst : Fin 8) (srcA srcB : Fin 64)
  /-- XOR (R150). -/
  | veXor (ve : Fin 64) (m : Fin 128) (n : Fin 256) (dst : Fin 8) (srcA srcB : Fin 64)
  /-- SHL (R150). -/
  | veShl (ve : Fin 64) (m : Fin 128) (n : Fin 256) (dst : Fin 8) (srcA srcB : Fin 64)
  /-- SHR (R150). -/
  | veShr (ve : Fin 64) (m : Fin 128) (n : Fin 256) (dst : Fin 8) (srcA srcB : Fin 64)
  /-- SAR (R150). -/
  | veSar (ve : Fin 64) (m : Fin 128) (n : Fin 256) (dst : Fin 8) (srcA srcB : Fin 64)
  /-- ICMPLT (R150). -/
  | veIcmplt (ve : Fin 64) (m : Fin 128) (n : Fin 256) (dst : Fin 8) (srcA srcB : Fin 64)
  /-- CVTIF (R150). -/
  | veCvtif (ve : Fin 64) (m : Fin 128) (n : Fin 256) (dst : Fin 8) (srcA : Fin 64)
  /-- CVTFI (R151). -/
  | veCvtfi (ve : Fin 64) (m : Fin 128) (n : Fin 256) (dst : Fin 8) (srcA : Fin 64)
  /-- MOV (R162). -/
  | veMov (ve : Fin 64) (m : Fin 128) (n : Fin 256) (dst : Fin 8) (srcA : Fin 64)
  /-- LOOP (R230). -/
  | streamLoopRow (cl : Fin 32) (entry : Fin 8)
  /-- END (R230). -/
  | streamEndRow (cl : Fin 32) (entry : Fin 8)
  /-- RUN (R231). -/
  | streamRunRow (cl : Fin 32) (entry : Fin 8)
  /-- STREAM_ADD (R230). -/
  | streamAddRow (cl : Fin 32) (entry : Fin 8)
  /-- PAD (R231). -/
  | streamPadRow (cl : Fin 32) (entry : Fin 8)
  /-- STREAM_FETCH (R248). -/
  | streamFetchRow (cl : Fin 32) (entry : Fin 8) (upsets : List Upset)
  /-- REMOTE_READ_REQUEST (R241). -/
  | remoteReadRequest (src va bytes : Nat) (upsets : List Upset)
  /-- REMOTE_READ_RESPONSE (R241). -/
  | remoteReadResponse (src va : Nat) (data : List Byte) (poison : Nat) (fault : Bool)
  /-- REMOTE_READ_TIMEOUT (R241). -/
  | remoteReadTimeout (cl : Fin 32) (entry : Fin 8)
  /-- HOIST_ROW_FORWARD (R254). -/
  | hoistRowForward (cl : Fin 32) (upsets : List Upset)
  /-- SE_CLR_BYTES (R259). -/
  | seClrBytes (port : Port) (cl : Fin 32)
  /-- SE_CLR_IDX (R259). -/
  | seClrIdx (port : Port) (cl : Fin 32)
  /-- SE_CLR_ECC (R259). -/
  | seClrEcc (port : Port) (cl : Fin 32)
  /-- LODE_READ (R272). -/
  | lodeReadRow (lode : Fin 12) (addr : Nat) (flips : List Nat)
  /-- LODE_WRITE (R272). -/
  | lodeWriteRow (lode : Fin 12) (addr lo hi : Nat) (word0 word1 : W32) (poison0 poison1 : Bool) (flips0 flips1 stored : List Nat)
  /-- PATROL_SCRUB_READ (R274). -/
  | patrolScrubRead (unit : Fin 20) (flips : List Nat) (caughtUp : Bool)
  /-- SCRUB_CATCHUP (R274). -/
  | scrubCatchupRow (unit : Fin 20)
  /-- FILL_COPY (R277). -/
  | fillCopyRow (lode : Fin 12) (flips back : List Nat)
  /-- FILL_COMPLETE (R277). -/
  | fillCompleteRow (lode : Fin 12)
  /-- LODE_RECALIBRATION (R269). -/
  | lodeRecalibration (lode : Fin 12)
  /-- STACK_TEMP_READOUT (R268). -/
  | stackTempReadout (lode : Fin 12) (temp : Nat)
  /-- LODE_FAILURE (R270). -/
  | lodeFailureRow (lode : Fin 12)
  /-- STAGING_SLICE_FAILURE (R283). -/
  | stagingSliceFailure (slice : Fin 8)
  /-- LD_CLR_ECC (R284). -/
  | ldClrEcc (port : Port) (lode : Fin 12)
  /-- AD_EN_WRITE (R475). -/
  | adEnWrite (port : Port) (adit : Fin 18) (en : Bool)
  /-- PRESENCE_DETECTED (R291). -/
  | presenceDetected (adit : Fin 18) (optical : Bool)
  /-- PRESENCE_LOST (R291). -/
  | presenceLostRow (adit : Fin 18)
  /-- TRAIN_COMPLETE (R291). -/
  | trainComplete (adit : Fin 18) (reversed : Bool)
  /-- TRAIN_TIMEOUT (R291). -/
  | trainTimeoutRow (adit : Fin 18)
  /-- ALIGN_COMPLETE (R291). -/
  | alignComplete (adit : Fin 18)
  /-- ALIGN_TIMEOUT (R291). -/
  | alignTimeoutRow (adit : Fin 18)
  /-- IDENT_FLIT (R292). -/
  | identFlitRow (adit : Fin 18) (id peerAdit step : Nat) (up : Bool)
  /-- IDENT_SEND_TIMER (R292). -/
  | identSendTimer (adit : Fin 18)
  /-- RETRAIN_TRIGGER (R293). -/
  | retrainTrigger (adit : Fin 18)
  /-- AD_RETRAIN (R293). -/
  | adRetrain (port : Port) (adit : Fin 18) (en : Bool)
  /-- QUICK_RETRAIN_COMPLETE (R293). -/
  | quickRetrainComplete (adit : Fin 18)
  /-- QUICK_RETRAIN_FAIL (R293). -/
  | quickRetrainFail (adit : Fin 18)
  /-- DOWN_RETRY_TIMER (R291). -/
  | downRetryTimer (adit : Fin 18)
  /-- AD_CLR_CNT (R310). -/
  | adClrCnt (port : Port) (adit : Fin 18) (en : Bool)
  /-- DATA_FLIT (R289): its number in the stream, the symbols in error of each codeword that it overlaps, and its bytes (log 164). -/
  | dataFlitRow (link : Fin 20) (number : Fin 4096) (errors : List Nat) (flit : List Byte)
  /-- ACK_FLIT (R289). -/
  | ackFlitRow (link : Fin 20) (count : Nat)
  /-- NAK_FLIT (R289). -/
  | nakFlitRow (link : Fin 20) (count : Nat)
  /-- ACK_TIMER (R289). -/
  | ackTimer (link : Fin 20)
  /-- REPLAY_TIMEOUT (R289). -/
  | replayTimeoutRow (link : Fin 20)
  /-- MESSAGE_FORWARD (R299). -/
  | messageForward (msg : Msg)
  /-- JOIN (R302). -/
  | join (port : Port)
  /-- JOIN_REQUEST (R302). -/
  | joinRequest (src : Nat)
  /-- PROPOSE (R303). -/
  | propose (port : Port)
  /-- CANCEL (R311). -/
  | cancel (port : Port)
  /-- ROUTE_Q (R517). -/
  | routeQRow (adit : Fin 18) (msg : Msg)
  /-- ROUTE_A (R517). -/
  | routeARow (adit : Fin 18) (msg : Msg)
  /-- ADOPTED_TABLES (R303) that follow the decision of an epoch (13 R355). -/
  | adoptedTables (src mgen epoch : Nat) (tables : Tables) (barrier heartbeat : Nat)
  /-- HEARTBEAT (R481). -/
  | heartbeatRow (src mgen : Nat)
  /-- HEARTBEAT_ANSWER (R305). -/
  | heartbeatAnswerRow (src mgen : Nat)
  /-- HEARTBEAT_TIMEOUT (R305). -/
  | heartbeatTimeoutRow (dev : Nat)
  /-- FAILURE_DECLARATION (R336). -/
  | failureDeclaration (src mgen dev : Nat)
  /-- TAKEOVER_REQUEST (R306). -/
  | takeoverRequestRow (src mgen : Nat)
  /-- TAKEOVER_ACK (R306). -/
  | takeoverAckRow (src mgen : Nat)
  /-- REDUCE_SCATTER (R323). -/
  | reduceScatter (queue : Fin 512) (count : Nat)
  /-- ALL_GATHER (R331). -/
  | allGather (queue : Fin 512) (count : Nat)
  /-- BROADCAST (R332). -/
  | broadcast (queue : Fin 512) (count : Nat)
  /-- SHIFT (R333). -/
  | shift (queue : Fin 512) (count : Nat)
  /-- CHUNK_DATA (R319). -/
  | chunkDataRow (adit : Fin 18) (msg : Msg) (upsets : List Upset)
  /-- CHUNK_GRANT (R320). -/
  | chunkGrantRow (adit : Fin 18) (msg : Msg)
  /-- GRANT_TIMER (R320). -/
  | grantTimerRow (queue : Fin 512) (count : Nat)
  /-- CHUNK_ABORT (R338). -/
  | chunkAbortRow (adit : Fin 18) (msg : Msg)
  /-- CHUNK_CARRY (R334). -/
  | chunkCarryRow (adit : Fin 18) (msg : Msg)
  /-- CHUNK_CLOSE (R335). -/
  | chunkClose (adit : Fin 18) (msg : Msg)
  /-- CHUNK_CLOSED (R335). -/
  | chunkClosed (adit : Fin 18) (msg : Msg)
  /-- CHUNK_RESTART (R336). -/
  | chunkRestart (adit : Fin 18) (msg : Msg)
  /-- COLLECTIVE_FINISH (R335). -/
  | collectiveFinish (queue : Fin 512) (count : Nat)
  /-- BARRIER_TIMEOUT (R337). -/
  | barrierTimeoutRow (queue : Fin 512) (count : Nat)
  /-- WAIT_REPORT (R337). -/
  | waitReport (src mgen tally group waits : Nat)
  /-- WAIT_REPORT_GATHER_END (R337). -/
  | waitReportGatherEnd (tally : Nat)
  /-- SCAN_CARRY_TIMEOUT (R216). -/
  | scanCarryTimeout (queue : Fin 512) (count : Nat)
  /-- SEGMENT_CARRY_ARRIVAL (R212). -/
  | segmentCarryArrival (ve : Fin 64) (upsets : List Upset)
  /-- PITHEAD (R347). -/
  | pithead (queue : Fin 512) (count : Nat)
  /-- VOTE (R352). -/
  | vote (adit : Fin 18) (msg : Msg)
  /-- LOG_ACK (R353). -/
  | logAck (adit : Fin 18) (msg : Msg)
  /-- DECISION (R356). -/
  | decision (adit : Fin 18) (msg : Msg)
  /-- SECURING_STREAM (R386). -/
  | securingStream (delays : Bool)
  /-- SECURING_COMPLETE (R388). -/
  | securingComplete (peerAck ledgerAck : Bool)
  /-- SECURING_FAILURE (R388); `refused` where the keep holder refused the slot (R383). -/
  | securingFailure (cause target : Nat) (refused : Bool)
  /-- KEEP_RECORD_RECEIVE (R383). -/
  | keepRecordReceive (src : Nat) (slot : Fin 2) (off : Nat) (part : KeepPart) (data : List Byte)
  /-- SECURE (R428). -/
  | secure (queue : Fin 512) (count : Nat)
  /-- RESTORE (R393). -/
  | restore (queue : Fin 512) (count : Nat) (data : RestoreData)
  /-- DIGEST_REQ (R395). -/
  | digestReqRow (msg : Msg)
  /-- DIGEST_ANS (R395). -/
  | digestAnsRow (msg : Msg)
  /-- RETIRE (R374). -/
  | retire (port : Port) (cl : Fin 32)
  /-- CLUSTER_FAILURE (R373). -/
  | clusterFailure (cl : Fin 32) (cause : Nat)
  /-- FABRIC_DOMAIN_FAILURE (R377). -/
  | fabricDomainFailure (half : Fin 2)
  /-- CH_TRAINING_START (R403). -/
  | chTrainingStart (port : Fin 2)
  /-- CH_TRAINING_COMPLETE (R407). -/
  | chTrainingComplete (port : Fin 2)
  /-- CH_TRAINING_TIMEOUT (R403). -/
  | chTrainingTimeout (port : Fin 2)
  /-- CH_RECOVERY (R403). -/
  | chRecovery (port : Fin 2)
  /-- CH_RECOVERY_COMPLETE (R407). -/
  | chRecoveryComplete (port : Fin 2)
  /-- CH_RECOVERY_TIMEOUT (R403). -/
  | chRecoveryTimeout (port : Fin 2)
  /-- CH_DOWN_RETRY (R403). -/
  | chDownRetry (port : Fin 2)
  /-- CAPS_FLIT (R408). -/
  | capsFlitRow (port : Fin 2) (caps : List Byte)
  /-- CFG_RD (R408). -/
  | cfgRd (port : Fin 2) (txn : ChTxn)
  /-- CFG_WR (R408). -/
  | cfgWr (port : Fin 2) (txn : ChTxn)
  /-- RD (R409): for a device RD `port` is the half whose traffic it is (R405); `upsets` are the flips of the words that a host RD reads (04 R107). -/
  | rdTxn (port : Fin 2) (device : Bool) (txn : ChTxn) (upsets : List Upset)
  /-- WR (R409): for a device WR `port` is the half whose traffic it is (R405). -/
  | wrTxn (port : Fin 2) (device : Bool) (txn : ChTxn)
  /-- INTR (R438). -/
  | intr (ring : Fin 16)
  /-- CPL (R410). -/
  | cpl (port : Fin 2) (txn : ChTxn)
  /-- CPL_DATA (R411). -/
  | cplData (port : Fin 2) (txn : ChTxn)
  /-- COMPLETION_TIMEOUT (R410). -/
  | completionTimeout (port : Fin 2) (tag : Nat)
  /-- LOAD (R416). -/
  | ctxLoadRow (port : Port) (ctx : Fin 64)
  /-- READ (R416). -/
  | ctxReadRow (port : Port) (ctx : Fin 64)
  /-- UNFENCE (R416). -/
  | ctxUnfenceRow (port : Port) (ctx : Fin 64)
  /-- INVALIDATE (R416). -/
  | ctxInvalidateRow (port : Port) (ctx : Fin 64)
  /-- SQ_TAIL (R418). -/
  | sqTail (port : Port) (queue : Fin 512) (value : W32)
  /-- ENABLE (R419). -/
  | sqEnable (port : Port) (queue : Fin 512) (en : Bool)
  /-- RESUME (R419). -/
  | sqResume (port : Port) (queue : Fin 512)
  /-- DISCARD (R419). -/
  | sqDiscard (port : Port) (queue : Fin 512)
  /-- DESCRIPTOR_FETCH (R420). -/
  | descriptorFetch (queue : Fin 512)
  /-- COMMAND_COMPLETION (R421). -/
  | commandCompletion (queue : Fin 512)
  /-- KERNEL (R242). -/
  | kernel (queue : Fin 512) (count : Nat)
  /-- COPY (R427). -/
  | copy (queue : Fin 512) (count : Nat)
  /-- GATHER (R427). -/
  | gatherRow (queue : Fin 512) (count : Nat)
  /-- SCATTER (R427). -/
  | scatterRow (queue : Fin 512) (count : Nat)
  /-- SCAN (R209). -/
  | scanRowCmd (queue : Fin 512) (count : Nat)
  /-- FENCE (R429). -/
  | fence (queue : Fin 512) (count : Nat)
  /-- DRAIN (R429). -/
  | drain (queue : Fin 512) (count : Nat)
  /-- WAIT_TOKEN_ONLY (R430). -/
  | waitTokenOnly (queue : Fin 512) (count : Nat)
  /-- WAIT_UNTIL_TIME (R430). -/
  | waitUntilTime (queue : Fin 512) (count : Nat)
  /-- WAIT_FOR_TIME (R430). -/
  | waitForTime (queue : Fin 512) (count : Nat)
  /-- WAIT_TIMER_EXPIRY (R430). -/
  | waitTimerExpiry (queue : Fin 512) (count : Nat)
  /-- EVENT (R431). -/
  | event (queue : Fin 512) (count : Nat)
  /-- TXN_CMD_BEGIN (R432). -/
  | txnCmdBeginRow (queue : Fin 512) (count : Nat)
  /-- TXN_CMD_COMMIT (R432). -/
  | txnCmdCommitRow (queue : Fin 512) (count : Nat)
  /-- TXN_CMD_ROLLBACK (R432). -/
  | txnCmdRollbackRow (queue : Fin 512) (count : Nat)
  /-- TXN_CMD_WRITE (R432). -/
  | txnCmdWriteRow (queue : Fin 512) (count : Nat)
  /-- EV_HEAD (R437). -/
  | evHeadRow (port : Port) (ring : Fin 16) (value : W32)
  /-- EVENT_RECORD_WRITE (R437). -/
  | eventRecordWrite (ring : Fin 16)
  /-- INTERRUPT_MODERATION_EXPIRY (R438). -/
  | interruptModerationExpiry (ring : Fin 16)
  /-- CORE_WATCHDOG_FIRE (R453). -/
  | coreWatchdogFire (cl : Fin 32)
  /-- SCH_WATCHDOG_FIRE (R454). -/
  | schWatchdogFire (takeUs : Nat)
  /-- RCX_WATCHDOG_FIRE (R455). -/
  | rcxWatchdogFire (core : Fin 4)
  /-- WATCHDOG_SERVICE (R445); `upsets` are the flips of the image store that a restart reads (18 R503). -/
  | watchdogServiceRow (proc : ProcId) (nearMiss : Bool) (upsets : List Upset)
  /-- RESTART_LIMIT_MISSED (R445). -/
  | restartLimitMissed (proc : ProcId)
  /-- STAGE (R460). -/
  | stageRow (port : Port)
  /-- ACTIVATE (R461). -/
  | activateRow (port : Port)
  /-- FW_DISCARD (R461). -/
  | fwDiscardRow (port : Port)
  /-- ACTIVITY_STATE_ENTRY (R480). -/
  | activityStateEntry (st : Fin 4)
  /-- WAKE_CAUSE (R481). -/
  | wakeCauseRow (cause : Wake)
  /-- TOL_US (R479). -/
  | tolUs (port : Port) (value : W32)
  /-- GOVERNOR_PARK (R485). -/
  | governorParkRow (cl : Fin 32)
  /-- GOVERNOR_UNPARK (R485). -/
  | governorUnparkCmd (cl : Fin 32)
  /-- PARK (R486). -/
  | park (port : Port) (cl : Fin 32) (value : W32)
  /-- DIE_SENSOR_SAMPLE (R487). -/
  | dieSensorSample (readings : List Nat)
  /-- FORCE (R487). -/
  | force (port : Port) (value : W32)
  /-- BOOT_PHASE_COMPLETE (R493): the lodes and clusters, the spares (lode, pseudo-channel, spare) and the row groups (lode, pseudo-channel, row
  group) that fail their tests. -/
  | bootPhaseComplete (badLodes badClusters : List Nat) (badSpares badRows : List (Nat × Nat × Nat))
  /-- SAMPLE_PRELOAD (R510). -/
  | jtagSamplePreload (bits : List Bool)
  /-- DBG_TOKEN (R513). -/
  | dbgTokenRow (token : List Byte)
  /-- DBG_WINDOW (R514). -/
  | dbgWindowRow (write : Bool) (off : Nat) (data : W32)
  /-- DIP_END (R36). -/
  | dipEndRow (us : Nat)
  /-- PEER_RETRAIN_SIGNAL (R293). -/
  | peerRetrainSignal (adit : Fin 18)
  /-- RESTORE_BARRIER_TIMEOUT (R393). -/
  | restoreBarrierTimeout (queue : Fin 512) (count : Nat)
  /-- RED_CLR_CNT (R342). -/
  | redClrCnt (port : Port) (half : Fin 2)
  /-- RED_CLR_BYTES (R342). -/
  | redClrBytes (port : Port) (half : Fin 2)
  /-- EV_CFG_ENABLE (R437). -/
  | evCfgEnable (port : Port) (ring : Fin 16) (value : W32)
  /-- REGULATOR_FAULT (R487). -/
  | regulatorFaultRow (lost : Bool)
  /-- MASTER_SILENCE_TIMEOUT (R306). -/
  | masterSilenceTimeout
  /-- POWER_DOWN (R41). -/
  | powerDown
  /-- UNDER_VOLTAGE_SHUTDOWN (R37). -/
  | underVoltageShutdown
  /-- DIP_TIMER_EXPIRY (R36). -/
  | dipTimerExpiry
  /-- DIP_TIMER_RESET (R36). -/
  | dipTimerReset
  /-- ELECTRONIC_CURRENT_LIMIT_TRIP (R38). -/
  | electronicCurrentLimitTrip
  /-- MOD_RST_N_LOW (R492). -/
  | modRstNLow
  /-- MOD_RST_N_HIGH (R43). -/
  | modRstNHigh
  /-- REFCLK_LOST (R51). -/
  | refclkLostEvent
  /-- PEAK_W_READ (R56). -/
  | peakWRead
  /-- FD_N_LOW (R47). -/
  | fdNLow
  /-- FD_N_HIGH (R489). -/
  | fdNHigh
  /-- TX_SAFE_POINT_APPLY (R79). -/
  | txSafePointApply
  /-- JOIN_REQUEST_TIMER (R302). -/
  | joinRequestTimer
  /-- GANG_FORMATION (R302). -/
  | gangFormationRow
  /-- FORMATION_TIMEOUT (R302). -/
  | formationTimeoutRow
  /-- HEARTBEAT_TIMER (R305). -/
  | heartbeatTimerRow
  /-- TAKEOVER_TIMEOUT (R306). -/
  | takeoverTimeoutRow
  /-- VOTE_BARRIER_TIMEOUT (R352). -/
  | voteBarrierTimeout
  /-- LOG_ACK_TIMEOUT (R353). -/
  | logAckTimeoutRow
  /-- COMMIT_APPLY (R356). -/
  | commitApplyRow
  /-- ABORT_APPLY (R357). -/
  | abortApplyRow
  /-- CANARY_UPDATE (R379). -/
  | canaryUpdateRow
  /-- HOST_ACCESS_TIMEOUT (R405). -/
  | hostAccessTimeout
  /-- DISPATCH_OPPORTUNITY (R447). -/
  | dispatchOpportunityRow
  /-- PWR_WATCHDOG_FIRE (R456). -/
  | pwrWatchdogFire
  /-- SEC_WATCHDOG_FIRE (R457). -/
  | secWatchdogFire
  /-- PWR_ABSENT_TIMEOUT (R456). -/
  | pwrAbsentTimeout
  /-- STAGE_COMPLETE (R500). -/
  | stageCompleteRow
  /-- ROLL_START (R461). -/
  | rollStartRow
  /-- UPDATE_DEFERRED (R461). -/
  | updateDeferredRow
  /-- ROLL_STEP_COMPLETE (R462). -/
  | rollStepCompleteRow
  /-- ROLL_STEP_FAIL (R464). -/
  | rollStepFailRow
  /-- ACTIVITY_EXIT_COMPLETE (R478). -/
  | activityExitComplete
  /-- FIREDAMP_FALL_TIMER (R489). -/
  | firedampFallTimer
  /-- FD3_RECOVERY (R489). -/
  | fd3RecoveryRow
  /-- FD1_HOLD_EXPIRY (R489). -/
  | fd1HoldExpiryRow
  /-- MODULE (R491). -/
  | moduleRow
  /-- BOOT_PHASE_TIMEOUT (R493). -/
  | bootPhaseTimeout
  /-- REQ (R506). -/
  | attestReq
  /-- ATTESTATION_COMPLETE (R506). -/
  | attestationComplete
  /-- BYPASS (R510). -/
  | jtagBypass
  /-- IDCODE (R510). -/
  | jtagIdcode
  /-- EXTEST (R511). -/
  | jtagExtest
  /-- CLAMP_INSTRUCTION (R511). -/
  | jtagClamp
  /-- HIGHZ (R511). -/
  | jtagHighz
  /-- DBG_CHAL (R510). -/
  | dbgChalRow
  /-- TRST_N (R491). -/
  | trstN
  /-- STRAP_MISMATCH_CLEARED (R55). -/
  | strapMismatchCleared
  /-- REFCLK_BACK (R51). -/
  | refclkBackRow
  /-- ROUTE_ANSWER_TIMEOUT (R517). -/
  | routeAnswerTimeout
  deriving DecidableEq, Repr

end Sys2Proof
end

