-- ==== Sys2Proof/Decode.lean ====
section
/-!
DEFINITION. The command table gives its rows no bits, so no word spells a command (log 16): a command is an event with operands.
-/

namespace Sys2Proof

/-- The command that a word spells by the table's bits: none, for no row of the table has bits. -/
def decodeTableWord (_nbits _w : Nat) : Option Instr := none

end Sys2Proof
end

