-- ==== Sys2Proof/Config.lean ====
section
/-!
DEFINITION. What the spec leaves open: opaque constants with no body, applied to plain data (log 2, 5, 7, 8).
No proof can see a value of any of them.
-/

namespace Sys2Proof.Config

/-- A fresh free number for each value of the free counter (log 2). -/
opaque freeNat : Nat → Nat

/-- The place of each column in the Hsiao code of 04 R106 (`width` 39) or 10 R271 (`width` 72): the spec gives the columns'
weights and leaves their order, and which of them a code takes, open. Columns of one weight stand by rising key (log 7). -/
opaque columnKey : (width column : Nat) → Nat

/-- The fused values of this module (18 R497), per module (log 5). -/
opaque deviceSecret : BitVec 256
opaque rootSlots : Vector (BitVec 256) 4
opaque revokedFuses : BitVec 4
opaque floorSlots : Vector (Option W32) 8
opaque fieldCode : Byte
opaque returnCode : Byte
opaque bootCount : Nat
opaque certificate : List Byte

/-- The two firmware banks as manufactured or last left (16 R459) (log 5). -/
opaque activeBank : List Byte
opaque stagedBank : List Byte

end Sys2Proof.Config
end

