-- ==== Sys2Proof/Machine/Map.lean ====
section
/-!
DEFINITION. Reading and writing sparse maps. An unlisted key reads as the default; writing the default removes the
entry, so that equal contents are equal lists.
-/

namespace Sys2Proof.Machine

/-- The value at key `k`; `d` where nothing is listed. -/
def mapGet {α : Type} (d : α) : SMap α → Nat → α
  | [], _ => d
  | (k', v) :: t, k => if k' = k then v else mapGet d t k

/-- Removes key `k`. -/
def mapErase {α : Type} (m : SMap α) (k : Nat) : SMap α :=
  m.filter fun e => e.1 != k

/-- Inserts `(k, v)` before the first key not below `k`. -/
def mapInsert {α : Type} : SMap α → Nat → α → SMap α
  | [], k, v => [(k, v)]
  | (k', v') :: t, k, v => if k ≤ k' then (k, v) :: (k', v') :: t else (k', v') :: mapInsert t k v

/-- Writes `v` at `k`, keeping the canonical form. -/
def mapSet {α : Type} [DecidableEq α] (d : α) (m : SMap α) (k : Nat) (v : α) : SMap α :=
  if v = d then mapErase m k else mapInsert (mapErase m k) k v

/-- Every key of `m` is above `lo`, keys strictly rise, and no value is the default. -/
def mapWfFrom {α : Type} [DecidableEq α] (d : α) : Option Nat → SMap α → Bool
  | _, [] => true
  | lo, (k, v) :: t =>
    (match lo with
     | none => true
     | some l => decide (l < k)) && decide (v ≠ d) && mapWfFrom d (some k) t

/-- The canonical form of a sparse map. -/
def mapWf {α : Type} [DecidableEq α] (d : α) (m : SMap α) : Bool :=
  mapWfFrom d none m

/-- Adds `k` to a sorted list without repeats. -/
def setInsert : List Nat → Nat → List Nat
  | [], k => [k]
  | h :: t, k => if k < h then k :: h :: t else if k = h then h :: t else h :: setInsert t k

/-- Removes `k` from a list without repeats. -/
def setErase (l : List Nat) (k : Nat) : List Nat :=
  l.filter fun x => x != k

/-- Replaces element `i` of a list; a list too short is unchanged. -/
def listSet {α : Type} (l : List α) (i : Nat) (v : α) : List α :=
  l.set i v

/-- Element `i` of a list, or `d`. -/
def listGet {α : Type} (d : α) (l : List α) (i : Nat) : α :=
  l.getD i d

/-- The elements of `l` in reverse of a fold: applies `f` to every number below `n`, ascending. -/
def upTo {β : Type} (n : Nat) (f : β → Nat → β) (b : β) : β :=
  (List.range n).foldl f b

end Sys2Proof.Machine
end

