-- ==== Sys2Proof/Machine/Bits.lean ====
section
/-!
DEFINITION. Bit fields, byte order (00_scope.md R6), modular sequence comparison (11 R301) and saturating counts.
-/

namespace Sys2Proof.Machine

/-- Field `NAME[msb:lsb]` of a word, as a number. -/
def field (w : W32) (msb lsb : Nat) : Nat :=
  (w.toNat >>> lsb) % 2 ^ (msb + 1 - lsb)

/-- Bit `n` of a word. -/
def bit (w : W32) (n : Nat) : Bool :=
  w.getLsbD n

/-- A word whose bits `msb` to `lsb` are 1. -/
def fieldMask (msb lsb : Nat) : W32 :=
  BitVec.ofNat 32 ((2 ^ (msb + 1 - lsb) - 1) <<< lsb)

/-- The word with field `[msb:lsb]` replaced by the low bits of `v`. -/
def setField (w : W32) (msb lsb v : Nat) : W32 :=
  (w &&& ~~~ fieldMask msb lsb) ||| (BitVec.ofNat 32 (v <<< lsb) &&& fieldMask msb lsb)

/-- The word with bit `n` set to `b`. -/
def setBit (w : W32) (n : Nat) (b : Bool) : W32 :=
  setField w n n (if b then 1 else 0)

/-- Adds to a field that stops at its maximum. -/
def addSat (w : W32) (msb lsb n : Nat) : W32 :=
  setField w msb lsb (min (field w msb lsb + n) (2 ^ (msb + 1 - lsb) - 1))

/-- 1 for true. -/
def b2n (b : Bool) : Nat :=
  if b then 1 else 0

/-- A number from bytes, least significant first (R6). -/
def leNat : List Byte → Nat
  | [] => 0
  | b :: t => b.toNat + 256 * leNat t

/-- `n` bytes of a number, least significant first (R6). -/
def leBytes : Nat → Nat → List Byte
  | 0, _ => []
  | n + 1, v => BitVec.ofNat 8 v :: leBytes n (v / 256)

/-- `size` bytes at `off` of a structure, as a number; bytes past its end read zero. -/
def fieldAt (bs : List Byte) (off size : Nat) : Nat :=
  leNat ((bs.drop off).take size)

/-- Byte `off` of a structure as a number. -/
def byteAt (bs : List Byte) (off : Nat) : Nat :=
  fieldAt bs off 1

/-- True when bytes `off` to `off + size − 1` are zero. -/
def zeroAt (bs : List Byte) (off size : Nat) : Bool :=
  fieldAt bs off size == 0

/-- Replaces `size` bytes at `off` by the little-endian bytes of `v`. -/
def putAt (bs : List Byte) (off size v : Nat) : List Byte :=
  bs.take off ++ leBytes size v ++ bs.drop (off + size)

/-- Generation `a` is newer than `b`, modulo 2^16 (R301). -/
def newer16 (a b : Nat) : Bool :=
  let d := (a + 65536 - b % 65536) % 65536
  decide (1 ≤ d ∧ d ≤ 32767)

/-- The comparison of R301 widened to 32 bits (R420). -/
def newer32 (a b : Nat) : Bool :=
  let d := (a + 4294967296 - b % 4294967296) % 4294967296
  decide (1 ≤ d ∧ d ≤ 2147483647)

/-- Rounded-up division. -/
def ceilDiv (a b : Nat) : Nat :=
  (a + b - 1) / b

/-- A 32-bit word as a signed number. -/
def sx32 (n : Nat) : Int :=
  if n % 4294967296 < 2147483648 then (n % 4294967296 : Nat) else ((n % 4294967296 : Nat) : Int) - 4294967296

/-- An 8-bit value as a signed number. -/
def sx8 (n : Nat) : Int :=
  if n % 256 < 128 then (n % 256 : Nat) else ((n % 256 : Nat) : Int) - 256

/-- A 16-bit value as a signed number. -/
def sx16 (n : Nat) : Int :=
  if n % 65536 < 32768 then (n % 65536 : Nat) else ((n % 65536 : Nat) : Int) - 65536

/-- Bits needed to write `n`; 0 for 0. -/
def bitLen (n : Nat) : Nat :=
  if n = 0 then 0 else n.log2 + 1

/-- Rotation of a 32-bit word to the left. -/
def rotl32 (x : W32) (n : Nat) : W32 :=
  x.rotateLeft n

end Sys2Proof.Machine
end

