-- ==== Sys2Proof/Machine/Flags.lean ====
section
/-!
DEFINITION. Floating-point values and their one rounding (04 R81–R91), with every flag and count that a rounding
raises (06 R161, 04 R91). A value is held exactly as (−1)^neg · m · 2^e; nothing is rounded before the end.
-/

namespace Sys2Proof.Machine

/-- An exact value: NaN, an infinity, or a finite dyadic. A zero keeps its sign (R85). -/
inductive Fp where
  | nan
  | inf (neg : Bool)
  | fin (neg : Bool) (m : Nat) (e : Int)
  deriving DecidableEq, Repr

/-- How a format uses its top exponent (R81). -/
inductive FmtKind where
  | ieee   -- top exponent: infinity and NaN
  | e4m3   -- NaN only, at all ones
  | plain  -- every encoding is a number
  deriving DecidableEq, Repr

/-- A floating-point format: exponent bits, mantissa bits, bias (R81). -/
structure Fmt where
  eb : Nat
  mb : Nat
  bias : Nat
  kind : FmtKind
  deriving DecidableEq, Repr

/-- R81. -/
def fmtFP32 : Fmt := ⟨8, 23, 127, .ieee⟩
/-- R81. -/
def fmtBF16 : Fmt := ⟨8, 7, 127, .ieee⟩
/-- R81. -/
def fmtFP16 : Fmt := ⟨5, 10, 15, .ieee⟩
/-- R81. -/
def fmtE4M3 : Fmt := ⟨4, 3, 7, .e4m3⟩
/-- R81. -/
def fmtE5M2 : Fmt := ⟨5, 2, 15, .ieee⟩
/-- R81. -/
def fmtE2M1 : Fmt := ⟨2, 1, 1, .plain⟩

/-- The value of an encoding (R81). -/
def decodeFp (f : Fmt) (w : Nat) : Fp :=
  let man := w % 2 ^ f.mb
  let ex := (w >>> f.mb) % 2 ^ f.eb
  let neg := (w >>> (f.mb + f.eb)) % 2 == 1
  let low : Int := 1 - (f.bias : Int) - f.mb
  match f.kind, decide (ex = 2 ^ f.eb - 1) with
  | .ieee, true => if man = 0 then .inf neg else .nan
  | .e4m3, true => if man = 2 ^ f.mb - 1 then .nan else .fin neg (2 ^ f.mb + man) (low + ex - 1)
  | _, _ => if ex = 0 then .fin neg man low else .fin neg (2 ^ f.mb + man) (low + ex - 1)

/-- The canonical NaN of a format (R81); a format without NaN has none and answers 0. -/
def canonicalNaN (f : Fmt) : Nat :=
  match f.kind with
  | .ieee => (2 ^ f.eb - 1) <<< f.mb ||| 2 ^ (f.mb - 1)
  | .e4m3 => 2 ^ (f.eb + f.mb) - 1
  | .plain => 0

/-- An encoding with the sign bit set or clear. -/
def withSign (f : Fmt) (neg : Bool) (w : Nat) : Nat :=
  if neg then w + 2 ^ (f.eb + f.mb) else w

/-- The largest finite magnitude's encoding (R81). -/
def maxFinite (f : Fmt) : Nat :=
  match f.kind with
  | .ieee => (2 ^ f.eb - 1) <<< f.mb - 1
  | .e4m3 => 2 ^ (f.eb + f.mb) - 2
  | .plain => 2 ^ (f.eb + f.mb) - 1

/-- Exponent of the last place of the format's subnormals. -/
def qmin (f : Fmt) : Int :=
  1 - (f.bias : Int) - f.mb

/-! ### Flags (06 R161) -/

/-- R161 bit 0. -/
def flInvalid : Nat := 1
/-- R161 bit 1. -/
def flDivZero : Nat := 2
/-- R161 bit 2. -/
def flOverflow : Nat := 4
/-- R161 bit 3. -/
def flUnderflow : Nat := 8
/-- R161 bit 4. -/
def flSumOvf : Nat := 16
/-- R161 bit 5. -/
def flSat : Nat := 32

/-- An exact result before its rounding: `st` says that the value lies strictly between `v` and the next magnitude
of `v`'s own last place; `fl` holds the flags that the operation itself raises. -/
structure XR where
  v : Fp
  st : Bool := false
  fl : Nat := 0
  deriving DecidableEq, Repr

/-- Where a magnitude m·2^e lies on a grid of `p` significant bits whose last place is at least 2^qm: the lower
neighbour as (n, q) meaning n·2^q, and the part above it as `rem` of `2^k` (with `k` = 0 when exact). -/
def onGrid (p : Nat) (qm : Int) (m : Nat) (e : Int) : Nat × Int × Nat × Nat :=
  let q := max (e + (bitLen m : Int) - p) qm
  if q ≤ e then (m <<< (e - q).toNat, q, 0, 0)
  else
    let k := (q - e).toNat
    (m >>> k, q, m % 2 ^ k, k)

/-- Round to nearest, ties to even (R89): (n, q, inexact). -/
def roundNearest (p : Nat) (qm : Int) (m : Nat) (e : Int) (st : Bool) : Nat × Int × Bool :=
  let (n, q, rem, k) := onGrid p qm m e
  let twice := 2 * rem
  let up := decide (2 ^ k < twice) || (decide (k ≠ 0 ∧ twice = 2 ^ k) && (st || decide (n % 2 = 1)))
  (n + b2n up, q, st || decide (rem ≠ 0))

/-- Stochastic rounding with the 16 bits `r` (R90). -/
def roundStochastic (p : Nat) (qm : Int) (m : Nat) (e : Int) (r : Nat) : Nat × Int × Bool :=
  let (n, q, rem, k) := onGrid p qm m e
  if rem = 0 then (n, q, false)
  else
    let f := rem * 65536 / 2 ^ k
    (n + b2n (decide (65536 ≤ f + r)), q, true)

/-- The encoding of n·2^q on the format's grid, without its sign, as though the exponent range had no end. -/
def encodeMag (f : Fmt) (n : Nat) (q : Int) : Nat :=
  let (n, q) := if n = 2 ^ (f.mb + 1) then (2 ^ f.mb, q + 1) else (n, q)
  if n < 2 ^ f.mb then n else (((q - qmin f).toNat + 1) <<< f.mb) + (n - 2 ^ f.mb)

/-- True when the exact magnitude is not zero and lies below the smallest normal magnitude. -/
def isTiny (f : Fmt) (m : Nat) (e : Int) : Bool :=
  decide (m ≠ 0) && decide (e + (bitLen m : Int) ≤ 1 - (f.bias : Int))

/-- What an arithmetic unit writes: the exact result rounded once to nearest (R86), an overflow to infinity, every
NaN canonical (R84). `fl` is the flags of R161. -/
def roundTo (f : Fmt) (x : XR) : Nat × Nat :=
  match x.v with
  | .nan => (canonicalNaN f, x.fl)
  | .inf neg => (withSign f neg (maxFinite f + 1), x.fl)
  | .fin neg m e =>
    let (n, q, inexact) := roundNearest (f.mb + 1) (qmin f) m e x.st
    let w := encodeMag f n q
    let ovf := decide (maxFinite f < w)
    let w := if ovf then maxFinite f + 1 else w
    let tiny := isTiny f m e && inexact
    (withSign f neg w, x.fl ||| (if ovf then flOverflow else 0) ||| (if tiny then flUnderflow else 0))

/-- Rounding to FP32, without the flags. -/
def round32 (x : Fp) : W32 :=
  BitVec.ofNat 32 (roundTo fmtFP32 ⟨x, false, 0⟩).1

/-- The value of an FP32 word. -/
def fp32 (w : W32) : Fp :=
  decodeFp fmtFP32 w.toNat

/-! ### Exact arithmetic on values (R86) -/

/-- The value's numerator over 2^e for an exponent `e` not above its own. -/
def scaledTo (neg : Bool) (m : Nat) (e0 e : Int) : Int :=
  let a : Int := ((m <<< (e0 - e).toNat : Nat) : Int)
  if neg then -a else a

/-- The exact sum of two finite values; R85 fixes the sign of a zero sum. -/
def addFin (s1 : Bool) (m1 : Nat) (e1 : Int) (s2 : Bool) (m2 : Nat) (e2 : Int) : Fp :=
  let e := min e1 e2
  let i := scaledTo s1 m1 e1 e + scaledTo s2 m2 e2 e
  if i = 0 then .fin (decide (m1 = 0) && decide (m2 = 0) && s1 && s2) 0 e
  else .fin (decide (i < 0)) i.natAbs e

/-- The exact sum; ∞ − ∞ is NaN (R86). -/
def fpAdd : Fp → Fp → Fp
  | .nan, _ => .nan
  | _, .nan => .nan
  | .inf a, .inf b => if a = b then .inf a else .nan
  | .inf a, .fin .. => .inf a
  | .fin .., .inf b => .inf b
  | .fin s1 m1 e1, .fin s2 m2 e2 => addFin s1 m1 e1 s2 m2 e2

/-- The value with the other sign. -/
def fpNeg : Fp → Fp
  | .nan => .nan
  | .inf s => .inf (!s)
  | .fin s m e => .fin (!s) m e

/-- The magnitude. -/
def fpAbs : Fp → Fp
  | .nan => .nan
  | .inf _ => .inf false
  | .fin _ m e => .fin false m e

/-- The exact product; 0 × ∞ is NaN (R86). -/
def fpMul : Fp → Fp → Fp
  | .nan, _ => .nan
  | _, .nan => .nan
  | .inf a, .inf b => .inf (a != b)
  | .inf a, .fin b m _ => if m = 0 then .nan else .inf (a != b)
  | .fin a m _, .inf b => if m = 0 then .nan else .inf (a != b)
  | .fin a m e, .fin b n k => .fin (a != b) (m * n) (e + k)

/-- The value times 2^k, exactly. -/
def fpScale (x : Fp) (k : Int) : Fp :=
  match x with
  | .fin s m e => .fin s m (e + k)
  | y => y

/-- True for NaN. -/
def fpIsNaN : Fp → Bool
  | .nan => true
  | _ => false

/-- True for an infinity. -/
def fpIsInf : Fp → Bool
  | .inf _ => true
  | _ => false

/-- True for a finite value. -/
def fpIsFin : Fp → Bool
  | .fin .. => true
  | _ => false

/-- True for a zero of either sign. -/
def fpIsZero : Fp → Bool
  | .fin _ 0 _ => true
  | _ => false

/-- The sign of a value; NaN is positive (R84). -/
def fpSign : Fp → Bool
  | .nan => false
  | .inf s => s
  | .fin s _ _ => s

/-- `a < b`; false with NaN, and −0 equals +0 (06 R151). -/
def fpLt : Fp → Fp → Bool
  | .nan, _ => false
  | _, .nan => false
  | .inf a, .inf b => a && !b
  | .inf a, .fin .. => a
  | .fin .., .inf b => !b
  | .fin s1 m1 e1, .fin s2 m2 e2 =>
    let e := min e1 e2
    decide (scaledTo s1 m1 e1 e < scaledTo s2 m2 e2 e)

/-- `a = b`; false with NaN, and −0 equals +0 (06 R151). -/
def fpEq : Fp → Fp → Bool
  | .nan, _ => false
  | _, .nan => false
  | .inf a, .inf b => a == b
  | .inf _, .fin .. => false
  | .fin .., .inf _ => false
  | .fin s1 m1 e1, .fin s2 m2 e2 =>
    let e := min e1 e2
    decide (scaledTo s1 m1 e1 e = scaledTo s2 m2 e2 e)

/-- `a ≤ b`; false with NaN. -/
def fpLe (a b : Fp) : Bool :=
  fpLt a b || fpEq a b

/-- The larger; a NaN operand gives NaN and MAX(−0, +0) is +0 (06 R151). -/
def fpMax (a b : Fp) : Fp :=
  if fpIsNaN a || fpIsNaN b then .nan
  else if fpLt a b then b
  else if fpLt b a then a
  else if fpSign a then b else a

/-- The smaller; a NaN operand gives NaN and MIN(−0, +0) is −0 (06 R151). -/
def fpMin (a b : Fp) : Fp :=
  if fpIsNaN a || fpIsNaN b then .nan
  else if fpLt a b then a
  else if fpLt b a then b
  else if fpSign a then a else b

/-- INVALID when a NaN comes from operands none of which is NaN (R161). -/
def invalidOf (operandNaN : Bool) (r : Fp) : Nat :=
  if fpIsNaN r && !operandNaN then flInvalid else 0

/-- Exact a + b. -/
def xAdd (a b : Fp) : XR :=
  let r := fpAdd a b
  ⟨r, false, invalidOf (fpIsNaN a || fpIsNaN b) r⟩

/-- Exact a × b. -/
def xMul (a b : Fp) : XR :=
  let r := fpMul a b
  ⟨r, false, invalidOf (fpIsNaN a || fpIsNaN b) r⟩

/-- Exact a × b + c. -/
def xFma (a b c : Fp) : XR :=
  let r := fpAdd (fpMul a b) c
  ⟨r, false, invalidOf (fpIsNaN a || fpIsNaN b || fpIsNaN c) r⟩

/-- a ÷ b to more bits than any format keeps, with the rest as `st` (R150, R151). -/
def xDiv (a b : Fp) : XR :=
  match a, b with
  | .nan, _ => ⟨.nan, false, 0⟩
  | _, .nan => ⟨.nan, false, 0⟩
  | .inf _, .inf _ => ⟨.nan, false, flInvalid⟩
  | .inf s, .fin t _ _ => ⟨.inf (s != t), false, 0⟩
  | .fin s _ e, .inf t => ⟨.fin (s != t) 0 e, false, 0⟩
  | .fin s m e, .fin t n k =>
    if n = 0 then
      (if m = 0 then ⟨.nan, false, flInvalid⟩ else ⟨.inf (s != t), false, flDivZero⟩)
    else
      let sh := bitLen n + 64
      let a := m <<< sh
      ⟨.fin (s != t) (a / n) (e - k - sh), decide (a % n ≠ 0), 0⟩

/-- The integer square root by digits: the largest r with r² ≤ n, found from bit `k − 1` down. -/
def isqrtBits (n : Nat) : Nat → Nat → Nat
  | 0, r => r
  | k + 1, r =>
    let r' := r + 2 ^ k
    isqrtBits n k (if r' * r' ≤ n then r' else r)

/-- The integer square root. -/
def isqrt (n : Nat) : Nat :=
  isqrtBits n (bitLen n / 2 + 1) 0

/-- √a to more bits than any format keeps (R150, R151). -/
def xSqrt (a : Fp) : XR :=
  match a with
  | .nan => ⟨.nan, false, 0⟩
  | .inf s => if s then ⟨.nan, false, flInvalid⟩ else ⟨.inf false, false, 0⟩
  | .fin s m e =>
    if m = 0 then ⟨.fin s 0 e, false, 0⟩
    else if s then ⟨.nan, false, flInvalid⟩
    else
      let par := (e % 2).toNat
      let n := m <<< (128 + par)
      let r := isqrt n
      ⟨.fin false r ((e - par - 128) / 2), decide (r * r ≠ n), 0⟩

/-! ### Conversions (R87–R91) -/

/-- Conversion control (R88): the 16 random bits when RND is 1, and OVF_ALT. -/
structure Cvt where
  rnd : Option Nat
  alt : Bool
  deriving DecidableEq, Repr

/-- What a conversion gives: the encoding, what it counts (R91) and its flags (R161). -/
structure CvtOut where
  w : Nat
  nans : Nat := 0
  ovfs : Nat := 0
  fl : Nat := 0
  deriving DecidableEq, Repr

/-- The rounding of a finite magnitude that `c` asks for. -/
def roundCvt (c : Cvt) (p : Nat) (qm : Int) (m : Nat) (e : Int) : Nat × Int × Bool :=
  match c.rnd with
  | some r => roundStochastic p qm m e r
  | none => roundNearest p qm m e false

/-- What an overflow to format `f` gives (R91), with the sign kept. -/
def overflowTo (f : Fmt) (alt neg : Bool) : Nat :=
  if f = fmtBF16 ∨ f = fmtFP16 then withSign f neg (maxFinite f + b2n (!alt))
  else if f = fmtE5M2 then withSign f neg (maxFinite f + b2n alt)
  else if f = fmtE4M3 ∧ alt then canonicalNaN f
  else withSign f neg (maxFinite f)

/-- The overflow rule gives the canonical NaN (R91), which is INVALID and not OVERFLOW of 06 R161. -/
def overflowIsNaN (f : Fmt) (alt : Bool) : Bool := f.kind == .e4m3 && alt

/-- Conversion of an exact value to a narrower floating-point format (R89–R91). -/
def convertFp (f : Fmt) (c : Cvt) (x : Fp) : CvtOut :=
  match x with
  | .nan => ⟨canonicalNaN f, 1, 0, 0⟩
  | .inf neg =>
    if f.kind = .ieee then ⟨withSign f neg (maxFinite f + 1), 0, 0, 0⟩
    else ⟨overflowTo f c.alt neg, 0, 1, if overflowIsNaN f c.alt then flInvalid else 0⟩
  | .fin neg m e =>
    let (n, q, inexact) := roundCvt c (f.mb + 1) (qmin f) m e
    let w := encodeMag f n q
    if maxFinite f < w then ⟨overflowTo f c.alt neg, 0, 1, if overflowIsNaN f c.alt then flInvalid else flOverflow⟩
    else ⟨withSign f neg w, 0, 0, if isTiny f m e && inexact then flUnderflow else 0⟩

/-- Conversion to INT8 (R89, R91). The smallest normal magnitude of INT8 is taken as 1 (log 17). -/
def convertInt8 (c : Cvt) (x : Fp) : CvtOut :=
  match x with
  | .nan => ⟨0, 1, 0, 0⟩
  | .inf neg => ⟨if neg then 128 else 127, 0, 1, 0⟩
  | .fin neg m e =>
    let (n, q, inexact) := roundCvt c (bitLen m + e.natAbs + 1) 0 m e
    let v := n <<< q.toNat
    if neg ∧ 128 < v then ⟨128, 0, 1, flOverflow⟩
    else if ¬ neg ∧ 127 < v then ⟨127, 0, 1, flOverflow⟩
    else ⟨(if neg then 256 - v else v) % 256, 0, 0,
      if inexact && decide (m ≠ 0 ∧ e + (bitLen m : Int) ≤ 0) then flUnderflow else 0⟩

/-- Conversion to the format of code `code` (R80); FP32 only makes a NaN canonical (06 R151). -/
def convertCode (code : Nat) (c : Cvt) (x : Fp) : CvtOut :=
  match code with
  | 0 => ⟨(round32 x).toNat, b2n (fpIsNaN x), 0, 0⟩
  | 1 => convertFp fmtBF16 c x
  | 2 => convertFp fmtFP16 c x
  | 3 => convertFp fmtE4M3 c x
  | 4 => convertFp fmtE5M2 c x
  | 5 => if fpIsNaN x then ⟨0, 1, 0, 0⟩ else convertFp fmtE2M1 c x
  | 6 => convertInt8 c x
  | _ => ⟨(round32 x).toNat, 0, 0, 0⟩

/-- The value of an element of format `code` (R81, R87): the exact widening. MX codes name their element format. -/
def valueOf (code w : Nat) : Fp :=
  match code with
  | 0 => decodeFp fmtFP32 w
  | 1 => decodeFp fmtBF16 w
  | 2 => decodeFp fmtFP16 w
  | 3 => decodeFp fmtE4M3 w
  | 4 => decodeFp fmtE5M2 w
  | 5 => decodeFp fmtE2M1 w
  | 6 => let i := sx8 w; .fin (decide (i < 0)) i.natAbs 0
  | 8 => decodeFp fmtE4M3 w
  | 9 => decodeFp fmtE5M2 w
  | 10 => decodeFp fmtE2M1 w
  | 12 => let i := sx32 w; .fin (decide (i < 0)) i.natAbs 0
  | _ => .fin false 0 0

/-- The value of an MX element under its E8M0 scale byte; 0xFF makes it NaN (R92). -/
def valueMX (code scale w : Nat) : Fp :=
  if scale = 255 then .nan else fpScale (valueOf code w) ((scale : Int) - 127)

/-- Bits an element of format `code` takes in storage (R80). -/
def fmtWidth (code : Nat) : Nat :=
  match code with
  | 0 => 32
  | 1 => 16
  | 2 => 16
  | 5 => 4
  | 7 => 4
  | 10 => 4
  | 12 => 32
  | _ => 8

/-- MXFP8 and MXFP4 (R92). -/
def isMX (code : Nat) : Bool :=
  code == 8 || code == 9 || code == 10

/-- floor(log2 |x|) of a finite non-zero value. -/
def fpLog2 (m : Nat) (e : Int) : Int :=
  e + (bitLen m : Int) - 1

/-- The magnitude of the largest finite value of a list, as (m, e); (0, 0) when there is none. -/
def maxMag : List Fp → Nat × Int
  | [] => (0, 0)
  | .fin _ m e :: t =>
    let (m', e') := maxMag t
    if fpLt (.fin false m' e') (.fin false m e) then (m, e) else (m', e')
  | _ :: t => maxMag t

/-- emax of R93. -/
def mxEmax (code : Nat) : Int :=
  match code with
  | 8 => 8
  | 9 => 15
  | _ => 2

/-- One MX block from its 32 values (R93): the scale byte, the elements, and what the elements count. `rs` gives the
16 random bits of element i when the conversion is stochastic. -/
def mxBlock (code : Nat) (alt : Bool) (rs : Option (List Nat)) (vs : List Fp) : Nat × List CvtOut :=
  if code = 10 ∧ vs.any (fun v => fpIsNaN v || fpIsInf v) then
    (255, vs.map fun v => ⟨0, b2n (fpIsNaN v || fpIsInf v), b2n (fpIsInf v), if fpIsInf v then flInvalid else 0⟩)
  else
    let (m, e) := maxMag vs
    let x : Int := if m = 0 then 0 else max (fpLog2 m e - mxEmax code) (-127)
    ((x + 127).toNat, vs.mapIdx fun i v =>
      let o := convertFp (if code = 8 then fmtE4M3 else if code = 9 then fmtE5M2 else fmtE2M1)
        ⟨rs.map fun l => listGet 0 l i, alt⟩ (fpScale v (-x))
      { o with fl := o.fl ||| (if fpIsFin v && o.ovfs == 1 then flOverflow else 0) })

end Sys2Proof.Machine
end

