-- ==== Sys2Proof/Machine/RegMap.lean ====
section
/-! DEFINITION. The control window's register map (03 R64–R79 and each block's own register tables): page kinds, one
named field per row of the spec's field tables, and for every register its reset value and access masks (00 R7). -/
namespace Sys2Proof.Machine

/-- The kinds of page of 03 R67. -/
inductive PageKind where
  | dev | tx | pw | sec | sc | ev | tm | gg | cl | se | ve | op | ld | ad | ch | sg | red | queue
  deriving DecidableEq, Repr

/-- One register field: window offset of its register, most and least significant bit. -/
structure Fld where
  off : Nat
  msb : Nat
  lsb : Nat
  deriving DecidableEq, Repr

/-- Page bases (03 R67): instance n of a block lies at base + n × 0x1000. -/
def devBase : Nat := 0x0
def txBase : Nat := 0x1000
def pwBase : Nat := 0x2000
def secBase : Nat := 0x3000
def scBase : Nat := 0x4000
def evBase : Nat := 0x5000
def tmBase : Nat := 0x6000
def ggBase : Nat := 0x7000
def clBase (n : Nat) : Nat := 0x10000 + n * 0x1000
def seBase (n : Nat) : Nat := 0x30000 + n * 0x1000
def veBase (n : Nat) : Nat := 0x50000 + n * 0x1000
def opBase (n : Nat) : Nat := 0x90000 + n * 0x1000
def ldBase (n : Nat) : Nat := 0x110000 + n * 0x1000
def adBase (n : Nat) : Nat := 0x120000 + n * 0x1000
def chBase (n : Nat) : Nat := 0x140000 + n * 0x1000
def sgBase (n : Nat) : Nat := 0x142000 + n * 0x1000
def redBase (n : Nat) : Nat := 0x14a000 + n * 0x1000
def queueBase (n : Nat) : Nat := 0x400000 + n * 0x1000

/-- Page kind and instance of a page index, none for an unassigned page (03 R67). -/
def pageOf (p : Nat) : Option (PageKind × Nat) :=
  if 0x0 ≤ p ∧ p < 0x1 then some (.dev, p - 0x0)
  else if 0x1 ≤ p ∧ p < 0x2 then some (.tx, p - 0x1)
  else if 0x2 ≤ p ∧ p < 0x3 then some (.pw, p - 0x2)
  else if 0x3 ≤ p ∧ p < 0x4 then some (.sec, p - 0x3)
  else if 0x4 ≤ p ∧ p < 0x5 then some (.sc, p - 0x4)
  else if 0x5 ≤ p ∧ p < 0x6 then some (.ev, p - 0x5)
  else if 0x6 ≤ p ∧ p < 0x7 then some (.tm, p - 0x6)
  else if 0x7 ≤ p ∧ p < 0x8 then some (.gg, p - 0x7)
  else if 0x10 ≤ p ∧ p < 0x30 then some (.cl, p - 0x10)
  else if 0x30 ≤ p ∧ p < 0x50 then some (.se, p - 0x30)
  else if 0x50 ≤ p ∧ p < 0x90 then some (.ve, p - 0x50)
  else if 0x90 ≤ p ∧ p < 0x110 then some (.op, p - 0x90)
  else if 0x110 ≤ p ∧ p < 0x11c then some (.ld, p - 0x110)
  else if 0x120 ≤ p ∧ p < 0x132 then some (.ad, p - 0x120)
  else if 0x140 ≤ p ∧ p < 0x142 then some (.ch, p - 0x140)
  else if 0x142 ≤ p ∧ p < 0x14a then some (.sg, p - 0x142)
  else if 0x14a ≤ p ∧ p < 0x14c then some (.red, p - 0x14a)
  else if 0x400 ≤ p ∧ p < 0x600 then some (.queue, p - 0x400)
  else none

/-! Common header fields (03 R68–R73): the argument is the base of the page. -/
/-- BLK_ID (03 R68). -/
def rBLK_ID (b : Nat) : Nat := b + 0x0
def fBLK_ID_TYPE (b : Nat) : Fld := ⟨b + 0x0, 7, 0⟩
def fBLK_ID_INSTANCE (b : Nat) : Fld := ⟨b + 0x0, 17, 8⟩
def fBLK_ID_HALF (b : Nat) : Fld := ⟨b + 0x0, 19, 18⟩
def fBLK_ID_STEPPING (b : Nat) : Fld := ⟨b + 0x0, 23, 20⟩
def fBLK_ID_LAYOUT (b : Nat) : Fld := ⟨b + 0x0, 31, 24⟩
/-- BLK_CTL (03 R68). -/
def rBLK_CTL (b : Nat) : Nat := b + 0x8
def fBLK_CTL_RING (b : Nat) : Fld := ⟨b + 0x8, 3, 0⟩
/-- BLK_STAT (03 R68). -/
def rBLK_STAT (b : Nat) : Nat := b + 0xc
def fBLK_STAT_POWERED (b : Nat) : Fld := ⟨b + 0xc, 0, 0⟩
def fBLK_STAT_FAILED (b : Nat) : Fld := ⟨b + 0xc, 1, 1⟩
def fBLK_STAT_RETIRED (b : Nat) : Fld := ⟨b + 0xc, 2, 2⟩
def fBLK_STAT_DISC_OFFSET (b : Nat) : Fld := ⟨b + 0xc, 27, 16⟩
def fBLK_STAT_DISC_CAUSE (b : Nat) : Fld := ⟨b + 0xc, 31, 28⟩
/-- BLK_EVT_RAW (03 R69). -/
def rBLK_EVT_RAW (b : Nat) : Nat := b + 0x10
def fBLK_EVT_RAW_WRITE_DISCARD (b : Nat) : Fld := ⟨b + 0x10, 0, 0⟩
def fBLK_EVT_RAW_TXN_DONE (b : Nat) : Fld := ⟨b + 0x10, 1, 1⟩
def fBLK_EVT_RAW_TXN_ROLLBACK (b : Nat) : Fld := ⟨b + 0x10, 2, 2⟩
def fBLK_EVT_RAW_BLOCK_FAULT (b : Nat) : Fld := ⟨b + 0x10, 3, 3⟩
def fBLK_EVT_RAW_BLOCK (b : Nat) : Fld := ⟨b + 0x10, 31, 4⟩
/-- BLK_EVT_EN (03 R69). -/
def rBLK_EVT_EN (b : Nat) : Nat := b + 0x14
def fBLK_EVT_EN_EN (b : Nat) : Fld := ⟨b + 0x14, 31, 0⟩
/-- BLK_EVT_CLR (03 R69). -/
def rBLK_EVT_CLR (b : Nat) : Nat := b + 0x18
def fBLK_EVT_CLR_CLR (b : Nat) : Fld := ⟨b + 0x18, 31, 0⟩
/-- TXN_CTL (03 R73). -/
def rTXN_CTL (b : Nat) : Nat := b + 0x20
def fTXN_CTL_CMD (b : Nat) : Fld := ⟨b + 0x20, 1, 0⟩
def fTXN_CTL_TIMEOUT (b : Nat) : Fld := ⟨b + 0x20, 23, 8⟩
/-- TXN_STAT (03 R73). -/
def rTXN_STAT (b : Nat) : Nat := b + 0x24
def fTXN_STAT_STATE (b : Nat) : Fld := ⟨b + 0x24, 1, 0⟩
def fTXN_STAT_OWNER (b : Nat) : Fld := ⟨b + 0x24, 3, 2⟩
def fTXN_STAT_RESULT (b : Nat) : Fld := ⟨b + 0x24, 7, 4⟩
def fTXN_STAT_STAGED (b : Nat) : Fld := ⟨b + 0x24, 14, 8⟩
def fTXN_STAT_GROUP (b : Nat) : Fld := ⟨b + 0x24, 15, 15⟩
def fTXN_STAT_SEQ (b : Nat) : Fld := ⟨b + 0x24, 23, 16⟩

/-! Block fields. For a repeated block the first argument is the instance; for a repeated register the next is its index. -/
/-- DEV_BLK_CAP (03 R68). -/
def rDEV_BLK_CAP : Nat := devBase + 0x4
def fDEV_BLK_CAP_CLUSTERS : Fld := ⟨devBase + 0x4, 5, 0⟩
def fDEV_BLK_CAP_LODES : Fld := ⟨devBase + 0x4, 11, 8⟩
def fDEV_BLK_CAP_ADITS : Fld := ⟨devBase + 0x4, 20, 16⟩
def fDEV_BLK_CAP_CH_PORTS : Fld := ⟨devBase + 0x4, 25, 24⟩
/-- DEV_BLK_STAT (17 R496). -/
def rDEV_BLK_STAT : Nat := devBase + 0xc
def fDEV_BLK_STAT_BOOT_PHASE : Fld := ⟨devBase + 0xc, 7, 4⟩
def fDEV_BLK_STAT_READY : Fld := ⟨devBase + 0xc, 8, 8⟩
def fDEV_BLK_STAT_BOOT_FAIL : Fld := ⟨devBase + 0xc, 9, 9⟩
def fDEV_BLK_STAT_RESET_CAUSE : Fld := ⟨devBase + 0xc, 11, 10⟩
/-- TX_CTL (03 R79). -/
def rTX_CTL : Nat := txBase + 0x40
def fTX_CTL_CMD : Fld := ⟨txBase + 0x40, 1, 0⟩
def fTX_CTL_TIMEOUT : Fld := ⟨txBase + 0x40, 23, 8⟩
/-- TX_STAT (03 R79). -/
def rTX_STAT : Nat := txBase + 0x44
def fTX_STAT_STATE : Fld := ⟨txBase + 0x44, 1, 0⟩
def fTX_STAT_OWNER : Fld := ⟨txBase + 0x44, 3, 2⟩
def fTX_STAT_RESULT : Fld := ⟨txBase + 0x44, 7, 4⟩
def fTX_STAT_SEQ : Fld := ⟨txBase + 0x44, 15, 8⟩
def fTX_STAT_FAIL_PAGE : Fld := ⟨txBase + 0x44, 27, 16⟩
/-- TX_MEMBER (03 R79). -/
def rTX_MEMBER (k : Nat) : Nat := txBase + 0x80 + 4 * k
def fTX_MEMBER_PAGE (k : Nat) : Fld := ⟨txBase + 0x80 + 4 * k, 11, 0⟩
def fTX_MEMBER_VALID (k : Nat) : Fld := ⟨txBase + 0x80 + 4 * k, 31, 31⟩
/-- PW_COOL (02 R55). -/
def rPW_COOL : Nat := pwBase + 0x40
def fPW_COOL_STRAP : Fld := ⟨pwBase + 0x40, 1, 0⟩
def fPW_COOL_LIVE : Fld := ⟨pwBase + 0x40, 3, 2⟩
def fPW_COOL_CONFIRM : Fld := ⟨pwBase + 0x40, 5, 4⟩
def fPW_COOL_CONFIRMED : Fld := ⟨pwBase + 0x40, 8, 8⟩
def fPW_COOL_ACTIVE : Fld := ⟨pwBase + 0x40, 11, 10⟩
def fPW_COOL_MISMATCH : Fld := ⟨pwBase + 0x40, 12, 12⟩
/-- PW_LIMIT (02 R56). -/
def rPW_LIMIT : Nat := pwBase + 0x44
def fPW_LIMIT_LIMIT_W : Fld := ⟨pwBase + 0x44, 11, 0⟩
/-- PW_INPUT (02 R56). -/
def rPW_INPUT : Nat := pwBase + 0x48
def fPW_INPUT_VIN_MV : Fld := ⟨pwBase + 0x48, 15, 0⟩
def fPW_INPUT_IIN_10MA : Fld := ⟨pwBase + 0x48, 31, 16⟩
/-- PW_POWER (02 R56). -/
def rPW_POWER : Nat := pwBase + 0x4c
def fPW_POWER_AVG_W : Fld := ⟨pwBase + 0x4c, 11, 0⟩
def fPW_POWER_PEAK_W : Fld := ⟨pwBase + 0x4c, 27, 16⟩
/-- PW_LATTOL (17 R495). -/
def rPW_LATTOL : Nat := pwBase + 0x50
def fPW_LATTOL_TOL_US : Fld := ⟨pwBase + 0x50, 23, 0⟩
/-- PW_ASTATE (17 R495). -/
def rPW_ASTATE : Nat := pwBase + 0x54
def fPW_ASTATE_STATE : Fld := ⟨pwBase + 0x54, 2, 0⟩
def fPW_ASTATE_ALLOWED : Fld := ⟨pwBase + 0x54, 6, 4⟩
def fPW_ASTATE_IDLE : Fld := ⟨pwBase + 0x54, 8, 8⟩
def fPW_ASTATE_A3_BLOCK : Fld := ⟨pwBase + 0x54, 11, 9⟩
/-- PW_PACE (17 R495). -/
def rPW_PACE : Nat := pwBase + 0x58
def fPW_PACE_LEVEL : Fld := ⟨pwBase + 0x58, 6, 0⟩
def fPW_PACE_CAP : Fld := ⟨pwBase + 0x58, 14, 8⟩
def fPW_PACE_GOV_PARKED : Fld := ⟨pwBase + 0x58, 21, 16⟩
def fPW_PACE_HOST_PARKED : Fld := ⟨pwBase + 0x58, 29, 24⟩
/-- PW_FD (17 R495). -/
def rPW_FD : Nat := pwBase + 0x5c
def fPW_FD_LEVEL : Fld := ⟨pwBase + 0x5c, 1, 0⟩
def fPW_FD_CAUSE : Fld := ⟨pwBase + 0x5c, 11, 4⟩
def fPW_FD_FD_N_IN : Fld := ⟨pwBase + 0x5c, 12, 12⟩
def fPW_FD_FD_N_OUT : Fld := ⟨pwBase + 0x5c, 13, 13⟩
/-- PW_FD_CTL (17 R495). -/
def rPW_FD_CTL : Nat := pwBase + 0x60
def fPW_FD_CTL_FORCE : Fld := ⟨pwBase + 0x60, 1, 0⟩
/-- PW_TEMP (17 R495). -/
def rPW_TEMP : Nat := pwBase + 0x64
def fPW_TEMP_DIE_MAX : Fld := ⟨pwBase + 0x64, 7, 0⟩
def fPW_TEMP_HBM_MAX : Fld := ⟨pwBase + 0x64, 15, 8⟩
def fPW_TEMP_DIE_SENSOR : Fld := ⟨pwBase + 0x64, 23, 16⟩
def fPW_TEMP_HBM_LODE : Fld := ⟨pwBase + 0x64, 27, 24⟩
/-- PW_RESET (17 R495). -/
def rPW_RESET : Nat := pwBase + 0x68
def fPW_RESET_MODULE : Fld := ⟨pwBase + 0x68, 0, 0⟩
def fPW_RESET_KEY : Fld := ⟨pwBase + 0x68, 15, 8⟩
/-- PW_CLK (17 R495). -/
def rPW_CLK : Nat := pwBase + 0x6c
def fPW_CLK_ROOT_LOCK : Fld := ⟨pwBase + 0x6c, 0, 0⟩
def fPW_CLK_ACLK_OUT : Fld := ⟨pwBase + 0x6c, 1, 1⟩
def fPW_CLK_FCLK_OUT : Fld := ⟨pwBase + 0x6c, 2, 2⟩
/-- PW_DOM (17 R495). -/
def rPW_DOM (k : Nat) : Nat := pwBase + 0x70 + 4 * k
def fPW_DOM_DOM (k : Nat) : Fld := ⟨pwBase + 0x70 + 4 * k, 31, 0⟩
/-- PW_FW_ACT (16 R469). -/
def rPW_FW_ACT : Nat := pwBase + 0xc0
def fPW_FW_ACT_HOLD : Fld := ⟨pwBase + 0xc0, 0, 0⟩
/-- PW_FW (16 R469). -/
def rPW_FW : Nat := pwBase + 0xc4
def fPW_FW_PWR_STATE : Fld := ⟨pwBase + 0xc4, 1, 0⟩
def fPW_FW_FD2_HELD : Fld := ⟨pwBase + 0xc4, 2, 2⟩
def fPW_FW_RESTARTS : Fld := ⟨pwBase + 0xc4, 31, 16⟩
/-- PW_ALERT (02 R57). -/
def rPW_ALERT : Nat := pwBase + 0xd0
def fPW_ALERT_INPUT_OV : Fld := ⟨pwBase + 0xd0, 0, 0⟩
def fPW_ALERT_REFCLK : Fld := ⟨pwBase + 0xd0, 1, 1⟩
def fPW_ALERT_COOL : Fld := ⟨pwBase + 0xd0, 2, 2⟩
def fPW_ALERT_STRAP : Fld := ⟨pwBase + 0xd0, 3, 3⟩
def fPW_ALERT_FIREDAMP : Fld := ⟨pwBase + 0xd0, 4, 4⟩
def fPW_ALERT_BOOT_FAIL : Fld := ⟨pwBase + 0xd0, 5, 5⟩
/-- SEC_BOOT (18 R515). -/
def rSEC_BOOT : Nat := secBase + 0x40
def fSEC_BOOT_LIFECYCLE : Fld := ⟨secBase + 0x40, 1, 0⟩
def fSEC_BOOT_LC_PENDING : Fld := ⟨secBase + 0x40, 3, 2⟩
def fSEC_BOOT_FALLBACK : Fld := ⟨secBase + 0x40, 4, 4⟩
def fSEC_BOOT_VERIFY_FAIL : Fld := ⟨secBase + 0x40, 11, 8⟩
def fSEC_BOOT_FLOOR_SLOTS : Fld := ⟨secBase + 0x40, 15, 12⟩
def fSEC_BOOT_REVOKED : Fld := ⟨secBase + 0x40, 19, 16⟩
/-- SEC_FLOOR (18 R515). -/
def rSEC_FLOOR : Nat := secBase + 0x44
def fSEC_FLOOR_FLOOR : Fld := ⟨secBase + 0x44, 31, 0⟩
/-- SEC_BOOT_COUNT (18 R515). -/
def rSEC_BOOT_COUNT : Nat := secBase + 0x48
def fSEC_BOOT_COUNT_COUNT : Fld := ⟨secBase + 0x48, 31, 0⟩
/-- SEC_ATT_PA_LO (18 R515). -/
def rSEC_ATT_PA_LO : Nat := secBase + 0x50
def fSEC_ATT_PA_LO_PA : Fld := ⟨secBase + 0x50, 31, 0⟩
/-- SEC_ATT_PA_HI (18 R515). -/
def rSEC_ATT_PA_HI : Nat := secBase + 0x54
def fSEC_ATT_PA_HI_PA : Fld := ⟨secBase + 0x54, 31, 0⟩
/-- SEC_ATT_CTL (18 R515). -/
def rSEC_ATT_CTL : Nat := secBase + 0x58
def fSEC_ATT_CTL_REQ : Fld := ⟨secBase + 0x58, 0, 0⟩
/-- SEC_ATT_STAT (18 R515). -/
def rSEC_ATT_STAT : Nat := secBase + 0x5c
def fSEC_ATT_STAT_STATE : Fld := ⟨secBase + 0x5c, 1, 0⟩
def fSEC_ATT_STAT_RESULT : Fld := ⟨secBase + 0x5c, 7, 4⟩
def fSEC_ATT_STAT_CERT_LEN : Fld := ⟨secBase + 0x5c, 27, 16⟩
/-- SEC_DBG (18 R515). -/
def rSEC_DBG : Nat := secBase + 0x60
def fSEC_DBG_UNLOCKED : Fld := ⟨secBase + 0x60, 0, 0⟩
def fSEC_DBG_EVER : Fld := ⟨secBase + 0x60, 1, 1⟩
def fSEC_DBG_REFUSED : Fld := ⟨secBase + 0x60, 15, 8⟩
def fSEC_DBG_GRANT : Fld := ⟨secBase + 0x60, 31, 16⟩
/-- SEC_FW_EPOCH (16 R468). -/
def rSEC_FW_EPOCH : Nat := secBase + 0x100
def fSEC_FW_EPOCH_EPOCH : Fld := ⟨secBase + 0x100, 31, 0⟩
/-- SEC_FW_STAGED (16 R468). -/
def rSEC_FW_STAGED : Nat := secBase + 0x104
def fSEC_FW_STAGED_EPOCH : Fld := ⟨secBase + 0x104, 31, 0⟩
/-- SEC_FW_SRC_LO (16 R468). -/
def rSEC_FW_SRC_LO : Nat := secBase + 0x108
def fSEC_FW_SRC_LO_PA : Fld := ⟨secBase + 0x108, 31, 0⟩
/-- SEC_FW_SRC_HI (16 R468). -/
def rSEC_FW_SRC_HI : Nat := secBase + 0x10c
def fSEC_FW_SRC_HI_PA : Fld := ⟨secBase + 0x10c, 31, 0⟩
/-- SEC_FW_LEN (16 R468). -/
def rSEC_FW_LEN : Nat := secBase + 0x110
def fSEC_FW_LEN_BYTES : Fld := ⟨secBase + 0x110, 24, 0⟩
/-- SEC_FW_CTL (16 R468). -/
def rSEC_FW_CTL : Nat := secBase + 0x114
def fSEC_FW_CTL_CMD : Fld := ⟨secBase + 0x114, 1, 0⟩
/-- SEC_FW_STAT (16 R468). -/
def rSEC_FW_STAT : Nat := secBase + 0x118
def fSEC_FW_STAT_STATE : Fld := ⟨secBase + 0x118, 2, 0⟩
def fSEC_FW_STAT_RESULT : Fld := ⟨secBase + 0x118, 7, 4⟩
def fSEC_FW_STAT_ROLL_POS : Fld := ⟨secBase + 0x118, 13, 8⟩
/-- SEC_FW_WAIT (16 R468). -/
def rSEC_FW_WAIT : Nat := secBase + 0x11c
def fSEC_FW_WAIT_SECONDS : Fld := ⟨secBase + 0x11c, 31, 0⟩
/-- SC_BLK_CAP (15 R416). -/
def rSC_BLK_CAP : Nat := scBase + 0x4
def fSC_BLK_CAP_QUEUES : Fld := ⟨scBase + 0x4, 9, 0⟩
def fSC_BLK_CAP_CONTEXTS : Fld := ⟨scBase + 0x4, 16, 10⟩
def fSC_BLK_CAP_TOKENS : Fld := ⟨scBase + 0x4, 27, 17⟩
/-- SC_CTX_SRC_LO (15 R416). -/
def rSC_CTX_SRC_LO : Nat := scBase + 0x40
def fSC_CTX_SRC_LO_PA : Fld := ⟨scBase + 0x40, 31, 0⟩
/-- SC_CTX_SRC_HI (15 R416). -/
def rSC_CTX_SRC_HI : Nat := scBase + 0x44
def fSC_CTX_SRC_HI_PA : Fld := ⟨scBase + 0x44, 31, 0⟩
/-- SC_CTX_CTL (15 R416). -/
def rSC_CTX_CTL : Nat := scBase + 0x48
def fSC_CTX_CTL_CTX : Fld := ⟨scBase + 0x48, 5, 0⟩
def fSC_CTX_CTL_CMD : Fld := ⟨scBase + 0x48, 10, 8⟩
/-- SC_CTX_VALID_LO (15 R416). -/
def rSC_CTX_VALID_LO : Nat := scBase + 0x50
def fSC_CTX_VALID_LO_V : Fld := ⟨scBase + 0x50, 31, 0⟩
/-- SC_CTX_VALID_HI (15 R416). -/
def rSC_CTX_VALID_HI : Nat := scBase + 0x54
def fSC_CTX_VALID_HI_V : Fld := ⟨scBase + 0x54, 31, 0⟩
/-- SC_CTX_FENCED_LO (15 R416). -/
def rSC_CTX_FENCED_LO : Nat := scBase + 0x58
def fSC_CTX_FENCED_LO_F : Fld := ⟨scBase + 0x58, 31, 0⟩
/-- SC_CTX_FENCED_HI (15 R416). -/
def rSC_CTX_FENCED_HI : Nat := scBase + 0x5c
def fSC_CTX_FENCED_HI_F : Fld := ⟨scBase + 0x5c, 31, 0⟩
/-- SC_DISPATCH (16 R470). -/
def rSC_DISPATCH : Nat := scBase + 0x80
def fSC_DISPATCH_WHO : Fld := ⟨scBase + 0x80, 1, 0⟩
def fSC_DISPATCH_SCH_STATE : Fld := ⟨scBase + 0x80, 3, 2⟩
def fSC_DISPATCH_WHEEL : Fld := ⟨scBase + 0x80, 7, 4⟩
def fSC_DISPATCH_RCX_CORES : Fld := ⟨scBase + 0x80, 11, 8⟩
def fSC_DISPATCH_HELD : Fld := ⟨scBase + 0x80, 21, 16⟩
/-- SC_FW_CNT (16 R470). -/
def rSC_FW_CNT : Nat := scBase + 0x84
def fSC_FW_CNT_SCH_RESTARTS : Fld := ⟨scBase + 0x84, 15, 0⟩
def fSC_FW_CNT_RCX_RESTARTS : Fld := ⟨scBase + 0x84, 31, 16⟩
/-- SC_FW_TAKE (16 R470). -/
def rSC_FW_TAKE : Nat := scBase + 0x88
def fSC_FW_TAKE_LAST_US : Fld := ⟨scBase + 0x88, 15, 0⟩
/-- EV_BASE_LO (15 R442). -/
def rEV_BASE_LO (k : Nat) : Nat := evBase + 0x40 + 32 * k
def fEV_BASE_LO_PA (k : Nat) : Fld := ⟨evBase + 0x40 + 32 * k, 31, 0⟩
/-- EV_BASE_HI (15 R442). -/
def rEV_BASE_HI (k : Nat) : Nat := evBase + 0x44 + 32 * k
def fEV_BASE_HI_PA (k : Nat) : Fld := ⟨evBase + 0x44 + 32 * k, 31, 0⟩
/-- EV_CFG (15 R442). -/
def rEV_CFG (k : Nat) : Nat := evBase + 0x48 + 32 * k
def fEV_CFG_SIZE_LOG2 (k : Nat) : Fld := ⟨evBase + 0x48 + 32 * k, 3, 0⟩
def fEV_CFG_PORT (k : Nat) : Fld := ⟨evBase + 0x48 + 32 * k, 5, 4⟩
def fEV_CFG_ENABLE (k : Nat) : Fld := ⟨evBase + 0x48 + 32 * k, 8, 8⟩
/-- EV_HEAD (15 R442). -/
def rEV_HEAD (k : Nat) : Nat := evBase + 0x4c + 32 * k
def fEV_HEAD_HEAD (k : Nat) : Fld := ⟨evBase + 0x4c + 32 * k, 31, 0⟩
/-- EV_TAIL (15 R442). -/
def rEV_TAIL (k : Nat) : Nat := evBase + 0x50 + 32 * k
def fEV_TAIL_TAIL (k : Nat) : Fld := ⟨evBase + 0x50 + 32 * k, 31, 0⟩
/-- EV_IRQ (15 R442). -/
def rEV_IRQ (k : Nat) : Nat := evBase + 0x54 + 32 * k
def fEV_IRQ_VECTOR (k : Nat) : Fld := ⟨evBase + 0x54 + 32 * k, 15, 0⟩
def fEV_IRQ_MOD (k : Nat) : Fld := ⟨evBase + 0x54 + 32 * k, 27, 16⟩
/-- EV_LOST (15 R442). -/
def rEV_LOST (k : Nat) : Nat := evBase + 0x58 + 32 * k
def fEV_LOST_COUNT (k : Nat) : Fld := ⟨evBase + 0x58 + 32 * k, 31, 0⟩
/-- TM_TS_LO (15 R443). -/
def rTM_TS_LO : Nat := tmBase + 0x40
def fTM_TS_LO_V : Fld := ⟨tmBase + 0x40, 31, 0⟩
/-- TM_TS_HI (15 R443). -/
def rTM_TS_HI : Nat := tmBase + 0x44
def fTM_TS_HI_V : Fld := ⟨tmBase + 0x44, 31, 0⟩
/-- TM_ACLK_LO (15 R443). -/
def rTM_ACLK_LO : Nat := tmBase + 0x48
def fTM_ACLK_LO_V : Fld := ⟨tmBase + 0x48, 31, 0⟩
/-- TM_ACLK_HI (15 R443). -/
def rTM_ACLK_HI : Nat := tmBase + 0x4c
def fTM_ACLK_HI_V : Fld := ⟨tmBase + 0x4c, 31, 0⟩
/-- GG_DEV_ID (11 R311). -/
def rGG_DEV_ID : Nat := ggBase + 0x40
def fGG_DEV_ID_ID : Fld := ⟨ggBase + 0x40, 15, 0⟩
/-- GG_CTL (11 R311). -/
def rGG_CTL : Nat := ggBase + 0x44
def fGG_CTL_JOIN : Fld := ⟨ggBase + 0x44, 0, 0⟩
def fGG_CTL_PROPOSE : Fld := ⟨ggBase + 0x44, 1, 1⟩
def fGG_CTL_CANCEL : Fld := ⟨ggBase + 0x44, 2, 2⟩
/-- GG_JOIN (11 R311). -/
def rGG_JOIN : Nat := ggBase + 0x48
def fGG_JOIN_MASTER : Fld := ⟨ggBase + 0x48, 15, 0⟩
/-- GG_TABLE_VA_LO (11 R311). -/
def rGG_TABLE_VA_LO : Nat := ggBase + 0x50
def fGG_TABLE_VA_LO_VA : Fld := ⟨ggBase + 0x50, 31, 0⟩
/-- GG_TABLE_VA_HI (11 R311). -/
def rGG_TABLE_VA_HI : Nat := ggBase + 0x54
def fGG_TABLE_VA_HI_VA : Fld := ⟨ggBase + 0x54, 31, 0⟩
/-- GG_ROUTE_VA_LO (11 R311). -/
def rGG_ROUTE_VA_LO : Nat := ggBase + 0x58
def fGG_ROUTE_VA_LO_VA : Fld := ⟨ggBase + 0x58, 31, 0⟩
/-- GG_ROUTE_VA_HI (11 R311). -/
def rGG_ROUTE_VA_HI : Nat := ggBase + 0x5c
def fGG_ROUTE_VA_HI_VA : Fld := ⟨ggBase + 0x5c, 31, 0⟩
/-- GG_STATE (11 R311). -/
def rGG_STATE : Nat := ggBase + 0x60
def fGG_STATE_GEN : Fld := ⟨ggBase + 0x60, 15, 0⟩
def fGG_STATE_ROLE : Fld := ⟨ggBase + 0x60, 17, 16⟩
def fGG_STATE_TAKEN : Fld := ⟨ggBase + 0x60, 18, 18⟩
def fGG_STATE_JOINING : Fld := ⟨ggBase + 0x60, 19, 19⟩
/-- GG_TIMEOUT (11 R311). -/
def rGG_TIMEOUT : Nat := ggBase + 0x64
def fGG_TIMEOUT_BARRIER : Fld := ⟨ggBase + 0x64, 15, 0⟩
def fGG_TIMEOUT_HEARTBEAT : Fld := ⟨ggBase + 0x64, 31, 16⟩
/-- GG_CNT (11 R311). -/
def rGG_CNT : Nat := ggBase + 0x68
def fGG_CNT_STALE : Fld := ⟨ggBase + 0x68, 15, 0⟩
def fGG_CNT_FWD_DROP : Fld := ⟨ggBase + 0x68, 31, 16⟩
/-- GG_STEP_CTX (13 R362). -/
def rGG_STEP_CTX : Nat := ggBase + 0x6c
def fGG_STEP_CTX_CTX : Fld := ⟨ggBase + 0x6c, 5, 0⟩
/-- GG_PIT (13 R362). -/
def rGG_PIT : Nat := ggBase + 0x70
def fGG_PIT_STATE : Fld := ⟨ggBase + 0x70, 2, 0⟩
def fGG_PIT_LAST : Fld := ⟨ggBase + 0x70, 4, 3⟩
def fGG_PIT_MSTATE : Fld := ⟨ggBase + 0x70, 6, 5⟩
def fGG_PIT_VOTES : Fld := ⟨ggBase + 0x70, 20, 8⟩
/-- GG_PIT_EPOCH (13 R362). -/
def rGG_PIT_EPOCH : Nat := ggBase + 0x74
def fGG_PIT_EPOCH_EPOCH : Fld := ⟨ggBase + 0x74, 31, 0⟩
/-- GG_CANARY (14 R400). -/
def rGG_CANARY : Nat := ggBase + 0x80
def fGG_CANARY_SCORE : Fld := ⟨ggBase + 0x80, 7, 0⟩
def fGG_CANARY_REQUEST : Fld := ⟨ggBase + 0x80, 8, 8⟩
def fGG_CANARY_ARMED : Fld := ⟨ggBase + 0x80, 9, 9⟩
def fGG_CANARY_REPLACE : Fld := ⟨ggBase + 0x80, 21, 16⟩
/-- GG_CANARY_CTL (14 R400). -/
def rGG_CANARY_CTL : Nat := ggBase + 0x84
def fGG_CANARY_CTL_THRESH : Fld := ⟨ggBase + 0x84, 7, 0⟩
/-- GG_CANARY_IN0 (14 R400). -/
def rGG_CANARY_IN0 : Nat := ggBase + 0x88
def fGG_CANARY_IN0_V : Fld := ⟨ggBase + 0x88, 31, 0⟩
/-- GG_CANARY_IN1 (14 R400). -/
def rGG_CANARY_IN1 : Nat := ggBase + 0x8c
def fGG_CANARY_IN1_V : Fld := ⟨ggBase + 0x8c, 31, 0⟩
/-- GG_SECURE_CTL (14 R400). -/
def rGG_SECURE_CTL : Nat := ggBase + 0x90
def fGG_SECURE_CTL_TARGET : Fld := ⟨ggBase + 0x90, 1, 0⟩
def fGG_SECURE_CTL_MAX_INTERVAL : Fld := ⟨ggBase + 0x90, 23, 8⟩
/-- GG_SECURE_GRP (14 R400). -/
def rGG_SECURE_GRP : Nat := ggBase + 0x94
def fGG_SECURE_GRP_GROUP : Fld := ⟨ggBase + 0x94, 9, 0⟩
/-- GG_SECURE_MAN_LO (14 R400). -/
def rGG_SECURE_MAN_LO : Nat := ggBase + 0x98
def fGG_SECURE_MAN_LO_VA : Fld := ⟨ggBase + 0x98, 31, 0⟩
/-- GG_SECURE_MAN_HI (14 R400). -/
def rGG_SECURE_MAN_HI : Nat := ggBase + 0x9c
def fGG_SECURE_MAN_HI_VA : Fld := ⟨ggBase + 0x9c, 31, 0⟩
/-- GG_SECURE_MAN_CNT (14 R400). -/
def rGG_SECURE_MAN_CNT : Nat := ggBase + 0xa0
def fGG_SECURE_MAN_CNT_COUNT : Fld := ⟨ggBase + 0xa0, 12, 0⟩
/-- GG_SECURE_HOST_LO (14 R400). -/
def rGG_SECURE_HOST_LO : Nat := ggBase + 0xa8
def fGG_SECURE_HOST_LO_VA : Fld := ⟨ggBase + 0xa8, 31, 0⟩
/-- GG_SECURE_HOST_HI (14 R400). -/
def rGG_SECURE_HOST_HI : Nat := ggBase + 0xac
def fGG_SECURE_HOST_HI_VA : Fld := ⟨ggBase + 0xac, 31, 0⟩
/-- GG_SECURE_SLOT (14 R400). -/
def rGG_SECURE_SLOT : Nat := ggBase + 0xb0
def fGG_SECURE_SLOT_MIB : Fld := ⟨ggBase + 0xb0, 19, 0⟩
/-- GG_KEEP_PA_LO (14 R400). -/
def rGG_KEEP_PA_LO : Nat := ggBase + 0xb8
def fGG_KEEP_PA_LO_PA : Fld := ⟨ggBase + 0xb8, 31, 0⟩
/-- GG_KEEP_PA_HI (14 R400). -/
def rGG_KEEP_PA_HI : Nat := ggBase + 0xbc
def fGG_KEEP_PA_HI_PA : Fld := ⟨ggBase + 0xbc, 31, 0⟩
/-- GG_KEEP_SIZE (14 R400). -/
def rGG_KEEP_SIZE : Nat := ggBase + 0xc0
def fGG_KEEP_SIZE_MIB : Fld := ⟨ggBase + 0xc0, 19, 0⟩
/-- GG_SECURE_STAT (14 R400). -/
def rGG_SECURE_STAT : Nat := ggBase + 0xc4
def fGG_SECURE_STAT_STATE : Fld := ⟨ggBase + 0xc4, 1, 0⟩
def fGG_SECURE_STAT_CAUSE : Fld := ⟨ggBase + 0xc4, 7, 4⟩
def fGG_SECURE_STAT_SINCE : Fld := ⟨ggBase + 0xc4, 31, 16⟩
/-- GG_SECURE_SEQ (14 R400). -/
def rGG_SECURE_SEQ : Nat := ggBase + 0xc8
def fGG_SECURE_SEQ_SEQ : Fld := ⟨ggBase + 0xc8, 31, 0⟩
/-- GG_SECURE_EPOCH (14 R400). -/
def rGG_SECURE_EPOCH : Nat := ggBase + 0xcc
def fGG_SECURE_EPOCH_EPOCH : Fld := ⟨ggBase + 0xcc, 31, 0⟩
/-- CL_BLK_CTL (17 R496). -/
def rCL_BLK_CTL (n : Nat) : Nat := clBase n + 0x8
def fCL_BLK_CTL_PARK (n : Nat) : Fld := ⟨clBase n + 0x8, 8, 8⟩
/-- CL_BLK_STAT (17 R496). -/
def rCL_BLK_STAT (n : Nat) : Nat := clBase n + 0xc
def fCL_BLK_STAT_PARKED (n : Nat) : Fld := ⟨clBase n + 0xc, 4, 4⟩
def fCL_BLK_STAT_GOV_PARKED (n : Nat) : Fld := ⟨clBase n + 0xc, 5, 5⟩
/-- CL_CORE (16 R471). -/
def rCL_CORE (n : Nat) : Nat := clBase n + 0x40
def fCL_CORE_STATE (n : Nat) : Fld := ⟨clBase n + 0x40, 1, 0⟩
def fCL_CORE_NEAR_MISS (n : Nat) : Fld := ⟨clBase n + 0x40, 15, 8⟩
def fCL_CORE_FIRES (n : Nat) : Fld := ⟨clBase n + 0x40, 23, 16⟩
def fCL_CORE_NEW_IMAGE (n : Nat) : Fld := ⟨clBase n + 0x40, 24, 24⟩
/-- CL_RETIRE (14 R374). -/
def rCL_RETIRE (n : Nat) : Nat := clBase n + 0xf0
def fCL_RETIRE_RETIRE (n : Nat) : Fld := ⟨clBase n + 0xf0, 0, 0⟩
def fCL_RETIRE_CAUSE (n : Nat) : Fld := ⟨clBase n + 0xf0, 7, 4⟩
/-- SE_BLK_CAP (09 R257). -/
def rSE_BLK_CAP (n : Nat) : Nat := seBase n + 0x4
def fSE_BLK_CAP_CONTEXTS (n : Nat) : Fld := ⟨seBase n + 0x4, 3, 0⟩
def fSE_BLK_CAP_LOOPS (n : Nat) : Fld := ⟨seBase n + 0x4, 7, 4⟩
def fSE_BLK_CAP_PROG_MAX (n : Nat) : Fld := ⟨seBase n + 0x4, 13, 8⟩
def fSE_BLK_CAP_LOOKAHEAD (n : Nat) : Fld := ⟨seBase n + 0x4, 19, 16⟩
/-- SE_STATE (09 R257). -/
def rSE_STATE (n : Nat) : Nat := seBase n + 0x40
def fSE_STATE_BUSY (n : Nat) : Fld := ⟨seBase n + 0x40, 0, 0⟩
def fSE_STATE_ORDERED (n : Nat) : Fld := ⟨seBase n + 0x40, 1, 1⟩
def fSE_STATE_HOIST_HEAD (n : Nat) : Fld := ⟨seBase n + 0x40, 2, 2⟩
def fSE_STATE_ENTRIES (n : Nat) : Fld := ⟨seBase n + 0x40, 15, 8⟩
def fSE_STATE_PART_DONE (n : Nat) : Fld := ⟨seBase n + 0x40, 31, 16⟩
/-- SE_FAULT (09 R257). -/
def rSE_FAULT (n : Nat) : Nat := seBase n + 0x44
def fSE_FAULT_CAUSE (n : Nat) : Fld := ⟨seBase n + 0x44, 3, 0⟩
def fSE_FAULT_ENTRY (n : Nat) : Fld := ⟨seBase n + 0x44, 6, 4⟩
/-- SE_FAULT_ROW (09 R257). -/
def rSE_FAULT_ROW (n : Nat) : Nat := seBase n + 0x48
def fSE_FAULT_ROW_ROW (n : Nat) : Fld := ⟨seBase n + 0x48, 31, 0⟩
/-- SE_FAULT_COL (09 R257). -/
def rSE_FAULT_COL (n : Nat) : Nat := seBase n + 0x4c
def fSE_FAULT_COL_COL (n : Nat) : Fld := ⟨seBase n + 0x4c, 31, 0⟩
/-- SE_CNT_CTL (09 R258). -/
def rSE_CNT_CTL (n : Nat) : Nat := seBase n + 0x50
def fSE_CNT_CTL_CLR_BYTES (n : Nat) : Fld := ⟨seBase n + 0x50, 0, 0⟩
def fSE_CNT_CTL_CLR_IDX (n : Nat) : Fld := ⟨seBase n + 0x50, 1, 1⟩
def fSE_CNT_CTL_CLR_ECC (n : Nat) : Fld := ⟨seBase n + 0x50, 2, 2⟩
/-- SE_CNT_RD_LO (09 R258). -/
def rSE_CNT_RD_LO (n : Nat) : Nat := seBase n + 0x58
def fSE_CNT_RD_LO_V (n : Nat) : Fld := ⟨seBase n + 0x58, 31, 0⟩
/-- SE_CNT_RD_HI (09 R258). -/
def rSE_CNT_RD_HI (n : Nat) : Nat := seBase n + 0x5c
def fSE_CNT_RD_HI_V (n : Nat) : Fld := ⟨seBase n + 0x5c, 31, 0⟩
/-- SE_CNT_WR_LO (09 R258). -/
def rSE_CNT_WR_LO (n : Nat) : Nat := seBase n + 0x60
def fSE_CNT_WR_LO_V (n : Nat) : Fld := ⟨seBase n + 0x60, 31, 0⟩
/-- SE_CNT_WR_HI (09 R258). -/
def rSE_CNT_WR_HI (n : Nat) : Nat := seBase n + 0x64
def fSE_CNT_WR_HI_V (n : Nat) : Fld := ⟨seBase n + 0x64, 31, 0⟩
/-- SE_CNT_HOIST_LO (09 R258). -/
def rSE_CNT_HOIST_LO (n : Nat) : Nat := seBase n + 0x68
def fSE_CNT_HOIST_LO_V (n : Nat) : Fld := ⟨seBase n + 0x68, 31, 0⟩
/-- SE_CNT_HOIST_HI (09 R258). -/
def rSE_CNT_HOIST_HI (n : Nat) : Nat := seBase n + 0x6c
def fSE_CNT_HOIST_HI_V (n : Nat) : Fld := ⟨seBase n + 0x6c, 31, 0⟩
/-- SE_IDX (09 R258). -/
def rSE_IDX (n : Nat) : Nat := seBase n + 0x70
def fSE_IDX_ZEROED (n : Nat) : Fld := ⟨seBase n + 0x70, 15, 0⟩
def fSE_IDX_WRAPPED (n : Nat) : Fld := ⟨seBase n + 0x70, 31, 16⟩
/-- SE_ECC (09 R258). -/
def rSE_ECC (n : Nat) : Nat := seBase n + 0x74
def fSE_ECC_CE_BUF (n : Nat) : Fld := ⟨seBase n + 0x74, 15, 0⟩
def fSE_ECC_CE_HOIST (n : Nat) : Fld := ⟨seBase n + 0x74, 31, 16⟩
/-- VE_BLK_CAP (06 R167). -/
def rVE_BLK_CAP (n : Nat) : Nat := veBase n + 0x4
def fVE_BLK_CAP_LANES (n : Nat) : Fld := ⟨veBase n + 0x4, 11, 0⟩
def fVE_BLK_CAP_TILE_BUFS (n : Nat) : Fld := ⟨veBase n + 0x4, 15, 12⟩
def fVE_BLK_CAP_PROG_MAX (n : Nat) : Fld := ⟨veBase n + 0x4, 24, 16⟩
def fVE_BLK_CAP_FROND_MAX (n : Nat) : Fld := ⟨veBase n + 0x4, 28, 25⟩
def fVE_BLK_CAP_PACK (n : Nat) : Fld := ⟨veBase n + 0x4, 29, 29⟩
def fVE_BLK_CAP_SCAN (n : Nat) : Fld := ⟨veBase n + 0x4, 30, 30⟩
def fVE_BLK_CAP_PSIDY (n : Nat) : Fld := ⟨veBase n + 0x4, 31, 31⟩
/-- VE_STATE (06 R167). -/
def rVE_STATE (n : Nat) : Nat := veBase n + 0x40
def fVE_STATE_BUSY (n : Nat) : Fld := ⟨veBase n + 0x40, 0, 0⟩
def fVE_STATE_MODE (n : Nat) : Fld := ⟨veBase n + 0x40, 3, 1⟩
def fVE_STATE_PACK (n : Nat) : Fld := ⟨veBase n + 0x40, 4, 4⟩
def fVE_STATE_IN1 (n : Nat) : Fld := ⟨veBase n + 0x40, 5, 5⟩
def fVE_STATE_COUNT (n : Nat) : Fld := ⟨veBase n + 0x40, 24, 16⟩
/-- VE_TB (06 R167). -/
def rVE_TB (n : Nat) : Nat := veBase n + 0x44
def fVE_TB_TB (n : Nat) : Fld := ⟨veBase n + 0x44, 11, 0⟩
/-- VE_CNT_CTL (06 R167). -/
def rVE_CNT_CTL (n : Nat) : Nat := veBase n + 0x48
def fVE_CNT_CTL_CLR_CYCLES (n : Nat) : Fld := ⟨veBase n + 0x48, 0, 0⟩
def fVE_CNT_CTL_CLR_ECC (n : Nat) : Fld := ⟨veBase n + 0x48, 1, 1⟩
/-- VE_CNT_ISSUE_LO (06 R167). -/
def rVE_CNT_ISSUE_LO (n : Nat) : Nat := veBase n + 0x50
def fVE_CNT_ISSUE_LO_V (n : Nat) : Fld := ⟨veBase n + 0x50, 31, 0⟩
/-- VE_CNT_ISSUE_HI (06 R167). -/
def rVE_CNT_ISSUE_HI (n : Nat) : Nat := veBase n + 0x54
def fVE_CNT_ISSUE_HI_V (n : Nat) : Fld := ⟨veBase n + 0x54, 31, 0⟩
/-- VE_CNT_WAIT_LO (06 R167). -/
def rVE_CNT_WAIT_LO (n : Nat) : Nat := veBase n + 0x58
def fVE_CNT_WAIT_LO_V (n : Nat) : Fld := ⟨veBase n + 0x58, 31, 0⟩
/-- VE_CNT_WAIT_HI (06 R167). -/
def rVE_CNT_WAIT_HI (n : Nat) : Nat := veBase n + 0x5c
def fVE_CNT_WAIT_HI_V (n : Nat) : Fld := ⟨veBase n + 0x5c, 31, 0⟩
/-- VE_CNT_BLOCK_LO (06 R167). -/
def rVE_CNT_BLOCK_LO (n : Nat) : Nat := veBase n + 0x60
def fVE_CNT_BLOCK_LO_V (n : Nat) : Fld := ⟨veBase n + 0x60, 31, 0⟩
/-- VE_CNT_BLOCK_HI (06 R167). -/
def rVE_CNT_BLOCK_HI (n : Nat) : Nat := veBase n + 0x64
def fVE_CNT_BLOCK_HI_V (n : Nat) : Fld := ⟨veBase n + 0x64, 31, 0⟩
/-- VE_CNT_PACE_LO (06 R167). -/
def rVE_CNT_PACE_LO (n : Nat) : Nat := veBase n + 0x68
def fVE_CNT_PACE_LO_V (n : Nat) : Fld := ⟨veBase n + 0x68, 31, 0⟩
/-- VE_CNT_PACE_HI (06 R167). -/
def rVE_CNT_PACE_HI (n : Nat) : Nat := veBase n + 0x6c
def fVE_CNT_PACE_HI_V (n : Nat) : Fld := ⟨veBase n + 0x6c, 31, 0⟩
/-- VE_CNT_SFU_LO (06 R167). -/
def rVE_CNT_SFU_LO (n : Nat) : Nat := veBase n + 0x70
def fVE_CNT_SFU_LO_V (n : Nat) : Fld := ⟨veBase n + 0x70, 31, 0⟩
/-- VE_CNT_SFU_HI (06 R167). -/
def rVE_CNT_SFU_HI (n : Nat) : Nat := veBase n + 0x74
def fVE_CNT_SFU_HI_V (n : Nat) : Fld := ⟨veBase n + 0x74, 31, 0⟩
/-- VE_ECC (06 R168). -/
def rVE_ECC (n : Nat) : Nat := veBase n + 0x78
def fVE_ECC_CE_TB (n : Nat) : Fld := ⟨veBase n + 0x78, 15, 0⟩
def fVE_ECC_CE_STORE (n : Nat) : Fld := ⟨veBase n + 0x78, 31, 16⟩
/-- VE_WAIT_LIMIT (06 R168). -/
def rVE_WAIT_LIMIT (n : Nat) : Nat := veBase n + 0x7c
def fVE_WAIT_LIMIT_LIMIT (n : Nat) : Fld := ⟨veBase n + 0x7c, 23, 0⟩
/-- VE_SFU (07 R199). -/
def rVE_SFU (n : Nat) : Nat := veBase n + 0x80
def fVE_SFU_CE_TBL (n : Nat) : Fld := ⟨veBase n + 0x80, 15, 0⟩
def fVE_SFU_TBL_REV (n : Nat) : Fld := ⟨veBase n + 0x80, 23, 16⟩
def fVE_SFU_PSIDY_REV (n : Nat) : Fld := ⟨veBase n + 0x80, 30, 24⟩
def fVE_SFU_CLR_TBL (n : Nat) : Fld := ⟨veBase n + 0x80, 31, 31⟩
/-- OP_BLK_CAP (05 R135). -/
def rOP_BLK_CAP (n : Nat) : Nat := opBase n + 0x4
def fOP_BLK_CAP_OPERAND_FMTS (n : Nat) : Fld := ⟨opBase n + 0x4, 12, 0⟩
def fOP_BLK_CAP_WSLOTS (n : Nat) : Fld := ⟨opBase n + 0x4, 19, 16⟩
def fOP_BLK_CAP_TRANSPOSE (n : Nat) : Fld := ⟨opBase n + 0x4, 20, 20⟩
/-- OP_STATE (05 R135). -/
def rOP_STATE (n : Nat) : Nat := opBase n + 0x40
def fOP_STATE_BUSY (n : Nat) : Fld := ⟨opBase n + 0x40, 0, 0⟩
def fOP_STATE_FILL_TILE (n : Nat) : Fld := ⟨opBase n + 0x40, 1, 1⟩
def fOP_STATE_DRAIN_BUSY (n : Nat) : Fld := ⟨opBase n + 0x40, 2, 2⟩
def fOP_STATE_FROZEN (n : Nat) : Fld := ⟨opBase n + 0x40, 3, 3⟩
def fOP_STATE_A_FMT (n : Nat) : Fld := ⟨opBase n + 0x40, 7, 4⟩
def fOP_STATE_W_FMT (n : Nat) : Fld := ⟨opBase n + 0x40, 11, 8⟩
def fOP_STATE_TRANS (n : Nat) : Fld := ⟨opBase n + 0x40, 12, 12⟩
def fOP_STATE_DRAIN_ROWS (n : Nat) : Fld := ⟨opBase n + 0x40, 23, 16⟩
/-- OP_WSLOT (05 R135). -/
def rOP_WSLOT (n : Nat) : Nat := opBase n + 0x44
def fOP_WSLOT_SLOT (n : Nat) : Fld := ⟨opBase n + 0x44, 15, 0⟩
/-- OP_CNT_CTL (05 R135). -/
def rOP_CNT_CTL (n : Nat) : Nat := opBase n + 0x48
def fOP_CNT_CTL_CLR_CYCLES (n : Nat) : Fld := ⟨opBase n + 0x48, 0, 0⟩
def fOP_CNT_CTL_CLR_ECC (n : Nat) : Fld := ⟨opBase n + 0x48, 1, 1⟩
/-- OP_CNT_STEP_LO (05 R135). -/
def rOP_CNT_STEP_LO (n : Nat) : Nat := opBase n + 0x50
def fOP_CNT_STEP_LO_V (n : Nat) : Fld := ⟨opBase n + 0x50, 31, 0⟩
/-- OP_CNT_STEP_HI (05 R135). -/
def rOP_CNT_STEP_HI (n : Nat) : Nat := opBase n + 0x54
def fOP_CNT_STEP_HI_V (n : Nat) : Fld := ⟨opBase n + 0x54, 31, 0⟩
/-- OP_CNT_BUBBLE_LO (05 R135). -/
def rOP_CNT_BUBBLE_LO (n : Nat) : Nat := opBase n + 0x58
def fOP_CNT_BUBBLE_LO_V (n : Nat) : Fld := ⟨opBase n + 0x58, 31, 0⟩
/-- OP_CNT_BUBBLE_HI (05 R135). -/
def rOP_CNT_BUBBLE_HI (n : Nat) : Nat := opBase n + 0x5c
def fOP_CNT_BUBBLE_HI_V (n : Nat) : Fld := ⟨opBase n + 0x5c, 31, 0⟩
/-- OP_CNT_FREEZE_LO (05 R135). -/
def rOP_CNT_FREEZE_LO (n : Nat) : Nat := opBase n + 0x60
def fOP_CNT_FREEZE_LO_V (n : Nat) : Fld := ⟨opBase n + 0x60, 31, 0⟩
/-- OP_CNT_FREEZE_HI (05 R135). -/
def rOP_CNT_FREEZE_HI (n : Nat) : Nat := opBase n + 0x64
def fOP_CNT_FREEZE_HI_V (n : Nat) : Fld := ⟨opBase n + 0x64, 31, 0⟩
/-- OP_CNT_PACE_LO (05 R135). -/
def rOP_CNT_PACE_LO (n : Nat) : Nat := opBase n + 0x68
def fOP_CNT_PACE_LO_V (n : Nat) : Fld := ⟨opBase n + 0x68, 31, 0⟩
/-- OP_CNT_PACE_HI (05 R135). -/
def rOP_CNT_PACE_HI (n : Nat) : Nat := opBase n + 0x6c
def fOP_CNT_PACE_HI_V (n : Nat) : Fld := ⟨opBase n + 0x6c, 31, 0⟩
/-- OP_ECC (05 R136). -/
def rOP_ECC (n : Nat) : Nat := opBase n + 0x70
def fOP_ECC_CE_ACC (n : Nat) : Fld := ⟨opBase n + 0x70, 15, 0⟩
def fOP_ECC_CE_WS (n : Nat) : Fld := ⟨opBase n + 0x70, 31, 16⟩
/-- OP_STALL_LIMIT (05 R136). -/
def rOP_STALL_LIMIT (n : Nat) : Nat := opBase n + 0x74
def fOP_STALL_LIMIT_LIMIT (n : Nat) : Fld := ⟨opBase n + 0x74, 23, 0⟩
/-- LD_BLK_CAP (10 R284). -/
def rLD_BLK_CAP (n : Nat) : Nat := ldBase n + 0x4
def fLD_BLK_CAP_GRANULES (n : Nat) : Fld := ⟨ldBase n + 0x4, 23, 0⟩
def fLD_BLK_CAP_SPARES (n : Nat) : Fld := ⟨ldBase n + 0x4, 27, 24⟩
/-- LD_BLK_STAT (10 R284). -/
def rLD_BLK_STAT (n : Nat) : Nat := ldBase n + 0xc
def fLD_BLK_STAT_TRAINED (n : Nat) : Fld := ⟨ldBase n + 0xc, 4, 4⟩
def fLD_BLK_STAT_FILLING (n : Nat) : Fld := ⟨ldBase n + 0xc, 5, 5⟩
def fLD_BLK_STAT_QUEUED (n : Nat) : Fld := ⟨ldBase n + 0xc, 9, 6⟩
def fLD_BLK_STAT_SELF_REFRESH (n : Nat) : Fld := ⟨ldBase n + 0xc, 10, 10⟩
/-- LD_SCRUB (10 R284). -/
def rLD_SCRUB (n : Nat) : Nat := ldBase n + 0x40
def fLD_SCRUB_PERIOD (n : Nat) : Fld := ⟨ldBase n + 0x40, 7, 0⟩
def fLD_SCRUB_PASSES (n : Nat) : Fld := ⟨ldBase n + 0x40, 31, 16⟩
/-- LD_CE_THRESH (10 R284). -/
def rLD_CE_THRESH (n : Nat) : Nat := ldBase n + 0x44
def fLD_CE_THRESH_THRESH (n : Nat) : Fld := ⟨ldBase n + 0x44, 7, 0⟩
/-- LD_ECC (10 R284). -/
def rLD_ECC (n : Nat) : Nat := ldBase n + 0x48
def fLD_ECC_CE (n : Nat) : Fld := ⟨ldBase n + 0x48, 15, 0⟩
def fLD_ECC_UE (n : Nat) : Fld := ⟨ldBase n + 0x48, 31, 16⟩
/-- LD_FAIL (10 R284). -/
def rLD_FAIL (n : Nat) : Nat := ldBase n + 0x4c
def fLD_FAIL_KIND (n : Nat) : Fld := ⟨ldBase n + 0x4c, 1, 0⟩
def fLD_FAIL_OUTCOME (n : Nat) : Fld := ⟨ldBase n + 0x4c, 4, 2⟩
def fLD_FAIL_PC (n : Nat) : Fld := ⟨ldBase n + 0x4c, 12, 8⟩
def fLD_FAIL_SPARES_LEFT (n : Nat) : Fld := ⟨ldBase n + 0x4c, 18, 16⟩
/-- LD_FAIL_RG (10 R284). -/
def rLD_FAIL_RG (n : Nat) : Nat := ldBase n + 0x50
def fLD_FAIL_RG_ROWGROUP (n : Nat) : Fld := ⟨ldBase n + 0x50, 17, 0⟩
/-- LD_FAIL_PA_LO (10 R284). -/
def rLD_FAIL_PA_LO (n : Nat) : Nat := ldBase n + 0x54
def fLD_FAIL_PA_LO_PA (n : Nat) : Fld := ⟨ldBase n + 0x54, 31, 0⟩
/-- LD_FAIL_PA_HI (10 R284). -/
def rLD_FAIL_PA_HI (n : Nat) : Nat := ldBase n + 0x58
def fLD_FAIL_PA_HI_PA (n : Nat) : Fld := ⟨ldBase n + 0x58, 15, 0⟩
/-- LD_CTL2 (10 R284). -/
def rLD_CTL2 (n : Nat) : Nat := ldBase n + 0x5c
def fLD_CTL2_CLR_ECC (n : Nat) : Fld := ⟨ldBase n + 0x5c, 0, 0⟩
/-- LD_TEMP (10 R284). -/
def rLD_TEMP (n : Nat) : Nat := ldBase n + 0x60
def fLD_TEMP_TEMP_C (n : Nat) : Fld := ⟨ldBase n + 0x60, 7, 0⟩
def fLD_TEMP_REFRESH_X2 (n : Nat) : Fld := ⟨ldBase n + 0x60, 8, 8⟩
/-- AD_BLK_CAP (11 R310). -/
def rAD_BLK_CAP (n : Nat) : Nat := adBase n + 0x4
def fAD_BLK_CAP_LANES (n : Nat) : Fld := ⟨adBase n + 0x4, 3, 0⟩
def fAD_BLK_CAP_CONNECTOR (n : Nat) : Fld := ⟨adBase n + 0x4, 4, 4⟩
/-- AD_BLK_STAT (11 R310). -/
def rAD_BLK_STAT (n : Nat) : Nat := adBase n + 0xc
def fAD_BLK_STAT_STATE (n : Nat) : Fld := ⟨adBase n + 0xc, 7, 4⟩
def fAD_BLK_STAT_PRESENT (n : Nat) : Fld := ⟨adBase n + 0xc, 8, 8⟩
def fAD_BLK_STAT_OPTICAL (n : Nat) : Fld := ⟨adBase n + 0xc, 9, 9⟩
def fAD_BLK_STAT_REVERSED (n : Nat) : Fld := ⟨adBase n + 0xc, 10, 10⟩
/-- AD_CTL (11 R310). -/
def rAD_CTL (n : Nat) : Nat := adBase n + 0x40
def fAD_CTL_EN (n : Nat) : Fld := ⟨adBase n + 0x40, 0, 0⟩
def fAD_CTL_RETRAIN (n : Nat) : Fld := ⟨adBase n + 0x40, 1, 1⟩
def fAD_CTL_CLR_CNT (n : Nat) : Fld := ⟨adBase n + 0x40, 2, 2⟩
/-- AD_PEER (11 R310). -/
def rAD_PEER (n : Nat) : Nat := adBase n + 0x44
def fAD_PEER_PEER_ID (n : Nat) : Fld := ⟨adBase n + 0x44, 15, 0⟩
def fAD_PEER_PEER_ADIT (n : Nat) : Fld := ⟨adBase n + 0x44, 20, 16⟩
def fAD_PEER_PEER_STEP (n : Nat) : Fld := ⟨adBase n + 0x44, 24, 21⟩
/-- AD_FEC (11 R310). -/
def rAD_FEC (n : Nat) : Nat := adBase n + 0x48
def fAD_FEC_CORR (n : Nat) : Fld := ⟨adBase n + 0x48, 15, 0⟩
def fAD_FEC_UNCORR (n : Nat) : Fld := ⟨adBase n + 0x48, 31, 16⟩
/-- AD_RETRY (11 R310). -/
def rAD_RETRY (n : Nat) : Nat := adBase n + 0x4c
def fAD_RETRY_REPLAYS (n : Nat) : Fld := ⟨adBase n + 0x4c, 15, 0⟩
def fAD_RETRY_PROTO (n : Nat) : Fld := ⟨adBase n + 0x4c, 31, 16⟩
/-- AD_TRAIN (11 R310). -/
def rAD_TRAIN (n : Nat) : Nat := adBase n + 0x50
def fAD_TRAIN_RETRAINS (n : Nat) : Fld := ⟨adBase n + 0x50, 15, 0⟩
def fAD_TRAIN_DOWNS (n : Nat) : Fld := ⟨adBase n + 0x50, 31, 16⟩
/-- CH_LINK (15 R443). -/
def rCH_LINK (n : Nat) : Nat := chBase n + 0x40
def fCH_LINK_STATE (n : Nat) : Fld := ⟨chBase n + 0x40, 2, 0⟩
def fCH_LINK_RECOVERIES (n : Nat) : Fld := ⟨chBase n + 0x40, 31, 16⟩
/-- SG_BLK_CAP (10 R285). -/
def rSG_BLK_CAP (n : Nat) : Nat := sgBase n + 0x4
def fSG_BLK_CAP_SIZE_MIB (n : Nat) : Fld := ⟨sgBase n + 0x4, 5, 0⟩
def fSG_BLK_CAP_DEVICE_AREA (n : Nat) : Fld := ⟨sgBase n + 0x4, 6, 6⟩
/-- SG_PART (10 R285). -/
def rSG_PART (n : Nat) : Nat := sgBase n + 0x40
def fSG_PART_COLL (n : Nat) : Fld := ⟨sgBase n + 0x40, 5, 0⟩
def fSG_PART_SECURE (n : Nat) : Fld := ⟨sgBase n + 0x40, 13, 8⟩
/-- SG_STATE (10 R285). -/
def rSG_STATE (n : Nat) : Nat := sgBase n + 0x44
def fSG_STATE_AREA_BUSY (n : Nat) : Fld := ⟨sgBase n + 0x44, 0, 0⟩
def fSG_STATE_GENERAL_MIB (n : Nat) : Fld := ⟨sgBase n + 0x44, 13, 8⟩
/-- SG_SCRUB (10 R285). -/
def rSG_SCRUB (n : Nat) : Nat := sgBase n + 0x48
def fSG_SCRUB_PERIOD (n : Nat) : Fld := ⟨sgBase n + 0x48, 7, 0⟩
def fSG_SCRUB_PASSES (n : Nat) : Fld := ⟨sgBase n + 0x48, 31, 16⟩
/-- SG_ECC (10 R285). -/
def rSG_ECC (n : Nat) : Nat := sgBase n + 0x4c
def fSG_ECC_CE (n : Nat) : Fld := ⟨sgBase n + 0x4c, 15, 0⟩
def fSG_ECC_UE (n : Nat) : Fld := ⟨sgBase n + 0x4c, 31, 16⟩
/-- RED_BLK_CAP (12 R342). -/
def rRED_BLK_CAP (n : Nat) : Nat := redBase n + 0x4
def fRED_BLK_CAP_FP32_LANES (n : Nat) : Fld := ⟨redBase n + 0x4, 9, 0⟩
def fRED_BLK_CAP_BXR8_BLOCKS (n : Nat) : Fld := ⟨redBase n + 0x4, 15, 10⟩
def fRED_BLK_CAP_ADITS (n : Nat) : Fld := ⟨redBase n + 0x4, 19, 16⟩
def fRED_BLK_CAP_MAX_RUNNING (n : Nat) : Fld := ⟨redBase n + 0x4, 28, 20⟩
/-- RED_STATE (12 R342). -/
def rRED_STATE (n : Nat) : Nat := redBase n + 0x40
def fRED_STATE_RUNNING (n : Nat) : Fld := ⟨redBase n + 0x40, 8, 0⟩
def fRED_STATE_BUF_FREE (n : Nat) : Fld := ⟨redBase n + 0x40, 31, 16⟩
/-- RED_CNT (12 R342). -/
def rRED_CNT (n : Nat) : Nat := redBase n + 0x44
def fRED_CNT_STALE (n : Nat) : Fld := ⟨redBase n + 0x44, 15, 0⟩
def fRED_CNT_PROTO (n : Nat) : Fld := ⟨redBase n + 0x44, 31, 16⟩
/-- RED_CNT2 (12 R342). -/
def rRED_CNT2 (n : Nat) : Nat := redBase n + 0x48
def fRED_CNT2_RESTARTS (n : Nat) : Fld := ⟨redBase n + 0x48, 15, 0⟩
def fRED_CNT2_ABORTS (n : Nat) : Fld := ⟨redBase n + 0x48, 31, 16⟩
/-- RED_CTL (12 R342). -/
def rRED_CTL (n : Nat) : Nat := redBase n + 0x4c
def fRED_CTL_CLR_CNT (n : Nat) : Fld := ⟨redBase n + 0x4c, 0, 0⟩
def fRED_CTL_CLR_BYTES (n : Nat) : Fld := ⟨redBase n + 0x4c, 1, 1⟩
/-- RED_BYTES_RX_LO (12 R342). -/
def rRED_BYTES_RX_LO (n : Nat) : Nat := redBase n + 0x50
def fRED_BYTES_RX_LO_V (n : Nat) : Fld := ⟨redBase n + 0x50, 31, 0⟩
/-- RED_BYTES_RX_HI (12 R342). -/
def rRED_BYTES_RX_HI (n : Nat) : Nat := redBase n + 0x54
def fRED_BYTES_RX_HI_V (n : Nat) : Fld := ⟨redBase n + 0x54, 31, 0⟩
/-- RED_BYTES_TX_LO (12 R342). -/
def rRED_BYTES_TX_LO (n : Nat) : Nat := redBase n + 0x58
def fRED_BYTES_TX_LO_V (n : Nat) : Fld := ⟨redBase n + 0x58, 31, 0⟩
/-- RED_BYTES_TX_HI (12 R342). -/
def rRED_BYTES_TX_HI (n : Nat) : Nat := redBase n + 0x5c
def fRED_BYTES_TX_HI_V (n : Nat) : Fld := ⟨redBase n + 0x5c, 31, 0⟩
/-- RED_ECC (12 R342). -/
def rRED_ECC (n : Nat) : Nat := redBase n + 0x60
def fRED_ECC_CE (n : Nat) : Fld := ⟨redBase n + 0x60, 15, 0⟩
/-- SQ_BASE_LO (15 R423). -/
def rSQ_BASE_LO (n : Nat) : Nat := queueBase n + 0x40
def fSQ_BASE_LO_PA (n : Nat) : Fld := ⟨queueBase n + 0x40, 31, 0⟩
/-- SQ_BASE_HI (15 R423). -/
def rSQ_BASE_HI (n : Nat) : Nat := queueBase n + 0x44
def fSQ_BASE_HI_PA (n : Nat) : Fld := ⟨queueBase n + 0x44, 31, 0⟩
/-- SQ_CQ_LO (15 R423). -/
def rSQ_CQ_LO (n : Nat) : Nat := queueBase n + 0x48
def fSQ_CQ_LO_PA (n : Nat) : Fld := ⟨queueBase n + 0x48, 31, 0⟩
/-- SQ_CQ_HI (15 R423). -/
def rSQ_CQ_HI (n : Nat) : Nat := queueBase n + 0x4c
def fSQ_CQ_HI_PA (n : Nat) : Fld := ⟨queueBase n + 0x4c, 31, 0⟩
/-- SQ_CFG (15 R423). -/
def rSQ_CFG (n : Nat) : Nat := queueBase n + 0x50
def fSQ_CFG_CTX (n : Nat) : Fld := ⟨queueBase n + 0x50, 5, 0⟩
def fSQ_CFG_SIZE_LOG2 (n : Nat) : Fld := ⟨queueBase n + 0x50, 11, 8⟩
def fSQ_CFG_RING (n : Nat) : Fld := ⟨queueBase n + 0x50, 19, 16⟩
/-- SQ_CTL (15 R423). -/
def rSQ_CTL (n : Nat) : Nat := queueBase n + 0x54
def fSQ_CTL_ENABLE (n : Nat) : Fld := ⟨queueBase n + 0x54, 0, 0⟩
def fSQ_CTL_RESUME (n : Nat) : Fld := ⟨queueBase n + 0x54, 1, 1⟩
def fSQ_CTL_DISCARD (n : Nat) : Fld := ⟨queueBase n + 0x54, 2, 2⟩
/-- SQ_TAIL (15 R423). -/
def rSQ_TAIL (n : Nat) : Nat := queueBase n + 0x58
def fSQ_TAIL_TAIL (n : Nat) : Fld := ⟨queueBase n + 0x58, 31, 0⟩
/-- SQ_STAT (15 R423). -/
def rSQ_STAT (n : Nat) : Nat := queueBase n + 0x5c
def fSQ_STAT_STATE (n : Nat) : Fld := ⟨queueBase n + 0x5c, 1, 0⟩
def fSQ_STAT_ERR_STATUS (n : Nat) : Fld := ⟨queueBase n + 0x5c, 15, 8⟩
/-- SQ_HEAD (15 R423). -/
def rSQ_HEAD (n : Nat) : Nat := queueBase n + 0x60
def fSQ_HEAD_HEAD (n : Nat) : Fld := ⟨queueBase n + 0x60, 31, 0⟩
/-- SQ_SEQ (15 R423). -/
def rSQ_SEQ (n : Nat) : Nat := queueBase n + 0x64
def fSQ_SEQ_NEXT_SEQ (n : Nat) : Fld := ⟨queueBase n + 0x64, 31, 0⟩
/-- SQ_DONE (15 R423). -/
def rSQ_DONE (n : Nat) : Nat := queueBase n + 0x68
def fSQ_DONE_DONE_SEQ (n : Nat) : Fld := ⟨queueBase n + 0x68, 31, 0⟩
/-- SQ_ERR_SEQ (15 R423). -/
def rSQ_ERR_SEQ (n : Nat) : Nat := queueBase n + 0x6c
def fSQ_ERR_SEQ_SEQ (n : Nat) : Fld := ⟨queueBase n + 0x6c, 31, 0⟩

/-- A register's reset value and its access masks (00 R7): `rw`, `w1c` and `wo` bits; every other bit is RO. -/
structure RegInfo where
  reset : Nat
  rw : Nat
  w1c : Nat
  wo : Nat
  deriving DecidableEq, Repr

/-- The registers of one page kind, by byte offset within the page; none where the offset holds no register. In BLK_EVT_EN and
BLK_EVT_CLR the bits of the events of the page: the four common ones and those that the own chapter of the block defines (log 118). -/
def regs_dev (o : Nat) : Option RegInfo :=
  match o with
  | 0x0 => some ⟨0x1100000, 0x0, 0x0, 0x0⟩
  | 0x4 => some ⟨0x3120c20, 0x0, 0x0, 0x0⟩
  | 0x8 => some ⟨0x0, 0xf, 0x0, 0x0⟩
  | 0xc => some ⟨0x0, 0x0, 0x0, 0x0⟩
  | 0x10 => some ⟨0x0, 0x0, 0x0, 0x0⟩
  | 0x14 => some ⟨0xc, 0xf, 0x0, 0x0⟩
  | 0x18 => some ⟨0x0, 0x0, 0xf, 0x0⟩
  | 0x20 => some ⟨0x3e800, 0xffff00, 0x0, 0x3⟩
  | 0x24 => some ⟨0x0, 0x0, 0x0, 0x0⟩
  | _ => none

def regs_tx (o : Nat) : Option RegInfo :=
  match o with
  | 0x0 => some ⟨0x1100000, 0x0, 0x0, 0x0⟩
  | 0x4 => some ⟨0x0, 0x0, 0x0, 0x0⟩
  | 0x8 => some ⟨0x0, 0xf, 0x0, 0x0⟩
  | 0xc => some ⟨0x0, 0x0, 0x0, 0x0⟩
  | 0x10 => some ⟨0x0, 0x0, 0x0, 0x0⟩
  | 0x14 => some ⟨0xc, 0xf, 0x0, 0x0⟩
  | 0x18 => some ⟨0x0, 0x0, 0xf, 0x0⟩
  | 0x20 => some ⟨0x3e800, 0xffff00, 0x0, 0x3⟩
  | 0x24 => some ⟨0x0, 0x0, 0x0, 0x0⟩
  | 0x40 => some ⟨0x3e800, 0xffff00, 0x0, 0x3⟩
  | 0x44 => some ⟨0x0, 0x0, 0x0, 0x0⟩
  | _ =>
    if 0x80 ≤ o ∧ o < 0x100 ∧ (o - 0x80) % 4 = 0 then some ⟨0x0, 0x80000fff, 0x0, 0x0⟩
    else none

def regs_pw (o : Nat) : Option RegInfo :=
  match o with
  | 0x0 => some ⟨0x1100000, 0x0, 0x0, 0x0⟩
  | 0x4 => some ⟨0x0, 0x0, 0x0, 0x0⟩
  | 0x8 => some ⟨0x0, 0xf, 0x0, 0x0⟩
  | 0xc => some ⟨0x0, 0x0, 0x0, 0x0⟩
  | 0x10 => some ⟨0x0, 0x0, 0x0, 0x0⟩
  | 0x14 => some ⟨0xc, 0x1f, 0x0, 0x0⟩
  | 0x18 => some ⟨0x0, 0x0, 0x1f, 0x0⟩
  | 0x20 => some ⟨0x3e800, 0xffff00, 0x0, 0x3⟩
  | 0x24 => some ⟨0x0, 0x0, 0x0, 0x0⟩
  | 0x40 => some ⟨0xf, 0x30, 0x0, 0x0⟩
  | 0x44 => some ⟨0xfff, 0xfff, 0x0, 0x0⟩
  | 0x48 => some ⟨0x0, 0x0, 0x0, 0x0⟩
  | 0x4c => some ⟨0x0, 0x0, 0x0, 0x0⟩
  | 0x50 => some ⟨0x0, 0xffffff, 0x0, 0x0⟩
  | 0x54 => some ⟨0x0, 0x0, 0x0, 0x0⟩
  | 0x58 => some ⟨0x4040, 0x0, 0x0, 0x0⟩
  | 0x5c => some ⟨0x0, 0x0, 0x0, 0x0⟩
  | 0x60 => some ⟨0x0, 0x3, 0x0, 0x0⟩
  | 0x64 => some ⟨0x0, 0x0, 0x0, 0x0⟩
  | 0x68 => some ⟨0x0, 0x0, 0x0, 0xff01⟩
  | 0x6c => some ⟨0x0, 0x0, 0x0, 0x0⟩
  | 0xc0 => some ⟨0x0, 0x1, 0x0, 0x0⟩
  | 0xc4 => some ⟨0x0, 0x0, 0x0, 0x0⟩
  | 0xd0 => some ⟨0x0, 0x0, 0x3f, 0x0⟩
  | _ =>
    if 0x70 ≤ o ∧ o < 0x84 ∧ (o - 0x70) % 4 = 0 then some ⟨0x0, 0x0, 0x0, 0x0⟩
    else none

def regs_sec (o : Nat) : Option RegInfo :=
  match o with
  | 0x0 => some ⟨0x1100000, 0x0, 0x0, 0x0⟩
  | 0x4 => some ⟨0x0, 0x0, 0x0, 0x0⟩
  | 0x8 => some ⟨0x0, 0xf, 0x0, 0x0⟩
  | 0xc => some ⟨0x0, 0x0, 0x0, 0x0⟩
  | 0x10 => some ⟨0x0, 0x0, 0x0, 0x0⟩
  | 0x14 => some ⟨0xc, 0x3ff, 0x0, 0x0⟩
  | 0x18 => some ⟨0x0, 0x0, 0x3ff, 0x0⟩
  | 0x20 => some ⟨0x3e800, 0xffff00, 0x0, 0x3⟩
  | 0x24 => some ⟨0x0, 0x0, 0x0, 0x0⟩
  | 0x40 => some ⟨0x0, 0x0, 0x0, 0x0⟩
  | 0x44 => some ⟨0x0, 0x0, 0x0, 0x0⟩
  | 0x48 => some ⟨0x0, 0x0, 0x0, 0x0⟩
  | 0x50 => some ⟨0x0, 0xffffffff, 0x0, 0x0⟩
  | 0x54 => some ⟨0x0, 0xffffffff, 0x0, 0x0⟩
  | 0x58 => some ⟨0x0, 0x0, 0x0, 0x1⟩
  | 0x5c => some ⟨0x0, 0x0, 0x0, 0x0⟩
  | 0x60 => some ⟨0x0, 0x0, 0x0, 0x0⟩
  | 0x100 => some ⟨0x0, 0x0, 0x0, 0x0⟩
  | 0x104 => some ⟨0x0, 0x0, 0x0, 0x0⟩
  | 0x108 => some ⟨0x0, 0xffffffff, 0x0, 0x0⟩
  | 0x10c => some ⟨0x0, 0xffffffff, 0x0, 0x0⟩
  | 0x110 => some ⟨0x0, 0x1ffffff, 0x0, 0x0⟩
  | 0x114 => some ⟨0x0, 0x0, 0x0, 0x3⟩
  | 0x118 => some ⟨0x0, 0x0, 0x0, 0x0⟩
  | 0x11c => some ⟨0x0, 0x0, 0x0, 0x0⟩
  | _ => none

def regs_sc (o : Nat) : Option RegInfo :=
  match o with
  | 0x0 => some ⟨0x1100000, 0x0, 0x0, 0x0⟩
  | 0x4 => some ⟨0x8010200, 0x0, 0x0, 0x0⟩
  | 0x8 => some ⟨0x0, 0xf, 0x0, 0x0⟩
  | 0xc => some ⟨0x0, 0x0, 0x0, 0x0⟩
  | 0x10 => some ⟨0x0, 0x0, 0x0, 0x0⟩
  | 0x14 => some ⟨0xc, 0xf, 0x0, 0x0⟩
  | 0x18 => some ⟨0x0, 0x0, 0xf, 0x0⟩
  | 0x20 => some ⟨0x3e800, 0xffff00, 0x0, 0x3⟩
  | 0x24 => some ⟨0x0, 0x0, 0x0, 0x0⟩
  | 0x40 => some ⟨0x0, 0xffffffff, 0x0, 0x0⟩
  | 0x44 => some ⟨0x0, 0xffffffff, 0x0, 0x0⟩
  | 0x48 => some ⟨0x0, 0x3f, 0x0, 0x700⟩
  | 0x50 => some ⟨0x0, 0x0, 0x0, 0x0⟩
  | 0x54 => some ⟨0x0, 0x0, 0x0, 0x0⟩
  | 0x58 => some ⟨0x0, 0x0, 0x0, 0x0⟩
  | 0x5c => some ⟨0x0, 0x0, 0x0, 0x0⟩
  | 0x80 => some ⟨0xf00, 0x0, 0x0, 0x0⟩
  | 0x84 => some ⟨0x0, 0x0, 0x0, 0x0⟩
  | 0x88 => some ⟨0x0, 0x0, 0x0, 0x0⟩
  | _ => none

def regs_ev (o : Nat) : Option RegInfo :=
  match o with
  | 0x0 => some ⟨0x1100000, 0x0, 0x0, 0x0⟩
  | 0x4 => some ⟨0x0, 0x0, 0x0, 0x0⟩
  | 0x8 => some ⟨0x0, 0xf, 0x0, 0x0⟩
  | 0xc => some ⟨0x0, 0x0, 0x0, 0x0⟩
  | 0x10 => some ⟨0x0, 0x0, 0x0, 0x0⟩
  | 0x14 => some ⟨0xc, 0xf, 0x0, 0x0⟩
  | 0x18 => some ⟨0x0, 0x0, 0xf, 0x0⟩
  | 0x20 => some ⟨0x3e800, 0xffff00, 0x0, 0x3⟩
  | 0x24 => some ⟨0x0, 0x0, 0x0, 0x0⟩
  | _ =>
    if 0x40 ≤ o ∧ o < 0x240 ∧ (o - 0x40) % 32 = 0 then some ⟨0x0, 0xffffffff, 0x0, 0x0⟩
    else if 0x44 ≤ o ∧ o < 0x244 ∧ (o - 0x44) % 32 = 0 then some ⟨0x0, 0xffffffff, 0x0, 0x0⟩
    else if 0x48 ≤ o ∧ o < 0x248 ∧ (o - 0x48) % 32 = 0 then some ⟨0x24, 0x13f, 0x0, 0x0⟩
    else if 0x4c ≤ o ∧ o < 0x24c ∧ (o - 0x4c) % 32 = 0 then some ⟨0x0, 0xffffffff, 0x0, 0x0⟩
    else if 0x50 ≤ o ∧ o < 0x250 ∧ (o - 0x50) % 32 = 0 then some ⟨0x0, 0x0, 0x0, 0x0⟩
    else if 0x54 ≤ o ∧ o < 0x254 ∧ (o - 0x54) % 32 = 0 then some ⟨0x0, 0xfffffff, 0x0, 0x0⟩
    else if 0x58 ≤ o ∧ o < 0x258 ∧ (o - 0x58) % 32 = 0 then some ⟨0x0, 0x0, 0x0, 0x0⟩
    else none

def regs_tm (o : Nat) : Option RegInfo :=
  match o with
  | 0x0 => some ⟨0x1100000, 0x0, 0x0, 0x0⟩
  | 0x4 => some ⟨0x0, 0x0, 0x0, 0x0⟩
  | 0x8 => some ⟨0x0, 0xf, 0x0, 0x0⟩
  | 0xc => some ⟨0x0, 0x0, 0x0, 0x0⟩
  | 0x10 => some ⟨0x0, 0x0, 0x0, 0x0⟩
  | 0x14 => some ⟨0xc, 0xf, 0x0, 0x0⟩
  | 0x18 => some ⟨0x0, 0x0, 0xf, 0x0⟩
  | 0x20 => some ⟨0x3e800, 0xffff00, 0x0, 0x3⟩
  | 0x24 => some ⟨0x0, 0x0, 0x0, 0x0⟩
  | 0x40 => some ⟨0x0, 0x0, 0x0, 0x0⟩
  | 0x44 => some ⟨0x0, 0x0, 0x0, 0x0⟩
  | 0x48 => some ⟨0x0, 0x0, 0x0, 0x0⟩
  | 0x4c => some ⟨0x0, 0x0, 0x0, 0x0⟩
  | _ => none

def regs_gg (o : Nat) : Option RegInfo :=
  match o with
  | 0x0 => some ⟨0x1100000, 0x0, 0x0, 0x0⟩
  | 0x4 => some ⟨0x0, 0x0, 0x0, 0x0⟩
  | 0x8 => some ⟨0x0, 0xf, 0x0, 0x0⟩
  | 0xc => some ⟨0x0, 0x0, 0x0, 0x0⟩
  | 0x10 => some ⟨0x0, 0x0, 0x0, 0x0⟩
  | 0x14 => some ⟨0xc, 0xff, 0x0, 0x0⟩
  | 0x18 => some ⟨0x0, 0x0, 0xff, 0x0⟩
  | 0x20 => some ⟨0x3e800, 0xffff00, 0x0, 0x3⟩
  | 0x24 => some ⟨0x0, 0x0, 0x0, 0x0⟩
  | 0x40 => some ⟨0xffff, 0xffff, 0x0, 0x0⟩
  | 0x44 => some ⟨0x0, 0x0, 0x0, 0x7⟩
  | 0x48 => some ⟨0xffff, 0xffff, 0x0, 0x0⟩
  | 0x50 => some ⟨0x0, 0xffffffff, 0x0, 0x0⟩
  | 0x54 => some ⟨0x0, 0xffffffff, 0x0, 0x0⟩
  | 0x58 => some ⟨0x0, 0xffffffff, 0x0, 0x0⟩
  | 0x5c => some ⟨0x0, 0xffffffff, 0x0, 0x0⟩
  | 0x60 => some ⟨0x0, 0x0, 0x0, 0x0⟩
  | 0x64 => some ⟨0x6401f4, 0xffffffff, 0x0, 0x0⟩
  | 0x68 => some ⟨0x0, 0x0, 0x0, 0x0⟩
  | 0x6c => some ⟨0x0, 0x3f, 0x0, 0x0⟩
  | 0x70 => some ⟨0x0, 0x0, 0x0, 0x0⟩
  | 0x74 => some ⟨0x0, 0x0, 0x0, 0x0⟩
  | 0x80 => some ⟨0x200, 0x0, 0x0, 0x0⟩
  | 0x84 => some ⟨0x80, 0xff, 0x0, 0x0⟩
  | 0x88 => some ⟨0x0, 0x0, 0x0, 0x0⟩
  | 0x8c => some ⟨0x0, 0x0, 0x0, 0x0⟩
  | 0x90 => some ⟨0x0, 0xffff03, 0x0, 0x0⟩
  | 0x94 => some ⟨0x0, 0x3ff, 0x0, 0x0⟩
  | 0x98 => some ⟨0x0, 0xffffffff, 0x0, 0x0⟩
  | 0x9c => some ⟨0x0, 0xffffffff, 0x0, 0x0⟩
  | 0xa0 => some ⟨0x0, 0x1fff, 0x0, 0x0⟩
  | 0xa8 => some ⟨0x0, 0xffffffff, 0x0, 0x0⟩
  | 0xac => some ⟨0x0, 0xffffffff, 0x0, 0x0⟩
  | 0xb0 => some ⟨0x0, 0xfffff, 0x0, 0x0⟩
  | 0xb8 => some ⟨0x0, 0xffffffff, 0x0, 0x0⟩
  | 0xbc => some ⟨0x0, 0xffffffff, 0x0, 0x0⟩
  | 0xc0 => some ⟨0x0, 0xfffff, 0x0, 0x0⟩
  | 0xc4 => some ⟨0x0, 0x0, 0x0, 0x0⟩
  | 0xc8 => some ⟨0x0, 0x0, 0x0, 0x0⟩
  | 0xcc => some ⟨0x0, 0x0, 0x0, 0x0⟩
  | _ => none

def regs_cl (o : Nat) : Option RegInfo :=
  match o with
  | 0x0 => some ⟨0x1100000, 0x0, 0x0, 0x0⟩
  | 0x4 => some ⟨0x0, 0x0, 0x0, 0x0⟩
  | 0x8 => some ⟨0x0, 0x10f, 0x0, 0x0⟩
  | 0xc => some ⟨0x0, 0x0, 0x0, 0x0⟩
  | 0x10 => some ⟨0x0, 0x0, 0x0, 0x0⟩
  | 0x14 => some ⟨0xc, 0xf, 0x0, 0x0⟩
  | 0x18 => some ⟨0x0, 0x0, 0xf, 0x0⟩
  | 0x20 => some ⟨0x3e800, 0xffff00, 0x0, 0x3⟩
  | 0x24 => some ⟨0x0, 0x0, 0x0, 0x0⟩
  | 0x40 => some ⟨0x0, 0x0, 0x0, 0x0⟩
  | 0xf0 => some ⟨0x0, 0x0, 0x0, 0x1⟩
  | _ => none

def regs_se (o : Nat) : Option RegInfo :=
  match o with
  | 0x0 => some ⟨0x1100000, 0x0, 0x0, 0x0⟩
  | 0x4 => some ⟨0x42068, 0x0, 0x0, 0x0⟩
  | 0x8 => some ⟨0x0, 0xf, 0x0, 0x0⟩
  | 0xc => some ⟨0x0, 0x0, 0x0, 0x0⟩
  | 0x10 => some ⟨0x0, 0x0, 0x0, 0x0⟩
  | 0x14 => some ⟨0xc, 0x3f, 0x0, 0x0⟩
  | 0x18 => some ⟨0x0, 0x0, 0x3f, 0x0⟩
  | 0x20 => some ⟨0x3e800, 0xffff00, 0x0, 0x3⟩
  | 0x24 => some ⟨0x0, 0x0, 0x0, 0x0⟩
  | 0x40 => some ⟨0x0, 0x0, 0x0, 0x0⟩
  | 0x44 => some ⟨0x0, 0x0, 0x0, 0x0⟩
  | 0x48 => some ⟨0x0, 0x0, 0x0, 0x0⟩
  | 0x4c => some ⟨0x0, 0x0, 0x0, 0x0⟩
  | 0x50 => some ⟨0x0, 0x0, 0x0, 0x7⟩
  | 0x58 => some ⟨0x0, 0x0, 0x0, 0x0⟩
  | 0x5c => some ⟨0x0, 0x0, 0x0, 0x0⟩
  | 0x60 => some ⟨0x0, 0x0, 0x0, 0x0⟩
  | 0x64 => some ⟨0x0, 0x0, 0x0, 0x0⟩
  | 0x68 => some ⟨0x0, 0x0, 0x0, 0x0⟩
  | 0x6c => some ⟨0x0, 0x0, 0x0, 0x0⟩
  | 0x70 => some ⟨0x0, 0x0, 0x0, 0x0⟩
  | 0x74 => some ⟨0x0, 0x0, 0x0, 0x0⟩
  | _ => none

def regs_ve (o : Nat) : Option RegInfo :=
  match o with
  | 0x0 => some ⟨0x1100000, 0x0, 0x0, 0x0⟩
  | 0x4 => some ⟨0xf1006400, 0x0, 0x0, 0x0⟩
  | 0x8 => some ⟨0x0, 0xf, 0x0, 0x0⟩
  | 0xc => some ⟨0x0, 0x0, 0x0, 0x0⟩
  | 0x10 => some ⟨0x0, 0x0, 0x0, 0x0⟩
  | 0x14 => some ⟨0xc, 0x7f, 0x0, 0x0⟩
  | 0x18 => some ⟨0x0, 0x0, 0x7f, 0x0⟩
  | 0x20 => some ⟨0x3e800, 0xffff00, 0x0, 0x3⟩
  | 0x24 => some ⟨0x0, 0x0, 0x0, 0x0⟩
  | 0x40 => some ⟨0x0, 0x0, 0x0, 0x0⟩
  | 0x44 => some ⟨0x0, 0x0, 0x0, 0x0⟩
  | 0x48 => some ⟨0x0, 0x0, 0x0, 0x3⟩
  | 0x50 => some ⟨0x0, 0x0, 0x0, 0x0⟩
  | 0x54 => some ⟨0x0, 0x0, 0x0, 0x0⟩
  | 0x58 => some ⟨0x0, 0x0, 0x0, 0x0⟩
  | 0x5c => some ⟨0x0, 0x0, 0x0, 0x0⟩
  | 0x60 => some ⟨0x0, 0x0, 0x0, 0x0⟩
  | 0x64 => some ⟨0x0, 0x0, 0x0, 0x0⟩
  | 0x68 => some ⟨0x0, 0x0, 0x0, 0x0⟩
  | 0x6c => some ⟨0x0, 0x0, 0x0, 0x0⟩
  | 0x70 => some ⟨0x0, 0x0, 0x0, 0x0⟩
  | 0x74 => some ⟨0x0, 0x0, 0x0, 0x0⟩
  | 0x78 => some ⟨0x0, 0x0, 0x0, 0x0⟩
  | 0x7c => some ⟨0x124f80, 0xffffff, 0x0, 0x0⟩
  | 0x80 => some ⟨0x1010000, 0x0, 0x0, 0x80000000⟩
  | _ => none

def regs_op (o : Nat) : Option RegInfo :=
  match o with
  | 0x0 => some ⟨0x1100000, 0x0, 0x0, 0x0⟩
  | 0x4 => some ⟨0x1807fe, 0x0, 0x0, 0x0⟩
  | 0x8 => some ⟨0x0, 0xf, 0x0, 0x0⟩
  | 0xc => some ⟨0x0, 0x0, 0x0, 0x0⟩
  | 0x10 => some ⟨0x0, 0x0, 0x0, 0x0⟩
  | 0x14 => some ⟨0xc, 0x3f, 0x0, 0x0⟩
  | 0x18 => some ⟨0x0, 0x0, 0x3f, 0x0⟩
  | 0x20 => some ⟨0x3e800, 0xffff00, 0x0, 0x3⟩
  | 0x24 => some ⟨0x0, 0x0, 0x0, 0x0⟩
  | 0x40 => some ⟨0x0, 0x0, 0x0, 0x0⟩
  | 0x44 => some ⟨0x0, 0x0, 0x0, 0x0⟩
  | 0x48 => some ⟨0x0, 0x0, 0x0, 0x3⟩
  | 0x50 => some ⟨0x0, 0x0, 0x0, 0x0⟩
  | 0x54 => some ⟨0x0, 0x0, 0x0, 0x0⟩
  | 0x58 => some ⟨0x0, 0x0, 0x0, 0x0⟩
  | 0x5c => some ⟨0x0, 0x0, 0x0, 0x0⟩
  | 0x60 => some ⟨0x0, 0x0, 0x0, 0x0⟩
  | 0x64 => some ⟨0x0, 0x0, 0x0, 0x0⟩
  | 0x68 => some ⟨0x0, 0x0, 0x0, 0x0⟩
  | 0x6c => some ⟨0x0, 0x0, 0x0, 0x0⟩
  | 0x70 => some ⟨0x0, 0x0, 0x0, 0x0⟩
  | 0x74 => some ⟨0x124f80, 0xffffff, 0x0, 0x0⟩
  | _ => none

def regs_ld (o : Nat) : Option RegInfo :=
  match o with
  | 0x0 => some ⟨0x1100000, 0x0, 0x0, 0x0⟩
  | 0x4 => some ⟨0x4000000, 0x0, 0x0, 0x0⟩
  | 0x8 => some ⟨0x0, 0xf, 0x0, 0x0⟩
  | 0xc => some ⟨0x0, 0x0, 0x0, 0x0⟩
  | 0x10 => some ⟨0x0, 0x0, 0x0, 0x0⟩
  | 0x14 => some ⟨0xc, 0xfff, 0x0, 0x0⟩
  | 0x18 => some ⟨0x0, 0x0, 0xfff, 0x0⟩
  | 0x20 => some ⟨0x3e800, 0xffff00, 0x0, 0x3⟩
  | 0x24 => some ⟨0x0, 0x0, 0x0, 0x0⟩
  | 0x40 => some ⟨0x18, 0xff, 0x0, 0x0⟩
  | 0x44 => some ⟨0x10, 0xff, 0x0, 0x0⟩
  | 0x48 => some ⟨0x0, 0x0, 0x0, 0x0⟩
  | 0x4c => some ⟨0x40000, 0x0, 0x0, 0x0⟩
  | 0x50 => some ⟨0x0, 0x0, 0x0, 0x0⟩
  | 0x54 => some ⟨0x0, 0x0, 0x0, 0x0⟩
  | 0x58 => some ⟨0x0, 0x0, 0x0, 0x0⟩
  | 0x5c => some ⟨0x0, 0x0, 0x0, 0x1⟩
  | 0x60 => some ⟨0x0, 0x0, 0x0, 0x0⟩
  | _ => none

def regs_ad (o : Nat) : Option RegInfo :=
  match o with
  | 0x0 => some ⟨0x1100000, 0x0, 0x0, 0x0⟩
  | 0x4 => some ⟨0x8, 0x0, 0x0, 0x0⟩
  | 0x8 => some ⟨0x0, 0xf, 0x0, 0x0⟩
  | 0xc => some ⟨0x0, 0x0, 0x0, 0x0⟩
  | 0x10 => some ⟨0x0, 0x0, 0x0, 0x0⟩
  | 0x14 => some ⟨0xc, 0xff, 0x0, 0x0⟩
  | 0x18 => some ⟨0x0, 0x0, 0xff, 0x0⟩
  | 0x20 => some ⟨0x3e800, 0xffff00, 0x0, 0x3⟩
  | 0x24 => some ⟨0x0, 0x0, 0x0, 0x0⟩
  | 0x40 => some ⟨0x0, 0x1, 0x0, 0x6⟩
  | 0x44 => some ⟨0x1fffff, 0x0, 0x0, 0x0⟩
  | 0x48 => some ⟨0x0, 0x0, 0x0, 0x0⟩
  | 0x4c => some ⟨0x0, 0x0, 0x0, 0x0⟩
  | 0x50 => some ⟨0x0, 0x0, 0x0, 0x0⟩
  | _ => none

def regs_ch (o : Nat) : Option RegInfo :=
  match o with
  | 0x0 => some ⟨0x1100000, 0x0, 0x0, 0x0⟩
  | 0x4 => some ⟨0x0, 0x0, 0x0, 0x0⟩
  | 0x8 => some ⟨0x0, 0xf, 0x0, 0x0⟩
  | 0xc => some ⟨0x0, 0x0, 0x0, 0x0⟩
  | 0x10 => some ⟨0x0, 0x0, 0x0, 0x0⟩
  | 0x14 => some ⟨0xc, 0xf, 0x0, 0x0⟩
  | 0x18 => some ⟨0x0, 0x0, 0xf, 0x0⟩
  | 0x20 => some ⟨0x3e800, 0xffff00, 0x0, 0x3⟩
  | 0x24 => some ⟨0x0, 0x0, 0x0, 0x0⟩
  | 0x40 => some ⟨0x0, 0x0, 0x0, 0x0⟩
  | _ => none

def regs_sg (o : Nat) : Option RegInfo :=
  match o with
  | 0x0 => some ⟨0x1100000, 0x0, 0x0, 0x0⟩
  | 0x4 => some ⟨0x20, 0x0, 0x0, 0x0⟩
  | 0x8 => some ⟨0x0, 0xf, 0x0, 0x0⟩
  | 0xc => some ⟨0x0, 0x0, 0x0, 0x0⟩
  | 0x10 => some ⟨0x0, 0x0, 0x0, 0x0⟩
  | 0x14 => some ⟨0xc, 0x3f, 0x0, 0x0⟩
  | 0x18 => some ⟨0x0, 0x0, 0x3f, 0x0⟩
  | 0x20 => some ⟨0x3e800, 0xffff00, 0x0, 0x3⟩
  | 0x24 => some ⟨0x0, 0x0, 0x0, 0x0⟩
  | 0x40 => some ⟨0xc0c, 0x3f3f, 0x0, 0x0⟩
  | 0x44 => some ⟨0x0, 0x0, 0x0, 0x0⟩
  | 0x48 => some ⟨0x3c, 0xff, 0x0, 0x0⟩
  | 0x4c => some ⟨0x0, 0x0, 0x0, 0x0⟩
  | _ => none

def regs_red (o : Nat) : Option RegInfo :=
  match o with
  | 0x0 => some ⟨0x1100000, 0x0, 0x0, 0x0⟩
  | 0x4 => some ⟨0x10098100, 0x0, 0x0, 0x0⟩
  | 0x8 => some ⟨0x0, 0xf, 0x0, 0x0⟩
  | 0xc => some ⟨0x0, 0x0, 0x0, 0x0⟩
  | 0x10 => some ⟨0x0, 0x0, 0x0, 0x0⟩
  | 0x14 => some ⟨0xc, 0x1ff, 0x0, 0x0⟩
  | 0x18 => some ⟨0x0, 0x0, 0x1ff, 0x0⟩
  | 0x20 => some ⟨0x3e800, 0xffff00, 0x0, 0x3⟩
  | 0x24 => some ⟨0x0, 0x0, 0x0, 0x0⟩
  | 0x40 => some ⟨0x0, 0x0, 0x0, 0x0⟩
  | 0x44 => some ⟨0x0, 0x0, 0x0, 0x0⟩
  | 0x48 => some ⟨0x0, 0x0, 0x0, 0x0⟩
  | 0x4c => some ⟨0x0, 0x0, 0x0, 0x3⟩
  | 0x50 => some ⟨0x0, 0x0, 0x0, 0x0⟩
  | 0x54 => some ⟨0x0, 0x0, 0x0, 0x0⟩
  | 0x58 => some ⟨0x0, 0x0, 0x0, 0x0⟩
  | 0x5c => some ⟨0x0, 0x0, 0x0, 0x0⟩
  | 0x60 => some ⟨0x0, 0x0, 0x0, 0x0⟩
  | _ => none

def regs_queue (o : Nat) : Option RegInfo :=
  match o with
  | 0x0 => some ⟨0x1100000, 0x0, 0x0, 0x0⟩
  | 0x4 => some ⟨0x0, 0x0, 0x0, 0x0⟩
  | 0x8 => some ⟨0x0, 0xf, 0x0, 0x0⟩
  | 0xc => some ⟨0x0, 0x0, 0x0, 0x0⟩
  | 0x10 => some ⟨0x0, 0x0, 0x0, 0x0⟩
  | 0x14 => some ⟨0xc, 0xf, 0x0, 0x0⟩
  | 0x18 => some ⟨0x0, 0x0, 0xf, 0x0⟩
  | 0x20 => some ⟨0x3e800, 0xffff00, 0x0, 0x3⟩
  | 0x24 => some ⟨0x0, 0x0, 0x0, 0x0⟩
  | 0x40 => some ⟨0x0, 0xffffffff, 0x0, 0x0⟩
  | 0x44 => some ⟨0x0, 0xffffffff, 0x0, 0x0⟩
  | 0x48 => some ⟨0x0, 0xffffffff, 0x0, 0x0⟩
  | 0x4c => some ⟨0x0, 0xffffffff, 0x0, 0x0⟩
  | 0x50 => some ⟨0x400, 0xf0f3f, 0x0, 0x0⟩
  | 0x54 => some ⟨0x0, 0x1, 0x0, 0x6⟩
  | 0x58 => some ⟨0x0, 0xffffffff, 0x0, 0x0⟩
  | 0x5c => some ⟨0x0, 0x0, 0x0, 0x0⟩
  | 0x60 => some ⟨0x0, 0x0, 0x0, 0x0⟩
  | 0x64 => some ⟨0x0, 0xffffffff, 0x0, 0x0⟩
  | 0x68 => some ⟨0x0, 0x0, 0x0, 0x0⟩
  | 0x6c => some ⟨0x0, 0x0, 0x0, 0x0⟩
  | _ => none

/-- The register of a page kind at a byte offset within the page. -/
def regInfo (k : PageKind) (o : Nat) : Option RegInfo :=
  match k with
  | .dev => regs_dev o
  | .tx => regs_tx o
  | .pw => regs_pw o
  | .sec => regs_sec o
  | .sc => regs_sc o
  | .ev => regs_ev o
  | .tm => regs_tm o
  | .gg => regs_gg o
  | .cl => regs_cl o
  | .se => regs_se o
  | .ve => regs_ve o
  | .op => regs_op o
  | .ld => regs_ld o
  | .ad => regs_ad o
  | .ch => regs_ch o
  | .sg => regs_sg o
  | .red => regs_red o
  | .queue => regs_queue o

/-- Block type of BLK_ID.TYPE (03 R67). -/
def pageType : PageKind → Nat
  | .dev => 0x1
  | .tx => 0x2
  | .pw => 0x3
  | .sec => 0x4
  | .sc => 0x5
  | .ev => 0x6
  | .tm => 0x7
  | .gg => 0x8
  | .cl => 0x10
  | .se => 0x11
  | .ve => 0x12
  | .op => 0x13
  | .ld => 0x20
  | .ad => 0x21
  | .ch => 0x22
  | .sg => 0x23
  | .red => 0x24
  | .queue => 0x30

/-- Half of a page's block (01 R11): 0 east, 1 west, 2 device-wide. SEC and PWR are east processors, SCH is west, but their
pages serve the whole device. -/
def pageHalf (k : PageKind) (n : Nat) : Nat :=
  match k with
  | .cl => if n < 16 then 0 else 1
  | .se => if n < 16 then 0 else 1
  | .ve => if n < 32 then 0 else 1
  | .op => if n < 64 then 0 else 1
  | .ld => if n < 6 then 0 else 1
  | .ad => if n < 9 then 0 else 1
  | .ch => n
  | .sg => if n < 4 then 0 else 1
  | .red => n
  | .dev | .tx | .pw | .sec | .sc | .ev | .tm | .gg | .queue => 2

/-- BLK_ID of a page (03 R68). -/
def blkId (k : PageKind) (n : Nat) : Nat :=
  pageType k + n * 2 ^ 8 + pageHalf k n * 2 ^ 18 + 1 * 2 ^ 20 + 1 * 2 ^ 24

/-- Reset value of the register at a window offset; fields whose reset is given per page (LD BLK_CAP.GRANULES, AD
BLK_CAP.CONNECTOR, SG fields) are filled here from the instance (10 R284 R285, 11 R310). -/
def resetValue (off : Nat) : Nat :=
  let o := off % 4096
  match pageOf (off / 4096) with
  | none => 0
  | some (k, n) =>
    let base := match regInfo k o with
      | some i => i.reset
      | none => 0
    if o = 0 then blkId k n
    else match k with
      | .ad => if o = 4 then base + (if n < 9 then 0 else 1) * 2 ^ 4 else base
      | .ld => if o = 4 then base + (if n < 8 then 0xAAAAAB else 0xAAAAAA) else base
      | .sg => if o = 4 then base + (if n = 4 then 2 ^ 6 else 0)
               else if o = 0x44 then base + (if n = 4 then 7 else 8) * 2 ^ 8 else base
      | _ => base

end Sys2Proof.Machine
end

