-- ==== Sys2Proof/Machine/State.lean ====
section
/-!
DEFINITION. The block's state: everything the spec gives the machine (INVENTORY.md, State), as plain data, and its value
after reset. Registers live in `regs`, keyed by window offset; the rest is state that no register shows.
-/

namespace Sys2Proof.Machine

/-- Why the model stops (log 14: every other event that cannot occur leaves the state unchanged). -/
inductive Fault where
  /-- 02 R35: an input above 50.0 V; "Damage is possible and behaviour is not specified." Raised by the rows that carry an
  input voltage, on such an operand alone. Safe: nothing is claimed of the damaged module. -/
  | beyondAbsoluteMaximum
  deriving DecidableEq, Repr

/-- Why a command has no meaning. -/
inductive Refusal where
  /-- A row whose meaning is not written yet, by its mnemonic. Raised by exec's arms alone. Safe. -/
  | notModelled (mnemonic : String)
  deriving DecidableEq, Repr

/-! ### Power, pins and firmware (02, 16, 17, 18) -/

/-- The module's own supply (02 R37 R41 R42). -/
inductive Rail where
  | off          -- PWR_EN low, or power-down done
  | waitInput    -- PWR_EN high, input outside 38.0–42.0 V: the switch is open (R42)
  | charging     -- bulk charge and regulator start, PWR_GOOD low (boot phase POWER)
  | up           -- every regulator in regulation
  | latchedOff   -- shut down under R37 until PWR_EN has been low for 100 ms
  deriving DecidableEq, Repr

/-- Pins and their timers (02). -/
structure Pwr where
  rail : Rail
  pwrEn : Bool            -- filtered PWR_EN (R40)
  pwrGood : Bool          -- PWR_GOOD pin (R40)
  modRstN : Bool          -- MOD_RST_N pin (R40)
  rstWait : Bool          -- a boot or module reset waits for MOD_RST_N high (R43)
  refclk : Bool           -- REFCLK within R50 and root locked (R51)
  dip : Bool              -- input in 36.0–38.0 V now (R36)
  dipUs : Nat             -- dip timer, µs (R36)
  ovIn : Bool             -- input in 42.0–46.0 V now (R35)
  droops : Nat            -- droops counted (R35): an input of the canary
  hardFence : Bool        -- all work fenced until a module reset (R51, 18 R511)
  cold : Bool             -- this boot is a cold boot (17 R491 R493)
  coolPins : Nat          -- live COOL straps (R52)
  addrPins : Nat          -- live MOD_ADDR straps (R52)
  modAddr : Nat           -- latched MOD_ADDR (R52)
  dynAddr : Option Nat    -- I3C dynamic address (R47)
  i3cOffset : Nat         -- window offset of the I3C transfer (03 R65)
  unconfirmed : Bool      -- last CONFIRM differed from STRAP (R54): the COOL alert condition
  bootFail : Bool         -- BOOT_FAIL condition (R493)
  deriving DecidableEq, Repr

/-- An event record before it takes its slot (15 R439). -/
structure EvRec where
  code : Nat
  ctx : Nat
  source : Nat
  queue : Nat
  seq : Nat
  ts : Nat
  data : Nat
  deriving DecidableEq, Repr

/-- One firmware processor's restart record (16 R445). -/
structure Proc where
  down : Bool             -- fired and not yet serviced again
  heldDown : Bool         -- not restarted any more (R445)
  firedAt : Nat           -- TM_TS of the fire in progress
  fires : List Nat        -- TM_TS of the fires within the last second
  late : Bool             -- missed its restart limit since the fire in progress (R445, R455)
  deriving DecidableEq, Repr

/-- Firmware images and rolls (16 R459–R466). Processors are numbered as RUN_MAP: 0 SEC, 1 PWR, 2 SCH, 3 RCX,
4 + n the control core of CLn (18 R507). -/
structure Fw where
  procs : SMap Proc       -- keyed by processor; RCX core c is 40 + c
  runMap : Nat            -- bit i: processor i runs the image of set 1 (18 R507)
  order : List Nat        -- processors of the roll still to step, in order (R462)
  stepping : Option Nat   -- the processor whose step is under way
  halted : Bool           -- it has stopped: it reloads (R462)
  stepped : List Nat         -- processors stepped, last first
  failed : Option Nat     -- the processor whose step failed (R464)
  waited : Nat            -- PCLK cycles waited or paused (R463)
  pwrWrites : List (Nat × W32) -- register writes that wait for PWR, oldest first (R456)
  pwrPosts : List EvRec   -- records that wait for PWR, oldest first (R458)
  paused : Bool           -- the roll is paused (R463)
  fd1Quiet : Bool         -- firedamp has been below FD1 without a break for 1 s (R461)
  active : List Byte      -- the active bank (R459)
  staged : List Byte      -- the staged bank; empty for none
  store : SMap (List Byte)-- image store: the code each processor restarts from (R459, 18 R503)
  deriving DecidableEq, Repr

/-- Firedamp (17 R487–R489). -/
structure Fd where
  die : SMap Nat          -- last reading of each die sensor, °C
  dieLevel : SMap Nat     -- level each die sensor calls for, with the 5 °C hysteresis
  hbm : SMap Nat          -- last reading of each stack, °C
  hbmLevel : SMap Nat     -- level each stack calls for
  lengthCause : Bool      -- cause 0x03
  heightCause : Bool      -- cause 0x04
  fdnPin : Bool           -- another module holds FD_N low
  fdnCause : Bool         -- cause 0x05
  fdnOnly : Bool          -- FD2 held after FD_N went high, with no other cause since (02 R47): the module does not drive FD_N
  pwrCause : Bool         -- cause 0x06
  regCause : Bool         -- cause 0x07
  powerW : Nat            -- reading of causes 0x03 and 0x04, W
  fd3Latch : Bool         -- FD3 latches until its recovery (R489)
  fd3At : Nat             -- TM_TS at which FD3 fenced the work (16 R458)
  fd1Hold : Bool          -- FD1 held for 1 s after FD3 (R489)
  offDue : Bool           -- FD3 has fenced the work; its domains go off once waiting commits have applied (R488, 03 R75)
  yieldedAt : Nat         -- level of the episode whose GUARANTEE_YIELDED record is written (16 R452)
  deriving DecidableEq, Repr

/-- An access held by the control path while its domain is off for the activity state (17 R482). -/
structure HeldAccess where
  port : Port
  window : Bool           -- true: control window; false: memory window
  off : Nat
  write : Bool
  value : List Byte
  len : Nat
  tag : Nat
  poison : Nat            -- poisoned 4-byte words of `value` (15 R411)
  deriving DecidableEq, Repr

/-- Activity states (17 R477–R482). -/
structure Act where
  exiting : Bool          -- on the way back to A0
  since : Nat             -- TM_TS of the wake cause that started it (R478, 16 R452)
  held : List HeldAccess  -- oldest first, at most 64
  deriving DecidableEq, Repr

/-- Fused anchors (18 R497, R505, R508). -/
structure Fuses where
  secret : BitVec 256                -- DS, byte 0 in bits 7:0
  roots : Vector (BitVec 256) 4      -- root key slots 0–3, byte 0 of a digest in bits 7:0
  revoked : BitVec 4                 -- revocation fuses
  floors : Vector (Option W32) 8     -- floor slots 0–7; none where a slot is not written
  fieldCode : Byte                   -- lifecycle code FIELD
  returnCode : Byte                  -- lifecycle code RETURN
  bootCount : Nat         -- cold boots since manufacture
  cert : List Byte        -- X.509 certificate of the FIELD key
  deriving DecidableEq, Repr

/-- The test port and debug unlock (18 R510–R514). -/
structure Dbg where
  ir : Nat                -- TAP instruction register
  boundary : List Bool    -- boundary register, as last sampled or preloaded
  challenge : Nat         -- the challenge in force, 128 bits
  grant : Nat             -- GRANT of the unlock in force; 0 none
  winData : Nat           -- data captured by the last DBG_WINDOW read
  winDone : Bool          -- DONE of the last DBG_WINDOW access
  deriving DecidableEq, Repr

/-! ### Transactions, queues, events, contexts (03, 15) -/

/-- Register transactions beyond their registers (03 R74–R79). -/
structure Txn where
  staged : SMap (List (Nat × W32))  -- page index → staged (window offset, value), newest first
  singles : List (Nat × W32 × Port) -- one-register writes waiting for their safe point, oldest first (R76)
  members : List Nat                -- pages of the open device-wide transaction (R79)
  deriving DecidableEq, Repr

/-- One event ring beyond its registers (15 R437 R438). -/
structure Ring where
  posted : List EvRec     -- records whose cause has occurred, oldest first
  waiting : List EvRec    -- records held while the ring is blocked, at most 64
  dropped : Nat           -- records dropped since the last RING_OVERFLOW
  irqDue : Bool           -- records were written since the last interrupt
  sentAt : Option Nat     -- TM_TS at which its last interrupt was sent (R438)
  deriving DecidableEq, Repr

/-- A context record (15 R415) with its tokens (R426) and fence (R417). VALID and FENCED are in SC_CTX_VALID and
SC_CTX_FENCED. -/
structure Ctx where
  psidy : Bool
  prio : Nat
  ring : Nat
  epoch : Nat
  ttPa : Nat
  sporeVa : Nat
  sporeCnt : Nat
  amaxCnt : Nat
  amaxVa : Nat
  tokens : SMap (Nat × Bool)   -- value and branch bit
  deriving DecidableEq, Repr

/-- Where a fetched command stands (15 R421, 16 R446–R448). -/
inductive CmdStage where
  | fetched      -- fetched, SEQ checked, not dispatched
  | held         -- picked, waiting for its engines (16 R448)
  | dispatched   -- DISP_SEQ taken, its class row not yet run
  | running      -- its class row has run
  | finished     -- its status is known, its record not yet written
  deriving DecidableEq, Repr

/-- A command from its fetch to its completion record (15 R420–R435). -/
structure Cmd where
  queue : Nat
  count : Nat             -- descriptor number c (R418)
  seq : Nat
  desc : List Byte        -- 64 bytes (R424)
  ctx : Nat
  stage : CmdStage
  status : Nat
  detail : Nat
  branch : Bool
  ran : Bool
  nan : Nat
  ovf : Nat
  zeroed : Nat
  wrapped : Nat
  epoch : Nat             -- context EPOCH at dispatch
  mask : Nat              -- clusters named
  since : Nat             -- TM_TS at which it became its queue's oldest command, from its fetch on (15 R430)
  endAt : Nat             -- TM_TS of its dispatch; of a running WAIT the TM_TS that ends it (15 R430)
  order : Nat             -- dispatch order number (DRAIN, R429)
  heldAt : Nat            -- place among the held commands, from 1; 0 when not held (16 R448)
  wrote : List (Nat × Nat)  -- (PA, bytes) it has written: undefined after an abort (14 R371)
  sblk : List Byte        -- stream block read at its start (09 R243)
  image : List Byte       -- VE image read at its start (06 R146)
  deriving DecidableEq, Repr

/-- A queue's state beyond its SC queue page (15 R420, R422). -/
structure Queue where
  dispSeq : Nat
  doneCount : Nat         -- descriptor number of the next completion record
  deriving DecidableEq, Repr


/-! ### Memory (10) -/

/-- A fill of a failed row group (10 R277). -/
structure Fill where
  pc : Nat                -- pseudo-channel
  rg : Nat                -- row group index j
  spare : Nat             -- spare being filled; 4 before one is taken
  lost : Bool             -- fill of a lost region: writes poison (R279)
  pos : Nat               -- storage words copied
  written : List Nat      -- storage words (PA) written whole since a lost region's fill began (R279)
  deriving DecidableEq, Repr

/-- A lode beyond its registers (10 R268–R281). -/
structure Lode where
  fill : Option Fill
  queued : List Fill             -- in order; uncorrectable ones ahead (R278)
  used : SMap Nat                -- pseudo-channel → mask of spares in use or bad
  remap : List (Nat × Nat × Nat) -- (pseudo-channel, row group, spare) switched (R277)
  ceTimes : SMap (List Nat)      -- row group key → times of its corrected errors within 24 h
  retired : List Nat             -- row group indices whose region is retired (R280)
  scrubPos : Nat                 -- next storage word of the scrub (R274)
  catchup : Bool                 -- the scrub is catching up (R274)
  recals : Nat                   -- recalibrations done (R269)
  deriving DecidableEq, Repr

/-! ### Engines (05–09) -/

/-- An element on its way through a cluster: its stored encoding, its exact value with its scale or codebook applied (R82, R87,
R92, R95), poison, padding (R231), and the INT8 column sum that its leaf block brings (R96). -/
structure Elem where
  raw : Nat
  sc : Nat                -- its scale byte or codebook
  col : Nat               -- its column
  val : Fp
  pois : Bool
  pad : Bool
  colSum : Int            -- INT8 weights: the column sum of its leaf block (04 R96)
  leaf : Nat              -- its leaf block
  deriving DecidableEq, Repr

/-- A LOOP in progress (09 R230). -/
structure Frame where
  pc : Nat                -- index of the LOOP instruction
  i : Nat                 -- iteration
  row : Int               -- position that it restores
  col : Int
  zero : Bool             -- inside a zeroed iteration (R234)
  deriving DecidableEq, Repr

/-- A run of emitted coordinates (R230, R231). -/
structure Seg where
  first : Nat             -- sequence number of its first element on this cluster
  n : Nat
  row : Int
  col : Int
  drow : Int
  dcol : Int
  pad : Bool
  win : Nat               -- window of index entries, plus one; 0 without an INDIR loop (R235)
  deriving DecidableEq, Repr

/-- One stream entry of a cluster (09 R229–R248). -/
structure Entry where
  pc : Nat
  row : Int
  col : Int
  zero : Bool
  frames : List Frame     -- innermost first
  rounds : Nat            -- complete runs of the program (R254)
  indirs : Nat            -- iterations of the INDIR loop begun here
  segs : List Seg
  emitted : Nat
  fetched : Nat
  buf : SMap Elem         -- fetched and not consumed, by sequence number
  leaves : List (Nat × Nat × Nat) -- leaf blocks fetched: window, leaf, element (R232, R235)
  asked : List (Nat × Nat × Nat)  -- remote reads under way: peer, VA, bytes (R241)
  got : List (Nat × Nat × List Byte × List Bool) -- remote answers: peer, VA, bytes, poison
  deriving DecidableEq, Repr

/-- A block of a pure move that forms (04 R93, 09 R252): its leaf, its vector, and its elements so far: place in the vector, element
number, value. -/
structure MoveBlock where
  row : Int
  col : Int
  vec : Int
  els : List (Nat × Nat × Elem)
  deriving DecidableEq, Repr

/-- A stream engine (09 R253–R259). SE_STATE shows what it does. -/
structure Se where
  job : Option (Nat × Nat)      -- command: queue and descriptor number
  rank : Nat
  entries : SMap Entry
  hoist : List (List Elem)      -- weight rows that wait on the hoist chain, oldest first (R254)
  wrows : Nat                   -- weight rows taken
  outRows : Nat                 -- result rows written or stored
  blocks : List MoveBlock       -- MX blocks of a pure move that are not complete
  deriving DecidableEq, Repr

/-- A step group (05 R112): its output tile, its operands, and its place in the tile. -/
structure Grp where
  tile : Nat
  first : Bool
  last : Bool
  cols : List (List Elem)       -- column vectors, one per step
  rows : List (List Elem)       -- row vectors, one per step
  deriving DecidableEq, Repr

/-- An OPU (05 R110–R132). OP_STATE and OP_WSLOT show the rest. -/
structure Opu where
  job : Option (Nat × Nat)
  step : Nat                    -- next step, counted over the command
  half : Bool                   -- a BF16 or FP16 group has held the feeders for one cycle (R112)
  b2 : Option Grp
  mul : Option Grp
  add : Option Grp
  switch : Bool                 -- the filling tile is complete, its switch is due (R118)
  fill : Nat                    -- output tile being filled; even in ping, odd in pong
  cells : SMap W32              -- accumulator words: (tile mod 2) · 32,768 + 256m + n
  cellPois : List Nat
  loadTile : Nat                -- output tile whose initial value loads, or has loaded last (R119)
  loaded : Nat                  -- its initial rows that have arrived
  drains : List (Nat × Nat)     -- tiles to drain, oldest first, with rows accepted (R118)
  slots : SMap (List (List Elem)) -- weight rows by slot (R124)
  ords : SMap Nat               -- weight tile that a slot holds, counted over the command, plus one
  rowSum : SMap Int             -- INT8 row sums: (tile mod 2) · 128 + m (R246)
  colSum : SMap Int             -- INT8 column sums: (tile mod 2) · 256 + n (R129)
  colSeen : SMap (List Nat)     -- leaf blocks whose column sums are in colSum
  colIdx : SMap Nat             -- columns of the weight tensor plus one, 0 where only padding came: (tile mod 2) · 256 + n
  frozen : Nat                  -- drain-freeze run (R137)
  stalled : Bool                -- DRAIN_STALL raised in this run
  deriving DecidableEq, Repr

/-- Summary of results (06 R163). `sum` is the exact sum in units of 2^−149. -/
structure Summary where
  max : Option Fp
  min : Option Fp
  absMax : Option Fp
  sum : Int
  count : Nat
  nans : Nat
  infs : Nat
  flags : Nat
  deriving DecidableEq, Repr

/-- A result row that the output has not accepted (06 R159): result tile, row, values, the summary's share. -/
structure OutRow where
  tile : Nat                    -- tile of this VE's results, counted from 0 in the command
  row : Nat
  vals : List (W32 × Bool)      -- FP32 words, or BF16 values in packed use, and poison
  live : Nat                    -- columns that can be written: ROW_LEN, NCH and SEQ_LEN (R163)
  deriving DecidableEq, Repr

/-- A vector engine (06–08). VE_STATE and VE_TB show the rest. -/
structure Ve where
  job : Option (Nat × Nat)
  land0 : SMap Nat              -- rows landed of each IN0 tile
  land1 : SMap Nat              -- rows landed of each IN1 tile
  held : SMap (Nat × Nat)       -- landing buffer: stream and tile that it holds, by buffer
  release : List Nat            -- buffers whose last read is done (R143)
  words : SMap W32              -- tile buffer words: buffer · 32,768 + word
  pois : List Nat
  x : SMap W32                  -- X of each lane, keyed as the element's word in its tile
  xPois : List Nat
  tile : Nat                    -- tile that the lanes are at, counted over the command's IN0 tiles
  grp : Nat                     -- next group of it
  out : List OutRow
  sum : Summary
  finals : SMap W32             -- finalised statistics: 4 · row + k (07 R191 R192)
  finalised : Bool              -- the row block's finalisation is done
  run : SMap (List W32 × Bool)  -- scan prefix of each channel: (A, B) or value, and poison (08 R204)
  carry : Option (Nat × List (W32 × Bool)) -- carry that has arrived: segment number, one word per channel; [] is the identity
  wait : Nat                    -- input-wait run (R169)
  waited : Bool                 -- LAND_WAIT raised in this run
  image : List Byte             -- image in the program store and the constant registers (R138, R145)
  konstPois : List Nat          -- constant registers whose word is poisoned
  vecs : SMap (List (W32 × Bool)) -- vector store (R138): 2 · half is a row vector, 2 · half + 1 a column vector
  vecHalf : Nat                 -- half that took the last delivery
  vecIn : Bool                  -- the delivery of the work item under way is in the store
  deriving DecidableEq, Repr

/-- One write to a memory word that a COMBINE command writes (09 R236, R237): its place in global iteration order, its entry's COMBINE,
its first bit and width in the word, its value and poison. -/
structure WordWrite where
  order : Nat
  mode : Nat
  lo : Nat
  width : Nat
  w : Nat
  pois : Bool
  deriving DecidableEq, Repr

/-- A memory word of a command that combines: address, value and poison before the command, and the writes in order (R237). -/
structure WordLog where
  pa : Nat
  before : W32
  pois : Bool
  writes : List WordWrite
  deriving DecidableEq, Repr

/-- A kernel-class command that runs (09 R242–R254, 08 R208–R216). -/
structure Job where
  queue : Nat
  count : Nat
  clusters : List Nat
  psidy : Bool
  epoch : Nat                   -- step epoch at dispatch (R240, R365)
  expA : Int                    -- CUR_EXP of A_REC, W_REC and OUT_REC (R104)
  expW : Int
  expOut : Int
  rand : List Byte              -- spore entries of RAND_STREAM and CVT_STREAM at dispatch (R365, R367)
  cvt : List Byte
  colVec : List Byte            -- per-column scales and zero points of INT8 weights (04 R100)
  owners : SMap (List Byte)     -- owner-table entries read at dispatch: entry · 2^32 + block (R241)
  ordered : Bool                -- ordered mode (R238)
  tags : SMap Nat               -- order of the last write of each element (R236)
  cover : SMap Nat              -- nibbles of poisoned or lost words that the command has written (10 R273)
  words : List WordLog          -- words written by a command with COMBINE (R237)
  leaves : List Nat             -- leaf blocks that a pure move into INT8 has written (04 R98)
  rowsOut : SMap Nat            -- rows written of each result tile (R238)
  initial : List (W32 × Bool)   -- carry or state record read at dispatch (08 R215, R222)
  carries : SMap (Option (List (W32 × Bool))) -- carry into each segment by unit number (R212): not known, the identity [], or one word per channel
  final : SMap (Option (List (W32 × Bool)))   -- final carry of each channel block
  parts : List (Nat × Nat × List (W32 × Bool)) -- CARRY parts received: block, part, words (12 R334)
  granted : Nat                 -- CARRY messages granted by the successor
  sentParts : Nat               -- CARRY messages sent
  moved : Nat                   -- elements moved by a pure move (R252)
  summed : Bool                 -- SUMMARY_AND_GUARDS has run (06 R164)
  deriving DecidableEq, Repr

/-! ### Training step (13) -/

/-- A decision of the master (13 R353–R357). -/
structure Decision where
  epoch : Nat
  commit : Bool
  cause : Nat             -- CAUSE of R361
  dev : Nat               -- CAUSE_DEV of R361
  secure : Bool
  takeover : Bool
  host : Bool             -- HOST_VOTE
  ts : Nat                -- DECIDED_TS
  newGen : Nat            -- generation after adoption (R355)
  applied : Nat           -- APPLIED_TS, 0 until it is applied
  deriving DecidableEq, Repr

/-- A member's pithead state (13 R344–R358). GG_PIT holds STATE and LAST. -/
structure Pit where
  running : Option (Nat × Nat)    -- the PITHEAD command that runs: queue, descriptor number
  owed : Option Nat               -- epoch of the owed abort (R357)
  owedInfo : Option Decision      -- its decision, for the record
  dirty : List Nat                -- contexts that are not clean: a command erred since their last pithead (R350)
  voted : Option Bool             -- vote sent for this epoch: READY or NOT_READY (R350)
  hostVote : Bool                 -- the vote came from VOTE 0x02
  secureAsked : List Nat          -- contexts with a request carried to their next pithead (R351)
  late : Bool                     -- a command erred while a COMMIT waited: an error of the next step (R360)
  decision : Option Decision      -- received, not applied
  done : Option Decision          -- the gang decision applied last (R354)
  lost : Bool                     -- OUT came from GANG_LOST (R358)
  selfFault : Bool                -- this device voted NOT_READY on an error (R361)
  deriving DecidableEq, Repr

/-! ### Securing and restore (14) -/

/-- A section of a securing record, or of a restore (14 R388–R390). `data` is a captured payload; a BLOCK or RANGE section is
read from `va` while it streams. -/
structure Section where
  typ : Nat
  id : Nat
  blk : Nat
  va : Nat
  bytes : Nat
  data : List Byte
  digest : List Byte              -- 32 bytes, once it is hashed
  deriving DecidableEq, Repr

/-- A securing in progress (14 R386–R391). -/
structure Securing where
  ctx : Nat
  epoch : Nat                     -- E + 1
  seq : Nat
  gen : Nat
  ts : Nat
  host : Bool                     -- the HOST target is alive
  peer : Bool                     -- the PEER target is alive
  holder : Option Nat             -- the keep holder (R382)
  hostSlot : Nat
  peerSlot : Nat
  sections : List Section
  next : Nat                      -- next section to hash and send
  yielded : Bool                  -- its GUARANTEE_YIELDED is written
  deriving DecidableEq, Repr

/-- A RESTORE command that runs: its sections written and the digest it waits for (14 R393–R395). -/
structure Restoring where
  queue : Nat
  count : Nat
  sections : List Section         -- BLOCK and RANGE sections written, in order, each with the source's digest
  numbers : List Nat              -- their numbers in the record
  verified : Nat
  record : List Byte              -- the record being restored; empty for RSRC LIVE
  applied : Nat                   -- PARTS applied in full
  bytes : Nat                     -- payload bytes written
  deriving DecidableEq, Repr

/-! ### Links, bundles, gang (11, 15) -/

/-- One link: adits 0–17, Chaell ports 18 and 19 (11 R289–R293, 15 R406). -/
structure Link where
  rx : Nat                      -- DATA flits accepted since UP, modulo 4,096
  sinceAck : Nat                -- accepted since the last ACK
  oldest : Nat                  -- TM_TS of the oldest of these (R289)
  again : Bool                  -- a flit accepted before has come again: its ACK is due (R289)
  nakSent : Bool                -- discarding DATA until the replay arrives
  tx : Nat                      -- DATA flits sent since UP, absolute
  acked : Nat                   -- of these, acknowledged
  txTail : List Byte            -- bytes of the stream that no DATA flit carries yet
  buffer : List (List Byte)     -- replay buffer: contents of the DATA flits not acknowledged, oldest first (R290)
  txBytes : Nat                 -- bytes of the stream since UP
  unacked : List (Nat × Option Msg) -- messages not acknowledged: end byte in the stream, and the message
  replays : Nat                 -- replays of the oldest flit in a row
  bad : List Nat                -- times of the uncorrectable codewords within 1 ms (R293)
  part : List Byte              -- received stream bytes of a message not yet complete
  ident : Option (Nat × Nat × Nat)  -- last IDENT: ID, adit, stepping (R292)
  confirmed : Bool              -- the peer is known to be UP (R292)
  corrected : Nat               -- corrected codewords since the last unit of AD_FEC.CORR (R310)
  full : Nat                    -- retrain: 0 quick, 1 TRAIN, 2 ALIGN of the full retrain (R293)
  deriving DecidableEq, Repr

/-- One bundle (11 R295, R296). -/
structure Bundle where
  nextTx : Nat                  -- MSEQ of the next message sent
  nextRx : Nat                  -- MSEQ delivered next
  early : List Msg              -- received ahead of order
  queued : List Msg             -- waiting for an UP adit
  deriving DecidableEq, Repr

/-- A Chaell port's configuration block and transactions (15 R408–R410). -/
structure ChPort where
  ctrlBase : Nat
  memBase : Nat
  cfgCtl : Nat                  -- bit 0 ENABLE, bit 1 INTR_EN
  reads : List (Nat × Nat × Nat)-- device reads outstanding: tag, host address, length
  nextTag : Nat
  caps : Option (List Byte)     -- last CAPS received
  capsSame : Bool               -- two identical CAPS received (R407)
  intrHeld : List Nat           -- vectors held while INTR_EN is 0
  waiting : List ChTxn          -- transactions held while the port is in RECOVERY (R403)
  deriving DecidableEq, Repr

/-- A vote (13 R355). -/
structure Vote where
  dev : Nat
  ready : Bool
  secure : Bool
  host : Bool             -- HOST_VOTE
  epoch : Nat
  deriving DecidableEq, Repr

/-- What the master logs with its deputy before it sends it on (11 R305, 13 R353). -/
inductive LogItem where
  | declare (dev cause : Nat)
  | decide (d : Decision)
  deriving DecidableEq, Repr

/-- The gang beyond the GG page (11 R300–R311, R517; 13 R351–R354). -/
structure Gang where
  cur : Option Tables           -- working table of the adopted generation
  next : Option Tables          -- received with a decision, not yet adopted (R303)
  nextTimes : Nat × Nat         -- BARRIER and HEARTBEAT that came with them (R311)
  nextEpoch : Nat               -- EPOCH that they follow (13 R355)
  nextTaken : Bool              -- they are the master's taken copy (R303)
  taken : Option Tables         -- copy of PROPOSED
  tablePas : List (Nat × Nat)   -- physical pieces of the table region (R311)
  routePas : List (Nat × Nat)   -- physical pieces of the route table (R311)
  asked : List Nat              -- devices that have requested to join
  routeOut : List (Nat × Nat)   -- ROUTE_Q not answered: device, PART
  routeSent : Bool              -- queries of the taken copy were sent
  takenBad : Bool               -- a reserved field of the taken copy is not zero (rule 6)
  routeBad : Option Nat         -- first device that has no route or did not answer
  heard : List Nat              -- members heard within the heartbeat timeout (master)
  masterQuiet : Bool            -- nothing heard from the master for the heartbeat timeout
  takingOver : Bool             -- deputy: a takeover request is out
  acks : List Nat               -- devices that acknowledged it
  stopped : Bool                -- quorum lost: the gang decides nothing
  toLog : List LogItem          -- sent to the deputy, not acknowledged, oldest first
  logged : Option Decision      -- last decision logged here (deputy or master)
  loggedDone : Bool             -- its members' copy has come: it is taken or was applied (13 R353, R354)
  loggedDev : List Nat          -- deputy: declarations logged here and not yet applied (R305)
  votes : List Vote             -- master: votes counted for its epoch, and held for the next (13 R352)
  failedNow : List (Nat × Nat)  -- members declared failed since the last decision, with the CAUSE it will carry (13 R352)
  held : List Msg               -- messages of a newer generation (R301)
  counted : List Msg            -- of these, chunk messages that RED_BYTES_RX has counted (12 R342)
  heldGang : List (Nat × Nat × GangMsg) -- those of log 11: sender, MGEN, message (R301)
  barrier : Nat                 -- BARRIER of the generation's master
  heartbeat : Nat               -- HEARTBEAT of the generation's master
  left : Bool                   -- absent from the adopted table: leaves when the owed PITHEAD command has completed (R304)
  deriving DecidableEq, Repr


/-! ### Collectives (12) -/

/-- A DATA chunk ready to be sent (12 R317, R318). -/
structure ChunkOut where
  shard : Nat
  chunk : Nat
  contrib : Nat
  count : Nat
  data : List Byte
  pois : Nat               -- poisoned lines of the data
  rxHalf : Option Nat      -- half in whose buffer the received chunk stands; none for this device's own (R320, R322)
  deriving DecidableEq, Repr

/-- A COLLECTIVE bucket on this device, from its dispatch until its bucket ID is taken again (12 R312–R340). -/
structure Coll where
  queue : Nat
  count : Nat
  ctx : Nat
  tally : Nat              -- TALLY: bucket ID and generation
  group : Nat
  drift : List Nat
  isRing : Bool
  kind : Nat
  arith : Nat
  bx : Bool
  agreed : Nat
  policy : Nat
  op : Nat                 -- the OP byte
  accEvery : Nat
  window : Nat             -- W
  east : Nat               -- of these, reserved in the east half (R320)
  elems : Nat
  src : Nat
  dst : Nat
  acc : Nat
  result : Nat
  root : Nat
  pos : Nat                -- this device's drift position
  epoch : Nat
  round : Nat
  failed : List Nat        -- positions FAILED in this round
  had : List Nat           -- positions FAILED in the round whose data this device has (R340)
  absentMe : Bool
  selfNan : Bool
  exchanged : Bool
  sendQ : List ChunkOut    -- ready, waiting for grants
  sent : Nat               -- chunks sent to the successor this round
  granted : Nat            -- chunks the successor has granted
  rx : Nat                 -- chunks received this round
  freed : Nat              -- buffers freed this round
  told : Nat               -- frees reported in a GRANT
  delivered : Nat
  nan : Nat
  ovf : Nat
  infEnc : Nat             -- infinite values that it encoded: an overflow and a NaN each (R325)
  rescaled : Nat
  maxExp : Nat
  contrib : Nat            -- CONTRIB of this device's result
  stale : Nat
  closeSeen : Bool         -- CLOSE received, not forwarded
  closeSent : Bool
  complete : Bool          -- its command has its outcome here
  closedHere : Bool        -- closed, or CLOSED received
  waitVerdict : Bool       -- a declaration was applied, the verdict has not come (R336)
  restarted : Bool
  marker : Bool            -- an ABORT marker was sent or forwarded in this round
  doneAt : Nat             -- TM_TS of its completion here (R339)
  held : List (Nat × Msg)  -- GRANT and RESTART of a newer round, with the half that received each (R319, R343)
  deriving DecidableEq, Repr

/-- Wait reports gathered by the master for a tally (12 R337): (reporter, device waited on). -/
structure Reports where
  tally : Nat
  group : Nat
  got : List (Nat × Nat)
  deriving DecidableEq, Repr


/-- What the block drives out. -/
inductive Out where
  | i3cRead (words : List W32)                 -- words returned on I3C (03 R65)
  | ibi (mandatory data : Byte)                -- I3C in-band interrupt (02 R57)
  | regRead (port : Port) (off : Nat) (v : W32)-- a register read answered
  | chaell (port : Nat) (t : ChTxn)            -- a transaction sent on a Chaell port (15 R409)
  | flit (link : Nat) (bytes : List Byte)      -- a flit sent: adit 0–17, Chaell port 18–19 (11 R287)
  | message (adit : Nat) (m : Msg)              -- a fabric message handed to an adit (11 R295)
  | retrain (adit : Nat)                       -- the retrain signal to the peer (11 R293)
  | tdo (bits : Nat) (width : Nat)             -- bits captured for TDO (18 R510)
  deriving DecidableEq, Repr

/-! ### The whole block -/

/-- Everything but the queue of waiting commands. -/
structure Block where
  pwr : Pwr    -- pins and input (02)
  regs : SMap W32    -- every register, by window offset; an unlisted one holds its reset value (03 R67)
  latches : SMap Nat    -- captured upper halves, plus one, by offset of the _HI register (05 R136)
  arb : SMap Nat    -- round-robin pointers by arbiter (01 R25)
  txn : Txn    -- register transactions (03 R73–R79)
  queues : SMap Queue    -- submission queues (15 R420 R422)
  cmds : List Cmd    -- commands fetched and not yet recorded, in order of fetch
  dispatches : Nat    -- commands dispatched since cold boot: the model's numbering of DRAIN's order
  ctxs : SMap Ctx    -- contexts (15 R415 R426)
  rings : SMap Ring    -- event rings (15 R437 R438)
  mem : List Host.Cell    -- memory: (PA, byte), addresses strictly rising, no zero byte (10 R260)
  poison : List Nat    -- poisoned 4-byte words, by PA, strictly rising (04 R108)
  lodes : SMap Lode    -- lodes (10 R268–R281)
  sgCatchup : List Nat  -- slices whose scrub is catching up (10 R274)
  sgScrub : SMap Nat    -- next word of each slice's scrub (10 R274 R282)
  canary : SMap (SMap Nat)    -- canary counts: event kind → bucket number → events (14 R378)
  canaryLast : Nat    -- SCORE at the last request (14 R380)
  chaell : SMap ChPort    -- Chaell ports (15 R403–R411)
  links : SMap Link    -- links: adits 0–17, Chaell ports 18 and 19 (11 R289)
  bundles : SMap Bundle    -- bundles by peer ID (11 R295)
  inbox : List Msg    -- messages delivered by DATA flits and not yet handled, oldest first (11 R295)
  gang : Gang    -- the gang (11)
  lastGen : SMap Nat    -- tally table LAST_GEN by bucket ID (12 R315)
  colls : List Coll    -- collectives (12)
  reports : List Reports    -- wait reports gathered (12 R337)
  fw : Fw    -- firmware processors and images (16)
  fd : Fd    -- firedamp (17 R487–R489)
  act : Act    -- activity states (17 R477–R482)
  paceNext : Option Nat    -- pacing level waiting for the next multiple of 64 ACLK (17 R484)
  fuses : Fuses    -- fused anchors (18 R497)
  dbg : Dbg    -- test port (18 R510–R514)
  attNonce : List Byte    -- nonce read for the report being built (18 R506)
  out : List Out    -- what the block has driven out, newest first
  free : Nat    -- free values drawn so far: the model's own counter (log 2)
  pit : Pit    -- pithead state of the member (13 R344–R358)
  stepStreams : SMap Nat    -- sequential streams named this step → queue that named them, plus one (13 R367)
  jobs : List Job    -- kernel-class commands that run (09)
  ses : SMap Se    -- stream engines by cluster (09)
  opus : SMap Opu    -- OPUs (05)
  ves : SMap Ve    -- vector engines (06–08)
  lostCl : List Nat    -- clusters that have been OFF since they were last ON: their contents are lost (17 R474, 03 R68)
  securing : Option Securing    -- securing in progress (14 R386)
  secFailed : Bool    -- the last securing attempt failed and none has completed since (14 R381)
  keepWriter : SMap Nat    -- keep slots being written: slot → sender plus one (14 R391)
  ledger : SMap (List Byte)    -- ledger: header and section table of each keep slot (14 R382 R383)
  peerSlot : Nat    -- keep slot that this device writes next (14 R383)
  peerLate : Option (Nat × Nat) -- a PEER target awaited after HOST completed its securing: epoch and slot (14 R388)
  restoring : Option Restoring    -- RESTORE in progress (14 R393)
  restoreHeld : List Nat    -- contexts that a RESTORE left stopped (14 R393)
  hostDead : Bool    -- host accesses fail: no port was ACTIVE for 100 ms (15 R405)
  hostFail : List (Nat × Nat)    -- device reads of host memory that have failed, not yet met by their units: PA, bytes (15 R410)
  deriving DecidableEq, Repr

/-- The machine: the block and the queue of commands that wait, first in, first out. -/
structure State where
  blk : Block
  pending : List Instr
  deriving DecidableEq, Repr

/-- Pins at A4 (02 R40 R50 R52; the latches of log 3). -/
def Pwr.reset : Pwr where
  rail := .off
  pwrEn := false
  pwrGood := false
  modRstN := true
  rstWait := false
  refclk := true
  dip := false
  dipUs := 0
  ovIn := false
  droops := 0
  hardFence := false
  cold := true
  coolPins := 3
  addrPins := 15
  modAddr := 15
  dynAddr := none
  i3cOffset := 0
  unconfirmed := false
  bootFail := false

/-- The processors before any start; both banks as they were left (16 R459, log 5). -/
def Fw.reset : Fw where
  procs := []
  runMap := 0
  order := []
  stepping := none
  halted := false
  stepped := []
  failed := none
  waited := 0
  pwrWrites := []
  pwrPosts := []
  paused := false
  fd1Quiet := true
  active := Config.activeBank
  staged := Config.stagedBank
  store := []

/-- No firedamp cause and no reading. -/
def Fd.reset : Fd where
  die := []
  dieLevel := []
  hbm := []
  hbmLevel := []
  lengthCause := false
  heightCause := false
  fdnPin := false
  fdnCause := false
  fdnOnly := false
  pwrCause := false
  regCause := false
  powerW := 0
  fd3Latch := false
  fd3At := 0
  fd1Hold := false
  offDue := false
  yieldedAt := 0

/-- The fuses of this module (log 5). -/
def Fuses.reset : Fuses where
  secret := Config.deviceSecret
  roots := Config.rootSlots
  revoked := Config.revokedFuses
  floors := Config.floorSlots
  fieldCode := Config.fieldCode
  returnCode := Config.returnCode
  bootCount := Config.bootCount
  cert := Config.certificate

/-- TAP at reset (log 3). -/
def Dbg.reset : Dbg where
  ir := 0xFF
  boundary := []
  challenge := 0
  grant := 0
  winData := 0
  winDone := true

/-- A processor that runs and has no fire. -/
def Proc.fresh : Proc := ⟨false, false, 0, [], false⟩
/-- A queue before its first ENABLE. -/
def Queue.fresh : Queue := ⟨0, 0⟩
/-- A context that was never loaded. -/
def Ctx.fresh : Ctx := ⟨false, 0, 0, 0, 0, 0, 0, 0, 0, []⟩
/-- A ring with nothing waiting. -/
def Ring.fresh : Ring := ⟨[], [], 0, false, none⟩
/-- A lode with no failure. -/
def Lode.fresh : Lode := ⟨none, [], [], [], [], [], 0, false, 0⟩
/-- A link with no traffic. -/
def Link.fresh : Link := ⟨0, 0, 0, false, false, 0, 0, [], [], 0, [], 0, [], [], none, false, 0, 0⟩
/-- A bundle that has just formed. -/
def Bundle.fresh : Bundle := ⟨0, 0, [], []⟩
/-- A configuration block at reset (15 R408). -/
def ChPort.fresh : ChPort := ⟨0, 0, 0, [], 0, none, false, [], []⟩
/-- No gang. -/
def Gang.reset : Gang where
  cur := none
  next := none
  nextTimes := (0, 0)
  nextEpoch := 0
  nextTaken := false
  taken := none
  tablePas := []
  routePas := []
  asked := []
  routeOut := []
  routeSent := false
  takenBad := false
  routeBad := none
  heard := []
  masterQuiet := false
  takingOver := false
  acks := []
  stopped := false
  toLog := []
  logged := none
  loggedDone := false
  loggedDev := []
  votes := []
  failedNow := []
  held := []
  counted := []
  heldGang := []
  barrier := 0
  heartbeat := 0
  left := false

/-- A stream entry at the start of a command. -/
def Entry.fresh : Entry := ⟨0, 0, 0, false, [], 0, 0, [], 0, 0, [], [], [], []⟩
/-- An idle stream engine. -/
def Se.fresh : Se := ⟨none, 0, [], [], 0, 0, []⟩
/-- An idle OPU. -/
def Opu.fresh : Opu where
  job := none
  step := 0
  half := false
  b2 := none
  mul := none
  add := none
  switch := false
  fill := 0
  cells := []
  cellPois := []
  loadTile := 0
  loaded := 0
  drains := []
  slots := []
  ords := []
  rowSum := []
  colSum := []
  colSeen := []
  colIdx := []
  frozen := 0
  stalled := false
/-- An empty summary. -/
def Summary.fresh : Summary := ⟨none, none, none, 0, 0, 0, 0, 0⟩
/-- An idle VE with empty buffers. -/
def Ve.fresh : Ve where
  job := none
  land0 := []
  land1 := []
  held := []
  release := []
  words := []
  pois := []
  x := []
  xPois := []
  tile := 0
  grp := 0
  out := []
  sum := Summary.fresh
  finals := []
  finalised := false
  run := []
  carry := none
  wait := 0
  waited := false
  image := []
  konstPois := []
  vecs := []
  vecHalf := 0
  vecIn := false

/-- The block in A4 (17 R483, R491): PWR_EN low, every register at its reset value, nothing in memory. -/
def Block.reset : Block where
  pwr := Pwr.reset
  regs := []
  latches := []
  arb := []
  txn := ⟨[], [], []⟩
  queues := []
  cmds := []
  dispatches := 0
  ctxs := []
  rings := []
  mem := []
  poison := []
  lodes := []
  sgCatchup := []
  sgScrub := []
  canary := []
  canaryLast := 0
  chaell := []
  links := []
  bundles := []
  inbox := []
  gang := Gang.reset
  lastGen := []
  colls := []
  reports := []
  fw := Fw.reset
  fd := Fd.reset
  act := ⟨false, 0, []⟩
  paceNext := none
  fuses := Fuses.reset
  dbg := Dbg.reset
  attNonce := []
  out := []
  free := 0
  pit := ⟨none, none, none, [], none, false, [], false, none, none, false, false⟩
  stepStreams := []
  jobs := []
  ses := []
  opus := []
  ves := []
  lostCl := []
  securing := none
  secFailed := false
  keepWriter := []
  ledger := []
  peerSlot := 0
  peerLate := none
  restoring := none
  restoreHeld := []
  hostDead := false
  hostFail := []

/-- The machine right after reset: the block in A4 with an empty queue. Only PWR_EN starts the module (17 R483). -/
def State.reset : State where
  blk := Block.reset
  pending := []

end Sys2Proof.Machine
end

