-- ==== Sys2Proof/Machine/Ops.lean ====
section
/-!
DEFINITION. The named operations over registers, events, memory and translation that every meaning is built from.
-/

namespace Sys2Proof.Machine

/-! ### Registers (03 R67) -/

/-- The register at a window offset: its kept value, or its reset value where nothing was written. -/
def rd (b : Block) (off : Nat) : W32 :=
  match b.regs.find? (fun e => e.1 == off) with
  | some e => e.2
  | none => BitVec.ofNat 32 (resetValue off)

/-- Writes a register whole. A register at its reset value is not listed. -/
def wr (b : Block) (off : Nat) (v : W32) : Block :=
  { b with regs := mapSet (BitVec.ofNat 32 (resetValue off)) b.regs off v }

/-- A field's value. -/
def get (b : Block) (f : Fld) : Nat :=
  field (rd b f.off) f.msb f.lsb

/-- Replaces a field. -/
def put (f : Fld) (v : Nat) (b : Block) : Block :=
  wr b f.off (setField (rd b f.off) f.msb f.lsb v)

/-- Adds to a count that stops at its maximum. -/
def bump (f : Fld) (n : Nat) (b : Block) : Block :=
  put f (min (get b f + n) (2 ^ (f.msb + 1 - f.lsb) - 1)) b

/-- Adds to a count that wraps. -/
def incr (f : Fld) (n : Nat) (b : Block) : Block :=
  put f ((get b f + n) % 2 ^ (f.msb + 1 - f.lsb)) b

/-- True when the one-bit field is 1. -/
def isSet (b : Block) (f : Fld) : Bool :=
  get b f != 0

/-- A 64-bit register pair. -/
def rd64 (b : Block) (lo : Nat) : Nat :=
  (rd b lo).toNat + (rd b (lo + 4)).toNat * 2 ^ 32

/-- Writes a 64-bit register pair. -/
def wr64 (b : Block) (lo v : Nat) : Block :=
  wr (wr b lo (BitVec.ofNat 32 v)) (lo + 4) (BitVec.ofNat 32 (v >>> 32))

/-- Adds to a 64-bit counter (05 R136). -/
def count64 (lo n : Nat) (b : Block) : Block :=
  wr64 b lo ((rd64 b lo + n) % 2 ^ 64)

/-- Device timestamp TM_TS (15 R443). -/
def now (b : Block) : Nat :=
  rd64 b rTM_TS_LO

/-- Base of page number `p`. -/
def pageBase (p : Nat) : Nat := p * 4096

/-! ### Free values (log 2) -/

/-- Draws a free number. -/
def drawFree (b : Block) : Nat × Block :=
  (Config.freeNat b.free, { b with free := b.free + 1 })

/-! ### Round robin (01 R25) -/

/-- Arbiter numbers, one per arbiter that the spec names. -/
def arbQueues : Nat := 0
/-- Drain port `p` of cluster `c` (05 R120), requesters: its OPUs. -/
def arbDrain (c p : Nat) : Nat := 1 + 3 * c + p
/-- Fabric port of cluster `c`'s stream engine (09 R249). -/
def arbStream (c : Nat) : Nat := 200 + c
/-- Hoist-chain link out of cluster `c` (09 R253). -/
def arbLink (c : Nat) : Nat := 300 + c
/-- Reduction engine of half `h` (12 R322). -/
def arbRed (h : Nat) : Nat := 400 + h
/-- Port arbiter of page `p` (03 R72). -/
def arbPage (p : Nat) : Nat := 1000 + p

/-- R25: the requester granted, from the pointer on, among `n`. -/
def rrPick (ptr n : Nat) (req : Nat → Bool) : Option Nat :=
  ((List.range n).map (fun i => (ptr + i) % n)).find? req

/-- R25: grants a requester and moves the pointer one past it; no request leaves the pointer. -/
def rrGrant (a n : Nat) (req : Nat → Bool) (b : Block) : Option Nat × Block :=
  match rrPick (mapGet 0 b.arb a) n req with
  | none => (none, b)
  | some i => (some i, { b with arb := mapSet 0 b.arb a ((i + 1) % n) })

/-! ### Domains (17 R474) -/

/-- Domain of a page's block; SC, queue and GG pages are SCH's, the remaining pages the control path's (log 18). -/
def pageDomain (k : PageKind) (n : Nat) : Nat :=
  match k with
  | .cl => n
  | .se => n
  | .ve => n / 2
  | .op => n / 4
  | .ld => 32 + n
  | .ad => 44 + n
  | .ch => 62 + n
  | .sg => 64 + n
  | .red => 74 + n
  | .sec => 76
  | .sc | .queue | .gg => 78
  | .dev | .tx | .pw | .ev | .tm => 77

/-- Domain numbers of R435. -/
def domLode (n : Nat) : Nat := 32 + n
/-- Domain of an adit. -/
def domAdit (n : Nat) : Nat := 44 + n
/-- Domain of a Chaell port. -/
def domCh (n : Nat) : Nat := 62 + n
/-- Domain of a staging slice. -/
def domSg (n : Nat) : Nat := 64 + n
/-- FAB-E is half 0, FAB-W half 1. -/
def domFab (h : Nat) : Nat := 72 + h
/-- RED-E is half 0, RED-W half 1. -/
def domRed (h : Nat) : Nat := 74 + h
/-- Domains of the firmware processors. -/
def domSec : Nat := 76
def domPwr : Nat := 77
def domSch : Nat := 78
def domRcx : Nat := 79

/-- Field of PW_DOM that holds domain `d` (17 R495). -/
def fDom (d : Nat) : Fld :=
  ⟨rPW_DOM (d / 16), 2 * (d % 16) + 1, 2 * (d % 16)⟩

/-- State of a domain: 0 OFF, 1 RETAIN, 2 ON, 3 FAILED. -/
def dom (b : Block) (d : Nat) : Nat :=
  get b (fDom d)

/-- Sets a domain; a FAILED domain stays FAILED until cold boot (17 R474). -/
def setDom (d v : Nat) (b : Block) : Block :=
  if dom b d = 3 then b else put (fDom d) v b

/-- Sets every domain of a list. -/
def setDoms (ds : List Nat) (v : Nat) (b : Block) : Block :=
  ds.foldl (fun b d => setDom d v b) b

/-- True when the domain is ON. -/
def domOn (b : Block) (d : Nat) : Bool :=
  dom b d == 2

/-- Half of a cluster. -/
def halfOfCluster (c : Nat) : Nat := if c < 16 then 0 else 1

/-! ### Activity state, level (17) -/

/-- Current activity state. -/
def activity (b : Block) : Nat := get b fPW_ASTATE_STATE
/-- Firedamp level. -/
def fdLevel (b : Block) : Nat := get b fPW_FD_LEVEL
/-- True when boot is complete. -/
def ready (b : Block) : Bool := isSet b fDEV_BLK_STAT_READY

/-! ### Event records (15 R437–R441) -/

/-- The 32 bytes of a record (15 R439), with its PHASE. -/
def EvRec.bytes (r : EvRec) (phase : Bool) : List Byte :=
  leBytes 2 r.code ++ leBytes 1 (b2n phase) ++ leBytes 1 r.ctx ++ leBytes 2 r.source ++ leBytes 2 r.queue
    ++ leBytes 4 r.seq ++ leBytes 4 0 ++ leBytes 8 r.ts ++ leBytes 8 r.data

/-- Ring state. -/
def ring (b : Block) (n : Nat) : Ring := mapGet Ring.fresh b.rings n
/-- Replaces a ring's state. -/
def setRing (n : Nat) (r : Ring) (b : Block) : Block :=
  { b with rings := mapSet Ring.fresh b.rings n r }

/-- A record's cause occurs: it is posted to its ring in order (15 R437). -/
def postTo (n : Nat) (r : EvRec) (b : Block) : Block :=
  setRing n { ring b n with posted := (ring b n).posted ++ [r] } b

/-- Ring of a page's records: BLK_CTL.RING (15 R440). -/
def ringOfPage (b : Block) (page : Nat) : Nat :=
  get b (fBLK_CTL_RING (pageBase page))

/-- Posts a record of a page to its ring, with no queue and no context. -/
def post (code page data : Nat) (b : Block) : Block :=
  postTo (ringOfPage b page) ⟨code, 0xFF, page, 0xFFFF, 0, now b, data⟩ b

/-- Raises bits of BLK_EVT_RAW (03 R70): an enabled bit that changes from 0 to 1 posts one PAGE_EVENT. -/
def raise (page mask : Nat) (b : Block) : Block :=
  let base := pageBase page
  let raw := (rd b (rBLK_EVT_RAW base)).toNat
  let en := (rd b (rBLK_EVT_EN base)).toNat
  let rose := mask &&& (raw ^^^ (mask ||| raw))
  let b := wr b (rBLK_EVT_RAW base) (BitVec.ofNat 32 (raw ||| mask))
  if rose &&& en = 0 then b else post 0x0010 page (rose &&& en) b

/-- A discarded write (03 R69): WRITE_DISCARD, DISC_OFFSET and DISC_CAUSE of the page. -/
def discard (page off cause : Nat) (b : Block) : Block :=
  raise page 1 (put (fBLK_STAT_DISC_CAUSE (pageBase page)) cause (put (fBLK_STAT_DISC_OFFSET (pageBase page)) off b))

/-- Drives something out. -/
def emit (o : Out) (b : Block) : Block :=
  { b with out := o :: b.out }

/-! ### Management alerts (02 R57) -/

/-- The sideband pins are the device's own: they are high-impedance while PWR_GOOD is low (02 R46), and EXTEST, CLAMP or HIGHZ in the
TAP takes them from the device (18 R511). -/
def pinsDriven (b : Block) : Bool := b.pwr.pwrGood && !(b.dbg.ir == 0x03 || b.dbg.ir == 0x04 || b.dbg.ir == 0x05)

/-- Drives something out at a sideband pin. -/
def emitSideband (o : Out) (b : Block) : Block :=
  if pinsDriven b then emit o b else b

/-- Sets bits of PW_ALERT; any bit that changes from 0 to 1 raises an in-band interrupt (R57) where the pins are driven (R46). -/
def alert (mask : Nat) (b : Block) : Block :=
  let old := (rd b rPW_ALERT).toNat
  let new := old ||| mask
  if new = old then b
  else emitSideband (.ibi 0x01 (BitVec.ofNat 8 new)) (wr b rPW_ALERT (BitVec.ofNat 32 new))

/-- ALERT_N is driven low while any bit of PW_ALERT is 1 and the device drives its pins (R46, R57). -/
def alertNLow (b : Block) : Bool :=
  pinsDriven b && (rd b rPW_ALERT).toNat != 0

/-- The conditions of R57 that hold now, as PW_ALERT bits. -/
def alertConditions (b : Block) : Nat :=
  b2n b.pwr.ovIn
    ||| (b2n (!b.pwr.refclk) * 2)
    ||| (b2n (get b fPW_COOL_STRAP == 3 || b.pwr.unconfirmed || isSet b fPW_COOL_MISMATCH) * 4)
    ||| (b2n (isSet b fPW_COOL_MISMATCH) * 8)
    ||| (b2n (decide (1 ≤ fdLevel b)) * 16)
    ||| (b2n b.pwr.bootFail * 32)

/-! ### Canary counts (14 R378) -/

/-- The kinds of event the canary counts. -/
inductive CanaryKind where
  | ceMem | ceChip | ue | rowGroup | replay | codeword | retrain | down | droop | fd1 | fd2 | stack | nearMiss | fire
  deriving DecidableEq, Repr

/-- Key of a kind. -/
def CanaryKind.key : CanaryKind → Nat
  | .ceMem => 0
  | .ceChip => 1
  | .ue => 2
  | .rowGroup => 3
  | .replay => 4
  | .codeword => 5
  | .retrain => 6
  | .down => 7
  | .droop => 8
  | .fd1 => 9
  | .fd2 => 10
  | .stack => 11
  | .nearMiss => 12
  | .fire => 13

/-- Window of a kind in units of TM_TS (10 ns): 24 h, 10 min or 1 h (R378). -/
def CanaryKind.window : CanaryKind → Nat
  | .ue | .rowGroup => 8640000000000
  | .replay | .codeword | .retrain | .down => 60000000000
  | .ceMem | .ceChip | .droop | .fd1 | .fd2 | .stack | .nearMiss | .fire => 360000000000

/-- Number of the current bucket: a 64th of the window (R378). -/
def CanaryKind.bucket (k : CanaryKind) (t : Nat) : Nat :=
  t * 64 / k.window

/-- Counts `n` events of a kind (R378). -/
def canaryAdd (k : CanaryKind) (n : Nat) (b : Block) : Block :=
  let m := mapGet [] b.canary k.key
  let t := k.bucket (now b)
  let m := m.filter (fun e => decide (t < e.1 + 64))
  { b with canary := mapSet [] b.canary k.key (mapSet 0 m t (mapGet 0 m t + n)) }

/-- The count of a kind: its current bucket and the 63 before it (R378). -/
def canaryCount (k : CanaryKind) (b : Block) : Nat :=
  ((mapGet [] b.canary k.key).filter (fun e => decide (k.bucket (now b) < e.1 + 64))).foldl (fun a e => a + e.2) 0

/-- Sets a REPLACE bit; the first holding of its condition writes REPLACE_ADVISED (14 R376). -/
def replaceAdvise (n : Nat) (b : Block) : Block :=
  let m := get b fGG_CANARY_REPLACE
  if m.testBit n then b
  else
    let b := put fGG_CANARY_REPLACE (m ||| 2 ^ n) b
    raise 7 128 (post 0x0401 7 (get b fGG_CANARY_REPLACE) b)

/-! ### Guarantees (01 R28, 16 R452) -/

/-- Posts GUARANTEE_YIELDED with SOURCE a page. -/
def yieldGuarantee (page broken kept cause : Nat) (b : Block) : Block :=
  post 0x0011 page (broken + kept * 2 ^ 4 + cause * 2 ^ 8) b

/-! ### Physical memory (10 R260–R261, R282) -/

/-- What a device physical address names. -/
inductive Target where
  | hbm
  | staging (slice : Nat)
  | cluster (n : Nat)
  | host
  | unassigned
  deriving DecidableEq, Repr

/-- R260: the range of a PA. -/
def rangeOf (pa : Nat) : Target :=
  if pa < 0x8000000000 then .hbm
  else if pa < 0x8010000000 then .staging ((pa - 0x8000000000) / 0x2000000)
  else if 0x8100000000 ≤ pa ∧ pa < 0x8120000000 then
    if (pa - 0x8100000000) % 0x1000000 < 0xC00000 then .cluster ((pa - 0x8100000000) / 0x1000000) else .unassigned
  else if 0x800000000000 ≤ pa ∧ pa < 0x1000000000000 then .host
  else .unassigned

/-- True when any lode has failed or a fabric domain is down by failure: all HBM is lost (10 R270, 14 R377). -/
def hbmLost (b : Block) : Bool :=
  (List.range 12).any (fun l => isSet b (fBLK_STAT_FAILED (ldBase l))) || dom b (domFab 0) == 3 || dom b (domFab 1) == 3

/-- Lode of an HBM address (R266). -/
def lodeOf (pa : Nat) : Nat :=
  let g := pa / 4096
  let q := g / 12
  (g % 12 + (q >>> 10) + (q >>> 20)) % 12

/-- Lode-local byte address of an HBM address (R266). -/
def lodeLocal (pa : Nat) : Nat :=
  (pa / 4096 / 12) * 4096 + pa % 4096

/-- HBM address of a lode-local byte address (R266, R276). -/
def lodePa (l a : Nat) : Nat :=
  let q := a / 4096
  let rho := ((q >>> 10) + (q >>> 20)) % 12
  (12 * q + (l + 12 - rho) % 12) * 4096 + a % 4096

/-- Lode state. -/
def lode (b : Block) (l : Nat) : Lode := mapGet Lode.fresh b.lodes l
/-- Replaces a lode's state. -/
def setLode (l : Nat) (x : Lode) (b : Block) : Block :=
  { b with lodes := mapSet Lode.fresh b.lodes l x }

/-- Row group index of a lode-local address (R275). -/
def rowGroupOf (a : Nat) : Nat := a / 4096 / 64
/-- Pseudo-channel of a lode-local address: the 128-byte slice within its granule (R268). -/
def pseudoOf (a : Nat) : Nat := a % 4096 / 128
/-- First granule's PA of the region of row group `j` (R276). -/
def regionPa (l j : Nat) : Nat := lodePa l (j * 64 * 4096)

/-- Bytes of a slice that the device owns, from its base (R282). -/
def ownedBytes (b : Block) (sg : Nat) : Nat :=
  ((if sg = 4 then 1 else 0) + get b (fSG_PART_COLL sg) + get b (fSG_PART_SECURE sg)) * 0x100000

/-- R282: the PA lies in a device-owned area of staging. -/
def deviceOwned (b : Block) (pa : Nat) : Bool :=
  match rangeOf pa with
  | .staging sg => decide ((pa - 0x8000000000) % 0x2000000 < ownedBytes b sg)
  | _ => false

/-- R280: the PA lies in a retired region. -/
def regionRetired (b : Block) (pa : Nat) : Bool :=
  match rangeOf pa with
  | .hbm => (lode b (lodeOf pa)).retired.contains (rowGroupOf (lodeLocal pa))
  | _ => false

/-- The half whose fabric a target needs (01 R18); none where no single half serves it. -/
def targetReachable (b : Block) (pa : Nat) : Bool :=
  match rangeOf pa with
  | .hbm => !hbmLost b && !regionRetired b pa
  | .staging sg => !isSet b (fBLK_STAT_FAILED (sgBase sg)) && dom b (domSg sg) != 3 && dom b (domFab (sg / 4)) != 3
  | .cluster n =>
    !isSet b (fBLK_STAT_RETIRED (clBase n)) && !isSet b (fBLK_STAT_FAILED (clBase n))
      && (dom b n == 2 || dom b n == 1) && dom b (domFab (halfOfCluster n)) != 3
  | .host => !b.hostDead
  | .unassigned => false

/-- The device's read of a host address has timed out or has completed with a non-zero STATUS (15 R410): that read fails as an
unassigned address. -/
def readFails (b : Block) (pa : Nat) : Bool := b.hostFail.any (fun r => decide (r.1 ≤ pa ∧ pa < r.1 + r.2))

/-- The access that a failed read belongs to has met it: a later one reads anew (15 R410). -/
def meetFails (pa n : Nat) (b : Block) : Block :=
  { b with hostFail := b.hostFail.filter (fun r => !decide (r.1 < pa + n ∧ pa < r.1 + r.2)) }

/-- An address the device's own data paths and the host may reach (R260, R261, R270, R280, R282). -/
def reachable (b : Block) (pa : Nat) : Bool :=
  targetReachable b pa && !deviceOwned b pa

/-- A byte of memory; an unlisted byte reads zero (log 4). -/
def memByte (b : Block) (pa : Nat) : Byte :=
  mapGet 0 b.mem pa

/-- `n` bytes from a PA. -/
def memBytes (b : Block) (pa n : Nat) : List Byte :=
  (List.range n).map (fun i => memByte b (pa + i))

/-- A little-endian number of `n` bytes (00 R6). -/
def memNat (b : Block) (pa n : Nat) : Nat :=
  leNat (memBytes b pa n)

/-- Puts bytes into memory in canonical form. -/
def memPut : List Host.Cell → Nat → List Byte → List Host.Cell
  | m, _, [] => m
  | m, pa, v :: vs => memPut (mapSet 0 m pa v) (pa + 1) vs

/-- The canonical form of memory: addresses strictly rise and no byte is zero. -/
def memoryWf (m : List Host.Cell) : Bool :=
  mapWf 0 m

/-- True when the 4-byte word of a PA is poisoned (04 R108). -/
def poisoned (b : Block) (pa : Nat) : Bool :=
  b.poison.contains (pa / 4 * 4)

/-- True when any word of the range is poisoned. -/
def anyPoison (b : Block) (pa n : Nat) : Bool :=
  b.poison.any (fun w => decide (w < pa + n ∧ pa < w + 4))

/-- Marks or clears one 4-byte word. -/
def setPoison (b : Block) (w : Nat) (p : Bool) : Block :=
  { b with poison := if p then setInsert b.poison w else setErase b.poison w }

/-- Bytes of the unit that poison covers at a PA: an 8-byte storage word in HBM, a 4-byte word elsewhere (04 R108, 10 R272). -/
def poisonUnit (pa : Nat) : Nat :=
  match rangeOf pa with
  | .hbm => 8
  | _ => 4

/-- Updates the poison of one unit at `u` after a write of `[pa, pa + n)` whose poisoned bytes are `src`: a unit written whole
takes the written words' poison, one written in part keeps its own as well (10 R272, R273). -/
def poisonAfter (pa n : Nat) (src : Nat → Bool) (u unit : Nat) (b : Block) : Block :=
  let lo := max pa u
  let hi := min (pa + n) (u + unit)
  let incoming := (List.range (hi - lo)).any (fun i => src (lo + i - pa))
  let whole := decide (lo = u ∧ hi = u + unit)
  let old := (List.range (unit / 4)).any (fun i => b.poison.contains (u + 4 * i))
  let p := incoming || (!whole && old)
  (List.range (unit / 4)).foldl (fun b i => setPoison b (u + 4 * i) p) b

/-- FILLING and QUEUED follow the lode's fills (R284). -/
def fillStat (l : Nat) (b : Block) : Block :=
  let x := lode b l
  put (fLD_BLK_STAT_FILLING l) (b2n x.fill.isSome) (put (fLD_BLK_STAT_QUEUED l) (min 15 x.queued.length) b)

/-- The running fill of the lost region that storage word `w` lies in. -/
def lostFill (b : Block) (w : Nat) : Option Fill :=
  let a := lodeLocal w
  if rangeOf w == .hbm then
    (lode b (lodeOf w)).fill.filter (fun f => f.lost && f.pc == pseudoOf a && f.rg == rowGroupOf a)
  else none

/-- A storage word written whole while the fill of its lost region runs: the write goes to the spare as well (R277, R279, log 136). -/
def fillWord (b : Block) (w : Nat) : Block :=
  match lostFill b w with
  | some f =>
    setLode (lodeOf w) { lode b (lodeOf w) with fill := some { f with written := setInsert f.written w } } b
  | none => b

/-- Some lost region is being filled. -/
def anyLostFill (b : Block) : Bool := b.lodes.any (fun e => e.2.fill.any (fun f => f.lost))

/-- The storage words that a write of `n` bytes covers whole, shown to the fills of lost regions. -/
def fillWrote (pa n : Nat) (b : Block) : Block :=
  if rangeOf pa == .hbm && anyLostFill b then
    (List.range ((pa + n) / 8 - (pa + 7) / 8)).foldl (fun b i => fillWord b (8 * ((pa + 7) / 8 + i))) b
  else b

/-- Writes bytes at a PA, `src i` saying whether byte `i` comes from a poisoned word. -/
def memWriteP (pa : Nat) (bs : List Byte) (src : Nat → Bool) (b : Block) : Block :=
  let n := bs.length
  let unit := poisonUnit pa
  let first := pa / unit
  let last := (pa + n + unit - 1) / unit
  let b := fillWrote pa n { b with mem := memPut b.mem pa bs }
  (List.range (last - first)).foldl (fun b i => poisonAfter pa n src ((first + i) * unit) unit b) b

/-- Writes bytes that carry no poison. -/
def memWrite (pa : Nat) (bs : List Byte) (b : Block) : Block :=
  memWriteP pa bs (fun _ => false) b

/-- A range of memory becomes undefined: every byte is a free value (14 R371, log 2). -/
def memUndefine (pa n : Nat) (b : Block) : Block :=
  let p := drawFree b
  memWrite pa (leBytes n p.1) p.2

/-- Zeroes every byte of `[lo, hi)` and clears its poison. -/
def memZero (lo hi : Nat) (b : Block) : Block :=
  { b with
    mem := b.mem.filter (fun e => decide (e.1 < lo ∨ hi ≤ e.1))
    poison := b.poison.filter (fun w => decide (w < lo ∨ hi ≤ w)) }

/-- SRAM of cluster `c`: base and size (R260). -/
def clusterSram (c : Nat) : Nat := 0x8100000000 + c * 0x1000000

/-! ### Error correction (04 R106–R108, 10 R271–R272) -/

/-- How a stored word with flipped bits reads. -/
inductive Ecc where
  | clean               -- nothing seen
  | corrected           -- one bit corrected, data right
  | uncorrectable       -- a new uncorrectable error
  | storedPoison        -- syndrome 0x7F
  | wrong (bits : List Nat) -- leaves with these data bits wrong; corrected or unseen
  | wrongCounted (bits : List Nat)
  deriving DecidableEq, Repr

/-- The `n`-bit columns of a weight. -/
def columnsOfWeight (n weight : Nat) : List Nat :=
  (List.range (2 ^ n)).filter (fun v => decide (((List.range n).filter (fun i => v.testBit i)).length = weight))

/-- Columns by rising key of the code (log 7). -/
def orderColumns (width : Nat) (cs : List Nat) : List Nat :=
  cs.foldl (fun l c =>
    let before := fun d => decide (Config.columnKey width d ≤ Config.columnKey width c)
    l.takeWhile before ++ [c] ++ l.dropWhile before) []

/-- The columns of a code, data bits first (04 R106: 32 of weight 3 and 7 of weight 1; 10 R271: the 56 of weight 3, 8 of weight 5
and 8 of weight 1). -/
def hsiaoColumns (width : Nat) : List Nat :=
  if width = 39 then (orderColumns 39 (columnsOfWeight 7 3)).take 32 ++ columnsOfWeight 7 1
  else orderColumns 72 (columnsOfWeight 8 3) ++ (orderColumns 72 (columnsOfWeight 8 5)).take 8 ++ columnsOfWeight 8 1

/-- An error judged by its syndrome alone (R107, R108, 10 R272). -/
def judgeSyndrome (width : Nat) (isPoison : Bool) (f : List Nat) : Ecc :=
  let cols := hsiaoColumns width
  let data := if width = 39 then 32 else 64
  let wrong := f.filter (fun i => decide (i < data))
  let s := f.foldl (fun a i => a ^^^ cols.getD i 0) (if isPoison then 0x7F else 0)
  if s = 0 then .wrong wrong
  else if s = 0x7F then .storedPoison
  else match cols.idxOf? s with
    | none => .uncorrectable
    | some k => .wrongCounted (wrong ++ (if k < data then [k] else []))

/-- Judges the flipped bits of a word of `width` bits (39 or 72), stored as poison or not: up to two errors as every Hsiao code
of the spec's weights judges them, more by the syndrome. -/
def judge (width : Nat) (isPoison : Bool) (flips : List Nat) : Ecc :=
  match isPoison, flips.filter (fun i => decide (i < width)) with
  | true, [] => .storedPoison
  | false, [] => .clean
  | true, [_] => .uncorrectable
  | false, [_] => .corrected
  | false, [_, _] => .uncorrectable
  | p, f => judgeSyndrome width p f

/-- Flips the named bits of a number. -/
def flipBits (w : Nat) (bits : List Nat) : Nat :=
  bits.foldl (fun w i => w ^^^ 2 ^ i) w

/-- What the check of a 32-bit on-chip word gives as it is read (R107): its bits, its poison, and whether a corrected or a new
uncorrectable error is counted. -/
structure Checked where
  w : W32
  pois : Bool
  ce : Bool
  ue : Bool
  deriving DecidableEq, Repr

/-- The check of a word with flipped bits (R107, R108). -/
def readUpset (w : W32) (pois : Bool) (bits : List Nat) : Checked :=
  match judge 39 pois bits with
  | .clean => ⟨w, false, false, false⟩
  | .corrected => ⟨w, false, true, false⟩
  | .uncorrectable => ⟨w, true, false, true⟩
  | .storedPoison => ⟨w, true, false, false⟩
  | .wrong fs => ⟨BitVec.ofNat 32 (flipBits w.toNat fs), false, false, false⟩
  | .wrongCounted fs => ⟨BitVec.ofNat 32 (flipBits w.toNat fs), false, true, false⟩

/-- A new uncorrectable error on the chip feeds the canary (14 R378). -/
def chipUe (ue : Bool) (b : Block) : Block := if ue then canaryAdd .ue 1 b else b

/-- Page index of slice `s`. -/
def sgPage (s : Nat) : Nat := sgBase s / 4096
/-- Counts a staging error (10 R282, R285). -/
def sgCe (s : Nat) (b : Block) : Block := canaryAdd .ceMem 1 (raise (sgPage s) 16 (bump (fSG_ECC_CE s) 1 b))
/-- A new uncorrectable word of staging is written back poisoned (10 R282). -/
def sgUe (s pa : Nat) (b : Block) : Block :=
  canaryAdd .ue 1 (raise (sgPage s) 32 (bump (fSG_ECC_UE s) 1 (setPoison b pa true)))

/-- The check of a word of staging or of a cluster's SRAM as it is read (R106, R107, 10 R282): stores 3 to 10 are SG0 to SG7, 11 to 42
the SRAM of CL00 to CL31, `word` the 32-bit word in it. A cluster SRAM word feeds the canary and no block counter (log 133). -/
def sramUpset (b : Block) (u : Upset) : Block :=
  let check := fun (pa : Nat) => readUpset (BitVec.ofNat 32 (memNat b pa 4)) (poisoned b pa) u.bits
  let keep := fun (pa : Nat) (r : Checked) => memWriteP pa (leBytes 4 r.w.toNat) (fun _ => r.pois) b
  if u.store < 3 then b
  else if u.store < 11 then
    let s := u.store - 3
    let pa := 0x8000000000 + s * 0x2000000 + 4 * u.word
    if 0x800000 ≤ u.word ∨ !targetReachable b pa ∨ !domOn b (domSg s) then b
    else
      let r := check pa
      let b := keep pa r
      if r.ue then sgUe s pa b else if r.ce then sgCe s b else b
  else if u.store < 43 then
    let pa := clusterSram (u.store - 11) + 4 * u.word
    if 0x300000 ≤ u.word ∨ !targetReachable b pa ∨ dom b (u.store - 11) ≠ 2 then b
    else
      let r := check pa
      let b := chipUe r.ue (keep pa r)
      if r.ce then canaryAdd .ceChip 1 b else b
  else b

/-! ### Contexts and translation (15 R415, 10 R262–R265) -/

/-- A context. -/
def ctx (b : Block) (c : Nat) : Ctx := mapGet Ctx.fresh b.ctxs c
/-- Replaces a context. -/
def setCtx (c : Nat) (x : Ctx) (b : Block) : Block :=
  { b with ctxs := mapSet Ctx.fresh b.ctxs c x }

/-- Bit of a 64-bit register pair for context `c`. -/
def pairBit (lo c : Nat) : Fld := ⟨lo + 4 * (c / 32), c % 32, c % 32⟩
/-- VALID of a context. -/
def ctxValid (b : Block) (c : Nat) : Bool := isSet b (pairBit rSC_CTX_VALID_LO c)
/-- Fence of a context. -/
def ctxFenced (b : Block) (c : Nat) : Bool := isSet b (pairBit rSC_CTX_FENCED_LO c)

/-- Outcome of a translation. -/
inductive Xlat where
  | ok (pa : Nat)
  | fault
  | poison
  deriving DecidableEq, Repr

/-- What a table entry says at a level (R263, R264). -/
inductive Tte where
  | invalid
  | table (pa : Nat)
  | page (pa : Nat) (rdOk wrOk : Bool)
  deriving DecidableEq, Repr

/-- Decodes an entry at a level (R262, R263): LEAF must be 0 at level 0 and 1 at level 2, reserved fields zero, ADDR
aligned to its page. RD and WR belong to a leaf; a table entry with one of them set is invalid (log 178). -/
def decodeTte (level w : Nat) : Tte :=
  let v := w % 2 == 1
  let leaf := (w / 2) % 2 == 1
  let addr := (w / 4096 % 2 ^ 36) * 4096
  let reserved := (w / 16) % 256 != 0 || w / 2 ^ 48 != 0
  let pageSize := if level = 1 then 2 ^ 30 else 2 ^ 21
  if !v || reserved then .invalid
  else if leaf then
    if level = 0 || addr % pageSize != 0 then .invalid
    else .page addr ((w / 4) % 2 == 1) ((w / 8) % 2 == 1)
  else if level = 2 || (w / 4) % 4 != 0 then .invalid
  else .table addr

/-- A table lies in HBM or in staging (R262), and the entry read from it at `pa` is outside device-owned areas, lost memory and
retired regions (R264, R280). -/
def tableAllowed (b : Block) (pa : Nat) : Bool :=
  (match rangeOf pa with
   | .hbm => true
   | .staging _ => true
   | _ => false) && reachable b pa

/-- A page wholly inside one assigned range (R264). -/
def pageAllowed (pa size : Nat) : Bool :=
  match rangeOf pa with
  | .hbm => decide (pa + size ≤ 0x8000000000)
  | .staging _ => decide (pa + size ≤ 0x8010000000)
  | .cluster n => decide (pa + size ≤ clusterSram n + 0xC00000)
  | .host => decide (pa + size ≤ 0x1000000000000)
  | .unassigned => false

/-- One entry of a table. -/
def readTte (b : Block) (pa level : Nat) : Option Tte :=
  if anyPoison b pa 8 then none else some (decodeTte level (memNat b pa 8))

/-- The end of a walk at a page. -/
def finishWalk (b : Block) (va size pa : Nat) (rdOk wrOk write : Bool) : Xlat :=
  let t := pa + va % size
  if !pageAllowed pa size then .fault
  else if (if write then !wrOk else !rdOk) then .fault
  else if !reachable b t || (!write && readFails b t) then .fault
  else .ok t

/-- Resolves a VA of a context (R262–R264). -/
def translate (b : Block) (c va : Nat) (write : Bool) : Xlat :=
  let root := (ctx b c).ttPa
  let e0 := root + (va / 2 ^ 39 % 8192) * 8
  if va / 2 ^ 52 != 0 then .fault
  else if root % 65536 != 0 || !tableAllowed b e0 then .fault
  else match readTte b e0 0 with
  | none => .poison
  | some (.table t1) =>
    let e1 := t1 + (va / 2 ^ 30 % 512) * 8
    if !tableAllowed b e1 then .fault
    else match readTte b e1 1 with
    | none => .poison
    | some (.page p r w) => finishWalk b va (2 ^ 30) p r w write
    | some (.table t2) =>
      let e2 := t2 + (va / 2 ^ 21 % 512) * 8
      if !tableAllowed b e2 then .fault
      else match readTte b e2 2 with
      | none => .poison
      | some (.page p r w) => finishWalk b va (2 ^ 21) p r w write
      | some _ => .fault
    | some .invalid => .fault
  | some _ => .fault

/-- The address that a context's tables give a VA, whatever can be reached now. -/
def leafPa (b : Block) (c va : Nat) : Option Nat :=
  match readTte b ((ctx b c).ttPa + (va / 2 ^ 39 % 8192) * 8) 0 with
  | some (.table t1) => match readTte b (t1 + (va / 2 ^ 30 % 512) * 8) 1 with
    | some (.page p _ _) => some (p + va % 2 ^ 30)
    | some (.table t2) => match readTte b (t2 + (va / 2 ^ 21 % 512) * 8) 2 with
      | some (.page p _ _) => some (p + va % 2 ^ 21)
      | _ => none
    | _ => none
  | _ => none

/-- The fabric domain that an address needs and that is not ON: of staging and of cluster SRAM the one of their half (01 R18). HBM that
cannot be reached faults as TRANSLATION (14 R377). -/
def fabricDown (b : Block) (pa : Nat) : Option Nat :=
  match rangeOf pa with
  | .staging s => if domOn b (domFab (s / 4)) then none else some (domFab (s / 4))
  | .cluster n => if domOn b (domFab (halfOfCluster n)) then none else some (domFab (halfOfCluster n))
  | .hbm | .host | .unassigned => none

/-- The missing fabric domain that one of some virtual ranges needs (01 R18, 14 R377). -/
def rangesDown (b : Block) (c : Nat) (rs : List (Nat × Nat)) : Option Nat :=
  if domOn b (domFab 0) && domOn b (domFab 1) then none
  else rs.findSome? (fun r => (List.range (r.2 / 2 ^ 21 + 2)).findSome? (fun i =>
    (leafPa b c (min (r.1 + i * 2 ^ 21) (r.1 + r.2 - 1))).bind (fabricDown b)))

/-- The physical pieces of a virtual range, cut at 4 KiB: retired regions and areas change at that grain. -/
def pieces (b : Block) (c : Nat) (write : Bool) : (fuel va n : Nat) → Except Xlat (List (Nat × Nat))
  | 0, _, _ => .ok []
  | f + 1, va, n =>
    if n = 0 then .ok []
    else
      let k := min n (4096 - va % 4096)
      match translate b c va write with
      | .ok pa => match pieces b c write f (va + k) (n - k) with
        | .ok l => .ok ((pa, k) :: l)
        | .error e => .error e
      | e => .error e

/-- Pieces of a range of `n` bytes. -/
def vaPieces (b : Block) (c va n : Nat) (write : Bool) : Except Xlat (List (Nat × Nat)) :=
  pieces b c write (n / 4096 + 2) va n

/-- What a virtual read returns: the bytes and, per byte, whether its word is poisoned. -/
structure VRead where
  bytes : List Byte
  pois : List Bool
  deriving DecidableEq, Repr

/-- True when some byte is poisoned. -/
def VRead.bad (r : VRead) : Bool := r.pois.any id

/-- Reads `n` bytes at a VA. -/
def vRead (b : Block) (c va n : Nat) : Except Xlat VRead :=
  match vaPieces b c va n false with
  | .error e => .error e
  | .ok l => .ok ⟨l.flatMap (fun p => memBytes b p.1 p.2),
                  l.flatMap (fun p => (List.range p.2).map (fun i => poisoned b (p.1 + i)))⟩

/-- The poison that a store carries to an address (15 R411): to host memory every line of its data with a poisoned byte is marked whole. -/
def storeMarks (pa : Nat) (ps : List Bool) (i : Nat) : Bool :=
  match rangeOf pa with
  | .host => ((ps.drop (i / 64 * 64)).take 64).any id
  | _ => ps.getD i false

/-- Writes the pieces of a virtual range in turn. -/
def writePieces : List (Nat × Nat) → List Byte → List Bool → Block → Block
  | [], _, _, b => b
  | (pa, k) :: t, bs, ps, b =>
    writePieces t (bs.drop k) (ps.drop k) (memWriteP pa (bs.take k) (storeMarks pa (ps.take k)) b)

/-- Writes bytes at a VA; a translation that fails writes nothing. -/
def vWrite (c va : Nat) (bs : List Byte) (ps : List Bool) (b : Block) : Except Xlat Block :=
  match vaPieces b c va bs.length true with
  | .error e => .error e
  | .ok l => .ok (writePieces l bs ps b)

/-! ### Commands (15 R420–R435) -/

/-- The command of a queue with a descriptor number (R418). -/
def findCmd (b : Block) (q n : Nat) : Option Cmd :=
  b.cmds.find? (fun c => c.queue == q && c.count == n)

/-- Replaces a command by queue and descriptor number. -/
def setCmd (c : Cmd) (b : Block) : Block :=
  { b with cmds := b.cmds.map (fun x => if x.queue == c.queue && x.count == c.count then c else x) }

/-- The command has dispatched and has no outcome yet. -/
def Cmd.active (c : Cmd) : Bool :=
  c.stage == .dispatched || c.stage == .running

/-- Finishes a command with a status, once: a cause after the first is not reported (14 R372). -/
def finishCmd (q n status detail : Nat) (b : Block) : Block :=
  match findCmd b q n with
  | some c => if c.stage == .finished then b else setCmd { c with stage := .finished, status := status, detail := detail } b
  | none => b

/-- Command class (15 R425). -/
def Cmd.cls (c : Cmd) : Nat := byteAt c.desc 0
/-- FLAGS (15 R424). -/
def Cmd.flags (c : Cmd) : Nat := byteAt c.desc 1

/-- Bits of a number below `n`, ascending. -/
def bitsOf (m n : Nat) : List Nat :=
  (List.range n).filter (fun i => m.testBit i)

/-- CL_MASK of a descriptor, by class (09 R242, 15 R427): zero for a class that names no cluster. -/
def clMask (desc : List Byte) : Nat :=
  match byteAt desc 0 with
  | 0x01 | 0x05 => fieldAt desc 0x28 4
  | 0x02 | 0x03 | 0x04 => fieldAt desc 0x18 4
  | _ => 0

/-- Queue state QSTATE: 0 DISABLED, 1 RUNNING, 2 STOPPED. -/
def qState (b : Block) (q : Nat) : Nat := get b (fSQ_STAT_STATE q)

/-- Context a queue is bound to. -/
def qCtx (b : Block) (q : Nat) : Nat := get b (fSQ_CFG_CTX q)

/-- Queues whose pages say something other than DISABLED: only these matter to a search. -/
def liveQueues (b : Block) : List Nat :=
  (b.regs.filter (fun e => decide (queueBase 0 ≤ e.1 ∧ e.1 < queueBase 512 ∧ e.1 % 4096 = 0x5C) && e.2.toNat % 4 != 0)).map
    (fun e => (e.1 - queueBase 0) / 4096)

/-- Stops a RUNNING queue (15 R419). -/
def stopQueue (q : Nat) (b : Block) : Block :=
  if qState b q = 1 then put (fSQ_STAT_STATE q) 2 b else b

/-- Fences a context (15 R417, 10 R279): stops its queues and writes CONTEXT_FENCED to the context's RING. -/
def fenceCtx (c page data : Nat) (b : Block) : Block :=
  let b := put (pairBit rSC_CTX_FENCED_LO c) 1 b
  let b := (liveQueues b).foldl (fun b q => if qCtx b q = c then stopQueue q b else b) b
  postTo (ctx b c).ring ⟨0x0012, c, page, 0xFFFF, 0, now b, data⟩ b

/-- Contexts that are VALID. -/
def validCtxs (b : Block) : List Nat :=
  (List.range 64).filter (ctxValid b)

end Sys2Proof.Machine
end

