-- ==== Sys2Proof/Machine/TxnOps.lean ====
section
/-!
DEFINITION. Rollbacks of register transactions (03 R74, R78, R79), shared by every event that ends one.
-/

namespace Sys2Proof.Machine

/-- TXN_STAT.STATE of a page: 0 IDLE, 1 OPEN, 2 PENDING. -/
def txnState (b : Block) (p : Nat) : Nat := get b (fTXN_STAT_STATE (pageBase p))

/-- True when the page is a member of the device-wide transaction. -/
def txnGroup (b : Block) (p : Nat) : Bool := isSet b (fTXN_STAT_GROUP (pageBase p))

/-- Ends one page's transaction with a RESULT: staged values dropped, the page IDLE, SEQ one higher (R73, R74). -/
def endTxn (p result : Nat) (b : Block) : Block :=
  let base := pageBase p
  let b := { b with txn := { b.txn with staged := mapErase b.txn.staged p } }
  let b := put (fTXN_STAT_STATE base) 0 b
  let b := put (fTXN_STAT_RESULT base) result b
  let b := put (fTXN_STAT_STAGED base) 0 b
  let b := put (fTXN_STAT_GROUP base) 0 b
  incr (fTXN_STAT_SEQ base) 1 b

/-- Rolls one page back: RESULT and TXN_ROLLBACK (R74). -/
def rollbackOne (result : Nat) (b : Block) (p : Nat) : Block :=
  raise p 4 (endTxn p result b)

/-- Ends the device-wide transaction on the TX page itself (R79). -/
def endTx (result failPage bit : Nat) (b : Block) : Block :=
  let b := put fTX_STAT_STATE 0 b
  let b := put fTX_STAT_RESULT result b
  let b := put fTX_STAT_FAIL_PAGE failPage b
  let b := incr fTX_STAT_SEQ 1 b
  raise 1 bit { b with txn := { b.txn with members := [] } }

/-- Rolls every member back with one RESULT (R79). -/
def rollbackGroup (result failPage : Nat) (b : Block) : Block :=
  endTx result failPage 4 (b.txn.members.foldl (rollbackOne result) b)

/-- Rolls the transaction of a page back, and with it its whole group (R74, R79). -/
def rollback (p result : Nat) (b : Block) : Block :=
  if txnState b p = 0 then b
  else if txnGroup b p then rollbackGroup result p b
  else rollbackOne result b p

/-- Domain of a page index. -/
def domainOfPage (p : Nat) : Nat :=
  match pageOf p with
  | some (k, n) => pageDomain k n
  | none => 77

/-- Every page whose transaction is open or pending. -/
def openPages (b : Block) : List Nat :=
  (b.regs.filter (fun e => e.1 % 4096 == 0x24 && e.2.toNat % 4 != 0)).map (fun e => e.1 / 4096)

/-- A domain goes off, fails or is retired: transactions on its pages roll back with ROLLBACK_DOMAIN, and one-register
writes that wait there are discarded with cause 0x4 (R78, log 19). -/
def domainRollback (d : Nat) (b : Block) : Block :=
  let b := (openPages b).foldl (fun b p => if domainOfPage p = d then rollback p 6 b else b) b
  let gone := b.txn.singles.filter (fun e => domainOfPage (e.1 / 4096) == d)
  let b := { b with txn := { b.txn with singles := b.txn.singles.filter (fun e => domainOfPage (e.1 / 4096) != d) } }
  gone.foldl (fun b e => discard (e.1 / 4096) (e.1 % 4096) 4 b) b

/-- No Chaell port ACTIVE: host-owned transactions roll back with ROLLBACK_PORT (R78). -/
def portRollback (b : Block) : Block :=
  let b := (openPages b).foldl (fun b p => if get b (fTXN_STAT_OWNER (pageBase p)) = 0 then rollback p 8 b else b) b
  if get b fTX_STAT_STATE ≠ 0 ∧ get b fTX_STAT_OWNER = 0 then rollbackGroup 8 0 b else b

end Sys2Proof.Machine
end

