-- ==== Sys2Proof/Machine/Abort.lean ====
section
/-!
DEFINITION. Task aborts (14 R371, R372), fences of all work and the loss of a cluster's contents.
-/

namespace Sys2Proof.Machine

/-- An OPU stops: pipeline, tiles and slots discarded, the next command starts from ping (05 R132). -/
def releaseOpu (b : Block) (o : Nat) : Block :=
  wr (wr { b with opus := mapErase b.opus o } (rOP_STATE o) 0) (rOP_WSLOT o) 0

/-- A VE stops: every buffer FREE (06 R143). -/
def releaseVe (b : Block) (v : Nat) : Block :=
  wr (wr { b with ves := mapErase b.ves v } (rVE_STATE v) 0) (rVE_TB v) 0

/-- Engines of a cluster leave their command: pipelines empty, tile buffers FREE, weight slots FREE (05 R132, 06 R143). -/
def releaseCluster (b : Block) (c : Nat) : Block :=
  let b := wr { b with ses := mapErase b.ses c } (rSE_STATE c) 0
  let b := (List.range 4).foldl (fun b i => releaseOpu b (4 * c + i)) b
  (List.range 2).foldl (fun b i => releaseVe b (2 * c + i)) b

/-- Memory that an aborted command wrote is undefined (14 R371). -/
def undefineWritten (c : Cmd) (b : Block) : Block :=
  c.wrote.foldl (fun b p => memUndefine p.1 p.2 b) b

/-- A RESTORE that aborts leaves its context stopped (14 R393). -/
def restoreAborted (c : Cmd) (b : Block) : Block :=
  if c.cls = 0x09 then { b with restoring := none, restoreHeld := setInsert b.restoreHeld c.ctx } else b

/-- Aborts one active command: its status, its engines and its memory (14 R371). -/
def abortCmd (status detail : Nat) (b : Block) (c : Cmd) : Block :=
  let b := restoreAborted c (undefineWritten c b)
  let b := (bitsOf c.mask 32).foldl releaseCluster b
  finishCmd c.queue c.count status detail b

/-- Aborts every active command that a test names. -/
def abortWhere (p : Cmd → Bool) (status detail : Nat) (b : Block) : Block :=
  (b.cmds.filter (fun c => c.active && p c)).foldl (abortCmd status detail) b

/-- Fences all work, as at FD3 (17 R488): every running task aborts with ABORTED_FENCE. -/
def fenceAll (b : Block) : Block :=
  abortWhere (fun _ => true) 0x20 0 b

/-- A cluster's SRAM, tile buffers and weight slots are lost (17 R478). Its pages keep what they last showed (03 R68). -/
def clusterLost (b : Block) (c : Nat) : Block :=
  let b := memZero (clusterSram c) (clusterSram c + 0xC00000) b
  { b with
    ses := mapErase b.ses c
    opus := (List.range 4).foldl (fun m i => mapErase m (4 * c + i)) b.opus
    ves := (List.range 2).foldl (fun m i => mapErase m (2 * c + i)) b.ves }

/-- Powers a cluster's domain off. Its pages keep what they show until it is ON again (03 R68). -/
def clusterOff (b : Block) (c : Nat) : Block :=
  let b := clusterLost b c
  domainRollback c (setDom c 0 { b with lostCl := setInsert b.lostCl c })

/-- Powers a cluster's domain on. One that has been OFF since it was last ON has lost its contents: its engines are idle and its
buffers FREE (17 R474, R489). -/
def clusterOn (b : Block) (c : Nat) : Block :=
  let b := if b.lostCl.contains c then releaseCluster { b with lostCl := setErase b.lostCl c } c else b
  setDom c 2 b

/-- All HBM is lost (10 R270, 14 R377): every context is fenced with a cause, every running task aborts with ABORTED_HBM. -/
def loseHbm (page cause detail : Nat) (b : Block) : Block :=
  let b := abortWhere (fun _ => true) 0x21 detail b
  (validCtxs b).foldl (fun b c => fenceCtx c page cause b) b

end Sys2Proof.Machine
end

