-- ==== Sys2Proof/Machine/PowerOps.lean ====
section
/-!
DEFINITION. Power, firedamp, retirement, resets and activity states, as operations shared by the rows of 02, 14, 16 and 17.
-/

namespace Sys2Proof.Machine

/-- Replaces the pins' state. -/
def setPwr (f : Pwr → Pwr) (b : Block) : Block := { b with pwr := f b.pwr }
/-- Replaces the firedamp state. -/
def setFd (f : Fd → Fd) (b : Block) : Block := { b with fd := f b.fd }
/-- Replaces the firmware state. -/
def setFw (f : Fw → Fw) (b : Block) : Block := { b with fw := f b.fw }

/-! ### Envelope (02 R53–R58) -/

/-- Envelope of a profile in watts (R53). -/
def profileW : Nat → Nat
  | 1 => 2600
  | 2 => 2300
  | _ => 1300

/-- The effective envelope E: the lower of the ACTIVE profile's envelope and LIMIT_W (R56). -/
def envelope (b : Block) : Nat :=
  min (profileW (get b fPW_COOL_ACTIVE)) (get b fPW_LIMIT_LIMIT_W)

/-- PW_COOL's derived fields (R55): CONFIRMED, MISMATCH and ACTIVE follow STRAP, LIVE and CONFIRM. -/
def coolDerived (w : W32) : W32 :=
  let strap := field w 1 0
  let live := field w 3 2
  let conf := decide (field w 5 4 = strap ∧ strap ≠ 3 ∧ live = strap)
  let w := setBit w 8 conf
  let w := setField w 11 10 (if conf then strap else 0)
  setBit w 12 (decide (live ≠ strap))

/-- DATA of COOL_INVALID, COOL_UNCONFIRMED and STRAP_CHANGED (15 R441): STRAP, LIVE and CONFIRM. -/
def coolData (b : Block) : Nat := (rd b rPW_COOL).toNat % 64

/-- Recomputes PW_COOL's derived fields. -/
def coolSettle (b : Block) : Block :=
  wr b rPW_COOL (coolDerived (rd b rPW_COOL))

/-- Latches the straps (R52). -/
def strapLatch (b : Block) : Block :=
  let b := put fPW_COOL_LIVE b.pwr.coolPins (put fPW_COOL_STRAP b.pwr.coolPins b)
  coolSettle (setPwr (fun p => { p with modAddr := p.addrPins }) b)

/-! ### Firedamp (17 R487–R490) -/

/-- The causes that hold, as (code, level called) in code order. -/
def fdCauses (b : Block) : List (Nat × Nat) :=
  let hottest := b.fd.dieLevel.foldl (fun a e => max a e.2) 0
  let stack := b.fd.hbmLevel.foldl (fun a e => max a e.2) 0
  [(1, hottest), (2, stack), (3, b2n b.fd.lengthCause), (4, 2 * b2n b.fd.heightCause), (5, 2 * b2n b.fd.fdnCause),
   (6, 2 * b2n b.fd.pwrCause), (7, 3 * b2n b.fd.regCause), (8, get b fPW_FD_CTL_FORCE)]

/-- The level that the present causes call for (R488). -/
def fdCalled (b : Block) : Nat :=
  (fdCauses b).foldl (fun a e => max a e.2) 0

/-- The lowest code among the causes of a level (R490). -/
def fdCauseOf (b : Block) (lvl : Nat) : Nat :=
  match (fdCauses b).find? (fun e => e.2 == lvl) with
  | some e => e.1
  | none => 0

/-- Sensor or lode that calls a level with the highest reading. -/
def fdSensor (levels readings : SMap Nat) (lvl : Nat) : Nat × Nat :=
  (levels.filter (fun e => e.2 == lvl)).foldl
    (fun a e => if a.2 < mapGet 0 readings e.1 then (e.1, mapGet 0 readings e.1) else a) (0, 0)

/-- DATA of a FIREDAMP record (R490). -/
def fdData (b : Block) (new old cause : Nat) : Nat :=
  let p := match cause with
    | 1 => fdSensor b.fd.dieLevel b.fd.die new
    | 2 => fdSensor b.fd.hbmLevel b.fd.hbm new
    | 3 => (0, b.fd.powerW)
    | 4 => (0, b.fd.powerW)
    | _ => (0, 0)
  new + old * 4 + cause * 2 ^ 4 + p.2 % 65536 * 2 ^ 16 + p.1 * 2 ^ 32

/-- Firedamp cap on the pacing level (R488). -/
def fdCap : Nat → Nat
  | 0 => 64
  | 1 => 32
  | _ => 8

/-- Clusters that are neither retired nor failed nor parked by the host. -/
def governedClusters (b : Block) : List Nat :=
  (List.range 32).filter (fun c => !isSet b (fBLK_STAT_RETIRED (clBase c)) && !isSet b (fBLK_STAT_FAILED (clBase c))
    && !isSet b (fCL_BLK_STAT_PARKED c))

/-- Of these, the clusters that the governor has not parked. -/
def runningClusters (b : Block) : List Nat :=
  (governedClusters b).filter (fun c => !isSet b (fCL_BLK_STAT_GOV_PARKED c))

/-- Clusters that are neither retired nor failed. -/
def usableClusters (b : Block) : List Nat :=
  (List.range 32).filter (fun c => !isSet b (fBLK_STAT_RETIRED (clBase c)) && !isSet b (fBLK_STAT_FAILED (clBase c)))

/-- Lodes go into or out of self-refresh (10 R268). -/
def lodesRefresh (on : Bool) (b : Block) : Block :=
  (List.range 12).foldl (fun b l => put (fLD_BLK_STAT_SELF_REFRESH l) (b2n on) (setDom (domLode l) (if on then 1 else 2) b)) b

/-- Transactions on the pages of domains that have left ON roll back (03 R78). -/
def domainsLeft (ds : List Nat) (b : Block) : Block :=
  (ds.filter (fun d => dom b d != 2)).foldl (fun b d => domainRollback d b) b

/-- What FD3 does within 100 µs (R488): clusters and reduction engines off, lodes to RETAIN. No cluster is in the governor's park
then. -/
def fd3Off (b : Block) : Block :=
  let b := (usableClusters b).foldl (fun b c => clusterOff (put (fCL_BLK_STAT_GOV_PARKED c) 0 b) c) b
  let b := setDoms [domRed 0, domRed 1] 0 b
  domainsLeft ([domRed 0, domRed 1] ++ (List.range 12).map domLode) (lodesRefresh true b)

/-- The pacing cap of a level reaches the pacing level at the next multiple of 64 ACLK (R484, R488). -/
def applyCap (b : Block) : Block :=
  let cap := fdCap (fdLevel b)
  let l := match b.paceNext with
    | some n => n
    | none => get b fPW_PACE_LEVEL
  { b with paceNext := some (min l cap) }

/-- A change of level: its register, its record, PAGE_EVENT bit FIREDAMP, the alert and the canary count (R488, R490). -/
def fdChange (new cause : Nat) (b : Block) : Block :=
  let old := fdLevel b
  let data := fdData b new old cause
  let b := put fPW_FD_LEVEL new b
  let b := put fPW_FD_CAUSE (if new = 0 then 0 else fdCauseOf b new) b
  let b := setFd (fun f => { f with yieldedAt := 0, fdnOnly := false }) b
  let b := raise 2 16 (post 0x0106 2 data b)
  let b := if 1 ≤ new then alert 16 b else b
  let b := if old < 1 && new = 1 then canaryAdd .fd1 1 b else b
  let b := if old < 2 && new = 2 then canaryAdd .fd2 1 b else b
  let b := setFw (fun f => { f with fd1Quiet := false, paused := f.paused || decide (1 ≤ new) }) b
  applyCap b

/-- FD3: every running task aborts and the level latches (R488, R489); the domains go off once the commits that wait have applied
(03 R75). -/
def fd3Trip (b : Block) : Block :=
  fenceAll (setFd (fun f => { f with fd3Latch := true, fd3At := now b, offDue := true }) b)

/-- A cause of FD2 or FD3 that is not FD_N seen low (02 R47). -/
def fdOwnCause (b : Block) : Bool :=
  (fdCauses b).any (fun e => e.1 != 5 && decide (2 ≤ e.2))

/-- A rise to the level that the causes call for, at once (R488). -/
def fdRise (b : Block) : Block :=
  let b := if fdOwnCause b then setFd (fun f => { f with fdnOnly := false }) b else b
  let called := fdCalled b
  if fdLevel b < called then
    let b := fdChange called (fdCauseOf b called) b
    if called = 3 then fd3Trip b else b
  else b

/-- The level to which the present causes and the FD1 hold let it fall (R489). -/
def fdFloor (b : Block) : Nat :=
  max (fdCalled b) (b2n b.fd.fd1Hold)

/-- A fall: the record's cause is 0x09 (R490). -/
def fdFall (new : Nat) (b : Block) : Block :=
  if new < fdLevel b then fdChange new 9 b else b

/-- Level that a reading calls for with the 5 °C hysteresis (R487): `t n` is the lowest reading of level `n`, and a level
already called stays until the reading has fallen 5 °C below that threshold. -/
def hysteresis (t : Nat → Nat) (drop : Nat → Nat) (old reading : Nat) : Nat :=
  let called := fun l => decide (t l ≤ reading) || (decide (l ≤ old) && decide (drop l < reading))
  if called 3 then 3 else if called 2 then 2 else if called 1 then 1 else 0

/-- Die thresholds: 100, 105 and 115 °C inclusive (R487). -/
def dieLevelOf (old reading : Nat) : Nat :=
  let t := fun | 1 => 100 | 2 => 105 | _ => 115
  hysteresis t (fun l => t l - 5) old reading

/-- Stack thresholds: above 95, 100 and 105 °C (R487). -/
def stackLevelOf (old reading : Nat) : Nat :=
  let t := fun | 1 => 95 | 2 => 100 | _ => 105
  hysteresis (fun l => t l + 1) (fun l => t l - 5) old reading

/-! ### Cluster retirement (14 R373–R375) -/

/-- Retires a cluster: the chain bypasses it, its domain powers off (FAILED after a fault, 17 R474), CLUSTERS falls and
CLUSTER_RETIRED is written (R374). -/
def retireCluster (c cause : Nat) (failed : Bool) (b : Block) : Block :=
  if isSet b (fBLK_STAT_RETIRED (clBase c)) then b
  else
    let base := clBase c
    let b := put (fBLK_STAT_RETIRED base) 1 (if failed then put (fBLK_STAT_FAILED base) 1 b else b)
    let b := if failed then put (fCL_CORE_STATE c) 3 b else b
    let b := clusterOff b c
    let b := if failed then put (fDom c) 3 b else b
    let b := put fDEV_BLK_CAP_CLUSTERS (get b fDEV_BLK_CAP_CLUSTERS - 1) b
    let b := put (fCL_RETIRE_CAUSE c) cause b
    let b := if failed then raise (0x10 + c) 8 b else b
    let b := post 0x0400 (0x10 + c) (c + cause * 2 ^ 8) b
    if get b fDEV_BLK_CAP_CLUSTERS ≤ 28 then replaceAdvise 3 b else b

/-- A cluster fails: every running task that uses it aborts with ABORTED_CLUSTER, then it is retired (R373, R374). -/
def failCluster (c cause : Nat) (b : Block) : Block :=
  retireCluster c cause true (abortWhere (fun m => m.mask.testBit c) 0x22 c b)

/-! ### Resets (17 R491–R493, 02 R37 R41) -/

/-- What survives every loss of state: pins, the input's dip and its timer (R36, log 157), fuses, banks, host memory and what was driven out.
The TAP restarts with the rest (R491). -/
def powerLost (rail : Rail) (b : Block) : Block :=
  { Block.reset with
    pwr := { Pwr.reset with
      rail := rail, pwrEn := b.pwr.pwrEn, modRstN := b.pwr.modRstN, refclk := b.pwr.refclk,
      dip := b.pwr.dip, dipUs := b.pwr.dipUs, coolPins := b.pwr.coolPins, addrPins := b.pwr.addrPins }
    fd := { Fd.reset with fdnPin := b.fd.fdnPin }
    mem := b.mem.filter (fun e => decide (0x800000000000 ≤ e.1))
    poison := b.poison.filter (fun w => decide (0x800000000000 ≤ w))
    fw := { Fw.reset with active := b.fw.active, staged := b.fw.staged }
    fuses := b.fuses
    out := b.out
    free := b.free }

/-- R37: all work fenced, PWR_GOOD low, every regulator off; the shutdown latches. A module that waits with its switch open goes
on waiting (R42). -/
def shutdown (b : Block) : Block :=
  match b.pwr.rail with
  | .charging | .up => powerLost .latchedOff (fenceAll b)
  | .waitInput | .off | .latchedOff => b

/-- Starts power-up: boot phase POWER (R41, R493). -/
def startPower (vinMv : Nat) (b : Block) : Block :=
  put fPW_INPUT_VIN_MV vinMv (setPwr (fun p => { p with rail := .charging, cold := true }) b)

/-- The operating range of the input (R35), in mV. -/
def inRange (vinMv : Nat) : Bool := decide (38000 ≤ vinMv ∧ vinMv ≤ 42000)

/-- Registers that a module reset keeps (R491): the TM counters, retirements and REPLACE, and the counts that their own
tables state from cold boot (log 20). -/
def keptFields : List Fld :=
  [fTM_TS_LO_V, fTM_TS_HI_V, fTM_ACLK_LO_V, fTM_ACLK_HI_V, fGG_CANARY_REPLACE, fDEV_BLK_CAP_CLUSTERS, fSEC_FW_STAGED_EPOCH,
   fSEC_BOOT_COUNT_COUNT, fSEC_BOOT_LIFECYCLE, fSEC_BOOT_LC_PENDING, fSEC_DBG_EVER, fSEC_DBG_REFUSED, fPW_FW_RESTARTS, fSC_FW_CNT_SCH_RESTARTS, fSC_FW_CNT_RCX_RESTARTS]
  ++ (List.range 32).flatMap (fun c => [fBLK_STAT_RETIRED (clBase c), fBLK_STAT_FAILED (clBase c), fCL_RETIRE_CAUSE c,
       fCL_CORE_NEAR_MISS c, fCL_CORE_FIRES c])

/-- Copies fields from one block to another. -/
def keepFields (old : Block) (fs : List Fld) (b : Block) : Block :=
  fs.foldl (fun b f => if get old f = get b f then b else put f (get old f) b) b

/-- Domains that a fault switched off stay FAILED until cold boot (R474), and a failed cluster's core with them (16 R471). -/
def keepFailed (old : Block) (b : Block) : Block :=
  (List.range 80).foldl (fun b d =>
    if dom old d = 3 then put (fDom d) 3 (if d < 32 then put (fCL_CORE_STATE d) (get old (fCL_CORE_STATE d)) b else b) else b) b

/-- Starts a module reset (R491, R492): work is fenced, the lodes hold the HBM, everything else but the kept state is lost,
and boot runs from phase CLOCKS. `cause` is RESET_CAUSE: 1 MOD_RST_N, 2 PW_RESET. -/
def moduleReset (cause : Nat) (wait : Bool) (b : Block) : Block :=
  let old := fenceAll b
  let n : Block := { Block.reset with
    pwr := { old.pwr with
      rstWait := wait, hardFence := false, cold := false, dynAddr := none, i3cOffset := 0, unconfirmed := false,
      bootFail := false }
    fd := { Fd.reset with fdnPin := old.fd.fdnPin }
    mem := old.mem.filter (fun e => decide (e.1 < 0x8000000000 ∨ 0x800000000000 ≤ e.1))
    poison := old.poison.filter (fun w => decide (w < 0x8000000000 ∨ 0x800000000000 ≤ w))
    lodes := old.lodes
    canary := old.canary
    fw := { Fw.reset with active := old.fw.active, staged := old.fw.staged }
    fuses := old.fuses
    dbg := { Dbg.reset with ir := old.dbg.ir, boundary := old.dbg.boundary }
    dispatches := 0
    out := old.out
    free := old.free }
  let n := keepFailed old (keepFields old keptFields n)
  let n := upTo 12 (fun b l => fillStat l b) (lodesRefresh true n)
  let n := put fPW_CLK_ROOT_LOCK (b2n old.pwr.refclk) n
  put fDEV_BLK_STAT_RESET_CAUSE cause (put fDEV_BLK_STAT_BOOT_PHASE 1 n)

/-- A boot phase or BOOT_FAIL (R493): BOOT_FAIL sets, ALERT_N asserts and the phase holds. -/
def bootFailed (b : Block) : Block :=
  alert 32 (put fDEV_BLK_STAT_BOOT_FAIL 1 (setPwr (fun p => { p with bootFail := true }) b))

/-! ### Activity states (17 R477–R482) -/

/-- Exit latency of an activity state in µs (R478). -/
def exitUs : Nat → Nat
  | 0 => 0
  | 1 => 2
  | 2 => 400
  | _ => 25000

/-- A3_BLOCK (R479, R495): gang role, adit enabled, CH0 not ACTIVE. -/
def a3Block (b : Block) : Nat :=
  b2n (get b fGG_STATE_ROLE != 0) + 2 * b2n ((List.range 18).any (fun a => isSet b (fAD_CTL_EN a)))
    + 4 * b2n (get b (fCH_LINK_STATE 0) != 2)

/-- The deepest allowed state (R479). -/
def allowedState (b : Block) : Nat :=
  let t := get b fPW_LATTOL_TOL_US
  if 25000 ≤ t ∧ a3Block b = 0 then 3
  else if 400 ≤ t then 2
  else if 2 ≤ t then 1
  else 0

/-- Tile buffers, weight slots and cluster SRAM of every powered cluster are lost (R478). -/
def clustersOff (b : Block) : Block :=
  (governedClusters b).foldl (fun b c => clusterOff (put (fCL_BLK_STAT_GOV_PARKED c) 0 b) c) b

/-- The clusters are powered again (R477, R489): one that the host has parked is in RETAIN (R486), its contents lost if it was OFF. -/
def clustersBack (b : Block) : Block :=
  let parked := (usableClusters b).filter (fun c => isSet b (fCL_BLK_STAT_PARKED c) && dom b c == 0)
  (runningClusters b).foldl clusterOn (setDoms parked 1 b)

/-- A Chaell port changes link state (15 R403): CH_LINK and CH_LINK_STATE. -/
def chState (p st : Nat) (b : Block) : Block :=
  let b := put (fCH_LINK_STATE p) st b
  post 0x0602 (0x140 + p) st b

/-- A port's link state and configuration block are lost; reads that are outstanding and interrupts that are held stay (15 R408, R409). -/
def portLost (p : Nat) (b : Block) : Block :=
  let x := mapGet ChPort.fresh b.chaell p
  { b with
    links := mapErase b.links (18 + p)
    chaell := mapSet ChPort.fresh b.chaell p { ChPort.fresh with reads := x.reads, nextTag := x.nextTag, intrHeld := x.intrHeld } }

/-- With no Chaell port in its link, the host's transactions roll back (03 R78). -/
def hostRollback (b : Block) : Block :=
  if (List.range 2).any (fun p => get b (fCH_LINK_STATE p) == 2 || get b (fCH_LINK_STATE p) == 3) then b else portRollback b

/-- Switches the domains of an activity state (R477); transactions on pages of blocks that leave ON roll back (03 R78). Retired,
failed and host-parked clusters keep their own state. -/
def enterActivity (st : Nat) (b : Block) : Block :=
  let b := put fPW_ASTATE_STATE st b
  let refresh := fun (b : Block) =>
    let b := clustersOff (put fPW_CLK_ACLK_OUT 0 b)
    domainsLeft ([74, 75] ++ (List.range 12).map domLode) (setDoms [74, 75] 0 (lodesRefresh true b))
  match st with
  | 0 => b
  | 1 => put fPW_CLK_ACLK_OUT 0 b
  | 2 => refresh b
  | _ =>
    let b := refresh b
    let b := setDoms ((List.range 8).map domSg) 1 b
    let b := setDoms [72, 73, 78, 79] 0 b
    let b := if dom b 63 = 2 then hostRollback (portLost 1 (chState 1 0 (setDom 63 0 b))) else b
    put fPW_CLK_FCLK_OUT 0 (domainsLeft ([63, 78] ++ (List.range 8).map domSg) b)

/-- Powers every domain of A0 (R477) but the clusters and reduction engines while FD3 holds them off (R490). CH1 starts its training with
CH_TRAINING_START. -/
def domainsOn (b : Block) : Block :=
  let b := setDoms [72, 73] 2 b
  let b := setDoms ((List.range 8).map domSg) 2 b
  let b := if dom b 63 = 3 then b else setDom 63 2 b
  let b := if fdLevel b = 3 then b else setDoms [74, 75] 2 (lodesRefresh false b)
  let b := if fdLevel b = 3 then b else clustersBack b
  let b := setDoms [78, 79] 2 b
  put fPW_CLK_ACLK_OUT 1 (put fPW_CLK_FCLK_OUT 1 b)

end Sys2Proof.Machine
end

