-- ==== Sys2Proof/Machine/Rs544.lean ====
section
/-!
DEFINITION. The RS(544,514) code of an adit (11 R286): the field, the generator polynomial, the parity of a codeword, its limit, and the lanes.
-/

namespace Sys2Proof.Machine

/-- Symbols of a codeword. -/
def rsLength : Nat := 544
/-- Data symbols of a codeword. -/
def rsData : Nat := 514
/-- Symbols in error that the code corrects: half its parity symbols (R286). -/
def rsLimit : Nat := (rsLength - rsData) / 2

/-- α times a symbol of GF(2¹⁰), over x¹⁰ + x³ + 1 (log 163). -/
def gfAlpha (x : Nat) : Nat := if x.testBit 9 then (2 * x) % 1024 ^^^ 9 else 2 * x % 1024
/-- The product of two symbols of GF(2¹⁰). -/
def gfMul10 (x y : Nat) : Nat :=
  ((List.range 10).foldl (fun (a : Nat × Nat) i => (if y.testBit i then a.1 ^^^ a.2 else a.1, gfAlpha a.2)) (0, x)).1
/-- α to a power. -/
def gfPower (n : Nat) : Nat := (List.range n).foldl (fun x _ => gfAlpha x) 1

/-- The generator polynomial, highest power first: the product of x − α^j for j from 0 to 29 (R286, log 163). -/
def rsGenerator : List Nat :=
  (List.range (rsLength - rsData)).foldl (fun g j =>
    List.zipWith (fun x y => x ^^^ y) (g ++ [0]) (0 :: g.map (gfMul10 (gfPower j)))) [1]

/-- The 30 parity symbols of 514 data symbols: the remainder by the generator (R286). -/
def rsParity (data : List Nat) : List Nat :=
  data.foldl (fun r d =>
    let f := d ^^^ r.headD 0
    List.zipWith (fun x y => x ^^^ y) (r.drop 1 ++ [0]) ((rsGenerator.drop 1).map (gfMul10 f))) (List.replicate (rsLength - rsData) 0)

/-- A codeword: the data, then the parity. -/
def rsCodeword (data : List Nat) : List Nat := data ++ rsParity data

/-- The lane that carries symbol `i` of a codeword (R286). -/
def symbolLane (i : Nat) : Nat := i % 8

/-- Symbols in which a received word differs from the codeword that was sent. -/
def symbolErrors (sent got : List Nat) : Nat := ((sent.zip got).filter (fun p => p.1 != p.2)).length

end Sys2Proof.Machine
end

