-- ==== Sys2Proof/Machine/FabricOps.lean ====
section
/-!
DEFINITION. Links, adits, bundles, routes and messages (11 R286–R299).
-/

namespace Sys2Proof.Machine

/-- CRC-16 of a flit body: polynomial 0x1021, initial value 0xFFFF, no final XOR (11 R287). -/
def crc16 (bs : List Byte) : Nat :=
  bs.foldl (fun c v =>
    (List.range 8).foldl (fun c _ => if c.testBit 15 then ((c <<< 1) ^^^ 0x1021) % 65536 else (c <<< 1) % 65536)
      (c ^^^ (v.toNat <<< 8))) 0xFFFF

/-- A flit (R287): the CRC, KIND, and the content with the zeros that fill it. -/
def flitBytes (kind : Nat) (content : List Byte) : List Byte :=
  let body := leBytes 1 kind ++ content ++ List.replicate (253 - content.length) 0#8
  leBytes 2 (crc16 body) ++ body

/-- Bytes 0–1 hold the CRC of bytes 2 to 255 (R287). -/
def flitOk (f : List Byte) : Bool :=
  f.length == 256 && fieldAt f 0 2 == crc16 (f.drop 2)

/-- Link state. -/
def link (b : Block) (l : Nat) : Link := mapGet Link.fresh b.links l
/-- Replaces a link's state. -/
def setLink (l : Nat) (x : Link) (b : Block) : Block :=
  { b with links := mapSet Link.fresh b.links l x }
/-- Bundle state. -/
def bundle (b : Block) (d : Nat) : Bundle := mapGet Bundle.fresh b.bundles d
/-- Replaces a bundle's state. -/
def setBundle (d : Nat) (x : Bundle) (b : Block) : Block :=
  { b with bundles := mapSet Bundle.fresh b.bundles d x }

/-- This device's ID (R298). -/
def devId (b : Block) : Nat := get b fGG_DEV_ID_ID
/-- This device's stepping (03 R69). -/
def stepping (b : Block) : Nat := field (rd b 0) 23 20
/-- State of an adit (R291). -/
def aditState (b : Block) (a : Nat) : Nat := get b (fAD_BLK_STAT_STATE a)
/-- Peer of an adit. -/
def peerId (b : Block) (a : Nat) : Nat := get b (fAD_PEER_PEER_ID a)

/-- Half of an adit (01 R18). -/
def aditHalf (a : Nat) : Nat := if a < 9 then 0 else 1

/-- A link carries flits: an adit in UP whose half's fabric is ON (01 R18), a Chaell port in ACTIVE. -/
def linkUp (b : Block) (l : Nat) : Bool :=
  if l < 18 then aditState b l == 5 && domOn b (domFab (aditHalf l)) else get b (fCH_LINK_STATE (l - 18)) == 2

/-- UP adits whose peer is `d`: the members of the bundle (R295). -/
def bundleAdits (b : Block) (d : Nat) : List Nat :=
  (List.range 18).filter (fun a => linkUp b a && peerId b a == d)

/-- The bundle to `d` exists: some adit of it is neither DISABLED nor DOWN (R296). -/
def isBundlePeer (b : Block) (d : Nat) : Bool :=
  d != 0xFFFF && (List.range 18).any (fun a => peerId b a == d && (aditState b a == 5 || aditState b a == 6))

/-- The 24-byte header and the payload of a message (R288). -/
def msgBytes (m : Msg) : List Byte :=
  leBytes 2 m.dst ++ leBytes 2 m.src ++ leBytes 4 m.mseq ++ leBytes 1 m.cls ++ leBytes 1 m.hops
    ++ leBytes 2 m.payload.length ++ leBytes 2 m.mgen ++ leBytes 2 0 ++ leBytes 8 m.poison ++ m.payload

/-- Capacity of the replay buffer: 1,024 flits on an adit, 512 on a Chaell port (R290, 15 R406). -/
def replayFlits (l : Nat) : Nat := if l < 18 then 1024 else 512

/-- Emits `n` DATA flits of the stream, each kept in the replay buffer (R289, R290). -/
def emitFlits (l : Nat) : (n : Nat) → Block → Block
  | 0, b => b
  | n + 1, b =>
    let x := link b l
    let c := x.txTail.take 253
    emitFlits l n (emit (.flit l (flitBytes 1 c)) (setLink l { x with
      tx := x.tx + 1, txTail := x.txTail.drop 253, buffer := x.buffer ++ [c] } b))

/-- Sends the DATA flits that the stream fills, to a peer that is UP and as far as the replay buffer has room (R288, R290, R292);
the rest waits (log 22). -/
def pumpFlits (l : Nat) (b : Block) : Block :=
  let x := link b l
  if linkUp b l && (x.confirmed || decide (18 ≤ l)) then
    emitFlits l (min (x.txTail.length / 253) (replayFlits l - x.buffer.length)) b
  else b

/-- Appends bytes to a link's stream (R288, R289). -/
def stream (l : Nat) (bs : List Byte) (m : Option Msg) (b : Block) : Block :=
  let x := link b l
  pumpFlits l (setLink l { x with txTail := x.txTail ++ bs, txBytes := x.txBytes + bs.length,
                                  unacked := x.unacked ++ [(x.txBytes + bs.length, m)] } b)

/-- Round-robin over the adits of a bundle (R295). -/
def arbBundle (d : Nat) : Nat := 10000 + d

/-- A message takes its place among those that wait, in MSEQ order (R295). -/
def queueMsg (m : Msg) : List Msg → List Msg
  | [] => [m]
  | h :: t => if (h.mseq + 2 ^ 32 - m.mseq) % 2 ^ 32 < 2 ^ 31 then m :: h :: t else h :: queueMsg m t

/-- Hands a message to an UP and confirmed adit of the bundle, or lets it wait (R292, R295, R296). -/
def onBundle (d : Nat) (m : Msg) (b : Block) : Block :=
  let up := (bundleAdits b d).filter (fun a => (link b a).confirmed)
  let p := rrGrant (arbBundle d) 18 (fun a => up.contains a) b
  match p.1 with
  | some a => stream a (msgBytes m) (some m) (emit (.message a m) p.2)
  | none => setBundle d { bundle b d with queued := queueMsg m (bundle b d).queued } b

/-- Sends a message on the bundle to a peer, with the bundle's next MSEQ (R295). -/
def sendOnBundle (d : Nat) (m : Msg) (b : Block) : Block :=
  let x := bundle b d
  let m := { m with mseq := x.nextTx }
  onBundle d m (setBundle d { x with nextTx := (x.nextTx + 1) % 2 ^ 32 } b)

/-- Sends what waits for a bundle (R296). -/
def flushBundle (d : Nat) (b : Block) : Block :=
  let x := bundle b d
  x.queued.foldl (fun b m => onBundle d m b) (setBundle d { x with queued := [] } b)

/-- The PA of byte `i` of a region kept as pieces (R311). -/
def pieceAt : List (Nat × Nat) → Nat → Option Nat
  | [], _ => none
  | (pa, n) :: t, i => if i < n then some (pa + i) else pieceAt t (i - n)

/-- Bytes of a kept region. -/
def regionBytes (b : Block) (ps : List (Nat × Nat)) (off n : Nat) : List Byte :=
  (List.range n).map (fun i => match pieceAt ps (off + i) with
    | some pa => memByte b pa
    | none => 0#8)

/-- Writes bytes into a kept region. -/
def regionWrite (ps : List (Nat × Nat)) : (off : Nat) → List Byte → Block → Block
  | _, [], b => b
  | off, v :: vs, b => regionWrite ps (off + 1) vs (match pieceAt ps off with
    | some pa => memWrite pa [v] b
    | none => b)

/-- The bundle that a route-table entry gives for `d`, none where R299 drops. -/
def routePeer (b : Block) (d : Nat) : Option Nat :=
  match pieceAt b.gang.routePas d with
  | none => none
  | some pa =>
    let e := (memByte b pa).toNat
    if 18 ≤ e then none
    else
      let p := peerId b e
      if p = 0xFFFF then none else some p

/-- R299: the device to which a message for `d` goes next. -/
def nextHop (b : Block) (d : Nat) : Option Nat :=
  if isBundlePeer b d then some d else routePeer b d

/-- Sends or forwards a message by bundle or route, or drops and counts it (R299). -/
def routeMsg (m : Msg) (b : Block) : Block :=
  if 16 < m.hops then bump fGG_CNT_FWD_DROP 1 b
  else match nextHop b m.dst with
  | some p => sendOnBundle p m b
  | none => bump fGG_CNT_FWD_DROP 1 b

/-- A message of this device (R288, R301). -/
def sendMsg (dst cls poison : Nat) (payload : List Byte) (b : Block) : Block :=
  routeMsg ⟨dst, devId b, 0, cls, 0, get b fGG_STATE_GEN, poison, payload, none⟩ b

/-- POISON bits of a payload: bit i for a line with a poisoned byte (R288). -/
def linePoison (ps : List Bool) : Nat :=
  (List.range ((ps.length + 63) / 64)).foldl (fun m i => if ((ps.drop (64 * i)).take 64).any id then m ||| 2 ^ i else m) 0

/-- CLASS of a message whose payload has no given layout: remote reads are 0x3 and 0x4 (09 R241), the rest gang control (log 11). -/
def gangClass : GangMsg → Nat
  | .readRequest .. => 3
  | .readAnswer .. => 4
  | _ => 5

/-- POISON of such a message (R288). -/
def gangPoison : GangMsg → Nat
  | .readAnswer _ _ p _ => p
  | _ => 0

/-- Sends a message whose layout the spec does not give, with the header of R288 and a payload of free bytes (log 2, 11). A join
request carries MGEN 0 (R301). -/
def sendGang (dst : Nat) (g : GangMsg) (b : Block) : Block :=
  let n := drawFree b
  let p := drawFree n.2
  routeMsg ⟨dst, devId b, 0, gangClass g, 0, if g = .joinRequest then 0 else get b fGG_STATE_GEN, gangPoison g,
            leBytes (n.1 % 513 * 8) p.1, some g⟩ p.2

/-- Poison of each byte of a payload (R288). -/
def bytePoison (mask n : Nat) : List Bool := (List.range n).map (fun i => mask.testBit (i / 64))

/-! ### Adit states (R291–R294) -/

/-- Sets an adit's state. -/
def setAdit (a st : Nat) (b : Block) : Block := put (fAD_BLK_STAT_STATE a) st b

/-- AD_PEER back to no peer (R292). -/
def clearPeer (a : Nat) (b : Block) : Block :=
  put (fAD_PEER_PEER_STEP a) 0 (put (fAD_PEER_PEER_ADIT a) 0x1F (put (fAD_PEER_PEER_ID a) 0xFFFF b))

/-- Messages in an adit's replay buffer are resent on the other adits of the bundle (R293, R294). -/
def resend (a d : Nat) (b : Block) : Block :=
  let ms := (link b a).unacked.filterMap (fun e => e.2)
  ms.foldl (fun b m => onBundle d m b) (setLink a Link.fresh b)

/-- MSEQ of messages from 0 upward (R295). -/
def renumber : (n : Nat) → List Msg → List Msg
  | _, [] => []
  | n, m :: t => { m with mseq := n } :: renumber (n + 1) t

/-- A bundle forms: MSEQ restarts at zero, and what waits for it is numbered again (R295). -/
def formBundle (d : Nat) (b : Block) : Block :=
  let q := (bundle b d).queued
  setBundle d ⟨q.length, 0, [], renumber 0 q⟩ b

/-- An adit enters UP (R291, R295): its counts restart, a forming bundle restarts MSEQ, and what it kept is sent again. No DATA
flit leaves before the peer is known to be UP (R292). -/
def enterUp (a d : Nat) (forms : Bool) (b : Block) : Block :=
  let old := (link b a).unacked.filterMap (fun e => e.2)
  let b := raise (0x120 + a) 16 (setAdit a 5 (setLink a Link.fresh b))
  let b := if forms then formBundle d b else b
  old.foldl (fun b m => stream a (msgBytes m) (some m) (emit (.message a m) b)) b

/-- An adit enters DOWN (R291): from UP or RETRAIN it sets LINK_DOWN and its messages are resent. -/
def enterDown (a : Nat) (b : Block) : Block :=
  let st := aditState b a
  let d := peerId b a
  let b := setAdit a 7 (clearPeer a b)
  let b := canaryAdd .down 1 (bump (fAD_TRAIN_DOWNS a) 1 b)
  if st = 5 ∨ st = 6 then raise (0x120 + a) 32 (resend a d b) else setLink a Link.fresh b

/-- An adit goes to DISABLED (R294) and its domain off (17 R475). -/
def disableAdit (a : Nat) (b : Block) : Block :=
  let st := aditState b a
  let d := peerId b a
  let b := setAdit a 0 (clearPeer a b)
  let b := if st = 5 ∨ st = 6 then resend a d b else setLink a Link.fresh b
  domainRollback (domAdit a) (setDom (domAdit a) 0 b)

/-- Retrain begins (R293): the bundle loses the adit, the replay buffer survives. -/
def enterRetrain (a : Nat) (signal : Bool) (b : Block) : Block :=
  let b := setAdit a 6 (setLink a { link b a with full := 0, replays := 0 } b)
  let b := canaryAdd .retrain 1 (bump (fAD_TRAIN_RETRAINS a) 1 b)
  let b := raise (0x120 + a) 64 b
  if signal then emit (.retrain a) b else b

/-- A write of AD_CTL.EN (R291, R294, 17 R475). -/
def aditEnable (a : Nat) (en : Bool) (b : Block) : Block :=
  let was := isSet b (fAD_CTL_EN a)
  let b := put (fAD_CTL_EN a) (b2n en) b
  if en then
    if was then b else setAdit a 1 (setDom (domAdit a) 2 b)
  else if was || aditState b a != 0 then disableAdit a b else b

/-- AD_CTL.RETRAIN: an UP adit retrains (R293). -/
def aditRetrain (a : Nat) (b : Block) : Block :=
  if aditState b a = 5 then enterRetrain a true b else b

/-- AD_CTL.CLR_CNT (R310). -/
def aditClear (a : Nat) (b : Block) : Block :=
  wr (wr (wr b (rAD_FEC a) 0) (rAD_RETRY a) 0) (rAD_TRAIN a) 0

/-! ### Link retry (R289, R290) -/

/-- A cumulative ACK (R289). -/
def sendAck (l : Nat) (b : Block) : Block :=
  emit (.flit l (flitBytes 2 (leBytes 2 (link b l).rx))) (setLink l { link b l with sinceAck := 0, again := false } b)

/-- A received ACK frees what it covers (R289, R290): the count is the receiver's, modulo 4,096. -/
def takeAck (l count : Nat) (b : Block) : Block :=
  let x := link b l
  let d := (count + 4096 - x.acked % 4096) % 4096
  if x.acked + d ≤ x.tx then
    let a := x.acked + d
    pumpFlits l (setLink l { x with acked := a, replays := if d = 0 then x.replays else 0, buffer := x.buffer.drop d,
                                    unacked := x.unacked.filter (fun e => decide (a * 253 < e.1)) } b)
  else b

/-- Replays from the oldest flit not acknowledged (R289): each flit leaves again and the replay is counted. An adit that replays one
flit 16 times in a row retrains (R293). -/
def replayAll (l : Nat) (b : Block) : Block :=
  let x := link b l
  if x.buffer.isEmpty then b
  else
    let b := setLink l { x with replays := x.replays + 1 } b
    let b := x.buffer.foldl (fun b c => emit (.flit l (flitBytes 1 c)) b) b
    if l < 18 then
      let b := canaryAdd .replay 1 (bump (fAD_RETRY_REPLAYS l) 1 b)
      if 16 ≤ x.replays + 1 then enterRetrain l true b else b
    else b

/-- A received NAK names the flit that the receiver expects (R289): what came before it is accepted. -/
def takeNak (l count : Nat) (b : Block) : Block := replayAll l (takeAck l count b)

/-- Delivers a bundle's messages in MSEQ order (R295). -/
def deliver : (fuel : Nat) → Nat → Block → Block
  | 0, _, b => b
  | f + 1, d, b =>
    let x := bundle b d
    match x.early.find? (fun m => m.mseq == x.nextRx) with
    | none => b
    | some m =>
      let x := { x with early := x.early.filter (fun e => e.mseq != x.nextRx), nextRx := (x.nextRx + 1) % 2 ^ 32 }
      deliver f d { setBundle d x b with inbox := b.inbox ++ [m] }

/-- Parses one header (R288): none for a reserved field or a LEN that is too long. -/
def parseMsg (bs : List Byte) : Option Msg :=
  let cls := byteAt bs 8
  let len := fieldAt bs 10 2
  if decide (1 ≤ cls ∧ cls ≤ 5 ∧ len ≤ 4096 ∧ len % 8 = 0) && zeroAt bs 14 2 then
    some ⟨fieldAt bs 0 2, fieldAt bs 2 2, fieldAt bs 4 4, cls, byteAt bs 9, fieldAt bs 12 2, fieldAt bs 16 8, (bs.drop 24).take len, none⟩
  else none

/-- Takes whole messages out of an adit's received stream. -/
def takeMessages : (fuel : Nat) → Nat → Block → Block
  | 0, _, b => b
  | f + 1, a, b =>
    let x := link b a
    if x.part.length < 24 then b
    else
      let len := fieldAt x.part 10 2
      if x.part.length < 24 + len then b
      else
        let rest := setLink a { x with part := x.part.drop (24 + len) } b
        match parseMsg x.part with
        | none => takeMessages f a (bump (fAD_RETRY_PROTO a) 1 rest)
        | some m =>
          let d := peerId b a
          let y := bundle rest d
          -- a message that came before, resent by the peer, is no message again
          let seen := decide (2 ^ 31 ≤ (m.mseq + 2 ^ 32 - y.nextRx) % 2 ^ 32) || y.early.any (fun e => e.mseq == m.mseq)
          takeMessages f a (if seen then rest
            else deliver (y.early.length + 1) d (setBundle d { y with early := y.early ++ [m] } rest))

/-- Codewords that the RS(544,514) code corrects: those with 1 to 15 symbols in error, as `symbolErrors` counts them (R286, log 106). -/
def correctedWords (errors : List Nat) : Nat := (errors.filter (fun e => decide (1 ≤ e ∧ e ≤ rsLimit))).length

/-- Codewords beyond the code's limit of 15 symbols, which the decoder marks uncorrectable (R286). -/
def uncorrectableWords (errors : List Nat) : Nat := (errors.filter (fun e => decide (rsLimit < e))).length

/-- Codewords of the flits received, by their symbols in error: corrected ones count in units of 1,024, uncorrectable ones each
(R286, R310, 14 R378). -/
def countFec (a : Nat) (errors : List Nat) (b : Block) : Block :=
  let x := link b a
  let n := x.corrected + correctedWords errors
  let u := uncorrectableWords errors
  let recent := (x.bad ++ List.replicate u (now b)).filter (fun t => decide (now b < t + 100000))
  let b := setLink a { x with corrected := n % 1024, bad := recent } b
  let b := bump (fAD_FEC_CORR a) (n / 1024) b
  if u = 0 then b else canaryAdd .codeword u (bump (fAD_FEC_UNCORR a) u b)

/-- The peer is known to be UP: what waits for the bundle may leave (R292). -/
def confirmLink (a : Nat) (b : Block) : Block :=
  if a < 18 ∧ (link b a).confirmed = false then
    flushBundle (peerId b a) (pumpFlits a (setLink a { link b a with confirmed := true } b))
  else b

/-- A bad flit (R289): discarded, and every later DATA flit until the replay arrives; one NAK. -/
def badFlit (l : Nat) (b : Block) : Block :=
  let x := link b l
  if x.nakSent then b else emit (.flit l (flitBytes 3 (leBytes 2 x.rx))) (setLink l { x with nakSent := true } b)

/-- A good DATA flit (R289), the sender's `number`-th modulo 4,096: the expected one is counted and acknowledged, one that came before, replayed
after a lost ACK, has its ACK sent again, and a later one is discarded until the replay arrives (log 164). -/
def takeData (l number : Nat) (f : List Byte) (b : Block) : Block :=
  let b := confirmLink l b
  let x := link b l
  if number ≠ x.rx then
    if !x.nakSent && decide ((x.rx + 4096 - number) % 4096 ≤ replayFlits l) then
      setLink l { x with again := true, oldest := if x.sinceAck = 0 ∧ !x.again then now b else x.oldest } b
    else b
  else
    let x := { x with
      nakSent := false, rx := (x.rx + 1) % 4096, sinceAck := x.sinceAck + 1,
      oldest := if x.sinceAck = 0 ∧ !x.again then now b else x.oldest
      part := x.part ++ f.drop 3 }
    let b := setLink l x b
    let b := if x.sinceAck = 32 then sendAck l b else b
    if l < 18 then takeMessages 12 l b else b

/-- The ACK of R289 that goes 100 ns after the oldest DATA flit not yet acknowledged. -/
def lateAck (b : Block) (l : Nat) : Block :=
  let x := link b l
  if linkUp b l && (x.sinceAck != 0 || x.again) && decide (x.oldest + 10 ≤ now b) then sendAck l b else b

/-- Removes a handled message from the inbox. -/
def takeMsg (m : Msg) (b : Block) : Block := { b with inbox := b.inbox.erase m }

/-- How the membership generation of a message is met (R301). -/
inductive Gate where
  | accept | hold | stale
  deriving DecidableEq, Repr

/-- R301: older is stale, newer is held. -/
def genGate (b : Block) (mgen : Nat) : Gate :=
  let g := get b fGG_STATE_GEN
  if newer16 g mgen then .stale else if newer16 mgen g then .hold else .accept

/-- A message of a member has been heard: of the master, which is then not silent (R306), and by the master (R305). -/
def hears (src : Nat) (b : Block) : Block :=
  let master := match b.gang.cur with
    | some t => t.master == src
    | none => false
  let member := match b.gang.cur with
    | some t => t.members.any (fun m => m.1 == src)
    | none => false
  { b with gang := { b.gang with
    masterQuiet := b.gang.masterQuiet && !master
    heard := if get b fGG_STATE_ROLE = 3 ∧ member = true ∧ src ≠ devId b then setInsert b.gang.heard src else b.gang.heard } }

/-- Applies R301 to a message of class 1, 2 or 5: `f` runs on a message of the receiver's generation. A device whose ROLE is
none discards it. -/
def gated (m : Msg) (f : Block → Block) (b : Block) : Block :=
  let b := hears m.src (takeMsg m b)
  if get b fGG_STATE_ROLE = 0 then b
  else match genGate b m.mgen with
  | .stale => bump fGG_CNT_STALE 1 b
  | .hold => { b with gang := { b.gang with held := b.gang.held ++ [m] } }
  | .accept => f b

end Sys2Proof.Machine
end

