-- ==== Sys2Proof/Machine/CollOps.lean ====
section
/-!
DEFINITION. Collectives: shards, chunks, reduction, grants, closing and failure within a bucket (12 R312–R343).
-/

namespace Sys2Proof.Machine

/-- The group of a number in the adopted generation (11 R308). -/
def groupOf (b : Block) (g : Nat) : Option Group :=
  match b.gang.cur with
  | none => none
  | some t => t.groups.find? (fun x => x.num == g)

/-- Members FAILED in the working table. -/
def failedIds (b : Block) : List Nat :=
  match b.gang.cur with
  | none => []
  | some t => (t.members.filter (fun m => m.2 == 2)).map (fun m => m.1)

/-- Position of a device in a drift. -/
def posOf (drift : List Nat) (d : Nat) : Option Nat := drift.idxOf? d

/-- Drift length n. -/
def Coll.n (c : Coll) : Nat := c.drift.length

/-- A position is not FAILED in this round. -/
def Coll.live (c : Coll) (p : Nat) : Bool := !c.failed.contains p

/-- Next live position after `p` (R308, R309); none past the end of a drift that is no ring, or when alone. -/
def Coll.succOf (c : Coll) (p : Nat) : Option Nat :=
  let cand := if c.isRing then (List.range (c.n - 1)).map (fun i => (p + 1 + i) % c.n)
    else (List.range (c.n - 1 - p)).map (fun i => p + 1 + i)
  cand.find? c.live

/-- Previous live position. -/
def Coll.predOf (c : Coll) (p : Nat) : Option Nat :=
  let cand := if c.isRing then (List.range (c.n - 1)).map (fun i => (p + c.n - 1 - i) % c.n)
    else (List.range p).map (fun i => p - 1 - i)
  cand.find? c.live

/-- The closer: the live position with the lowest number (R335). -/
def Coll.closer (c : Coll) : Nat :=
  match (List.range c.n).find? c.live with
  | some p => p
  | none => 0

/-- Closing laps run around the live positions, ring or not (R335). -/
def Coll.nextLap (c : Coll) : Option Nat :=
  ((List.range (c.n - 1)).map (fun i => (c.pos + 1 + i) % c.n)).find? c.live

/-- Previous live position of the closing lap. -/
def Coll.prevLap (c : Coll) : Option Nat :=
  ((List.range (c.n - 1)).map (fun i => (c.pos + c.n - 1 - i) % c.n)).find? c.live

/-- Shard size S (R314). -/
def shardSize (e n : Nat) : Nat := 32 * ceilDiv e (32 * n)

/-- First element and length of shard j (R314). -/
def Coll.shardSpan (c : Coll) (j : Nat) : Nat × Nat :=
  let s := shardSize c.elems c.n
  (min (j * s) c.elems, min ((j + 1) * s) c.elems - min (j * s) c.elems)

/-- Elements that travel for a DATA shard index: a shard, or all E words for BROADCAST and SHIFT. -/
def Coll.spanOf (c : Coll) (j : Nat) : Nat × Nat :=
  if c.kind ≤ 2 then c.shardSpan j else (0, c.elems)

/-- Elements per chunk (R318). -/
def Coll.perChunk (c : Coll) : Nat := if c.bx then 3584 else 1008

/-- Chunks of a shard index. -/
def Coll.chunksOf (c : Coll) (j : Nat) : Nat := ceilDiv (c.spanOf j).2 c.perChunk

/-- First live position of order(j) (R323). -/
def Coll.firstOf (c : Coll) (j : Nat) : Option Nat :=
  ((List.range c.n).map (fun i => (j + 1 + i) % c.n)).find? c.live

/-- Shard indices that reach this position from its predecessor in a round. -/
def Coll.incoming (c : Coll) : List Nat :=
  match c.kind with
  | 1 => (List.range c.n).filter (fun j => c.live j && decide (c.firstOf j ≠ some c.pos))
  | 2 => (List.range c.n).filter (fun j => c.live j && j != c.pos)
  | 3 => if c.pos = c.root then [] else [c.root]
  | _ => match c.predOf c.pos with
    | some p => [p]
    | none => []

/-- Chunks this position receives in a round. -/
def Coll.expect (c : Coll) : Nat := c.incoming.foldl (fun a j => a + c.chunksOf j) 0

/-- Chunks this position sends in a round: its own first, then what it forwards. -/
def Coll.toSend (c : Coll) : Nat :=
  match c.kind with
  | 1 => (List.range c.n).foldl (fun a j => if c.live j && j != c.pos then a + c.chunksOf j else a) 0
  | 2 => if c.succOf c.pos = none then 0 else
      (List.range c.n).foldl (fun a j => if c.live j && decide (c.succOf c.pos ≠ some j) then a + c.chunksOf j else a) 0
  | 3 => match c.succOf c.pos with
    | none => 0
    | some s => if s = c.root then 0 else c.chunksOf c.root
  | _ => if c.succOf c.pos = none then 0 else c.chunksOf c.pos

/-- Finished (R335): everything received and written, everything sent. -/
def Coll.finished (c : Coll) : Bool :=
  !c.complete && !c.waitVerdict && c.rx == c.expect && c.sendQ.isEmpty && c.sent == c.toSend

/-- A bucket by command. -/
def collOf (b : Block) (q n : Nat) : Option Coll := b.colls.find? (fun c => c.queue == q && c.count == n)
/-- The bucket that holds a tally. -/
def collByTally (b : Block) (t : Nat) : Option Coll := b.colls.find? (fun c => c.tally == t)
/-- Replaces a bucket. -/
def setColl (c : Coll) (b : Block) : Block :=
  { b with colls := b.colls.map (fun x => if x.queue == c.queue && x.count == c.count then c else x) }

/-- Page that counts bucket-level events: RED0 while RED-E is ON, else RED1 (R343). -/
def bucketRed (b : Block) : Nat := if dom b (domRed 0) = 2 then 0 else 1

/-- A stale or protocol count on the engine of the receiving adit's half (R319, R343). -/
def countStale (half : Nat) (b : Block) : Block := raise (0x14A + half) 32 (bump (fRED_CNT_STALE half) 1 b)
/-- A protocol error (R319). -/
def countProto (half : Nat) (b : Block) : Block := raise (0x14A + half) 16 (bump (fRED_CNT_PROTO half) 1 b)

/-- The 64-byte chunk header (R317). -/
def Coll.header (c : Coll) (kind shard chunk count contrib : Nat) : List Byte :=
  leBytes 4 c.tally ++ leBytes 2 c.group ++ leBytes 1 kind ++ leBytes 1 c.round ++ leBytes 1 c.op ++ leBytes 1 c.agreed
    ++ leBytes 2 shard ++ leBytes 4 chunk ++ leBytes 4 c.elems ++ leBytes 2 count ++ leBytes 2 contrib ++ leBytes 2 c.pos
    ++ leBytes 38 0

/-- Half of the lowest UP adit of the bundle that carries messages for a device. -/
def sendHalf (b : Block) (d : Nat) : Nat :=
  match nextHop b d with
  | some p => match (bundleAdits b p).head? with
    | some a => if a < 9 then 0 else 1
    | none => 0
  | none => 0

/-- Sends a chunk message from the engine of a half to a drift position (R317, R322), counting its bytes there (R342). -/
def sendFrom (half : Nat) (c : Coll) (p : Nat) (hdr data : List Byte) (pois : Nat) (b : Block) : Block :=
  let pad := List.replicate ((8 - data.length % 8) % 8) 0#8
  let pl := hdr ++ data ++ pad
  sendMsg (c.drift.getD p 0xFFFF) 1 (pois * 2) pl (count64 (rRED_BYTES_TX_LO half) pl.length b)

/-- Sends a chunk message of this device's own: by the engine of the half that sends to that position (log 141). -/
def sendChunk (c : Coll) (p : Nat) (hdr data : List Byte) (pois : Nat) (b : Block) : Block :=
  sendFrom (sendHalf b (c.drift.getD p 0xFFFF)) c p hdr data pois b

/-- The arbiter of a half's reduction engine grants an adit of the half (0 to 8) or the reading of the device's own contributions (9)
(R322). -/
def redGrant (half r : Nat) (b : Block) : Block := (rrGrant (arbRed half) 10 (fun i => i == r) b).2

/-- A cumulative GRANT to the predecessor: W plus the buffers freed (R320); none while the bucket waits for a verdict (R336). -/
def grant (c : Coll) (b : Block) : Coll × Block :=
  match c.predOf c.pos with
  | none => (c, b)
  | some p =>
    if c.expect = 0 || c.waitVerdict then (c, b)
    else ({ c with told := c.freed }, sendChunk c p (c.header 2 0 ((c.window + c.freed) % 2 ^ 32) 0 0) [] 0 b)

/-- A received chunk's buffer is free: after 16 frees a new GRANT goes out (R320). -/
def freeBuffer (c : Coll) (b : Block) : Coll × Block :=
  let c := { c with freed := c.freed + 1 }
  if c.freed - c.told < 16 then (c, b) else grant c b

/-- Sends what grants allow (R320); the buffer of a chunk that is forwarded is then free. -/
def pump : (fuel : Nat) → Coll → Block → Coll × Block
  | 0, c, b => (c, b)
  | f + 1, c, b =>
    match c.sendQ, c.succOf c.pos with
    | o :: t, some s =>
      if c.sent < c.granted ∧ !c.waitVerdict then
        let half := o.rxHalf.getD (sendHalf b (c.drift.getD s 0xFFFF))
        let b := sendFrom half c s (c.header 1 o.shard o.chunk o.count o.contrib) o.data o.pois b
        let c := { c with sendQ := t, sent := c.sent + 1 }
        let p := if o.rxHalf.isSome then freeBuffer c b else (c, b)
        pump f p.1 p.2
      else (c, b)
    | _, _ => (c, b)

/-- Sends what it may and stores the bucket. -/
def pumpStore (c : Coll) (b : Block) : Block :=
  let p := pump (c.sendQ.length + 1) c b
  setColl p.1 p.2

/-! ### Words -/

/-- A word and whether it is poisoned. -/
abbrev PWord := W32 × Bool

/-- 32-bit words of bytes. -/
def toWords : List Byte → List Bool → List PWord
  | b0 :: b1 :: b2 :: b3 :: t, ps =>
    (BitVec.ofNat 32 (leNat [b0, b1, b2, b3]), (ps.take 4).any id) :: toWords t (ps.drop 4)
  | _, _ => []

/-- Bytes of words. -/
def wordBytes (ws : List PWord) : List Byte := ws.flatMap (fun w => leBytes 4 w.1.toNat)
/-- Poison of each byte. -/
def wordPoison (ws : List PWord) : List Bool := ws.flatMap (fun w => List.replicate 4 w.2)

/-- Reads `n` words at a VA, or how the translation ends. -/
def readWords (b : Block) (c va n : Nat) : Except Xlat (List PWord) :=
  match vRead b c va (4 * n) with
  | .ok r => .ok (toWords r.bytes r.pois)
  | .error e => .error e

/-- Writes words at a VA and notes the range for an abort. -/
def writeWords (q n c va : Nat) (ws : List PWord) (b : Block) : Except Xlat Block :=
  if ws.isEmpty then .ok b
  else match vaPieces b c va (4 * ws.length) true with
  | .error e => .error e
  | .ok ps =>
    let b := writePieces ps (wordBytes ws) (wordPoison ws) b
    match findCmd b q n with
    | some m => .ok (setCmd { m with wrote := ps ++ m.wrote } b)
    | none => .ok b

/-- Why a step of a bucket failed: a translation fault at a descriptor offset, poison consumed, or a protocol error. -/
inductive CollErr where
  | xlat (off : Nat)
  | poison
  | proto
  deriving DecidableEq, Repr

/-- The error of a translation for the field at a descriptor offset: a poisoned table entry is consumed (10 R264). -/
def xlatErr (off : Nat) : Xlat → CollErr
  | .poison => .poison
  | _ => .xlat off

/-- rn(p + c) of an exact partial with whether it rounded from finite to ±∞ (R323, R326, R330). -/
def addExact (x : Fp) (c : W32) : W32 × Bool :=
  let y := fp32 c
  let r := round32 (fpAdd x y)
  (r, fpIsFin x && fpIsFin y && fpIsInf (fp32 r))

/-- rn(p + c) of two words. -/
def addRn (p c : W32) : W32 × Bool := addExact (fp32 p) c

/-- One reduction of a partial and a contribution (R323, R326): sum, maximum or minimum. -/
def reduceWord (arith : Nat) (p : Fp) (c : W32) : W32 × Bool :=
  match arith with
  | 2 => (round32 (fpMax p (fp32 c)), false)
  | 3 => (round32 (fpMin p (fp32 c)), false)
  | _ => addExact p c

/-- The result of no present contributor (R323). -/
def emptyWord (arith : Nat) : W32 :=
  match arith with
  | 2 => 0xFF800000#32
  | 3 => 0x7F800000#32
  | _ => 0#32

/-- rn(p ÷ fp32(contrib)) (R323). -/
def divideBy (p : W32) (n : Nat) : W32 :=
  BitVec.ofNat 32 (roundTo fmtFP32 (xDiv (fp32 p) (.fin false n 0))).1

/-- True for a NaN word. -/
def isNaNWord (w : W32) : Bool := fpIsNaN (fp32 w)

/-! ### BXR8 (04 R94, 12 R325–R327) -/

/-- Encodes 32 values at exponent x: elements, and whether some finite value rounded above 448 (R325). -/
def bxAt (vs : List Fp) (x : Nat) : List Nat × Bool :=
  let es := vs.map (fun v => match v with
    | .fin .. =>
      let r := convertFp fmtE4M3 ⟨none, false⟩ (fpScale v (127 - (x : Int)))
      (r.w, r.ovfs != 0)
    | _ => (0x7F, false))
  (es.map (fun e => e.1), es.any (fun e => e.2))

/-- encode(v, x0) of R325; the exponent never needs to pass 0xFE. -/
def bxEncode : (fuel : Nat) → List Fp → Nat → List Nat × Nat
  | 0, vs, x => ((bxAt vs x).1, x)
  | f + 1, vs, x => if (bxAt vs x).2 then bxEncode f vs (x + 1) else ((bxAt vs x).1, x)

/-- The 36 bytes of a block (04 R94). -/
def bxBlock (es : List Nat) (x : Nat) (rescaled : Bool) : List Byte :=
  es.map (BitVec.ofNat 8) ++ leBytes 1 x ++ leBytes 1 (b2n rescaled) ++ leBytes 2 0

/-- Values of a block's elements (04 R94). -/
def bxValues (blk : List Byte) : List Fp :=
  let x : Int := (byteAt blk 32 : Int) - 127
  (blk.take 32).map (fun e => fpScale (decodeFp fmtE4M3 e.toNat) x)

/-- R327. -/
def bxBad (agreed : Nat) (blk : List Byte) : Bool :=
  let x := byteAt blk 32
  let f := byteAt blk 33
  x == 0xFF || decide (x < agreed) || decide (2 ≤ f) || decide (f ≠ b2n (decide (agreed < x))) || !zeroAt blk 34 2

/-- Cuts a list into pieces of `n`. -/
def chunkList {α : Type} (n : Nat) : (fuel : Nat) → List α → List (List α)
  | 0, _ => []
  | f + 1, l => if l.isEmpty then [] else l.take n :: chunkList n f (l.drop n)

/-- Pads a list of values to 32 with +0 (R318). -/
def pad32 (vs : List Fp) : List Fp := vs ++ List.replicate (32 - vs.length) (.fin false 0 0)

/-! ### Contributions (R324, R328, R329) -/

/-- Address of accumulation buffer `i` (R324). -/
def Coll.accBuf (c : Coll) (i : Nat) : Nat := c.acc + i * (64 * ceilDiv (4 * c.elems) 64)

/-- This device's contribution for elements `lo` to `lo + n − 1`, with its sums that overflow (R324). -/
def contribution (b : Block) (c : Coll) (lo n : Nat) : Except CollErr (List PWord × Nat) :=
  match readWords b c.ctx (c.src + 4 * lo) n with
  | .error e => .error (xlatErr 0x10 e)
  | .ok s =>
    if c.accEvery ≤ 1 then .ok (s, 0)
    else match readWords b c.ctx (c.accBuf (c.epoch % 2) + 4 * lo) n with
    | .error e => .error (xlatErr 0x20 e)
    | .ok a =>
      let r := (a.zip s).map (fun e => (addRn e.1.1 e.2.1, e.1.2 || e.2.2))
      .ok (r.map (fun e => (e.1.1, e.2)), (r.filter (fun e => e.1.2)).length)

/-- Bytes of DST: this device's shard of a REDUCE_SCATTER, else all E words (R313). -/
def Coll.dstBytes (c : Coll) : Nat := 4 * (if c.kind = 1 then (c.shardSpan c.pos).2 else c.elems)

/-- What is undefined where the bucket did not close (R332, R338): DST of an exchange, and the accumulation buffer of the command. -/
def Coll.undefined (b : Block) (c : Coll) : List (Nat × Nat) :=
  let of := fun (va n : Nat) => match vaPieces b c.ctx va n true with
    | .ok ps => ps
    | .error _ => []
  (if c.exchanged then of c.dst c.dstBytes else []) ++ (if 1 < c.accEvery then of (c.accBuf (1 - c.epoch % 2)) (4 * c.elems) else [])

/-- The command of a bucket aborts: it keeps the counts that it has gathered (15 R434), and its memory is undefined (R338). -/
def collAbort (c : Coll) (status detail : Nat) (b : Block) : Block :=
  match findCmd b c.queue c.count with
  | none => b
  | some m =>
    let m := { m with nan := c.nan + c.infEnc, ovf := c.ovf + c.infEnc, wrote := c.undefined b ++ m.wrote }
    abortCmd status detail (setCmd m b) m

/-- A bucket ends here with an error status of its own: the marker goes to both neighbours (R338). -/
def collFail (c : Coll) (status detail peers : Nat) (b : Block) : Block :=
  let b := setColl { c with complete := true, marker := true, sendQ := [] } b
  let send := fun (p : Option Nat) (b : Block) => match p with
    | some p => sendChunk c p (c.header 3 0 peers 0 0) [] 0 b
    | none => b
  let b := send (c.succOf c.pos) b
  let b := if c.predOf c.pos = c.succOf c.pos then b else send (c.predOf c.pos) b
  collAbort c status detail b

/-- The engine's domain, which a poisoned word it consumes names (15 R435). -/
def redDomain (half : Nat) : Nat := domRed half

/-- CONTRIB of the result (R340): the present contributors of this device's shard; else the positions whose data it has, its own
included, in the round that delivered it. -/
def Coll.contribution (c : Coll) : Nat :=
  let r := { c with failed := c.had }
  match c.kind with
  | 1 => c.contrib
  | 2 => (List.range c.n).countP (fun j => r.live j || j == c.pos)
  | _ => 1 + b2n (!r.incoming.isEmpty)

/-- ABSENT of the result (R331, R340): positions without a term in this device's shard; of a move, the positions FAILED in the
round that delivered it (log 142). -/
def Coll.absent (c : Coll) : Nat := if c.kind = 1 then c.n - c.contrib else c.had.eraseDups.length

/-- The 64-byte result record (R340). -/
def Coll.record (c : Coll) : List Byte :=
  leBytes 4 c.tally ++ leBytes 2 c.contribution ++ leBytes 2 c.absent ++ leBytes 4 c.nan ++ leBytes 4 c.ovf
    ++ leBytes 4 c.rescaled ++ leBytes 1 (if c.bx then c.maxExp else 0)
    ++ leBytes 1 (b2n (decide (0 < c.rescaled)) + 2 * b2n c.selfNan + 4 * b2n c.exchanged + 8 * b2n c.restarted)
    ++ leBytes 1 (c.round + 1) ++ leBytes 1 0 ++ leBytes 4 c.stale ++ leBytes 4 c.delivered ++ leBytes 32 0

/-- Writes the record and completes the command (R330, R340, 15 R518). -/
def collComplete (c : Coll) (b : Block) : Block :=
  let b := setColl { c with complete := true, closedHere := true, doneAt := now b } b
  let w := if c.result = 0 then .ok b else vWrite c.ctx c.result c.record [] b
  let fin := fun (st det : Nat) (b : Block) => match findCmd b c.queue c.count with
    | some m => if m.stage == .finished then b
      else setCmd { m with stage := .finished, status := st, detail := det, nan := c.nan + c.infEnc,
                           ovf := c.ovf + c.infEnc } b
    | none => b
  match w with
  | .error _ => fin 0x13 (invalidDetailOf 4 0x28) b
  | .ok b => if c.policy = 2 ∧ c.kind = 1 ∧ 0 < c.nan then fin 0x3B 0 b else fin 0 0 b
where
  /-- DETAIL of a structure and offset (15 R435). -/
  invalidDetailOf (s o : Nat) : Nat := s * 8192 + o

/-- Delivers final words of this device's result and counts them (R330, R340). -/
def collDeliver (c : Coll) (off : Nat) (ws : List PWord) (b : Block) : Except CollErr (Coll × Block) :=
  match writeWords c.queue c.count c.ctx (c.dst + 4 * off) ws b with
  | .error e => .error (xlatErr 0x18 e)
  | .ok b => .ok ({ c with delivered := c.delivered + ws.length,
                             nan := c.nan + (ws.filter (fun w => isNaNWord w.1)).length }, b)

/-- Final value of an owner's element (R323). -/
def finalWord (arith contrib : Nat) (p : W32) : W32 :=
  if contrib = 0 then emptyWord arith else if arith = 1 then divideBy p contrib else p

/-- One outgoing FP32 chunk. -/
def rawChunk (j k contrib : Nat) (ws : List PWord) : ChunkOut :=
  ⟨j, k, contrib, ws.length, wordBytes ws, linePoison (wordPoison ws), none⟩

/-- One outgoing BXR8 chunk from values and, per block, its starting exponent and RESCALED (R325, R326). -/
def bxChunk (j k contrib agreed : Nat) (vs : List Fp) (start : List (Nat × Bool)) : ChunkOut × Nat :=
  let blocks := (chunkList 32 (vs.length + 1) vs).mapIdx (fun i v =>
    let s := start.getD i (agreed, false)
    let e := bxEncode 256 (pad32 v) s.1
    (bxBlock e.1 e.2 (s.2 || decide (s.1 < e.2)), (v.filter fpIsInf).length))
  (⟨j, k, contrib, blocks.length, blocks.flatMap (fun e => e.1), 0, none⟩, blocks.foldl (fun a e => a + e.2) 0)

/-- Ends a bucket on an error (R338): TRANSLATION, ABORTED_POISON or COLL_PROTOCOL. -/
def collError (c : Coll) (half : Nat) (e : CollErr) (b : Block) : Block :=
  match e with
  | .xlat o => collFail c 0x13 o 0x3F b
  | .poison => collFail c 0x24 (redDomain half) 0x3F b
  | .proto => collFail c 0x39 c.pos 0x3F (countProto half b)

/-- A partial as it arrives: its exact value, its word and its poison (R323, R326). -/
abbrev Partial := Fp × PWord

/-- This position's step on elements `lo` to `lo + n − 1` (R323, R326): the partial that arrived, with its contributor count, joined with
its own contribution unless absent. -/
def reduceStep (b : Block) (c : Coll) (lo n contrib : Nat) (part : List Partial) : Except CollErr (Coll × Nat × List PWord) :=
  if c.absentMe then .ok (c, contrib, part.map (·.2))
  else match contribution b c lo n with
  | .error e => .error e
  | .ok (own, ov) =>
    let c := { c with ovf := c.ovf + ov }
    if contrib = 0 then
      if c.accEvery > 1 ∧ own.any (fun w => w.2) then .error .poison else .ok (c, 1, own)
    else if part.any (fun w => w.2.2) || own.any (fun w => w.2) then .error .poison
    else
      let r := (part.zip own).map (fun e => reduceWord c.arith e.1.1 e.2.1)
      .ok ({ c with ovf := c.ovf + (r.filter (fun e => e.2)).length }, contrib + 1, r.map (fun e => (e.1, false)))

/-- Sends or delivers a partial after this position's step. -/
def reduceOut (c : Coll) (j k contrib : Nat) (ws : List PWord) (start : List (Nat × Bool)) (touched : Bool) (raw : ChunkOut)
    (b : Block) : Except CollErr (Coll × Block) :=
  if j = c.pos then
    if c.arith = 1 ∧ 0 < contrib ∧ ws.any (fun w => w.2) then .error .poison
    else
      let fin := ws.map (fun w => (finalWord c.arith contrib w.1, w.2))
      collDeliver { c with contrib := max c.contrib contrib } (k * c.perChunk) fin b
  else if !touched then .ok ({ c with sendQ := c.sendQ ++ [raw] }, b)
  else if c.bx then
    if ws.any (fun w => w.2) then .error .poison
    else
      let r := bxChunk j k contrib c.agreed (ws.map (fun w => fp32 w.1)) start
      .ok ({ c with sendQ := c.sendQ ++ [r.1], infEnc := c.infEnc + r.2 }, b)
  else .ok ({ c with sendQ := c.sendQ ++ [rawChunk j k contrib ws] }, b)

/-- The chunks this position starts: the shards whose order begins here, its own shard of ALL_GATHER, its words (R323,
R331–R333). A leading absent position starts its shards with CONTRIB 0 (log 23). -/
def startShards (c : Coll) : List Nat :=
  match c.kind with
  | 1 => (List.range c.n).filter (fun j => c.live j && decide (c.firstOf j = some c.pos))
  | 2 => [c.pos]
  | 3 => if c.pos = c.root then [c.root] else []
  | _ => [c.pos]

/-- A position whose own words are its result: its shard of ALL_GATHER, a BROADCAST root with another DST, and a SHIFT on a ring where no
other position is live, which is its own successor (R308, R313, R333). -/
def Coll.ownWords (c : Coll) : Bool :=
  match c.kind with
  | 2 => c.dst + 4 * (c.shardSpan c.pos).1 != c.src
  | 3 => c.dst != c.src
  | _ => c.isRing && (c.succOf c.pos).isNone

/-- Starts chunk k of shard j. -/
def startChunk (j k : Nat) (cb : Coll × Block) : Except CollErr (Coll × Block) :=
  let c := cb.1
  let b := redGrant (sendHalf cb.2 (match c.succOf c.pos with
    | some s => c.drift.getD s 0xFFFF
    | none => 0xFFFF)) 9 cb.2
  let sp := c.spanOf j
  let lo := sp.1 + k * c.perChunk
  let n := min c.perChunk (sp.2 - k * c.perChunk)
  if c.kind = 1 then
    match reduceStep b c lo n 0 (List.replicate n (.fin false 0 0, 0#32, false)) with
    | .error e => .error e
    | .ok (c, contrib, ws) => reduceOut c j k contrib ws [] true (rawChunk j k contrib ws) b
  else
    match readWords b c.ctx (c.src + 4 * (if c.kind = 2 then lo - sp.1 else lo)) n with
    | .error e => .error (xlatErr 0x10 e)
    | .ok ws =>
      match if c.ownWords then collDeliver c lo ws b else .ok (c, b) with
      | .error e => .error e
      | .ok (c, b) => if c.toSend = 0 then .ok (c, b) else .ok ({ c with sendQ := c.sendQ ++ [rawChunk j k 0 ws] }, b)

/-- Folds a step over a list, stopping at the first error. -/
def foldE {α σ : Type} (f : α → σ → Except CollErr σ) : List α → σ → Except CollErr σ
  | [], s => .ok s
  | a :: t, s => match f a s with
    | .ok s => foldE f t s
    | .error e => .error e

/-- Starts a round: every chunk that begins here, the window's GRANT, and what may be sent (R320, R335). -/
def startRound (c : Coll) (b : Block) : Block :=
  let c := { c with had := c.failed }
  let ks := (startShards c).flatMap (fun j => (List.range (c.chunksOf j)).map (fun k => (j, k)))
  match foldE (fun e s => startChunk e.1 e.2 s) ks (c, b) with
  | .error e => collError c (bucketRed b) e b
  | .ok (c, b) =>
    let g := grant c b
    pumpStore g.1 g.2

/-! ### Reservation (R320, R321) -/

/-- Chunk buffers of 4 KiB in the collective areas of a half's live slices (R282, R283). -/
def halfBuffers (b : Block) (h : Nat) : Nat :=
  ((List.range 4).map (fun i => 4 * h + i)).foldl
    (fun a s => if isSet b (fBLK_STAT_FAILED (sgBase s)) then a else a + get b (fSG_PART_COLL s) * 256) 0

/-- The part of a bucket's window that the east half holds: in proportion to the UP adits of the sending bundle, rounded down;
half of it where that bundle has none (R320). -/
def Coll.eastShare (b : Block) (c : Coll) : Nat :=
  let up := match c.predOf c.pos with
    | none => []
    | some p => match nextHop b (c.drift.getD p 0xFFFF) with
      | none => []
      | some d => bundleAdits b d
  if dom b (domRed 0) ≠ 2 then 0
  else if dom b (domRed 1) ≠ 2 then c.window
  else if up.isEmpty then c.window / 2
  else c.window * (up.filter (fun a => aditHalf a == 0)).length / up.length

/-! ### Start of a command (R315, R316, R324) -/

/-- Two byte ranges overlap. -/
def overlaps (a n c m : Nat) : Bool := decide (a < c + m ∧ c < a + n ∧ 0 < n ∧ 0 < m)

/-- The bucket of a COLLECTIVE command at its dispatch, before its buffers are shared between the halves. -/
def collFields (b : Block) (m : Cmd) (g : Group) (pos : Nat) : Coll where
  queue := m.queue
  count := m.count
  ctx := m.ctx
  tally := fieldAt m.desc 0x34 4
  group := fieldAt m.desc 0x38 2
  drift := g.drift
  isRing := g.isRing
  kind := byteAt m.desc 0x3C % 8
  arith := byteAt m.desc 0x3C / 8 % 8
  bx := (byteAt m.desc 0x3C).testBit 6
  agreed := byteAt m.desc 0x3F
  policy := byteAt m.desc 0x3D % 4
  op := byteAt m.desc 0x3C
  accEvery := byteAt m.desc 0x3E
  window := 2 ^ (byteAt m.desc 0x3D / 16)
  east := 0
  elems := fieldAt m.desc 0x30 4
  src := fieldAt m.desc 0x10 8
  dst := fieldAt m.desc 0x18 8
  acc := fieldAt m.desc 0x20 8
  result := fieldAt m.desc 0x28 8
  root := fieldAt m.desc 0x3A 2
  pos := pos
  epoch := m.epoch
  round := 0
  failed := (List.range g.drift.length).filter (fun p => (failedIds b).contains (g.drift.getD p 0xFFFF))
  had := []
  absentMe := (byteAt m.desc 0x3D).testBit 2
  selfNan := false
  exchanged := decide (byteAt m.desc 0x3E ≤ 1 ∨ m.epoch % byteAt m.desc 0x3E = byteAt m.desc 0x3E - 1)
  sendQ := []
  sent := 0
  granted := 0
  rx := 0
  freed := 0
  told := 0
  delivered := 0
  nan := 0
  ovf := 0
  infEnc := 0
  rescaled := 0
  maxExp := byteAt m.desc 0x3F
  contrib := 0
  stale := 0
  closeSeen := false
  closeSent := false
  complete := false
  closedHere := false
  waitVerdict := false
  restarted := false
  marker := false
  doneAt := 0
  held := []

/-- The bucket of a COLLECTIVE command at its dispatch. -/
def collNew (b : Block) (m : Cmd) (g : Group) (pos : Nat) : Coll :=
  let c := collFields b m g pos
  { c with east := c.eastShare b }

/-- Buckets that hold a window (R320, R321): those that run, and those of COLLECTIVE commands that are dispatched and have still to run. -/
def reservedColls (b : Block) : List Coll :=
  b.colls ++ b.cmds.filterMap (fun m =>
    if m.stage != .dispatched || m.cls != 0x06 then none
    else match groupOf b (fieldAt m.desc 0x38 2) with
      | none => none
      | some g => match posOf g.drift (devId b) with
        | none => none
        | some p => some (collNew b m g p))

/-- Chunk buffers that a bucket holds in a half. -/
def Coll.buffers (c : Coll) (h : Nat) : Nat :=
  if c.complete || !c.exchanged || c.expect == 0 then 0 else if h = 0 then c.east else c.window - c.east

/-- Buffers reserved in a half. -/
def buffersUsed (b : Block) (h : Nat) : Nat := (reservedColls b).foldl (fun a c => a + c.buffers h) 0

/-- A running bucket has chunks on a half's engine (R342): buffers of its window there, or chunks that the engine is to send (log 165). -/
def onEngine (b : Block) (h : Nat) (c : Coll) : Bool :=
  let dest := match c.succOf c.pos with
    | some s => sendHalf b (c.drift.getD s 0xFFFF)
    | none => 0
  !c.complete && c.exchanged && (decide (0 < c.buffers h) || c.sendQ.any (fun o => o.rxHalf.getD dest == h))

/-- RED_STATE and AREA_BUSY after a change (R342, 10 R283, R285); the pages of a domain that is off keep what they showed (03 R68). A
slice is busy while a collective buffer of its half may lie in its collective area, and while this device's securing, or a peer's transfer into a
keep slot and the ledger, may use its securing area (log 162). -/
def redSample (b : Block) : Block :=
  let set := fun (h : Nat) (b : Block) =>
    if domOn b (domRed h) then
      put (fRED_STATE_BUF_FREE h) (min (halfBuffers b h - buffersUsed b h) 0xFFFF) (put (fRED_STATE_RUNNING h) (b.colls.countP (onEngine b h)) b)
    else b
  let b := set 0 (set 1 b)
  (List.range 8).foldl (fun b s =>
    let coll := decide (0 < buffersUsed b (s / 4)) && decide (0 < get b (fSG_PART_COLL s))
    let busy := coll || ((get b fGG_SECURE_STAT_STATE != 0 || !b.keepWriter.isEmpty) && decide (0 < get b (fSG_PART_SECURE s)))
    if isSet b (fSG_STATE_AREA_BUSY s) = busy || !domOn b (domSg s) then b else put (fSG_STATE_AREA_BUSY s) (b2n busy) b) b

/-- A reservation for a COLLECTIVE command can be made: its window fits in both halves, unless it receives nothing, and its bucket
ID is not held (R315, R320, R321). -/
def collReserve (b : Block) (m : Cmd) : Bool :=
  !b.cmds.any (fun x => x.active && x.cls == 0x06 && fieldAt x.desc 0x34 2 == fieldAt m.desc 0x34 2)
    && (match groupOf b (fieldAt m.desc 0x38 2) with
      | none => true
      | some g => match posOf g.drift (devId b) with
        | none => true
        | some p =>
          let c := collNew b { m with epoch := (ctx b m.ctx).epoch } g p
          !c.exchanged || c.expect == 0 || (decide (buffersUsed b 0 + c.east ≤ halfBuffers b 0)
            && decide (buffersUsed b 1 + (c.window - c.east) ≤ halfBuffers b 1)))

/-- Bytes of SRC, DST and the accumulation buffers (R312–R314, R324). -/
def Coll.ranges (c : Coll) : List (Nat × Nat) :=
  let shard := 4 * (c.shardSpan c.pos).2
  let e := 4 * c.elems
  let s := match c.kind with
    | 2 => (c.src, shard)
    | 3 => (c.src, if c.pos = c.root then e else 0)
    | _ => (c.src, e)
  let d := (c.dst, c.dstBytes)
  let a := if 1 < c.accEvery then [(c.accBuf 0, e), (c.accBuf 1, e)] else []
  s :: d :: a

/-- R316: the offset of the first failing field, for a group that names this device. -/
def collCheck (c : Coll) : Option Nat :=
  let r := c.ranges
  let s := r.getD 0 (0, 0)
  let d := r.getD 1 (0, 0)
  let accs := r.drop 2
  let own := (c.shardSpan c.pos).1
  let sd := overlaps s.1 s.2 d.1 d.2
    && !(c.kind = 2 ∧ c.src = c.dst + 4 * own) && !(c.kind = 3 ∧ c.pos = c.root ∧ c.src = c.dst)
  let ac := accs.any (fun a => overlaps a.1 a.2 s.1 s.2 || overlaps a.1 a.2 d.1 d.2)
  if sd then some 0x18
  else if (1 < c.accEvery ∧ c.acc = 0) ∨ ac then some 0x20
  else if (c.kind = 1 ∨ c.kind = 2) ∧ !c.isRing then some 0x38
  else if c.n ≤ c.root ∨ (c.root ≠ 0 ∧ (c.kind ≠ 3 ∨ !c.isRing)) then some 0x3A
  else if c.bx ∧ 1 < c.arith then some 0x3C
  else if (c.policy ≠ 0 ∨ c.absentMe) ∧ c.kind ≠ 1 then some 0x3D
  else if 1 < c.accEvery ∧ (c.kind ≠ 1 ∨ 1 < c.arith) then some 0x3E
  else none

/-- NaN elements of the whole contribution; infinite ones count with BXR8 (R329). -/
def nanCount (c : Coll) (ws : List PWord) : Nat :=
  (ws.filter (fun w => isNaNWord w.1 || (c.bx && fpIsInf (fp32 w.1)))).length

/-- The accumulate-only step (R324): writes the other buffer, sends nothing. -/
def accumulateOnly (c : Coll) (b : Block) : Block :=
  let r : Except CollErr (List PWord × Nat) :=
    if c.absentMe then
      match readWords b c.ctx (c.accBuf (c.epoch % 2)) c.elems with
      | .ok a => .ok (a, 0)
      | .error e => .error (xlatErr 0x20 e)
    else contribution b c 0 c.elems
  match r with
  | .error e => collError c (bucketRed b) e b
  | .ok (ws, ov) =>
    if !c.absentMe && ws.any (fun w => w.2) then collError c (bucketRed b) .poison b
    else match writeWords c.queue c.count c.ctx (c.accBuf (1 - c.epoch % 2)) ws b with
    | .error e => collError c (bucketRed b) (xlatErr 0x20 e) b
    | .ok b => collComplete { c with ovf := c.ovf + ov } b

/-- Clears the other accumulation buffer of an exchange step (R324). -/
def clearAcc (c : Coll) (b : Block) : Except Xlat Block :=
  if c.accEvery ≤ 1 then .ok b
  else writeWords c.queue c.count c.ctx (c.accBuf (1 - c.epoch % 2)) (List.replicate c.elems (0#32, false)) b

/-- Runs a checked COLLECTIVE command (R320–R333). -/
def collStart (c : Coll) (b : Block) : Block :=
  let b := { b with colls := b.colls.filter (fun x => x.tally % 65536 != c.tally % 65536) ++ [c] }
  if !c.exchanged then accumulateOnly c b
  else if c.kind = 3 ∧ c.failed.contains c.root then collFail c 0x3E c.root 0x3E b
  else
    let scan : Except CollErr Coll :=
      if c.kind = 1 ∧ c.policy ≠ 0 ∧ !c.absentMe then
        match contribution b c 0 c.elems with
        | .error e => .error e
        | .ok (ws, ov) =>
          if ws.any (fun w => w.2) then .error .poison
          else if nanCount c ws = 0 then .ok c
          -- sums of a contribution that is not sent count here, the others as they are sent (R330)
          else if c.policy = 1 then .ok { c with absentMe := true, selfNan := true, ovf := c.ovf + ov }
          else .ok { c with selfNan := true, ovf := c.ovf + ov }
      else .ok c
    match scan with
    | .error e => collError c (bucketRed b) e b
    | .ok c =>
      if c.policy = 2 ∧ c.selfNan then collFail c 0x3A c.pos 0x3A b
      else match clearAcc c b with
      | .error e => collError c (bucketRed b) (xlatErr 0x20 e) b
      | .ok b => startRound c b

/-- A COLLECTIVE command of one KIND runs (R313, R315, R316). -/
def collRun (kind q n : Nat) (b : Block) : Block :=
  match findCmd b q n with
  | none => b
  | some m =>
    if m.stage != .dispatched || m.cls != 0x06 || byteAt m.desc 0x3C % 8 != kind then b
    else
      let b := setCmd { m with stage := .running } b
      let bid := fieldAt m.desc 0x34 2
      let gen := fieldAt m.desc 0x36 2
      if !newer16 gen (mapGet 0 b.lastGen bid) then finishCmd q n 0x38 bid b
      else match groupOf b (fieldAt m.desc 0x38 2) with
      | none => finishCmd q n 0x10 0x38 b
      | some g => match posOf g.drift (devId b) with
        | none => finishCmd q n 0x10 0x38 b
        | some p =>
          let c := collNew b m g p
          match collCheck c with
          | some o => finishCmd q n 0x10 o b
          | none =>
            collStart c { b with lastGen := mapSet 0 b.lastGen bid gen }

/-! ### Received chunks (R319) -/

/-- The fields of a received chunk header (R317). -/
structure ChunkHdr where
  tally : Nat
  group : Nat
  kind : Nat
  round : Nat
  op : Nat
  agreed : Nat
  shard : Nat
  chunk : Nat
  elems : Nat
  count : Nat
  contrib : Nat
  pos : Nat
  zero : Bool
  deriving DecidableEq, Repr

/-- Reads a chunk header. -/
def chunkHdr (p : List Byte) : ChunkHdr where
  tally := fieldAt p 0 4
  group := fieldAt p 4 2
  kind := byteAt p 6
  round := byteAt p 7
  op := byteAt p 8
  agreed := byteAt p 9
  shard := fieldAt p 10 2
  chunk := fieldAt p 12 4
  elems := fieldAt p 16 4
  count := fieldAt p 20 2
  contrib := fieldAt p 22 2
  pos := fieldAt p 24 2
  zero := zeroAt p 26 38 && decide (64 ≤ p.length)

/-- Counts the payload bytes of a received message of class 1 or 2 (R342). -/
def countRx (half : Nat) (m : Msg) (b : Block) : Block := count64 (rRED_BYTES_RX_LO half) m.payload.length b

/-- Round `r` of a message against a bucket's: 0 equal, 1 older, 2 newer, modulo 256. -/
def roundCmp (own r : Nat) : Nat :=
  let d := (r + 256 - own % 256) % 256
  if d = 0 then 0 else if d < 128 then 2 else 1

/-- Fields that R317 states zero for a KIND are zero. -/
def ChunkHdr.zeros (h : ChunkHdr) (reduce : Bool) : Bool :=
  h.zero && (match h.kind with
    | 1 => reduce || h.contrib == 0
    | 2 | 3 => h.shard == 0 && h.count == 0 && h.contrib == 0
    | 4 => h.contrib == 0
    | _ => h.shard == 0 && h.chunk == 0 && h.count == 0 && h.contrib == 0)

/-- Sends CLOSE, CLOSED or RESTART to the next live position of the lap (R335, R336). -/
def lapSend (c : Coll) (kind : Nat) (b : Block) : Block :=
  match c.nextLap with
  | some p => sendChunk c p (c.header kind 0 0 0 0) [] 0 b
  | none => b

/-- Drift position of the device that a message comes from. -/
def Coll.fromPos (c : Coll) (m : Msg) : Option Nat := posOf c.drift m.src

/-- A marker goes on, with the position that started the abort, on the side away from the device it came from (R338, 15 R435, log 166). -/
def forwardMarker (c : Coll) (m : Msg) (h : ChunkHdr) (b : Block) : Block :=
  let side := if c.fromPos m = c.predOf c.pos then c.succOf c.pos else c.predOf c.pos
  match side with
  | some p => if c.marker || some p == c.fromPos m then b
      else sendChunk c p ({ c with pos := h.pos }.header 3 0 h.chunk 0 0) [] 0 b
  | none => b

/-- A message meets a bucket that is complete here (R319): it is stale, but for the CLOSED verdict of a round declared since, which goes on around
the drift (R336), and an ABORT marker of the very PCLK cycle of the completion, which goes on too (R339). -/
def lateMessage (half : Nat) (m : Msg) (c : Coll) (b : Block) : Block :=
  let h := chunkHdr m.payload
  let same := c.closedHere && h.round == c.round % 256 && h.group == c.group
  if same && h.kind == 6 && c.waitVerdict && c.prevLap == some h.pos then
    let b := setColl { c with waitVerdict := false } b
    if c.nextLap = some c.closer then b else lapSend c 6 b
  else if same && h.kind == 3 && c.doneAt == now b && !c.marker
      && (c.fromPos m == c.predOf c.pos || c.fromPos m == c.succOf c.pos) then
    setColl { c with marker := true } (forwardMarker c m h b)
  else setColl { c with stale := c.stale + 1 } (countStale half b)

/-- Classifies a class 1 message (R319) and runs `use` on the bucket it belongs to; `expected` says that it comes from where the bucket expects
it. -/
def classify (half : Nat) (m : Msg) (kinds : List Nat) (expected : Coll → ChunkHdr → Bool)
    (use : Coll → ChunkHdr → Block → Block) (b : Block) : Block :=
  let h := chunkHdr m.payload
  let bid := h.tally % 65536
  let gen := h.tally / 65536
  match b.colls.find? (fun c => !c.complete && c.tally % 65536 == bid) with
  | some c =>
    if c.tally = h.tally then
      match roundCmp c.round h.round with
      | 1 => setColl { c with stale := c.stale + 1 } (countStale half b)
      | 2 => if h.kind = 2 ∨ h.kind = 7 then setColl { c with held := c.held ++ [(half, m)] } b else collError c half .proto b
      | _ =>
        if decide (1 ≤ h.kind ∧ h.kind ≤ 7 ∧ h.kind ≠ 4) && !kinds.contains h.kind then b
        else if !kinds.contains h.kind || !h.zeros (c.kind == 1) || h.group != c.group || h.op != c.op || h.agreed != c.agreed || h.elems != c.elems
            || !expected c h then collError c half .proto b
        else use c h b
    else if newer16 gen (c.tally / 65536) then collError c half .proto b
    else countStale half b
  | none =>
    match b.colls.find? (fun c => c.tally == h.tally) with
    | some c => if kinds.contains h.kind || decide (h.kind = 0 ∨ h.kind = 4 ∨ 7 < h.kind) then lateMessage half m c b else b
    | none => if newer16 gen (mapGet 0 b.lastGen bid) then countProto half b else countStale half b

/-- A word read from an engine's chunk buffer after its flips (04 R107): the bytes and their poison, corrected errors, and new
uncorrectable ones. `word` is its number in the data. -/
def chunkUpset (a : List Byte × List Bool × Nat × Nat) (u : Upset) : List Byte × List Bool × Nat × Nat :=
  let o := 4 * u.word
  let pois := ((a.2.1.drop o).take 4).any id
  let put := fun (bits : List Nat) => a.1.take o ++ leBytes 4 (flipBits (fieldAt a.1 o 4) bits) ++ a.1.drop (o + 4)
  let mark := a.2.1.take o ++ List.replicate 4 true ++ a.2.1.drop (o + 4)
  if a.1.length < o + 4 then a
  else match judge 39 pois u.bits with
  | .clean => a
  | .corrected => (a.1, a.2.1, a.2.2.1 + 1, a.2.2.2)
  | .uncorrectable => (a.1, mark, a.2.2.1, a.2.2.2 + 1)
  | .storedPoison => (a.1, mark, a.2.2)
  | .wrong bits => (put bits, a.2)
  | .wrongCounted bits => (put bits, a.2.1, a.2.2.1 + 1, a.2.2.2)

/-- Counts errors of a reduction engine's buffers (R342, 14 R378). -/
def countRed (half ce ue : Nat) (b : Block) : Block :=
  let b := if ce = 0 then b else raise (0x14A + half) 256 (canaryAdd .ceChip ce (bump (fRED_ECC_CE half) ce b))
  if ue = 0 then b else canaryAdd .ue ue b

/-- Words of a received DATA chunk. -/
def chunkWords (m : Msg) (n : Nat) : List PWord :=
  toWords ((m.payload.drop 64).take (4 * n)) ((bytePoison m.poison m.payload.length).drop 64)

/-- Uses a DATA chunk of the bucket's round (R318, R323, R326, R331–R333). -/
def useData (half : Nat) (ups : List Upset) (m : Msg) (c : Coll) (h : ChunkHdr) (b : Block) : Block :=
  let sp := c.spanOf h.shard
  let n := min c.perChunk (sp.2 - h.chunk * c.perChunk)
  let cnt := if c.bx then ceilDiv n 32 else n
  let lo := sp.1 + h.chunk * c.perChunk
  if c.waitVerdict then b
  else if !c.incoming.contains h.shard || decide (c.chunksOf h.shard ≤ h.chunk) || h.count != cnt
      || decide (m.payload.length < 64 + (if c.bx then 36 * cnt else 4 * cnt)) || decide (c.window + c.freed ≤ c.rx) then
    collError c half .proto b
  else
    let c := { c with rx := c.rx + 1 }
    let data := (m.payload.drop 64).take (if c.bx then 36 * cnt else 4 * cnt)
    let u := ups.foldl chunkUpset (data, ((bytePoison m.poison m.payload.length).drop 64).take data.length, 0, 0)
    let body := u.1
    let ps := u.2.1
    let b := countRed half u.2.2.1 u.2.2.2 b
    let raw : ChunkOut := ⟨h.shard, h.chunk, h.contrib, cnt, body, linePoison ps, some half⟩
    let queued := c.sendQ.length
    let r : Except CollErr (Coll × Block) :=
      if c.kind = 1 then
        let blocks := chunkList 36 (cnt + 1) body
        if c.bx && blocks.any (bxBad c.agreed) then .error .proto
        else
          let part : List Partial := if c.bx then
              ((blocks.flatMap bxValues).take n).map (fun v => (v, round32 v, false))
            else (toWords body ps).map (fun w => (fp32 w.1, w))
          let starts := blocks.map (fun k => (byteAt k 32, (byteAt k 33).testBit 0))
          let c := if c.bx && h.shard == c.pos then
              { c with rescaled := c.rescaled + (starts.filter (fun s => s.2)).length,
                       maxExp := starts.foldl (fun a s => max a s.1) c.maxExp }
            else c
          if c.bx && ps.any id && (h.shard == c.pos || !c.absentMe) then .error .poison
          else match reduceStep b c lo n h.contrib part with
          | .error e => .error e
          | .ok (c, contrib, ws) => reduceOut c h.shard h.chunk contrib ws (if h.contrib = 0 then [] else starts) (!c.absentMe) raw b
      else
        match collDeliver c lo (toWords body ps) b with
        | .error e => .error e
        | .ok (c, b) =>
          let fwd := match c.kind with
            | 2 => decide (c.succOf c.pos ≠ some h.shard)
            | 3 => decide (c.succOf c.pos ≠ some c.root) && (c.succOf c.pos).isSome
            | _ => false
          .ok (if fwd then { c with sendQ := c.sendQ ++ [raw] } else c, b)
    match r with
    | .error e => collError c half e b
    | .ok (c, b) =>
      -- a chunk that goes on keeps its buffer, and its engine, until it is sent
      if queued < c.sendQ.length then
        let q := c.sendQ.mapIdx (fun i o => if i = queued then { o with rxHalf := some half } else o)
        pumpStore { c with sendQ := q } b
      else
        let p := freeBuffer c b
        pumpStore p.1 p.2

/-- A received GRANT (R320): the cumulative count of the successor. -/
def useGrant (c : Coll) (h : ChunkHdr) (b : Block) : Block :=
  let d := (h.chunk + 2 ^ 32 - c.granted % 2 ^ 32) % 2 ^ 32
  pumpStore (if d < 2 ^ 31 then { c with granted := c.granted + d } else c) b

/-- A finished position takes its part in closing (R335): the closer starts CLOSE, any other forwards the CLOSE it holds. -/
def collFinish (q n : Nat) (b : Block) : Block :=
  match collOf b q n with
  | none => b
  | some c =>
    if !c.finished then b
    else if c.pos = c.closer then
      if c.closeSent then b
      else if c.nextLap = none then collComplete c b
      else lapSend c 5 (setColl { c with closeSent := true } b)
    else if c.closeSeen && !c.closeSent then lapSend c 5 (setColl { c with closeSent := true } b)
    else b

/-- A received CLOSE (R335): the closer closes the bucket; a finished position forwards it; any other holds it. -/
def useClose (c : Coll) (b : Block) : Block :=
  if c.pos = c.closer then
    if c.closeSent then lapSend c 6 (collComplete c b) else b
  else if c.finished then lapSend c 5 (setColl { c with closeSent := true, closeSeen := true } b)
  else setColl { c with closeSeen := true } b

/-- A received CLOSED (R335, R336): keeps the results, completes and forwards unless the closer is next. -/
def useClosed (c : Coll) (b : Block) : Block :=
  let b := collComplete { c with waitVerdict := false } b
  if c.nextLap = some c.closer then b else lapSend c 6 b

/-- A received ABORT marker (R338): completes with its status and is forwarded once, away from its sender. The DETAIL names the position that
started the abort, or the root (15 R435). -/
def useAbort (m : Msg) (c : Coll) (h : ChunkHdr) (b : Block) : Block :=
  let b := bump (fRED_CNT2_ABORTS (bucketRed b)) 1 b
  let b := setColl { c with complete := true, marker := true, sendQ := [] } b
  let st := h.chunk % 256
  collAbort c st (if st = 0x3E then c.root else if st = 0x3C then 0 else h.pos) (forwardMarker c m h b)

/-- Restarts a bucket in its new round (R336): held chunks are dropped, a new window is granted, sending begins at chunk 0. -/
def restartRound (c : Coll) (b : Block) : Block :=
  let red := bucketRed b
  let b := raise (0x14A + red) 128 (bump (fRED_CNT2_RESTARTS red) 1 b)
  -- sums counted stay counted; what is delivered is delivered again
  let c := { c with sendQ := [], sent := 0, rx := 0, freed := 0, told := 0, delivered := 0, nan := 0,
                    rescaled := 0, maxExp := c.agreed, closeSeen := false, closeSent := false, waitVerdict := false,
                    restarted := true, marker := false, contrib := 0, east := c.eastShare b }
  if c.kind = 3 ∧ c.failed.contains c.root then collFail c 0x3E c.root 0x3E (setColl c b)
  else startRound c (setColl c b)

/-- A received RESTART verdict (R336). -/
def useRestart (c : Coll) (b : Block) : Block :=
  if !c.waitVerdict then b
  else
    let b := if c.nextLap = some c.closer then b else lapSend c 7 b
    restartRound c b

/-- Messages of a newer round that were held meet the round again (R319): those of the round now are used. -/
def replayHeld (q n : Nat) (b : Block) : Block :=
  match collOf b q n with
  | none => b
  | some c => c.held.foldl (fun b m =>
      if (chunkHdr m.2.payload).kind = 2 then classify m.1 m.2 [2] (fun c h => c.succOf c.pos == some h.pos) useGrant b
      else classify m.1 m.2 [7] (fun c h => c.prevLap == some h.pos) (fun c _ => useRestart c) b) (setColl { c with held := [] } b)

/-- A failure declaration meets one running bucket (R336): the new round starts with nothing granted, and held messages of it
are used. -/
def declareColl (dev : Nat) (b : Block) (c : Coll) : Block :=
  match posOf c.drift dev with
  | none => b
  | some p =>
    let c' := { c with round := c.round + 1, failed := c.failed ++ [p], sendQ := [], sent := 0, granted := 0, waitVerdict := true }
    if c.complete then
      if c.closedHere ∧ c'.pos = c'.closer then lapSend c' 6 (setColl c' b) else setColl c' b
    else if c'.pos = c'.closer then
      let b := lapSend c' 7 (setColl c' b)
      replayHeld c.queue c.count (restartRound c' b)
    else replayHeld c.queue c.count (setColl c' b)

/-- Every bucket of this device leaves the gang (R336): COLL_EXCLUDED. -/
def excludeAll (b : Block) : Block :=
  b.colls.foldl (fun b c => if c.complete then b else
    collAbort c 0x3D 0 (setColl { c with complete := true, sendQ := [] } b)) b

/-- A command that a fence or an abort ended sends its marker and gives up its bucket (R338). -/
def collAborted (b : Block) : Block :=
  b.colls.foldl (fun b c =>
    if c.complete then b
    else match findCmd b c.queue c.count with
    | some m => if m.stage == .finished then collFail c m.status m.detail 0x3F b else b
    | none => setColl { c with complete := true } b) b

/-- A wait report (R337): the device that the command waits on; a position without a predecessor on the drift waits on the one before it on
the closing lap. -/
def waitsOn (c : Coll) : Nat :=
  let p := if !c.sendQ.isEmpty then c.succOf c.pos else (c.predOf c.pos).orElse (fun _ => c.prevLap)
  match p with
  | some p => c.drift.getD p 0xFFFF
  | none => 0xFFFF

end Sys2Proof.Machine
end

