-- ==== Sys2Proof/Machine/Sfu.lean ====
section
/-!
DEFINITION. The special-function unit (07 R170–R185): its tables, rebuilt from the exact functions by R175 and R184, and its
evaluation. The exact functions are taken to 512 fractional bits, far beyond what rounds a table point (log 24).
-/

namespace Sys2Proof.Machine

/-! ### Exact functions in 512-bit fixed point -/

/-- One in fixed point. -/
def fxOne : Nat := 2 ^ 512
/-- Product. -/
def fxMul (a b : Nat) : Nat := a * b / fxOne
/-- Quotient. -/
def fxDiv (a b : Nat) : Nat := a * fxOne / b

/-- Taylor sum of e^t from its `k`-th term on. -/
def fxExpTerms (t : Nat) : (fuel : Nat) → (k term : Nat) → Nat
  | 0, _, _ => 0
  | f + 1, k, term => term + fxExpTerms t f (k + 1) (fxMul term t / (k + 1))

/-- Squares `n` times. -/
def fxSquares : (n : Nat) → Nat → Nat
  | 0, x => x
  | n + 1, x => fxSquares n (fxMul x x)

/-- e^x for x ≥ 0. -/
def fxExp (x : Nat) : Nat := fxSquares 16 (fxExpTerms (x / 2 ^ 16) 64 0 fxOne)

/-- z + z³/3 + z⁵/5 + …, or with alternating signs. -/
def fxAtanTerms (z2 : Nat) (alt : Bool) : (fuel : Nat) → (k : Nat) → (pow : Int) → Int
  | 0, _, _ => 0
  | f + 1, k, pow => pow / (2 * k + 1) + fxAtanTerms z2 alt f (k + 1) (if alt then -(pow * z2 / fxOne) else pow * z2 / fxOne)

/-- Inverse hyperbolic tangent for z ≤ 1/3. -/
def fxAtanh (z : Nat) : Nat := (fxAtanTerms (fxMul z z) false 180 0 z).toNat

/-- ln 2. -/
def fxLn2 : Nat := 2 * fxAtanh (fxOne / 3)

/-- ln y for y ≥ 1. -/
def fxLn (y : Nat) : Nat :=
  let k := bitLen y - 513
  let m := y / 2 ^ k
  k * fxLn2 + 2 * fxAtanh (fxDiv (m - fxOne) (m + fxOne))

/-- π. -/
def fxPi : Nat :=
  let atan := fun n => fxAtanTerms (fxOne / (n * n)) true 260 0 (fxOne / n : Nat)
  (16 * atan 5 - 4 * atan 239).toNat

/-- Square root. -/
def fxSqrt (x : Nat) : Nat := isqrt (x * fxOne)

/-- Terms of the error function's series. -/
def fxErfTerms (x2 : Nat) : (fuel : Nat) → (k term : Nat) → Nat
  | 0, _, _ => 0
  | f + 1, k, term => term + fxErfTerms x2 f (k + 1) (2 * fxMul term x2 / (2 * k + 3))

/-- erf x for 0 ≤ x ≤ 12. -/
def fxErf (x : Nat) : Nat :=
  let s := fxErfTerms (fxMul x x) 1200 0 x
  fxMul (fxDiv (2 * fxOne) (fxSqrt fxPi)) (fxDiv s (fxExp (fxMul x x)))

/-- 1 ÷ (1 + e^(−v)) for v of a sign and magnitude. -/
def fxSigmoid (neg : Bool) (v : Nat) : Nat :=
  let e := fxExp v
  if neg then fxDiv fxOne (fxOne + e) else fxDiv e (fxOne + e)

/-! ### Functions (R170) -/

/-- The exact |f| of a direct function at ±a, and whether f is negative there; `a` in fixed point. -/
def directAt (code : Nat) (neg : Bool) (a : Nat) : Bool × Nat :=
  match code with
  | 5 => let e := fxExp (2 * a); (neg, fxDiv (e - fxOne) (e + fxOne))
  | 6 => (false, fxSigmoid neg a)
  | 7 => (neg, fxMul a (fxSigmoid neg a))
  | 8 =>
    let r := fxErf (fxDiv a (fxSqrt (2 * fxOne)))
    (neg, fxMul a (if neg then fxOne - r else fxOne + r) / 2)
  | 9 =>
    let y := fxMul (fxSqrt (fxDiv (2 * fxOne) fxPi)) (a + fxMul (44715 * fxOne / 1000000) (fxMul a (fxMul a a)))
    (neg, fxMul a (fxSigmoid neg (2 * y)))
  | 10 => (neg, fxErf a)
  | _ =>
    let e := fxExp a
    (false, if neg then fxLn (fxOne + fxDiv fxOne e) else a + fxLn (fxOne + fxDiv fxOne e))

/-- RN of R175: a fixed-point value rounded to FP32. -/
def fxRn (s : Bool × Nat) : Fp := fp32 (round32 (.fin s.1 s.2 (-512)))

/-- E_HI of a function and side (R178). -/
def directHi (code : Nat) (neg : Bool) : Int :=
  match code with
  | 5 => 4
  | 6 => 7
  | 7 => if neg then 7 else 5
  | 8 => if neg then 4 else 3
  | 9 => if neg then 4 else 3
  | 10 => 2
  | _ => if neg then 7 else 4

/-- TANH and ERF are odd (R178). -/
def directOdd (code : Nat) : Bool := code == 5 || code == 10

/-- A power of two. -/
def fpPow2 (e : Int) : Fp := .fin false 1 e

/-- The limit of a side (R178); `x` is the input. -/
def directLimit (code : Nat) (neg : Bool) (x : Fp) : Fp :=
  match code, neg with
  | 5, false => fpPow2 0
  | 5, true => .fin true 1 0
  | 6, false => fpPow2 0
  | 6, true => .fin false 0 0
  | 10, false => fpPow2 0
  | 10, true => .fin true 1 0
  | 11, true => .fin false 0 0
  | _, true => .fin true 0 0
  | _, false => x

/-- ν, κ and λ of R178. -/
def fpNu : Fp := fxRn (false, fxDiv fxOne (fxSqrt (2 * fxPi)))
/-- 2/√π. -/
def fpKappa : Fp := fxRn (false, fxDiv (2 * fxOne) (fxSqrt fxPi))
/-- ln 2. -/
def fpLambda : Fp := fxRn (false, fxLn2)

/-- z0, z1 and z2 of R178. -/
def directNear (code : Nat) : Fp × Fp × Fp :=
  let zero : Fp := .fin false 0 0
  match code with
  | 5 => (zero, fpPow2 0, zero)
  | 6 => (fpPow2 (-1), fpPow2 (-2), zero)
  | 7 => (zero, fpPow2 (-1), fpPow2 (-2))
  | 8 => (zero, fpPow2 (-1), fpNu)
  | 9 => (zero, fpPow2 (-1), fpNu)
  | 10 => (zero, fpKappa, zero)
  | _ => (fpLambda, fpPow2 (-1), fpPow2 (-3))

/-- LOG2E and LN2 of R173 and R174. -/
def fpLog2e : Fp := .fin false 0x171547652B830 (-48)
/-- ln 2 to 48 bits. -/
def fpLn2 : Fp := .fin false 0xB17217F7D1CF (-48)

/-! ### Segments (R172–R176, R184) -/

/-- A segment's points: P0, PM (none in a Psidy table) and P1. -/
structure SegPts where
  p0 : Fp
  pm : Option Fp
  p1 : Fp
  deriving DecidableEq, Repr

/-- Bits that index a segment in its octave: 3, or 6 in Psidy mode (R184). -/
def segBits (psidy : Bool) : Nat := if psidy then 6 else 3

/-- (2^k + j)·2^(E−k) in fixed point, with one further bit for midpoints: `num` counts half segments. -/
def segArg (psidy : Bool) (e : Int) (num : Nat) : Nat :=
  let k := segBits psidy
  (2 ^ (k + 1) + num) * 2 ^ (511 + e - k).toNat

/-- The points of segment (E, j) of a tabulated function `g`, whose last segment ends at `last` at exponent `hi`. -/
def segPoints (psidy : Bool) (g : Nat → Fp) (last : Fp) (hi e : Int) (j : Nat) : SegPts :=
  let k := segBits psidy
  let top := if e + 1 = hi ∧ j + 1 = 2 ^ k then last else g (segArg psidy e (2 * j + 2))
  ⟨g (segArg psidy e (2 * j)), if psidy then none else some (g (segArg psidy e (2 * j + 1))), top⟩

/-- A small integer as a value. -/
def fpInt (i : Int) : Fp := .fin (decide (i < 0)) i.natAbs 0

/-- The clamp and the zero rule of R176. -/
def segClamp (p : Fp) (s : SegPts) : Fp :=
  let pts := [s.p0, s.p1] ++ (match s.pm with
    | some m => [m]
    | none => [])
  let lo := pts.foldl (fun a v => if fpLt v a then v else a) s.p0
  let hi := pts.foldl (fun a v => if fpLt a v then v else a) s.p0
  let p := if fpLt p lo then lo else if fpLt hi p then hi else p
  if fpIsZero p then .fin (pts.all (fun v => fpIsZero v && fpSign v)) 0 0 else p

/-- The segment value at position d (R176, R184). -/
def segEval (s : SegPts) (d : Fp) : Fp :=
  let sub := fun a b => fpAdd a (fpNeg b)
  let linear := fpAdd s.p0 (fpMul (sub s.p1 s.p0) d)
  match s.pm with
  | none => segClamp linear s
  | some pm =>
    if fpEq pm s.p0 || fpEq pm s.p1 then segClamp linear s
    else
      let c1 := sub (fpAdd (fpMul (fpInt (-3)) s.p0) (fpMul (fpInt 4) pm)) s.p1
      let c2 := fpAdd (sub (fpMul (fpInt 2) s.p0) (fpMul (fpInt 4) pm)) (fpMul (fpInt 2) s.p1)
      segClamp (fpAdd s.p0 (fpAdd (fpMul c1 d) (fpMul c2 (fpMul d d)))) s

/-- Splits a magnitude m·2^e into (E, j, d) (R172, R173). -/
def segIndex (psidy : Bool) (m : Nat) (e : Int) : Int × Nat × Fp :=
  let k := segBits psidy
  let len := bitLen m - 1
  let f := (m - 2 ^ len) * 2 ^ k
  (e + len, f / 2 ^ len, .fin false (f % 2 ^ len) (-len))

/-- The tabulated function of a direct function's side. -/
def directG (code : Nat) (neg : Bool) (a : Nat) : Fp := fxRn (directAt code neg a)

/-- 2^r of R173. -/
def expG (a : Nat) : Fp := fxRn (false, fxExp (fxMul a fxLn2))
/-- log₂(1 + u) of R174. -/
def logG (a : Nat) : Fp := fxRn (false, fxDiv (fxLn (fxOne + a)) fxLn2)

/-- Clamps between two values. -/
def fpClamp (lo p hi : Fp) : Fp := if fpLt p lo then lo else if fpLt hi p then hi else p

/-- What the SFU gives: an FP32 word and its flags (R161, R179). -/
def sfuRound (p : Fp) : W32 × Nat :=
  let r := roundTo fmtFP32 ⟨p, false, 0⟩
  (BitVec.ofNat 32 r.1, r.2)

/-- A direct function (R172, R177, R178). -/
def sfuDirect (psidy : Bool) (code : Nat) (w : W32) (s : Bool) (m : Nat) (e : Int) : W32 × Nat :=
  let x : Fp := .fin s m e
  let odd := directOdd code
  let side := if odd then false else s
  if m = 0 then
    let z0 := (directNear code).1
    if fpIsZero z0 then (w, 0) else (round32 z0, 0)
  else if fpLt (fpAbs x) (fpPow2 (-12)) then
    let z := directNear code
    let quad := if psidy then .fin false 0 0 else fpMul z.2.2 (fpMul x x)
    let p := fpAdd z.1 (fpAdd (fpMul z.2.1 x) quad)
    let first := fun neg => directG code neg (fxOne / 2 ^ 12)
    sfuRound (fpClamp (if odd then fpNeg (first false) else first true) p (first false))
  else if !fpLt (fpAbs x) (fpPow2 (directHi code s)) then (round32 (directLimit code s x), 0)
  else
    let (ex, j, d) := segIndex psidy m e
    let hi := directHi code side
    let last := directLimit code side (.fin side 1 hi)
    let p := segEval (segPoints psidy (directG code side) (fp32 (round32 last)) hi ex j) d
    sfuRound (if odd && s then fpNeg p else p)

/-- An exponential function (R173, R177, R179). -/
def sfuExp (psidy : Bool) (t : Fp) : W32 × Nat :=
  match t with
  | .fin s m e =>
    if !fpLt t (.fin false 128 0) then (0x7F800000#32, flOverflow)
    else if fpLt t (.fin true 152 0) then (0#32, flUnderflow)
    else
      let k := (-e).toNat
      let i : Int := if s then -((m <<< e.toNat : Nat) : Int) else ((m <<< e.toNat : Nat) : Int)
      let n := i / (2 ^ k : Nat)
      let r := (i % (2 ^ k : Nat)).toNat
      let rv : Fp := .fin false r (-k)
      let p := if r = 0 then fpPow2 0
        else if fpLt rv (fpPow2 (-20)) then
          fpClamp (fpPow2 0) (fpAdd (fpPow2 0) (fpMul rv fpLn2)) (expG (fxOne / 2 ^ 20))
        else
          let (ex, j, d) := segIndex psidy r (-k)
          segEval (segPoints psidy expG (fpPow2 1) 0 ex j) d
      sfuRound (fpScale p n)
  | .inf s => (if s then 0#32 else 0x7F800000#32, 0)
  | .nan => (0x7FC00000#32, 0)

/-- A logarithmic function of a positive finite value (R174, R177). -/
def sfuLog (psidy natural : Bool) (m : Nat) (e : Int) : W32 × Nat :=
  let len := bitLen m - 1
  let u := m - 2 ^ len
  let uv : Fp := .fin false u (-len)
  let p := if u = 0 then .fin false 0 0
    else if fpLt uv (fpPow2 (-20)) then fpClamp (.fin false 0 0) (fpMul uv fpLog2e) (logG (fxOne / 2 ^ 20))
    else
      let (ex, j, d) := segIndex psidy u (-len)
      segEval (segPoints psidy logG (fpPow2 0) 0 ex j) d
  let q := fpAdd (fpInt (e + len)) p
  sfuRound (if natural then fpMul q fpLn2 else q)

/-- Evaluates function `code` of an FP32 word (R170–R179, R184): the result and its flags. -/
def sfu (psidy : Bool) (code : Nat) (w : W32) : W32 × Nat :=
  match fp32 w with
  | .nan => (0x7FC00000#32, 0)
  | .inf s =>
    if code = 1 ∨ code = 2 then sfuExp psidy (.inf s)
    else if code = 3 ∨ code = 4 then (if s then (0x7FC00000#32, flInvalid) else (w, 0))
    else (round32 (directLimit code s (.inf s)), 0)
  | .fin s m e =>
    if code = 1 then sfuExp psidy (.fin s m e)
    else if code = 2 then sfuExp psidy (fpMul (.fin s m e) fpLog2e)
    else if code = 3 ∨ code = 4 then
      if m = 0 then (0xFF800000#32, 0)
      else if s then (0x7FC00000#32, flInvalid)
      else sfuLog psidy (code == 4) m e
    else sfuDirect psidy code w s m e

/-- Function codes that exist, and in Psidy mode (R170). -/
def sfuCodeOk (psidy : Bool) (code : Nat) : Bool :=
  decide (1 ≤ code ∧ code ≤ 11) && !(psidy && (code == 7 || code == 9 || code == 11))

end Sys2Proof.Machine
end

