-- ==== Sys2Proof/Machine/Lanes.lean ====
section
/-!
DEFINITION. Lane operations of a vector engine: instruction words, opcodes and their arithmetic (06 R148–R157, R161).
-/

namespace Sys2Proof.Machine

/-- A decoded stage or instruction word (R148). -/
structure LaneWord where
  op : Nat
  dst : Nat
  a : Nat
  b : Nat
  c : Nat
  deriving DecidableEq, Repr

/-- The fields of a word (R148). -/
def laneWord (w : Nat) : LaneWord where
  op := w % 64
  dst := w / 64 % 8
  a := w / 2 ^ 10 % 64
  b := w / 2 ^ 16 % 64
  c := w / 2 ^ 22 % 64

/-- Bits 9 and 31:28 of a word are reserved (R148). -/
def laneReserved (w : Nat) : Bool := w / 512 % 2 != 0 || w / 2 ^ 28 != 0

/-- Operands that an opcode reads: a alone, a with an argument in SRC_B, a and b, or a, b and c (R148, R150). -/
inductive Arity where
  | one | oneArg | two | three
  deriving DecidableEq, Repr

/-- The opcode table (R150): operands, allowed in frond chains, allowed packed. -/
def opcodeOf (op : Nat) : Option (Arity × Bool × Bool) :=
  match op with
  | 0x01 | 0x02 | 0x03 | 0x06 | 0x07 | 0x0B | 0x10 | 0x11 | 0x12 => some (.two, true, true)
  | 0x04 | 0x05 | 0x0A | 0x0F | 0x14 => some (.three, true, true)
  | 0x08 | 0x09 | 0x0C | 0x13 | 0x24 => some (.one, true, true)
  | 0x0D | 0x0E => some (.oneArg, true, true)
  | 0x18 | 0x19 | 0x1A | 0x1B | 0x1C | 0x1D | 0x1E | 0x1F | 0x20 | 0x21 => some (.two, false, false)
  | 0x22 | 0x23 => some (.one, false, false)
  | _ => none

/-- The operand codes that a word reads (R148). -/
def LaneWord.reads (w : LaneWord) : List Nat :=
  match opcodeOf w.op with
  | some (.one, _, _) => [w.a]
  | some (.oneArg, _, _) => [w.a]
  | some (.two, _, _) => [w.a, w.b]
  | some (.three, _, _) => [w.a, w.b, w.c]
  | none => []

/-- An argument of CVTR that R151 allows: the format, RND in bit 4, OVF_ALT in bit 5. -/
def cvtrOk (b : Nat) : Bool :=
  decide (b % 16 ≤ 6) && !(b / 32 % 2 == 1 && (b % 16 == 5 || b % 16 == 6))

/-- The argument of a word fits its opcode (R151, 07 R170). -/
def LaneWord.argOk (psidy : Bool) (w : LaneWord) : Bool :=
  match w.op with
  | 0x0D => sfuCodeOk psidy w.b
  | 0x0E => cvtrOk w.b
  | _ => true

/-- Unused operand fields are zero (R148). -/
def LaneWord.unusedZero (w : LaneWord) : Bool :=
  match opcodeOf w.op with
  | some (.one, _, _) => w.b == 0 && w.c == 0
  | some (.oneArg, _, _) => w.c == 0
  | some (.two, _, _) => w.c == 0
  | _ => true

/-- What a lane operation gives. -/
structure LaneOut where
  w : W32
  fl : Nat := 0
  nans : Nat := 0
  ovfs : Nat := 0
  deriving DecidableEq, Repr

/-- Rounds an exact result once: to FP32, or to BF16 in packed use, held as its FP32 widening (R150, R157). -/
def laneRound (packed : Bool) (x : XR) : LaneOut :=
  if packed then
    let r := roundTo fmtBF16 x
    ⟨BitVec.ofNat 32 (r.1 * 65536), r.2, 0, 0⟩
  else
    let r := roundTo fmtFP32 x
    ⟨BitVec.ofNat 32 r.1, r.2, 0, 0⟩

/-- A value that needs no rounding. -/
def laneExact (packed : Bool) (x : Fp) : LaneOut := ⟨(laneRound packed ⟨x, false, 0⟩).w, 0, 0, 0⟩

/-- INT32 1 or 0; in packed use the halfword 0x0001 or 0 (log 25). -/
def laneBool (packed b : Bool) : LaneOut :=
  ⟨if b then (if packed then 0x10000#32 else 1#32) else 0#32, 0, 0, 0⟩

/-- An FP32 value to INT32 (R150, R151). -/
def toInt32 (w : W32) : LaneOut :=
  match fp32 w with
  | .nan => ⟨0#32, flInvalid, 0, 0⟩
  | .inf s => ⟨if s then 0x80000000#32 else 0x7FFFFFFF#32, flSat, 0, 0⟩
  | .fin s m e =>
    let r := roundNearest (bitLen m + e.natAbs + 1) 0 m e false
    let v := r.1 <<< r.2.1.toNat
    if s then (if 2147483648 < v then ⟨0x80000000#32, flSat, 0, 0⟩ else ⟨BitVec.ofInt 32 (-(v : Int)), 0, 0, 0⟩)
    else if 2147483647 < v then ⟨0x7FFFFFFF#32, flSat, 0, 0⟩ else ⟨BitVec.ofNat 32 v, 0, 0, 0⟩

/-- CVTR (R150, R151): rounds to a format, then widens. -/
def laneCvtr (packed : Bool) (arg r : Nat) (a : W32) : LaneOut :=
  let code := arg % 16
  let x := fp32 a
  let o := if code = 0 then
      { w := if fpIsNaN x then 0x7FC00000 else a.toNat, nans := b2n (fpIsNaN x) }
    else convertCode code ⟨if arg.testBit 4 then some r else none, arg.testBit 5⟩ x
  let v := if code = 0 then x else valueOf code o.w
  let w := if code = 0 ∧ !packed then BitVec.ofNat 32 o.w else (laneExact packed v).w
  ⟨w, o.fl ||| (if fpIsNaN v && !fpIsNaN x then flInvalid else 0), o.nans, o.ovfs⟩

/-- The result of an opcode (R150, R151, R157). `r` holds the 16 random bits of CVTR. -/
def laneOp (psidy packed : Bool) (op arg r : Nat) (a b c : W32) : LaneOut :=
  let x := fp32 a
  let y := fp32 b
  let z := fp32 c
  match op with
  | 0x01 => laneRound packed (xAdd x y)
  | 0x02 => laneRound packed (xAdd x (fpNeg y))
  | 0x03 => laneRound packed (xMul x y)
  | 0x04 => laneRound packed (xFma x y z)
  | 0x05 => laneRound packed (xFma x y (fpNeg z))
  | 0x06 => laneExact packed (fpMax x y)
  | 0x07 => laneExact packed (fpMin x y)
  | 0x08 => laneExact packed (fpAbs x)
  | 0x09 => laneExact packed (fpNeg x)
  | 0x0A => laneExact packed (fpMin (fpMax x y) z)
  | 0x0B => laneRound packed (xDiv x y)
  | 0x0C => laneRound packed (xSqrt x)
  | 0x0D =>
    let s := sfu psidy arg a
    if packed then
      let o := laneRound true ⟨fp32 s.1, false, 0⟩
      ⟨o.w, s.2 ||| o.fl, 0, 0⟩
    else ⟨s.1, s.2, 0, 0⟩
  | 0x0E => laneCvtr packed arg r a
  | 0x0F => if fpLt y x then ⟨c, 0, 0, 0⟩ else ⟨0#32, 0, 0, 0⟩
  | 0x10 => laneBool packed (fpEq x y)
  | 0x11 => laneBool packed (fpLt x y)
  | 0x12 => laneBool packed (fpLe x y)
  | 0x13 => laneBool packed (fpIsNaN x)
  | 0x14 => ⟨if c = 0#32 then b else a, 0, 0, 0⟩
  | 0x18 => ⟨a + b, 0, 0, 0⟩
  | 0x19 => ⟨a - b, 0, 0, 0⟩
  | 0x1A => ⟨a * b, 0, 0, 0⟩
  | 0x1B => ⟨a &&& b, 0, 0, 0⟩
  | 0x1C => ⟨a ||| b, 0, 0, 0⟩
  | 0x1D => ⟨a ^^^ b, 0, 0, 0⟩
  | 0x1E => ⟨a <<< (b.toNat % 32), 0, 0, 0⟩
  | 0x1F => ⟨a >>> (b.toNat % 32), 0, 0, 0⟩
  | 0x20 => ⟨a.sshiftRight (b.toNat % 32), 0, 0, 0⟩
  | 0x21 => laneBool false (decide (a.toInt < b.toInt))
  | 0x22 => ⟨round32 (fpInt a.toInt), 0, 0, 0⟩
  | 0x23 => toInt32 a
  | 0x24 => ⟨a, 0, 0, 0⟩
  | _ => ⟨a, 0, 0, 0⟩

end Sys2Proof.Machine
end

