-- ==== Sys2Proof/Machine/Kernel.lean ====
section
/-!
DEFINITION. What a kernel-class command says: descriptor, stream block, stream programs, VE image and tables (05 R133, 06 R144–R148,
07 R186, 08 R208, 09 R228–R246, 13 R366).
-/

namespace Sys2Proof.Machine

/-! ### Descriptor (09 R242, 15 R427) -/

/-- COPY, GATHER and SCATTER. -/
def Cmd.isMoveClass (c : Cmd) : Bool := c.cls == 2 || c.cls == 3 || c.cls == 4
/-- KERNEL, SCAN and the move classes. -/
def Cmd.isKernelClass (c : Cmd) : Bool := decide (1 ≤ c.cls ∧ c.cls ≤ 5)
/-- OPU_CTL (05 R133). -/
def Cmd.opuCtl (c : Cmd) : Nat := if c.isMoveClass then 0 else fieldAt c.desc 0x10 8
/-- VE_CTL (06 R144). -/
def Cmd.veCtl (c : Cmd) : Nat := if c.isMoveClass then 0 else fieldAt c.desc 0x18 8
/-- STREAM_VA. -/
def Cmd.streamVa (c : Cmd) : Nat := if c.isMoveClass then fieldAt c.desc 0x10 8 else fieldAt c.desc 0x20 8
/-- STAGES bit 0. -/
def Cmd.hasOpu (c : Cmd) : Bool := !c.isMoveClass && byteAt c.desc 0x2C % 2 == 1
/-- Participating clusters, ascending; a cluster's rank is its place (R230). -/
def Cmd.clusters (c : Cmd) : List Nat := bitsOf c.mask 32
/-- Number of clusters in the command. -/
def Cmd.nclus (c : Cmd) : Nat := c.clusters.length

/-- A_FMT. -/
def Cmd.aFmt (c : Cmd) : Nat := c.opuCtl % 16
/-- W_FMT. -/
def Cmd.wFmt (c : Cmd) : Nat := c.opuCtl / 16 % 16
/-- TRANS. -/
def Cmd.trans (c : Cmd) : Bool := c.opuCtl.testBit 8
/-- ACC_INIT. -/
def Cmd.accInit (c : Cmd) : Nat := c.opuCtl / 2 ^ 9 % 4
/-- DESCALE. -/
def Cmd.descale (c : Cmd) : Bool := c.opuCtl.testBit 11
/-- Participating OPUs of each cluster, ascending. -/
def Cmd.opus (c : Cmd) : List Nat := bitsOf (c.opuCtl / 2 ^ 12 % 16) 4
/-- DRAIN_DST of OPU i: 0 VE 0, 1 VE 1, 2 stream engine. -/
def Cmd.drainDst (c : Cmd) (i : Nat) : Nat := c.opuCtl / 2 ^ (16 + 2 * i) % 4
/-- A_DS. -/
def Cmd.aDs (c : Cmd) : Bool := c.opuCtl.testBit 24
/-- W_DS. -/
def Cmd.wDs (c : Cmd) : Bool := c.opuCtl.testBit 25
/-- A_REC. -/
def Cmd.aRec (c : Cmd) : Nat := c.opuCtl / 2 ^ 32 % 4096
/-- W_REC. -/
def Cmd.wRec (c : Cmd) : Nat := c.opuCtl / 2 ^ 48 % 4096
/-- INT8 operands. -/
def Cmd.int8 (c : Cmd) : Bool := c.aFmt == 6
/-- MODE: 0 NONE, 1 FROND, 2 PROGRAM, 3 ROWSTAT, 4 SCAN. -/
def Cmd.mode (c : Cmd) : Nat := c.veCtl % 8
/-- Participating VEs of each cluster. -/
def Cmd.ves (c : Cmd) : List Nat := if c.mode = 0 then [] else bitsOf (c.veCtl / 8 % 4) 2
/-- IMAGE_VA. -/
def Cmd.imageVa (c : Cmd) : Nat := c.veCtl / 64 % 2 ^ 46 * 64
/-- A pure move (R252). -/
def Cmd.isMove (c : Cmd) : Bool := !c.hasOpu && c.mode == 0

/-- The operand pairs of 05 R111. -/
def pairOk (a w : Nat) : Bool :=
  let fp8 := fun f => f == 3 || f == 4
  let mx8 := fun f => f == 8 || f == 9
  (a == 1 && w == 1) || (a == 2 && w == 2) || (fp8 a && fp8 w) || (mx8 a && mx8 w) || (a == 6 && w == 6)
    || (a == 5 && w == 5) || (a == 10 && w == 10) || ((fp8 a || mx8 a) && w == 7)

/-- Steps in a group (05 R112). -/
def Cmd.groupSteps (c : Cmd) : Nat := if c.wFmt = 5 ∨ c.wFmt = 10 ∨ c.wFmt = 7 then 2 else 1
/-- BF16 and FP16 groups hold the feeders for two cycles (05 R112). -/
def Cmd.slowGroup (c : Cmd) : Bool := c.aFmt == 1 || c.aFmt == 2

/-- Checks of OPU_CTL and VE_CTL (05 R111 R119 R127 R133 R134, 06 R144 R145). -/
def ctlChecks (c : Cmd) : List (Nat × Bool) :=
  if c.isMoveClass then []
  else
    let o := c.opuCtl
    let f := fun x => x == 3 || x == 4 || x == 5
    let opuOk :=
      if !c.hasOpu then o == 0
      else pairOk c.aFmt c.wFmt && decide (c.accInit ≤ 1) && !(c.accInit == 1 && c.int8) && !c.opus.isEmpty
        && (List.range 4).all (fun i => c.drainDst i != 3) && o / 2 ^ 26 % 64 == 0 && o / 2 ^ 44 % 16 == 0 && o / 2 ^ 60 == 0
        && (!c.trans || [1, 2, 3, 4, 5].contains c.wFmt) && (!c.aDs || f c.aFmt) && (!c.wDs || f c.wFmt)
        && c.opus.all (fun i => c.drainDst i == 2 || c.ves.contains (c.drainDst i))
    let v := c.veCtl
    let veOk := decide (c.mode ≤ 4) && (if c.cls = 5 then c.mode == 4 else c.mode != 4) && !v.testBit 5 && v / 2 ^ 52 == 0
      && (c.mode == 0 || !c.ves.isEmpty)
    [(0x10, opuOk), (0x18, veOk)]

/-! ### Stream block (09 R228, R243) -/

/-- A tensor descriptor (R228). -/
structure Tensor where
  base : Nat
  scale : Nat
  aux : Nat
  pitch : Nat
  rows : Nat
  cols : Nat
  auxExt : Nat
  sa : Nat
  fmt : Nat
  layout : Nat
  axis : Bool
  za : Nat
  combine : Nat
  imode : Nat
  progOff : Nat
  progLen : Nat
  hoist : Bool
  shadow : Bool
  deriving DecidableEq, Repr

/-- Entry `e`'s descriptor. -/
def Cmd.tensor (c : Cmd) (e : Nat) : Tensor :=
  let d := (c.sblk.drop (0x40 + 64 * e)).take 64
  let f := byteAt d 0x30
  { base := fieldAt d 0 8, scale := fieldAt d 8 8, aux := fieldAt d 0x10 8, pitch := fieldAt d 0x18 8,
    rows := fieldAt d 0x20 4, cols := fieldAt d 0x24 4, auxExt := fieldAt d 0x28 4, sa := fieldAt d 0x2C 4,
    fmt := f % 16, layout := f / 16 % 4, axis := f.testBit 6, za := byteAt d 0x31, combine := byteAt d 0x32,
    imode := byteAt d 0x33, progOff := fieldAt d 0x34 2, progLen := byteAt d 0x36, hoist := byteAt d 0x37 % 2 == 1,
    shadow := (byteAt d 0x37).testBit 1 }

/-- VALID. -/
def Cmd.valid (c : Cmd) : Nat := byteAt c.sblk 0
/-- Present entries. -/
def Cmd.entries (c : Cmd) : List Nat := bitsOf c.valid 8
/-- W_REUSE. -/
def Cmd.reuse (c : Cmd) : Nat := fieldAt c.sblk 2 2
/-- K_LEN. -/
def Cmd.klen (c : Cmd) : Nat := fieldAt c.sblk 4 4
/-- POS_BASE of the stream block. -/
def Cmd.posBase (c : Cmd) : Nat := fieldAt c.sblk 8 8

/-- A stream instruction (R229). -/
structure SInstr where
  op : Nat
  part : Bool
  indir : Bool
  count : Nat
  drow : Int
  dcol : Int
  deriving DecidableEq, Repr

/-- Decodes 16 bytes (R229); COUNT_M1 is one less than the count. -/
def sInstr (w : Nat) : SInstr where
  op := w % 16
  part := w.testBit 4
  indir := w.testBit 5
  count := w / 256 % 2 ^ 24 + 1
  drow := sx32 (w / 2 ^ 64)
  dcol := sx32 (w / 2 ^ 32)

/-- Words of entry `e`'s program. -/
def Cmd.progWords (c : Cmd) (e : Nat) : List Nat :=
  let t := c.tensor e
  (List.range t.progLen).map (fun i => fieldAt c.sblk (t.progOff + 16 * i) 16)
/-- Entry `e`'s program. -/
def Cmd.prog (c : Cmd) (e : Nat) : List SInstr := (c.progWords e).map sInstr

/-- Bytes of the stream block: header, descriptors and programs. -/
def sblkLen (hdr : List Byte) : Nat :=
  (bitsOf (byteAt hdr 0) 8).foldl
    (fun m e => max m (fieldAt hdr (0x40 + 64 * e + 0x34) 2 + 16 * byteAt hdr (0x40 + 64 * e + 0x36))) 576

/-- Folds a program with the product of the counts of the open loops; a PART loop counts once. -/
def progFold (f : Nat → SInstr → Nat) (prog : List SInstr) : Nat :=
  (prog.foldl (fun (st : List Nat × Nat) x =>
    let m := match st.1 with
      | h :: _ => h
      | [] => 1
    match x.op with
    | 1 => ((m * (if x.part then 1 else x.count)) :: st.1, st.2 + f m x)
    | 2 => (st.1.drop 1, st.2)
    | _ => (st.1, st.2 + f m x)) ([], 0)).2

/-- Elements that one partition iteration emits, or the whole program without a PART loop (R246). -/
def progCount (prog : List SInstr) : Nat :=
  progFold (fun m x => if x.op = 3 ∨ x.op = 5 then m * x.count else 0) prog
/-- Iterations of the INDIR loop in one partition iteration (R233). -/
def progIndirs (prog : List SInstr) : Nat :=
  progFold (fun m x => if x.op = 1 ∧ x.indir then m * x.count else 0) prog
/-- COUNT of the PART loop. -/
def progPart (prog : List SInstr) : Option Nat :=
  match prog with
  | x :: _ => if x.op = 1 ∧ x.part then some x.count else none
  | [] => none

/-- Elements per partition iteration of entry `e`. -/
def Cmd.elems (c : Cmd) (e : Nat) : Nat := if c.valid.testBit e then progCount (c.prog e) else 0
/-- Partition iterations of the command; 1 without a PART loop. -/
def Cmd.parts (c : Cmd) : Nat :=
  match c.entries.filterMap (fun e => progPart (c.prog e)) with
  | n :: _ => n
  | [] => 1
/-- Partition iterations of the cluster of a rank (R245). -/
def Cmd.itersOf (c : Cmd) (rank : Nat) : Nat := if rank < c.parts then (c.parts - rank + c.nclus - 1) / c.nclus else 0

/-! ### VE image (06 R146, 07 R186, 08 R208) -/

/-- COUNT. -/
def Cmd.imgCount (c : Cmd) : Nat := fieldAt c.image 0 2
/-- FLAGS. -/
def Cmd.imgFlags (c : Cmd) : Nat := byteAt c.image 3
/-- PACK. -/
def Cmd.pack (c : Cmd) : Bool := c.imgFlags.testBit 0
/-- IN1_EN. -/
def Cmd.in1 (c : Cmd) : Bool := c.imgFlags.testBit 1
/-- OUT_TB. -/
def Cmd.outTb (c : Cmd) : Bool := c.imgFlags.testBit 2
/-- OUT_DS. -/
def Cmd.outDs (c : Cmd) : Bool := c.imgFlags.testBit 3
/-- ROWV_EN. -/
def Cmd.rowv (c : Cmd) : Bool := c.imgFlags.testBit 4
/-- COLV_EN. -/
def Cmd.colv (c : Cmd) : Bool := c.imgFlags.testBit 5
/-- Landing list of a stream. -/
def Cmd.land (c : Cmd) (stream : Nat) : List Nat := bitsOf (byteAt c.image (4 + stream)) 6
/-- TEMP. -/
def Cmd.temp (c : Cmd) : List Nat := bitsOf (byteAt c.image 6) 6
/-- OUT_BUF. -/
def Cmd.outBuf (c : Cmd) : Nat := byteAt c.image 7
/-- OUT_FMT's code. -/
def Cmd.outFmt (c : Cmd) : Nat := byteAt c.image 8 % 16
/-- OUT_AXIS. -/
def Cmd.outAxis (c : Cmd) : Bool := (byteAt c.image 8).testBit 4
/-- OUT_CVT. -/
def Cmd.outCvt (c : Cmd) : Nat := byteAt c.image 9
/-- OUT_REC. -/
def Cmd.outRec (c : Cmd) : Nat := fieldAt c.image 0x0A 2
/-- RAND_STREAM. -/
def Cmd.randStream (c : Cmd) : Nat := fieldAt c.image 0x0C 2
/-- CVT_STREAM. -/
def Cmd.cvtStream (c : Cmd) : Nat := fieldAt c.image 0x0E 2
/-- SUMMARY_VA. -/
def Cmd.summaryVa (c : Cmd) : Nat := fieldAt c.image 0x10 8
/-- A guard. -/
def Cmd.guard (c : Cmd) (i : Nat) : Nat := fieldAt c.image (0x18 + 8 * i) 8
/-- A constant register. -/
def Cmd.konst (c : Cmd) (i : Nat) : W32 := BitVec.ofNat 32 (fieldAt c.image (0x40 + 4 * i) 4)
/-- Offset of the first stage or instruction word. -/
def wordsOff (mode : Nat) : Nat := if mode = 4 then 0xC0 else 0x80
/-- Raw stage or instruction words. -/
def Cmd.rawWords (c : Cmd) : List Nat := (List.range c.imgCount).map (fun i => fieldAt c.image (wordsOff c.mode + 4 * i) 4)
/-- Decoded stage or instruction words. -/
def Cmd.words (c : Cmd) : List LaneWord := c.rawWords.map laneWord
/-- ROW_OP or SCAN_OP. -/
def Cmd.rowOp (c : Cmd) : Nat := byteAt c.image 0x28
/-- ROWSTAT HOLD, or SCAN HOLD. -/
def Cmd.hold (c : Cmd) : Bool := (byteAt c.image 0x29).testBit 0
/-- ROW_LEN, or SEQ_LEN. -/
def Cmd.rowLen (c : Cmd) : Nat := fieldAt c.image 0x2C 4
/-- EPS. -/
def Cmd.eps (c : Cmd) : W32 := BitVec.ofNat 32 (fieldAt c.image 0x30 4)
/-- A *_STATS operation. -/
def Cmd.isStats (c : Cmd) : Bool := decide (5 ≤ c.rowOp)
/-- REVERSE. -/
def Cmd.reverse (c : Cmd) : Bool := (byteAt c.image 0x29).testBit 1
/-- ONE_PASS. -/
def Cmd.onePass (c : Cmd) : Bool := (byteAt c.image 0x29).testBit 2
/-- MASK. -/
def Cmd.causal (c : Cmd) : Bool := (byteAt c.image 0x29).testBit 3
/-- CH_TILES. -/
def Cmd.chTiles (c : Cmd) : Nat := byteAt c.image 0x2A
/-- CARRY. -/
def Cmd.carryFlags (c : Cmd) : Nat := byteAt c.image 0x2B
/-- SRC of the carry: 0 identity, 1 memory, 2 drift. -/
def Cmd.carrySrc (c : Cmd) : Nat := c.carryFlags % 4
/-- SEG_LEN. -/
def Cmd.segLen (c : Cmd) : Nat := fieldAt c.image 0x30 4
/-- NCH. -/
def Cmd.nch (c : Cmd) : Nat := fieldAt c.image 0x34 4
/-- GROUP. -/
def Cmd.scanGroup (c : Cmd) : Nat := fieldAt c.image 0x38 2
/-- TALLY. -/
def Cmd.scanTally (c : Cmd) : Nat := fieldAt c.image 0x3C 4
/-- CARRY_IN_VA. -/
def Cmd.carryIn (c : Cmd) : Nat := fieldAt c.image 0x80 8
/-- CARRY_OUT_VA. -/
def Cmd.carryOut (c : Cmd) : Nat := fieldAt c.image 0x88 8
/-- POS_BASE of a SCAN image. -/
def Cmd.scanBase (c : Cmd) : Nat := fieldAt c.image 0x90 8
/-- KPOS_BASE. -/
def Cmd.keyBase (c : Cmd) : Nat := fieldAt c.image 0x98 8
/-- ATTN_SCORE. -/
def Cmd.isAttn (c : Cmd) : Bool := c.mode == 4 && c.rowOp == 5
/-- Bytes of the image: up to the last word that COUNT can name. -/
def imageLen (mode count : Nat) : Nat := wordsOff mode + 4 * min count 256

/-- A word uses an operand code. -/
def Cmd.usesCode (c : Cmd) (code : Nat) : Bool := c.words.any (fun w => w.reads.contains code)
/-- A conversion draws from CVT_STREAM: CVTR or the output with RND (R146). -/
def Cmd.drawsCvt (c : Cmd) : Bool :=
  c.mode != 0 && (c.outCvt % 2 == 1 || c.words.any (fun w => w.op == 0x0E && w.b.testBit 4))
/-- Lanes read RAND (R149). -/
def Cmd.drawsRand (c : Cmd) : Bool := c.mode != 0 && c.usesCode 0x0B
/-- Spore streams that the command draws from, with the image offset that names each. -/
def Cmd.streams (c : Cmd) : List (Nat × Nat) :=
  (if c.drawsRand then [(0x0C, c.randStream)] else []) ++ (if c.drawsCvt then [(0x0E, c.cvtStream)] else [])

/-! ### Spore and amax tables (04 R103, 13 R366) -/

/-- Reads an entry of a context's table, as pieces: none when it faults or lies outside HBM and staging. -/
def tableEntry (b : Block) (cx va n : Nat) : Option (List Byte × Bool) :=
  match vaPieces b cx va n false with
  | .error _ => none
  | .ok ps =>
    if ps.all (fun p => match rangeOf p.1 with
      | .hbm => true
      | .staging _ => true
      | _ => false)
    then some (ps.flatMap (fun p => memBytes b p.1 p.2), ps.any (fun p => anyPoison b p.1 p.2)) else none

/-- Entry `s` of a context's spore table. -/
def sporeEntry (b : Block) (cx s : Nat) : Option (List Byte × Bool) := tableEntry b cx ((ctx b cx).sporeVa + 64 * s) 64
/-- Record `j` of a context's amax table. -/
def amaxRecord (b : Block) (cx j : Nat) : Option (List Byte × Bool) := tableEntry b cx ((ctx b cx).amaxVa + 128 * j) 128

/-- Fields of an owner-table entry (09 R239). -/
def ownerChecks (d : List Byte) : List (Nat × Bool) :=
  [(2, decide (fieldAt d 2 2 < 2)), (4, zeroAt d 4 4), (0x10, (byteAt d 2).testBit 0 || zeroAt d 0x10 8), (0x18, zeroAt d 0x18 8)]

/-- The first failing field of a spore entry (R366). -/
def sporeChecks (d : List Byte) : List (Nat × Bool) :=
  let m := byteAt d 0x24
  let draws := fieldAt d 0x18 8
  [(0x10, decide (m ≠ 0) || zeroAt d 0x10 8),
   (0x18, if m = 1 then decide (1 ≤ draws ∧ draws ≤ 2 ^ 48) else decide (draws = 0)),
   (0x20, decide (m ≠ 0) || zeroAt d 0x20 4),
   (0x24, decide (m ≤ 1)),
   (0x25, zeroAt d 0x25 27)]

/-- The first failing field of an amax record (R103). -/
def amaxChecks (d : List Byte) : List (Nat × Bool) :=
  let f := byteAt d 0x43
  [(0x40, decide (byteAt d 0x40 ≠ 0x80 ∧ byteAt d 0x40 ≠ 0x81)), (0x41, decide (byteAt d 0x41 ≤ 7)), (0x42, decide (byteAt d 0x42 ≤ 15)),
   (0x43, decide (3 ≤ f ∧ f ≤ 5)), (0x54, zeroAt d 0x54 44)]

/-- MODE sequential of a spore entry. -/
def isSequential (d : List Byte) : Bool := byteAt d 0x24 == 1

/-- The image bytes of a command, as they stand in memory. -/
def imageNow (b : Block) (c : Cmd) : List Byte :=
  if c.mode = 0 then []
  else match vRead b c.ctx c.imageVa 4 with
    | .error _ => []
    | .ok h => match vRead b c.ctx c.imageVa (imageLen c.mode (fieldAt h.bytes 0 2)) with
      | .ok r => r.bytes
      | .error _ => []

/-- Sequential streams that a KERNEL command names (13 R367), from its image as it stands before its start. -/
def namedStreams (b : Block) (c : Cmd) : List Nat :=
  if c.cls ≠ 1 then []
  else
    let c := if c.image.isEmpty then { c with image := imageNow b c } else c
    ((c.streams.map (fun s => s.2)).filter (fun s => match sporeEntry b c.ctx s with
      | some e => isSequential e.1
      | none => false)).eraseDups

/-- The bucket ID that a SCAN with a drift carry holds (12 R315). -/
def scanBucket (b : Block) (c : Cmd) : Option Nat :=
  if c.cls ≠ 5 then none
  else
    let c := if c.image.isEmpty then { c with image := imageNow b c } else c
    if c.carrySrc = 2 ∨ c.carryFlags.testBit 3 then some (c.scanTally % 65536) else none

/-- The bucket ID of a command that takes part in a drift (12 R312, R315). -/
def bucketOf (b : Block) (c : Cmd) : Option Nat := if c.cls = 6 then some (fieldAt c.desc 0x34 2) else scanBucket b c

/-! ### Counts of tiles (09 R245, R246) -/

/-- Output tiles of each OPU in one partition iteration. -/
def Cmd.rounds (c : Cmd) : Nat := c.elems 0 / (128 * c.klen)
/-- Participating OPUs that drain to VE `v`, as places among the participants. -/
def Cmd.feeders (c : Cmd) (v : Nat) : List Nat :=
  (List.range c.opus.length).filter (fun i => c.drainDst (c.opus.getD i 0) == v)
/-- Participating OPUs that drain to some VE. -/
def Cmd.veFeeders (c : Cmd) : List Nat := (List.range c.opus.length).filter (fun i => c.drainDst (c.opus.getD i 0) != 2)
/-- Participating OPUs that drain to the stream engine. -/
def Cmd.seFeeders (c : Cmd) : List Nat := c.feeders 2
/-- IN0 tiles of one partition iteration. -/
def Cmd.inTiles (c : Cmd) : Nat := if c.hasOpu then c.rounds * c.veFeeders.length else c.elems 0 / 32768
/-- Tiles of a row block or key block: T of 07, or key tiles of 08 R220. -/
def Cmd.rowTiles (c : Cmd) : Nat := ceilDiv c.rowLen 256
/-- IN0 tiles that one row block takes (07 R188, 08 R220). -/
def Cmd.blockTiles (c : Cmd) : Nat :=
  if (c.mode = 3 ∧ c.isStats) ∨ c.hold then c.rowTiles else 2 * c.rowTiles
/-- Row blocks in one partition iteration. -/
def Cmd.blocksPerIter (c : Cmd) : Nat := c.inTiles / c.blockTiles
/-- Chunks of a scan. -/
def Cmd.chunks (c : Cmd) : Nat := ceilDiv c.rowLen 128
/-- Segments of a channel block. -/
def Cmd.segments (c : Cmd) : Nat := ceilDiv c.chunks c.segLen
/-- Channel blocks. -/
def Cmd.chBlocks (c : Cmd) : Nat := ceilDiv c.nch (256 * c.chTiles)
/-- Chunks of segment `s`. -/
def Cmd.segChunks (c : Cmd) (s : Nat) : Nat := min c.segLen (c.chunks - s * c.segLen)
/-- Deliveries of each tile of a segment. -/
def Cmd.scanPasses (c : Cmd) : Nat := if c.onePass ∨ c.hold then 1 else 2
/-- Segments that one partition iteration scans. -/
def Cmd.segsPerIter (c : Cmd) : Nat := ceilDiv (c.chBlocks * c.segments) c.parts
/-- Chunks of the longest segment. -/
def Cmd.segRoom (c : Cmd) : Nat := min c.segLen c.chunks
/-- A partition iteration that scans whole channel blocks: every iteration then has the tiles of its segments and no others. -/
def Cmd.wholeBlocks (c : Cmd) : Bool := decide (c.segsPerIter % max c.segments 1 = 0)
/-- Tiles of the segments of one partition iteration, with the room of the longest segment for each where iterations split channel blocks
(log 61). -/
def Cmd.segTiles (c : Cmd) : Nat :=
  if c.wholeBlocks then (List.range c.segsPerIter).foldl (fun a u => a + c.segChunks (u % max c.segments 1) * c.chTiles) 0
  else c.segsPerIter * c.segRoom * c.chTiles
/-- Tiles of one iteration for which the VE stage reads IN1, ROWV and COLV (R246). -/
def Cmd.readTiles (c : Cmd) : Nat :=
  match c.mode with
  | 3 => if c.isStats then 0 else c.blocksPerIter * c.rowTiles
  | _ => c.inTiles
/-- Result tiles of one iteration of the VE stage, or of the pure move. -/
def Cmd.resultTiles (c : Cmd) : Nat :=
  match c.mode with
  | 0 => ceilDiv (c.elems 6) 32768
  | 3 => if c.isStats then c.blocksPerIter else c.blocksPerIter * c.rowTiles
  | 4 => if c.isAttn then c.blocksPerIter * c.rowTiles else c.segTiles
  | _ => c.inTiles
/-- Every drained tile gives one result, so that results keep the output-tile order of the OPU stage (R250). -/
def Cmd.oneToOne (c : Cmd) : Bool := c.hasOpu && !(c.mode == 3 && c.isStats) && !(c.isAttn && !c.hold)
/-- O of R250: results of the VE stage and tiles drained to the stream engine. -/
def Cmd.tilesPerIter (c : Cmd) : Nat := c.resultTiles + (if c.hasOpu then c.rounds * c.seFeeders.length else 0)
/-- ℓ of the VE stage's result `i` of an iteration (R250). -/
def Cmd.veLocal (c : Cmd) (i : Nat) : Nat :=
  if c.oneToOne then
    let f := c.veFeeders
    i / max f.length 1 * c.opus.length + f.getD (i % max f.length 1) 0
  else i
/-- ℓ of a tile that OPU place `q` drains to the stream engine in round `u` of an iteration: beside statistics or attention results, which are
no tiles of the OPUs, it comes after all of the VEs' (log 176). -/
def Cmd.seLocal (c : Cmd) (u q : Nat) : Nat :=
  if c.oneToOne || c.mode == 0 then u * c.opus.length + q
  else c.resultTiles + u * c.seFeeders.length + (c.seFeeders.idxOf? q).getD 0

/-- Where tile `i` of a partition iteration of a SCAN of `passes` passes lies (08 R209): its unit in the iteration, pass, tile in the segment, and
the result tiles before that segment. Where iterations split channel blocks, each segment takes the room of the longest (log 61). A segment's second
delivery follows its first, before the next segment (log 173). -/
def Cmd.scanAt (c : Cmd) (passes i : Nat) : Nat × Nat × Nat × Nat :=
  let full := max (c.segRoom * c.chTiles) 1
  if !c.wholeBlocks then
    let w := i % (full * passes)
    (i / (full * passes), w / full, w % full, i / (full * passes) * full)
  else
    let blk := max (c.chunks * c.chTiles * passes) 1
    let r := i % blk
    let s := r / (full * passes)
    let n := max (c.segChunks s * c.chTiles) 1
    let w := r % (full * passes)
    (i / blk * c.segments + s, w / n, w % n, i / blk * (c.chunks * c.chTiles) + s * full)

/-! ### Checks (R232, R244–R246, 06 R147 R152 R154, 07 R187, 08 R211 R221) -/

/-- The lowest failing offset of a list of checks. -/
def minFail (l : List (Nat × Bool)) : Option Nat :=
  (l.filter (fun e => !e.2)).foldl (fun m e => match m with
    | none => some e.1
    | some x => some (min x e.1)) none

/-- The role conditions of R244: entry present exactly when true. -/
def Cmd.wants (c : Cmd) (e : Nat) : Bool :=
  match e with
  | 0 => true
  | 1 => c.hasOpu
  | 2 => c.hasOpu && c.accInit == 1
  | 3 => c.mode != 0 && c.in1
  | 4 => c.mode != 0 && c.rowv
  | 5 => c.mode != 0 && c.colv
  | 6 => c.isMove || (c.mode != 0 && !c.outTb)
  | _ => c.hasOpu && !c.seFeeders.isEmpty

/-- The format an entry must have, none where any storage format but CB4 and BXR8 serves (R244). -/
def Cmd.wantFmt (c : Cmd) (e : Nat) : Option Nat :=
  match e with
  | 0 => if c.hasOpu then some c.aFmt else if c.mode != 0 && c.pack then some 1 else none
  | 1 => some c.wFmt
  | 2 => some 0
  | 6 => if c.isMove then none else some c.outFmt
  | 7 => some 0
  | _ => if c.pack then some 1 else none

/-- Bits of a row of a row-major tensor, rounded up to bytes. -/
def rowBytes (t : Tensor) : Nat := (t.cols * fmtWidth t.fmt + 7) / 8

/-- Checks of one descriptor (R228, R97, R98, R237, R239). -/
def tensorChecks (c : Cmd) (e : Nat) : List (Nat × Bool) :=
  let t := c.tensor e
  let o := 0x40 + 64 * e
  let d := (c.sblk.drop o).take 64
  let f := byteAt d 0x30
  let scaled := isMX t.fmt || t.fmt == 6 || t.fmt == 7
  let indir := (c.prog e).any (fun x => x.op == 1 && x.indir)
  let intW := e == 1 && t.fmt == 6
  let intA := e == 0 && c.hasOpu && t.fmt == 6
  let fmtOk := decide (f < 128 ∧ t.layout ≠ 3 ∧ t.fmt ≤ 12 ∧ t.fmt ≠ 11)
    && (match c.wantFmt e with
        | some w => t.fmt == w
        | none => t.fmt != 7)
    && (e == 1 || t.fmt != 7)
    && (!(isMX t.fmt && c.hasOpu && e == 0) || !t.axis) && (!(isMX t.fmt && e == 1) || t.axis)
    && (!(isMX t.fmt && e == 6 && !c.isMove) || t.axis == c.outAxis)
    && !((intW || t.fmt == 7) && t.layout == 1)
    && !(e == 6 && t.fmt == 12 && (c.tensor 0).fmt != 12)
  [(o, decide (t.base % 64 = 0)),
   (o + 8, scaled || t.scale == 0),
   (o + 0x10, (indir || intW) == (t.aux != 0)),
   (o + 0x18, match t.layout with
      | 0 => t.pitch == 0
      | 1 => decide (t.pitch % 4 = 0 ∧ rowBytes t ≤ t.pitch)
      | _ => decide (t.pitch ≤ 16)),
   (o + 0x20, decide (1 ≤ t.rows) && !(isMX t.fmt && t.layout == 1 && t.axis && t.rows % 32 != 0)),
   (o + 0x24, decide (1 ≤ t.cols ∧ t.cols ≤ 16777216) && !(isMX t.fmt && t.layout == 1 && !t.axis && t.cols % 32 != 0)),
   (o + 0x28, if indir then decide (1 ≤ t.auxExt ∧ t.auxExt < 2 ^ 31) else t.auxExt == 0),
   (o + 0x2C, intA || t.sa == 0),
   (o + 0x30, fmtOk),
   (o + 0x31, intA || t.za == 0),
   (o + 0x32, decide (t.combine ≤ 3) && (t.combine == 0 || (decide (6 ≤ e) && t.fmt == 0 && t.layout != 2))),
   (o + 0x33, decide (t.imode ≤ 2)),
   (o + 0x34, decide (t.progOff % 16 = 0)),
   (o + 0x36, decide (1 ≤ t.progLen ∧ t.progLen ≤ 32)),
   (o + 0x37, decide (byteAt d 0x37 < 4) && (e == 1 || !t.hoist)),
   (o + 0x38, zeroAt d 0x38 8)]

/-- One instruction's fields (R229). -/
def instrOk (w : Nat) : Bool :=
  let x := sInstr w
  let rest := fun m => w / m % 2 ^ 24 == 0
  decide (1 ≤ x.op ∧ x.op ≤ 5) && w / 64 % 4 == 0 && w / 2 ^ 96 == 0
    && (x.op == 1 || (!x.part && !x.indir)) && !(x.part && x.indir)
    && (match x.op with
        | 2 => rest 256 && x.drow == 0 && x.dcol == 0
        | 4 => rest 256
        | 5 => x.drow == 0 && x.dcol == 0
        | _ => true)

/-- Depth of open loops after each instruction; none once END has no LOOP. -/
def loopDepths : List SInstr → Nat → List (Option Nat)
  | [], _ => []
  | x :: t, d =>
    match x.op with
    | 1 => some (d + 1) :: loopDepths t (d + 1)
    | 2 => if d = 0 then [none] else some (d - 1) :: loopDepths t (d - 1)
    | _ => some d :: loopDepths t d

/-- The program rules of R232. -/
def progOk (e : Nat) (prog : List SInstr) : Bool :=
  let ds := loopDepths prog 0
  let parts := (prog.filter (fun x => x.op == 1 && x.part)).length
  let indirs := (prog.filter (fun x => x.op == 1 && x.indir)).length
  let partClean := match prog with
    | x :: _ => if x.op = 1 ∧ x.part then (ds.dropLast).all (fun d => d != some 0) else parts == 0
    | [] => true
  ds.all (fun d => match d with
      | none => false
      | some n => decide (n ≤ 6))
    && (ds.getLast? == some (some 0)) && decide (parts ≤ 1 ∧ indirs ≤ 1) && partClean
    && !(indirs != 0 && (e == 1 || e == 2)) && prog.any (fun x => x.op == 3 || x.op == 5)

/-- Required element counts (R246) and the move classes' INDIR rules (15 R427). -/
def Cmd.countOk (c : Cmd) (e : Nat) : Bool :=
  let n := c.elems e
  let q := c.opus.length
  let indir := (c.prog e).any (fun x => x.op == 1 && x.indir)
  match e with
  | 0 =>
    (if c.hasOpu then decide (0 < n ∧ n % (128 * c.klen) = 0 ∧ c.rounds % c.reuse = 0)
     else if c.isMove then true
     else decide (n % 32768 = 0 ∧ 0 < n)
       && (match c.mode with
           | 3 => c.inTiles % c.blockTiles == 0
           | 4 => if c.isAttn then c.inTiles % c.blockTiles == 0 else c.inTiles == c.segTiles * c.scanPasses
           | _ => true))
      && (match c.cls with
          | 2 => !indir
          | 3 => indir
          | 4 => !indir
          | _ => true)
  | 1 => n == 256 * c.klen * q * (c.rounds / c.reuse)
  | 2 => n == 32768 * q * c.rounds
  | 3 => n == 32768 * c.readTiles
  | 4 => n == 256 * c.readTiles
  | 5 => n == 128 * c.readTiles
  | 6 => (if c.isMove then n == c.elems 0 else n == 32768 * c.resultTiles)
      && (match c.cls with
          | 2 => !indir
          | 3 => !indir
          | 4 => indir
          | _ => true)
  | _ => n == 32768 * c.seFeeders.length * c.rounds

/-- PART loops agree (R245). -/
def Cmd.partOk (c : Cmd) (e : Nat) : Bool :=
  let hoisted := e == 1 && (c.tensor 1).hoist
  match progPart (c.prog e) with
  | some n => !hoisted && n == c.parts
  | none => hoisted || (c.entries.all (fun x => (x == 1 && (c.tensor 1).hoist) || (progPart (c.prog x)).isNone) && c.nclus == 1)

/-- Checks of the stream block (R243–R246). -/
def sblkChecks (c : Cmd) : List (Nat × Bool) :=
  let cvt := byteAt c.sblk 1
  let k := c.klen
  let narrow := fun f => f == 5 || f == 6 || f == 10
  let present := (List.range 8).map (fun e => (0x40 + 64 * e, c.valid.testBit e == c.wants e))
  let slots := ceilDiv k 128
  [(1, if c.isMove then decide (cvt % 2 = 0 ∧ cvt < 4) && !(cvt.testBit 1 && narrow (c.tensor 6).fmt) else cvt == 0),
   (2, if c.hasOpu then decide (1 ≤ c.reuse ∧ c.reuse ≤ 256) && (c.reuse == 1 || decide (slots ≤ 8)) else c.reuse == 1),
   (4, if c.hasOpu then decide (1 ≤ k ∧ k ≤ 16777216) && !(c.int8 && decide (32768 < k)) && !(c.trans && k % 256 != 0) else k == 0),
   (8, c.cls != 5 || c.posBase == 0),
   (0x10, zeroAt c.sblk 0x10 48)]
  ++ present
  ++ c.entries.flatMap (fun e =>
    tensorChecks c e
    ++ ((c.progWords e).mapIdx (fun i w => ((c.tensor e).progOff + 16 * i, instrOk w)))
    ++ [(0x40 + 64 * e + 0x34, progOk e (c.prog e) && c.partOk e && (c.klen != 0 || !c.hasOpu) && c.countOk e)])

/-- A guard's fields (06 R165). -/
def guardOk (g : Nat) : Bool :=
  let f := g % 16
  let cmp := g / 16 % 8
  decide (f ≤ 7) && cmp != 7 && ((cmp == 6) == (f == 7)) && !g.testBit 7 && g / 256 % 4 != 3 && g / 2 ^ 10 % 2 ^ 22 == 0

/-- An operand code exists and is enabled (06 R149, 08 R210). -/
def Cmd.codeOk (c : Cmd) (full : List Nat) (code : Nat) : Bool :=
  if code < 6 then (c.temp.contains code || full.contains code) && !(c.land 0).contains code && !(c.land 1).contains code
  else match code with
    | 0x08 => c.in1
    | 0x09 => c.rowv
    | 0x0A => c.colv
    | _ => decide (code < 0x20)

/-- A stage or instruction word obeys its kind (R148, R150, R152, R154, R157). `full` lists the buffers FULL at dispatch. -/
def Cmd.wordOk (c : Cmd) (psidy : Bool) (full : List Nat) (raw : Nat) : Bool :=
  let w := laneWord raw
  match opcodeOf w.op with
  | none => false
  | some (_, frond, packed) =>
    !laneReserved raw && w.unusedZero && w.argOk psidy && w.dst != 6 && w.reads.all (c.codeOk full)
      && (if c.mode = 2 then w.dst == 7 || c.temp.contains w.dst else frond && w.dst == 7)
      && (!c.pack || packed)

/-- Disjoint lists. -/
def disjointBufs (a b : List Nat) : Bool := a.all (fun x => !b.contains x)

/-- Checks of the VE image (06 R146–R148, 07 R186–R187, 08 R208–R211, R220–R221). `drift` says that GROUP names a collective
group of which the device is a current member. -/
def imageChecks (c : Cmd) (psidy drift : Bool) (full : List Nat) : List (Nat × Bool) :=
  let m := c.mode
  let i := c.image
  let n := c.imgCount
  let out := if c.outTb then [c.outBuf] else []
  let f := c.outFmt
  let narrow := f == 5 || f == 6 || f == 10
  let common :=
    [(0, match m with
        | 1 => decide (1 ≤ n ∧ n ≤ 8)
        | 2 => decide (1 ≤ n ∧ n ≤ 256)
        | 3 => decide (n ≤ 4) && (!c.isStats || n == 0)
        | _ => decide (n ≤ 4)),
     (2, byteAt i 2 == m),
     (3, decide (c.imgFlags < 64) && (decide (m ≤ 2) || !c.pack) && !(c.pack && c.hasOpu)
        && (m != 4 || c.in1 == (c.rowOp == 1))),
     (4, decide (byteAt i 4 < 64) && !(c.land 0).isEmpty && disjointBufs (c.land 0) (c.land 1) && disjointBufs (c.land 0) c.temp
        && disjointBufs (c.land 0) out),
     (5, decide (byteAt i 5 < 64) && (!(c.land 1).isEmpty) == c.in1 && disjointBufs (c.land 1) c.temp && disjointBufs (c.land 1) out),
     (6, decide (byteAt i 6 < 64) && disjointBufs c.temp out
        && (match m with
            | 1 => c.temp.isEmpty
            | 3 => c.temp.length == 1
            | 4 => c.temp.isEmpty
            | _ => true)),
     (7, decide (byteAt i 7 ≤ 5)),
     (8, decide (byteAt i 8 < 32) && (if c.outTb then f == (if c.pack then 1 else 0) else decide (f ≤ 6) || isMX f)),
     (9, decide (c.outCvt < 4) && !(c.outCvt.testBit 1 && narrow)),
     (0x0A, (decide (c.outRec ≤ 4095)) && (!c.outDs || f == 3 || f == 4 || f == 5)),
     (0x10, decide (c.summaryVa % 64 = 0)),
     (0x18, guardOk (c.guard 0)), (0x20, guardOk (c.guard 1))]
  let words := c.rawWords.mapIdx (fun k w => (wordsOff m + 4 * k, c.wordOk psidy full w))
  match m with
  | 3 =>
    common ++
    [(0x28, decide (1 ≤ c.rowOp ∧ c.rowOp ≤ 7)), (0x29, decide (byteAt i 0x29 < 2) && (!c.hasOpu || c.hold)
        && (!c.hold || decide (c.rowTiles ≤ (c.land 0).length))),
     (0x2A, zeroAt i 0x2A 2), (0x2C, decide (1 ≤ c.rowLen ∧ c.rowLen ≤ 16777216)),
     (0x30, decide (c.eps.toNat < 0x7F800000)), (0x34, zeroAt i 0x34 12)] ++ words
  | 4 =>
    let attn := c.rowOp == 5
    let src := c.carrySrc
    let usesDrift := src == 2 || c.carryFlags.testBit 3
    let need := if attn then c.rowTiles else c.segLen * c.chTiles
    common ++
    [(0x28, decide (1 ≤ c.rowOp ∧ c.rowOp ≤ 5) && (!c.hasOpu || attn)),
     (0x29, decide (byteAt i 0x29 < 16) && !(c.hold && c.onePass) && (attn || !c.causal) && (!attn || !c.onePass)
        && (!c.hold || (decide (need ≤ (c.land 0).length) && (c.rowOp != 1 || decide (need ≤ (c.land 1).length))))),
     (0x2A, decide (1 ≤ c.chTiles ∧ c.chTiles ≤ 4) && (!attn || c.chTiles == 1)),
     (0x2B, decide (c.carryFlags < 16 ∧ src ≠ 3) && (!attn || (decide (src ≤ 1) && c.carryFlags / 4 == 1))),
     (0x2C, decide (1 ≤ c.rowLen ∧ c.rowLen ≤ 16777216)),
     (0x30, attn || decide (1 ≤ c.segLen ∧ c.segLen ≤ 131072)),
     (0x34, decide (1 ≤ c.nch ∧ c.nch ≤ 65536)),
     (0x38, !usesDrift || drift), (0x3A, zeroAt i 0x3A 2),
     (0x80, src != 1 || decide (c.carryIn % 64 = 0)), (0x88, !c.carryFlags.testBit 2 || decide (c.carryOut % 64 = 0)),
     (0x98, attn || c.keyBase == 0), (0xA0, zeroAt i 0xA0 32)] ++ words
  | _ => common ++ [(0x28, zeroAt i 0x28 24)] ++ words

end Sys2Proof.Machine
end

