-- ==== Sys2Proof/Machine/TileOrder.lean ====
section
/-!
DEFINITION. The order of a command's tiles: which OPU tile a VE takes, a VE's work items and result tiles, and the first result tile that
needs an element (06 R142, 07 R188, 08 R209–R213, 09 R238, R245, R246, R250).
-/

namespace Sys2Proof.Machine

/-! ### Work order (R142, R245, R246, R250, 07 R188, 08 R209–R213) -/

/-- Place of VE `v` among the participating ones. -/
def vePlace (c : Cmd) (v : Nat) : Nat := (c.ves.idxOf? (v % 2)).getD 0

/-- Number on the cluster of the `j`-th thing of which each iteration brings this VE `n` (R245, without an OPU stage). -/
def clusterIdx (c : Cmd) (v n j : Nat) : Nat := (j / max n 1 * max c.ves.length 1 + vePlace c v) * n + j % max n 1

/-- The OPU tile that is IN0 tile `j` of a VE: tile number of that OPU over the command, and its place (R246). -/
def opuTileOf (c : Cmd) (v j : Nat) : Nat × Nat :=
  let f := c.feeders (v % 2)
  (j / max f.length 1, f.getD (j % max f.length 1) 0)

/-- Number of a drained tile among those that go to VEs on its cluster. -/
def veTileNo (c : Cmd) (t q : Nat) : Nat := t * c.veFeeders.length + (c.veFeeders.idxOf? q).getD 0

/-- Row blocks, over all VEs of the cluster, whose last tile comes no later than that of block `u` of VE `v` (OPU stage). -/
def blocksBefore (c : Cmd) (v u : Nat) : Nat :=
  let l := opuTileOf c v (c.blockTiles * u + c.blockTiles - 1)
  (c.ves.map (fun i =>
    let f := c.feeders i
    (l.1 * f.length + (f.filter (fun q => decide (q ≤ l.2))).length) / max c.blockTiles 1)).foldl (· + ·) 0

/-- Row block of a VE, numbered over its cluster in the order of their results (log 40). -/
def blockNo (c : Cmd) (v u : Nat) : Nat := if c.hasOpu then blocksBefore c v u - 1 else clusterIdx c v c.blocksPerIter u

/-- One item of a VE's work: a tile in one pass. -/
structure Work where
  tile : Nat               -- IN0 tile of this VE
  out : Bool               -- it forms results
  block : Nat              -- row block of this VE, or scan unit of the command
  t : Nat                  -- tile in its row block or segment
  read : Nat               -- delivery of IN1, ROWV and COLV on the cluster
  res : Nat                -- result tile of the cluster's VE stage
  frees : Bool             -- it is the last read of its tile
  deriving DecidableEq, Repr

/-- Items of a row block. -/
def blockItems (c : Cmd) : Nat := if c.mode = 3 ∧ c.isStats then c.rowTiles + 1 else 2 * c.rowTiles

/-- Computing passes of a scan. -/
def scanWork (c : Cmd) : Nat := if c.onePass then 1 else 2

/-- Delivery number on the cluster of the `j`-th read tile of a VE. -/
def readNo (c : Cmd) (v j : Nat) : Nat :=
  if c.hasOpu then
    let p := opuTileOf c v j
    veTileNo c p.1 p.2
  else clusterIdx c v c.readTiles j

/-- Work item `w` of VE `v`, whose cluster has a rank in the command. -/
def workAt (c : Cmd) (rank v w : Nat) : Work :=
  let T := max c.rowTiles 1
  let L := c.blockTiles
  if c.mode ≤ 2 then ⟨w, true, 0, 0, readNo c v w, readNo c v w, true⟩
  else if c.mode = 3 ∧ c.isStats then
    let u := w / (T + 1)
    let i := w % (T + 1)
    if i < T then ⟨L * u + i, false, u, i, 0, 0, true⟩ else ⟨L * u + T - 1, true, u, 0, 0, blockNo c v u, false⟩
  else if c.mode = 3 ∨ c.isAttn then
    let u := w / (2 * T)
    let i := w % (2 * T)
    let t := i % T
    if i < T then ⟨L * u + t, false, u, t, readNo c v (L * u + t), 0, !c.hold⟩
    else
      let j := if c.hold then L * u + t else L * u + T + t
      ⟨j, true, u, t, readNo c v (if c.mode = 3 then u * T + t else j), if c.oneToOne then readNo c v j else blockNo c v u * T + t, true⟩
  else
    let n := max (c.inTiles / c.scanPasses) 1 * scanWork c
    let kk := w / n
    let k := kk * max c.ves.length 1 + vePlace c v
    let a := c.scanAt (scanWork c) (w % n)
    let last := a.2.1 + 1 == scanWork c
    let j := kk * c.inTiles + (if c.scanPasses = scanWork c then w % n else a.2.2.2 + a.2.2.1)
    ⟨j, last, (rank + k * c.nclus) * c.segsPerIter + a.1, a.2.2.1, clusterIdx c v c.inTiles j,
     k * c.resultTiles + a.2.2.2 + a.2.2.1, last || !c.hold⟩

/-- The result tile number t of R250 of result `res` of a cluster's VE stage. -/
def resultTile (c : Cmd) (rank res : Nat) : Nat :=
  let n := max c.resultTiles 1
  (rank + res / n * c.nclus) * c.tilesPerIter + c.veLocal (res % n)

/-! ### Ordered mode (R238) -/

/-- The first result tile that IN0 tile `j` of VE `v` is read for, on the cluster of a rank: a row block that is read whole before its first
result, and a scan segment so read, are read for that result. `own` says that the tile itself is held and its delivery belongs to its
own result, as that of a vector does. -/
def tileNeed (c : Cmd) (own : Bool) (rank v j : Nat) : Nat :=
  let T := max c.rowTiles 1
  let L := max c.blockTiles 1
  let item :=
    if c.mode ≤ 2 then j
    else if c.mode = 3 ∧ c.isStats then j / L * (T + 1) + T
    else if c.mode = 3 ∨ c.isAttn then j / L * (2 * T) + T + (if c.hold then (if own then j % L else 0) else j % L - T)
    else 0
  if c.mode = 4 ∧ !c.isAttn then
    let n := max c.inTiles 1
    let kk := j / n
    let a := c.scanAt c.scanPasses (j % n)
    let res := (kk * max c.ves.length 1 + vePlace c v) * c.resultTiles + a.2.2.2
      + (if if c.hold then !own else decide (a.2.1 + 1 < c.scanPasses) then 0 else a.2.2.1)
    resultTile c rank res
  else resultTile c rank (workAt c rank v item).res

/-- The first result tile that the tile of OPU place `q` in round `u` of partition iteration `k` of the cluster of a rank leads to. -/
def drainNeed (c : Cmd) (own : Bool) (rank k u q : Nat) : Nat :=
  let v := c.drainDst (c.opus.getD q 0)
  if v = 2 then (rank + k * c.nclus) * c.tilesPerIter + c.seLocal u q
  else
    let f := c.feeders v
    tileNeed c own rank v ((k * c.rounds + u) * f.length + (f.idxOf? q).getD 0)

/-- The first result tile that delivery `x` of partition iteration `k` to the VE stage is read for: IN0 tiles without an OPU stage, IN1 tiles and
vectors. -/
def deliveryNeed (c : Cmd) (own : Bool) (rank k x : Nat) : Nat :=
  let V := max c.ves.length 1
  let p := (rank + k * c.nclus) * c.tilesPerIter
  if c.mode = 3 then p + c.veLocal x
  else if c.hasOpu then
    let f := c.veFeeders
    drainNeed c own rank k (x / max f.length 1) (f.getD (x % max f.length 1) 0)
  else tileNeed c own rank (c.ves.getD (k % V) 0) (k / V * c.inTiles + x)

/-- First result tile, in global order, that element `s` of entry `e` is read for on the cluster of a rank. -/
def needTile (c : Cmd) (rank e s : Nat) : Nat :=
  let n := max (c.elems e) 1
  let i := s % n
  let hoisted := e == 1 && (c.tensor 1).hoist
  let k := s / n
  let q := max c.opus.length 1
  let first := fun (l : List Nat) => match l with
    | [] => 0
    | h :: t => t.foldl min h
  if c.isMove then (rank + k * c.nclus) * c.tilesPerIter + i / 32768
  else match e with
    | 0 =>
      if c.hasOpu then first ((List.range q).map (drainNeed c false rank k (i / 128 / max c.klen 1)))
      else if c.mode = 3 then tileNeed c false rank (c.ves.getD (k % max c.ves.length 1) 0) (k / max c.ves.length 1 * c.inTiles + i / 32768)
      else deliveryNeed c false rank k (i / 32768)
    | 1 =>
      let set := i / (256 * max c.klen 1)
      drainNeed c false (if hoisted then 0 else rank) k (set / q * c.reuse) (set % q)
    | 2 => drainNeed c false rank k (i / 32768 / q) (i / 32768 % q)
    | 4 => deliveryNeed c true rank k (i / 256)
    | 5 => deliveryNeed c true rank k (i / 128)
    | _ => deliveryNeed c false rank k (i / 32768)

end Sys2Proof.Machine
end

