-- ==== Sys2Proof/Machine/StreamOps.lean ====
section
/-!
DEFINITION. The stream engine (09 R229–R241, R248, R255–R259): programs in progress, fetches, remote reads, and ordered writes.
-/

namespace Sys2Proof.Machine

/-- Stream engine of a cluster. -/
def se (b : Block) (c : Nat) : Se := mapGet Se.fresh b.ses c
/-- Replaces it. -/
def setSe (c : Nat) (x : Se) (b : Block) : Block := { b with ses := mapSet Se.fresh b.ses c x }
/-- The running kernel-class command of a queue and descriptor number. -/
def jobOf (b : Block) (q n : Nat) : Option Job := b.jobs.find? (fun j => j.queue == q && j.count == n)
/-- Replaces a job. -/
def setJob (j : Job) (b : Block) : Block :=
  { b with jobs := b.jobs.map (fun x => if x.queue == j.queue && x.count == j.count then j else x) }
/-- Changes a job. -/
def modJob (q n : Nat) (f : Job → Job) (b : Block) : Block :=
  match jobOf b q n with
  | some j => setJob (f j) b
  | none => b
/-- Changes a command. -/
def modCmd (q n : Nat) (f : Cmd → Cmd) (b : Block) : Block :=
  match findCmd b q n with
  | some c => setCmd (f c) b
  | none => b
/-- The command that an engine serves, with its job. -/
def jobCmd (b : Block) (j : Option (Nat × Nat)) : Option (Cmd × Job) :=
  match j with
  | none => none
  | some (q, n) => match findCmd b q n, jobOf b q n with
    | some c, some x => if c.stage == .running then some (c, x) else none
    | _, _ => none
/-- Stream entry of a cluster. -/
def entryOf (s : Se) (e : Nat) : Entry := mapGet Entry.fresh s.entries e
/-- Replaces an entry. -/
def setEntry (cl e : Nat) (x : Entry) (b : Block) : Block :=
  let s := se b cl
  setSe cl { s with entries := mapSet Entry.fresh s.entries e x } b

/-- Aborts the task of a command (14 R371), as it stands now. -/
def abortTask (q n status detail : Nat) (b : Block) : Block :=
  match findCmd b q n with
  | some c => if c.active then abortCmd status detail b c else b
  | none => b
/-- Poison consumed by a cluster's engines (04 R109, 15 R435). -/
def poisonTask (cl q n : Nat) (b : Block) : Block := abortTask q n 0x24 cl b

/-- A signed coordinate as an unsigned 32-bit value. -/
def u32 (i : Int) : Nat := (i % 4294967296).toNat

/-- A stream fault (R255, R258): recorded once until STREAM_FAULT is cleared, and the whole command aborts. -/
def streamFault (cl e cause : Nat) (row col : Int) (q n : Nat) (b : Block) : Block :=
  let page := seBase cl / 4096
  let set := (rd b (rBLK_EVT_RAW (seBase cl))).toNat.testBit 4
  let b := if set then b else
    raise page 16 (wr (wr (put (fSE_FAULT_ENTRY cl) e (put (fSE_FAULT_CAUSE cl) cause b)) (rSE_FAULT_ROW cl) (BitVec.ofInt 32 row))
      (rSE_FAULT_COL cl) (BitVec.ofInt 32 col))
  abortTask q n 0x26 (cause + e * 16 + cl * 256) b

/-! ### Programs in progress (R230–R235) -/

/-- The next instruction of an entry. -/
def nextInstr (c : Cmd) (e : Nat) (x : Entry) : Option SInstr := (c.prog e)[x.pc]?

/-- The partition iteration that an entry is in. -/
def partNow (c : Cmd) (e : Nat) (x : Entry) : Nat :=
  match x.frames.getLast? with
  | some f => match (c.prog e)[f.pc]? with
    | some i => if i.part then f.i else 0
    | none => 0
  | none => 0

/-- Index entry of the INDIR iteration in progress, counted in global iteration order (R233). -/
def indexNumber (c : Cmd) (e : Nat) (x : Entry) : Nat :=
  let k := progIndirs (c.prog e)
  partNow c e x * k + (x.indirs % (if k = 0 then 1 else k))

/-- What an index resolves to (R234): a value, with whether it wrapped, or a zeroed iteration, or a fault. -/
inductive IndexRes where
  | at (v : Nat) (wrapped : Bool)
  | zeroed
  | fault
  deriving DecidableEq, Repr

/-- R234. -/
def resolveIndex (mode ext : Nat) (v : Int) : IndexRes :=
  if 0 ≤ v ∧ v < ext then .at v.toNat false
  else match mode with
    | 1 => if v < 0 ∧ 0 ≤ v + ext then .at (v + ext).toNat true else .zeroed
    | 2 => .fault
    | _ => .zeroed

/-- Starts iteration `f.i` of loop `x` whose frame is `f`, with the frames `rest` outside it. A fault of its index shows the loop's own position in
SE_FAULT (log 177). -/
def startIter (cl e : Nat) (c : Cmd) (x : SInstr) (f : Frame) (rest : List Frame) (b : Block) : Block :=
  let en := { entryOf (se b cl) e with frames := f :: rest, pc := f.pc + 1, zero := f.zero }
  if !x.indir then setEntry cl e { en with row := f.row + f.i * x.drow, col := f.col + f.i * x.dcol } b
  else
    let t := c.tensor e
    let k := indexNumber c e en
    let en := { en with indirs := en.indirs + 1 }
    match vRead b c.ctx (t.aux + 4 * k) 4 with
    | .error .poison => poisonTask cl c.queue c.count b
    | .error _ => streamFault cl e 3 f.row f.col c.queue c.count b
    | .ok r =>
      let b := count64 (rSE_CNT_RD_LO cl) 4 b
      if r.bad then poisonTask cl c.queue c.count b
      else
        let v := sx32 (leNat r.bytes)
        match resolveIndex t.imode t.auxExt v with
        | .fault => streamFault cl e 2 f.row v c.queue c.count b
        | .zeroed =>
          bump (fSE_IDX_ZEROED cl) 1 (modCmd c.queue c.count (fun c => { c with zeroed := c.zeroed + 1 })
            (setEntry cl e { en with row := f.row, col := f.col, zero := true } b))
        | .at v w =>
          let b := setEntry cl e { en with row := f.row + v * x.drow, col := f.col + v * x.dcol } b
          if w then bump (fSE_IDX_WRAPPED cl) 1 (modCmd c.queue c.count (fun c => { c with wrapped := c.wrapped + 1 }) b) else b

/-- Runs of the program: one, or one per round on the head of the hoist chain (R254). -/
def programRuns (c : Cmd) (e : Nat) : Nat :=
  if e = 1 ∧ (c.tensor 1).hoist then ceilDiv c.parts c.nclus else 1

/-- A program that has ended starts again for the next hoist round. -/
def wrapProgram (cl e : Nat) (c : Cmd) (b : Block) : Block :=
  let x := entryOf (se b cl) e
  if x.pc < (c.prog e).length ∨ programRuns c e ≤ x.rounds + 1 ∨ !x.frames.isEmpty then b
  else setEntry cl e { x with pc := 0, row := 0, col := 0, zero := false, rounds := x.rounds + 1 } b

/-- The entry runs a program on this cluster: all do but entry 1 of a hoisted command away from the head (R254). -/
def runsProgram (c : Cmd) (rank e : Nat) : Bool :=
  c.valid.testBit e && !(e == 1 && (c.tensor 1).hoist && rank != 0)

/-- Runs `f` on the next instruction of an entry when it is of opcode `op`. -/
def onInstr (op cl e : Nat) (f : Cmd → SInstr → Entry → Block → Block) (b : Block) : Block :=
  match jobCmd b (se b cl).job with
  | none => b
  | some (c, _) =>
    let x := entryOf (se b cl) e
    match nextInstr c e x with
    | none => b
    | some i => if i.op = op ∧ runsProgram c (se b cl).rank e then f c i x b else b

/-- LOOP (R230): a PART loop takes the cluster's rank first; a cluster with no iteration skips the body. -/
def iterLoop (cl e : Nat) : Block → Block :=
  onInstr 1 cl e fun c i x b =>
    let first := if i.part then (se b cl).rank else 0
    if i.count ≤ first then setEntry cl e { x with pc := (c.prog e).length } b
    else startIter cl e c i ⟨x.pc, first, x.row, x.col, x.zero⟩ x.frames b

/-- END (R230): the next iteration, or the position that the loop found. -/
def iterEnd (cl e : Nat) : Block → Block :=
  onInstr 2 cl e fun c _ x b =>
    match x.frames with
    | [] => b
    | f :: rest => match (c.prog e)[f.pc]? with
      | none => b
      | some l =>
        let i := f.i + (if l.part then c.nclus else 1)
        if i < l.count then startIter cl e c l { f with i := i } rest b
        else wrapProgram cl e c
          (setEntry cl e { x with frames := rest, pc := x.pc + 1, row := f.row, col := f.col, zero := f.zero } b)

/-- The next instruction of an entry starts an iteration of an INDIR loop, whose index it fetches through the cluster's fabric port (R233,
R249). -/
def indexAsks (b : Block) (cl e : Nat) : Bool :=
  match jobCmd b (se b cl).job with
  | none => false
  | some (c, _) =>
    let x := entryOf (se b cl) e
    runsProgram c (se b cl).rank e &&
    (match nextInstr c e x with
    | none => false
    | some i =>
      if i.op = 1 then i.indir && decide ((if i.part then (se b cl).rank else 0) < i.count)
      else if i.op = 2 then match x.frames with
        | [] => false
        | f :: _ => match (c.prog e)[f.pc]? with
          | some l => l.indir && decide (f.i + (if l.part then c.nclus else 1) < l.count)
          | none => false
      else false)

/-- First element of a run below the tensor base (R231). -/
def belowBase (row col drow dcol : Int) (n : Nat) : Option Nat :=
  let one := fun (r d : Int) => if r < 0 then some 0 else if d < 0 then some ((r / (-d)).toNat + 1) else none
  let cand := ([one row drow, one col dcol].filterMap id).filter (fun k => decide (k < n))
  cand.foldl (fun m k => match m with
    | none => some k
    | some x => some (min x k)) none

/-- Window of index entries of the INDIR iteration in progress, plus one (R235). -/
def windowNow (c : Cmd) (e : Nat) (x : Entry) : Nat :=
  if x.frames.any (fun f => match (c.prog e)[f.pc]? with
    | some i => i.indir
    | none => false)
  then indexNumber c e { x with indirs := x.indirs - 1 } / 256 + 1 else 0

/-- Emits a run of coordinates. -/
def emitSeg (cl e : Nat) (x : Entry) (s : Seg) (b : Block) : Block :=
  setEntry cl e { x with pc := x.pc + 1, segs := x.segs ++ [s], emitted := x.emitted + s.n } b

/-- RUN (R230, R231); a zeroed iteration emits padding (R234). -/
def streamRun (cl e : Nat) : Block → Block :=
  onInstr 3 cl e fun c i x b =>
    match (if x.zero then none else belowBase x.row x.col i.drow i.dcol i.count) with
    | some k => streamFault cl e 1 (x.row + k * i.drow) (x.col + k * i.dcol) c.queue c.count b
    | none => wrapProgram cl e c (emitSeg cl e x ⟨x.emitted, i.count, x.row, x.col, i.drow, i.dcol, x.zero, windowNow c e x⟩ b)

/-- ADD (R230). -/
def streamAdd (cl e : Nat) : Block → Block :=
  onInstr 4 cl e fun c i x b =>
    wrapProgram cl e c (setEntry cl e { x with pc := x.pc + 1, row := x.row + i.drow, col := x.col + i.dcol } b)

/-- PAD (R230). -/
def streamPad (cl e : Nat) : Block → Block :=
  onInstr 5 cl e fun c i x b => wrapProgram cl e c (emitSeg cl e x ⟨x.emitted, i.count, 0, 0, 0, 0, true, 0⟩ b)

/-! ### Where an element lies (R225–R227, R239–R241) -/

/-- An element of a tensor: who holds it, its address, its nibble, its scale data, and the whole leaf block and record. -/
structure Place where
  peer : Option Nat
  va : Nat
  nib : Nat
  scaleVa : Nat
  scaleLen : Nat
  leaf : Nat
  leafVa : Nat
  leafLen : Nat
  recVa : Nat
  recLen : Nat
  deriving DecidableEq, Repr

/-- Tile index of a coordinate (R225). -/
def tileIndex (t : Tensor) (r c : Nat) : Nat := r / 128 * ceilDiv t.cols 256 + c / 256
/-- Leaf of a coordinate within its tile. -/
def leafIndex (r c : Nat) : Nat := r % 128 / 32 * 8 + c % 256 / 32
/-- Element number within its leaf. -/
def inLeaf (r c : Nat) : Nat := 32 * (r % 32) + c % 32

/-- Scale data of a coordinate in a record area: (record offset, record size, offset within, size) (R96, R227). -/
def scaleSlot (t : Tensor) (ti r c : Nat) : Nat × Nat × Nat × Nat :=
  if isMX t.fmt then (32 * (32 * ti + leafIndex r c), 32, if t.axis then c % 32 else r % 32, 1)
  else if t.fmt = 6 then (64 * (32 * ti + leafIndex r c), 64, 2 * (c % 32), 2)
  else if t.fmt = 7 then (32 * (4 * ti + leafIndex r c / 8), 32, 0, 32)
  else (0, 0, 0, 0)

/-- A member is ACTIVE in this device's adopted generation. -/
def activeMember (b : Block) (d : Nat) : Bool :=
  get b fGG_STATE_ROLE != 0 && (match b.gang.cur with
    | none => false
    | some t => t.members.any (fun m => m.1 == d && m.2 == 1))

/-- R240, R241: holder and address of owner block `blk`; an error is the stream-fault cause OWNER. -/
def ownerOf (b : Block) (c : Cmd) (j : Job) (e blk : Nat) : Except Nat (Option Nat × Nat) :=
  let o := mapGet [] j.owners (e * 2 ^ 32 + blk)
  let d := fieldAt o 0 2
  let shadowed := byteAt o 2 % 2 == 1
  let odd := (j.epoch % 2 == 1) != (c.tensor e).shadow
  let va := fieldAt o (if shadowed && odd then 0x10 else 0x08) 8
  if o.isEmpty || d == 0xFFFF then .error 4
  else if d = devId b then .ok (none, va)
  else if activeMember b d then .ok (some d, va)
  else .error 4

/-- The place of coordinate (r, c) of an entry's tensor. -/
def placeOf (b : Block) (cmd : Cmd) (j : Job) (e r c : Nat) : Except Nat Place :=
  let t := cmd.tensor e
  let w := fmtWidth t.fmt
  let ti := tileIndex t r c
  let lf := leafIndex r c
  let key := 32 * ti + lf
  match t.layout with
  | 1 =>
    let bits := r * t.pitch * 8 + c * w
    let sv := t.scale + (if t.axis then r / 32 * t.cols + c else r * (t.cols / 32) + c / 32)
    let lh := min 32 (t.rows - r / 32 * 32)
    let lw := min 32 (t.cols - c / 32 * 32)
    .ok ⟨none, t.base + bits / 8, bits % 8 / 4, sv, if isMX t.fmt then 1 else 0, key, 0, (lh * lw * w + 7) / 8, sv,
         if isMX t.fmt then (if t.axis then lw else lh) else 0⟩
  | 0 =>
    let bits := (32768 * ti + 1024 * lf + inLeaf r c) * w
    let s := scaleSlot t ti r c
    .ok ⟨none, t.base + bits / 8, bits % 8 / 4, t.scale + s.1 + s.2.2.1, s.2.2.2, key, t.base + (32768 * ti + 1024 * lf) * w / 8,
         128 * w, t.scale + s.1, s.2.1⟩
  | _ =>
    let k := ti % 2 ^ t.pitch
    match ownerOf b cmd j e (ti / 2 ^ t.pitch) with
    | .error x => .error x
    | .ok (p, va) =>
      let bits := (32768 * k + 1024 * lf + inLeaf r c) * w
      let s := scaleSlot t k r c
      let sv := va + 2 ^ t.pitch * (4096 * w)
      .ok ⟨p, va + bits / 8, bits % 8 / 4, sv + s.1 + s.2.2.1, s.2.2.2, key, va + (32768 * k + 1024 * lf) * w / 8, 128 * w,
           sv + s.1, s.2.1⟩

/-- What a read of an element's bytes can meet. -/
inductive ReadErr where
  | fault (cause : Nat)
  | poison                       -- a poisoned translation-table word was used as an address (04 R109)
  | ask (peer va n : Nat)
  deriving DecidableEq, Repr

/-- Reads `n` bytes at a place, here or from what a peer has answered; `lva` and `ln` say what is asked for at once. -/
def readPlace (b : Block) (cx : Nat) (x : Entry) (peer : Option Nat) (va n lva ln : Nat) : Except ReadErr (Nat × Bool) :=
  match peer with
  | none => match vRead b cx va n with
    | .ok r => .ok (leNat r.bytes, r.bad)
    | .error .poison => .error .poison
    | .error _ => .error (.fault 3)
  | some p => match x.got.find? (fun g => g.1 == p && decide (g.2.1 ≤ va ∧ va + n ≤ g.2.1 + g.2.2.1.length)) with
    | some g => .ok (leNat ((g.2.2.1.drop (va - g.2.1)).take n), ((g.2.2.2.drop (va - g.2.1)).take n).any id)
    | none => .error (.ask p lva ln)

/-- Value of a 16-entry BF16 codebook (04 R95). -/
def codebookValue (book code : Nat) : Fp := decodeFp fmtBF16 (book / 2 ^ (16 * code) % 65536)

/-- The exact value of an encoding with its scale or codebook (04 R92, R95). -/
def scaledValue (fmt s raw : Nat) : Fp :=
  if fmt = 7 then codebookValue s raw else if isMX fmt then valueMX fmt s raw else valueOf fmt raw

/-- The padding element (R231). -/
def padElem : Elem := ⟨0, 0, 0, .fin false 0 0, false, true, 0, 0⟩

/-- Elements of entry `e` in a format come with scale data: MX scales, codebooks, and the column sums of INT8 weights (04 R96, 05 R129). -/
def readsScale (fmt e : Nat) : Bool := isMX fmt || fmt == 7 || (fmt == 6 && e == 1)

/-- Reads element (r, c) of an entry with its scale data; an INT8 weight carries its leaf block's column sum (05 R129). -/
def elemAt (b : Block) (cmd : Cmd) (j : Job) (x : Entry) (e r c : Nat) : Except ReadErr (Elem × Place) :=
  let t := cmd.tensor e
  let w := fmtWidth t.fmt
  match placeOf b cmd j e r c with
  | .error k => .error (.fault k)
  | .ok p =>
    match readPlace b cmd.ctx x p.peer p.va ((w + 7) / 8) p.leafVa p.leafLen with
    | .error k => .error k
    | .ok (v, bad) =>
      let raw := if w = 4 then v / 16 ^ p.nib % 16 else v
      if !readsScale t.fmt e then .ok (⟨raw, 0, c, valueOf t.fmt raw, bad, false, 0, p.leaf⟩, p)
      else match readPlace b cmd.ctx x p.peer p.scaleVa p.scaleLen p.recVa p.recLen with
        | .error k => .error k
        | .ok (s, sbad) =>
          .ok (⟨raw, s, c, scaledValue t.fmt s raw, bad || sbad, false, if t.fmt = 6 then sx16 s else 0, p.leaf⟩, p)

/-! ### Ordered mode (R238) -/

/-- The result tile that ordered mode is at: the first not wholly written. -/
def orderedTile (j : Job) : Nat :=
  match (List.range (j.rowsOut.length + 1)).find? (fun t => decide (mapGet 0 j.rowsOut t < 128)) with
  | some t => t
  | none => j.rowsOut.length

/-- An element may be fetched now (R238). -/
def mayFetch (c : Cmd) (j : Job) (rank e s : Nat) : Bool := !j.ordered || decide (needTile c rank e s ≤ orderedTile j)

/-- Every input read for result tile `t` on this cluster has completed (R238). -/
def readsDone (b : Block) (cl : Nat) (c : Cmd) (t : Nat) : Bool :=
  let s := se b cl
  (List.range 6).all (fun e => !c.valid.testBit e ||
    (let x := entryOf s e
     let total := c.elems e * (if e = 1 ∧ (c.tensor 1).hoist then ceilDiv c.parts c.nclus else c.itersOf s.rank)
     decide (total ≤ x.fetched) || (e == 1 && (c.tensor 1).hoist && s.rank != 0) || decide (t < needTile c s.rank e x.fetched)))

/-- A row of result tile `t` may be written now (R238). -/
def mayWrite (b : Block) (cl : Nat) (c : Cmd) (j : Job) (t : Nat) : Bool :=
  !j.ordered || (orderedTile j == t && readsDone b cl c t)

/-! ### Fetch (R231, R235, R241, R248, R249) -/

/-- Elements that an entry may hold, fetched and not consumed: four tile-units (R248). -/
def lookahead : Nat := 131072

/-- The coordinate of element `s`: its run and its place in it. -/
def coordOf (x : Entry) (s : Nat) : Option (Seg × Int × Int) :=
  match x.segs.find? (fun g => decide (g.first ≤ s ∧ s < g.first + g.n)) with
  | none => none
  | some g => some (g, g.row + ((s - g.first : Nat) : Int) * g.drow, g.col + ((s - g.first : Nat) : Int) * g.dcol)

/-- A coordinate beyond the extent (R231). -/
def beyond (t : Tensor) (r c : Int) : Bool := decide ((t.rows : Int) ≤ r ∨ (t.cols : Int) ≤ c)

/-- Counts a leaf block or record once: within four tile-units, or within a window of index entries (R232, R235). -/
def noteLeaf (cl e win key bytes : Nat) (b : Block) : Block :=
  let x := entryOf (se b cl) e
  let seen := x.leaves.any (fun l => l.1 == win && l.2.1 == key && (win != 0 || decide (x.fetched < l.2.2 + lookahead)))
  if seen || bytes == 0 then b
  else count64 (rSE_CNT_RD_LO cl) bytes (setEntry cl e { x with leaves := (win, key, x.fetched) :: x.leaves } b)

/-- Adds an element to an entry's buffer. -/
def pushElem (cl e : Nat) (v : Elem) (b : Block) : Block :=
  let x := entryOf (se b cl) e
  setEntry cl e { x with buf := x.buf ++ [(x.fetched, v)], fetched := x.fetched + 1 } b

/-- Weight slots that a weight set fills (R246). -/
def Cmd.setSlots (c : Cmd) : Nat := ceilDiv c.klen 128

/-- Weight row `w` of a cluster, counted over the command: its place in the set, its OPU, and its weight tile's number there (R246). -/
def weightPlace (cl : Nat) (c : Cmd) (w : Nat) : Nat × Nat × Nat :=
  let k := max c.klen 1
  let q := max c.opus.length 1
  (w % k, 4 * cl + c.opus.getD (w / k % q) 0, w / k / q * c.setSlots + w % k / 128)

/-- State of a weight slot: 0 FREE, 1 FILLING, 2 READY, 3 IN_USE (05 R125). -/
def slotState (b : Block) (o k : Nat) : Nat := field (rd b (rOP_WSLOT o)) (2 * k + 1) (2 * k)

/-- Entry 1 may fetch weight row `w` (R248): its tile's slot is FREE with every row of the tile before it in that slot taken, or is FILLING
with that tile. -/
def weightRoom (b : Block) (cl : Nat) (c : Cmd) (w : Nat) : Bool :=
  let p := weightPlace cl c w
  let s := p.2.2 % 8
  let taken := (se b cl).wrows
  match slotState b p.2.1 s with
  | 0 => decide (p.2.2 < 8) ||
      (let old := p.2.2 - 8
       let q := max c.opus.length 1
       let pos := (c.opus.idxOf? (p.2.1 % 4)).getD 0
       decide ((old / max c.setSlots 1 * q + pos) * max c.klen 1 + old % max c.setSlots 1 * 128 < taken))
  | 1 => mapGet 0 (mapGet Opu.fresh b.opus p.2.1).ords s == p.2.2 + 1
  | _ => false

/-- Entry `e` has a next element to fetch, within its lookahead and, for weights, within the slots (R238, R248). -/
def mayTake (b : Block) (cl e : Nat) (c : Cmd) (j : Job) : Bool :=
  let s := se b cl
  let x := entryOf s e
  decide (x.fetched < x.emitted) && decide (x.buf.length < lookahead) && mayFetch c j s.rank e x.fetched
    && (e != 1 || !c.hasOpu || weightRoom b cl c (x.fetched / 256))

/-- The coordinate of the next element of entry `e` where it may be taken now, with whether it is padding, which is fetched from nowhere
(R231). -/
def nextTake (b : Block) (cl e : Nat) : Option (Cmd × Job × Entry × Bool × Int × Int) :=
  match jobCmd b (se b cl).job with
  | none => none
  | some (c, j) =>
    let x := entryOf (se b cl) e
    if 6 ≤ e ∨ !mayTake b cl e c j then none
    else match coordOf x x.fetched with
      | none => none
      | some (g, row, col) => some (c, j, x, g.pad || beyond (c.tensor e) row col, row, col)

/-- Entry `e` has an element to fetch through the cluster's fabric port (R249): no padding, and no remote read still to be answered. -/
def inputAsks (b : Block) (cl e : Nat) : Bool :=
  match nextTake b cl e with
  | none => false
  | some (c, j, x, pad, row, col) => !pad &&
    (match elemAt b c j x e row.toNat col.toNat with
     | .error (.ask p va n) => !x.asked.contains (p, va, n)
     | _ => true)

/-- Padding that comes next goes into the entry's buffer: at most `fuel` elements; what is left of the fuel. -/
def fetchPads : (fuel : Nat) → Nat → Nat → Block → Nat × Block
  | 0, _, _, b => (0, b)
  | f + 1, cl, e, b =>
    match nextTake b cl e with
    | some (_, _, _, true, _, _) => fetchPads f cl e (pushElem cl e padElem b)
    | _ => (f + 1, b)

/-- Fetches up to `fuel` elements of an entry in stream order. -/
def fetchElems : (fuel : Nat) → Nat → Nat → Block → Block
  | 0, _, _, b => b
  | f + 1, cl, e, b =>
    match nextTake b cl e with
    | none => b
    | some (_, _, _, true, _, _) => fetchElems f cl e (pushElem cl e padElem b)
    | some (c, j, x, false, row, col) =>
      match elemAt b c j x e row.toNat col.toNat with
      | .error (.fault k) => streamFault cl e k row col c.queue c.count b
      | .error .poison => poisonTask cl c.queue c.count b
      | .error (.ask p va n) =>
        if x.asked.contains (p, va, n) then b
        else sendGang p (.readRequest va n) (setEntry cl e { x with asked := x.asked ++ [(p, va, n)] } b)
      | .ok (v, p) =>
        let win := match coordOf x x.fetched with
          | some (g, _, _) => g.win
          | none => 0
        let b := noteLeaf cl e win (2 * p.leaf) p.leafLen b
        let b := if readsScale (c.tensor e).fmt e then
            noteLeaf cl e win (2 * (if (c.tensor e).fmt = 7 then p.leaf / 8 else p.leaf) + 1) p.recLen b
          else b
        fetchElems f cl e (pushElem cl e v b)

/-- Removes consumed elements. -/
def consume (cl e first n : Nat) (b : Block) : Block :=
  let x := entryOf (se b cl) e
  setEntry cl e { x with buf := x.buf.filter (fun v => decide (v.1 < first ∨ first + n ≤ v.1)) } b

/-- Elements `first` to `first + n − 1` of an entry, once all are there. -/
def elemsAt (x : Entry) (first n : Nat) : Option (List Elem) :=
  let l := (x.buf.dropWhile (fun v => decide (v.1 < first))).take n
  if l.length = n ∧ l.head?.map (·.1) = some first ∧ l.getLast?.map (·.1) = some (first + n - 1) then some (l.map (·.2))
  else if n = 0 then some [] else none

/-- An element as the FP32 word that a VE or a tile takes (R244): FP32 bits unchanged, anything else widened. An MX value beyond FP32's
range rounds to an infinity (log 130). -/
def elemWord (fmt : Nat) (v : Elem) : W32 × Bool :=
  (if fmt = 0 then BitVec.ofNat 32 v.raw else round32 v.val, v.pois)

/-- A remote read is answered (R241). -/
def remoteAnswer (src va : Nat) (data : List Byte) (poison : Nat) (fault : Bool) (b : Block) : Block :=
  (List.range 32).foldl (fun b cl =>
    (List.range 6).foldl (fun b e =>
      let x := entryOf (se b cl) e
      match jobCmd b (se b cl).job with
      | none => b
      | some (c, _) =>
        if !x.asked.any (fun a => a.1 == src && a.2.1 == va) then b
        else if fault then
          match coordOf x x.fetched with
          | some (_, r, k) => streamFault cl e 3 r k c.queue c.count b
          | none => streamFault cl e 3 0 0 c.queue c.count b
        else setEntry cl e { x with asked := x.asked.filter (fun a => !(a.1 == src && a.2.1 == va)),
                                    got := (src, va, data, bytePoison poison data.length) :: x.got } b) b) b

/-- A remote read is not answered within the barrier timeout (R241). -/
def remoteTimeout (cl e : Nat) (b : Block) : Block :=
  match jobCmd b (se b cl).job with
  | none => b
  | some (c, _) =>
    let x := entryOf (se b cl) e
    if x.asked.isEmpty then b
    else match coordOf x x.fetched with
      | some (_, r, k) => streamFault cl e 5 r k c.queue c.count b
      | none => streamFault cl e 5 0 0 c.queue c.count b

/-- A remote read request (R241): the owner translates through its step context and answers, with the checks of the staging and SRAM words
that it reads (04 R107, log 133). -/
def remoteServe (src va n : Nat) (ups : List Upset) (b : Block) : Block :=
  if !activeMember b (devId b) then b
  else
  let b := ups.foldl sramUpset b
  match vRead b (get b fGG_STEP_CTX_CTX) va n with
    | .ok r => sendGang src (.readAnswer va r.bytes (linePoison r.pois) false) b
    | .error .poison => sendGang src (.readAnswer va (leBytes n 0) (linePoison (List.replicate n true)) false) b
    | .error _ => sendGang src (.readAnswer va [] 0 true) b

/-! ### Writes (R236, R237) -/

/-- A value on its way to memory: bits, width in bits, and poison. -/
structure OutVal where
  w : Nat
  width : Nat
  pois : Bool
  deriving DecidableEq, Repr

/-- Writes one element's bits at a PA. -/
def storeBits (pa nib : Nat) (v : OutVal) (b : Block) : Block :=
  if v.width = 4 then
    let old := (memByte b pa).toNat
    let new := if nib = 0 then old / 16 * 16 + v.w % 16 else old % 16 + v.w % 16 * 16
    memWriteP pa [BitVec.ofNat 8 new] (fun _ => v.pois) b
  else memWriteP pa (leBytes (v.width / 8) v.w) (fun _ => v.pois) b

/-- v combined with w (R237). -/
def combineWords (mode : Nat) (v w : W32) : W32 :=
  match mode with
  | 1 => round32 (fpAdd (fp32 v) (fp32 w))
  | 2 => round32 (fpMax (fp32 v) (fp32 w))
  | _ => round32 (fpMin (fp32 v) (fp32 w))

/-- Inserts a write by its order. -/
def insertOrder : List WordWrite → WordWrite → List WordWrite
  | [], o => [o]
  | h :: t, o => if o.order < h.order then o :: h :: t else h :: insertOrder t o

/-- A word after its writes in order (R236, R237): a plain write replaces its bits, COMBINE folds the word; none where a combine meets
poison (04 R109). -/
def replayWrites (v : W32) (pois : Bool) : List WordWrite → Option (W32 × Bool)
  | [] => some (v, pois)
  | x :: t =>
    if x.mode = 0 then
      let n := v.toNat
      let m := 2 ^ x.lo
      let w := n % m + x.w % 2 ^ x.width * m + n / (m * 2 ^ x.width) * (m * 2 ^ x.width)
      replayWrites (BitVec.ofNat 32 w) (if x.width = 32 then x.pois else pois || x.pois) t
    else if pois || x.pois then none
    else replayWrites (combineWords x.mode v (BitVec.ofNat 32 x.w)) false t

/-- Notes what a command has written. -/
def noteWrite (q n pa k : Nat) (b : Block) : Block := modCmd q n (fun c => { c with wrote := (pa, k) :: c.wrote }) b

/-- Some output entry of the command combines (R237). -/
def Cmd.combines (c : Cmd) : Bool := [6, 7].any (fun e => c.valid.testBit e && (c.tensor e).combine != 0)

/-- Writes of the command can overlap in part: outputs of two widths, or 4-bit elements with scale bytes. -/
def Cmd.mixedWidths (c : Cmd) : Bool :=
  (c.tensor 6).fmt == 10 || (c.valid.testBit 6 && c.valid.testBit 7 && fmtWidth (c.tensor 6).fmt != fmtWidth (c.tensor 7).fmt)

/-- The parts of an element whose last write is kept apart (R236): the whole element where writes overlap wholly or not at all, else its
nibbles. -/
def writeKeys (c : Cmd) (pa nib width : Nat) : List Nat :=
  if c.mixedWidths then (List.range (width / 4)).map (fun i => 2 * pa + nib + i) else [2 * pa + nib]

/-- The bits that a write leaves where later writes keep some of its nibbles. -/
def keepLater (b : Block) (pa nib order : Nat) (tags : SMap Nat) (v : OutVal) : OutVal :=
  let old := memNat b pa (max 1 (v.width / 8)) / 16 ^ nib
  let keep := fun i => decide (order < mapGet 0 tags (2 * pa + nib + i))
  let ns := List.range (v.width / 4)
  if ns.any keep then
    { v with w := ns.foldl (fun a i => a + (if keep i then old / 16 ^ i % 16 else v.w / 16 ^ i % 16) * 16 ^ i) 0,
             pois := v.pois || anyPoison b pa (max 1 (v.width / 8)) }
  else v

/-- A stream writes a blocked layout in whole words (10 R273): once a command has written every nibble of a poisoned word, or of one in a
lost region whose fill runs, nothing of the old word is left to merge (10 R279). -/
def coverWord (c : Cmd) (t : Tensor) (pa nib : Nat) (v : OutVal) (b : Block) : Block :=
  let unit := poisonUnit pa
  let u := pa / unit * unit
  if t.layout = 1 ∨ !(anyPoison b u unit || (lostFill b u).isSome) then b
  else match jobOf b c.queue c.count with
  | none => b
  | some j =>
    let part := (2 ^ (v.width / 4) - 1) * 2 ^ (2 * (pa - u) + nib)
    let old := mapGet 0 j.cover u
    let m := if v.pois then old - (old &&& part) else old ||| part
    let full := decide (m = 2 ^ (2 * unit) - 1)
    let b := setJob { j with cover := mapSet 0 j.cover u (if full then 0 else m) } b
    if full then fillWord (upTo (unit / 4) (fun b i => setPoison b (u + 4 * i) false) b) u else b

/-- Writes an element in global iteration order (R236): the later write of a byte stays, COMBINE folds them in order. -/
def storeOrdered (cl : Nat) (c : Cmd) (t : Tensor) (mode order pa nib : Nat) (v : OutVal) (b : Block) : Block :=
  match jobOf b c.queue c.count with
  | none => b
  | some j =>
    let n := max 1 (v.width / 8)
    if !c.combines then
      let ks := writeKeys c pa nib v.width
      if ks.all (fun k => decide (order < mapGet 0 j.tags k)) then b
      else
        let x := if c.mixedWidths then keepLater b pa nib order j.tags v else v
        coverWord c t pa nib x <|
          setJob { j with tags := ks.foldl (fun t k => mapSet 0 t k (max (mapGet 0 t k) (order + 1))) j.tags }
            (storeBits pa nib x (noteWrite c.queue c.count pa n b))
    else
      let a := pa / 4 * 4
      let old := (j.words.find? (fun x => x.pa == a)).getD ⟨a, BitVec.ofNat 32 (memNat b a 4), anyPoison b a 4, []⟩
      let ws := insertOrder old.writes ⟨order, mode, 8 * (pa - a) + 4 * nib, v.width, v.w, v.pois⟩
      match replayWrites old.before old.pois ws with
      | none => poisonTask cl c.queue c.count b
      | some r =>
        setJob { j with words := { old with writes := ws } :: j.words.filter (fun x => x.pa != a) }
          (storeBits a 0 ⟨r.1.toNat, 32, r.2⟩ (noteWrite c.queue c.count a 4 b))

/-- Bytes that a write adds to SE_CNT_WR (R257): a 4-bit element adds none where its neighbour in the byte is the write before or after
it, whose byte it shares. -/
def bytesWritten (b : Block) (c : Cmd) (order pa nib width : Nat) : Nat :=
  if width ≠ 4 then width / 8
  else match jobOf b c.queue c.count with
    | none => 1
    | some j =>
      let beside := fun (t : Nat) => t + 1 == order || t == order + 1
      let k := 2 * pa + (1 - nib)
      let shared := if c.combines then
          (match j.words.find? (fun x => x.pa == pa / 4 * 4) with
           | none => false
           | some x => x.writes.any (fun w => w.lo == 8 * (pa % 4) + 4 * (1 - nib) && w.width == 4 && beside w.order))
        else (match mapGet 0 j.tags k with
          | 0 => false
          | t + 1 => beside t)
      if shared then 0 else 1

/-- Where element `s` of an output entry is stored: its first nibble, and how many it has; none where it is not written here. -/
def storedAt (b : Block) (c : Cmd) (j : Job) (cl e width : Nat) (so : Nat × Nat) : Option (Nat × Nat) :=
  let t := c.tensor e
  match coordOf (entryOf (se b cl) e) so.1 with
  | none => none
  | some (g, r, k) =>
    if g.pad || beyond t r k then none
    else match placeOf b c j e r.toNat k.toNat with
      | .error _ => none
      | .ok p =>
        if p.peer.isSome then none
        else match translate b c.ctx p.va true with
          | .ok pa =>
            if (writeKeys c pa p.nib width).all (fun k => decide (mapGet 0 j.tags k ≤ so.2)) then some (2 * pa + p.nib, width / 4) else none
          | _ => none

/-- A row of elements, with their orders, is written as whole storage words where it covers them, so that no merge keeps their
old poison (10 R273) and the fill of a lost region sees them written (10 R279). -/
def clearCovered (cl e width : Nat) (ss : List (Nat × Nat)) (b : Block) : Block :=
  if b.poison.isEmpty && !anyLostFill b then b
  else match jobCmd b (se b cl).job with
  | none => b
  | some (c, j) =>
    if c.combines then b
    else
      let ns := (ss.filterMap (storedAt b c j cl e width)).eraseDups
      let units := (ns.map (fun (p : Nat × Nat) => (p.1 / (2 * poisonUnit (p.1 / 2)) * poisonUnit (p.1 / 2), poisonUnit (p.1 / 2)))).eraseDups
      units.foldl (fun (b : Block) (u : Nat × Nat) =>
        let got := ns.filter (fun (p : Nat × Nat) => decide (2 * u.1 ≤ p.1 ∧ p.1 < 2 * (u.1 + u.2)))
        if got.foldl (fun a p => a + p.2) 0 = 2 * u.2 then
          let b := (List.range (u.2 / 4)).foldl (fun b i => setPoison b (u.1 + 4 * i) false) b
          if u.2 = 8 then fillWord b u.1 else b
        else b) b

/-- Writes element `s` of an output entry; a coordinate beyond the extent is discarded (R231). -/
def storeElem (cl e s order : Nat) (v : OutVal) (b : Block) : Block :=
  match jobCmd b (se b cl).job with
  | none => b
  | some (c, j) =>
    let t := c.tensor e
    match coordOf (entryOf (se b cl) e) s with
    | none => b
    | some (g, r, k) =>
      if g.pad || beyond t r k then b
      else match placeOf b c j e r.toNat k.toNat with
        | .error x => streamFault cl e x r k c.queue c.count b
        | .ok p =>
          if p.peer.isSome then streamFault cl e 4 r k c.queue c.count b
          else match translate b c.ctx p.va true with
            | .ok pa => storeOrdered cl c t t.combine order pa p.nib v
                (count64 (rSE_CNT_WR_LO cl) (bytesWritten b c order pa p.nib v.width) b)
            | .poison => poisonTask cl c.queue c.count b
            | _ => streamFault cl e 3 r k c.queue c.count b

/-- Writes the scale byte of an MX block at the record of the block's first element (04 R96, R98). -/
def storeScale (cl e s order scale : Nat) (b : Block) : Block :=
  match jobCmd b (se b cl).job with
  | none => b
  | some (c, j) =>
    let t := c.tensor e
    match coordOf (entryOf (se b cl) e) s with
    | none => b
    | some (g, r, k) =>
      if g.pad || beyond t r k then b
      else match placeOf b c j e r.toNat k.toNat with
        | .error x => streamFault cl e x r k c.queue c.count b
        | .ok p =>
          if p.peer.isSome then streamFault cl e 4 r k c.queue c.count b
          else match translate b c.ctx p.scaleVa true with
            | .ok pa => storeOrdered cl c t 0 order pa 0 ⟨scale, 8, false⟩ (count64 (rSE_CNT_WR_LO cl) 1 b)
            | .poison => poisonTask cl c.queue c.count b
            | _ => streamFault cl e 3 r k c.queue c.count b

/-- All coordinates of elements `first` to `first + n − 1` are emitted. -/
def outReady (b : Block) (cl e first n : Nat) : Bool := decide (first + n ≤ (entryOf (se b cl) e).emitted)

/-- The element is written: its coordinate is in the tensor. -/
def written (c : Cmd) (x : Entry) (e s : Nat) : Bool :=
  match coordOf x s with
  | some (g, r, k) => !g.pad && !beyond (c.tensor e) r k
  | none => false

/-- Partition iterations of the cluster of a rank whose result tiles are all written (R257). -/
def partsDone (c : Cmd) (rank : Nat) (j : Job) : Nat :=
  ((List.range (c.itersOf rank)).filter (fun k => (List.range c.tilesPerIter).all (fun t =>
    mapGet 0 j.rowsOut ((rank + k * c.nclus) * c.tilesPerIter + t) == 128))).length

/-- A row of a result tile is written; a whole tile can complete its partition iteration (R257). -/
def noteRow (cl tile : Nat) (b : Block) : Block :=
  match jobCmd b (se b cl).job with
  | none => b
  | some (c, j) =>
    let s := se b cl
    let n := mapGet 0 j.rowsOut tile + 1
    let j := { j with rowsOut := mapSet 0 j.rowsOut tile n }
    let b := setSe cl { s with outRows := s.outRows + 1 } (setJob j b)
    if n = 128 then put (fSE_STATE_PART_DONE cl) (min (partsDone c s.rank j) 0xFFFF) b else b

/-! ### Conversion on the way out (04 R88–R93, R103–R104) -/

/-- Random bits of stochastic rounding at a position: 16 bits of y0 (13 R364). -/
abbrev Draw := Nat → Nat

/-- Converts one value: encoding, NaNs, overflows, flags. -/
def convertOut (fmt cvt : Nat) (r : Nat) (x : Fp) : CvtOut :=
  convertCode fmt ⟨if cvt % 2 = 1 then some r else none, cvt.testBit 1⟩ x

/-- A value of a pure move (R252): bits unchanged where the format is the same, else converted. -/
def moveValue (src dst cvt : Nat) (v : Elem) : CvtOut :=
  if src = dst then ⟨v.raw, 0, 0, 0⟩
  else if src = 12 then convertOut dst cvt 0 (fp32 (round32 v.val))
  else convertOut dst cvt 0 v.val

/-- Adds NaN and overflow counts to a command (15 R433). -/
def addCounts (q n nans ovfs : Nat) (b : Block) : Block :=
  if nans = 0 ∧ ovfs = 0 then b else modCmd q n (fun c => { c with nan := c.nan + nans, ovf := c.ovf + ovfs }) b

/-- The block that element `s` of entry 6 belongs to, and its place in it (04 R93, R97): leaf, vector, and index along AXIS. -/
def mxPlace (t : Tensor) (x : Entry) (s : Nat) : Option (Int × Int × Int × Nat) :=
  match coordOf x s with
  | none => none
  | some (g, r, k) =>
    if g.pad then none
    else some (r / 32, k / 32, if t.axis then k % 32 else r % 32, (if t.axis then r % 32 else k % 32).toNat)

/-- Puts an element into the block that forms for it; a later write of a place replaces the earlier one (R236). -/
def joinBlock (p : Int × Int × Int × Nat) (s : Nat) (v : Elem) : List MoveBlock → List MoveBlock
  | [] => [⟨p.1, p.2.1, p.2.2.1, [(p.2.2.2, s, v)]⟩]
  | h :: t =>
    if h.row = p.1 ∧ h.col = p.2.1 ∧ h.vec = p.2.2.1 then
      { h with els := h.els.filter (fun e => e.1 != p.2.2.2) ++ [(p.2.2.2, s, v)] } :: t
    else h :: joinBlock p s v t

/-- Order of a move's write of element `s`, over the whole command (R236). -/
def moveOrder (b : Block) (cl : Nat) (c : Cmd) (s : Nat) : Nat :=
  let n := max (c.elems 6) 1
  ((se b cl).rank + s / n * c.nclus) * n + s % n

/-- The 32 values of a block that a pure move forms, by place: one that no element of the move has takes a free value (log 131). -/
def blockValues (src : Nat) (k : MoveBlock) (b : Block) : List Fp × Block :=
  upTo 32 (fun (a : List Fp × Block) i => match k.els.find? (fun e => e.1 == i) with
    | some e => (a.1 ++ [if src = 12 then fp32 (round32 e.2.2.val) else e.2.2.val], a.2)
    | none =>
      let f := drawFree a.2
      (a.1 ++ [fp32 (BitVec.ofNat 32 f.1)], f.2)) ([], b)

/-- Writes one MX block of a pure move (R93, R252). -/
def emitBlock (cl : Nat) (c : Cmd) (k : MoveBlock) (b : Block) : Block :=
  let t := c.tensor 6
  let src := (c.tensor 0).fmt
  let cvt := byteAt c.sblk 1
  let x := entryOf (se b cl) 6
  if k.els.any (fun e => e.2.2.pois) then poisonTask cl c.queue c.count b
  else
    let vs := blockValues src k b
    let b := vs.2
    let out := mxBlock t.fmt (cvt.testBit 1) none vs.1
    let order := moveOrder b cl c
    let live := k.els.filter (fun e => written c x 6 e.2.1)
    let b := clearCovered cl 6 (fmtWidth t.fmt) (live.map (fun e => (e.2.1, order e.2.1))) b
    let b := match live.getLast? with
      | some e => storeScale cl 6 e.2.1 (order e.2.1) out.1 b
      | none => b
    k.els.foldl (fun b e =>
      let o := out.2.getD e.1 { w := 0 }
      storeElem cl 6 e.2.1 (order e.2.1) ⟨o.w, fmtWidth t.fmt, false⟩ (addCounts c.queue c.count o.nans o.ovfs b)) b

/-- Notes the leaf block of a written INT8 element, whose column sums follow (04 R98). -/
def noteSum (cl : Nat) (c : Cmd) (s : Nat) (b : Block) : Block :=
  let t := c.tensor 6
  let x := entryOf (se b cl) 6
  if t.fmt ≠ 6 ∨ t.layout = 1 ∨ !written c x 6 s then b
  else match coordOf x s with
    | some (_, r, k) => modJob c.queue c.count (fun j =>
        { j with leaves := setInsert j.leaves (32 * tileIndex t r.toNat k.toNat + leafIndex r.toNat k.toNat) }) b
    | none => b

/-- Moves elements `first` to `first + n − 1` of a pure move; the last portion of a partition iteration writes every block left. -/
def moveElems (cl first n : Nat) (vs : List Elem) (last : Bool) (c : Cmd) (b : Block) : Block :=
  let src := (c.tensor 0).fmt
  let t := c.tensor 6
  let cvt := byteAt c.sblk 1
  let order := moveOrder b cl c
  let x := entryOf (se b cl) 6
  if isMX t.fmt then
    let ks := (List.range n).foldl (fun ks i => match mxPlace t x (first + i) with
      | some p => joinBlock p (first + i) (vs.getD i padElem) ks
      | none => ks) (se b cl).blocks
    let full := fun (k : MoveBlock) => last || decide (32 ≤ k.els.length)
    let b := setSe cl { se b cl with blocks := ks.filter (fun k => !full k) } b
    (ks.filter full).foldl (fun b k => emitBlock cl c k b) b
  else if src != t.fmt && (List.range n).any (fun i => (vs.getD i padElem).pois) then poisonTask cl c.queue c.count b
  else
    let b := clearCovered cl 6 (fmtWidth t.fmt) ((List.range n).map (fun i => (first + i, order (first + i)))) b
    (List.range n).foldl (fun b i =>
      let v := vs.getD i padElem
      let o := if v.pad then convertOut t.fmt 0 0 (.fin false 0 0) else moveValue src t.fmt cvt v
      noteSum cl c (first + i)
        (storeElem cl 6 (first + i) (order (first + i)) ⟨o.w, fmtWidth t.fmt, v.pois⟩
          (addCounts c.queue c.count o.nans o.ovfs b))) b

/-- One column sum of a leaf block (04 R96): none where a read of an element fails, with what it meets. -/
def leafColumn (b : Block) (c : Cmd) (j : Job) (r0 k : Nat) : Except ReadErr (Int × Bool) :=
  let t := c.tensor 6
  (List.range 32).foldl (fun a h => match a with
    | .error x => .error x
    | .ok (s, bad) =>
      if r0 + h < t.rows ∧ k < t.cols then
        match elemAt b c j Entry.fresh 6 (r0 + h) k with
        | .error x => .error x
        | .ok (v, _) => .ok (s + sx8 v.raw, bad || v.pois)
      else .ok (s, bad)) (.ok (0, false))

/-- Writes the column sums of one leaf block of the destination (04 R96, R98). -/
def leafSums (cl : Nat) (c : Cmd) (r0 c0 : Nat) (b : Block) : Block :=
  match jobCmd b (se b cl).job with
  | none => b
  | some (c', j) =>
    match placeOf b c' j 6 r0 c0 with
    | .error _ => b
    | .ok p =>
      let cols := (List.range 32).map (fun i => leafColumn b c' j r0 (c0 + i))
      if p.peer.isSome then b
      else if cols.any (fun x => match x with
          | .error .poison => true
          | .ok (_, bad) => bad
          | _ => false) then poisonTask cl c.queue c.count b
      else if cols.any (fun x => match x with
          | .error _ => true
          | .ok _ => false) then streamFault cl 6 3 r0 c0 c.queue c.count b
      else
        let bytes := cols.flatMap (fun x => match x with
          | .ok (s, _) => leBytes 2 (s % 65536).toNat
          | .error _ => leBytes 2 0)
        match translate b c.ctx p.recVa true with
        | .ok pa => count64 (rSE_CNT_WR_LO cl) 64 (memWriteP pa bytes (fun _ => false) (noteWrite c.queue c.count pa 64 b))
        | .poison => poisonTask cl c.queue c.count b
        | _ => streamFault cl 6 3 r0 c0 c.queue c.count b

/-- INT8 column sums of a pure move from row-major to blocked INT8, once every element is written (04 R96, R98, R252): a COPY writes
the record of every leaf block of the storage, another move those of the leaf blocks it wrote (log 132). -/
def moveSums (cl : Nat) (c : Cmd) (j : Job) (b : Block) : Block :=
  let t := c.tensor 6
  if !(t.fmt == 6 && t.layout != 1 && (t.layout == 2 || t.scale != 0) && (c.tensor 0).layout == 1) then b
  else
    let across := ceilDiv t.cols 256
    let all := List.range (ceilDiv t.rows 128 * across * 32)
    (if c.cls = 2 then all else all.filter (fun k => j.leaves.contains k)).foldl (fun b k =>
      leafSums cl c (k / 32 / across * 128 + k % 32 / 8 * 32) (k / 32 % across * 256 + k % 8 * 32) b) b

end Sys2Proof.Machine
end

