-- ==== Sys2Proof/Machine/ScanOps.lean ====
section
/-!
DEFINITION. Carries of a SCAN command along a drift (08 R214–R216, 12 R315, R317–R320, R334).
-/

namespace Sys2Proof.Machine

/-- Channels of a channel block. -/
def Cmd.blockCh (c : Cmd) (i : Nat) : Nat := min (256 * c.chTiles) (c.nch - 256 * c.chTiles * i)
/-- CARRY messages of a channel block (R334). -/
def Cmd.carryParts (c : Cmd) (i : Nat) : Nat := ceilDiv (c.blockCh i) 1008
/-- CARRY messages of the command. -/
def Cmd.carryMsgs (c : Cmd) : Nat := (List.range c.chBlocks).foldl (fun a i => a + c.carryParts i) 0
/-- The carry comes from the drift. -/
def Cmd.fromDrift (c : Cmd) : Bool := c.mode == 4 && c.carrySrc == 2
/-- The final carry goes to the drift. -/
def Cmd.toDrift (c : Cmd) : Bool := c.mode == 4 && c.carryFlags.testBit 3

/-- Drift of the command's group and this device's position on it. -/
def scanDrift (b : Block) (c : Cmd) : Option (List Nat × Nat) :=
  match groupOf b c.scanGroup with
  | none => none
  | some g => (posOf g.drift (devId b)).map (fun p => (g.drift, p))

/-- Predecessor on the drift: none at position 0. -/
def scanPred (b : Block) (c : Cmd) : Option Nat :=
  match scanDrift b c with
  | some (d, p) => if p = 0 then none else d[p - 1]?
  | none => none
/-- Successor on the drift: none at the last position, and none where it is FAILED, since a carry passes over no failed position (R334)
and a failed device grants nothing (log 156). -/
def scanSucc (b : Block) (c : Cmd) : Option Nat :=
  match scanDrift b c with
  | some (d, p) => d[p + 1]?.filter (fun x => !(failedIds b).contains x)
  | none => none

/-- The drift position of a scan's neighbour. -/
def scanPos (b : Block) (c : Cmd) (d : Nat) : Option Nat :=
  match scanDrift b c with
  | some (l, _) => posOf l d
  | none => none

/-- ELEMS of a scan's messages (R317): NCH in a CARRY, and zero elsewhere, since a SCAN has no ELEMS (log 156). -/
def Cmd.scanElems (c : Cmd) (kind : Nat) : Nat := if kind = 4 then c.nch else 0

/-- The chunk header of a scan (R317): no rounds, no OP, no AGREED_EXP. -/
def scanHeader (b : Block) (c : Cmd) (kind shard chunk count : Nat) : List Byte :=
  let p := match scanDrift b c with
    | some x => x.2
    | none => 0
  leBytes 4 c.scanTally ++ leBytes 2 c.scanGroup ++ leBytes 1 kind ++ leBytes 3 0 ++ leBytes 2 shard ++ leBytes 4 chunk
    ++ leBytes 4 (c.scanElems kind) ++ leBytes 2 count ++ leBytes 2 0 ++ leBytes 2 p ++ leBytes 38 0

/-- Sends a message of a scan (CLASS 0x2), counting its bytes (R342). -/
def scanSend (d : Nat) (hdr data : List Byte) (pois : Nat) (b : Block) : Block :=
  let pl := hdr ++ data ++ List.replicate ((8 - data.length % 8) % 8) 0#8
  sendMsg d 2 (pois * 2) pl (count64 (rRED_BYTES_TX_LO (sendHalf b d)) pl.length b)

/-- At dispatch the receiver grants one buffer for each CARRY message it will receive (R320). -/
def scanGrant (c : Cmd) (b : Block) : Block :=
  match scanPred b c with
  | some d => if c.fromDrift then scanSend d (scanHeader b c 2 0 c.carryMsgs 0) [] 0 b else b
  | none => b

/-- The final carries of every channel block have taken their way. -/
def carriesSent (b : Block) (c : Cmd) (j : Job) : Bool :=
  !c.toDrift || (scanSucc b c).isNone || j.sentParts == c.carryMsgs

/-- Sends the parts of one channel block's final carry. -/
def sendBlock (d i : Nat) (c : Cmd) (ws : List (W32 × Bool)) (b : Block) : Block :=
  (List.range (c.carryParts i)).foldl (fun b k =>
    let n := min 1008 (c.blockCh i - 1008 * k)
    let part := (ws.drop (1008 * k)).take n
    scanSend d (scanHeader b c 4 i k n) (wordBytes part) (linePoison (wordPoison part)) b) b

/-- Sends the final carries that are known and granted (R214, R320): each channel block relays separately. -/
def pumpCarry (q n : Nat) (b : Block) : Block :=
  match findCmd b q n with
  | none => b
  | some c =>
    match scanSucc b c with
    | none => b
    | some d =>
      if !c.toDrift then b
      else (List.range c.chBlocks).foldl (fun b i =>
        match jobOf b q n with
        | none => b
        | some j => match mapGet none j.final i with
          | some (w :: ws) =>
            if j.sentParts + c.carryParts i ≤ j.granted then
              setJob { j with final := mapSet none j.final i (some []), sentParts := j.sentParts + c.carryParts i }
                (sendBlock d i c (w :: ws) b)
            else b
          | _ => b) b

/-- The lowest channel block whose carry has not arrived. -/
def missingBlock (c : Cmd) (j : Job) : Option Nat :=
  (List.range c.chBlocks).find? (fun i => (mapGet none j.carries (i * c.segments)).isNone)

/-- SCAN_CARRY_ABORTED (R216). -/
def scanAbort (c : Cmd) (j : Job) (b : Block) : Block := abortTask c.queue c.count 0x31 ((missingBlock c j).getD 0) b

/-- The running SCAN command that holds a bucket ID. -/
def scanByBucket (b : Block) (bid : Nat) : Option (Cmd × Job) :=
  (b.jobs.filterMap (fun j => jobCmd b (some (j.queue, j.count)))).find?
    (fun p => (p.1.fromDrift || p.1.toDrift) && p.1.scanTally % 65536 == bid)

/-- Classifies a message of CLASS 0x2 (R319, R216) and runs `use` on the scan it belongs to; `peer` says who may send it. -/
def scanClassify (half : Nat) (m : Msg) (peer : Block → Cmd → Option Nat) (use : Cmd → Job → ChunkHdr → Block → Block)
    (b : Block) : Block :=
  let h := chunkHdr m.payload
  match scanByBucket b (h.tally % 65536) with
  | some (c, j) =>
    if c.scanTally = h.tally then
      if !h.zeros false || h.group != c.scanGroup || h.op != 0 || h.agreed != 0 || h.round != 0 || h.elems != c.scanElems h.kind
          || (peer b c).isNone || (peer b c).bind (scanPos b c) != some h.pos then scanAbort c j (countProto half b)
      else use c j h b
    else if newer16 (h.tally / 65536) (c.scanTally / 65536) then scanAbort c j (countProto half b)
    else countStale half b
  | none =>
    if newer16 (h.tally / 65536) (mapGet 0 b.lastGen (h.tally % 65536)) then countProto half b else countStale half b

/-- A message whose bucket ID a running command of the other class holds (R319): with its tally or a newer generation it is a protocol
error of that command, with an older one it is stale. None where no such command holds the bucket. -/
def crossClass (half : Nat) (m : Msg) (b : Block) : Option Block :=
  let h := chunkHdr m.payload
  let bid := h.tally % 65536
  let clash := fun (own : Nat) (stop : Block) =>
    if own = h.tally ∨ newer16 (h.tally / 65536) (own / 65536) then stop else countStale half b
  if m.cls = 1 then
    (scanByBucket b bid).map (fun p => clash p.1.scanTally (scanAbort p.1 p.2 (countProto half b)))
  else
    (b.colls.find? (fun c => !c.complete && c.tally % 65536 == bid)).map (fun c => clash c.tally (collError c half .proto b))

/-- Assembles a channel block's carry from its parts. -/
def assemble (c : Cmd) (j : Job) (i : Nat) : Option (List (W32 × Bool)) :=
  let ps := (List.range (c.carryParts i)).filterMap (fun k => (j.parts.find? (fun p => p.1 == i && p.2.1 == k)).map (fun p => p.2.2))
  if ps.length = c.carryParts i then some ps.flatten else none

/-- CHUNK_CARRY (R214, R334): a part of the predecessor's final carry. -/
def useCarry (half : Nat) (m : Msg) (b : Block) : Block :=
  scanClassify half m scanPred (fun c j h b =>
    let n := min 1008 (c.blockCh h.shard - 1008 * h.chunk)
    if h.kind ≠ 4 then b
    else if !c.fromDrift || decide (c.chBlocks ≤ h.shard) || decide (c.carryParts h.shard ≤ h.chunk) || h.count != n
        || decide (m.payload.length < 64 + 4 * n) || h.contrib != 0 then scanAbort c j (countProto half b)
    else if j.parts.any (fun p => p.1 == h.shard && p.2.1 == h.chunk) then b
    else
      let j := { j with parts := j.parts ++ [(h.shard, h.chunk, chunkWords m n)] }
      let j := match assemble c j h.shard with
        | some ws =>
          let ws := ws ++ List.replicate (256 * c.chTiles - ws.length) (0#32, false)
          { j with carries := mapSet none j.carries (h.shard * c.segments) (some ws) }
        | none => j
      setJob j b) b

/-- A GRANT of the successor (R320). -/
def useScanGrant (half : Nat) (m : Msg) (b : Block) : Block :=
  scanClassify half m scanSucc (fun c j h b =>
    if h.kind ≠ 2 ∨ !c.toDrift then b
    else pumpCarry c.queue c.count (setJob { j with granted := max j.granted h.chunk } b)) b

/-- An abort marker from the predecessor (R216): the command completes with SCAN_CARRY_ABORTED unless its carries are here. -/
def useScanAbort (half : Nat) (m : Msg) (b : Block) : Block :=
  scanClassify half m scanPred (fun c j h b =>
    if h.kind ≠ 3 ∨ !c.fromDrift ∨ (missingBlock c j).isNone then b else scanAbort c j b) b

/-- A declaration meets a running scan (R216): the predecessor's failure ends it while its carry is missing. -/
def declareScan (dev : Nat) (b : Block) : Block :=
  b.jobs.foldl (fun b j =>
    match jobCmd b (some (j.queue, j.count)) with
    | none => b
    | some (c, j) =>
      if c.fromDrift && scanPred b c == some dev && (missingBlock c j).isSome then scanAbort c j b else b) b

/-- This device leaves the gang (R216): scans that wait for, hold or have yet to send a drift carry end and send nothing further. A scan at
position 0 waits for none and holds none (R214). -/
def excludeScans (b : Block) : Block :=
  b.jobs.foldl (fun b j =>
    match jobCmd b (some (j.queue, j.count)) with
    | none => b
    | some (c, j) =>
      if (c.fromDrift && (scanPred b c).isSome) || !carriesSent b c j then
        scanAbort c j (setJob { j with sentParts := c.carryMsgs } b)
      else b) b

/-- A command that aborted before it sent its final carry sends its marker (R216); a job whose command is over is dropped. -/
def scanAborted (b : Block) : Block :=
  b.jobs.foldl (fun b j =>
    match findCmd b j.queue j.count with
    | none => { b with jobs := b.jobs.filter (fun x => !(x.queue == j.queue && x.count == j.count)) }
    | some c =>
      if c.stage != .finished then b
      else
        let b := { b with jobs := b.jobs.filter (fun x => !(x.queue == j.queue && x.count == j.count)) }
        if 3 ≤ c.status && !carriesSent b c j then
          match scanSucc b c with
          | some d => scanSend d (scanHeader b c 3 0 0x31 0) [] 0 b
          | none => b
        else b) b

end Sys2Proof.Machine
end

