-- ==== Sys2Proof/Machine/GangOps.lean ====
section
/-!
DEFINITION. The gang: tables, formation, declarations, votes, decisions and takeover (11 R300–R309, R517; 13 R350–R355).
Messages whose layout the spec does not give are structured (log 11).
-/

namespace Sys2Proof.Machine

/-- ROLE: 0 none, 1 member, 2 deputy, 3 master (R311). -/
def role (b : Block) : Nat := get b fGG_STATE_ROLE
/-- Replaces the gang's state. -/
def setGang (f : Gang → Gang) (b : Block) : Block := { b with gang := f b.gang }
/-- Replaces the pithead's state. -/
def setPit (f : Pit → Pit) (b : Block) : Block := { b with pit := f b.pit }
/-- GG_PIT.STATE (13 R358). -/
def pitState (b : Block) : Nat := get b fGG_PIT_STATE
/-- Sets GG_PIT.STATE. -/
def setPitState (n : Nat) (b : Block) : Block := put fGG_PIT_STATE n b
/-- GG_PIT.MSTATE: 0 idle, 1 collecting, 2 logging, 3 sending (13 R362). -/
def mState (b : Block) : Nat := get b fGG_PIT_MSTATE
/-- Sets GG_PIT.MSTATE. -/
def setMState (n : Nat) (b : Block) : Block := put fGG_PIT_MSTATE n b

/-- The step context (13 R345). -/
def stepCtx (b : Block) : Nat := get b fGG_STEP_CTX_CTX
/-- Epoch of a context. -/
def ctxEpoch (b : Block) (c : Nat) : Nat := (ctx b c).epoch
/-- Epoch of the step context. -/
def stepEpoch (b : Block) : Nat := ctxEpoch b (stepCtx b)
/-- Adopted generation. -/
def gen (b : Block) : Nat := get b fGG_STATE_GEN

/-- ACTIVE members of a table. -/
def tblActive (t : Tables) : List Nat := (t.members.filter (fun m => m.2 == 1)).map (fun m => m.1)
/-- Members of a table. -/
def tblIds (t : Tables) : List Nat := t.members.map (fun m => m.1)

/-- Members of the working table, this device excluded. -/
def others (b : Block) : List Nat :=
  match b.gang.cur with
  | some t => (tblIds t).filter (fun d => d != devId b)
  | none => []

/-- The master of the working table. -/
def masterId (b : Block) : Nat :=
  match b.gang.cur with
  | some t => t.master
  | none => 0xFFFF

/-- The deputy that logs: named and not declared failed (R353). -/
def liveDeputy (b : Block) : Option Nat :=
  match b.gang.cur with
  | some t => if t.deputy != 0xFFFF && (tblActive t).contains t.deputy then some t.deputy else none
  | none => none

/-- Members heard within the heartbeat timeout, this device included. -/
def heardCount (b : Block) : Nat := ((others b).filter (fun d => b.gang.heard.contains d)).length + 1

/-- More than half of the generation's members, this device included (R305, R306). -/
def majority (b : Block) (n : Nat) : Bool :=
  match b.gang.cur with
  | some t => decide (t.members.length < 2 * n)
  | none => false

/-- The master holds quorum (R305). -/
def quorum (b : Block) : Bool := majority b (heardCount b)

/-- Quorum is gone: the gang decides nothing (R305, R306). -/
def quorumLost (heard : Nat) (b : Block) : Block :=
  post 0x0304 7 heard (setGang (fun g => { g with stopped := true }) b)

/-! ### A securing that fails (14 R388, R391, R401) -/

/-- SECURE_FAILED for a target (01 HOST, 10 PEER, 11 both) (15 R441). -/
def secureFailed (cause target epoch : Nat) (b : Block) : Block :=
  raise 7 64 (post 0x0404 7 (cause + target * 16 + epoch * 2 ^ 32) (put fGG_SECURE_STAT_CAUSE cause b))

/-- A whole attempt fails. -/
def secureFail (cause target epoch : Nat) (b : Block) : Block :=
  secureFailed cause target epoch (put fGG_SECURE_STAT_STATE 0 { b with securing := none, secFailed := true })

/-- TARGET of an attempt as it stands: bit 0 HOST, bit 1 PEER. -/
def Securing.target (s : Securing) : Nat := b2n s.host + 2 * b2n s.peer

/-- The securing that the fence of FD3 or leaving the gang ends (R391). -/
def secureAbort (b : Block) : Block :=
  match b.securing with
  | some s => secureFail 6 s.target s.epoch b
  | none => b

/-! ### Tables in memory (R300) -/

/-- Puts `n` zero bytes into a kept region. -/
def regionZero : List (Nat × Nat) → (off n : Nat) → Block → Block
  | [], _, _, b => b
  | (pa, k) :: t, off, n, b =>
    if off < k then regionZero t 0 (n - (k - off)) (memZero (pa + off) (pa + off + min n (k - off)) b)
    else regionZero t (off - k) n b

/-- A field of a kept region. -/
def regionNat (b : Block) (ps : List (Nat × Nat)) (off n : Nat) : Nat := leNat (regionBytes b ps off n)

/-- A copy of the tables as bytes by offset. -/
def tablePieces (t : Tables) : List (Nat × List Byte) :=
  let head := leBytes 2 t.gen ++ leBytes 2 t.members.length
    ++ leBytes 2 (t.groups.foldl (fun m g => max m (g.num + 1)) 0) ++ leBytes 2 t.master ++ leBytes 2 t.deputy
  let mem := t.members.flatMap (fun m => leBytes 2 m.1 ++ leBytes 1 m.2 ++ leBytes 5 0)
  let gs := t.groups.flatMap (fun g =>
    [(0x8040 + 16 * g.num, leBytes 2 g.drift.length ++ leBytes 2 (1 + 2 * b2n g.isRing) ++ leBytes 4 g.off ++ leBytes 8 0),
     (0x10000 + 2 * g.off, g.drift.flatMap (leBytes 2))])
  (0, head) :: (0x40, mem) :: gs

/-- Writes the CURRENT copy (R300, R303). -/
def writeCurrent (t : Tables) (b : Block) : Block :=
  (tablePieces t).foldl (fun b p => regionWrite b.gang.tablePas p.1 p.2 b) (regionZero b.gang.tablePas 0 0x40000 b)

/-- The PROPOSED copy, and whether a reserved field is not zero, a count lies outside its range or a list outside the drift
lists (rule 6 of R303). -/
def readProposed (b : Block) : Tables × Bool :=
  let ps := b.gang.tablePas
  let at' := fun off n => regionNat b ps (0x40000 + off) n
  let n := at' 2 2
  let k := at' 4 2
  let ms := (List.range (min n 4096)).map (fun i => (at' (0x40 + 8 * i) 2, at' (0x42 + 8 * i) 1))
  let gs := (List.range (min k 1024)).filterMap (fun i =>
    let o := 0x8040 + 16 * i
    let fl := at' (o + 2) 2
    if fl % 2 = 0 then none
    else some (⟨i, fl / 2 % 2 == 1, at' (o + 4) 4, (List.range (min (at' o 2) 4096)).map (fun e => at' (0x10000 + 2 * (at' (o + 4) 4 + e)) 2)⟩ : Group))
  let badGroup := (List.range (min k 1024)).any (fun i =>
    let o := 0x8040 + 16 * i
    at' (o + 2) 2 % 2 == 1 && (decide (4 ≤ at' (o + 2) 2) || at' (o + 8) 8 != 0 || at' o 2 == 0 || decide (4096 < at' o 2)
      || decide (98304 < at' (o + 4) 4 + at' o 2)))
  let bad := badGroup || at' 10 54 != 0 || n == 0 || decide (4096 < n) || decide (1024 < k) || at' 0xC040 16320 != 0
    || (List.range (min n 4096)).any (fun i => at' (0x43 + 8 * i) 5 != 0)
  (⟨at' 0 2, at' 6 2, at' 8 2, ms, gs⟩, bad)

/-! ### Routes (R517) -/

/-- Consecutive pairs of a group, the last-to-first pair of a RING group included. -/
def groupPairs (g : Group) : List (Nat × Nat) :=
  g.drift.zip (g.drift.drop 1 ++ (if g.isRing then g.drift.take 1 else []))

/-- Devices that a copy makes a device's successor. -/
def successorsOf (t : Tables) (d : Nat) : List Nat :=
  ((t.groups.flatMap groupPairs).filter (fun p => p.1 == d)).map (fun p => p.2) |>.eraseDups

/-- This device has a route to another (R517). -/
def hasRoute (b : Block) (d : Nat) : Bool := isBundlePeer b d || (routePeer b d).isSome

/-- Pads a payload to a multiple of 8 (R288). -/
def padTo8 (bs : List Byte) : List Byte := bs ++ List.replicate ((8 - bs.length % 8) % 8) 0#8

/-- The generation that a taken copy would take: 1 at the first formation (R302, R303). -/
def copyGen (b : Block) : Nat := if role b = 0 then 1 else (gen b + 1) % 65536

/-- Sends one ROUTE_Q (R517). -/
def sendRouteQ (d part : Nat) (ids : List Nat) (b : Block) : Block :=
  let head := leBytes 2 0x30 ++ leBytes 2 (copyGen b) ++ leBytes 2 ids.length ++ leBytes 2 part ++ leBytes 8 0
  sendMsg d 5 0 (padTo8 (head ++ ids.flatMap (leBytes 2)))
    (setGang (fun g => { g with routeOut := g.routeOut ++ [(d, part)] }) b)

/-- Asks every device of the taken copy for its routes; this device judges its own at once (R517). -/
def sendRoutes (b : Block) : Block :=
  match b.gang.taken with
  | none => b
  | some t =>
    let b := setGang (fun g => { g with routeOut := [], routeBad := none, routeSent := true }) b
    (tblIds t).foldl (fun b d =>
      let ss := successorsOf t d
      if d = devId b then
        if ss.all (hasRoute b) then b else setGang (fun g => { g with routeBad := some (g.routeBad.getD d) }) b
      else (List.range (ceilDiv ss.length 2040)).foldl (fun b p => sendRouteQ d p ((ss.drop (2040 * p)).take 2040) b) b) b

/-! ### Table rules (R303) -/

/-- No element occurs twice. -/
def distinct (l : List Nat) : Bool := l.eraseDups.length == l.length

/-- The first of rules 1 to 4 and 6 that a copy breaks. -/
def tableRule (b : Block) (t : Tables) (bad : Bool) : Option Nat :=
  let ids := (tblIds t)
  if t.master ≠ devId b ∨ !ids.contains t.master then some 1
  else if !(t.deputy == 0xFFFF || (t.deputy != t.master && (tblActive t).contains t.deputy)) then some 2
  else if !distinct ids || ids.contains 0xFFFF || t.members.any (fun m => m.2 != 1) || ids.isEmpty then some 3
  else if !t.groups.all (fun g => distinct g.drift && g.drift.all (fun d => ids.contains d)) then some 4
  else if bad then some 6
  else none

/-- Every device added by the copy has requested to join (rule 7). -/
def allAsked (b : Block) (t : Tables) : Bool :=
  (tblIds t).all (fun d => d == devId b || b.gang.asked.contains d || (match b.gang.cur with
    | some c => (tblIds c).contains d
    | none => false))

/-- The device that fails the route rule, by its latest answers (rule 5, R517). -/
def routeFail (b : Block) : Option Nat :=
  match b.gang.routeBad with
  | some d => some d
  | none => match b.gang.routeOut.head? with
    | some p => some p.1
    | none => if b.gang.routeSent then none else some (devId b)

/-- The first rule that the taken copy breaks, in the order of R303. -/
def takenRule (b : Block) (t : Tables) : Option Nat :=
  match tableRule b t false with
  | some r => some r
  | none => if (routeFail b).isSome then some 5 else if b.gang.takenBad then some 6 else if !allAsked b t then some 7 else none

/-- GANG_TABLE_REFUSED (15 R441, R517). -/
def refuseTable (rule : Nat) (t : Tables) (b : Block) : Block :=
  post 0x0300 7 (rule + t.gen * 2 ^ 16 + (if rule = 5 then (routeFail b).getD 0 * 2 ^ 32 else 0)) b

/-- Drops the taken copy. -/
def dropTaken (b : Block) : Block :=
  put fGG_STATE_TAKEN 0 (setGang (fun g => { g with taken := none, routeOut := [], routeSent := false, routeBad := none }) b)

/-! ### Adoption (R302–R304) -/

/-- Indices of the drift lists that hold one of the IDs `gone`, each once: groups may share entries (R300). -/
def goneEntries (t : Tables) (gone : List Nat) : List Nat :=
  (t.groups.flatMap (fun g => (g.drift.zipIdx g.off).filterMap (fun e => if gone.contains e.1 then some e.2 else none))).eraseDups

/-- Drops devices from a table: members, a deputy among them, and the groups' IDs, keeping their order (R303, R359). The drift lists
close up, so that LIST_OFF falls by the entries dropped before it (log 140). -/
def tblWithout (t : Tables) (gone : List Nat) : Tables :=
  let holes := goneEntries t gone
  { t with
    deputy := if gone.contains t.deputy then 0xFFFF else t.deputy
    members := t.members.filter (fun m => !gone.contains m.1)
    groups := t.groups.map (fun g => { g with
      off := g.off - (holes.filter (fun i => decide (i < g.off))).length
      drift := g.drift.filter (fun d => !gone.contains d) }) }

/-- Role of a device in a table. -/
def tblRole (t : Tables) (d : Nat) : Nat := if t.master = d then 3 else if t.deputy = d then 2 else 1

/-- The held messages of the adopted generation may be handled (R301). -/
def releaseHeld (b : Block) : Block :=
  let g := gen b
  let now' := b.gang.held.filter (fun m => !newer16 m.mgen g)
  { setGang (fun x => { x with held := x.held.filter (fun m => newer16 m.mgen g) }) b with inbox := b.inbox ++ now' }

/-- Adopts a generation (R302, R303): CURRENT, GEN, ROLE, and the master's timeouts. A member declared failed since the generation was decided
stays FAILED in it (13 R359). -/
def adopt (t : Tables) (barrier heartbeat : Nat) (b : Block) : Block :=
  let me := devId b
  let t := { t with members := t.members.map (fun m => if (failedIds b).contains m.1 then (m.1, 2) else m) }
  let b := put fGG_STATE_GEN t.gen (put fGG_STATE_ROLE (tblRole t me) (put fGG_STATE_JOINING 0 b))
  let b := setGang (fun g => { g with cur := some t, next := none, barrier := barrier, heartbeat := heartbeat,
                                      heard := (tblIds t).filter (fun d => d != me), masterQuiet := false,
                                      asked := g.asked.filter (fun d => !(tblIds t).contains d) }) b
  let b := if pitState b = 0 then setPitState 1 b else b
  releaseHeld (writeCurrent t b)

/-- The device is in no gang any more: no traffic, ROLE none, pithead state NONE. A securing that streams fails (14 R391). -/
def dropGang (b : Block) : Block :=
  let b := secureAbort (excludeScans (excludeAll b))
  let b := put fGG_STATE_ROLE 0 (put fGG_STATE_JOINING 0 (setMState 0 (setPitState 0 b)))
  let b := put fGG_STATE_TAKEN 0 { b with gang := { Gang.reset with stopped := false } }
  setPit (fun p => { p with decision := none, lost := false, voted := none, late := false }) b

/-- The device leaves the gang (R304): GANG_LEFT. -/
def leaveGang (b : Block) : Block :=
  let b := dropGang b
  post 0x0301 7 (gen b) b

/-- Sends the adopted tables with the EPOCH of the decision that they follow (13 R355), this master's own at the formation, and with its own
timeouts (R302, R303, R311). -/
def sendTables (ds : List Nat) (epoch : Nat) (t : Tables) (b : Block) : Block :=
  ds.foldl (fun b d => sendGang d (.tables epoch t (get b fGG_TIMEOUT_BARRIER) (get b fGG_TIMEOUT_HEARTBEAT)) b) b

/-- Formation (R302): once every listed device has asked and rule 5 holds, the master adopts generation 1. -/
def tryForm (b : Block) : Block :=
  match b.gang.taken with
  | none => b
  | some t =>
    if role b ≠ 0 ∨ !allAsked b t then b
    else if !b.gang.routeSent then
      let b := sendRoutes b
      if b.gang.routeOut.isEmpty then form t b else b
    else if b.gang.routeOut.isEmpty || b.gang.routeBad.isSome then form t b
    else b
where
  /-- Rule 5 decides: adoption with GEN 1, or refusal. -/
  form (t : Tables) (b : Block) : Block :=
    if (routeFail b).isSome then dropTaken (refuseTable 5 t b)
    else
      let t := { t with gen := 1 }
      let b := adopt t (get b fGG_TIMEOUT_BARRIER) (get b fGG_TIMEOUT_HEARTBEAT) b
      dropTaken (sendTables (others b) (stepEpoch b) t b)

/-! ### The pithead record (13 R358, R361) -/

/-- The pithead record (R361). -/
def pitRecord (b : Block) (epoch newEpoch : Nat) (d : Option Decision) (secured lcl : Bool) : List Byte :=
  let x : Decision := d.getD ⟨epoch, false, 0, 0xFFFF, false, false, false, 0, 0, 0⟩
  let dec := match d with
    | none => 0
    | some d => if d.commit then 1 else 2
  let fl := b2n secured + 2 * b2n (b.pit.selfFault && !lcl) + 4 * b2n x.host + 8 * b2n x.takeover + 16 * b2n lcl
  leBytes 4 epoch ++ leBytes 4 newEpoch ++ leBytes 1 dec ++ leBytes 1 x.cause ++ leBytes 2 (gen b) ++ leBytes 2 x.dev
    ++ leBytes 1 fl ++ leBytes 1 0 ++ leBytes 8 x.ts ++ leBytes 8 x.applied ++ leBytes 32 0

/-- Writes the record of a PITHEAD command and completes it; a record that faults completes it with TRANSLATION (R361, 15 R518). -/
def finishPit (c : Cmd) (status detail newEpoch : Nat) (d : Option Decision) (secured lcl : Bool) (b : Block) : Block :=
  let va := fieldAt c.desc 0x20 8
  if va = 0 then finishCmd c.queue c.count status detail b
  else match vWrite c.ctx va (pitRecord b (fieldAt c.desc 0x10 4) newEpoch d secured lcl) [] b with
  | .ok b => finishCmd c.queue c.count status detail b
  | .error _ => finishCmd c.queue c.count 0x13 (4 * 8192 + 0x20) b

/-- The PITHEAD command that runs: one that a fence has aborted does not any more. -/
def runningPit (b : Block) : Option Cmd :=
  match b.pit.running with
  | some (q, n) => match findCmd b q n with
    | some c => if c.active then some c else none
    | none => none
  | none => none

/-- The member goes to OUT without a decision (R358): a running PITHEAD completes excluded or lost, and a securing that streams fails
(14 R391). -/
def goOut (lost : Bool) (b : Block) : Block :=
  let b := secureAbort b
  let b := match runningPit b with
    | some c => finishPit c (if lost then 0x43 else 0x42) 0 (ctxEpoch b c.ctx) none false false b
    | none => b
  setPitState 6 (setPit (fun p => { p with decision := none, running := none, lost := lost }) b)

/-! ### The decision log (R305, R353) -/

/-- Payload of a vote, decision or log acknowledgement (13 R355). -/
def pitPayload (kind value mflags cause epoch dev newGen : Nat) : List Byte :=
  leBytes 1 kind ++ leBytes 1 value ++ leBytes 1 mflags ++ leBytes 1 cause ++ leBytes 4 epoch ++ leBytes 2 dev
    ++ leBytes 2 newGen ++ leBytes 20 0

/-- Payload of a decision. -/
def Decision.payload (d : Decision) : List Byte :=
  pitPayload 0x11 (if d.commit then 1 else 2) (b2n d.secure + 2 * b2n d.takeover + 4 * b2n d.host) d.cause d.epoch d.dev d.newGen

/-- What a decision says, whatever its TAKEOVER flag and its time of receipt. -/
def Decision.same (d e : Decision) : Bool :=
  d.epoch == e.epoch && d.commit == e.commit && d.cause == e.cause && d.dev == e.dev && d.newGen == e.newGen

/-- The keep holder (14 R382, R384): the successor on the RING group of GG_SECURE_GRP, passing over FAILED members. -/
def keepHolder (b : Block) : Option Nat :=
  if role b = 0 then none
  else match groupOf b (get b fGG_SECURE_GRP_GROUP) with
  | none => none
  | some g =>
    if !g.isRing then none
    else match posOf g.drift (devId b) with
    | none => none
    | some p => (g.drift.drop (p + 1) ++ g.drift.take p).find? (fun d => !(failedIds b).contains d)

/-- The keep holder failed while a securing streams: it starts again toward the new one (14 R391). Without one the PEER target has failed
(R384). -/
def holderFailed (dev : Nat) (b : Block) : Block :=
  match b.securing with
  | none => b
  | some s =>
    if s.holder ≠ some dev then b
    else match keepHolder b with
    | some h => { b with securing := some { s with holder := some h, next := 0 } }
    | none =>
      if !s.host then secureFail 1 2 s.epoch b
      else
        let b := { b with securing := some { s with holder := none, peer := false, next := 0 } }
        if s.peer then secureFailed 1 2 s.epoch b else b

/-- A device that has failed writes no keep slot any more (14 R391). -/
def writerFailed (dev : Nat) (b : Block) : Block :=
  { b with keepWriter := b.keepWriter.filter (fun e => e.2 != dev + 1) }

/-- A declaration meets this member (R336, 08 R216, R358): drifts, running commands, and OUT for itself. -/
def applyDeclaration (src dev : Nat) (b : Block) : Block :=
  if dev = devId b then
    goOut false (excludeScans (excludeAll b))
  else
    let b := setGang (fun g => { g with
      cur := g.cur.map (fun t =>
        let t := { t with members := t.members.map (fun m => if m.1 = dev then (m.1, 2) else m) }
        if dev = t.master ∧ src = t.deputy then { t with master := src, deputy := 0xFFFF } else t) }) b
    writerFailed dev (holderFailed dev (declareScan dev (b.colls.foldl (fun b c => match collOf b c.queue c.count with
      | some c => declareColl dev b c
      | none => b) b)))

/-- This member has applied a decision that a deputy resends (R354): an ABORT leaves the epoch, and TAKEOVER tells its second sending from the
ABORT of the repeat. -/
def appliedBefore (b : Block) (d : Decision) : Bool :=
  d.takeover && (match b.pit.done with
    | some x => x.same d
    | none => false)

/-- A member holds the decision for its epoch (R356, R357): COMMITTING or ABORTING. A COMMIT that cannot follow its own READY
is discarded, and so is a decision that it has applied (R354). -/
def takeDecision (d : Decision) (b : Block) : Block :=
  let b := setGang (fun g => { g with loggedDone := g.loggedDone || (match g.logged with
    | some l => l.same d
    | none => false) }) b
  if role b = 0 ∨ pitState b = 6 ∨ b.pit.decision.isSome ∨ d.epoch ≠ stepEpoch b ∨ appliedBefore b d then b
  else if d.commit ∧ ((runningPit b).isNone ∨ b.pit.voted ≠ some true) then b
  else setPitState (if d.commit then 4 else 5) (setPit (fun p => { p with decision := some { d with ts := now b } }) b)

/-- An item is logged: the master sends it to every member and applies it itself (R305, R353). -/
def logged (i : LogItem) (b : Block) : Block :=
  match i with
  | .declare dev _ =>
    applyDeclaration (devId b) dev ((others b).foldl (fun b d => sendGang d (.declaration dev) b) b)
  | .decide d =>
    let b := setMState 3 (setGang (fun g => { g with logged := some d, loggedDone := true }) b)
    let b := (others b).foldl (fun b x => sendMsg x 5 0 d.payload b) b
    let b := match b.gang.next with
      | some t => sendTables ((others b ++ (tblIds t).filter (fun x => x != devId b)).eraseDups) d.epoch t b
      | none => b
    takeDecision d b

/-- Sends an item to the deputy first, or logs it at once without one (R353). -/
def logItem (i : LogItem) (b : Block) : Block :=
  match liveDeputy b with
  | none => logged i b
  | some p =>
    let b := setGang (fun g => { g with toLog := g.toLog ++ [i] }) b
    match i with
    | .declare dev _ => sendGang p (.declaration dev) b
    | .decide d =>
      let b := sendMsg p 5 0 d.payload (setMState 2 b)
      match b.gang.next with
      | some t => sendTables [p] d.epoch t b
      | none => b

/-! ### The master's decision (13 R352) -/

/-- The generation that a decision adopts, and whether it is the taken copy: that copy, or the working table where none is taken,
without the failed members; none where nothing changes and where the copy breaks a rule, since the previous generation then
stays (R303). -/
def nextTables (b : Block) : Option Tables × Bool × Block :=
  match b.gang.cur with
  | none => (none, false, b)
  | some t =>
    let gone := (t.members.filter (fun m => m.2 == 2)).map (fun m => m.1)
    match b.gang.taken with
    | none => (if gone.isEmpty then none else some { tblWithout t gone with gen := copyGen b }, false, b)
    | some p => match takenRule b p with
      | some r => (none, false, refuseTable r p b)
      | none => (some { tblWithout p gone with gen := copyGen b }, true, b)

/-- The master decides its epoch. -/
def decideStep (commit : Bool) (cause dev : Nat) (host : Bool) (b : Block) : Block :=
  let e := stepEpoch b
  let secure := b.gang.votes.any (fun v => v.epoch == e && v.secure)
  let p := nextTables b
  let b := p.2.2
  let newGen := match p.1 with
    | some t => t.gen
    | none => gen b
  let b := setGang (fun g => { g with next := p.1, nextEpoch := e, nextTaken := p.2.1, failedNow := [], votes := g.votes.filter (fun v => v.epoch != e) }) b
  logItem (.decide ⟨e, commit, cause, dev, secure, false, host, now b, newGen, 0⟩) b

/-- The master has not decided its epoch yet. -/
def collecting (b : Block) : Bool := b.pit.decision.isNone && decide (mState b < 2)

/-- SCH or RCX runs (16 R449): SC_DISPATCH.WHO names it. It does the gang's work too (16 R454, R455). -/
def dispatcherRuns (b : Block) : Bool := get b fSC_DISPATCH_WHO != 2

/-- Decides when a condition of R352 holds, the master has quorum, and SCH or RCX runs. -/
def tryDecide (b : Block) : Block :=
  if role b ≠ 3 ∨ !quorum b ∨ !collecting b ∨ !dispatcherRuns b then b
  else
    let e := stepEpoch b
    let vs := b.gang.votes.filter (fun v => v.epoch == e)
    match b.gang.failedNow, vs.find? (fun v => !v.ready) with
    | (d, c) :: _, _ => decideStep false c d false b
    | [], some v => decideStep false 1 v.dev v.host b
    | [], none => match b.gang.cur with
      | none => b
      | some t => if (tblActive t).all (fun d => vs.any (fun v => v.dev == d)) then decideStep true 0 0xFFFF false b else b

/-- What waited for a deputy that is declared failed (R353): declarations are logged at once, and a decision that was not logged is
dropped, so that the master decides again. -/
def releaseLog (b : Block) : Block :=
  let items := b.gang.toLog
  let dropped := items.any (fun i => match i with
    | .decide _ => true
    | .declare .. => false)
  let b := setGang (fun g => { g with toLog := [], next := if dropped then none else g.next }) b
  let b := if dropped then setMState 1 b else b
  items.foldl (fun b i => match i with
    | .declare .. => logged i b
    | .decide _ => b) b

/-- One member becomes FAILED in the working table and its declaration goes out (R305). -/
def declareMember (dev cause why : Nat) (b : Block) : Block :=
  let deputy := liveDeputy b == some dev
  let b := setGang (fun g => { g with
    cur := g.cur.map (fun t => { t with members := t.members.map (fun m => if m.1 = dev then (m.1, 2) else m) })
    votes := g.votes.filter (fun v => v.dev != dev)
    failedNow := g.failedNow ++ [(dev, why)] }) b
  let b := if deputy then releaseLog b else b
  let b := logItem (.declare dev cause) (post 0x0302 7 (dev + cause * 2 ^ 16) b)
  if b.gang.taken.isSome then sendRoutes b else b

/-- The master declares the members of `ds` that are ACTIVE failed (R305), only with quorum, and then decides once (R352). `cause` is
MEMBER_FAILED's, `why` the decision's. -/
def declareMembers (ds : List Nat) (cause why : Nat) (b : Block) : Block :=
  let ds := ds.filter (fun d => match b.gang.cur with
    | some t => (tblActive t).contains d
    | none => false)
  if ds.isEmpty then b
  else if !quorum b then quorumLost (heardCount b) b
  else tryDecide (ds.foldl (fun b d => declareMember d cause why b) b)

/-- The master declares one member failed. -/
def declareFailed (dev cause why : Nat) (b : Block) : Block := declareMembers [dev] cause why b

/-- The master counts, holds or discards a vote (13 R352, R360). -/
def countVote (v : Vote) (b : Block) : Block :=
  let e := stepEpoch b
  let known := match b.gang.cur with
    | some t => (tblActive t).contains v.dev
    | none => false
  if role b ≠ 3 ∨ !known ∨ b.gang.votes.any (fun x => x.dev == v.dev && x.epoch == v.epoch) then b
  else if !collecting b then
    if v.epoch = (e + 1) % 2 ^ 32 then setGang (fun g => { g with votes := g.votes ++ [v] }) b else b
  else if v.epoch = e then
    let b := setGang (fun g => { g with votes := g.votes ++ [v] }) b
    let b := setMState 1 (put fGG_PIT_VOTES ((b.gang.votes.filter (fun x => x.epoch == e)).length) b)
    tryDecide b
  else declareFailed v.dev 3 4 b

/-- Collection reopens once the master has applied its decision: held votes count now, or are an epoch mismatch (13 R352). -/
def reopenVotes (b : Block) : Block :=
  let vs := b.gang.votes
  let b := setMState 0 (put fGG_PIT_VOTES 0 (setGang (fun g => { g with votes := [] }) b))
  tryDecide (vs.foldl (fun b v => countVote v b) b)

/-! ### Votes of this member (13 R350, R351) -/

/-- Securing is asked for by the canary, the interval, a failed attempt or an earlier request (13 R351, 14 R381). -/
def secureDue (c : Nat) (b : Block) : Bool :=
  let m := get b fGG_SECURE_CTL_MAX_INTERVAL
  b.pit.secureAsked.contains c || isSet b fGG_CANARY_REQUEST || (m != 0 && decide (m ≤ get b fGG_SECURE_STAT_SINCE + 1)) || b.secFailed

/-- Sends this device's vote for its epoch (R350): the master counts its own. -/
def sendVote (ready secure host : Bool) (b : Block) : Block :=
  let e := stepEpoch b
  let b := setPitState (if ready then 2 else 3) (setPit (fun p => { p with voted := some ready, hostVote := host }) b)
  if role b = 3 then countVote ⟨devId b, ready, secure, host, e⟩ b
  else sendMsg (masterId b) 5 0 (pitPayload 0x10 (if ready then 1 else 2) (b2n secure + 4 * b2n host) 0 e (devId b) 0) b

/-- A command of context `c` completed with an error: the context is not clean, and the first error of a step of the step
context sends NOT_READY at once (R350). An error that meets a COMMIT belongs to the next step (R360). -/
def stepError (c : Nat) (b : Block) : Block :=
  let b := setPit (fun p => { p with dirty := setInsert p.dirty c, late := p.late ||
    (c == stepCtx b && (match p.decision with
      | some d => d.commit
      | none => false)) }) b
  if c = stepCtx b ∧ role b ≠ 0 ∧ b.pit.voted.isNone ∧ pitState b = 1 then
    sendVote false (secureDue c b) false (setPit (fun p => { p with selfFault := true }) b)
  else b

end Sys2Proof.Machine
end

