-- ==== Sys2Proof/Machine/QueueOps.lean ====
section
/-!
DEFINITION. Queues, tokens, descriptor checks, readiness and completion (15 R417–R435, 16 R446–R449).
-/

namespace Sys2Proof.Machine

/-- Queue state beyond its page. -/
def queue (b : Block) (q : Nat) : Queue := mapGet Queue.fresh b.queues q
/-- Replaces a queue's state. -/
def setQueue (q : Nat) (x : Queue) (b : Block) : Block :=
  { b with queues := mapSet Queue.fresh b.queues q x }

/-- Commands of a queue, oldest first. -/
def cmdsOf (b : Block) (q : Nat) : List Cmd := b.cmds.filter (fun c => c.queue == q)

/-- Ring entries of a queue (15 R418). -/
def ringSize (b : Block) (q : Nat) : Nat := 2 ^ get b (fSQ_CFG_SIZE_LOG2 q)

/-- True while a Chaell port can carry device traffic: ACTIVE and enabled (15 R405, R408). -/
def portActive (b : Block) (p : Nat) : Bool :=
  get b (fCH_LINK_STATE p) == 2 && ((mapGet ChPort.fresh b.chaell p).cfgCtl.testBit 0)

/-- A port that carries memory traffic, fetches and records: its half's fabric is ON as well (01 R18). -/
def portCarries (b : Block) (p : Nat) : Bool := portActive b p && domOn b (domFab p)

/-- Any port carries the device's own traffic (15 R405). -/
def anyPortActive (b : Block) : Bool := portCarries b 0 || portCarries b 1

/-- The device can reach an address for a record or a fetch now (15 R405): in A3 nothing crosses the fabric (17 R477). -/
def canReach (b : Block) (pa : Nat) : Bool :=
  match rangeOf pa with
  | .host => anyPortActive b
  | _ => activity b != 3

/-! ### Tokens (15 R426) -/

/-- Value and branch bit of a token. -/
def token (b : Block) (c t : Nat) : Nat × Bool := mapGet (0, false) (ctx b c).tokens t

/-- Adds 1 to a token and sets its branch bit (R426). -/
def signalToken (c t : Nat) (br : Bool) (b : Block) : Block :=
  let x := ctx b c
  let v := token b c t
  setCtx c { x with tokens := mapSet (0, false) x.tokens t ((v.1 + 1) % 2 ^ 32, br) } b

/-- WAIT_TOKEN of a descriptor. -/
def waitToken (d : List Byte) : Nat := fieldAt d 2 2

/-- The WAIT_TOKEN condition (R426). -/
def tokenReached (b : Block) (c : Cmd) : Bool :=
  let t := waitToken c.desc
  if 1024 ≤ t then true
  else decide (((token b c.ctx t).1 + 2 ^ 32 - fieldAt c.desc 4 4) % 2 ^ 32 < 2 ^ 31)

/-- COND of a command: 0 always, 1 branch bit 0, 2 branch bit 1. -/
def Cmd.cond (c : Cmd) : Nat := c.flags / 4 % 4

/-- The condition of R426 holds. -/
def condHolds (b : Block) (c : Cmd) : Bool :=
  let br := (token b c.ctx (waitToken c.desc)).2
  match c.cond with
  | 1 => !br
  | 2 => br
  | _ => true

/-! ### Descriptor checks (00 R10, 15 R424–R432) -/

/-- INVALID_FIELD's DETAIL (15 R435). -/
def invalidDetail (part off : Nat) : Nat := part * 8192 + min off 0x1FFF

/-- Checks of the common header (R424). -/
def headerChecks (d : List Byte) : List (Nat × Bool) :=
  let f := byteAt d 1
  let w := waitToken d
  let s := fieldAt d 8 2
  let cond := f / 4 % 4
  [(0, decide (1 ≤ byteAt d 0 ∧ byteAt d 0 ≤ 0x0E)),
   (1, decide (f < 16 ∧ cond ≠ 3 ∧ (cond = 0 ∨ w ≠ 0xFFFF))),
   (2, decide (w < 1024 ∨ w = 0xFFFF)),
   (8, decide (s < 1024 ∨ s = 0xFFFF)),
   (10, zeroAt d 10 2)]

/-- Checks of a TXN descriptor (R432). -/
def txnChecks (d : List Byte) : List (Nat × Bool) :=
  let op := byteAt d 0x12
  let n := byteAt d 0x13
  let t := fieldAt d 0x14 2
  [(0x10, decide (fieldAt d 0x10 2 ≤ 0xFFF)),
   (0x12, decide (1 ≤ op ∧ op ≤ 4)),
   (0x13, if op = 4 then decide (1 ≤ n ∧ n ≤ 5) else decide (n = 0)),
   (0x14, if op = 1 then decide (t ≠ 0) else decide (t = 0)),
   (0x16, zeroAt d 0x16 2)]
  ++ (List.range 5).map (fun i =>
    let o := 0x18 + 8 * i
    if op = 4 ∧ i < n then (o, decide (fieldAt d o 4 < 0x1000 ∧ fieldAt d o 4 % 4 = 0)) else (o, zeroAt d o 8))

/-- Checks of a COLLECTIVE descriptor (12 R312, R313). -/
def collChecks (d : List Byte) : List (Nat × Bool) :=
  let op := byteAt d 0x3C
  let kind := op % 8
  let arith := op / 8 % 8
  let bx := op / 64 % 2
  let fl := byteAt d 0x3D
  let acc := byteAt d 0x3E
  let ex := byteAt d 0x3F
  let e := fieldAt d 0x30 4
  [(0x10, decide (fieldAt d 0x10 8 % 64 = 0)),
   (0x18, decide (fieldAt d 0x18 8 % 64 = 0)),
   (0x20, decide (1 < acc) || zeroAt d 0x20 8),
   (0x28, decide (fieldAt d 0x28 8 % 64 = 0)),
   (0x30, decide (1 ≤ e ∧ e ≤ 268435456)),
   (0x38, decide (fieldAt d 0x38 2 < 1024)),
   (0x3A, if kind = 3 then true else zeroAt d 0x3A 2),
   (0x3C, decide (1 ≤ kind ∧ kind ≤ 4 ∧ arith ≤ 3 ∧ op < 128 ∧ (kind = 1 ∨ (arith = 0 ∧ bx = 0)))),
   (0x3D, decide (fl % 4 ≠ 3 ∧ fl / 8 % 2 = 0 ∧ 4 ≤ fl / 16 ∧ fl / 16 ≤ 12)),
   (0x3E, decide (1 ≤ acc)),
   (0x3F, if bx = 1 then decide (ex ≤ 0xFE) else decide (ex = 0))]

/-- Checks of bytes 0x10 to 0x3F by class (R425–R432, 09 R242, 13 R346, 14 R392). -/
def bodyChecks (d : List Byte) : List (Nat × Bool) :=
  match byteAt d 0 with
  | 0x01 | 0x05 =>
    let st := byteAt d 0x2C
    [(0x10, decide (st % 2 = 1) || zeroAt d 0x10 8),
     (0x20, decide (fieldAt d 0x20 8 % 64 = 0)), (0x28, !zeroAt d 0x28 4), (0x2C, decide (st ≤ 1)), (0x2D, zeroAt d 0x2D 19)]
  | 0x02 | 0x03 | 0x04 =>
    [(0x10, decide (fieldAt d 0x10 8 % 64 = 0)), (0x18, !zeroAt d 0x18 4), (0x1C, zeroAt d 0x1C 36)]
  | 0x06 => collChecks d
  | 0x07 =>
    [(0x14, decide (byteAt d 0x14 = 1 ∨ byteAt d 0x14 = 2)), (0x15, decide (byteAt d 0x15 ≤ 1)), (0x16, zeroAt d 0x16 10),
     (0x20, decide (fieldAt d 0x20 8 % 64 = 0)), (0x28, zeroAt d 0x28 24)]
  | 0x08 => [(0x10, zeroAt d 0x10 48)]
  | 0x09 =>
    let rs := byteAt d 0x1C
    let parts := byteAt d 0x1E
    [(0x10, if rs = 1 then decide (fieldAt d 0x10 8 % 64 = 0) else zeroAt d 0x10 8),
     (0x18, decide (rs ≠ 1 ∨ fieldAt d 0x18 2 = 0xFFFF)),
     (0x1C, decide (1 ≤ rs ∧ rs ≤ 3)),
     (0x1D, decide (byteAt d 0x1D ≤ 2)),
     (0x1E, decide (parts < 32 ∧ (rs ≠ 3 ∨ parts = 1 ∨ parts = 0))),
     (0x1F, zeroAt d 0x1F 1), (0x22, zeroAt d 0x22 2),
     (0x28, decide (fieldAt d 0x28 8 % 64 = 0)), (0x30, zeroAt d 0x30 16)]
  | 0x0A | 0x0B => [(0x10, decide (byteAt d 0x10 ≤ 1)), (0x11, zeroAt d 0x11 47)]
  | 0x0C =>
    [(0x10, decide (byteAt d 0x10 ≤ 2)), (0x11, zeroAt d 0x11 7), (0x28, zeroAt d 0x28 24)]
  | 0x0D => [(0x10, decide (byteAt d 0x10 ≤ 15)), (0x11, zeroAt d 0x11 7), (0x20, zeroAt d 0x20 32)]
  | 0x0E => txnChecks d
  | _ => []

/-- The first failing field of a descriptor. -/
def descFail (c : Cmd) : Option Nat :=
  minFail (headerChecks c.desc ++ bodyChecks c.desc ++ (if c.isKernelClass then ctlChecks c else []))

/-! ### Readiness and dispatch (15 R417–R421, 16 R446–R449) -/

/-- Clusters used by active commands. -/
def busyMask (b : Block) : Nat :=
  b.cmds.foldl (fun m c => if c.active then m ||| c.mask else m) 0

/-- Clusters named by held commands. -/
def heldMask (b : Block) : Nat :=
  b.cmds.foldl (fun m c => if c.stage == .held then m ||| clMask c.desc else m) 0

/-- A cluster waits as for a busy one: its core restarts or reloads, or the governor has it in RETAIN (16 R453 R462, 17 R485). -/
def clusterWaits (b : Block) (c : Nat) : Bool :=
  get b (fCL_CORE_STATE c) == 1 || get b (fCL_CORE_STATE c) == 2 || b.fw.stepping == some (4 + c) || isSet b (fCL_BLK_STAT_GOV_PARKED c)

/-- A parked, retired or failed cluster among those named (09 R242). -/
def unavailable (b : Block) (mask : Nat) : Option Nat :=
  (bitsOf mask 32).find? (fun c => isSet b (fBLK_STAT_RETIRED (clBase c)) || isSet b (fBLK_STAT_FAILED (clBase c))
    || isSet b (fCL_BLK_STAT_PARKED c))

/-- Commands of a queue ahead of a command. -/
def ahead (b : Block) (c : Cmd) : List Cmd :=
  (cmdsOf b c.queue).takeWhile (fun x => x.count != c.count)

/-- R421: the previous command has completed, or with OVERLAP has dispatched. FENCE waits for all earlier ones (R429). A
command counts as completed once its record is visible, which removes it from `cmds`. -/
def orderAllows (b : Block) (c : Cmd) : Bool :=
  match (ahead b c).getLast? with
  | none => true
  | some p => c.flags.testBit 1 && c.cls != 0x0A && p.stage != .fetched && p.stage != .held

/-- R429: every command of its context dispatched before it has completed. -/
def contextDrained (b : Block) (c : Cmd) : Bool :=
  !b.cmds.any (fun x => x.ctx == c.ctx && (x.count != c.count || x.queue != c.queue)
    && (x.active || x.stage == .finished))

/-- R347 (13): PITHEAD and RESTORE wait for their context; while one runs, nothing else of the context dispatches, and from
receipt of an ABORT nothing of the step context does (R357). -/
def pitheadAllows (b : Block) (c : Cmd) : Bool :=
  let gate := b.cmds.any (fun x => x.active && x.ctx == c.ctx && (x.cls == 0x07 || x.cls == 0x09))
  let decided := b.pit.decision.isSome && c.ctx == stepCtx b
  !gate && !decided && (if c.cls = 0x07 ∨ c.cls = 0x09 then contextDrained b c else true)

/-- A transaction commit or a one-register write is pending on an engine the command names, or on SCH dispatch (03 R75). -/
def commitPending (b : Block) (mask : Nat) : Bool :=
  let pend := (openPages b).filter (fun p => txnState b p == 2) ++ b.txn.singles.map (fun e => e.1 / 4096)
  pend.any (fun p => let d := domainOfPage p
    if d = 78 then true else decide (d < 32) && mask.testBit d)

/-- A sequential stream that the command names is in use by a command that has not completed (13 R367). -/
def streamWaits (b : Block) (c : Cmd) : Bool :=
  let mine := namedStreams b c
  !mine.isEmpty && b.cmds.any (fun x => (x.active || x.stage == .finished) && x.ctx == c.ctx && (namedStreams b x).any (fun s => mine.contains s))

/-- An owed abort holds for the command's context (13 R357). -/
def abortOwed (b : Block) (c : Cmd) : Bool :=
  b.pit.owed.isSome && c.ctx == stepCtx b

/-- Nothing but the command's own engines keeps it from dispatching now (16 R446, 03 R75): its context is not held for a PITHEAD,
an ABORT or a RESTORE, no commit is pending on its engines and no sequential stream makes it wait. It holds of a picked command too. -/
def mayDispatch (b : Block) (c : Cmd) : Bool :=
  qState b c.queue == 1 && ctxValid b c.ctx
    && (abortOwed b c || pitheadAllows b c)
    && (c.cls != 0x0B || contextDrained b c)
    && (c.cls == 0x09 || !b.restoreHeld.contains c.ctx)
    && !commitPending b (clMask c.desc)
    && !streamWaits b c

/-- The head command of a queue is ready (16 R446), firedamp and dispatcher apart. -/
def isReady (b : Block) (c : Cmd) : Bool :=
  c.stage == .fetched && mayDispatch b c && orderAllows b c && (abortOwed b c || tokenReached b c)
    && (clMask c.desc &&& heldMask b) == 0

/-- The next undispatched command of a queue. -/
def headCmd (b : Block) (q : Nat) : Option Cmd :=
  (cmdsOf b q).find? (fun c => c.stage == .fetched)

/-- Priority class of a queue: PRIO of its context. -/
def qClass (b : Block) (q : Nat) : Nat := (ctx b (qCtx b q)).prio

/-- The class wheel (16 R447). -/
def classWheel : List Nat := [0, 1, 0, 2, 0, 1, 0, 3, 0, 1, 0, 2, 0, 1, 0]

/-- Running collectives: active COLLECTIVE commands (12 R321). -/
def collectivesRunning (b : Block) : Nat :=
  (b.cmds.filter (fun c => c.active && c.cls == 0x06)).length

/-- No running command holds the bucket ID (12 R315). -/
def bucketFree (b : Block) (c : Cmd) : Bool :=
  match bucketOf b c with
  | none => true
  | some i => !b.cmds.any (fun x => x.active && bucketOf b x == some i)

/-- A COLLECTIVE may run beside those that do, and its window can be reserved (12 R320, R321). -/
def collRoom (b : Block) (c : Cmd) : Bool := decide (collectivesRunning b < 256) && collReserve b c

/-- A COLLECTIVE held before this one waits for its buffers: later ones do not pass it (12 R321). -/
def collBehind (b : Block) (c : Cmd) : Bool :=
  b.cmds.any (fun x => x.stage == .held && x.cls == 0x06 && (c.heldAt == 0 || decide (x.heldAt < c.heldAt))
    && bucketFree b x && !collRoom b x)

/-- Every engine the command needs is free (16 R448, 12 R315, R321). -/
def enginesFree (b : Block) (c : Cmd) : Bool :=
  let m := clMask c.desc
  (unavailable b m).isSome
    || ((m &&& busyMask b) == 0 && !(bitsOf m 32).any (clusterWaits b)
        && bucketFree b c && (c.cls != 0x06 || (collRoom b c && !collBehind b c)))

/-- Dispatch is possible at all (16 R449, 02 R51, 17 R477). -/
def dispatchOpen (b : Block) : Bool :=
  ready b && dispatcherRuns b && decide (fdLevel b < 2) && activity b == 0 && !b.pwr.hardFence
    && domOn b domSch && b.act.exiting == false

/-- A half's reduction engine can operate: its own domain, the fabric and a staging slice of its half (01 R18). What is missing, if
anything. -/
def redMissing (b : Block) (h : Nat) : Option Nat :=
  if dom b (domFab h) ≠ 2 then some (domFab h)
  else if dom b (domRed h) ≠ 2 then some (domRed h)
  else if (List.range 4).any (fun i => dom b (domSg (4 * h + i)) == 2) then none else some (domSg (4 * h))

/-- Halves whose UP adits carry the messages for the neighbours of a COLLECTIVE command on its drift (01 R18: reductions). -/
def neighbourHalves (b : Block) (c : Cmd) : List Nat :=
  match groupOf b (fieldAt c.desc 0x38 2) with
  | none => []
  | some g => match posOf g.drift (devId b) with
    | none => []
    | some p =>
      let x := collFields b c g p
      ([x.predOf p, x.succOf p].flatMap (fun o => match o.bind (fun i => nextHop b (x.drift.getD i 0xFFFF)) with
        | some d => (bundleAdits b d).map aditHalf
        | none => [])).eraseDups

/-- What a COLLECTIVE command lacks: the fabric of a half where its buffers stand, and a reduction engine of a half whose adits reach its
neighbours, or of any half while no adit does (01 R18, 12 R322). -/
def collMissing (b : Block) (c : Cmd) : Option Nat :=
  let n := 4 * fieldAt c.desc 0x30 4
  match rangesDown b c.ctx [(fieldAt c.desc 0x10 8, n), (fieldAt c.desc 0x18 8, n)] with
  | some d => some d
  | none =>
    let hs := match neighbourHalves b c with
      | [] => [0, 1]
      | l => l
    if hs.any (fun h => (redMissing b h).isNone) then none else hs.findSome? (redMissing b)

/-- The first missing domain among those a command needs before it starts (01 R18). -/
def missingDomain (b : Block) (c : Cmd) : Option Nat :=
  let cls := bitsOf (clMask c.desc) 32
  let fabs := cls.map (fun n => domFab (halfOfCluster n))
  match (cls ++ fabs).find? (fun d => dom b d != 2) with
  | some d => some d
  | none => if c.cls = 0x06 then collMissing b c else none

/-- Takes DISP_SEQ in the dispatch cycle (15 R420). -/
def takeDispSeq (c : Cmd) (b : Block) : Block :=
  setQueue c.queue { queue b c.queue with dispSeq := c.seq } b

/-- Drops a command that has already dispatched: no record, no second run (15 R420). -/
def dropCmd (c : Cmd) (b : Block) : Block :=
  { b with cmds := b.cmds.filter (fun x => !(x.queue == c.queue && x.count == c.count)) }

/-- Completes a command at dispatch, without running it. -/
def refuseAt (c : Cmd) (status detail : Nat) (b : Block) : Block :=
  finishCmd c.queue c.count status detail b

/-- The status of a command that reaches dispatch under an owed abort for epoch `e` (13 R357). -/
def owedStatus (e : Nat) (c : Cmd) : Nat :=
  if c.cls = 0x07 then if fieldAt c.desc 0x10 4 = e then 0x41 else 0x40 else 0x44

/-- Dispatches a command: the check-and-set of R420, the checks of 00 R10, 01 R18, 09 R242, 13 R347 R357 and 15 R417 R426. -/
def dispatchCmd (c : Cmd) (b : Block) : Block :=
  if !newer32 c.seq (queue b c.queue).dispSeq then dropCmd c b
  else
    let b := takeDispSeq c b
    let b := { b with dispatches := b.dispatches + 1 }
    let c := { c with stage := .dispatched, epoch := ctxEpoch b c.ctx, mask := clMask c.desc, order := b.dispatches, endAt := now b }
    let b := setCmd c b
    match b.pit.owed with
    | some e => if c.ctx = stepCtx b then dispatchOwed e c b else dispatchRest c b
    | none => dispatchRest c b
where
  /-- Under an owed abort a command of the step context completes without running (13 R357). -/
  dispatchOwed (e : Nat) (c : Cmd) (b : Block) : Block :=
    let st := owedStatus e c
    let cause := match b.pit.owedInfo with
      | some d => d.cause
      | none => 0
    if st = 0x41 then
      setPit (fun p => { p with selfFault := false })
        (finishPit c st cause e b.pit.owedInfo false false (setPit (fun p => { p with owed := none, owedInfo := none }) b))
    else refuseAt c st 0 b
  /-- The descriptor's own checks, and those that follow. -/
  dispatchRest (c : Cmd) (b : Block) : Block :=
    match descFail c with
    | some o => refuseAt c 0x10 (invalidDetail 0 o) b
    | none => if c.desc.length < 64 then refuseAt c 0x13 0 b else dispatchClean c b
  /-- The checks that follow the descriptor's own. -/
  dispatchClean (c : Cmd) (b : Block) : Block :=
    if ctxFenced b c.ctx then refuseAt c 0x15 0 (stopQueue c.queue b)
    else if !condHolds b c then
      setCmd { c with stage := .finished, status := 0x01, branch := (token b c.ctx (waitToken c.desc)).2 } b
    else match unavailable b c.mask with
    | some n => refuseAt c 0x12 n b
    | none => match missingDomain b c with
      | some d => refuseAt c 0x11 d b
      | none =>
        if c.cls = 0x07 ∧ c.ctx = stepCtx b ∧ pitState b = 6 then
          finishPit c (if b.pit.lost then 0x43 else 0x42) 0 (ctxEpoch b c.ctx) none false false b
        else if c.cls = 0x07 ∧ fieldAt c.desc 0x10 4 ≠ ctxEpoch b c.ctx then refuseAt c 0x40 0 b else b

/-- A held command whose engines are all free and that may dispatch (16 R448, 03 R75). -/
def heldReady (b : Block) : Option Cmd :=
  b.cmds.find? (fun c => c.stage == .held && mayDispatch b c && enginesFree b c)

/-- Every held command whose engines are all free dispatches, in the order of their fetch (16 R448, log 119). -/
def dispatchHeld : (fuel : Nat) → Block → Block
  | 0, b => b
  | n + 1, b => match heldReady b with
    | some c => dispatchHeld n (dispatchCmd c b)
    | none => b

/-- Queues with a ready head command, and its class. -/
def readyHeads (b : Block) : List Cmd :=
  (liveQueues b).filterMap (fun q => match headCmd b q with
    | some c => if isReady b c then some c else none
    | none => none)

/-- The class taken at the current slot (16 R447). -/
def pickClass (b : Block) (heads : List Cmd) : Nat :=
  let want := classWheel.getD (get b fSC_DISPATCH_WHEEL) 0
  let some' := fun k => heads.any (fun c => qClass b c.queue == k)
  if some' want then want else if some' 0 then 0 else if some' 1 then 1 else if some' 2 then 2 else 3

/-- A picked command whose engines are not all free is held, behind those held before it (16 R448). -/
def holdCmd (c : Cmd) (b : Block) : Block :=
  setCmd { c with stage := .held, heldAt := b.cmds.foldl (fun m x => max m x.heldAt) 0 + 1 } b

/-- One dispatch opportunity (16 R447, R448). -/
def dispatchOpportunity (b : Block) : Block :=
  if !dispatchOpen b then b
  else
    let b := dispatchHeld b.cmds.length b
    let heads := readyHeads b
    if heads.isEmpty then b
    else
      let k := pickClass b heads
      let p := rrGrant arbQueues 512 (fun q => heads.any (fun c => c.queue == q && qClass b q == k)) b
      match p.1 with
      | none => b
      | some q =>
        let b := put fSC_DISPATCH_WHEEL ((get p.2 fSC_DISPATCH_WHEEL + 1) % 15) p.2
        match heads.find? (fun c => c.queue == q) with
        | none => b
        | some c => if enginesFree b c then dispatchCmd c b else holdCmd c b

/-! ### Fetch (15 R418, R420) -/

/-- A command as fetched. -/
def freshCmd (q n seq c : Nat) (desc : List Byte) (t : Nat) : Cmd where
  queue := q
  count := n
  seq := seq
  desc := desc
  ctx := c
  stage := .fetched
  status := 0
  detail := 0
  branch := false
  ran := false
  nan := 0
  ovf := 0
  zeroed := 0
  wrapped := 0
  epoch := 0
  mask := 0
  since := t
  endAt := 0
  order := 0
  heldAt := 0
  wrote := []
  sblk := []
  image := []

/-- Fetches the next descriptor of a queue and checks its SEQ (R420), which SCH or RCX does, over FAB-W (01 R18). An address that names no memory gives a command that
completes with TRANSLATION (log 21); a poisoned word is consumed at dispatch (15 R435). -/
def fetchDescriptor (q : Nat) (b : Block) : Block :=
  let head := get b (fSQ_HEAD_HEAD q)
  let pa := rd64 b (rSQ_BASE_LO q) + head % ringSize b q * 64
  if qState b q ≠ 1 ∨ head = get b (fSQ_TAIL_TAIL q) ∨ !canReach b pa ∨ !ready b ∨ activity b ≠ 0 ∨ !dispatcherRuns b
      ∨ !domOn b (domFab 1) then b
  else
    let next := get b (fSQ_SEQ_NEXT_SEQ q)
    let ok := reachable b pa && reachable b (pa + 63) && !readFails b pa && !readFails b (pa + 63)
    let d := if ok then memBytes b pa 64 else []
    let seq := if ok then fieldAt d 12 4 else next
    let c := freshCmd q head seq (qCtx b q) d (now b)
    let c := if !ok then { c with stage := .finished, status := 0x13 }
      else if anyPoison b pa 64 then
        { c with stage := .finished, status := 0x24, detail := if get b fSC_DISPATCH_WHO = 1 then domRcx else domSch }
      else if seq ≠ next then { c with stage := .finished, status := 0x14 }
      else c
    let b := put (fSQ_SEQ_NEXT_SEQ q) ((next + 1) % 2 ^ 32) (put (fSQ_HEAD_HEAD q) ((head + 1) % 2 ^ 32) b)
    let b := meetFails pa 64 { b with cmds := b.cmds ++ [c] }
    if c.stage == .finished then stopQueue q b else b

/-! ### Completion (15 R421, R426, R433, R434) -/

/-- PHASE of record number `c` in a ring of 2^log entries (R436). -/
def phaseOf (c log : Nat) : Bool := (c >>> log) % 2 == 0

/-- CFLAGS (R433): PHASE, BRANCH and RAN. A skipped command signals the branch bit that it read and shows none of its own (R426, example of
R435). -/
def cflags (c : Cmd) (phase : Bool) : Nat := b2n phase + 2 * b2n (c.branch && c.status != 1) + 4 * b2n c.ran

/-- The 32 bytes of a completion record (R433). -/
def completionBytes (c : Cmd) (phase : Bool) (t : Nat) : List Byte :=
  leBytes 4 c.seq ++ leBytes 1 c.status ++ leBytes 1 (cflags c phase) ++ leBytes 2 c.detail
    ++ leBytes 4 (min c.nan 0xFFFFFFFF) ++ leBytes 4 (min c.ovf 0xFFFFFFFF) ++ leBytes 4 (min c.zeroed 0xFFFFFFFF)
    ++ leBytes 4 (min c.wrapped 0xFFFFFFFF) ++ leBytes 8 t

/-- Statuses that are successes (R435). -/
def isSuccess (st : Nat) : Bool := decide (st ≤ 2)

/-- Error statuses that write COMMAND_ERROR and stop the queue (R434). -/
def errorStops (st : Nat) : Bool := !isSuccess st && st != 0x16 && st != 0x44

/-- DATA of COMMAND_DONE and COMMAND_ERROR (R441). -/
def commandData (c : Cmd) (phase : Bool) : Nat :=
  c.status + cflags c phase * 2 ^ 8 + c.detail * 2 ^ 16

/-- Statuses that do not make the device unclean (13 R350). -/
def cleanStatus (st : Nat) : Bool :=
  isSuccess st || st == 0x40 || st == 0x44 || st == 0x41 || st == 0x42 || st == 0x43 || st == 0x16

/-- The command after a completed one is its queue's next: TIMEOUT of a WAIT counts from here (R430, log 169). -/
def nextOldest (q : Nat) (b : Block) : Block :=
  match (cmdsOf b q).head? with
  | some c => setCmd { c with since := now b } b
  | none => b

/-- Writes the record of a queue's oldest command once it has finished, signals its token and, on an error, stops the queue.
The record waits while the completion ring is host memory and no port is ACTIVE. -/
def completeOldest (q : Nat) (b : Block) : Block :=
  match (cmdsOf b q).head? with
  | none => b
  | some c =>
    let log := get b (fSQ_CFG_SIZE_LOG2 q)
    let pa := rd64 b (rSQ_CQ_LO q) + c.count % 2 ^ log * 32
    if c.stage != .finished || !canReach b pa then b
    else
      let phase := phaseOf c.count log
      let b := if reachable b pa && reachable b (pa + 31) then memWrite pa (completionBytes c phase (now b)) b else b
      let b := put (fSQ_DONE_DONE_SEQ q) c.seq (nextOldest q (dropCmd c b))
      let b := setQueue q { queue b q with doneCount := (c.count + 1) % 2 ^ 32 } b
      let rec' := fun code => ⟨code, c.ctx, 4, q, c.seq, now b, commandData c phase⟩
      let rg := get b (fSQ_CFG_RING q)
      if isSuccess c.status then
        let st := fieldAt c.desc 8 2
        let b := if st < 1024 then signalToken c.ctx st c.branch b else b
        if c.flags.testBit 0 then postTo rg (rec' 0x0001) b else b
      else
        let b := put (fSQ_STAT_ERR_STATUS q) c.status (put (fSQ_ERR_SEQ_SEQ q) c.seq b)
        let b := if errorStops c.status then stopQueue q (postTo rg (rec' 0x0002) b) else b
        if cleanStatus c.status then b else stepError c.ctx b

/-! ### Idleness (17 R480) -/

/-- A queue has nothing to do: its next command waits on a token, or behind a WAIT that waits on a timer, or there is none beyond such
a WAIT (R480, 15 R421, R430). -/
def waitsHere (b : Block) (q : Nat) : Bool :=
  match (cmdsOf b q).find? (fun c => c.stage == .fetched || c.stage == .held) with
  | none => get b (fSQ_HEAD_HEAD q) == get b (fSQ_TAIL_TAIL q) || (cmdsOf b q).any (fun c => c.active && c.cls == 0x0C)
  | some c => c.stage == .fetched && (!tokenReached b c || (!orderAllows b c && (cmdsOf b q).any (fun x => x.active && x.cls == 0x0C)))

/-- The device is idle (R480). -/
def deviceIdle (b : Block) : Bool :=
  !b.cmds.any (fun c => (c.active && c.cls != 0x0C) || c.stage == .held || c.stage == .finished)
    && (liveQueues b).all (fun q => qState b q != 1 || waitsHere b q)
    && !(openPages b).any (fun p => txnState b p == 2)
    && get b fGG_SECURE_STAT_STATE == 0
    && !(List.range 12).any (fun l => (lode b l).fill.isSome || !(lode b l).queued.isEmpty)
    && get b fSEC_FW_STAT_STATE < 4

end Sys2Proof.Machine
end

