-- ==== Sys2Proof/Machine/Shake.lean ====
section
/-!
DEFINITION. SHAKE256 (FIPS 202), named by 00 Standards, 14 R390 and 18 R497–R505; the spec takes it from that standard (log 9).
-/

namespace Sys2Proof.Machine

/-- Rotation of a 64-bit lane. -/
def rot64 (x n : Nat) : Nat :=
  ((x <<< n) ||| (x >>> (64 - n))) % 2 ^ 64

/-- Rotation offsets of step ρ, lane 5y + x. -/
def rhoOffsets : List Nat :=
  [0, 1, 62, 28, 27, 36, 44, 6, 55, 20, 3, 10, 43, 25, 39, 41, 45, 15, 21, 8, 18, 2, 61, 56, 14]

/-- Round constants of step ι. -/
def keccakRC : List Nat :=
  [0x0000000000000001, 0x0000000000008082, 0x800000000000808A, 0x8000000080008000, 0x000000000000808B, 0x0000000080000001,
   0x8000000080008081, 0x8000000000008009, 0x000000000000008A, 0x0000000000000088, 0x0000000080008009, 0x000000008000000A]
  ++ [0x000000008000808B, 0x800000000000008B, 0x8000000000008089, 0x8000000000008003, 0x8000000000008002, 0x8000000000000080,
   0x000000000000800A, 0x800000008000000A, 0x8000000080008081, 0x8000000000008080, 0x0000000080000001, 0x8000000080008008]

/-- Lane (x, y) of a state. -/
def lane (a : List Nat) (x y : Nat) : Nat := a.getD (x % 5 + 5 * (y % 5)) 0

/-- One round of Keccak-f[1600]. -/
def keccakRound (a : List Nat) (rc : Nat) : List Nat :=
  let c := (List.range 5).map (fun x => lane a x 0 ^^^ lane a x 1 ^^^ lane a x 2 ^^^ lane a x 3 ^^^ lane a x 4)
  let d := (List.range 5).map (fun x => c.getD ((x + 4) % 5) 0 ^^^ rot64 (c.getD ((x + 1) % 5) 0) 1)
  let t := (List.range 25).map (fun i => a.getD i 0 ^^^ d.getD (i % 5) 0)
  let bb := (List.range 25).map (fun i =>
    let x := i % 5
    let y := i / 5
    let sx := (x + 3 * y) % 5
    rot64 (t.getD (sx + 5 * x) 0) (rhoOffsets.getD (sx + 5 * x) 0))
  let e := (List.range 25).map (fun i =>
    let x := i % 5
    let y := i / 5
    lane bb x y ^^^ ((2 ^ 64 - 1 - lane bb (x + 1) y) &&& lane bb (x + 2) y))
  match e with
  | [] => []
  | h :: t => (h ^^^ rc) :: t

/-- The permutation. -/
def keccakF (a : List Nat) : List Nat := keccakRC.foldl keccakRound a

/-- XORs a 136-byte block into the state and permutes. -/
def absorb (a : List Nat) (blk : List Byte) : List Nat :=
  keccakF ((List.range 25).map (fun i => a.getD i 0 ^^^ leNat ((blk.drop (8 * i)).take 8)))

/-- The last block, padded: suffix 1111, then 10*1. -/
def shakePad (m : List Byte) : List Byte :=
  let k := 136 - m.length
  if k = 1 then m ++ [0x9F#8]
  else m ++ [0x1F#8] ++ List.replicate (k - 2) 0#8 ++ [0x80#8]

/-- Absorbs a message in blocks of 136 bytes. -/
def absorbAll : (fuel : Nat) → List Nat → List Byte → List Nat
  | 0, a, _ => a
  | f + 1, a, m => if m.length < 136 then absorb a (shakePad m) else absorbAll f (absorb a (m.take 136)) (m.drop 136)

/-- Squeezes blocks of output. -/
def squeeze : (blocks : Nat) → List Nat → List Byte
  | 0, _ => []
  | n + 1, a => (a.take 17).flatMap (leBytes 8) ++ squeeze n (keccakF a)

/-- SHAKE256 of a message with `n` bytes of output. -/
def shake256 (m : List Byte) (n : Nat) : List Byte :=
  (squeeze (n / 136 + 1) (absorbAll (m.length / 136 + 1) (List.replicate 25 0) m)).take n

/-- Bytes of an ASCII text. -/
def ascii (s : String) : List Byte := s.toList.map (fun c => BitVec.ofNat 8 c.toNat)

end Sys2Proof.Machine
end

