-- ==== Sys2Proof/Machine/Spore.lean ====
section
/-!
DEFINITION. The spore generator and its streams (13 R363–R368), and amax records (04 R103–R105).
-/

namespace Sys2Proof.Machine

/-- The four words of the generator's state (R363). -/
structure Spore where
  x0 : W32
  x1 : W32
  x2 : W32
  x3 : W32
  deriving DecidableEq, Repr

/-- A 32-bit word of a key. -/
def keyWord (key : Nat) (i : Nat) : W32 := BitVec.ofNat 32 (key / 2 ^ (32 * (i % 4)))

/-- inject(j) (R363). -/
def sporeInject (key j : Nat) (x : Spore) : Spore where
  x0 := x.x0 + keyWord key j
  x1 := x.x1 + keyWord key (1 + j)
  x2 := x.x2 + keyWord key (2 + j)
  x3 := x.x3 + keyWord key (3 + j) + BitVec.ofNat 32 ((j + 1) * 0x6D6F7373)

/-- Round `r` (R363). -/
def sporeRound (key r : Nat) (x : Spore) : Spore :=
  let x := if r % 2 = 0 then sporeInject key (r / 2) x else x
  let a := if r % 2 = 0 then 13 else 17
  let b := if r % 2 = 0 then 8 else 24
  let y0 := x.x0 + x.x1
  let y1 := rotl32 x.x1 a ^^^ y0
  let y2 := x.x2 + x.x3
  let y3 := rotl32 x.x3 b ^^^ y2
  ⟨y0, y3, y2, y1⟩

/-- spore(K, S, E, P) (R363). -/
def spore (key s e p : Nat) : Spore :=
  sporeInject key 3 (upTo 6 (fun x r => sporeRound key r x)
    ⟨BitVec.ofNat 32 p, BitVec.ofNat 32 (p / 2 ^ 32), BitVec.ofNat 32 e, BitVec.ofNat 32 (s % 65536) ^^^ 0x6665726E#32⟩)

/-- y0 of stream `s`, whose entry a command read at dispatch, for the element of position `p` (R365, R367). -/
def drawWord (entry : List Byte) (s epoch base p : Nat) : Nat :=
  let key := fieldAt entry 0 16
  if isSequential entry then
    (spore key s (fieldAt entry 0x20 4) ((fieldAt entry 0x10 8 + p + 2 ^ 64 - base % 2 ^ 64) % 2 ^ 64)).x0.toNat
  else (spore key s epoch (p % 2 ^ 64)).x0.toNat

/-- RAND (06 R149, R364). -/
def randValue (y0 : Nat) : W32 := round32 (.fin false (y0 / 256) (-24))
/-- spore16 of stochastic rounding (R364). -/
def spore16 (y0 : Nat) : Nat := y0 / 65536

/-- B(E) of a sequential stream (R368). -/
def cursorBase (entry : List Byte) (epoch : Nat) : Nat :=
  ((epoch + 2 ^ 32 - fieldAt entry 0x20 4) % 2 ^ 32 * fieldAt entry 0x18 8) % 2 ^ 64

/-! ### Amax records (04 R103–R105) -/

/-- fmax of a target format, as a value. -/
def fmaxOf (fmt : Nat) : Fp :=
  if fmt = 3 then .fin false 448 0 else if fmt = 4 then .fin false 57344 0 else .fin false 6 0

/-- floor(log2(a / b)) of positive finite values. -/
def floorLog2Ratio (a b : Fp) : Int :=
  match a, b with
  | .fin _ ma ea, .fin _ mb eb =>
    let d := fpLog2 ma ea - fpLog2 mb eb
    if fpLt (.fin false ma (ea - fpLog2 ma ea)) (.fin false mb (eb - fpLog2 mb eb)) then d - 1 else d
  | _, _ => 0

/-- The larger of FP32 words that hold finite magnitudes. -/
def maxWord (a b : W32) : W32 := if fpLt (fp32 a) (fp32 b) then b else a

/-- The roll of a record at a pithead (R105). -/
def rollRecord (r : List Byte) (epoch : Nat) : List Byte :=
  let head := byteAt r 0x42
  let r := putAt r (4 * head) 4 (fieldAt r 0x44 4)
  let r := putAt r 0x42 1 ((head + 1) % 16)
  let h := (List.range 16).foldl (fun m i => maxWord m (BitVec.ofNat 32 (fieldAt r (4 * i) 4))) 0#32
  let r := if h = 0#32 then r
    else putAt r 0x40 1 ((min (max (floorLog2Ratio (fmaxOf (byteAt r 0x43)) (fp32 h) - byteAt r 0x41) (-126)) 127) % 256).toNat
  putAt (putAt r 0x44 12 0) 0x50 4 epoch

/-- What a conversion under a record adds to it (R104): the largest finite magnitude, overflows, and non-finite inputs. -/
structure AmaxAdd where
  pending : W32
  ovfs : Nat
  nans : Nat
  deriving DecidableEq, Repr

/-- Adds to record `j` of a context, at its place in memory (R104): none where the record reads poisoned, which the maximum and the sums
consume (R109), or where it can no longer be read or written, with the status of the abort. A count that passes 2^32 − 1 keeps its low 32 bits
(log 161). -/
def amaxAdd (cx j : Nat) (a : AmaxAdd) (b : Block) : Except Nat Block :=
  let va := (ctx b cx).amaxVa + 128 * j
  match amaxRecord b cx j with
  | none => .error 0x13
  | some (_, true) => .error 0x24
  | some (r, false) =>
    let r := putAt r 0x44 4 (maxWord (BitVec.ofNat 32 (fieldAt r 0x44 4)) a.pending).toNat
    let r := putAt r 0x48 4 (fieldAt r 0x48 4 + a.ovfs)
    let r := putAt r 0x4C 4 (fieldAt r 0x4C 4 + a.nans)
    match vWrite cx (va + 0x44) ((r.drop 0x44).take 12) [] b with
    | .ok b => .ok b
    | .error .poison => .error 0x24
    | .error _ => .error 0x13

end Sys2Proof.Machine
end

