-- ==== Sys2Proof/Machine/SecureOps.lean ====
section
/-!
DEFINITION. Securing and the keep holder (14 R381–R391): the manifest, capture, streaming, completion and failure.
-/

namespace Sys2Proof.Machine

/-! ### Images (15 R415, R422, R426) -/

/-- The 128-byte context record with the current EPOCH (R415, R416). -/
def contextBytes (b : Block) (c : Nat) : List Byte :=
  let x := ctx b c
  leBytes 1 (b2n (ctxValid b c) + 2 * b2n x.psidy) ++ leBytes 1 x.prio ++ leBytes 1 x.ring ++ leBytes 1 0 ++ leBytes 4 x.epoch
    ++ leBytes 8 x.ttPa ++ leBytes 8 x.sporeVa ++ leBytes 4 x.sporeCnt ++ leBytes 2 x.amaxCnt ++ leBytes 2 0 ++ leBytes 8 x.amaxVa
    ++ leBytes 88 0

/-- No reserved value in a context record (R415). -/
def ctxRecordOk (d : List Byte) : Bool :=
  decide (byteAt d 0 < 4 ∧ byteAt d 1 < 4 ∧ byteAt d 2 < 16 ∧ fieldAt d 8 8 % 65536 = 0 ∧ fieldAt d 0x10 8 % 64 = 0
    ∧ fieldAt d 0x18 4 ≤ 65536 ∧ fieldAt d 0x1C 2 ≤ 4096 ∧ fieldAt d 0x20 8 % 128 = 0)
    && zeroAt d 3 1 && zeroAt d 0x1E 2 && zeroAt d 0x28 88

/-- The 64-byte queue descriptor (R422). -/
def queueBytes (b : Block) (q : Nat) : List Byte :=
  leBytes 2 q ++ leBytes 1 (qCtx b q) ++ leBytes 1 (qState b q) ++ leBytes 1 (get b (fSQ_CFG_SIZE_LOG2 q))
    ++ leBytes 1 (get b (fSQ_CFG_RING q)) ++ leBytes 2 0 ++ leBytes 8 (rd64 b (rSQ_BASE_LO q)) ++ leBytes 8 (rd64 b (rSQ_CQ_LO q))
    ++ leBytes 4 (get b (fSQ_HEAD_HEAD q)) ++ leBytes 4 (get b (fSQ_TAIL_TAIL q)) ++ leBytes 4 (get b (fSQ_SEQ_NEXT_SEQ q))
    ++ leBytes 4 (get b (fSQ_DONE_DONE_SEQ q)) ++ leBytes 4 (queue b q).dispSeq ++ leBytes 4 (get b (fSQ_ERR_SEQ_SEQ q))
    ++ leBytes 1 (get b (fSQ_STAT_ERR_STATUS q)) ++ leBytes 15 0

/-- Queues bound to a context, whatever their state (15 R416, R423). -/
def boundQueues (b : Block) (c : Nat) : List Nat := (List.range 512).filter (fun q => qCtx b q == c)

/-- The QUEUES payload (14 R389). A token's 8 bytes hold its value and then its branch bit (log 26). -/
def queuesPayload (b : Block) (c : Nat) : List Byte :=
  (boundQueues b c).flatMap (queueBytes b)
    ++ (List.range 1024).flatMap (fun t => leBytes 4 (token b c t).1 ++ leBytes 4 (b2n (token b c t).2))

/-! ### The manifest (14 R385) -/

/-- An entry of the manifest. -/
structure ManEntry where
  owned : Bool
  id : Nat
  blocks : Nat
  va : Nat
  bytes : Nat
  deriving DecidableEq, Repr

/-- A table in HBM or staging, at a VA of a context, with its poison. -/
def localBytes (b : Block) (c va n : Nat) : Option VRead :=
  match vaPieces b c va n false with
  | .error _ => none
  | .ok ps =>
    if ps.all (fun p => match rangeOf p.1 with
        | .hbm | .staging _ => true
        | _ => false) then
      match vRead b c va n with
      | .ok r => some r
      | .error _ => none
    else none

/-- Fields of a manifest entry. -/
def manChecks (d : List Byte) : Bool :=
  let k := byteAt d 0
  (k == 1 || k == 2) && byteAt d 1 == 0 && fieldAt d 2 2 != 0 && zeroAt d 0x18 8 && fieldAt d 8 8 % 64 == 0
    && (k == 1 || (zeroAt d 4 4 && fieldAt d 0x10 8 % 64 == 0))

/-- The manifest, or the failing CAUSE: 3 POISON, 4 MANIFEST. -/
def readManifest (b : Block) (c : Nat) : Except Nat (List ManEntry) :=
  let n := get b fGG_SECURE_MAN_CNT_COUNT
  if n = 0 ∨ rd64 b rGG_SECURE_MAN_LO % 64 ≠ 0 then .error 4
  else match localBytes b c (rd64 b rGG_SECURE_MAN_LO) (32 * n) with
  | none => .error 4
  | some r =>
    if r.bad then .error 3
    else
      let es := (List.range n).map (fun i => (r.bytes.drop (32 * i)).take 32)
      let ids := es.map (fun d => fieldAt d 2 2)
      if !es.all manChecks || ids.eraseDups.length != n then .error 4
      else .ok (es.map (fun d => ⟨byteAt d 0 == 1, fieldAt d 2 2, fieldAt d 4 4, fieldAt d 8 8, fieldAt d 0x10 8⟩))

/-- Owner and current address of block `k` of an OWNED entry (09 R239, R240), or a CAUSE: 3 POISON, 4 MANIFEST for an entry that cannot be
read or holds a non-zero reserved field. -/
def ownedBlock (b : Block) (c epoch : Nat) (m : ManEntry) (k : Nat) : Except Nat (Nat × Nat) :=
  match localBytes b c (m.va + 32 * k) 32 with
  | some r =>
    if r.bad then .error 3
    else if (minFail (ownerChecks r.bytes)).isSome then .error 4
    else .ok (fieldAt r.bytes 0 2, fieldAt r.bytes (if byteAt r.bytes 2 % 2 = 1 ∧ epoch % 2 = 1 then 0x10 else 8) 8)
  | none => .error 4

/-- A section of memory that streams from its address. -/
def liveSection (typ id blk va bytes : Nat) : Section := ⟨typ, id, blk, va, bytes, [], []⟩
/-- A captured section. -/
def copiedSection (typ : Nat) (bs : List Byte) : Section := ⟨typ, 0, 0, 0, bs.length, bs, []⟩

/-- The BLOCK and RANGE sections of the manifest, in its order, or the CAUSE of an owner table that cannot be used. -/
def dataSections (b : Block) (c epoch : Nat) (ms : List ManEntry) : Except Nat (List Section) :=
  ms.foldl (fun a m => match a with
    | .error e => .error e
    | .ok l =>
      if !m.owned then .ok (l ++ [liveSection 2 m.id 0 m.va m.bytes])
      else (List.range m.blocks).foldl (fun a k => match a with
        | .error e => .error e
        | .ok l => match ownedBlock b c epoch m k with
          | .error e => .error e
          | .ok (d, va) => .ok (if d = devId b then l ++ [liveSection 1 m.id k va m.bytes] else l)) (.ok l)) (.ok [])

/-- The captured sections (R386, R389), or a CAUSE. -/
def captureSections (b : Block) (c : Nat) : Except Nat (List Section) :=
  let x := ctx b c
  let part := fun (va n : Nat) => if n = 0 then some (⟨[], []⟩ : VRead) else localBytes b c va n
  match part x.sporeVa (64 * x.sporeCnt), part x.amaxVa (128 * x.amaxCnt) with
  | some s, some a =>
    if s.bad || a.bad || b.gang.tablePas.any (fun p => anyPoison b p.1 p.2) then .error 3
    else .ok [copiedSection 3 (queuesPayload b c), copiedSection 4 (contextBytes b c ++ s.bytes ++ a.bytes),
              copiedSection 5 ((List.range 65536).flatMap (fun i => leBytes 2 (mapGet 0 b.lastGen i))),
              copiedSection 6 (regionBytes b b.gang.tablePas 0 0x40000)]
  | _, _ => .error 4

/-! ### The record (14 R388, R390) -/

/-- Next multiple of 64. -/
def up64 (n : Nat) : Nat := ceilDiv n 64 * 64

/-- Payload offset of section `i` in the record. -/
def sectionOffset (ss : List Section) (i : Nat) : Nat :=
  (ss.take i).foldl (fun o s => up64 (o + s.bytes)) (up64 (0x100 + 64 * ss.length))

/-- Length of the record. -/
def recordLength (ss : List Section) : Nat := sectionOffset ss ss.length

/-- The digest of a section (R390). -/
def sectionDigest (typ id blk epoch : Nat) (payload : List Byte) : List Byte :=
  shake256 (leBytes 1 typ ++ leBytes 1 0 ++ leBytes 2 id ++ leBytes 4 blk ++ leBytes 4 epoch ++ leBytes 4 0 ++ payload) 32

/-- The section table (R388). -/
def sectionTable (ss : List Section) : List Byte :=
  (List.range ss.length).flatMap (fun i => match ss[i]? with
    | some s => leBytes 1 s.typ ++ leBytes 1 0 ++ leBytes 2 s.id ++ leBytes 4 s.blk ++ leBytes 8 (sectionOffset ss i)
        ++ leBytes 8 s.bytes ++ leBytes 8 0 ++ s.digest
    | none => [])

/-- The 256-byte header (R388). -/
def recordHeader (b : Block) (s : Securing) (complete : Bool) : List Byte :=
  let head := leBytes 2 1 ++ leBytes 2 (devId b) ++ leBytes 4 s.seq ++ leBytes 4 s.epoch ++ leBytes 2 s.gen ++ leBytes 1 s.ctx
    ++ leBytes 1 1 ++ leBytes 4 (get b fSEC_FW_EPOCH_EPOCH) ++ leBytes 4 s.sections.length ++ leBytes 8 (recordLength s.sections)
    ++ leBytes 8 s.ts ++ leBytes 24 0 ++ shake256 (sectionTable s.sections) 32
  let all := head ++ shake256 head 32 ++ leBytes 128 0
  if complete then all else putAt all 0x0F 1 0

/-- VA of HOST slot `s` (R383). -/
def hostSlotVa (b : Block) (s : Nat) : Nat := rd64 b rGG_SECURE_HOST_LO + s * get b fGG_SECURE_SLOT_MIB * 0x100000

/-- EPOCH and SEQ of a complete record's header (R383, R388). -/
def completeHeader (h : List Byte) : Option (Nat × Nat) :=
  if fieldAt h 0 2 = 1 ∧ byteAt h 15 = 1 ∧ 0x80 ≤ h.length then some (fieldAt h 8 4, fieldAt h 4 4) else none

/-- The slot of two that holds the newest complete record: the newer EPOCH, then the newer SEQ (R383, log 27). -/
def newestSlot (h0 h1 : List Byte) : Option Nat :=
  match completeHeader h0, completeHeader h1 with
  | none, none => none
  | some _, none => some 0
  | none, some _ => some 1
  | some a, some c => if newer32 c.1 a.1 || (c.1 == a.1 && newer32 c.2 a.2) then some 1 else some 0

/-- The slot that an attempt writes: the one that does not hold the newest complete record. -/
def slotToWrite (h0 h1 : List Byte) : Nat :=
  match newestSlot h0 h1 with
  | some 0 => 1
  | _ => 0

/-- Header bytes at a VA; none readable is empty. -/
def headerAt (b : Block) (c va : Nat) : List Byte :=
  match vRead b c va 256 with
  | .ok r => if r.bad then [] else r.bytes
  | .error _ => []

/-! ### Outcomes (14 R388, R391, R401) -/

/-- One target of an attempt fails; the last one fails the attempt (R388). -/
def targetFail (cause : Nat) (host : Bool) (s : Securing) (b : Block) : Block :=
  let s' := if host then { s with host := false } else { s with peer := false }
  if s'.host || s'.peer then secureFailed cause (if host then 1 else 2) s.epoch { b with securing := some s' }
  else secureFail cause (if host then 1 else 2) s.epoch b

/-! ### Capture and streaming (14 R386) -/

/-- Writes a piece of the record into the HOST slot; a fault makes the target unreachable (R401). -/
def hostWrite (off : Nat) (bs : List Byte) (s : Securing) (b : Block) : Block :=
  if !s.host then b
  else match vWrite s.ctx (hostSlotVa b s.hostSlot + off) bs [] b with
  | .ok b => b
  | .error _ => targetFail 1 true s b

/-- Bytes of the securing areas (10 R282). -/
def secureSpace (b : Block) : Nat :=
  (List.range 8).foldl (fun a i => if isSet b (fBLK_STAT_FAILED (sgBase i)) then a else a + get b (fSG_PART_SECURE i) * 0x100000) 0

/-- Bytes of the ledger (R383). -/
def ledgerSpace (b : Block) : Nat := b.ledger.foldl (fun a e => a + e.2.length) 0

/-- Step 5 of R356: the capture (R384–R386). It answers whether the record is being secured. -/
def secureCapture (c epoch : Nat) (b : Block) : Bool × Block :=
  let t := get b fGG_SECURE_CTL_TARGET
  let holder := keepHolder b
  if t = 0 then (false, b)
  else if t = 2 ∧ holder.isNone then (false, secureFail 1 2 epoch b)
  else
    let ms : Except Nat (List Section) := match readManifest b c with
      | .error e => .error e
      | .ok ms => match dataSections b c epoch ms with
        | .error e => .error e
        | .ok l => match captureSections b c with
          | .error e => .error e
          | .ok k => .ok (l ++ k)
    match ms with
    | .error e => (false, secureFail e t epoch b)
    | .ok ss =>
      let copied := ss.foldl (fun a s => a + s.data.length) 0
      if secureSpace b < copied + ledgerSpace b then (false, secureFail 5 t epoch b)
      else
        let host := t.testBit 0
        let peer := t.testBit 1 && holder.isSome
        let slot := slotToWrite (headerAt b c (hostSlotVa b 0)) (headerAt b c (hostSlotVa b 1))
        let s : Securing := ⟨c, epoch, (get b fGG_SECURE_SEQ_SEQ + 1) % 2 ^ 32, gen b, now b, host, peer, holder, slot, b.peerSlot, ss, 0,
          false⟩
        let tooBig := host && decide (get b fGG_SECURE_SLOT_MIB * 0x100000 < recordLength ss)
        if tooBig && !peer then (false, secureFail 2 t epoch b)
        else
          let b := put fGG_SECURE_STAT_STATE 2 { b with securing := some s }
          let b := if tooBig then targetFail 2 true s b else b
          let b := if t.testBit 1 && !peer then secureFailed 1 2 epoch b else b
          let b := match b.securing with
            | some s => hostWrite 0 (List.replicate 256 0#8) s b
            | none => b
          let b := match b.securing, holder with
            | some s, some h => if s.peer then sendGang h (.keepWrite s.peerSlot 0 (List.replicate 256 0#8)) b else b
            | _, _ => b
          (b.securing.isSome, b)

/-- SECURING_STREAM (R386): hashes and sends the next section. `delays` says that this traffic delays a queue. -/
def secureStream (delays : Bool) (b : Block) : Block :=
  match b.securing with
  | none => b
  | some s =>
    match s.sections[s.next]? with
    | none => b
    | some x =>
      let r : Option VRead := if 3 ≤ x.typ then some ⟨x.data, []⟩ else match vRead b s.ctx x.va x.bytes with
        | .ok r => some r
        | .error _ => none
      match r with
      | none => secureFail 4 s.target s.epoch b
      | some r =>
        if r.bad then secureFail 3 s.target s.epoch b
        else
          let x := { x with digest := sectionDigest x.typ x.id x.blk s.epoch r.bytes }
          let off := sectionOffset s.sections s.next
          let say := delays && !s.yielded
          let s := { s with sections := s.sections.set s.next x, next := s.next + 1, yielded := s.yielded || delays }
          let b := { b with securing := some s }
          let b := if say then yieldGuarantee 7 5 3 0x12 b else b
          let b := match s.holder with
            | some h => if s.peer then sendGang h (.keepWrite s.peerSlot off r.bytes) b else b
            | none => b
          let b := hostWrite off r.bytes s b
          if s.next ≠ s.sections.length then b
          else match b.securing, s.holder with
          | some s, some h =>
            let t := recordHeader b s true ++ sectionTable s.sections
            sendGang h (if s.peer then .keepTable s.peerSlot t else .ledgerTable s.hostSlot t) b
          | _, _ => b

/-- SECURING_COMPLETE (R388): every section is sent; `peerAck` and `ledgerAck` say what the keep holder has acknowledged. The
table and then the header go into the HOST slot last. With both targets the first completes the securing, and PEER is awaited beyond it. -/
def secureComplete (peerAck ledgerAck : Bool) (b : Block) : Block :=
  match b.securing with
  | none =>
    match b.peerLate with
    | some (_, slot) => if peerAck then { b with peerLate := none, peerSlot := 1 - slot } else b
    | none => b
  | some s =>
    if s.next ≠ s.sections.length ∨ (s.holder.isSome ∧ !ledgerAck) then b
    else
      let b := hostWrite 0x100 (sectionTable s.sections) s b
      let b := match b.securing with
        | some s => hostWrite 0 (recordHeader b s true) s b
        | none => b
      match b.securing with
      | none => b
      | some s =>
        if !(s.host || (s.peer && peerAck)) then b
        else
          let b := put fGG_SECURE_STAT_STATE 0 (put fGG_SECURE_STAT_SINCE 0 (put fGG_CANARY_REQUEST 0 b))
          let b := put fGG_SECURE_SEQ_SEQ s.seq (put fGG_SECURE_EPOCH_EPOCH s.epoch b)
          let b := { b with securing := none, secFailed := false,
                            peerLate := if s.peer && !peerAck then some (s.epoch, s.peerSlot) else none,
                            peerSlot := if s.peer && peerAck then 1 - s.peerSlot else b.peerSlot }
          raise 7 32 (post 0x0403 7 (s.seq + s.epoch * 2 ^ 32) b)

/-- SECURING_FAILURE (R388, R401): a target fails with a cause, or with target 3 the attempt; `refused` says that the keep holder refused the
slot, so that its newest record stands there and the next attempt writes the other one (R383). A PEER target that is still awaited when the
other completed the securing fails with its own SECURE_FAILED (R388). -/
def secureFailure (cause target : Nat) (refused : Bool) (b : Block) : Block :=
  match b.securing with
  | none =>
    match b.peerLate with
    | some (epoch, slot) =>
      if cause = 0 ∨ 6 < cause ∨ target ≠ 2 then b
      else secureFailed cause 2 epoch { b with peerLate := none, peerSlot := if refused then 1 - slot else b.peerSlot }
    | none => b
  | some s =>
    let b := if refused && s.peer && target != 1 then { b with peerSlot := 1 - s.peerSlot } else b
    if cause = 0 ∨ 6 < cause then b
    else if target = 1 then if s.host then targetFail cause true s b else b
    else if target = 2 then if s.peer then targetFail cause false s b else b
    else secureFail cause s.target s.epoch b

/-! ### The keep holder (14 R383, R391) -/

/-- PA and size of keep slot `s` (R383). -/
def keepSlot (b : Block) (s : Nat) : Nat × Nat :=
  let half := get b fGG_KEEP_SIZE_MIB * 0x100000 / 2
  (rd64 b rGG_KEEP_PA_LO + s * half, half)

/-- The ledger has room for a section table in place of the one it holds for a slot (R383, R401). -/
def ledgerFits (b : Block) (slot n : Nat) : Bool :=
  decide (ledgerSpace b - (mapGet [] b.ledger slot).length + n ≤ secureSpace b)

/-- A section table for the ledger, acknowledged, or refused where it has no room (R382, R383). -/
def ledgerTake (src slot : Nat) (data : List Byte) (b : Block) : Block :=
  if ledgerFits b slot data.length then sendGang src (.keepAck slot) { b with ledger := mapSet [] b.ledger slot data }
  else sendGang src (.keepRefuse slot 5) b

/-- KEEP_RECORD_RECEIVE (R382, R383): a piece of a peer's record, its header and section table, or those of a record kept elsewhere. A
piece is refused when the slot holds the newest complete record or is being written by another device (TARGET), or is too small for the piece
(SIZE); a table is refused where the ledger has no room for it (SPACE, R401). -/
def keepReceive (src slot off : Nat) (part : KeepPart) (data : List Byte) (b : Block) : Block :=
  let p := keepSlot b slot
  let hdr := fun (s : Nat) => memBytes b (keepSlot b s).1 256
  let writer := mapGet 0 b.keepWriter slot
  let refuse := fun (cause : Nat) => sendGang src (.keepRefuse slot cause) b
  if 2 ≤ slot then b
  else if part = .ledger then ledgerTake src slot data b
  else if writer ≠ 0 ∧ writer ≠ src + 1 then refuse 1
  else if writer = 0 ∧ newestSlot (hdr 0) (hdr 1) = some slot then refuse 1
  else if !targetReachable b p.1 ∨ rangeOf p.1 ≠ .hbm then refuse 1
  else if p.2 < off + data.length then refuse 2
  else if part = .table then
    if !ledgerFits b slot data.length then refuse 5
    else
      let b := memWrite p.1 (data.take 256) (memWrite (p.1 + 0x100) (data.drop 256) b)
      ledgerTake src slot data { b with keepWriter := mapErase b.keepWriter slot }
  else
    let b := if writer = 0 then memWrite p.1 (List.replicate 256 0#8) b else b
    memWrite (p.1 + off) data { b with keepWriter := mapSet 0 b.keepWriter slot (src + 1) }

/-! ### Digests (14 R395) -/

/-- A digest request or answer (R395). -/
def digestPayload (kind source id blk epoch rdev typ : Nat) (dig : List Byte) : List Byte :=
  leBytes 1 kind ++ leBytes 1 source ++ leBytes 2 id ++ leBytes 4 blk ++ leBytes 4 epoch ++ leBytes 2 rdev ++ leBytes 1 typ
    ++ leBytes 17 0 ++ dig ++ List.replicate (32 - dig.length) 0#8

/-- The digest that this device's own live copy gives (R395). -/
def liveDigest (b : Block) (typ id blk epoch : Nat) : Option (List Byte) :=
  let c := stepCtx b
  if stepEpoch b ≠ epoch ∨ typ ≠ 1 then none
  else match readManifest b c with
  | .error _ => none
  | .ok ms => match ms.find? (fun m => m.owned && m.id == id && decide (blk < m.blocks)) with
    | none => none
    | some m => match ownedBlock b c epoch m blk with
      | .error _ => none
      | .ok (d, va) =>
        if d ≠ devId b then none
        else match vRead b c va m.bytes with
        | .ok r => if r.bad then some [] else some (sectionDigest typ id blk epoch r.bytes)
        | .error _ => some []

/-- The digest that the ledger holds for a device, section and epoch (R395). -/
def ledgerDigest (b : Block) (typ id blk epoch rdev : Nat) : Option (List Byte) :=
  b.ledger.findSome? (fun e =>
    let h := e.2
    if fieldAt h 2 2 ≠ rdev ∨ fieldAt h 8 4 ≠ epoch then none
    else (List.range (fieldAt h 0x14 4)).findSome? (fun i =>
      let s := (h.drop (0x100 + 64 * i)).take 64
      if byteAt s 0 = typ ∧ fieldAt s 2 2 = id ∧ fieldAt s 4 4 = blk then some ((s.drop 0x20).take 32) else none))

/-- DIGEST_REQ (R395): live, else the ledger, else none; a live copy that reads poisoned answers none. -/
def digestReq (m : Msg) (b : Block) : Block :=
  let p := m.payload
  if m.cls ≠ 5 ∨ byteAt p 0 ≠ 0x20 then b
  else gated m (fun b =>
    let id := fieldAt p 2 2
    let blk := fieldAt p 4 4
    let e := fieldAt p 8 4
    let rdev := fieldAt p 12 2
    let typ := byteAt p 14
    let a := match liveDigest b typ id blk e with
      | some [] => (0, [])
      | some d => (1, d)
      | none => match ledgerDigest b typ id blk e rdev with
        | some d => (2, d)
        | none => (0, [])
    sendMsg m.src 5 0 (digestPayload 0x21 a.1 id blk e rdev typ a.2) b) b

end Sys2Proof.Machine
end

