-- ==== Sys2Proof/Machine/Ed448.lean ====
section
/-!
DEFINITION. Ed448 (RFC 8032, section 5.2), which 18 R499, R504, R507 and R513 name: keys, signatures and their verification. The spec
takes it from that standard (log 8).
-/

namespace Sys2Proof.Machine

/-- The field's prime, 2^448 − 2^224 − 1. -/
def edP : Nat := 2 ^ 448 - 2 ^ 224 - 1
/-- The group's order. -/
def edL : Nat := 2 ^ 446 - 13818066809895115352007386748515426880336692474882178609894547503885

/-- A sum, a difference and a product in the field. -/
def edAdd (a b : Nat) : Nat := (a + b) % edP
def edSub (a b : Nat) : Nat := (a + edP - b % edP) % edP
def edMul (a b : Nat) : Nat := a * b % edP

/-- The bits of a number below `2 ^ n`, highest first. -/
def bitsHigh (n v : Nat) : List Bool := ((List.range n).reverse).map (fun i => v.testBit i)

/-- A power in the field. -/
def edPow (a e : Nat) : Nat :=
  (bitsHigh 448 e).foldl (fun r bit => if bit then edMul (edMul r r) a else edMul r r) 1

/-- A point in projective coordinates. -/
structure EdPoint where
  x : Nat
  y : Nat
  z : Nat
  deriving DecidableEq, Repr

/-- The neutral point. -/
def edZero : EdPoint := ⟨0, 1, 1⟩

/-- The base point. -/
def edBase : EdPoint :=
  ⟨224580040295924300187604334099896036246789641632564134246125461686950415467406032909029192869357953282578032075146446173674602635247710,
   298819210078481492676017930443930673437544040154080242095928241372331506189835876003536878655418784733982303233503462500531545062832660,
   1⟩

/-- The sum of two points of x² + y² = 1 − 39081 x² y². -/
def edPlus (p q : EdPoint) : EdPoint :=
  let a := edMul p.z q.z
  let b := edMul a a
  let c := edMul p.x q.x
  let d := edMul p.y q.y
  let e := edSub 0 (edMul 39081 (edMul c d))
  let f := edSub b e
  let g := edAdd b e
  let h := edMul (edAdd p.x p.y) (edAdd q.x q.y)
  ⟨edMul (edMul a f) (edSub (edSub h c) d), edMul (edMul a g) (edSub d c), edMul f g⟩

/-- A multiple of a point. -/
def edTimes (n : Nat) (p : EdPoint) : EdPoint :=
  (bitsHigh 456 n).foldl (fun r bit => if bit then edPlus (edPlus r r) p else edPlus r r) edZero

/-- Two points are equal. -/
def edSame (p q : EdPoint) : Bool := edMul p.x q.z == edMul q.x p.z && edMul p.y q.z == edMul q.y p.z

/-- The 57 bytes of a point: y, and the low bit of x in the highest bit. -/
def edEncode (p : EdPoint) : List Byte :=
  let zi := edPow p.z (edP - 2)
  leBytes 57 (edMul p.y zi + edMul p.x zi % 2 * 2 ^ 455)

/-- The point that 57 bytes encode, where they encode one. -/
def edDecode (bs : List Byte) : Option EdPoint :=
  let v := leNat bs
  let y := v % 2 ^ 455
  let sign := v / 2 ^ 455 % 2
  let u := edSub (edMul y y) 1
  let w := edSub (edSub 0 (edMul 39081 (edMul y y))) 1
  let u3 := edMul u (edMul u u)
  let x := edMul (edMul u3 w) (edPow (edMul (edMul (edMul u3 u) u) (edMul w (edMul w w))) ((edP - 3) / 4))
  if bs.length ≠ 57 ∨ edP ≤ y then none
  else if edMul w (edMul x x) ≠ u then none
  else if x = 0 ∧ sign = 1 then none
  else some ⟨if x % 2 = sign then x else edP - x, y, 1⟩

/-- dom4 of a context. -/
def edDom (context : List Byte) : List Byte := ascii "SigEd448" ++ [0#8] ++ leBytes 1 context.length ++ context

/-- The secret scalar of a private seed. -/
def edScalar (seed : List Byte) : Nat :=
  let n := leNat ((shake256 seed 114).take 56)
  n % 2 ^ 447 / 4 * 4 + 2 ^ 447

/-- The public key of a private seed. -/
def ed448Public (seed : List Byte) : List Byte := edEncode (edTimes (edScalar seed) edBase)

/-- A digest as a scalar. -/
def edHash (context : List Byte) (m : List Byte) : Nat := leNat (shake256 (edDom context ++ m) 114) % edL

/-- A signature. -/
def ed448Sign (seed context message : List Byte) : List Byte :=
  let r := edHash context ((shake256 seed 114).drop 57 ++ message)
  let rb := edEncode (edTimes r edBase)
  let k := edHash context (rb ++ ed448Public seed ++ message)
  rb ++ leBytes 57 ((r + k * edScalar seed) % edL)

/-- A signature verifies: [4][S]B = [4]R + [4][k]A. -/
def ed448Verify (pub context message signature : List Byte) : Bool :=
  let rb := signature.take 57
  let s := leNat (signature.drop 57)
  match edDecode pub, edDecode rb with
  | some a, some r =>
    signature.length == 114 && decide (s < edL)
      && edSame (edTimes 4 (edTimes s edBase)) (edTimes 4 (edPlus r (edTimes (edHash context (rb ++ pub ++ message)) a)))
  | _, _ => false

end Sys2Proof.Machine
end

