-- ==== Sys2Proof/Machine/PowerRows.lean ====
section
/-!
DEFINITION. Power input, cooling, envelope, firedamp, activity states and parking, row by row (02, 17).
-/

namespace Sys2Proof.Machine

/-- PWR runs: its state is neither restarting nor reloading (16 R456, R469). -/
def pwrRuns (b : Block) : Bool := get b fPW_FW_PWR_STATE == 0

/-- The regulators run, from power-up on. -/
def powered (b : Block) : Bool := b.pwr.rail == .charging || b.pwr.rail == .up

/-- Posts a PW record, or keeps it while PWR is down (16 R458). -/
def pwrPost (code data : Nat) (b : Block) : Block :=
  if pwrRuns b then post code 2 data b
  else setFw (fun f => { f with pwrPosts := f.pwrPosts ++ [⟨code, 0xFF, 2, 0xFFFF, 0, now b, data⟩] }) b

/-! ### Power input (02 R35–R43) -/

/-- POWER_UP (R41, R42, R37): a filtered rising edge of PWR_EN after it was low for `lowMs`. Outside the operating range the module
waits, after a shutdown too (log 120). -/
def powerUp (vinMv lowMs : Nat) (b : Block) : Block :=
  if b.pwr.pwrEn ∨ lowMs < 100 then b
  else
    let b := setPwr (fun p => { p with pwrEn := true }) b
    if inRange vinMv then startPower vinMv b else setPwr (fun p => { p with rail := .waitInput }) b

/-- INPUT_ENTERS_RANGE (R42, R57): starts a deferred power-up; an input above 42.0 V is above it no more. -/
def inputEntersRange (vinMv : Nat) (b : Block) : Block :=
  if !inRange vinMv then b
  else
    let b := setPwr (fun p => { p with ovIn := false }) b
    if b.pwr.rail = .waitInput ∧ b.pwr.pwrEn then startPower vinMv b
    else if powered b then put fPW_INPUT_VIN_MV vinMv b else b

/-- POWER_DOWN (R41): a filtered falling edge of PWR_EN fences all work and turns everything off. It ends the latch of a shutdown
(R37, log 120). -/
def powerDown (b : Block) : Block :=
  if b.pwr.pwrEn then powerLost .off (fenceAll (setPwr (fun p => { p with pwrEn := false }) b)) else b

/-- OVER_VOLTAGE_SHUTDOWN (R35, R37). -/
def overVoltage (vinMv : Nat) (b : Block) : Block :=
  if 46000 ≤ vinMv then shutdown b else b

/-- UNDER_VOLTAGE_SHUTDOWN (R35, R37): the input is below 36.0 V. -/
def underVoltage (b : Block) : Block := shutdown b

/-- INPUT_OV_WARN (R35, R57): once on each entry into 42.0–46.0 V. -/
def inputOvWarn (vinMv : Nat) (b : Block) : Block :=
  if powered b ∧ 42000 < vinMv ∧ vinMv < 46000 ∧ b.pwr.ovIn = false then
    let b := setPwr (fun p => { p with ovIn := true }) (put fPW_INPUT_VIN_MV vinMv b)
    alert 1 (post 0x0100 2 vinMv b)
  else b

/-- DROOP (R35, R36): the input falls into 36.0–38.0 V; the dip timer runs and one droop is counted. -/
def droopStart (vinMv : Nat) (b : Block) : Block :=
  if powered b ∧ 36000 ≤ vinMv ∧ vinMv < 38000 ∧ b.pwr.dip = false then
    let b := setPwr (fun p => { p with dip := true, droops := p.droops + 1 }) (put fPW_INPUT_VIN_MV vinMv b)
    canaryAdd .droop 1 b
  else b

/-- DIP_END (R36): the input is back at or above 38.0 V after `us` in the dip; a timer past 5 ms shuts down. -/
def dipEnd (us : Nat) (b : Block) : Block :=
  if b.pwr.dip then
    let b := setPwr (fun p => { p with dip := false, dipUs := p.dipUs + us }) b
    if 5000 < b.pwr.dipUs then shutdown b else b
  else b

/-- DIP_TIMER_EXPIRY (R36, R37). -/
def dipExpiry (b : Block) : Block :=
  if b.pwr.dip then shutdown b else b

/-- DIP_TIMER_RESET (R36). -/
def dipReset (b : Block) : Block :=
  if b.pwr.dip then b else setPwr (fun p => { p with dipUs := 0 }) b

/-- ELECTRONIC_CURRENT_LIMIT_TRIP (R38): 100 A for 20 µs: the trip, and then a shutdown of the under-voltage class. -/
def currentTrip (b : Block) : Block := shutdown b

/-- MOD_RST_N_LOW (R40, R43, 17 R492). -/
def modRstLow (b : Block) : Block :=
  let b := setPwr (fun p => { p with modRstN := false }) b
  if b.pwr.pwrGood then moduleReset 1 true b else b

/-- MOD_RST_N_HIGH (R43): releases a boot or reset that waited. -/
def modRstHigh (b : Block) : Block :=
  setPwr (fun p => { p with modRstN := true, rstWait := false }) b

/-- REFCLK_LOST (R51, 17 R472). -/
def refclkLost (b : Block) : Block :=
  let b := setPwr (fun p => { p with refclk := false }) b
  if powered b then
    let b := put fPW_CLK_ROOT_LOCK 0 (setPwr (fun p => { p with hardFence := true }) b)
    alert 2 (post 0x0101 2 0 (fenceAll b))
  else b

/-- REFCLK_BACK (R51). -/
def refclkBack (b : Block) : Block :=
  let b := setPwr (fun p => { p with refclk := true }) b
  if powered b ∧ 1 ≤ get b fDEV_BLK_STAT_BOOT_PHASE then put fPW_CLK_ROOT_LOCK 1 b else b

/-! ### Cooling (02 R52–R57) -/

/-- The straps have been latched (R52): at a cold boot when PWR_GOOD rose, at a module reset in the phase CLOCKS (log 127). -/
def latched (b : Block) : Bool :=
  b.pwr.rail == .up && (b.pwr.cold || decide (2 ≤ get b fDEV_BLK_STAT_BOOT_PHASE))

/-- STRAP_CHANGED (R55): live COOL straps that differ from the latched value. -/
def strapChanged (live : Nat) (b : Block) : Block :=
  let b := setPwr (fun p => { p with coolPins := live % 4 }) b
  if !latched b then b
  else
    let was := isSet b fPW_COOL_MISMATCH
    let b := coolSettle (put fPW_COOL_LIVE (live % 4) b)
    if isSet b fPW_COOL_MISMATCH && !was then alert 8 (post 0x0104 2 (coolData b) b) else b

/-- STRAP_MISMATCH_CLEARED (R55): the straps read the latched value again. -/
def strapCleared (b : Block) : Block :=
  if latched b then
    coolSettle (put fPW_COOL_LIVE (get b fPW_COOL_STRAP) (setPwr (fun p => { p with coolPins := get b fPW_COOL_STRAP }) b))
  else b

/-- A write of PW_COOL takes effect (R54, R55). -/
def applyConfirm (v : W32) (b : Block) : Block :=
  let code := field v 5 4
  let b := coolSettle (put fPW_COOL_CONFIRM code b)
  if code = get b fPW_COOL_STRAP then setPwr (fun p => { p with unconfirmed := false }) b
  else alert 4 (post 0x0103 2 (coolData b) (setPwr (fun p => { p with unconfirmed := true }) b))

/-- ALERT_CLEAR (R57): a bit whose condition still holds is set again in the next PCLK cycle, a bit that was 0 too (log 121). -/
def applyAlertClear (v : W32) (b : Block) : Block :=
  let b := wr b rPW_ALERT (rd b rPW_ALERT &&& ~~~ v)
  alert (alertConditions b &&& v.toNat) b

/-! ### Envelope and pacing (02 R58, 17 R484) -/

/-- ENVELOPE_EXCURSION and the GUARANTEE_YIELDED of its episode (R58, 16 R452); a sample above 4,095 W is taken modulo 4,096
(log 122). -/
def excursion (watts kind : Nat) (b : Block) : Block :=
  let b := pwrPost 0x0105 (watts % 4096 + kind * 4096) b
  pwrPost 0x0011 (5 + 1 * 2 ^ 4 + 4 * 2 ^ 8) b

/-- ENVELOPE_EXCURSION_HEIGHT: a 10 µs sample above 1.2 E. -/
def excursionHeight (watts : Nat) (b : Block) : Block :=
  if powered b ∧ 12 * envelope b < 10 * watts then
    let was := b.fd.heightCause
    let b := put fPW_POWER_PEAK_W (max (get b fPW_POWER_PEAK_W) (min watts 4095)) b
    let b := fdRise (setFd (fun f => { f with heightCause := true, powerW := watts }) b)
    if was then b else excursion watts 0 b
  else b

/-- ENVELOPE_EXCURSION_LENGTH: 1 ms of samples above E, `watts` the highest. -/
def excursionLength (watts : Nat) (b : Block) : Block :=
  if powered b ∧ envelope b < watts then
    let was := b.fd.lengthCause
    let b := put fPW_POWER_PEAK_W (max (get b fPW_POWER_PEAK_W) (min watts 4095)) b
    let b := fdRise (setFd (fun f => { f with lengthCause := true, powerW := watts }) b)
    if was then b else excursion watts 1 b
  else b

/-- The largest pacing level, from 1 to 64, that lies at or below a cap and at which the predicted power is at most 0.98 E
(17 R484, 02 R58); 1 where none is. `predicted` gives the power at each level from 1 on (log 10). -/
def governorLevel (e cap : Nat) (predicted : List Nat) : Nat :=
  (List.range (min 64 cap)).foldl (fun l i => if 100 * predicted.getD i 0 ≤ 98 * e then i + 1 else l) 1

/-- PACING_UPDATE (R484, 02 R56, R58): the 10 µs samples, and the largest level that meets both the average limit and the firedamp
cap; the level holds while PWR is down. -/
def pacingUpdate (predicted : List Nat) (vinMv iin10mA avgW sampleW : Nat) (b : Block) : Block :=
  if !powered b then b
  else
    let b := put fPW_INPUT_IIN_10MA (min iin10mA 65535) (put fPW_INPUT_VIN_MV vinMv b)
    let b := put fPW_POWER_PEAK_W (max (get b fPW_POWER_PEAK_W) (min sampleW 4095)) (put fPW_POWER_AVG_W (min avgW 4095) b)
    let e := envelope b
    let b := setFd (fun f => { f with
      heightCause := f.heightCause && decide (12 * e < 10 * sampleW)
      lengthCause := f.lengthCause && decide (e < sampleW) }) b
    if pwrRuns b then { b with paceNext := some (governorLevel e (fdCap (fdLevel b)) predicted) } else b

/-! ### Firedamp rows (17 R487–R490, 02 R47) -/

/-- FD_N is driven low (02 R46, R47, R488): the pins are the device's, and FD2 or FD3, but not an FD2 whose only cause is FD_N seen low, now or
since it went high. -/
def fdnDriven (b : Block) : Bool :=
  let lvl := fdLevel b
  pinsDriven b
    && (decide (lvl = 3) || (decide (lvl = 2) && (fdOwnCause b || !(b.fd.fdnCause || b.fd.fdnOnly))))

/-- FD_N_LOW: sampled low for 1 µs while this module does not drive it. -/
def fdnLow (b : Block) : Block :=
  let b := setFd (fun f => { f with fdnPin := true }) b
  if powered b && !fdnDriven b then fdRise (setFd (fun f => { f with fdnCause := true }) b) else b

/-- FD_N_HIGH (R489): an FD2 that FD_N alone caused holds until its fall, and is not driven onto the line (02 R47). -/
def fdnHigh (b : Block) : Block :=
  let only := b.fd.fdnCause && decide (fdLevel b = 2) && !fdOwnCause b
  setFd (fun f => { f with fdnPin := false, fdnCause := false, fdnOnly := f.fdnOnly || only }) b

/-- One die sensor's reading. -/
def dieReading (b : Block) (p : Nat × Nat) : Block :=
  setFd (fun f => { f with
    die := mapSet 0 f.die p.1 p.2
    dieLevel := mapSet 0 f.dieLevel p.1 (dieLevelOf (mapGet 0 f.dieLevel p.1) p.2) }) b

/-- The hottest die sensor: number and reading. -/
def hottestDie (b : Block) : Nat × Nat :=
  b.fd.die.foldl (fun a e => if a.2 < e.2 then e else a) (0, 0)

/-- DIE_SENSOR_SAMPLE (R487): the readings of sensors 0 to 143, in order. -/
def dieSample (readings : List Nat) (b : Block) : Block :=
  if !powered b then b
  else
    let b := ((List.range 144).zip readings).foldl dieReading b
    let h := hottestDie b
    fdRise (put fPW_TEMP_DIE_SENSOR h.1 (put fPW_TEMP_DIE_MAX (min h.2 255) b))

/-- REGULATOR_FAULT (R487): FD3. With `lost` the fault is a loss of regulation, and PWR_GOOD is low until it ends (02 R40). -/
def regulatorFault (lost : Bool) (b : Block) : Block :=
  if powered b then
    fdRise (setFd (fun f => { f with regCause := true }) (setPwr (fun p => { p with pwrGood := p.pwrGood && !lost }) b))
  else b

/-- Every regulator is in regulation again: PWR_GOOD rises and the straps are sampled (02 R40, R52); a boot under way waits while
MOD_RST_N is low (R43). -/
def regulationBack (b : Block) : Block :=
  if b.pwr.rail = .up ∧ b.pwr.pwrGood = false then
    strapLatch (setPwr (fun p => { p with pwrGood := true, rstWait := !p.modRstN }) b)
  else b

/-- FORCE (R487). -/
def applyForce (v : W32) (b : Block) : Block :=
  fdRise (put fPW_FD_CTL_FORCE (field v 1 0) b)

/-- FIREDAMP_FALL_TIMER (R489): 10 ms without the causes of the higher level. -/
def fallTimer (b : Block) : Block :=
  if fdLevel b = 3 then b else fdFall (fdFloor b) b

/-- FD3_RECOVERY (R489): 1 s without a cause of FD2 or FD3. The regulator fault has ended with it (log 94). -/
def fd3Recovery (b : Block) : Block :=
  let b' := setFd (fun f => { f with regCause := false }) b
  if fdLevel b = 3 ∧ fdCalled b' < 2 then
    let b := fdFall 1 (setFd (fun f => { f with fd3Latch := false, fd1Hold := true }) (regulationBack b'))
    let phase := get b fDEV_BLK_STAT_BOOT_PHASE
    let b := if activity b < 2 ∧ 5 ≤ phase then lodesRefresh false b else b
    if activity b < 2 ∧ 6 ≤ phase then clustersBack (setDoms [74, 75] 2 b) else b
  else b

/-- FD1_HOLD_EXPIRY (R489). -/
def fd1HoldExpiry (b : Block) : Block :=
  setFd (fun f => { f with fd1Hold := false }) b

/-! ### Activity states (17 R477–R483) -/

/-- The straps forbid leaving A3 (02 R53, 17 R483). -/
def coolReserved (b : Block) : Bool := get b fPW_COOL_STRAP == 3

/-- Starts the return to A0 (R481); no change starts while PWR is down (16 R456). -/
def wake (b : Block) : Block :=
  if ready b && decide (1 ≤ activity b) && !coolReserved b && pwrRuns b then
    { b with act := { b.act with exiting := true, since := if b.act.exiting then b.act.since else now b } }
  else b

/-- WAKE_CAUSE (R481). A record wakes in A3, a message in A1 and A2. -/
def wakeCause (w : Wake) (b : Block) : Block :=
  match w with
  | .access | .timer => wake b
  | .record => if activity b = 3 then wake b else b
  | .message => if activity b = 3 then b else wake b

/-- ACTIVITY_STATE_ENTRY (R478–R480): after the dwell of state `st`, the device enters it. -/
def activityEntry (st : Nat) (b : Block) : Block :=
  if ready b && deviceIdle b && decide (activity b < st ∧ st ≤ allowedState b) && pwrRuns b && !b.act.exiting then
    enterActivity st b
  else b

/-- TOL_US (R479, R481). -/
def applyTol (v : W32) (b : Block) : Block :=
  let b := put fPW_LATTOL_TOL_US (field v 23 0) b
  if get b fPW_LATTOL_TOL_US < exitUs (activity b) then wake b else b

/-- R452: an exit that firedamp makes later than the host's tolerance allows breaks rank 4; one record for an episode. -/
def exitLate (b : Block) : Block :=
  let l := fdLevel b
  if 1 ≤ l ∧ b.fd.yieldedAt ≠ l ∧ 100 * max (get b fPW_LATTOL_TOL_US) (exitUs (activity b)) < now b - b.act.since then
    yieldGuarantee 2 4 1 l (setFd (fun f => { f with yieldedAt := l }) b)
  else b

/-- The domains are back (R478); the caller then completes the held accesses. -/
def exitDomains (b : Block) : Block :=
  put fPW_ASTATE_STATE 0 (domainsOn { exitLate b with act := { b.act with exiting := false } })

/-! ### Parking (17 R485, R486) -/

/-- A command running, held or ready names the cluster. -/
def clusterNamed (b : Block) (c : Nat) : Bool :=
  b.cmds.any (fun m => (clMask m.desc).testBit c && (m.active || m.stage == .held))
    || (readyHeads b).any (fun m => (clMask m.desc).testBit c)

/-- GOVERNOR_PARK: a cluster unnamed for 100 µs. -/
def governorPark (c : Nat) (b : Block) : Block :=
  if pwrRuns b && (runningClusters b).contains c && dom b c == 2 && !clusterNamed b c then
    domainRollback c (put (fCL_BLK_STAT_GOV_PARKED c) 1 (setDom c 1 b))
  else b

/-- A held access needs the cluster's domain (R482, R485). -/
def heldNames (b : Block) (c : Nat) : Bool :=
  b.act.held.any (fun h => h.window && domainOfPage (h.off / 4096) == c)

/-- GOVERNOR_UNPARK (R485): a command that names it became ready, and may be held for it since (16 R448), or an access to its pages is held (R482). -/
def governorUnpark (c : Nat) (b : Block) : Block :=
  if pwrRuns b && isSet b (fCL_BLK_STAT_GOV_PARKED c) && decide (fdLevel b < 3)
      && ((readyHeads b ++ b.cmds.filter (fun m => m.stage == .held)).any (fun m => (clMask m.desc).testBit c) || heldNames b c) then
    put (fCL_BLK_STAT_GOV_PARKED c) 0 (setDom c 2 b)
  else b

/-- PARK applies at the cluster's safe point (R486, R475, 03 R78). Before boot phase CLUSTERS has ended no cluster is powered: that phase
gives each its state (R493). -/
def applyPark (c : Nat) (on : Bool) (b : Block) : Block :=
  let b := put (fCL_BLK_CTL_PARK c) (b2n on) b
  if on then
    let b := if fdLevel b = 3 ∨ get b fDEV_BLK_STAT_BOOT_PHASE < 6 then b else setDom c 1 b
    domainRollback c (put (fCL_BLK_STAT_GOV_PARKED c) 0 (put (fCL_BLK_STAT_PARKED c) 1 b))
  else if !isSet b (fCL_BLK_STAT_PARKED c) then b
  else
    let b := put (fCL_BLK_STAT_PARKED c) 0 b
    if get b fDEV_BLK_STAT_BOOT_PHASE < 6 then b
    else if activity b < 2 ∧ fdLevel b < 3 then clusterOn b c else clusterOff b c

end Sys2Proof.Machine
end

