-- ==== Sys2Proof/Machine/FirmwareOps.lean ====
section
/-!
DEFINITION. Firmware processors, images and rolls (16 R445–R467), image verification (18 R498–R503).
Processors are keyed as in 18 R507: 0 SEC, 1 PWR, 2 SCH, 3 RCX as one step of a roll, 4 + n the control core of CLn; core c of
RCX is 40 + c.
-/

namespace Sys2Proof.Machine

/-! ### Fuses and images (18 R497–R500) -/

/-- The floor slots that have been written, in slot order (R498). -/
def floorsWritten (b : Block) : List W32 := b.fuses.floors.toList.filterMap id

/-- R498: the rollback floor. -/
def rollbackFloor (b : Block) : Nat := ((floorsWritten b).getLastD 0).toNat

/-- A thermometer code is set when five or more of its bits are blown (R508). -/
def codeSet (v : Byte) : Bool := decide (5 ≤ ((List.range 8).filter (fun i => v.getLsbD i)).length)

/-- Lifecycle that the fuses show: 1 MANUFACTURE, 2 FIELD, 3 RETURN (R508). -/
def fusedLifecycle (b : Block) : Nat :=
  if codeSet b.fuses.returnCode then 3 else if codeSet b.fuses.fieldCode then 2 else 1

/-- `n` bytes at `off`. -/
def slice (bs : List Byte) (off n : Nat) : List Byte := (bs.drop off).take n

/-- Step 2 of R500: the root key's digest equals its slot, and the slot is not revoked. -/
def rootOk (b : Block) (slot : Nat) (pub : List Byte) : Bool :=
  decide (slot < 4) && !b.fuses.revoked.getLsbD slot && shake256 pub 32 == leBytes 32 (b.fuses.roots.toList.getD slot 0).toNat

/-- Offset and length of section `i` of an image (R499). -/
def imageSection (img : List Byte) (i : Nat) : Nat × Nat := (fieldAt img (0x14 + 16 * i) 4, fieldAt img (0x18 + 16 * i) 4)

/-- Bytes of section `i`. -/
def sectionBytes (img : List Byte) (i : Nat) : List Byte := slice img (imageSection img i).1 (imageSection img i).2

/-- LENGTH, FW_EPOCH, IFLAGS and DIGESTS of an image. -/
def imageLength (img : List Byte) : Nat := fieldAt img 8 4
def imageEpoch (img : List Byte) : Nat := fieldAt img 4 4
def imageFlags (img : List Byte) : Nat := byteAt img 3
def imageDigests (img : List Byte) : List Byte := slice img 0x60 320

/-- Step 1 of R500: the header of R499. ROOT_SLOT is step 2's. -/
def imageFormat (img : List Byte) : Bool :=
  let len := imageLength img
  let secs := (List.range 5).map (imageSection img)
  decide (640 ≤ len ∧ len ≤ img.length) && fieldAt img 0 2 == 1
    && imageFlags img / 2 % 8 == 0 && !(imageFlags img).testBit (4 + byteAt img 2) && zeroAt img 0xC 4
    && (List.range 5).all (fun i => byteAt img (0x10 + 16 * i) == i + 1 && zeroAt img (0x11 + 16 * i) 3
         && zeroAt img (0x1C + 16 * i) 4)
    && secs.all (fun s => s.1 % 64 == 0 && decide (0x280 ≤ s.1 ∧ s.1 + s.2 ≤ len))
    && (List.range 5).all (fun i => (List.range i).all (fun j =>
         let s := imageSection img i
         let t := imageSection img j
         decide (s.1 + s.2 ≤ t.1 ∨ t.1 + t.2 ≤ s.1)))
    && zeroAt img 0x1D9 7 && zeroAt img 0x252 46

/-- R500: 0 where the image passes, else the cause coded as SEC_FW_STAT.RESULT. `staged` is SEC_FW_LEN at staging. -/
def verifyImage (b : Block) (img : List Byte) (staged : Option Nat) : Nat :=
  let pub := slice img 0x1A0 57
  let lenOk := match staged with
    | some n => imageLength img == n
    | none => true
  if !imageFormat img || !lenOk then 4
  else if !rootOk b (byteAt img 2) pub then 2
  else if !ed448Verify pub (ascii "BX240-IMAGE") (slice img 0 0x1E0) (slice img 0x1E0 114) then 2
  else if !(List.range 5).all (fun i => shake256 (sectionBytes img i) 64 == slice img (0x60 + 64 * i) 64) then 2
  else if imageEpoch img < rollbackFloor b then 3
  else if staged.isSome && decide (imageEpoch img ≤ get b fSEC_FW_EPOCH_EPOCH) then 3
  else 0

/-- The processors of one step: the four RCX cores, or the processor itself. -/
def unitProcs (p : Nat) : List Nat := if p = 3 then [40, 41, 42, 43] else [p]

/-- Section of an image that a processor loads. -/
def sectionOf (p : Nat) : Nat := if 40 ≤ p then 3 else min p 4

/-- Loads a processor's section into the image store (16 R459, 18 R502). -/
def loadStore (img : List Byte) (b : Block) (p : Nat) : Block :=
  setFw (fun f => { f with store := mapSet [] f.store p (sectionBytes img (sectionOf p)) }) b

/-- Loads the sections of the processors of one step. -/
def loadStep (img : List Byte) (b : Block) (p : Nat) : Block := (unitProcs p).foldl (loadStore img) b

/-- A restarting processor reads one word of its image store with the bits that flipped in it (18 R503, 04 R107), unless a word before it
was uncorrectable: the answer says whether the restart can go on. -/
def storeWord (p : Nat) (r : Bool × Block) (u : Upset) : Bool × Block :=
  let b := r.2
  let code := mapGet [] b.fw.store p
  if !r.1 || decide (code.length ≤ 4 * u.word) then r
  else match judge 39 false u.bits with
  | .clean => (true, b)
  | .corrected => (true, canaryAdd .ceChip 1 b)
  | .wrong fs => (true, wrongCode p u.word fs b)
  | .wrongCounted fs => (true, canaryAdd .ceChip 1 (wrongCode p u.word fs b))
  | .uncorrectable | .storedPoison => (false, canaryAdd .ue 1 b)
where
  /-- Bits of a word that leave the check wrong. -/
  wrongCode (p word : Nat) (fs : List Nat) (b : Block) : Block :=
    setFw (fun f =>
      let code := mapGet [] f.store p
      let w := flipBits (leNat ((code.drop (4 * word)).take 4)) fs
      { f with store := mapSet [] f.store p (code.take (4 * word) ++ leBytes 4 w ++ code.drop (4 * word + 4)) }) b

/-- A processor restarts from its image store (R459, 18 R503): false where a word that it reads is uncorrectable. -/
def restartLoad (p : Nat) (ups : List Upset) (b : Block) : Bool × Block := ups.foldl (storeWord p) (true, b)

/-! ### Processors (16 R445–R458) -/

/-- A processor's record. -/
def proc (b : Block) (p : Nat) : Proc := mapGet Proc.fresh b.fw.procs p
/-- Replaces it. -/
def setProc (p : Nat) (x : Proc) (b : Block) : Block :=
  setFw (fun f => { f with procs := mapSet Proc.fresh f.procs p x }) b

/-- Key of a processor. -/
def procKey : ProcId → Nat
  | .sec => 0
  | .pwr => 1
  | .sch => 2
  | .rcx c => 40 + c
  | .core n => 4 + n

/-- Page of a processor's records (16 R467, log 18). -/
def procPage (p : Nat) : Nat :=
  if p = 0 then 3 else if p = 1 then 2 else if p = 2 ∨ 40 ≤ p ∨ p = 3 then 4 else 0x10 + (p - 4)

/-- DATA of FW_RESTARTED (R467). -/
def restartedData (p cause outcome us : Nat) : Nat :=
  let code := if 40 ≤ p then 3 else min p 4
  let unit := if 40 ≤ p then p - 40 else if 4 ≤ p then p - 4 else 0
  code + unit * 2 ^ 4 + cause * 2 ^ 9 + outcome * 2 ^ 12 + us * 2 ^ 32

/-- FW_RESTARTED: outcome 1 restarted, 2 held down, 3 FAILED; the time is 0xFFFF when not restarted. -/
def restarted (p cause outcome : Nat) (b : Block) : Block :=
  let us := if outcome = 1 then min ((now b - (proc b p).firedAt) / 100) 0xFFFF else 0xFFFF
  post 0x0502 (procPage p) (restartedData p cause outcome us) b

/-- RCX cores that run. -/
def rcxCores (b : Block) : Nat := get b fSC_DISPATCH_RCX_CORES

/-- SC_DISPATCH.WHO (R449, R454, R455, 14 R377): SCH while it runs, else RCX while a core runs, else none. -/
def settleWho (b : Block) : Block :=
  let fab := dom b (domFab 1) != 3
  put fSC_DISPATCH_WHO
    (if fab && get b fSC_DISPATCH_SCH_STATE == 0 then 0 else if fab && rcxCores b != 0 then 1 else 2) b

/-- A watchdog fires: the fire is counted and the processor is down until its next service (R445). -/
def fireProc (p : Nat) (b : Block) : Block :=
  let x := proc b p
  let recent := x.fires.filter (fun t => decide (now b < t + 100000000))
  canaryAdd .fire 1 (setProc p { x with down := true, late := false, firedAt := now b, fires := now b :: recent } b)

/-- The fire just counted is the third within 1 s. -/
def thirdFire (b : Block) (p : Nat) : Bool := decide (3 ≤ (proc b p).fires.length)

/-- No RCX core will run again before a module reset. -/
def rcxHeld (b : Block) : Bool := (List.range 4).all (fun c => (proc b (40 + c)).heldDown)

/-- Neither SCH nor any RCX core can dispatch any more (R455). -/
def dispatchFailed (b : Block) : Bool :=
  ((proc b 2).heldDown || ((proc b 2).down && (proc b 2).late)) && rcxHeld b

/-- SCH stays down until the next module reset. -/
def holdSch (b : Block) : Block :=
  settleWho (put fSC_DISPATCH_SCH_STATE 3 (setProc 2 { proc b 2 with heldDown := true } b))

/-! ### Rolls (16 R461–R466) -/

/-- SEC_FW_STAT.STATE. -/
def fwState (b : Block) : Nat := get b fSEC_FW_STAT_STATE
/-- Sets it. -/
def setFwState (s : Nat) (b : Block) : Block := put fSEC_FW_STAT_STATE s b
/-- Sets RESULT. -/
def setFwResult (r : Nat) (b : Block) : Block := put fSEC_FW_STAT_RESULT r b

/-- SEC runs. -/
def secRuns (b : Block) : Bool := !(proc b 0).down && b.fw.stepping != some 0 && domOn b domSec

/-- The order of R462. -/
def rollOrder : List Nat := [3, 2, 1] ++ (List.range 32).map (fun n => 4 + n) ++ [0]

/-- A step that is skipped: the control core of a retired cluster (R462). -/
def stepSkipped (b : Block) (p : Nat) : Bool :=
  decide (4 ≤ p) && isSet b (fBLK_STAT_RETIRED (clBase (p - 4)))

/-- The status fields of a processor that stops for a step (`1` restarting, `2` reloading) or runs again (`0`). -/
def stepStatus (p st : Nat) (b : Block) : Block :=
  match p with
  | 0 => b
  | 1 => put fPW_FW_PWR_STATE st b
  | 2 => settleWho (if (proc b 2).heldDown then b else put fSC_DISPATCH_SCH_STATE st b)
  | 3 =>
    let up := if st = 0 then
        (List.range 4).foldl (fun m c => if (proc b (40 + c)).heldDown then m else m + 2 ^ c) 0 else 0
    settleWho (put fSC_DISPATCH_RCX_CORES up b)
  | _ => if isSet b (fBLK_STAT_RETIRED (clBase (p - 4))) then b else put (fCL_CORE_STATE (p - 4)) st b

/-- NEW_IMAGE of a control core (R471). -/
def newImage (p v : Nat) (b : Block) : Block :=
  if 4 ≤ p ∧ p < 36 then put (fCL_CORE_NEW_IMAGE (p - 4)) v b else b

/-- The roll has ended: no set 1, nothing left to step. -/
def rollClear (b : Block) : Block :=
  let b := (List.range 32).foldl (fun b n => newImage (4 + n) 0 b) b
  setFw (fun f => { f with runMap := 0, order := [], stepping := none, halted := false, stepped := [], failed := none, paused := false }) b

/-- FW_ACTIVATED (R467). -/
def fwActivated (epoch outcome failed : Nat) (b : Block) : Block :=
  let code := if outcome = 0 then 0 else min failed 4
  let unit := if outcome = 1 ∧ 4 ≤ failed then failed - 4 else 0
  post 0x0501 3 (epoch + outcome * 2 ^ 32 + code * 2 ^ 40 + unit * 2 ^ 48) b

/-- The SEC registers that show the floor slots and the revocation fuses (18 R515). -/
def showFuses (b : Block) : Block :=
  put fSEC_BOOT_REVOKED b.fuses.revoked.toNat (put fSEC_BOOT_FLOOR_SLOTS (floorsWritten b).length (put fSEC_FLOOR_FLOOR (rollbackFloor b) b))

/-- FLOOR_RAISE_AND_REVOKE (18 R498, R501): the next free slot, while one is free. -/
def raiseAndRevoke (img : List Byte) (b : Block) : Block :=
  let e := imageEpoch img
  let up := (imageFlags img).testBit 0 && decide (rollbackFloor b < e)
  let b := { b with fuses := { b.fuses with
    floors := if up then b.fuses.floors.setIfInBounds (floorsWritten b).length (some (BitVec.ofNat 32 e)) else b.fuses.floors
    revoked := b.fuses.revoked ||| BitVec.ofNat 4 (imageFlags img / 16) } }
  showFuses b

/-- ACTIVATED: the banks switch, then fuses, registers and FW_ACTIVATED (R462, 18 R501). -/
def rollDone (b : Block) : Block :=
  let img := b.fw.staged
  let b := rollClear (setFw (fun f => { f with active := img, staged := [] }) b)
  let b := raiseAndRevoke img b
  let b := put fSEC_FW_STAGED_EPOCH 0 (put fSEC_FW_EPOCH_EPOCH (imageEpoch img) b)
  let b := setFwResult 7 (setFwState 0 b)
  raise 3 64 (fwActivated (imageEpoch img) 0 0 b)

/-- ROLLED_BACK: the staged image is dropped (R464). -/
def rollBackDone (b : Block) : Block :=
  let p := b.fw.failed.getD 0
  let b := rollClear (setFw (fun f => { f with staged := [] }) b)
  let b := setFwResult 8 (setFwState 0 (put fSEC_FW_STAGED_EPOCH 0 b))
  fwActivated (get b fSEC_FW_EPOCH_EPOCH) 1 p b

/-- Starts the next step of a roll or of its way back, unless it is paused (R462–R464). -/
def nextStep : (fuel : Nat) → Block → Block
  | 0, b => b
  | f + 1, b =>
    if b.fw.paused || b.fw.stepping.isSome then b
    else match b.fw.order with
    | [] => if fwState b = 5 then rollBackDone b else rollDone b
    | p :: t =>
      let b := setFw (fun w => { w with order := t }) b
      if stepSkipped b p then nextStep f b
      else
        setFw (fun w => { w with stepping := some p, halted := false }) b

/-- The roll starts (R461). -/
def rollBegin (b : Block) : Block :=
  let b := setFw (fun f => { f with order := rollOrder, stepping := none, halted := false, stepped := [], failed := none, paused := false }) b
  nextStep 40 (put fSEC_FW_STAT_ROLL_POS 0 (setFwState 4 b))

/-- The conditions of R461 at this moment. -/
def rollMay (b : Block) : Bool := !isSet b fPW_FW_ACT_HOLD && fdLevel b == 0 && secRuns b

/-- ROLL_START (R461, R463): firedamp has been below FD1 for 1 s. It starts a waiting roll, and resumes a paused one. -/
def rollStart (b : Block) : Block :=
  if !rollMay b then b
  else
    let b := setFw (fun f => { f with fd1Quiet := true }) b
    if fwState b = 3 then rollBegin b
    else if (fwState b = 4 ∨ fwState b = 5) ∧ b.fw.paused then nextStep 40 (setFw (fun f => { f with paused := false }) b)
    else b

/-- SEC_FW_CTL.CMD = ACTIVATE (R461), of a staged image: the roll starts or waits. -/
def activate (b : Block) : Block :=
  let b := put fSEC_FW_WAIT_SECONDS 0 (setFwState 3 (setFw (fun f => { f with waited := 0 }) b))
  if rollMay b && b.fw.fd1Quiet then rollBegin b else b

/-- SEC_FW_CTL.CMD = DISCARD (R461): drops the staged image; a STAGE that is under way goes on. Without one there is nothing to
drop. -/
def fwDiscard (b : Block) : Block :=
  if b.fw.staged.isEmpty then b
  else
    let b := put fSEC_FW_STAGED_EPOCH 0 (setFw (fun f => { f with staged := [] }) b)
    setFwResult 9 (if fwState b = 1 then b else setFwState 0 b)

/-- UPDATE_DEFERRED (R461, R463, R467). -/
def updateDeferred (b : Block) : Block :=
  if fwState b = 3 ∨ ((fwState b = 4 ∨ fwState b = 5) ∧ b.fw.paused) then
    post 0x0500 3 (get b fSEC_FW_WAIT_SECONDS + fdLevel b * 2 ^ 32 + get b fPW_FW_ACT_HOLD * 2 ^ 34) b
  else b

/-- The stepping processor may complete: a control core once its cluster's running command has ended, SEC once the attestation
in progress has (R462). -/
def stepMay (b : Block) (p : Nat) : Bool :=
  if p = 0 then get b fSEC_ATT_STAT_STATE != 2
  else if 4 ≤ p ∧ p < 36 then !b.cmds.any (fun c => c.active && c.mask.testBit (p - 4)) else true

/-- The stepping processor stops once what must end first has ended, and reloads (R462); its limit runs from here. -/
def stepHalts (b : Block) : Block :=
  match b.fw.stepping with
  | none => b
  | some p =>
    if b.fw.halted || b.fw.failed == some p || !stepMay b p || (unitProcs p).any (fun q => (proc b q).down && !(proc b q).heldDown) then b
    else
      let b := setFw (fun w => { w with halted := true }) b
      let b := (unitProcs p).foldl (fun b q => setProc q { proc b q with firedAt := now b } b) b
      stepStatus p 2 b

/-- A writes-on-return of PWR: the register writes and records that waited for it (R456, R458). -/
def pwrReturn (b : Block) : Block :=
  let ws := b.fw.pwrWrites
  let ps := b.fw.pwrPosts
  let b := setFw (fun f => { f with pwrWrites := [], pwrPosts := [] }) b
  let b := ps.foldl (fun b r => postTo (ringOfPage b 2) r b) b
  let b := ws.foldl (fun b w =>
    if w.1 = rPW_COOL then applyConfirm w.2 b
    else if w.1 = rPW_LATTOL then applyTol w.2 b
    else put fPW_LIMIT_LIMIT_W (field w.2 11 0) b) b
  if b.act.held.isEmpty then b else wake b

/-- A processor runs again after a restart or a reload. -/
def procUp (p : Nat) (b : Block) : Block :=
  match p with
  | 1 => pwrReturn (stepStatus 1 0 b)
  | _ => stepStatus p 0 b

/-- A number with one bit set or cleared. -/
def withBit (m i : Nat) (on : Bool) : Nat := if m.testBit i = on then m else if on then m + 2 ^ i else m - 2 ^ i

/-- ROLL_STEP_COMPLETE (R462, R464): the stepping processor's first service under the image it steps to. -/
def rollStepComplete (b : Block) : Block :=
  match b.fw.stepping with
  | none => b
  | some p =>
    if fwState b = 5 ∧ b.fw.failed = some p then b
    else if !stepMay b p && !stepSkipped b p then b
    else
      let back := fwState b == 5
      let b := procUp p b
      let b := loadStep (if back then b.fw.active else b.fw.staged) (newImage p (b2n (!back)) b) p
      let b := setFw (fun f => { f with
        stepping := none
        halted := false
        stepped := if back then f.stepped else p :: f.stepped
        runMap := withBit f.runMap p (!back && p != 0) }) b
      let pos := get b fSEC_FW_STAT_ROLL_POS
      nextStep 40 (put fSEC_FW_STAT_ROLL_POS (if back then pos - 1 else pos + 1) b)

/-- ROLL_STEP_FAIL (R464): the processor missed its limit, or fired, under the new image. It restarts from the previous image;
the way back starts once it runs. -/
def rollStepFail (b : Block) : Block :=
  match b.fw.stepping with
  | none => b
  | some p =>
    if fwState b ≠ 4 then b
    else
      let b := (unitProcs p).foldl (fun b q =>
        if (proc b q).heldDown then b else setProc q { proc b q with down := true, firedAt := now b } b) b
      let b := setFw (fun f => { f with failed := some p, order := f.stepped, halted := true }) b
      stepStatus p 1 (setFwState 5 b)

/-- The failed processor runs its previous image again: its FW_RESTARTED, then the way back (R464). -/
def failedBack (b : Block) : Block :=
  match b.fw.stepping with
  | none => b
  | some p =>
    if fwState b = 5 ∧ b.fw.failed = some p ∧ (unitProcs p).all (fun q => !(proc b q).down || (proc b q).heldDown) then
      let us := min ((now b - (proc b ((unitProcs p).headD p)).firedAt) / 100) 0xFFFF
      let held := (unitProcs p).all (fun q => (proc b q).heldDown)
      let b := post 0x0502 (procPage p) (restartedData p 3 (if held then 2 else 1) (if held then 0xFFFF else us)) b
      nextStep 40 (setFw (fun f => { f with stepping := none, halted := false }) b)
    else b

/-! ### Fires, services and limits -/

/-- The processor is the one that steps forward, and has stopped. -/
def stepsNow (b : Block) (p : Nat) : Bool :=
  fwState b == 4 && (match b.fw.stepping with
    | some s => (unitProcs s).contains p && stepMay b s
    | none => false)

/-- Domain of a processor: its own, or its cluster's. -/
def procDom (p : Nat) : Nat :=
  if p = 0 then domSec else if p = 1 then domPwr else if p = 2 then domSch else if 4 ≤ p ∧ p < 36 then p - 4 else domRcx

/-- The processor runs: PWR and SEC from the end of boot phase CLOCKS, the others from the phase that powers them (17 R493). An event of a
domain that is off does not occur. -/
def procOn (b : Block) (p : Nat) : Bool := domOn b (procDom p) && !(proc b p).heldDown

/-- A control core whose watchdog fires in the PCLK cycle in which FD3 fences the work has its domain still (R458). -/
def coreOn (b : Block) (n : Nat) : Bool :=
  procOn b (4 + n) || (!(proc b (4 + n)).heldDown && b.fd.fd3Latch && b.fd.fd3At == now b && dom b n == 0 && (usableClusters b).contains n
    && !isSet b (fCL_BLK_STAT_PARKED n))

/-- CORE_WATCHDOG_FIRE (R445, R453, R458): a third fire within 1 s fails the cluster, which is the cause of its tasks' abort (14 R372). -/
def coreFire (n : Nat) (b : Block) : Block :=
  let p := 4 + n
  if !coreOn b n then b
  else
    let step := stepsNow b p
    let b := bump (fCL_CORE_FIRES n) 1 (fireProc p b)
    if step then rollStepFail b
    else if thirdFire b p then failCluster n 3 (restarted p 1 2 (setProc p { proc b p with heldDown := true } b))
    else put (fCL_CORE_STATE n) 1 (abortWhere (fun m => m.mask.testBit n) 0x25 n b)

/-- SCH_WATCHDOG_FIRE (R454, R455): `takeUs` is the time RCX takes to take over. -/
def schFire (takeUs : Nat) (b : Block) : Block :=
  if !procOn b 2 then b
  else
    let step := stepsNow b 2
    let b := fireProc 2 b
    if step then rollStepFail b
    else
      let b := if rcxCores b = 0 then b else put fSC_FW_TAKE_LAST_US (min takeUs 50) b
      if thirdFire b 2 then
        let b := holdSch b
        restarted 2 1 (if dispatchFailed b then 3 else 2) b
      else settleWho (put fSC_DISPATCH_SCH_STATE 1 b)

/-- RCX_WATCHDOG_FIRE (R455). -/
def rcxFire (c : Nat) (b : Block) : Block :=
  let p := 40 + c
  if !procOn b p then b
  else
    let step := stepsNow b p
    let b := fireProc p b
    if step then rollStepFail b
    else settleWho (put ⟨rSC_DISPATCH, 8 + c, 8 + c⟩ 0 b)

/-- PWR_WATCHDOG_FIRE (R456). -/
def pwrFire (b : Block) : Block :=
  if !procOn b 1 then b
  else
    let step := stepsNow b 1
    let b := fireProc 1 b
    if step then rollStepFail b else put fPW_FW_PWR_STATE 1 b

/-- State a STAGE leaves when it ends without a new image: STAGED while the staged bank holds one. -/
def stageIdle (b : Block) : Block := setFwState (if b.fw.staged.isEmpty then 0 else 2) b

/-- A STAGE ends with a refusal (R460). -/
def stageRefused (result : Nat) (b : Block) : Block := raise 3 32 (setFwResult result (stageIdle b))

/-- SEC_WATCHDOG_FIRE (R457). -/
def secFire (b : Block) : Block :=
  if !procOn b 0 then b
  else
    let step := stepsNow b 0
    let b := fireProc 0 b
    let b := if get b fSEC_ATT_STAT_STATE = 2 then put fSEC_ATT_STAT_STATE 1 b else b
    if step then rollStepFail b
    else
      let b := if fwState b = 1 then stageRefused 6 b else b
      if fwState b = 4 ∨ fwState b = 5 then setFw (fun f => { f with paused := true }) b else b

/-- PWR_ABSENT_TIMEOUT (R456): 20 ms after the fire. A reload of a roll raises no FD2 (R462). -/
def pwrAbsent (b : Block) : Block :=
  if (proc b 1).down then fdRise (put fPW_FW_FD2_HELD 1 (setFd (fun f => { f with pwrCause := true }) b)) else b

/-- RESTART_LIMIT_MISSED (R445, R455). A core that waits for its domain restarts when that powers again (R458). -/
def restartMissed (p : Nat) (b : Block) : Block :=
  let x := proc b p
  if !x.down || !procOn b p then b
  else
    let b := setProc p { x with late := true } b
    if 4 ≤ p ∧ p < 36 then
      failCluster (p - 4) 2 (failedBack (restarted p 2 2 (setProc p { proc b p with heldDown := true } b)))
    else if 40 ≤ p then
      let b := setProc p { proc b p with heldDown := true } b
      let failed := dispatchFailed b
      let b := restarted p 2 (if failed then 3 else 2) b
      failedBack (if failed then holdSch b else b)
    else if p = 2 ∧ dispatchFailed b then restarted 2 2 3 (holdSch b)
    else b

/-- SEC is back: a waiting attestation is taken up (R457, 18 R506). `take` starts it. -/
def secBack (take : Block → Block) (b : Block) : Block :=
  if get b fSEC_ATT_STAT_STATE = 1 then take b else b

/-- The effects of a first service after a fire, by processor (R445, R453–R457). -/
def serviceEffects (take : Block → Block) (p : Nat) (b : Block) : Block :=
  let rolling := fwState b == 4 && b.fw.stepping == some p && b.fw.halted
  if 4 ≤ p ∧ p < 36 then put (fCL_CORE_STATE (p - 4)) (if rolling then 2 else 0) (releaseCluster b (p - 4))
  else match p with
  | 0 => secBack take b
  | 1 =>
    let b := setFd (fun f => { f with pwrCause := false }) (put fPW_FW_FD2_HELD 0 (bump fPW_FW_RESTARTS 1 b))
    pwrReturn (put fPW_FW_PWR_STATE 0 b)
  | 2 => tryDecide (settleWho (put fSC_DISPATCH_SCH_STATE 0 (bump fSC_FW_CNT_SCH_RESTARTS 1 b)))
  | _ => tryDecide (takeover (settleWho (put ⟨rSC_DISPATCH, 8 + (p - 40), 8 + (p - 40)⟩ 1 (bump fSC_FW_CNT_RCX_RESTARTS 1 b))) b)
where
  /-- An RCX core that returns while SCH is down takes dispatch over: the time since SCH's fire (R470). -/
  takeover (b old : Block) : Block :=
    if get b fSC_DISPATCH_WHO = 1 ∧ get old fSC_DISPATCH_WHO ≠ 1 then
      put fSC_FW_TAKE_LAST_US (min ((now b - (proc b 2).firedAt) / 100) 0xFFFF) b
    else b

/-- A near-miss (R445, R471, 14 R378). -/
def nearMissed (p : Nat) (b : Block) : Block :=
  let b := canaryAdd .nearMiss 1 b
  if 4 ≤ p ∧ p < 36 then bump (fCL_CORE_NEAR_MISS (p - 4)) 1 b else b

/-- WATCHDOG_SERVICE (R445, R453–R457, R464). The first after a fire ends the restart, in which the processor has read its image store;
`ups` are the bits that flipped in that, by 32-bit word. A word that is uncorrectable fails the restart, and no service comes (18 R503). -/
def watchdogService (take : Block → Block) (p : Nat) (nearMiss : Bool) (ups : List Upset) (b : Block) : Block :=
  if !procOn b p then b
  else if !(proc b p).down then if nearMiss then nearMissed p b else b
  else
    let r := restartLoad p ups b
    if !r.1 then r.2
    else
      let b := if nearMiss then nearMissed p r.2 else r.2
      let unit := fwState b == 5 && b.fw.stepping == some p
      let failed := fwState b == 5 && b.fw.failed == b.fw.stepping && (match b.fw.stepping with
        | some s => (unitProcs s).contains p
        | none => false)
      let b := if failed then b else restarted p 1 1 b
      let b := serviceEffects take p (setProc p { proc b p with down := false } b)
      if failed then failedBack b else if unit then rollStepComplete b else b

/-- ROLL_STEP_COMPLETE (R462, R464); once SEC runs under its new image, an attestation that waited is taken up (18 R506). -/
def rollStepRow (take : Block → Block) (b : Block) : Block :=
  let b := rollStepComplete b
  if secRuns b then secBack take b else b

/-! ### Staging (16 R460, 18 R500) -/

/-- SEC has found no bank that passes, and the device stays in VERIFY: staging is unavailable (18 R502). -/
def unverified (b : Block) : Bool := isSet b fDEV_BLK_STAT_BOOT_FAIL && get b fDEV_BLK_STAT_BOOT_PHASE == 2

/-- SEC_FW_CTL.CMD = STAGE. SEC that is down ends it at once with SEC_RESTART. -/
def stage (b : Block) : Block :=
  if secRuns b then setFwState 1 b else stageRefused 6 b

/-- A physical range that SEC or a record reader can reach whole. -/
def rangeReachable (b : Block) (pa n : Nat) : Bool :=
  (List.range (n / 4096 + 2)).all (fun i =>
    let a := min (pa + i * 4096) (pa + n - 1)
    reachable b a && !readFails b a)

/-- STAGE_COMPLETE. -/
def stageComplete (b : Block) : Block :=
  if fwState b ≠ 1 ∨ unverified b then b
  else
    let pa := rd64 b rSEC_FW_SRC_LO
    let n := get b fSEC_FW_LEN_BYTES
    if !rangeReachable b pa n || anyPoison b pa n then stageRefused 5 b
    else
      let img := memBytes b pa n
      let r := verifyImage b img (some n)
      if r = 0 then
        let b := setFw (fun f => { f with staged := img }) b
        raise 3 16 (setFwResult 1 (setFwState 2 (put fSEC_FW_STAGED_EPOCH (imageEpoch img) b)))
      else stageRefused r b

end Sys2Proof.Machine
end

