-- ==== Sys2Proof/Machine/MemOps.lean ====
section
/-!
DEFINITION. Lodes, spare row groups, scrubs and staging slices (10 R268–R285).
-/

namespace Sys2Proof.Machine

/-- Page index of lode `l`. -/
def ldPage (l : Nat) : Nat := ldBase l / 4096

/-- Key of a row group of a lode. -/
def rgKey (pc j : Nat) : Nat := j * 32 + pc
/-- Storage words of a row group: 64 granules of 128 bytes (R275). -/
def rgWords : Nat := 1024
/-- Lode-local byte address of storage word `i` of a row group (R275). -/
def rgWordAt (pc j i : Nat) : Nat := (64 * j + i / 16) * 4096 + 128 * pc + i % 16 * 8
/-- Granules of a lode (R267). -/
def lodeGranules (b : Block) (l : Nat) : Nat := field (rd b (ldBase l + 4)) 23 0
/-- A lode-local address whose granule the lode has: the last row group of LD8 to LD11 is not full (R267, R275). -/
def lodeHas (b : Block) (l a : Nat) : Bool := decide (a / 4096 < lodeGranules b l)

/-! ### Contexts that map a region (R279) -/

/-- Indices of the entries of a table that are not all zero. -/
def usedEntries (b : Block) (pa n : Nat) : List Nat :=
  ((b.mem.filter (fun e => decide (pa ≤ e.1 ∧ e.1 < pa + 8 * n))).map (fun e => (e.1 - pa) / 8)).eraseDups

/-- Leaves of a context's tables: (page address, size). -/
def leavesOf (b : Block) (c : Nat) : List (Nat × Nat) :=
  let root := (ctx b c).ttPa
  (usedEntries b root 8192).flatMap (fun i => match decodeTte 0 (memNat b (root + 8 * i) 8) with
    | .table t1 => (usedEntries b t1 512).flatMap (fun k => match decodeTte 1 (memNat b (t1 + 8 * k) 8) with
      | .page p _ _ => [(p, 2 ^ 30)]
      | .table t2 => (usedEntries b t2 512).flatMap (fun m => match decodeTte 2 (memNat b (t2 + 8 * m) 8) with
        | .page p _ _ => [(p, 2 ^ 21)]
        | _ => [])
      | .invalid => [])
    | _ => [])

/-- A context's tables hold a leaf that covers a 2 MiB page of the region (R276, R279). -/
def mapsRegion (b : Block) (l j c : Nat) : Bool :=
  let lo := regionPa l j / 2 ^ 21 * 2 ^ 21
  let hi := lodePa l (min (64 * j + 63) (lodeGranules b l - 1) * 4096) / 2 ^ 21 * 2 ^ 21 + 2 ^ 21
  (leavesOf b c).any (fun p => decide (p.1 < hi ∧ lo < p.1 + p.2))

/-! ### Failures (R277–R281) -/

/-- Free spares of a pseudo-channel, lowest first. -/
def freeSpares (x : Lode) (pc : Nat) : List Nat :=
  (List.range 4).filter (fun s => !(mapGet 0 x.used pc).testBit s)

/-- A region is lost, or retired (R279, R280). -/
def loseRegion (l j : Nat) (retired : Bool) (b : Block) : Block :=
  let cs := (validCtxs b).filter (mapsRegion b l j)
  let b := abortWhere (fun c => cs.contains c.ctx) 0x23 l b
  let b := cs.foldl (fun b c => fenceCtx c (ldPage l) ((if retired then 2 else 1) + l * 2 ^ 8) b) b
  let b := raise (ldPage l) 256 (post 0x0201 (ldPage l) (l + b2n retired * 16 + regionPa l j / 4096 * 2 ^ 32) b)
  if retired then
    let b := setLode l { lode b l with retired := setInsert (lode b l).retired j } b
    replaceAdvise 4 (raise (ldPage l) 512 b)
  else b

/-- MEMORY_FAILURE, the LD_FAIL registers and the canary's count (R281). KIND: 1 correctable, 2 uncorrectable, 3 read-back. -/
def failRecord (l pc j kind outcome : Nat) (b : Block) : Block :=
  let pa := regionPa l j
  let b := wr b (rLD_FAIL l) (BitVec.ofNat 32
    (kind + outcome * 4 + pc * 2 ^ 8 + (freeSpares (lode b l) pc).length * 2 ^ 16))
  let b := put (fLD_FAIL_RG_ROWGROUP l) j b
  let b := put (fLD_FAIL_PA_HI_PA l) (pa / 2 ^ 32) (put (fLD_FAIL_PA_LO_PA l) (pa % 2 ^ 32) b)
  canaryAdd .rowGroup 1 (post 0x0200 (ldPage l) (l + pc * 2 ^ 4 + kind * 2 ^ 9 + outcome * 2 ^ 11 + j * 2 ^ 14 + pa / 4096 * 2 ^ 32) b)

/-- Takes the next free spare for a fill; none left retires the region (R277, R278). It answers whether the fill runs. -/
def takeSpare (l : Nat) (f : Fill) (b : Block) : Bool × Block :=
  let x := lode b l
  match freeSpares x f.pc with
  | [] => (false, loseRegion l f.rg true (setLode l { x with fill := none } b))
  | s :: rest =>
    let x := { x with fill := some { f with spare := s, pos := 0 }, used := mapSet 0 x.used f.pc (mapGet 0 x.used f.pc ||| 2 ^ s) }
    let b := setLode l x b
    (true, if rest.length ≤ 1 then canaryAdd .rowGroup 1 (raise (ldPage l) 1024 b) else b)

/-- A fill begins (R277): each writes one GUARANTEE_YIELDED. -/
def beginFill (l : Nat) (f : Fill) (b : Block) : Bool × Block :=
  let p := takeSpare l f b
  (p.1, if p.1 then yieldGuarantee (ldPage l) 5 2 0x11 p.2 else p.2)

/-- The next queued fill begins; one that finds no spare retires its region and the next one is tried. -/
def nextFill (l : Nat) : (fuel : Nat) → Block → Block
  | 0, b => b
  | n + 1, b =>
    match (lode b l).queued with
    | [] => b
    | f :: t =>
      let p := beginFill l f (setLode l { lode b l with queued := t } b)
      if p.1 then p.2 else nextFill l n p.2

/-- A row group fails (R277, R278). Each failure writes its record (R281), also one that starts no fill of its own: of a group whose
fill runs or waits (log 137), and one that finds the queue full, whose OUTCOME the spec does not state (log 2). -/
def failGroup (l pc j : Nat) (uncorrectable : Bool) (b : Block) : Block :=
  let x := lode b l
  let kind := if uncorrectable then 2 else 1
  let b' := match x.fill with
    | none =>
      let p := beginFill l ⟨pc, j, 4, false, 0, []⟩ b
      failRecord l pc j kind (if p.1 then 0 else 3) p.2
    | some f =>
      if f.pc = pc ∧ f.rg = j then
        failRecord l pc j kind 0 b
      else
        let mine := fun (e : Fill) => e.pc == pc && e.rg == j
        if uncorrectable then
          let rest := x.queued.filter (fun e => !mine e)
          let k := (rest.takeWhile (fun e => e.lost)).length
          let b := setLode l { x with queued := rest.take k ++ [⟨pc, j, 4, true, 0, []⟩] ++ rest.drop k } b
          failRecord l pc j kind 2 (if x.queued.any (fun e => mine e && e.lost) then b else loseRegion l j false b)
        else if x.queued.any (fun e => mine e && e.lost) then failRecord l pc j kind 2 b
        else if x.queued.any mine then failRecord l pc j kind 1 b
        else if 8 ≤ (x.queued.filter (fun e => !e.lost)).length then
          let r := drawFree b
          failRecord l pc j kind (r.1 % 6) r.2
        else failRecord l pc j kind 1 (setLode l { x with queued := x.queued ++ [⟨pc, j, 4, false, 0, []⟩] } b)
  fillStat l b'

/-! ### Reads and writes (R271–R273) -/

/-- Counts a corrected error of a lode (R272, R277): at the threshold within 24 h the row group fails. -/
def lodeCe (l a : Nat) (b : Block) : Block :=
  let k := rgKey (pseudoOf a) (rowGroupOf a)
  let b := canaryAdd .ceMem 1 (raise (ldPage l) 16 (bump (fLD_ECC_CE l) 1 b))
  let x := lode b l
  let ts := (mapGet [] x.ceTimes k ++ [now b]).filter (fun t => decide (now b < t + 8640000000000))
  if get b (fLD_CE_THRESH_THRESH l) ≤ ts.length then
    failGroup l (pseudoOf a) (rowGroupOf a) false (setLode l { x with ceTimes := mapErase x.ceTimes k } b)
  else setLode l { x with ceTimes := mapSet [] x.ceTimes k ts } b

/-- A new uncorrectable error of a lode: counted, written back poisoned, and the row group fails (R272, R277). -/
def lodeUe (l a : Nat) (b : Block) : Block :=
  let pa := lodePa l a
  let b := canaryAdd .ue 1 (raise (ldPage l) 32 (bump (fLD_ECC_UE l) 1 b))
  failGroup l (pseudoOf a) (rowGroupOf a) true (setPoison (setPoison b pa true) (pa + 4) true)

/-- The bits of a stored word that stay wrong (R107). -/
def wrongData (pa n : Nat) (bits : List Nat) (b : Block) : Block :=
  { b with mem := memPut b.mem pa (leBytes n (flipBits (memNat b pa n) bits)) }

/-- LODE_READ of the storage word at lode-local address `a` (a multiple of 8), with the bits flipped since it was written. -/
def lodeRead (l a : Nat) (flips : List Nat) (b : Block) : Block :=
  let a := a / 8 * 8
  let pa := lodePa l a
  if !targetReachable b pa || !domOn b (domLode l) || !lodeHas b l a then b
  else match judge 72 (poisoned b pa) flips with
  | .clean => b
  | .storedPoison => setPoison (setPoison b pa true) (pa + 4) true
  | .corrected => lodeCe l a b
  | .uncorrectable => lodeUe l a b
  | .wrong bits => wrongData pa 8 bits b
  | .wrongCounted bits => lodeCe l a (wrongData pa 8 bits b)

/-- An on-chip word that reaches a lode: its value and poison after the check of R107, with whether an error was counted. -/
def onChip (v : Nat) (pois : Bool) (flips : List Nat) : Nat × Bool × Nat :=
  match judge 39 pois flips with
  | .clean => (v, false, 0)
  | .storedPoison => (v, true, 0)
  | .corrected => (v, false, 1)
  | .uncorrectable => (v, true, 2)
  | .wrong bits => (flipBits v bits, false, 0)
  | .wrongCounted bits => (flipBits v bits, false, 1)

/-- LODE_WRITE (R272, R273) of bytes `lo` to `hi − 1` of the storage word at lode-local address `a`: the two on-chip words with
their poison and flipped bits, and the stored word's flipped bits where the write is partial. -/
def lodeWrite (l a lo hi v0 v1 : Nat) (p0 p1 : Bool) (f0 f1 stored : List Nat) (b : Block) : Block :=
  let a := a / 8 * 8
  let pa := lodePa l a
  if !targetReachable b pa || !domOn b (domLode l) || !lodeHas b l a || decide (8 < hi) || decide (hi ≤ lo) then b
  else
    let whole := decide (lo = 0 ∧ hi = 8)
    let b := if whole then b else lodeRead l a stored b
    let w0 := onChip v0 p0 f0
    let w1 := onChip v1 p1 f1
    let ce := b2n (w0.2.2 == 1) + b2n (w1.2.2 == 1)
    let ue := b2n (w0.2.2 == 2) + b2n (w1.2.2 == 2)
    let b := if ce = 0 then b else canaryAdd .ceMem ce (raise (ldPage l) 16 (bump (fLD_ECC_CE l) ce b))
    let b := if ue = 0 then b else canaryAdd .ue ue (raise (ldPage l) 32 (bump (fLD_ECC_UE l) ue b))
    let bs := leBytes 4 w0.1 ++ leBytes 4 w1.1
    memWriteP (pa + lo) ((bs.drop lo).take (hi - lo)) (fun i => if lo + i < 4 then w0.2.1 else w1.2.1) b

/-! ### Patrol scrub (R274) -/

/-- The word is in a row group being filled. -/
def inFill (x : Lode) (a : Nat) : Bool :=
  match x.fill with
  | some f => f.pc == pseudoOf a && f.rg == rowGroupOf a
  | none => false

/-- PATROL_SCRUB_READ of a lode. `caughtUp` says that the scrub is on schedule again. -/
def scrubLode (l : Nat) (flips : List Nat) (caughtUp : Bool) (b : Block) : Block :=
  if isSet b (fLD_BLK_STAT_SELF_REFRESH l) || !domOn b (domLode l) || hbmLost b then b
  else
    let x := lode b l
    let a := x.scrubPos * 8
    let n := lodeGranules b l * 512
    let wrap := decide (n ≤ x.scrubPos + 1)
    let b := if inFill x a then b else lodeRead l a flips b
    let b := setLode l { lode b l with scrubPos := if wrap then 0 else x.scrubPos + 1, catchup := x.catchup && !caughtUp } b
    if wrap then incr (fLD_SCRUB_PASSES l) 1 b else b

/-- PATROL_SCRUB_READ of a staging slice (R274, R282). -/
def scrubSlice (s : Nat) (flips : List Nat) (caughtUp : Bool) (b : Block) : Block :=
  if isSet b (fBLK_STAT_FAILED (sgBase s)) || !domOn b (domSg s) then b
  else
    let pos := mapGet 0 b.sgScrub s
    let wrap := decide (0x800000 ≤ pos + 1)
    let b := sramUpset b ⟨3 + s, pos, flips⟩
    let b := { b with
      sgScrub := mapSet 0 b.sgScrub s (if wrap then 0 else pos + 1)
      sgCatchup := if caughtUp then setErase b.sgCatchup s else b.sgCatchup }
    if wrap then incr (fSG_SCRUB_PASSES s) 1 b else b

/-- PATROL_SCRUB_READ: unit 0–11 a lode, 12–19 a slice. -/
def scrubRead (u : Nat) (flips : List Nat) (caughtUp : Bool) (b : Block) : Block :=
  if u < 12 then scrubLode u flips caughtUp b else scrubSlice (u - 12) flips caughtUp b

/-- SCRUB_CATCHUP (R274). -/
def scrubCatchup (u : Nat) (b : Block) : Block :=
  if u < 12 then
    if (lode b u).catchup then b
    else yieldGuarantee (ldPage u) 5 2 0x10 (setLode u { lode b u with catchup := true } b)
  else if b.sgCatchup.contains (u - 12) then b
  else yieldGuarantee (sgPage (u - 12)) 5 2 0x10 { b with sgCatchup := setInsert b.sgCatchup (u - 12) }

/-! ### Fills (R277, R278) -/

/-- The error of a word read back from the spare: the spare is bad and the fill restarts (R278). -/
def fillRestart (l : Nat) (f : Fill) (b : Block) : Block :=
  let p := takeSpare l f b
  let b := failRecord l f.pc f.rg 3 (if p.1 then 4 else 3) p.2
  let b := if p.1 then raise (ldPage l) 128 b else nextFill l ((lode b l).queued.length + 1) b
  fillStat l b

/-- FILL_COPY: the next storage word goes into the spare and is read back. `flips` are the source's flipped bits, `back` the
spare's; a word that does not read back as it was written is an error (R278, log 138). -/
def fillCopy (l : Nat) (flips back : List Nat) (b : Block) : Block :=
  match (lode b l).fill with
  | none => b
  | some f =>
    if isSet b (fLD_BLK_STAT_SELF_REFRESH l) || !domOn b (domLode l) || decide (rgWords ≤ f.pos) || hbmLost b then b
    else
      let a := rgWordAt f.pc f.rg f.pos
      let b := if f.lost then b else lodeRead l a flips b
      match (lode b l).fill with
      | none => b
      | some f =>
        let pois := f.lost || (lodeHas b l a && poisoned b (lodePa l a))
        if judge 72 pois back = (if pois then .storedPoison else .clean) then
          setLode l { lode b l with fill := some { f with pos := f.pos + 1 } } b
        else fillRestart l f b

/-- FILL_COMPLETE: the remap table switches the row group to the spare, and the next queued fill begins. A lost region reads as poison
but for the words written whole since its fill began (R279, log 136). Self-refresh pauses it as it pauses the copy. -/
def fillComplete (l : Nat) (b : Block) : Block :=
  match (lode b l).fill with
  | none => b
  | some f =>
    if f.pos < rgWords ∨ isSet b (fLD_BLK_STAT_SELF_REFRESH l) ∨ !domOn b (domLode l) ∨ hbmLost b then b
    else
      let x := lode b l
      let keep := x.remap.filter (fun e => !(e.1 == f.pc && e.2.1 == f.rg))
      let b := setLode l { x with fill := none, remap := keep ++ [(f.pc, f.rg, f.spare)] } b
      let b := if f.lost then upTo rgWords (fun b i =>
          let a := rgWordAt f.pc f.rg i
          let pa := lodePa l a
          if lodeHas b l a && !f.written.contains pa then setPoison (setPoison b pa true) (pa + 4) true else b) b else b
      let b := if get b (fLD_FAIL_RG_ROWGROUP l) = f.rg ∧ get b (fLD_FAIL_PC l) = f.pc then put (fLD_FAIL_OUTCOME l) 5 b else b
      let b := raise (ldPage l) 64 b
      fillStat l (nextFill l ((lode b l).queued.length + 1) b)

/-! ### Other lode events (R268–R270, R283) -/

/-- LODE_RECALIBRATION (R269): changes speed and never results. -/
def lodeRecal (l : Nat) (b : Block) : Block := setLode l { lode b l with recals := (lode b l).recals + 1 } b

/-- STACK_TEMP_READOUT (R268, 17 R487): the lode's own page keeps what it showed while its domain is not ON (03 R68); PW_TEMP shows the
hottest stack. -/
def stackTemp (l temp : Nat) (b : Block) : Block :=
  if isSet b (fBLK_STAT_FAILED (ldBase l)) || dom b (domLode l) == 0 then b
  else
    let hot := decide (85 < temp)
    let was := isSet b (fLD_TEMP_REFRESH_X2 l)
    let b := if domOn b (domLode l) then put (fLD_TEMP_TEMP_C l) temp (put (fLD_TEMP_REFRESH_X2 l) (b2n hot) b) else b
    let b := if hot && !was then canaryAdd .stack 1 (raise (ldPage l) 2048 b) else b
    let b := setFd (fun f => { f with hbm := mapSet 0 f.hbm l temp,
                                      hbmLevel := mapSet 0 f.hbmLevel l (stackLevelOf (mapGet 0 f.hbmLevel l) temp) }) b
    let h := b.fd.hbm.foldl (fun a e => if a.2 < e.2 then e else a) (0, 0)
    fdRise (put fPW_TEMP_HBM_LODE h.1 (put fPW_TEMP_HBM_MAX (min h.2 255) b))

/-- LODE_FAILURE (R270, 14 R376): all HBM is lost. -/
def lodeFailure (l : Nat) (b : Block) : Block :=
  if isSet b (fBLK_STAT_FAILED (ldBase l)) then b
  else
    let b := raise (ldPage l) 8 (put (fBLK_STAT_FAILED (ldBase l)) 1 (put (fLD_BLK_STAT_TRAINED l) 0 b))
    let b := domainRollback (domLode l) (setDom (domLode l) 3 b)
    let b := put fDEV_BLK_CAP_LODES (get b fDEV_BLK_CAP_LODES - 1) b
    let b := loseHbm (ldPage l) (3 + l * 2 ^ 8) l (memZero 0 0x8000000000 b)
    replaceAdvise 0 b

/-- STAGING_SLICE_FAILURE (R283, 14 R376): SG4 takes the queue descriptors, and every context is fenced. -/
def sliceFailure (s : Nat) (b : Block) : Block :=
  if isSet b (fBLK_STAT_FAILED (sgBase s)) then b
  else
    let b := raise (sgPage s) 8 (put (fBLK_STAT_FAILED (sgBase s)) 1 b)
    let b := domainRollback (domSg s) (setDom (domSg s) 3 b)
    let lo := 0x8000000000 + s * 0x2000000
    let b := memZero lo (lo + 0x2000000) b
    if s = 4 then
      let b := fenceAll b
      replaceAdvise 1 ((validCtxs b).foldl (fun b c => fenceCtx c (sgPage s) 4 b) b)
    else replaceAdvise 5 b

/-- LD_CTL2.CLR_ECC (R284). -/
def lodeClear (l : Nat) (b : Block) : Block := wr b (rLD_ECC l) 0

/-- FABRIC_DOMAIN_FAILURE (14 R377): half 0 is FAB-E, half 1 FAB-W. -/
def fabricFailure (h : Nat) (b : Block) : Block :=
  if dom b (domFab h) = 3 then b
  else
    let b := domainRollback (domFab h) (setDom (domFab h) 3 b)
    let b := loseHbm 0 (5 + h * 2 ^ 8) (12 + h) (memZero 0 0x8000000000 b)
    let b := abortWhere (fun c => (bitsOf c.mask 32).any (fun n => halfOfCluster n == h)) 0x21 (12 + h) b
    let b := if h = 1 then put fSC_DISPATCH_WHO 2 b else b
    replaceAdvise 2 b

end Sys2Proof.Machine
end

