-- ==== Sys2Proof/Machine/SecurityOps.lean ====
section
/-!
DEFINITION. Boot (17 R493, 18 R502), identity and attestation (18 R504–R507), the test port and debug tokens (18 R510–R514).
-/

namespace Sys2Proof.Machine

/-! ### Identity (18 R504, R505) -/

/-- R504: the private seed of a lifecycle state. -/
def identitySeed (b : Block) (s : Nat) : List Byte :=
  shake256 (leBytes 32 b.fuses.secret.toNat ++ ascii "BX-ID" ++ leBytes 1 s) 57

/-- R504: the identity public key of a state. -/
def identityPub (b : Block) (s : Nat) : List Byte := ed448Public (identitySeed b s)

/-- R505: the binding. -/
def binding (b : Block) : List Byte := shake256 (identityPub b 2) 32

/-- Current lifecycle state, coded as in R504. -/
def lifecycle (b : Block) : Nat := get b fSEC_BOOT_LIFECYCLE

/-- Exactly `n` bytes: cut, or filled with zero bytes. -/
def toLen (n : Nat) (bs : List Byte) : List Byte := bs.take n ++ List.replicate (n - bs.length) 0#8

/-! ### Attestation (18 R506, R507) -/

/-- SEC takes up a request: it reads the nonce once. -/
def attStart (b : Block) : Block :=
  let pa := rd64 b rSEC_ATT_PA_LO
  put fSEC_ATT_STAT_RESULT 0 (put fSEC_ATT_STAT_STATE 2 { b with attNonce := memBytes b (pa + 0x40) 64 })

/-- REQ (R506): it waits while SEC is down. -/
def attReq (b : Block) : Block :=
  if secRuns b then attStart b else put fSEC_ATT_STAT_STATE 1 b

/-- ROLL of the report. -/
def attRoll (b : Block) : Nat := if fwState b = 3 ∨ fwState b = 4 then 1 else if fwState b = 5 then 2 else 0

/-- RUN_MAP (R507): the processors that run set 1, and one that reloads under a step of the roll, but never SEC. -/
def runMap (b : Block) : Nat :=
  match b.fw.stepping with
  | some p => withBit b.fw.runMap p (b.fw.runMap.testBit p || (p != 0 && b.fw.halted && b.fw.failed != some p))
  | none => b.fw.runMap

/-- Bytes 0x000 to 0x37F of the report. -/
def attBody (b : Block) : List Byte :=
  let lc := lifecycle b
  let unlocked := isSet b fSEC_DBG_UNLOCKED
  let debug := b2n unlocked + 2 * b2n (unlocked && decide (b.dbg.grant / 2 % 512 ≠ 0)) + 4 * b2n (isSet b fSEC_DBG_EVER)
  let set1 := attRoll b != 0
  leBytes 2 1 ++ leBytes 2 0x400 ++ leBytes 1 lc ++ leBytes 1 (field (rd b 0) 23 20) ++ leBytes 1 debug ++ leBytes 1 (attRoll b)
    ++ leBytes 4 (imageEpoch b.fw.active) ++ leBytes 4 (if set1 then imageEpoch b.fw.staged else 0)
    ++ leBytes 4 (rollbackFloor b) ++ leBytes 4 (get b fSEC_BOOT_COUNT_COUNT) ++ leBytes 8 (runMap b) ++ leBytes 8 (now b)
    ++ leBytes 2 (get b fGG_DEV_ID_ID) ++ leBytes 1 (byteAt b.fw.active 2) ++ leBytes 1 b.fuses.revoked.toNat
    ++ List.replicate 20 0#8 ++ toLen 64 b.attNonce ++ toLen 64 (identityPub b lc) ++ toLen 32 (binding b)
    ++ List.replicate 32 0#8 ++ toLen 320 (imageDigests b.fw.active)
    ++ toLen 320 (if set1 then imageDigests b.fw.staged else [])

/-- The 1,024-byte report. -/
def attReport (b : Block) : List Byte :=
  let body := attBody b
  body ++ toLen 114 (ed448Sign (identitySeed b (lifecycle b)) (ascii "BX240-ATTEST") body) ++ List.replicate 14 0#8

/-- Writes bytes at a device PA in pieces of 4 KiB. -/
def paWrite (pa : Nat) (bs : List Byte) (b : Block) : Block := memWrite pa bs b

/-- ATTESTATION_COMPLETE (R506). A buffer that faults or is unassigned gives FAULT and undefined contents. -/
def attComplete (b : Block) : Block :=
  if get b fSEC_ATT_STAT_STATE ≠ 2 then b
  else
    let pa := rd64 b rSEC_ATT_PA_LO
    let cert := if lifecycle b = 2 then b.fuses.cert.take 2048 else []
    let b := put fSEC_ATT_STAT_STATE 0 b
    if rangeReachable b pa 4096 then
      let b := paWrite (pa + 0x400) cert (paWrite pa (attReport b) b)
      raise 3 128 (put fSEC_ATT_STAT_RESULT 1 (put fSEC_ATT_STAT_CERT_LEN cert.length b))
    else
      let b := (List.range 4096).foldl (fun b i => if reachable b (pa + i) then memUndefine (pa + i) 1 b else b) b
      raise 3 128 (put fSEC_ATT_STAT_RESULT 2 (put fSEC_ATT_STAT_CERT_LEN 0 b))

/-! ### Debug tokens (18 R512–R514) -/

/-- A fresh challenge from the entropy source (R513): a free value. -/
def freshChallenge (b : Block) : Block :=
  let p := drawFree b
  { p.2 with dbg := { p.2.dbg with challenge := p.1 % 2 ^ 128 } }

/-- R509, R512, R513: the GRANT is allowed in the current lifecycle state. -/
def grantOk (lc g : Nat) : Bool :=
  let adv := g.testBit 14
  let ret := g.testBit 15
  if adv || ret then (g == 2 ^ 14 && lc == 1) || (g == 2 ^ 15 && lc == 2)
  else g.testBit 0 && (lc != 2 || g / 2 % 512 == 0)

/-- The checks of R513 on a token. -/
def tokenOk (b : Block) (t : List Byte) : Bool :=
  let g := fieldAt t 4 2
  let pub := slice t 0x40 57
  t.length == 256 && fieldAt t 0 2 == 1 && g / 2 ^ 10 % 16 == 0 && zeroAt t 6 2 && zeroAt t 0x38 8 && zeroAt t 0x79 7
    && zeroAt t 0xF2 14 && byteAt t 2 == lifecycle b && rootOk b (byteAt t 3) pub
    && ed448Verify pub (ascii "BX240-UNLOCK") (slice t 0 0x80) (slice t 0x80 114)
    && slice t 8 32 == binding b && fieldAt t 0x28 16 == b.dbg.challenge && grantOk (lifecycle b) g

/-- A refused token (R513): counted, TOKEN_REFUSED. -/
def tokenRefused (b : Block) : Block := raise 3 512 (bump fSEC_DBG_REFUSED 1 b)

/-- A lifecycle token blows its code; the state changes at the next cold boot (R508, R514). -/
def blowCode (g : Nat) (b : Block) : Block :=
  let b := { b with fuses := if g.testBit 14 then { b.fuses with fieldCode := 0xFF } else { b.fuses with returnCode := 0xFF } }
  put fSEC_BOOT_LC_PENDING (if g.testBit 14 then 2 else 3) b

/-- An unlock with its grants (R514, R515). -/
def unlock (g : Nat) (b : Block) : Block :=
  let b := { b with dbg := { b.dbg with grant := g } }
  put fSEC_DBG_UNLOCKED 1 (put fSEC_DBG_EVER 1 (put fSEC_DBG_GRANT g b))

/-- DBG_TOKEN (R513, R514). -/
def dbgToken (t : List Byte) (b : Block) : Block :=
  let b := { b with dbg := { b.dbg with ir := 0x21 } }
  if !powered b || get b fDEV_BLK_STAT_BOOT_PHASE < 2 then b
  else if !secRuns b then tokenRefused b
  else
    let g := fieldAt t 4 2
    if tokenOk b t then
      raise 3 256 (freshChallenge (if g.testBit 14 || g.testBit 15 then blowCode g b else unlock g b))
    else freshChallenge (tokenRefused b)

/-! ### The test port (18 R510, R511) -/

/-- The test port is driven only while PWR_GOOD is high (02 R46). -/
def onTap (f : Block → Block) (b : Block) : Block := if b.pwr.pwrGood then f b else b

/-- Selects an instruction of the TAP. -/
def tapSelect (code : Nat) (b : Block) : Block := { b with dbg := { b.dbg with ir := code } }

/-- Bits as a number, bit 0 first. -/
def bitsNat (bs : List Bool) : Nat := bs.foldr (fun x a => b2n x + 2 * a) 0

/-- DBG_CHAL (R510): challenge in [127:0], binding in [383:128]. -/
def dbgChal (b : Block) : Block :=
  emit (.tdo (b.dbg.challenge + leNat (binding b) * 2 ^ 128) 384) (tapSelect 0x20 b)

/-- SAMPLE/PRELOAD: captures the boundary register and loads what is shifted in. -/
def samplePreload (bits : List Bool) (b : Block) : Block :=
  let b := emit (.tdo (bitsNat b.dbg.boundary) b.dbg.boundary.length) (tapSelect 2 b)
  { b with dbg := { b.dbg with boundary := bits } }

/-- EXTEST, CLAMP and HIGHZ take the scanned pins: all work is fenced until a module reset (R511). -/
def takePins (code : Nat) (b : Block) : Block :=
  let b := tapSelect code b
  if powered b then fenceAll (setPwr (fun p => { p with hardFence := true }) b) else b

/-- TRST_N low resets the TAP (17 R491). -/
def trst (b : Block) : Block := { b with dbg := { b.dbg with ir := 0xFF, boundary := [] } }

/-! ### Boot (17 R493, 18 R502) -/

/-- SEC leaves reset: the values that its page shows per boot (18 R508, R513, R515). -/
def secBoot (b : Block) : Block :=
  let b := if b.pwr.cold then
      let n := min (b.fuses.bootCount + 1) (2 ^ 32 - 1)
      put fSEC_BOOT_LC_PENDING 0 (put fSEC_BOOT_LIFECYCLE (fusedLifecycle b)
        (put fSEC_BOOT_COUNT_COUNT n { b with fuses := { b.fuses with bootCount := n } }))
    else b
  freshChallenge (showFuses b)

/-- Loads every section of the active bank and shows the banks' epochs (16 R465, R468). -/
def loadImages (b : Block) : Block :=
  let b := (List.range 36).foldl (loadStep b.fw.active) b
  let b := put fSEC_FW_EPOCH_EPOCH (imageEpoch b.fw.active) b
  if b.fw.staged.isEmpty then b else setFwState 2 (put fSEC_FW_STAGED_EPOCH (imageEpoch b.fw.staged) b)

/-- BOOT_VERIFICATION (R502): none where no bank passes. -/
def bootVerify (b : Block) : Block × Bool :=
  let r := verifyImage b b.fw.active none
  if r = 0 then (loadImages b, true)
  else
    let b := put fSEC_BOOT_VERIFY_FAIL r b
    if b.fw.staged.isEmpty then (b, false)
    else
      let r2 := verifyImage b b.fw.staged none
      if r2 = 0 then
        (loadImages (put fSEC_BOOT_FALLBACK 1 (setFw (fun f => { f with active := f.staged, staged := [] }) b)), true)
      else (put fSEC_BOOT_VERIFY_FAIL r2 b, false)

/-- Sets BOOT_PHASE. -/
def bootPhase (n : Nat) (b : Block) : Block := put fDEV_BLK_STAT_BOOT_PHASE n b

/-- End of POWER: PWR_GOOD rises and the straps are sampled (02 R41, R43, R52). -/
def bootPower (b : Block) : Block :=
  if b.pwr.rail = .charging then
    bootPhase 1 (strapLatch (setPwr (fun p => { p with rail := .up, pwrGood := true, rstWait := !p.modRstN }) b))
  else b

/-- End of CLOCKS. A module reset samples the straps here (02 R52, log 127). -/
def bootClocks (b : Block) : Block :=
  if b.pwr.refclk then
    let b := setDoms [domPwr, domSec] 2 (put fPW_CLK_ROOT_LOCK 1 (if b.pwr.cold then b else strapLatch b))
    bootPhase 2 (secBoot b)
  else b

/-- Link number of a port. -/
def chLink (p : Nat) : Nat := 18 + p

/-- Sends this device's CAPS (15 R408). -/
def sendCaps (p : Nat) (b : Block) : Block :=
  emit (.flit (chLink p) (flitBytes 5 (leBytes 2 0x03A5 ++ leBytes 2 0xB240 ++ leBytes 1 (stepping b) ++ leBytes 1 p ++ leBytes 1 1))) b

/-- End of FABRIC: staging is zero, both ports train. -/
def bootFabric (b : Block) : Block :=
  let b := setDoms ([domFab 0, domFab 1] ++ (List.range 8).map domSg) 2 b
  let b := (List.range 8).foldl (fun b g => if dom b (domSg g) = 3 then put (fBLK_STAT_FAILED (sgBase g)) 1 b else b) b
  let b := memZero 0x8000000000 0x8010000000 b
  let b := setDoms [domCh 0, domCh 1] 2 (put fPW_CLK_FCLK_OUT 1 b)
  bootPhase 4 (sendCaps 1 (chState 1 1 (sendCaps 0 (chState 0 1 b))))

/-- A spare that fails its test at a cold boot is not used (10 R280). -/
def badSpare (b : Block) (e : Nat × Nat × Nat) : Block :=
  let x := lode b e.1
  setLode e.1 { x with used := mapSet 0 x.used e.2.1 (mapGet 0 x.used e.2.1 ||| 2 ^ e.2.2) } b

/-- A row group that fails its test at a cold boot (10 R280): its pseudo-channel's next spare takes its place, with nothing to copy; with none
left its region is retired (log 160). -/
def badRow (b : Block) (e : Nat × Nat × Nat) : Block :=
  let x := lode b e.1
  match freeSpares x e.2.1 with
  | [] => loseRegion e.1 e.2.2 true b
  | s :: _ => setLode e.1 { x with remap := x.remap ++ [(e.2.1, e.2.2, s)],
                                   used := mapSet 0 x.used e.2.1 (mapGet 0 x.used e.2.1 ||| 2 ^ s) } b

/-- The tests of spares and row groups at a cold boot, in lodes that work (R493, 10 R280). -/
def retest (badSpares badRows : List (Nat × Nat × Nat)) (b : Block) : Block :=
  if !b.pwr.cold then b
  else
    let mine := fun (e : Nat × Nat × Nat) => decide (e.1 < 12 ∧ e.2.1 < 32) && domOn b (domLode e.1)
    (badRows.filter (fun e => mine e && lodeHas b e.1 (rgWordAt e.2.1 e.2.2 0))).foldl badRow
      ((badSpares.filter (fun e => mine e && decide (e.2.2 < 4))).foldl badSpare b)

/-- End of MEMORY: HBM is zero after a cold boot; a lode that fails, or whose domain stayed FAILED (R474), sets FAILED. FD3 keeps the
lodes in RETAIN (R488). -/
def bootMemory (badLodes : List Nat) (badSpares badRows : List (Nat × Nat × Nat)) (b : Block) : Block :=
  let b := if b.pwr.cold then memZero 0 0x8000000000 b else b
  let b := (List.range 12).foldl (fun b l =>
    if dom b (domLode l) = 3 then
      put fDEV_BLK_CAP_LODES (get b fDEV_BLK_CAP_LODES - 1) (put (fBLK_STAT_FAILED (ldBase l)) 1 b)
    else put (fLD_BLK_STAT_TRAINED l) 1 (put (fLD_BLK_STAT_SELF_REFRESH l) 0 (setDom (domLode l) 2 b))) b
  let b := retest badSpares badRows b
  let b := if fdLevel b = 3 then lodesRefresh true b else b
  bootPhase 5 ((badLodes.filter (fun l => decide (l < 12))).foldl (fun b l => lodeFailure l b) b)

/-- End of CLUSTERS: each cluster not retired powers up, to RETAIN where the host has parked it (R486), unless FD3 holds it off (R490); a
failing one is retired with cause 6. -/
def bootClusters (badClusters : List Nat) (b : Block) : Block :=
  let b := put fPW_CLK_ACLK_OUT 1 b
  let b := if fdLevel b = 3 then b else clustersBack (setDoms [domRed 0, domRed 1] 2 b)
  bootPhase 6 ((badClusters.filter (fun c => decide (c < 32))).foldl (fun b c => retireCluster c 6 true b) b)

/-- End of SCHEDULER: READY in A0, or in A3 when COOL = 11 (02 R53). -/
def bootScheduler (b : Block) : Block :=
  let b := settleWho (setDoms [domSch, domRcx] 2 b)
  let b := put fDEV_BLK_STAT_READY 1 b
  if coolReserved b then alert 4 (post 0x0102 2 (coolData b) (enterActivity 3 b)) else b

/-- BOOT_PHASE_COMPLETE: `badLodes` and `badClusters` are what phases MEMORY and CLUSTERS find; `badSpares` (lode, pseudo-channel, spare) and
`badRows` (lode, pseudo-channel, row group) are what the tests of a cold boot find. -/
def bootComplete (badLodes badClusters : List Nat) (badSpares badRows : List (Nat × Nat × Nat)) (b : Block) : Block :=
  if !powered b || ready b || b.pwr.rstWait || b.pwr.bootFail then b
  else match get b fDEV_BLK_STAT_BOOT_PHASE with
  | 0 => bootPower b
  | 1 => bootClocks b
  | 2 => let p := bootVerify b
         if p.2 then bootPhase 3 p.1 else bootFailed p.1
  | 3 => bootFabric b
  | 4 => bootMemory badLodes badSpares badRows b
  | 5 => bootClusters badClusters b
  | _ => bootScheduler b

/-- BOOT_PHASE_TIMEOUT (R493). -/
def bootTimeout (b : Block) : Block :=
  if powered b && !ready b && !b.pwr.rstWait then bootFailed b else b

end Sys2Proof.Machine
end

