-- ==== Sys2Proof/Machine/EventOps.lean ====
section
/-!
DEFINITION. Chaell ports and transactions (15 R402–R411), event rings and interrupts (15 R436–R442), contexts (15 R415, R416).
-/

namespace Sys2Proof.Machine

/-! ### Transactions out (15 R405, R409) -/

/-- A port's configuration block and reads. -/
def chPort (b : Block) (p : Nat) : ChPort := mapGet ChPort.fresh b.chaell p
/-- Replaces it. -/
def setPort (p : Nat) (x : ChPort) (b : Block) : Block := { b with chaell := mapSet ChPort.fresh b.chaell p x }


/-- The bytes of a transaction (R409, R411). -/
def txnBytes (t : ChTxn) : List Byte :=
  leBytes 1 t.kind ++ leBytes 1 (b2n t.poison.isSome) ++ leBytes 2 t.tag ++ leBytes 2 t.len ++ leBytes 1 t.status
    ++ leBytes 1 0 ++ leBytes 8 t.addr
    ++ (match t.poison with
        | some m => leBytes 4 m.toNat
        | none => [])
    ++ t.data

/-- A transaction enters a port's stream. -/
def chEmit (p : Nat) (b : Block) (t : ChTxn) : Block :=
  stream (chLink p) (txnBytes t) none (emit (.chaell p t) b)

/-- Sends a transaction on a port (R403): in RECOVERY it is held, and a port that is OFF, DOWN or in TRAINING sends nothing. -/
def chSend (p : Nat) (t : ChTxn) (b : Block) : Block :=
  match get b (fCH_LINK_STATE p) with
  | 2 => chEmit p b t
  | 3 =>
    let x := chPort b p
    setPort p { x with waiting := x.waiting ++ [t] } b
  | _ => b

/-- The port for a half's traffic (R405): its own while that is ACTIVE, else the other. -/
def portFor (b : Block) (half : Nat) : Option Nat :=
  if portCarries b half then some half else if portCarries b (1 - half) then some (1 - half) else none

/-- A completion without data. -/
def cplTxn (tag status : Nat) : ChTxn := ⟨6, tag, 0, status, 0, none, []⟩

/-- A completion with data; a poisoned line sets its mask bit (R411). -/
def cplDataTxn (tag : Nat) (data : List Byte) (mask : Nat) : ChTxn :=
  ⟨7, tag, data.length, 0, 0, if mask = 0 then none else some (BitVec.ofNat 32 mask), data⟩

/-! ### Rings (15 R436–R442) -/

/-- Window offset of a register of ring `n`. -/
def evReg (n off : Nat) : Nat := evBase + 0x40 + 0x20 * n + off

/-- HEAD, TAIL and size of a ring. -/
def evHead (b : Block) (n : Nat) : Nat := get b (fEV_HEAD_HEAD n)
def evTail (b : Block) (n : Nat) : Nat := get b (fEV_TAIL_TAIL n)
def evSize (b : Block) (n : Nat) : Nat := 2 ^ get b (fEV_CFG_SIZE_LOG2 n)

/-- R437: disabled, or full. -/
def ringBlocked (b : Block) (n : Nat) : Bool :=
  !isSet b (fEV_CFG_ENABLE n) || decide (evSize b n ≤ (evTail b n + 2 ^ 32 - evHead b n) % 2 ^ 32)

/-- PA of the next slot. -/
def slotPa (b : Block) (n : Nat) : Nat := rd64 b (rEV_BASE_LO n) + evTail b n % evSize b n * 32

/-- The record can be written now, or the wait of R405 is over: the slot is not in host memory or a port is ACTIVE. -/
def ringOpen (b : Block) (n : Nat) : Bool := !ringBlocked b n && canReach b (slotPa b n)

/-- The slot lies in memory that a record may be written to, and no access to it has failed under R410 (R437). -/
def slotOk (b : Block) (n : Nat) : Bool :=
  reachable b (slotPa b n) && reachable b (slotPa b n + 31) && !readFails b (slotPa b n) && !readFails b (slotPa b n + 31)

/-- Writes a record into the next slot. -/
def writeSlot (n : Nat) (r : EvRec) (b : Block) : Block :=
  let b := memWrite (slotPa b n) (r.bytes (phaseOf (evTail b n) (get b (fEV_CFG_SIZE_LOG2 n)))) b
  let b := incr (fEV_TAIL_TAIL n) 1 b
  setRing n { ring b n with irqDue := true } b

/-- A record is dropped and counted in LOST (R437). -/
def dropRecord (n : Nat) (b : Block) : Block :=
  bump (fEV_LOST_COUNT n) 1 (setRing n { ring b n with dropped := (ring b n).dropped + 1 } b)

/-- RING_OVERFLOW (R441). -/
def overflowRec (b : Block) (dropped : Nat) : EvRec := ⟨0x0601, 0xFF, 5, 0xFFFF, 0, now b, dropped % 2 ^ 32⟩

/-- Writes what a ring owes while it has space: RING_OVERFLOW after drops, then the waiting records in order (R437). -/
def flushRing (n : Nat) : (fuel : Nat) → Block → Block
  | 0, b => b
  | f + 1, b =>
    let x := ring b n
    if !ringOpen b n then b
    else if 0 < x.dropped ∧ slotOk b n then
      flushRing n f (writeSlot n (overflowRec b x.dropped) (setRing n { x with dropped := 0 } b))
    else match x.waiting with
    | [] => b
    | r :: t =>
      let b := setRing n { x with waiting := t } b
      flushRing n f (if slotOk b n then writeSlot n r b else dropRecord n (meetFails (slotPa b n) 32 b))

/-- Fuel enough for RING_OVERFLOW and 64 waiting records. -/
def flush (n : Nat) (b : Block) : Block := flushRing n 130 b

/-- EVENT_RECORD_WRITE (R437): the oldest record whose cause has occurred is written, waits, or is dropped; records that already
wait go first. -/
def recordWrite (n : Nat) (b : Block) : Block :=
  match (ring b n).posted with
  | [] => flush n b
  | r :: t =>
    let blocked := ringBlocked b n
    if !blocked && !canReach b (slotPa b n) then b
    else
      let b := flush n b
      let x : Ring := { ring b n with posted := t }
      if x.waiting.length < 64 then flush n (setRing n { x with waiting := x.waiting ++ [r] } b)
      else dropRecord n (setRing n x b)

/-- Sends a vector, or holds it while INTR_EN is 0 (R409); without ENABLE the port sends none (R408). -/
def sendIntr (p vector : Nat) (b : Block) : Block :=
  let x := chPort b p
  if x.cfgCtl % 4 = 3 then chSend p ⟨5, 0, 0, 0, vector, none, []⟩ b
  else setPort p { x with intrHeld := x.intrHeld ++ [vector] } b

/-- Port of a ring's interrupts and records (R442). -/
def ringPort (b : Block) (n : Nat) : Option Nat :=
  match get b (fEV_CFG_PORT n) with
  | 0 => portFor b 0
  | 1 => portFor b 1
  | _ => portFor b 0

/-- An interrupt of the ring was sent less than MOD µs ago (R438). -/
def moderated (b : Block) (n : Nat) : Bool :=
  match (ring b n).sentAt with
  | some t => decide (now b < t + 100 * get b (fEV_IRQ_MOD n))
  | none => false

/-- INTR (R438): the ring's VECTOR, once its records are visible, unless one was sent less than MOD µs ago. -/
def ringIntr (n : Nat) (b : Block) : Block :=
  let x := ring b n
  match ringPort b n with
  | none => b
  | some p =>
    if x.irqDue && !moderated b n then
      let b := setRing n { x with irqDue := false, sentAt := some (now b) } b
      sendIntr p (get b (fEV_IRQ_VECTOR n)) b
    else b

/-- INTERRUPT_MODERATION_EXPIRY (R438): the records written inside the interval are covered by one interrupt at its end, which is when MOD µs
have passed. -/
def moderationExpiry (n : Nat) (b : Block) : Block := ringIntr n b

/-! ### Link states (15 R403–R408) -/

/-- State of a port: 0 OFF, 1 TRAINING, 2 ACTIVE, 3 RECOVERY, 4 DOWN. -/
def portState (b : Block) (p : Nat) : Nat := get b (fCH_LINK_STATE p)

/-- Enters TRAINING. -/
def enterTraining (p : Nat) (b : Block) : Block :=
  sendCaps p (setPort p { chPort b p with caps := none, capsSame := false } (chState p 1 b))

/-- CH_TRAINING_START. -/
def trainingStart (p : Nat) (b : Block) : Block :=
  if portState b p = 0 ∧ dom b (domCh p) = 2 then enterTraining p b else b

/-- The link state and configuration block are lost (R408); with no port left ACTIVE, host transactions roll back (03 R78). -/
def portDown (p st : Nat) (b : Block) : Block :=
  hostRollback (portLost p (chState p st b))

/-- A port carries traffic: accesses to host memory no longer fail (R405). -/
def portUp (p : Nat) (b : Block) : Block :=
  if portActive b p then { b with hostDead := false } else b

/-- CH_TRAINING_COMPLETE (R407): two identical CAPS of REVISION 0x01 have been received. -/
def trainingComplete (p : Nat) (b : Block) : Block :=
  if portState b p = 1 ∧ (chPort b p).capsSame then portUp p (setLink (chLink p) Link.fresh (chState p 2 b)) else b

/-- CH_TRAINING_TIMEOUT. -/
def trainingTimeout (p : Nat) (b : Block) : Block :=
  if portState b p = 1 then portDown p 4 b else b

/-- CH_RECOVERY: traffic is held. -/
def recovery (p : Nat) (b : Block) : Block :=
  if portState b p = 2 then
    let b := bump (fCH_LINK_RECOVERIES p) 1 (chState p 3 b)
    sendCaps p (setPort p { chPort b p with caps := none, capsSame := false } b)
  else b

/-- CH_RECOVERY_COMPLETE (R407): flit counts restart from zero, unacknowledged flits are replayed, and what
was held is sent. -/
def recoveryComplete (p : Nat) (b : Block) : Block :=
  if portState b p = 3 ∧ (chPort b p).capsSame then
    let x := link b (chLink p)
    let n := x.buffer.length
    let b := setLink (chLink p) { Link.fresh with tx := n, buffer := x.buffer, txTail := x.txTail,
                                                  txBytes := 253 * n + x.txTail.length, part := x.part } (chState p 2 b)
    let held := (chPort b p).waiting
    let b := pumpFlits (chLink p) (x.buffer.foldl (fun b c => emit (.flit (chLink p) (flitBytes 1 c)) b) b)
    portUp p (held.foldl (chEmit p) (setPort p { chPort b p with waiting := [] } b))
  else b

/-- CH_RECOVERY_TIMEOUT. -/
def recoveryTimeout (p : Nat) (b : Block) : Block :=
  if portState b p = 3 then portDown p 4 b else b

/-- CH_DOWN_RETRY. -/
def downRetry (p : Nat) (b : Block) : Block :=
  if portState b p = 4 then enterTraining p b else b

/-- CAPS_FLIT (R408): the 7 bytes from byte 3 of the flit; only REVISION is checked. -/
def capsFlit (p : Nat) (caps : List Byte) (b : Block) : Block :=
  let x := chPort b p
  if portState b p = 1 ∨ portState b p = 3 then
    setPort p { x with caps := some caps, capsSame := x.caps == some caps && byteAt caps 6 == 1 } b
  else b

/-! ### Configuration block (15 R408) -/

/-- The 64 bytes of a port's configuration block. -/
def cfgBytes (b : Block) (p : Nat) : List Byte :=
  let x := chPort b p
  leBytes 2 0x03A5 ++ leBytes 2 0xB240 ++ leBytes 1 (stepping b) ++ leBytes 1 p ++ leBytes 1 1 ++ leBytes 1 0
    ++ leBytes 8 x.ctrlBase ++ leBytes 8 x.memBase ++ leBytes 4 x.cfgCtl ++ leBytes 36 0

/-- No reserved value in a transaction (R409). -/
def txnClean (t : ChTxn) (carries : Bool) : Bool :=
  decide (t.len ≤ 512 ∧ t.len % 4 = 0 ∧ t.tag < 65536 ∧ t.status = 0) && (t.data.length == if carries then t.len else 0)

/-- CFG_RD. -/
def cfgRead (p : Nat) (t : ChTxn) (b : Block) : Block :=
  if portState b p ≠ 2 then b
  else if !txnClean t false then chSend p (cplTxn t.tag 1) b
  else chSend p (cplDataTxn t.tag (toLen t.len (slice (cfgBytes b p) t.addr t.len)) 0) b

/-- Replaces bytes of a block by the bytes of a write at `off`. -/
def overlay (blk : List Byte) (off : Nat) (data : List Byte) : List Byte :=
  (List.range blk.length).map (fun i => if off ≤ i ∧ i < off + data.length then data.getD (i - off) 0#8 else blk.getD i 0#8)

/-- Sends the interrupts held while INTR_EN was 0 (R409), on a port with ENABLE (R408). -/
def releaseIntr (p : Nat) (b : Block) : Block :=
  let x := chPort b p
  if x.cfgCtl % 4 = 3 then x.intrHeld.foldl (fun b v => sendIntr p v b) (setPort p { x with intrHeld := [] } b) else b

/-- CFG_WR: a write to CTRL_BASE or MEM_BASE while ENABLE is 1 is discarded. -/
def cfgWrite (p : Nat) (t : ChTxn) (b : Block) : Block :=
  let x := chPort b p
  if portState b p ≠ 2 ∨ t.poison.isSome ∨ !txnClean t true then b
  else if x.cfgCtl.testBit 0 ∧ t.addr < 0x18 ∧ 8 < t.addr + t.len then b
  else
    let n := overlay (cfgBytes b p) t.addr t.data
    let x := { x with
      ctrlBase := fieldAt n 8 8 / 0x1000000 * 0x1000000
      memBase := fieldAt n 0x10 8 / 2 ^ 40 * 2 ^ 40
      cfgCtl := byteAt n 0x18 % 4 }
    portUp p (releaseIntr p (setPort p x b))

/-! ### Device reads and writes of host memory (15 R405, R409–R411) -/

/-- PA of a host address. -/
def hostPa (a : Nat) : Nat := 0x800000000000 + a

/-- A tag that no outstanding read of the port carries (R409). -/
def freeTag (x : ChPort) : Nat :=
  (((List.range 4097).map (fun i => (x.nextTag + i) % 65536)).find? (fun t => !x.reads.any (fun r => r.1 == t))).getD x.nextTag

/-- A device RD: outstanding until its completion. It is the traffic of a half, which prefers the half's port (R405). -/
def deviceRead (half : Nat) (t : ChTxn) (b : Block) : Block :=
  match portFor b half with
  | none => b
  | some p =>
    let x := chPort b p
    if !txnClean t false ∨ 4096 ≤ x.reads.length then b
    else
      let g := freeTag x
      chSend p { t with kind := 1, tag := g }
        (setPort p { x with reads := x.reads ++ [(g, t.addr, t.len)], nextTag := (g + 1) % 65536 } b)

/-- A posted device WR to host memory, by the port that a half's traffic prefers (R405). -/
def deviceWrite (half : Nat) (t : ChTxn) (b : Block) : Block :=
  match portFor b half with
  | none => b
  | some p =>
    if !txnClean t true then b
    else
      let mask := match t.poison with
        | some m => m.toNat
        | none => 0
      chSend p { t with kind := 2 } (memWriteP (hostPa t.addr) t.data (fun i => mask.testBit (i / 64)) b)

/-- Ends an outstanding read. One that fails does so as an unassigned address, for the access that it belongs to and for no later one
(R410). -/
def endRead (p tag : Nat) (fails : Bool) (b : Block) : Block :=
  let x := chPort b p
  match x.reads.find? (fun r => r.1 == tag) with
  | none => b
  | some r =>
    let b := setPort p { x with reads := x.reads.filter (fun y => y.1 != tag) } b
    if fails then { b with hostFail := b.hostFail ++ [(hostPa r.2.1, r.2.2)] } else b

/-- CPL: a non-zero STATUS ends a read. A transaction with a reserved STATUS, or with an ADDR that is not zero, is
discarded (R409). -/
def cplIn (p : Nat) (t : ChTxn) (b : Block) : Block :=
  if portState b p = 2 ∧ t.addr = 0 ∧ t.status ≠ 0 ∧ t.status ≤ 2 then endRead p t.tag true b else b

/-- CPL_DATA: the data of a read, with the words of marked lines poisoned (R411); a non-zero STATUS ends it as a CPL does (R410). -/
def cplDataIn (p : Nat) (t : ChTxn) (b : Block) : Block :=
  match (chPort b p).reads.find? (fun r => r.1 == t.tag) with
  | none => b
  | some r =>
    if portState b p ≠ 2 ∨ t.addr ≠ 0 ∨ 2 < t.status ∨ (t.status = 0 ∧ t.data.length ≠ r.2.2) then b
    else if t.status ≠ 0 then endRead p t.tag true b
    else
      let mask := match t.poison with
        | some m => m.toNat
        | none => 0
      endRead p t.tag false (memWriteP (hostPa r.2.1) t.data (fun i => mask.testBit (i / 64)) b)

/-- COMPLETION_TIMEOUT. -/
def cplTimeout (p tag : Nat) (b : Block) : Block := endRead p tag true b

/-- HOST_ACCESS_TIMEOUT (R405): no port has been ACTIVE for 100 ms. -/
def hostTimeout (b : Block) : Block :=
  if anyPortActive b then b else { b with hostDead := true }

/-- An operation that reads host memory meets the reads that have failed (R410): those that its outcome depends on are over with it. -/
def readsOnce (f : Block → Block) (b : Block) : Block :=
  if b.hostFail.isEmpty then f b
  else
    let quiet := f { b with hostFail := [] }
    let unmet := b.hostFail.filter (fun r => decide (f { b with hostFail := [r] } = { quiet with hostFail := [r] }))
    { f b with hostFail := unmet }

/-- Host memory answers: a port carries traffic, and no failed read is still to be met (R405, R410). -/
def hostClear (b : Block) : Bool := anyPortActive b && b.hostFail.isEmpty

/-- R405: an access to host memory waits while no port is ACTIVE. `f` runs where a port is ACTIVE, where host accesses have
failed, and where its outcome does not depend on host memory; else the command waits and nothing changes. -/
def hostGated (f : Block → Block) (b : Block) : Block :=
  if anyPortActive b || b.hostDead then readsOnce f b
  else
    let t := f { b with hostDead := true }
    if f b = { t with hostDead := false } then f b else b

/-! ### Contexts (15 R415, R416) -/

/-- A context of a record, with tokens. -/
def ctxOfRecord (d : List Byte) (tokens : SMap (Nat × Bool)) : Ctx where
  psidy := (byteAt d 0).testBit 1
  prio := byteAt d 1
  ring := byteAt d 2
  epoch := fieldAt d 4 4
  ttPa := fieldAt d 8 8
  sporeVa := fieldAt d 0x10 8
  sporeCnt := fieldAt d 0x18 4
  amaxCnt := fieldAt d 0x1C 2
  amaxVa := fieldAt d 0x20 8
  tokens := tokens

/-- Every queue bound to the context is DISABLED or STOPPED, and no command of it runs (R416). -/
def ctxQuiet (b : Block) (c : Nat) : Bool :=
  (boundQueues b c).all (fun q => qState b q != 1) && !b.cmds.any (fun m => m.active && m.ctx == c)

/-- LOAD: none for a record with a reserved value, or that the device cannot read. -/
def ctxLoad (c : Nat) (b : Block) : Option Block :=
  let pa := rd64 b rSC_CTX_SRC_LO
  let d := memBytes b pa 128
  if !reachable b pa || !reachable b (pa + 127) || readFails b pa || readFails b (pa + 127) || anyPoison b pa 128 || !ctxRecordOk d then none
  else
    let toks := if ctxValid b c then (ctx b c).tokens else []
    some (put (pairBit rSC_CTX_VALID_LO c) (byteAt d 0 % 2) (setCtx c (ctxOfRecord d toks) b))

/-- READ. -/
def ctxRead (c : Nat) (b : Block) : Block :=
  let pa := rd64 b rSC_CTX_SRC_LO
  if reachable b pa && reachable b (pa + 127) then memWrite pa (contextBytes b c) b else b

/-- UNFENCE. -/
def ctxUnfence (c : Nat) (b : Block) : Block := put (pairBit rSC_CTX_FENCED_LO c) 0 b

/-- INVALIDATE. -/
def ctxInvalidate (c : Nat) (b : Block) : Block :=
  setCtx c { ctx b c with tokens := [] } (put (pairBit rSC_CTX_VALID_LO c) 0 b)

end Sys2Proof.Machine
end

