-- ==== Sys2Proof/Machine/GangRows.lean ====
section
/-!
DEFINITION. What the gang's commands and messages do (11 R302–R307, R517; 12 R337; 13 R352–R355).
-/

namespace Sys2Proof.Machine

/-! ### Messages (R301, R355) -/

/-- R301 on a message without a given layout (log 11). -/
def gangGate (src mgen : Nat) (g : GangMsg) (f : Block → Block) (b : Block) : Block :=
  let b := hears src b
  if role b = 0 then b
  else match genGate b mgen with
  | .stale => bump fGG_CNT_STALE 1 b
  | .hold => setGang (fun x => { x with heldGang := x.heldGang ++ [(src, mgen, g)] }) b
  | .accept => f (setGang (fun x => { x with heldGang := x.heldGang.erase (src, mgen, g) }) b)

/-- A gang-control payload with a reserved value (R288, R355, R517). -/
def gangProto (adit : Nat) (b : Block) : Block := bump (fAD_RETRY_PROTO adit) 1 b

/-- The payload of R355 holds no reserved value. -/
def pitOk (m : Msg) (value : Nat → Bool) (cause newGen : Bool) : Bool :=
  let p := m.payload
  p.length == 32 && value (byteAt p 1) && decide (byteAt p 2 < 8) && decide (byteAt p 3 ≤ 5) && (cause || zeroAt p 3 1)
    && (newGen || zeroAt p 10 2) && zeroAt p 12 20

/-- A message of one KIND of R355: any other KIND is no such command. -/
def pitMsg (adit kind : Nat) (m : Msg) (value : Nat → Bool) (cause newGen : Bool) (f : Block → Block) (b : Block) : Block :=
  if m.cls ≠ 5 ∨ byteAt m.payload 0 ≠ kind then b
  else if !pitOk m value cause newGen then gangProto adit (takeMsg m b)
  else gated m f b

/-- VOTE (R350, R352). -/
def voteIn (adit : Nat) (m : Msg) (b : Block) : Block :=
  let p := m.payload
  pitMsg adit 0x10 m (fun v => v == 1 || v == 2) false false
    (countVote ⟨fieldAt p 8 2, byteAt p 1 == 1, (byteAt p 2).testBit 0, (byteAt p 2).testBit 2, fieldAt p 4 4⟩) b

/-- The decision that a payload carries. -/
def payloadDecision (b : Block) (p : List Byte) : Decision :=
  ⟨fieldAt p 4 4, byteAt p 1 == 1, byteAt p 3, fieldAt p 8 2, (byteAt p 2).testBit 0, (byteAt p 2).testBit 1,
   (byteAt p 2).testBit 2, now b, fieldAt p 10 2, 0⟩

/-- The deputy's acknowledgement (R353). -/
def sendLogAck (dst epoch : Nat) (b : Block) : Block :=
  sendMsg dst 5 0 (pitPayload 0x12 0 0 0 epoch (devId b) 0) b

/-- DECISION (R353–R357): the deputy logs its first copy; the next one, and any other member's, is applied. -/
def decisionIn (adit : Nat) (m : Msg) (b : Block) : Block :=
  pitMsg adit 0x11 m (fun v => v == 1 || v == 2) true true (fun b =>
    let d := payloadDecision b m.payload
    let fromDeputy := d.takeover && (match b.gang.cur with
      | some t => t.deputy == m.src
      | none => false)
    if m.src ≠ masterId b ∧ !fromDeputy then b
    else
      let seen := match b.gang.logged with
        | some l => l.same d && !(b.gang.loggedDone && !d.takeover)
        | none => false
      if role b = 2 ∧ !seen then sendLogAck m.src d.epoch (setGang (fun g => { g with logged := some d, loggedDone := false }) b)
      else takeDecision d b) b

/-- The oldest item of the log is acknowledged. -/
def logPop (b : Block) : Block :=
  match b.gang.toLog with
  | [] => b
  | i :: t => logged i (setGang (fun g => { g with toLog := t }) b)

/-- LOG_ACK (R353). -/
def logAckIn (adit : Nat) (m : Msg) (b : Block) : Block :=
  pitMsg adit 0x12 m (fun v => v == 0) false false (fun b =>
    if role b = 3 ∧ liveDeputy b = some m.src then logPop b else b) b

/-- LOG_ACK_TIMEOUT (R353): the deputy is declared failed. -/
def logAckTimeout (b : Block) : Block :=
  match b.gang.toLog, liveDeputy b with
  | _ :: _, some p => if role b ≠ 3 then b else declareFailed p 2 2 b
  | _, _ => b

/-- VOTE_BARRIER_TIMEOUT (R352): every member whose vote is missing is declared failed, and the decision is ABORT; the master does not declare
itself where its own vote alone is missing (log 167). -/
def voteTimeout (b : Block) : Block :=
  let e := stepEpoch b
  if role b ≠ 3 ∨ !collecting b ∨ !b.gang.votes.any (fun v => v.epoch == e) then b
  else match b.gang.cur with
  | none => b
  | some t =>
    let missing := (tblActive t).filter (fun d => d != devId b && !b.gang.votes.any (fun v => v.dev == d && v.epoch == e))
    if missing.isEmpty then
      if b.gang.votes.any (fun v => v.dev == devId b && v.epoch == e) ∨ !quorum b ∨ !dispatcherRuns b then b
      else decideStep false 2 (devId b) false b
    else declareMembers missing 1 2 b

/-! ### Forming and joining (R302–R304, R517) -/

/-- A region in full, with RD and WR, wholly in HBM or the general area of staging (R311). -/
def gangRegion (b : Block) (va n : Nat) : Option (List (Nat × Nat)) :=
  match vaPieces b (stepCtx b) va n false, vaPieces b (stepCtx b) va n true with
  | .ok ps, .ok _ =>
    if ps.all (fun p => match rangeOf p.1 with
        | .hbm | .staging _ => true
        | _ => false) then some ps else none
  | _, _ => none

/-- Both regions of R311; none where JOIN and PROPOSE are discarded. -/
def gangRegions (b : Block) : Option (List (Nat × Nat) × List (Nat × Nat)) :=
  if !ctxValid b (stepCtx b) then none
  else match gangRegion b (rd64 b rGG_TABLE_VA_LO) 0x80000, gangRegion b (rd64 b rGG_ROUTE_VA_LO) 0x10000 with
  | some t, some r => some (t, r)
  | _, _ => none

/-- Keeps the regions' pages until ROLE returns to none (R311). -/
def keepRegions (r : List (Nat × Nat) × List (Nat × Nat)) (b : Block) : Block :=
  setGang (fun g => { g with tablePas := r.1, routePas := r.2 }) b

/-- GG_CTL.JOIN (R302). A member has no use for it. -/
def joinStart (r : List (Nat × Nat) × List (Nat × Nat)) (b : Block) : Block :=
  if role b ≠ 0 then b
  else sendGang (get b fGG_JOIN_MASTER) .joinRequest (put fGG_STATE_JOINING 1 (keepRegions r b))

/-- GG_CTL.PROPOSE (R302, R303): before formation a copy that breaks rules 1 to 4 or 6 is refused and dropped at once. -/
def proposeStart (r : List (Nat × Nat) × List (Nat × Nat)) (b : Block) : Block :=
  if role b = 1 ∨ role b = 2 then b
  else
    let b := if role b = 0 then keepRegions r b else b
    let p := readProposed b
    let b := put fGG_STATE_TAKEN 1 (setGang (fun g => { g with
      taken := some p.1, takenBad := p.2, nextTaken := false, routeOut := [], routeSent := false, routeBad := none }) b)
    if role b = 3 then sendRoutes b
    else match tableRule b p.1 p.2 with
    | some k => dropTaken (refuseTable k p.1 b)
    | none => tryForm b

/-- GG_CTL.CANCEL (R311). -/
def gangCancel (b : Block) : Block := dropTaken (put fGG_STATE_JOINING 0 b)

/-- JOIN_REQUEST_TIMER (R302). -/
def joinTimer (b : Block) : Block :=
  if isSet b fGG_STATE_JOINING then sendGang (get b fGG_JOIN_MASTER) .joinRequest b else b

/-- JOIN_REQUEST (R302): recorded by the master, or by a device that is to be master; discarded by a member. -/
def joinRequestIn (src : Nat) (b : Block) : Block :=
  if role b = 1 ∨ role b = 2 then b
  else tryForm (setGang (fun g => { g with asked := setInsert g.asked src }) b)

/-- GANG_FORMATION (R302). -/
def gangFormation (b : Block) : Block := tryForm b

/-- FORMATION_TIMEOUT (R302): cause ABSENT. -/
def formationTimeout (b : Block) : Block :=
  match b.gang.taken with
  | some t => if role b = 0 ∧ !allAsked b t then dropTaken (refuseTable 8 t b) else b
  | none => b

/-- ROUTE_ANSWER_TIMEOUT (R517): the device that did not answer fails rule 5. -/
def routeTimeout (b : Block) : Block :=
  match b.gang.taken, b.gang.routeOut with
  | some t, (d, _) :: _ =>
    let b := setGang (fun g => { g with routeBad := some (g.routeBad.getD d), routeOut := [] }) b
    if role b = 0 then dropTaken (refuseTable 5 t b) else b
  | _, _ => b

/-- ROUTE_Q (R517). -/
def routeQ (adit : Nat) (m : Msg) (b : Block) : Block :=
  let p := m.payload
  let n := fieldAt p 4 2
  if m.cls ≠ 5 ∨ byteAt p 0 ≠ 0x30 then b
  else
    let b := takeMsg m b
    if role b = 0 ∧ m.src ≠ get b fGG_JOIN_MASTER then b
    else if byteAt p 1 ≠ 0 ∨ !zeroAt p 8 8 ∨ n = 0 ∨ 2040 < n ∨ p.length < 16 + 2 * n then gangProto adit b
    else
      let ids := (List.range n).map (fun i => fieldAt p (16 + 2 * i) 2)
      let bad := ids.find? (fun d => !hasRoute b d)
      sendMsg m.src 5 0 (leBytes 1 0x31 ++ leBytes 1 (if bad.isSome then 2 else 1) ++ leBytes 2 (fieldAt p 2 2)
        ++ leBytes 2 (fieldAt p 6 2) ++ leBytes 2 (bad.getD 0xFFFF) ++ leBytes 8 0) b

/-- ROUTE_A (R517): accepted with any MGEN. -/
def routeA (adit : Nat) (m : Msg) (b : Block) : Block :=
  let p := m.payload
  let v := byteAt p 1
  if m.cls ≠ 5 ∨ byteAt p 0 ≠ 0x31 then b
  else
    let b := takeMsg m b
    if p.length ≠ 16 ∨ v = 0 ∨ 2 < v ∨ !zeroAt p 8 8 then gangProto adit b
    else if b.gang.taken.isNone ∨ fieldAt p 2 2 ≠ copyGen b ∨ !b.gang.routeOut.contains (m.src, fieldAt p 4 2) then b
    else
      let b := setGang (fun g => { g with routeOut := g.routeOut.erase (m.src, fieldAt p 4 2),
                                          routeBad := if v = 2 then some (g.routeBad.getD m.src) else g.routeBad }) b
      if role b = 0 then tryForm b else b

/-- ADOPTED_TABLES (R302–R304): a joining device adopts them whatever their MGEN, a member keeps them with the master's timeouts for
the decision that they follow (R311), and a device in OUT that is absent leaves at once. -/
def tablesIn (src mgen epoch : Nat) (t : Tables) (barrier heartbeat : Nat) (b : Block) : Block :=
  let present := (tblIds t).contains (devId b)
  if role b = 0 then
    if isSet b fGG_STATE_JOINING && src == get b fGG_JOIN_MASTER && present then adopt t barrier heartbeat b else b
  else gangGate src mgen (.tables epoch t barrier heartbeat) (fun b =>
    if src ≠ masterId b ∧ src ≠ t.master then b
    else if !newer16 t.gen (gen b) then b
    else if pitState b = 6 ∧ !present then leaveGang b
    else setGang (fun g => { g with next := some t, nextEpoch := epoch, nextTimes := (barrier, heartbeat), nextTaken := false }) b) b

/-! ### Heartbeats, declarations, takeover (R305–R307) -/

/-- HEARTBEAT_TIMER (R305): SCH or RCX sends it. -/
def heartbeatTimer (b : Block) : Block :=
  if role b ≠ 3 ∨ !dispatcherRuns b then b else (others b).foldl (fun b d => sendGang d .heartbeat b) b

/-- HEARTBEAT (R305): not answered while neither SCH nor RCX runs (16 R455). -/
def heartbeatIn (src mgen : Nat) (b : Block) : Block :=
  gangGate src mgen .heartbeat (fun b =>
    if src ≠ masterId b ∨ !dispatcherRuns b then b else sendGang src .heartbeatAnswer b) b

/-- HEARTBEAT_ANSWER (R305): the master hears the member; with quorum it decides again. -/
def heartbeatAnswer (src mgen : Nat) (b : Block) : Block :=
  gangGate src mgen .heartbeatAnswer (fun b =>
    if role b ≠ 3 ∨ !(others b).contains src then b
    else tryDecide (if quorum b then setGang (fun g => { g with stopped := false }) b else b)) b

/-- HEARTBEAT_TIMEOUT (R305). -/
def heartbeatTimeout (dev : Nat) (b : Block) : Block :=
  if role b ≠ 3 ∨ !(others b).contains dev then b
  else
    let b := setGang (fun g => { g with heard := setErase g.heard dev }) b
    if quorum b then declareFailed dev 2 2 b else quorumLost (heardCount b) b

/-- FAILURE_DECLARATION (R305, R336): the deputy logs its first copy and acknowledges. -/
def declarationIn (src mgen dev : Nat) (b : Block) : Block :=
  gangGate src mgen (.declaration dev) (fun b =>
    let deputy := match b.gang.cur with
      | some t => t.deputy
      | none => 0xFFFF
    if src ≠ masterId b ∧ src ≠ deputy then b
    else if role b = 2 ∧ dev ≠ devId b ∧ !b.gang.loggedDev.contains dev then
      sendLogAck src (stepEpoch b) (setGang (fun g => { g with loggedDev := setInsert g.loggedDev dev }) b)
    else applyDeclaration src dev (setGang (fun g => { g with loggedDev := setErase g.loggedDev dev }) b)) b

/-- The gang is lost (R306, R358). -/
def gangLost (b : Block) : Block := post 0x0305 7 0 (goOut true (excludeScans (excludeAll b)))

/-- MASTER_SILENCE_TIMEOUT (R306): nothing heard from the master for the heartbeat timeout, and at a second such event of one
silence for the barrier timeout too (log 154). -/
def masterSilence (b : Block) : Block :=
  if role b = 0 ∨ role b = 3 ∨ pitState b = 6 then b
  else
    let late := b.gang.masterQuiet
    let b := setGang (fun g => { g with masterQuiet := true }) b
    if role b = 2 then
      if b.gang.takingOver || b.gang.stopped then b
      else (others b).foldl (fun b d => sendGang d .takeoverRequest b) (setGang (fun g => { g with takingOver := true, acks := [] }) b)
    else if late && (liveDeputy b).isNone then gangLost b
    else b

/-- TAKEOVER_REQUEST (R306, R307). -/
def takeoverRequest (src mgen : Nat) (b : Block) : Block :=
  gangGate src mgen .takeoverRequest (fun b =>
    if b.gang.masterQuiet && liveDeputy b == some src then sendGang src .takeoverAck b else b) b

/-- The deputy becomes master (R306, R354): the last logged decision is resent with TAKEOVER, logged declarations are
completed, and the old master is declared failed. -/
def becomeMaster (b : Block) : Block :=
  let old := masterId b
  let me := devId b
  let fix := fun (t : Tables) => { t with
    master := me, deputy := 0xFFFF, members := t.members.map (fun m => if m.1 = old then (m.1, 2) else m) }
  let b := post 0x0303 7 old (put fGG_STATE_ROLE 3 b)
  let b := setGang (fun g => { g with
    cur := g.cur.map (fun t => { t with master := me, deputy := 0xFFFF }), next := g.next.map fix, nextTaken := false, takingOver := false,
    heard := g.acks, toLog := [], failedNow := [], votes := [] }) b
  let b := match b.gang.logged with
    | none => b
    | some d =>
      let d := { d with takeover := true }
      if d.epoch = stepEpoch b ∧ !appliedBefore b d then logged (.decide d) b
      else (others b).foldl (fun b x => sendMsg x 5 0 d.payload b) b
  let ds := b.gang.loggedDev
  let b := ds.foldl (fun b d => logged (.declare d 0) b) (setGang (fun g => { g with loggedDev := [] }) b)
  declareFailed old 5 3 b

/-- TAKEOVER_ACK (R306). -/
def takeoverAck (src mgen : Nat) (b : Block) : Block :=
  gangGate src mgen .takeoverAck (fun b =>
    if role b ≠ 2 ∨ !b.gang.takingOver ∨ !(others b).contains src then b
    else
      let b := setGang (fun g => { g with acks := setInsert g.acks src }) b
      if majority b (b.gang.acks.length + 1) then becomeMaster b else b) b

/-- TAKEOVER_TIMEOUT (R306). -/
def takeoverTimeout (b : Block) : Block :=
  if !b.gang.takingOver then b
  else quorumLost (b.gang.acks.length + 1) (setGang (fun g => { g with takingOver := false }) b)

/-! ### Wait reports (12 R337) -/

/-- Adds a report to its tally's gathering. -/
def addReport (src tally grp waits : Nat) (b : Block) : Block :=
  match b.reports.find? (fun r => r.tally == tally) with
  | some _ => { b with reports := b.reports.map (fun r => if r.tally = tally then { r with got := r.got ++ [(src, waits)] } else r) }
  | none => { b with reports := b.reports ++ [⟨tally, grp, [(src, waits)]⟩] }

/-- This device's wait report (R337, R342, R343): to the master, which counts its own. -/
def waitReport (tally grp waits : Nat) (b : Block) : Block :=
  let b := raise (0x14A + bucketRed b) 64 b
  if role b = 3 then addReport (devId b) tally grp waits b else sendGang (masterId b) (.waitReport tally grp waits) b

/-- A SCAN waits for its successor's GRANT alone (R337): some channel block's final carry is known and not sent. -/
def scanWaitsGrant (c : Cmd) (j : Job) : Bool :=
  c.toDrift && j.final.any (fun e => match e.2 with
    | some (_ :: _) => true
    | _ => false)

/-- BARRIER_TIMEOUT (R337): a running command with nothing it may send reports the position it waits on; a SCAN reports the successor whose
GRANT it waits for. -/
def barrierTimeout (q n : Nat) (b : Block) : Block :=
  match collOf b q n with
  | none => match jobCmd b (some (q, n)) with
    | none => b
    | some (c, j) => match scanSucc b c with
      | some d => if scanWaitsGrant c j && role b != 0 then waitReport c.scanTally c.scanGroup d b else b
      | none => b
  | some c =>
    if c.complete || (!c.sendQ.isEmpty && decide (c.sent < c.granted)) || role b == 0 then b
    else waitReport c.tally c.group (waitsOn c) b

/-- SCAN_CARRY_TIMEOUT (08 R216): no drift carry when the barrier timeout expires: the predecessor is reported to the master. -/
def scanTimeout (q n : Nat) (b : Block) : Block :=
  match jobCmd b (some (q, n)) with
  | none => b
  | some (c, j) =>
    match missingBlock c j, scanPred b c with
    | some i, some d =>
      if !c.fromDrift then b
      else
        let b := abortTask q n 0x30 i b
        if role b = 0 then b else waitReport c.scanTally c.scanGroup d b
    | _, _ => b

/-- WAIT_REPORT (R337). -/
def waitReportIn (src mgen tally grp waits : Nat) (b : Block) : Block :=
  gangGate src mgen (.waitReport tally grp waits) (fun b =>
    if role b = 3 then addReport src tally grp waits b else b) b

/-- The master's ABORT with COLL_TIMEOUT (R337, R338): a marker of no drift position. -/
def timeoutMarker (b : Block) (r : Reports) : List Byte :=
  let own := collByTally b r.tally
  let op := match own with
    | some c => (c.round, c.op, c.agreed, c.elems)
    | none => (0, 0, 0, 0)
  leBytes 4 r.tally ++ leBytes 2 r.group ++ leBytes 1 3 ++ leBytes 1 op.1 ++ leBytes 1 op.2.1 ++ leBytes 1 op.2.2.1 ++ leBytes 2 0
    ++ leBytes 4 0x3C ++ leBytes 4 op.2.2.2 ++ leBytes 2 0 ++ leBytes 2 0 ++ leBytes 2 0xFFFF ++ leBytes 38 0

/-- A bucket that the master's ABORT ends (R337). -/
def collTimedOut (tally : Nat) (b : Block) : Block :=
  match b.colls.find? (fun c => c.tally == tally && !c.complete) with
  | none => b
  | some c =>
    collAbort c 0x3C 0 (bump (fRED_CNT2_ABORTS (bucketRed b)) 1 (setColl { c with complete := true, marker := true, sendQ := [] } b))

/-- WAIT_REPORT_GATHER_END (R337). -/
def gatherEnd (tally : Nat) (b : Block) : Block :=
  match b.reports.find? (fun r => r.tally == tally) with
  | none => b
  | some r =>
    let b := { b with reports := b.reports.filter (fun x => x.tally != tally) }
    if role b ≠ 3 then b
    else
      let silent := ((r.got.map (fun p => p.2)).filter (fun d => !r.got.any (fun p => p.1 == d))).eraseDups
      if silent.isEmpty then
        match groupOf b r.group with
        | none => b
        | some g =>
          let b := (g.drift.filter (fun d => d != devId b)).foldl (fun b d => sendMsg d 1 0 (timeoutMarker b r) b) b
          collTimedOut tally b
      else declareMembers silent 4 2 b

end Sys2Proof.Machine
end

