-- ==== Sys2Proof/Machine/AditRows.lean ====
section
/-!
DEFINITION. Adits, link flits and forwarding, row by row (11 R286–R299).
-/

namespace Sys2Proof.Machine

/-- PRESENCE_DETECTED (R291): `optical` is ADnn_OPT. -/
def presenceSeen (a : Nat) (optical : Bool) (b : Block) : Block :=
  let b := put (fAD_BLK_STAT_OPTICAL a) (b2n optical) (put (fAD_BLK_STAT_PRESENT a) 1 b)
  if aditState b a = 1 then setAdit a 2 b else b

/-- PRESENCE_LOST (R291): from TRAIN onward the adit goes to DOWN. -/
def presenceLost (a : Nat) (b : Block) : Block :=
  let b := put (fAD_BLK_STAT_PRESENT a) 0 b
  if 2 ≤ aditState b a ∧ aditState b a ≤ 6 then enterDown a b else b

/-- The part of a retrain that runs: 0 quick, 1 TRAIN, 2 ALIGN (R293). -/
def retrainPart (b : Block) (a : Nat) : Nat := (link b a).full

/-- The adit is in TRAIN, alone or in a full retrain. -/
def inTrain (b : Block) (a : Nat) : Bool := aditState b a == 2 || (aditState b a == 6 && retrainPart b a == 1)

/-- The adit is in ALIGN, alone or in a full retrain. -/
def inAlign (b : Block) (a : Nat) : Bool := aditState b a == 3 || (aditState b a == 6 && retrainPart b a == 2)

/-- TRAIN_COMPLETE (R291). -/
def trainDone (a : Nat) (reversed : Bool) (b : Block) : Block :=
  if !inTrain b a then b
  else
    let b := put (fAD_BLK_STAT_REVERSED a) (b2n reversed) b
    if aditState b a = 2 then setAdit a 3 b else setLink a { link b a with full := 2 } b

/-- TRAIN_TIMEOUT (R291, R293). -/
def trainTimeout (a : Nat) (b : Block) : Block := if inTrain b a then enterDown a b else b

/-- ALIGN_COMPLETE (R291, R293): IDENT, or UP after a full retrain. -/
def alignDone (a : Nat) (b : Block) : Block :=
  if !inAlign b a then b
  else if aditState b a = 3 then setAdit a 4 (setLink a Link.fresh b)
  else enterUp a (peerId b a) false b

/-- ALIGN_TIMEOUT (R291, R293). -/
def alignTimeout (a : Nat) (b : Block) : Block := if inAlign b a then enterDown a b else b

/-- An IDENT flit in IDENT (R292): two identical ones in a row enter UP, an ID that is not valid or not distinct holds. -/
def identReceived (a id peerAdit step : Nat) (up : Bool) (b : Block) : Block :=
  let own := devId b
  let same := (link b a).ident == some (id, peerAdit, step)
  let b := setLink a { link b a with ident := some (id, peerAdit, step) } b
  if id = own ∨ id = 0xFFFF ∨ own = 0xFFFF then raise (0x120 + a) 128 b
  else if !same then b
  else
    let forms := !isBundlePeer b id
    let b := put (fAD_PEER_PEER_STEP a) step (put (fAD_PEER_PEER_ADIT a) peerAdit (put (fAD_PEER_PEER_ID a) id b))
    let b := enterUp a id forms b
    if up then confirmLink a b else b

/-- IDENT_FLIT (R292): in UP it only tells that the peer is UP. -/
def identFlit (a id peerAdit step : Nat) (up : Bool) (b : Block) : Block :=
  if aditState b a = 4 then identReceived a id peerAdit step up b
  else if aditState b a = 5 ∧ up then confirmLink a b else b

/-- The IDENT flit that an adit sends (R292): this device's ID, the adit number, the stepping, and UP in IDFLAGS. -/
def identOut (b : Block) (a : Nat) : Out :=
  .flit a (flitBytes 4 (leBytes 2 (devId b) ++ leBytes 1 a ++ leBytes 1 (stepping b) ++ leBytes 1 (b2n (aditState b a == 5))))

/-- IDENT_SEND_TIMER (R292). -/
def identTimer (a : Nat) (b : Block) : Block :=
  if aditState b a = 4 ∨ (aditState b a = 5 ∧ (link b a).confirmed = false) then emit (identOut b a) b else b

/-- RETRAIN_TRIGGER and PEER_RETRAIN_SIGNAL (R293): an UP adit enters RETRAIN and signals its peer. -/
def retrainNow (a : Nat) (b : Block) : Block := if aditState b a = 5 then enterRetrain a true b else b

/-- QUICK_RETRAIN_COMPLETE (R293). -/
def quickDone (a : Nat) (b : Block) : Block :=
  if aditState b a = 6 ∧ retrainPart b a = 0 then enterUp a (peerId b a) false b else b

/-- QUICK_RETRAIN_FAIL (R293): the full retrain begins. -/
def quickFail (a : Nat) (b : Block) : Block :=
  if aditState b a = 6 ∧ retrainPart b a = 0 then setLink a { link b a with full := 1 } b else b

/-- DOWN_RETRY_TIMER (R291). -/
def downRetryAdit (a : Nat) (b : Block) : Block :=
  if aditState b a = 7 ∧ isSet b (fAD_CTL_EN a) then setAdit a 1 b else b

/-- ACK_FLIT (R289). -/
def ackFlit (l count : Nat) (b : Block) : Block := if linkUp b l then takeAck l count (confirmLink l b) else b

/-- NAK_FLIT (R289). -/
def nakFlit (l count : Nat) (b : Block) : Block := if linkUp b l then takeNak l count (confirmLink l b) else b

/-- REPLAY_TIMEOUT (R289): replays from the oldest flit not acknowledged. -/
def replayTimeout (l : Nat) (b : Block) : Block := if linkUp b l then replayAll l b else b

/-- A KIND that a link carries (R287, 15 R406). -/
def kindOk (l kind : Nat) : Bool := decide (kind ≤ 3) || kind == (if l < 18 then 4 else 5)

/-- A good flit by its KIND (R287, R289, R292). -/
def goodFlit (l number : Nat) (f : List Byte) (b : Block) : Block :=
  match byteAt f 2 with
  | 0 => if linkUp b l then confirmLink l b else b
  | 1 => if linkUp b l then takeData l number f b else b
  | 2 => ackFlit l (fieldAt f 3 2 % 4096) b
  | 3 => nakFlit l (fieldAt f 3 2 % 4096) b
  | 4 => identFlit l (fieldAt f 3 2) (byteAt f 5) (byteAt f 6) ((byteAt f 7).testBit 0) b
  | _ => capsFlit (l - 18) ((f.drop 3).take 7) b

/-- DATA_FLIT (R289, R293, R310), and a flit of any KIND as its 256 bytes: codewords count whatever becomes of the flit. `errors` are
the symbols in error of each codeword that it overlaps, and `number` is the flit's place in the sender's count of DATA flits. More than 16 uncorrectable codewords within 1 ms retrain the adit. -/
def dataFlit (l number : Nat) (errors : List Nat) (f : List Byte) (b : Block) : Block :=
  let b := if l < 18 ∧ linkUp b l then countFec l errors b else b
  let b :=
    if uncorrectableWords errors != 0 || !flitOk f || !kindOk l (byteAt f 2) then if linkUp b l then badFlit l b else b
    else goodFlit l number f b
  if l < 18 ∧ aditState b l = 5 ∧ 16 < (link b l).bad.length then enterRetrain l true b else b

/-- MESSAGE_FORWARD (R299): HOPS incremented, a new MSEQ, the next bundle. -/
def forwardMsg (m : Msg) (b : Block) : Block :=
  if m.dst = devId b then b else routeMsg { m with hops := m.hops + 1 } (takeMsg m b)

end Sys2Proof.Machine
end

