-- ==== Sys2Proof/Machine/QueueCtl.lean ====
section
/-!
DEFINITION. Queue control (15 R418–R420) and the canary (14 R378–R380).
-/

namespace Sys2Proof.Machine

/-! ### Queue states (15 R419, R420) -/

/-- ENABLE = 1 leaves DISABLED only with the queue's context VALID. -/
def enableOk (b : Block) (q : Nat) : Bool := qState b q != 0 || ctxValid b (qCtx b q)

/-- ENABLE = 0 needs a queue with no command running: none has dispatched without its record being visible (R419, R421). -/
def disableOk (b : Block) (q : Nat) : Bool :=
  match (cmdsOf b q).head? with
  | none => true
  | some c => c.stage == .fetched || c.stage == .held

/-- DISABLED to RUNNING: DISP_SEQ becomes NEXT_SEQ − 1 (R420). -/
def enableQueue (q : Nat) (b : Block) : Block :=
  if qState b q = 0 then
    let b := setQueue q ⟨(get b (fSQ_SEQ_NEXT_SEQ q) + 2 ^ 32 - 1) % 2 ^ 32, get b (fSQ_HEAD_HEAD q)⟩ b
    put (fSQ_STAT_STATE q) 1 (put (fSQ_CTL_ENABLE q) 1 b)
  else b

/-- To DISABLED: commands fetched and not dispatched are not fetched any more, so HEAD and NEXT_SEQ step back (log 28). -/
def disableQueue (q : Nat) (b : Block) : Block :=
  let n := (cmdsOf b q).length
  let b := put (fSQ_HEAD_HEAD q) ((get b (fSQ_HEAD_HEAD q) + 2 ^ 32 - n) % 2 ^ 32) b
  let b := put (fSQ_SEQ_NEXT_SEQ q) ((get b (fSQ_SEQ_NEXT_SEQ q) + 2 ^ 32 - n) % 2 ^ 32) b
  put (fSQ_STAT_STATE q) 0 (put (fSQ_CTL_ENABLE q) 0 { b with cmds := b.cmds.filter (fun c => c.queue != q) })

/-- An ENABLE write that R419 permits. -/
def enableMay (b : Block) (q : Nat) (en : Bool) : Bool :=
  if en then enableOk b q else qState b q == 0 || disableOk b q

/-- A write of SQ_CTL.ENABLE takes effect; one that R419 does not permit is discarded with cause 0x5. -/
def applyEnable (q : Nat) (en : Bool) (b : Block) : Block :=
  if !enableMay b q en then discard (0x400 + q) 0x054 5 b
  else if en then enableQueue q b
  else if qState b q = 0 then b else disableQueue q b

/-- RESUME of a STOPPED queue (R419). -/
def resumeQueue (q : Nat) (b : Block) : Block :=
  if qState b q = 2 then put (fSQ_STAT_STATE q) 1 b else b

/-- The DISCARDED records of descriptors that were not fetched (R419). -/
def discardedCmds (b : Block) (q : Nat) : List Cmd :=
  let head := get b (fSQ_HEAD_HEAD q)
  let seq := get b (fSQ_SEQ_NEXT_SEQ q)
  let n := (get b (fSQ_TAIL_TAIL q) + 2 ^ 32 - head) % 2 ^ 32
  (List.range n).map (fun i =>
    { freshCmd q ((head + i) % 2 ^ 32) ((seq + i) % 2 ^ 32) (qCtx b q) [] (now b) with stage := .finished, status := 0x16 })

/-- DISCARD of a STOPPED queue: every undispatched command up to TAIL completes with DISCARDED, then RUNNING (R419). -/
def discardQueue (q : Nat) (b : Block) : Block :=
  if qState b q = 2 then
    let cs := discardedCmds b q
    let b := { b with cmds := b.cmds.map (fun (c : Cmd) =>
      if c.queue == q && (c.stage == CmdStage.fetched || c.stage == CmdStage.held) then { c with stage := .finished, status := 0x16 } else c) }
    let b := { b with cmds := b.cmds ++ cs }
    let b := put (fSQ_SEQ_NEXT_SEQ q) ((get b (fSQ_SEQ_NEXT_SEQ q) + cs.length) % 2 ^ 32) b
    put (fSQ_STAT_STATE q) 1 (put (fSQ_HEAD_HEAD q) (get b (fSQ_TAIL_TAIL q)) b)
  else b

/-- R418: TAIL does not move backwards and does not pass the ring's end. -/
def tailOk (b : Block) (q v : Nat) : Bool :=
  let head := get b (fSQ_HEAD_HEAD q)
  let old := (get b (fSQ_TAIL_TAIL q) + 2 ^ 32 - head) % 2 ^ 32
  let new := (v + 2 ^ 32 - head) % 2 ^ 32
  decide (old ≤ new ∧ new ≤ ringSize b q)

/-! ### The canary (14 R378–R380) -/

/-- The eight inputs' points, limited to their caps, in the order of R378. -/
def canaryPoints (b : Block) : List Nat :=
  let n := fun k => canaryCount k b
  [min 32 (n .ceMem / 32), min 32 (n .ceChip / 32), min 64 (16 * n .ue), min 32 (4 * n .rowGroup),
   min 48 (n .replay / 256 + n .codeword / 16 + 2 * n .retrain + 8 * n .down), min 32 (4 * n .droop),
   min 48 (2 * n .fd1 + 8 * n .fd2 + n .stack), min 48 (n .nearMiss + 8 * n .fire)]

/-- Four bytes as a word. -/
def fourBytes (l : List Nat) : W32 := BitVec.ofNat 32 (leNat (l.map (fun n => BitVec.ofNat 8 n)))

/-- SCORE (R379). -/
def canaryScore (b : Block) : Nat :=
  if get b fGG_CANARY_REPLACE ≠ 0 then 255 else min 255 ((canaryPoints b).foldl (· + ·) 0)

/-- R380: a request. -/
def canaryRequest (score thresh : Nat) (b : Block) : Block :=
  if thresh ≤ score ∧ thresh ≠ 0 ∧ isSet b fGG_CANARY_ARMED then
    let b := put fGG_CANARY_ARMED 0 (put fGG_CANARY_REQUEST 1 { b with canaryLast := score })
    raise 7 16 (post 0x0402 7 (score + thresh * 256) b)
  else b

/-- R380: ARMED again, below THRESH − 16, or below 1 where THRESH is less than 16. -/
def canaryRearm (score thresh : Nat) (b : Block) : Block :=
  if score < (if thresh < 16 then 1 else thresh - 16) ∨ b.canaryLast + 32 ≤ score then put fGG_CANARY_ARMED 1 b else b

/-- CANARY_UPDATE (R379, R380): requests come before re-arming in one computation (log 29). -/
def canaryUpdate (b : Block) : Block :=
  let ps := canaryPoints b
  let s := canaryScore b
  let t := get b fGG_CANARY_CTL_THRESH
  let b := wr (wr b rGG_CANARY_IN0 (fourBytes (ps.take 4))) rGG_CANARY_IN1 (fourBytes (ps.drop 4))
  canaryRearm s t (canaryRequest s t (put fGG_CANARY_SCORE s b))

end Sys2Proof.Machine
end

