-- ==== Sys2Proof/Machine/RegApply.lean ====
section
/-!
DEFINITION. What a register write does once it takes effect: RW fields with their side effects, WO actions and W1C bits
(00 R7, 03 R69–R76 and each block's own registers).
-/

namespace Sys2Proof.Machine

/-- Page kind, instance and register at a window offset. -/
def regAt (off : Nat) : Option (PageKind × Nat × RegInfo) :=
  match pageOf (off / 4096) with
  | none => none
  | some (k, n) => match regInfo k (off % 4096) with
    | none => none
    | some i => some (k, n, i)

/-- RW bits of a register. -/
def rwBits (off : Nat) : W32 :=
  match regAt off with
  | none => 0
  | some (_, _, i) => BitVec.ofNat 32 i.rw

/-- Replaces the bits of a mask by those of a written word. -/
def mergeBits (old v m : W32) : W32 := (old &&& ~~~ m) ||| (v &&& m)

/-- The register with the RW bits of a written word. -/
def storeRw (off : Nat) (v : W32) (b : Block) : Block := wr b off (mergeBits (rd b off) v (rwBits off))

/-! ### RW fields -/

/-- BLK_EVT_EN (03 R69, R70): the bits of the page's events are kept; those set while their raw bits are 1 post one PAGE_EVENT. -/
def applyEvtEn (p : Nat) (v : W32) (b : Block) : Block :=
  let off := rBLK_EVT_EN (pageBase p)
  let new := v &&& rwBits off &&& ~~~ rd b off &&& rd b (rBLK_EVT_RAW (pageBase p))
  let b := storeRw off v b
  if new = 0 then b else post 0x0010 p new.toNat b

/-- A register whose write waits for PWR (16 R456). -/
def forPwr (off : Nat) (v : W32) (f : Block → Block) (b : Block) : Block :=
  if pwrRuns b then f b else setFw (fun w => { w with pwrWrites := w.pwrWrites ++ [(off, v)] }) b

/-- SG_PART: the general area starts where the device-owned areas end (10 R282, R283). -/
def applyPart (s : Nat) (v : W32) (b : Block) : Block :=
  let b := storeRw (rSG_PART s) v b
  put (fSG_STATE_GENERAL_MIB s) (32 - ownedBytes b s / 0x100000) b

/-- BLK_CTL of a CL page: RING, and PARK where it changes (17 R486). -/
def applyClCtl (c : Nat) (v : W32) (b : Block) : Block :=
  let b := put (fBLK_CTL_RING (clBase c)) (field v 3 0) b
  if bit v 8 == isSet b (fCL_BLK_CTL_PARK c) then b else applyPark c (bit v 8) b

/-- A register of an event ring: the records that the ring owes are written where it is no longer blocked (15 R437, R442). -/
def applyRing (off : Nat) (v : W32) (b : Block) : Block :=
  let b := storeRw off v b
  if off % 32 = 8 ∨ off % 32 = 12 then flush ((off % 4096 - 0x40) / 32) b else b

/-- The RW fields of a register take the written value. -/
def applyRw (off : Nat) (v : W32) (b : Block) : Block :=
  let o := off % 4096
  match pageOf (off / 4096) with
  | none => b
  | some (k, n) =>
    if o = 0x014 then applyEvtEn (off / 4096) v b
    else match k with
    | .pw => match o with
      | 0x040 => forPwr off v (applyConfirm v) b
      | 0x044 => forPwr off v (storeRw off v) b
      | 0x050 => forPwr off v (applyTol v) b
      | 0x060 => applyForce v b
      | _ => storeRw off v b
    | .cl => if o = 0x008 then applyClCtl n v b else storeRw off v b
    | .ev => if 0x040 ≤ o then applyRing off v b else storeRw off v b
    | .ad => if o = 0x040 then aditEnable n (bit v 0) b else storeRw off v b
    | .sg => if o = 0x040 then applyPart n v b else storeRw off v b
    | .queue => if o = 0x054 then applyEnable n (bit v 0) b else if o = 0x058 then wake (storeRw off v b) else storeRw off v b
    | .dev | .tx | .sec | .sc | .tm | .gg | .se | .ve | .op | .ld | .ch | .red => storeRw off v b

/-! ### W1C bits -/

/-- BLK_EVT_CLR (03 R69, 09 R258): clears raw bits and what they hold. -/
def applyEvtClr (p : Nat) (v : W32) (b : Block) : Block :=
  let base := pageBase p
  let b := wr b (rBLK_EVT_RAW base) (rd b (rBLK_EVT_RAW base) &&& ~~~ v)
  let b := if bit v 0 then put (fBLK_STAT_DISC_OFFSET base) 0 (put (fBLK_STAT_DISC_CAUSE base) 0 b) else b
  if 0x30 ≤ p ∧ p < 0x50 ∧ bit v 4 then
    let n := p - 0x30
    wr (wr (wr b (rSE_FAULT n) 0) (rSE_FAULT_ROW n) 0) (rSE_FAULT_COL n) 0
  else b

/-- The W1C bits of a written word act. -/
def applyW1c (off : Nat) (v : W32) (b : Block) : Block :=
  if off % 4096 = 0x018 then applyEvtClr (off / 4096) v b
  else if off = rPW_ALERT then applyAlertClear v b
  else b

/-! ### WO actions -/

/-- Clears a 64-bit counter. -/
def clear64 (lo : Nat) (b : Block) : Block := wr64 b lo 0

/-- SC_CTX_CTL.CMD (15 R416). -/
def ctxCommand (cmd c : Nat) (b : Block) : Block :=
  match cmd with
  | 1 => match ctxLoad c b with
    | some b' => b'
    | none => b
  | 2 => ctxRead c b
  | 3 => ctxUnfence c b
  | 4 => ctxInvalidate c b
  | _ => b

/-- SEC_FW_CTL.CMD (16 R460, R461). -/
def fwCommand (cmd : Nat) (b : Block) : Block :=
  match cmd with
  | 1 => stage b
  | 2 => activate b
  | 3 => fwDiscard b
  | _ => b

/-- GG_CTL (11 R311). -/
def gangCtl (v : W32) (b : Block) : Block :=
  let b := match bit v 0, gangRegions b with
    | true, some r => joinStart r b
    | _, _ => b
  let b := match bit v 1, gangRegions b with
    | true, some r => proposeStart r b
    | _, _ => b
  if bit v 2 then gangCancel b else b

/-- The cluster's safe point (03 R75): no command that uses it runs. -/
def clusterSafe (b : Block) (c : Nat) : Bool := !b.cmds.any (fun m => m.active && m.mask.testBit c)

/-- A retirement of the cluster waits for its safe point. -/
def retireWaits (b : Block) (c : Nat) : Bool := b.txn.singles.any (fun e => e.1 == rCL_RETIRE c)

/-- CL_RETIRE.RETIRE (14 R374): at the safe point; before it the request waits. -/
def retireReq (c : Nat) (port : Port) (b : Block) : Block :=
  if isSet b (fBLK_STAT_RETIRED (clBase c)) then b
  else if clusterSafe b c then retireCluster c 1 false b
  else { b with txn := { b.txn with singles := b.txn.singles ++ [(rCL_RETIRE c, 1, port)] } }

/-- Applies an operation where a bit is 1. -/
def onBit (v : W32) (i : Nat) (f : Block → Block) (b : Block) : Block := if bit v i then f b else b

/-- The WO fields of a written word act. -/
def applyWo (port : Port) (off : Nat) (v : W32) (b : Block) : Block :=
  let o := off % 4096
  match pageOf (off / 4096) with
  | none => b
  | some (k, n) => match k with
    | .pw => if o = 0x068 then onBit v 0 (moduleReset 2 (!b.pwr.modRstN)) b else b
    | .sec => if o = 0x058 then onBit v 0 attReq b else if o = 0x114 then fwCommand (field v 1 0) b else b
    | .sc => if o = 0x048 then ctxCommand (field v 10 8) (get b fSC_CTX_CTL_CTX) b else b
    | .gg => if o = 0x044 then gangCtl v b else b
    | .cl => if o = 0x0F0 then onBit v 0 (retireReq n port) b else b
    | .se => if o = 0x050 then
        let b := onBit v 0 (fun b => clear64 (rSE_CNT_RD_LO n) (clear64 (rSE_CNT_WR_LO n) (clear64 (rSE_CNT_HOIST_LO n) b))) b
        onBit v 2 (fun b => wr b (rSE_ECC n) 0) (onBit v 1 (fun b => wr b (rSE_IDX n) 0) b)
      else b
    | .ve => if o = 0x048 then
        let b := onBit v 0 (fun b => [rVE_CNT_ISSUE_LO n, rVE_CNT_WAIT_LO n, rVE_CNT_BLOCK_LO n, rVE_CNT_PACE_LO n,
          rVE_CNT_SFU_LO n].foldl (fun b o => clear64 o b) b) b
        onBit v 1 (fun b => wr b (rVE_ECC n) 0) b
      else if o = 0x080 then onBit v 31 (put (fVE_SFU_CE_TBL n) 0) b else b
    | .op => if o = 0x048 then
        let b := onBit v 0 (fun b => [rOP_CNT_STEP_LO n, rOP_CNT_BUBBLE_LO n, rOP_CNT_FREEZE_LO n, rOP_CNT_PACE_LO n].foldl
          (fun b o => clear64 o b) b) b
        onBit v 1 (fun b => wr b (rOP_ECC n) 0) b
      else b
    | .ld => if o = 0x05C then onBit v 0 (lodeClear n) b else b
    | .ad => if o = 0x040 then onBit v 1 (aditRetrain n) (onBit v 2 (aditClear n) b) else b
    | .red => if o = 0x04C then
        let b := onBit v 0 (fun b => wr (wr (wr b (rRED_CNT n) 0) (rRED_CNT2 n) 0) (rRED_ECC n) 0) b
        onBit v 1 (fun b => clear64 (rRED_BYTES_RX_LO n) (clear64 (rRED_BYTES_TX_LO n) b)) b
      else b
    | .queue => if o = 0x054 then onBit v 2 (discardQueue n) (onBit v 1 (resumeQueue n) b) else b
    | .dev | .tx | .ev | .tm | .ch | .sg => b

end Sys2Proof.Machine
end

