-- ==== Sys2Proof/Machine/StepOps.lean ====
section
/-!
DEFINITION. The pithead of a member (13 R345–R361): PITHEAD commands, COMMIT and ABORT; SECURE and RESTORE commands
(14 R392–R397, 15 R428).
-/

namespace Sys2Proof.Machine

/-! ### Amax records and cursors (04 R105, 13 R368) -/

/-- Rewrites each usable amax record of a context. -/
def eachAmax (c : Nat) (f : List Byte → List Byte) (b : Block) : Block :=
  upTo (ctx b c).amaxCnt (fun b j =>
    match amaxRecord b c j with
    | some (r, false) =>
      if (minFail (amaxChecks r)).isSome then b
      else match vWrite c ((ctx b c).amaxVa + 128 * j) (f r) [] b with
      | .ok b => b
      | .error _ => b
    | _ => b) b

/-- Usable sequential entries of a context's spore table, by stream (R366, R367). -/
def sequentialEntries (b : Block) (c : Nat) : List (Nat × List Byte) :=
  (List.range (ctx b c).sporeCnt).filterMap (fun s =>
    match sporeEntry b c s with
    | some (d, false) => if (minFail (sporeChecks d)).isNone && byteAt d 0x24 == 1 then some (s, d) else none
    | _ => none)

/-- Sets every sequential CURSOR of a context to B(E) (R368, R369). -/
def setCursors (c epoch : Nat) (b : Block) : Block :=
  (sequentialEntries b c).foldl (fun b e =>
    match vWrite c ((ctx b c).sporeVa + 64 * e.1 + 0x10) (leBytes 8 (cursorBase e.2 epoch)) [] b with
    | .ok b => b
    | .error _ => b) b

/-- The step of a context ends: streams named in it and its errors are forgotten (R350, R367). -/
def endStep (c : Nat) (b : Block) : Block :=
  let b := setPit (fun p => { p with dirty := setErase p.dirty c }) b
  { b with stepStreams := b.stepStreams.filter (fun e => e.1 / 65536 != c) }

/-! ### Applying a decision (R356, R357) -/

/-- The adopted tables that a decision needs are here (R355). -/
def tablesHere (b : Block) (d : Decision) : Bool :=
  d.newGen == gen b || (match b.gang.next with
    | some t => t.gen == d.newGen && b.gang.nextEpoch == d.epoch
    | none => false)

/-- The generation that the decision carries takes effect (R303), with its master's timeouts (R311); it answers whether this device is
absent from it (R304). -/
def adoptWith (d : Decision) (b : Block) : Bool × Block :=
  match b.gang.next with
  | some t =>
    if d.newGen = gen b ∨ t.gen ≠ d.newGen then (false, b)
    else if (tblIds t).contains (devId b) then
      let took := b.gang.nextTaken
      let times := if role b = 3 then (get b fGG_TIMEOUT_BARRIER, get b fGG_TIMEOUT_HEARTBEAT) else b.gang.nextTimes
      let b := setGang (fun g => { g with nextTaken := false }) (adopt t times.1 times.2 b)
      (false, if took then dropTaken b else b)
    else (true, b)
  | none => (false, b)

/-- Steps 1 to 3 of R356. -/
def commitEpoch (c : Nat) (b : Block) : Block :=
  let e := (ctxEpoch b c + 1) % 2 ^ 32
  let b := setCtx c { ctx b c with epoch := e } b
  endStep c (setCursors c e (eachAmax c (fun r => rollRecord r e) b))

/-- SINCE counts the COMMITs applied, and securing captures on a decision with SECURE (R356 step 5, 14 R381): a local pithead secures on the
same conditions, its own context (log 74). -/
def commitSecure (c : Nat) (secure : Bool) (b : Block) : Bool × Block :=
  let b := setPit (fun p => { p with secureAsked := setErase p.secureAsked c }) (bump fGG_SECURE_STAT_SINCE 1 b)
  if secure then secureCapture c (ctxEpoch b c) b else (false, b)

/-- The decision applied last and its epoch (R362), a local one included. -/
def showLast (commit : Bool) (epoch : Nat) (b : Block) : Block :=
  put fGG_PIT_LAST (if commit then 1 else 2) (put fGG_PIT_EPOCH_EPOCH epoch b)

/-- What an ABORT resets (R357 step 2). -/
def abortEpoch (c : Nat) (b : Block) : Block :=
  endStep c (setCursors c (ctxEpoch b c) (eachAmax c (fun r => putAt r 0x44 12 0) b))

/-- Every queue of a context stops (R357). -/
def stopContext (c : Nat) (b : Block) : Block :=
  (liveQueues b).foldl (fun b q => if qCtx b q = c then stopQueue q b else b) b

/-- The member is OPEN again after a gang decision (R358, R362); a master counts what it held. -/
def reopen (commit : Bool) (epoch : Nat) (keepFault : Bool) (b : Block) : Block :=
  let b := showLast commit epoch (setPitState 1 b)
  let b := setPit (fun p => { p with
    decision := none, done := p.decision, running := none, voted := none, hostVote := false, selfFault := p.selfFault && keepFault }) b
  if role b = 3 then reopenVotes b else b

/-- An error that met the COMMIT is the first of the next step: NOT_READY goes out (R350, R360). -/
def lateError (c : Nat) (b : Block) : Block :=
  if b.pit.late then stepError c (setPit (fun p => { p with late := false }) b) else b

/-- COMMIT_APPLY (R356), by SCH or RCX (16 R454). -/
def commitApply (b : Block) : Block :=
  match b.pit.decision, runningPit b with
  | some d, some c =>
    if !d.commit || !tablesHere b d || !dispatcherRuns b then b
    else
      let e := d.epoch
      let b := commitEpoch c.ctx b
      let a := adoptWith d b
      let s := commitSecure c.ctx d.secure a.2
      let b := finishPit c 0 0 (ctxEpoch s.2 c.ctx) (some { d with applied := now b }) s.1 false s.2
      let b := lateError c.ctx (reopen true e false b)
      if a.1 then leaveGang b else b
  | _, _ => b

/-- Commands of the step context that still run, the PITHEAD apart. -/
def stepRunning (b : Block) : Bool :=
  b.cmds.any (fun x => x.active && x.ctx == stepCtx b && b.pit.running != some (x.queue, x.count))

/-- A PITHEAD command for `e` of the step context that is fetched and has not dispatched. -/
def waitingPit (b : Block) (e : Nat) : Option Cmd :=
  b.cmds.find? (fun x => (x.stage == .fetched || x.stage == .held) && x.ctx == stepCtx b && x.cls == 0x07 && fieldAt x.desc 0x10 4 == e)

/-- R357 step 3: every command ahead of it in its queue completes with STEP_ABORTED. -/
def abortAhead (c : Cmd) (b : Block) : Block :=
  (ahead b c).foldl (fun b x => if x.stage == .finished then b else finishCmd x.queue x.count 0x44 0 b) b

/-- A device absent from the adopted table leaves once its decision is applied and the PITHEAD command of that epoch has completed,
an owed one too (R304). -/
def leaveSettle (b : Block) : Block :=
  if b.gang.left && b.pit.owed.isNone then leaveGang b else b

/-- ABORT_APPLY (R357), by SCH or RCX (16 R454): steps 2 to 4, or an owed abort. -/
def abortApply (b : Block) : Block :=
  match b.pit.decision with
  | some d =>
    if d.commit || stepRunning b || !tablesHere b d || !dispatcherRuns b then b
    else
      let c := stepCtx b
      let d := { d with applied := now b }
      let b := abortEpoch c b
      let a := adoptWith d b
      let b := a.2
      let b := match runningPit b with
        | some p => finishPit p 0x41 d.cause (ctxEpoch b c) (some d) false false b
        | none =>
          if b.pit.running.isSome then b else
          let b := match waitingPit b d.epoch with
            | some p => abortAhead p b
            | none => b
          setPit (fun p => { p with owed := some d.epoch, owedInfo := some d }) b
      let b := reopen false d.epoch b.pit.owed.isSome (stopContext c b)
      leaveSettle (setGang (fun g => { g with left := a.1 }) b)
  | none => b

/-! ### PITHEAD (R345–R351) -/

/-- A local pithead is decided and applied at once (R345). -/
def localPit (c : Cmd) (ready secureReq : Bool) (b : Block) : Block :=
  let dirty := b.pit.dirty.contains c.ctx
  let e := ctxEpoch b c.ctx
  let d : Decision := ⟨e, ready, if ready then 0 else if dirty then 5 else 1, if ready then 0xFFFF else devId b,
    secureReq || secureDue c.ctx b, false, !ready && !dirty, now b, gen b, now b⟩
  if ready then
    let s := commitSecure c.ctx d.secure (commitEpoch c.ctx b)
    finishPit c 0 0 (ctxEpoch s.2 c.ctx) (some d) s.1 true (showLast true e s.2)
  else stopContext c.ctx (finishPit c 0x41 d.cause e (some d) false true (showLast false e (abortEpoch c.ctx b)))

/-- PITHEAD (R345–R351, 14 R387): sends the vote, or decides at once. READY waits for a securing that still streams; once a decision is here it
sends none, and in OUT it completes without one (R358). -/
def pitheadRow (q n : Nat) (b : Block) : Block :=
  match findCmd b q n with
  | none => b
  | some c =>
    if !c.active || c.cls != 0x07 then b
    else
      let isGang := c.ctx == stepCtx b && role b != 0
      let ready := byteAt c.desc 0x14 == 1 && !b.pit.dirty.contains c.ctx
      let req := (byteAt c.desc 0x15).testBit 0
      let c := { c with stage := .running }
      let b := setCmd c b
      let b := if isGang then setPit (fun p => { p with running := some (q, n) }) b else b
      let b := if req then setPit (fun p => { p with secureAsked := setInsert p.secureAsked c.ctx }) b else b
      if isGang && pitState b == 6 then finishPit c (if b.pit.lost then 0x43 else 0x42) 0 (ctxEpoch b c.ctx) none false false b
      else if isGang && b.pit.decision.isSome then b
      else if ready && b.securing.isSome then b
      else if !isGang then localPit c ready req b
      else if b.pit.voted.isSome then b
      else sendVote ready (req || secureDue c.ctx b) (byteAt c.desc 0x14 == 2) b

/-! ### SECURE (15 R428) -/

/-- SECURE (R428): completes when securing is idle. -/
def secureRow (q n : Nat) (b : Block) : Block :=
  match findCmd b q n with
  | none => b
  | some c =>
    if !c.active || c.cls != 0x08 then b
    else
      let b := setCmd { c with stage := .running } b
      if get b fGG_SECURE_STAT_STATE ≠ 0 then b
      else if b.secFailed then finishCmd q n 0x1A (get b fGG_SECURE_STAT_CAUSE) b
      else finishCmd q n 0 0 b

/-! ### RESTORE (14 R392–R396) -/

/-- RSRC, DIGEST_DEV, PARTS and EPOCH of a RESTORE descriptor. -/
def Cmd.rsrc (c : Cmd) : Nat := byteAt c.desc 0x1C
/-- DIGEST_DEV. -/
def Cmd.digestDev (c : Cmd) : Nat := fieldAt c.desc 0x1A 2
/-- PARTS. -/
def Cmd.rparts (c : Cmd) : Nat := byteAt c.desc 0x1E
/-- EPOCH. -/
def Cmd.repoch (c : Cmd) : Nat := fieldAt c.desc 0x24 4

/-- The restore record (R394). -/
def restoreRecord (b : Block) (c : Cmd) (status rng skew failSection : Nat) (r : Restoring) : List Byte :=
  leBytes 4 c.repoch ++ leBytes 1 status ++ leBytes 1 rng ++ leBytes 1 r.applied ++ leBytes 1 c.rsrc ++ leBytes 2 (fieldAt c.desc 0x20 2)
    ++ leBytes 2 (fieldAt c.desc 0x18 2) ++ leBytes 2 c.digestDev ++ leBytes 2 skew ++ leBytes 4 r.sections.length
    ++ leBytes 4 r.verified ++ leBytes 4 failSection ++ leBytes 4 0 ++ leBytes 8 r.bytes ++ leBytes 8 (now b) ++ leBytes 16 0

/-- Ends a RESTORE: its record, its status; after any other status than RESTORE_DONE, a record that faults in translation included, what it
wrote is undefined and the context stays stopped (R393, R394). -/
def endRestore (c : Cmd) (status detail rng skew failSection : Nat) (r : Restoring) (b : Block) : Block :=
  let va := fieldAt c.desc 0x28 8
  let w : Except Xlat Block := if va = 0 then .ok b else vWrite c.ctx va (restoreRecord b c status rng skew failSection r) [] b
  let x := match w with
    | .ok b => (status, detail, b)
    | .error _ => (0x13, 4 * 8192 + 0x28, b)
  let b := { x.2.2 with restoring := none }
  if x.1 = 2 then finishCmd c.queue c.count 2 x.2.1 { b with restoreHeld := setErase b.restoreHeld c.ctx }
  else
    let b := match findCmd b c.queue c.count with
      | some m => undefineWritten m b
      | none => b
    finishCmd c.queue c.count x.1 x.2.1 (stopContext c.ctx { b with restoreHeld := setInsert b.restoreHeld c.ctx })

/-- A failed check without a section. -/
def failRestore (c : Cmd) (status detail : Nat) (r : Restoring) (b : Block) : Block :=
  endRestore c status detail 0 0xFFFF 0xFFFFFFFF r b

/-- Section `i` of a record: its entry. -/
def recordSection (r : List Byte) (i : Nat) : List Byte := (r.drop (0x100 + 64 * i)).take 64
/-- Payload of a section entry. -/
def recordPayload (r e : List Byte) : List Byte := (r.drop (fieldAt e 8 8)).take (fieldAt e 16 8)

/-- No reserved value in a queue image (15 R422). -/
def queueImageOk (d : List Byte) : Bool :=
  decide (fieldAt d 0 2 < 512 ∧ byteAt d 2 < 64 ∧ byteAt d 3 < 3 ∧ 4 ≤ byteAt d 4 ∧ byteAt d 4 ≤ 14 ∧ byteAt d 5 < 16)
    && zeroAt d 6 2 && zeroAt d 0x31 15

/-- No reserved value or non-zero reserved field in a section and its payload (R388, R389; 00 R10). -/
def sectionOk (r e : List Byte) : Bool :=
  let t := byteAt e 0
  let p := recordPayload r e
  decide (1 ≤ t ∧ t ≤ 6) && zeroAt e 1 1 && zeroAt e 0x18 8 && (decide (t ≤ 2) || zeroAt e 2 2) && (t == 1 || zeroAt e 4 4)
    && decide (fieldAt e 8 8 % 64 = 0)
    && (t != 3 || (List.range ((p.length - 8192) / 64)).all (fun i => queueImageOk ((p.drop (64 * i)).take 64)))
    && (t != 4 || ctxRecordOk (p.take 128))

/-- Step 1's checks of a record (R393), its reserved fields among them (00 R10). -/
def recordOk (c : Cmd) (r : List Byte) : Bool :=
  let n := fieldAt r 0x14 4
  let table := (r.drop 0x100).take (64 * n)
  zeroAt r 0x28 24 && zeroAt r 0x80 128 && decide (byteAt r 14 < 64) && (List.range n).all (fun i => sectionOk r (recordSection r i)) && fieldAt r 0 2 == 1 && byteAt r 15 == 1 && decide (256 + 64 * n ≤ r.length) && (r.drop 0x40).take 32 == shake256 table 32
    && (r.drop 0x60).take 32 == shake256 (r.take 0x60) 32 && fieldAt r 2 2 == fieldAt c.desc 0x20 2 && fieldAt r 8 4 == c.repoch

/-- The first section of a type. -/
def recordPart (r : List Byte) (typ : Nat) : Option (List Byte) :=
  (List.range (fieldAt r 0x14 4)).findSome? (fun i =>
    let e := recordSection r i
    if byteAt e 0 = typ then some (recordPayload r e) else none)

/-- Writes memory for a RESTORE and notes it. -/
def restoreWrite (c : Cmd) (va : Nat) (bs : List Byte) (b : Block) : Option Block :=
  match vaPieces b c.ctx va bs.length true with
  | .error _ => none
  | .ok ps =>
    let b := writePieces ps bs [] b
    match findCmd b c.queue c.count with
    | some m => some (setCmd { m with wrote := ps ++ m.wrote } b)
    | none => some b

/-- Step 2 (R393): the epoch, the context record, the spore table and the amax table. -/
def restoreContext (c : Cmd) (p : List Byte) (b : Block) : Option Block :=
  let x := ctx b c.ctx
  let x := { x with psidy := (byteAt p 0).testBit 1, prio := byteAt p 1, ring := byteAt p 2, epoch := c.repoch, ttPa := fieldAt p 8 8,
                    sporeVa := fieldAt p 0x10 8, sporeCnt := fieldAt p 0x18 4, amaxCnt := fieldAt p 0x1C 2, amaxVa := fieldAt p 0x20 8 }
  let b := setCtx c.ctx x b
  let s := (p.drop 128).take (64 * x.sporeCnt)
  let a := (p.drop (128 + 64 * x.sporeCnt)).take (128 * x.amaxCnt)
  match restoreWrite c x.sporeVa s b with
  | none => none
  | some b => restoreWrite c x.amaxVa a b

/-- Status and detail of a failure to find a section's place: poison in the manifest or an owner entry is consumed (04 R109), anything else is
RESTORE_MAP (R393). -/
def mapFail (b : Block) (id cause : Nat) : Nat × Nat :=
  if cause = 3 then (0x24, if get b fSC_DISPATCH_WHO = 1 then domRcx else domSch) else (0x51, id)

/-- The address to which a section is written, or the status and detail where the manifest or the owner entry does not give it (R393). -/
def restoreTarget (b : Block) (c : Cmd) (typ id blk n : Nat) : Except (Nat × Nat) Nat :=
  match readManifest b c.ctx with
  | .error e => .error (mapFail b id e)
  | .ok ms => match ms.find? (fun m => m.id == id) with
    | none => .error (0x51, id)
    | some m =>
      if typ = 2 then if !m.owned ∧ n ≤ m.bytes then .ok m.va else .error (0x51, id)
      else if !m.owned ∨ m.blocks ≤ blk then .error (0x51, id)
      else match ownedBlock b c.ctx (ctxEpoch b c.ctx) m blk with
      | .ok (d, va) => if d = devId b then .ok va else .error (0x51, id)
      | .error e => .error (mapFail b id e)

/-- Why the sections could not all be written: status, detail and the section that failed a check, with the state. -/
structure RestoreEnd where
  status : Nat
  detail : Nat
  failSection : Nat
  r : Restoring
  blk : Block
  deriving DecidableEq, Repr

/-- Outcome of writing the sections. -/
abbrev RestoreStep := Except RestoreEnd (Restoring × Block)

/-- Step 3 for one section. -/
def restoreSection (c : Cmd) (num typ id blk : Nat) (payload digest : List Byte) (rb : Restoring × Block) : RestoreStep :=
  let r := rb.1
  let b := rb.2
  match restoreTarget b c typ id blk payload.length with
  | .error e => .error ⟨e.1, e.2, num, r, b⟩
  | .ok va => match restoreWrite c va payload b with
    | none => .error ⟨0x13, 3 * 8192 + 8, 0xFFFFFFFF, r, b⟩
    | some b => .ok ({ r with sections := r.sections ++ [⟨typ, id, blk, va, payload.length, [], digest⟩], numbers := r.numbers ++ [num],
                              bytes := r.bytes + payload.length }, b)

/-- Of BLOCK and RANGE, the parts asked for that no section from number `i` on belongs to: those applied in full (R394). -/
def partsBefore (c : Cmd) (rec' : List Byte) (i : Nat) : Nat :=
  let left := fun (t : Nat) => (List.range (fieldAt rec' 0x14 4)).any (fun k => decide (i ≤ k) && byteAt (recordSection rec' k) 0 == t)
  (if c.rparts.testBit 0 && !left 1 then 1 else 0) + (if c.rparts.testBit 1 && !left 2 then 2 else 0)

/-- Step 3 over a record. -/
def restoreRecordData (c : Cmd) (rec' : List Byte) (rb : Restoring × Block) : RestoreStep :=
  (List.range (fieldAt rec' 0x14 4)).foldl (fun (a : RestoreStep) i => match a with
    | .error e => .error e
    | .ok rb =>
      let e := recordSection rec' i
      let t := byteAt e 0
      if (t = 1 ∧ c.rparts.testBit 0) ∨ (t = 2 ∧ c.rparts.testBit 1) then
        match restoreSection c i t (fieldAt e 2 2) (fieldAt e 4 4) (recordPayload rec' e) ((e.drop 0x20).take 32) rb with
        | .error x => .error { x with r := { x.r with applied := x.r.applied ||| partsBefore c rec' i } }
        | .ok rb => .ok rb
      else .ok rb) (.ok rb)

/-- Step 3 of RSRC LIVE: every block of the manifest that this device owns. -/
def restoreLiveData (c : Cmd) (bs : List (Nat × Nat × List Byte)) (rb : Restoring × Block) : RestoreStep :=
  if !c.rparts.testBit 0 then .ok rb
  else match readManifest rb.2 c.ctx with
  | .error e => .error ⟨(mapFail rb.2 0 e).1, (mapFail rb.2 0 e).2, 0xFFFFFFFF, rb.1, rb.2⟩
  | .ok ms => match dataSections rb.2 c.ctx (ctxEpoch rb.2 c.ctx) ms with
    | .error e => .error ⟨(mapFail rb.2 0 e).1, (mapFail rb.2 0 e).2, 0xFFFFFFFF, rb.1, rb.2⟩
    | .ok ss => (ss.filter (fun s => s.typ == 1)).foldl (fun (a : RestoreStep) s => match a with
      | .error e => .error e
      | .ok rb => match bs.find? (fun x => x.1 == s.id && x.2.1 == s.blk && x.2.2.length == s.bytes) with
        | none => .error ⟨0x53, 0, 0xFFFFFFFF, rb.1, rb.2⟩
        | some x => restoreSection c rb.1.sections.length 1 s.id s.blk x.2.2 [] rb) (.ok rb)

/-- Step 5 (R393, R396): a queue image replaces its queue, which stays stopped. -/
def restoreQueue (img : List Byte) (b : Block) : Block :=
  let q := fieldAt img 0 2
  if 512 ≤ q then b
  else
    let b := put (fSQ_CFG_CTX q) (byteAt img 2) (put (fSQ_CFG_SIZE_LOG2 q) (byteAt img 4) (put (fSQ_CFG_RING q) (byteAt img 5) b))
    let b := wr64 (wr64 b (rSQ_BASE_LO q) (fieldAt img 8 8)) (rSQ_CQ_LO q) (fieldAt img 0x10 8)
    let b := put (fSQ_HEAD_HEAD q) (fieldAt img 0x18 4) (put (fSQ_TAIL_TAIL q) (fieldAt img 0x1C 4) b)
    let b := put (fSQ_SEQ_NEXT_SEQ q) (fieldAt img 0x20 4) (put (fSQ_DONE_DONE_SEQ q) (fieldAt img 0x24 4) b)
    let b := put (fSQ_ERR_SEQ_SEQ q) (fieldAt img 0x2C 4) (put (fSQ_STAT_ERR_STATUS q) (byteAt img 0x30) b)
    let b := put (fSQ_STAT_STATE q) (if byteAt img 3 = 0 then 0 else 2) b
    let b := put (fSQ_CTL_ENABLE q) (if byteAt img 3 = 0 then 0 else 1) b
    setQueue q ⟨fieldAt img 0x28 4, fieldAt img 0x18 4⟩ b

/-- The tokens of a QUEUES payload. -/
def restoreTokens (c : Nat) (p : List Byte) (b : Block) : Block :=
  setCtx c { ctx b c with tokens := upTo 1024 (fun m t =>
    mapSet (0, false) m t (fieldAt p (8 * t) 4, (byteAt p (8 * t + 4)).testBit 0)) [] } b

/-- Step 5: undispatched commands of the context are dropped with the queues that held them. -/
def restoreQueues (c : Cmd) (p : List Byte) (b : Block) : Block :=
  let k := (p.length - 8192) / 64
  let b := { b with cmds := b.cmds.filter (fun x => x.ctx != c.ctx || !(x.stage == .fetched || x.stage == .held)) }
  restoreTokens c.ctx (p.drop (64 * k)) ((List.range k).foldl (fun b i => restoreQueue ((p.drop (64 * i)).take 64) b) b)

/-- Step 6 (R393). -/
def restoreTally (p : List Byte) (b : Block) : Block :=
  { b with lastGen := upTo 65536 (fun m i =>
      let v := fieldAt p (2 * i) 2
      if newer16 v (mapGet 0 m i) then mapSet 0 m i v else m) b.lastGen }

/-- Steps 5 to 8 (R393). -/
def restoreTail (c : Cmd) (r : Restoring) (b : Block) : Block :=
  let part := fun (typ bit : Nat) => if c.rparts.testBit bit && !r.record.isEmpty then recordPart r.record typ else none
  let b := match part 3 2 with
    | some p => restoreQueues c p b
    | none => b
  let b := match part 5 4 with
    | some p => restoreTally p b
    | none => b
  let r := { r with applied := c.rparts }
  let e := ctxEpoch b c.ctx
  let bad := (sequentialEntries b c.ctx).find? (fun s => fieldAt s.2 0x10 8 != cursorBase s.2 e)
  match bad with
  | some s =>
    if byteAt c.desc 0x1D = 1 then restored c r 1 s.1 (setCursors c.ctx e b)
    else
      let b := postTo (ctx b c.ctx).ring ⟨0x0405, c.ctx, 4, 0xFFFF, 0, now b, s.1⟩ b
      endRestore c 0x4A s.1 2 s.1 0xFFFFFFFF r b
  | none => restored c r 0 0xFFFF b
where
  /-- Step 8. -/
  restored (c : Cmd) (r : Restoring) (rng skew : Nat) (b : Block) : Block :=
    let b := put fGG_SECURE_STAT_SINCE 0 (endStep c.ctx b)
    let b := if role b ≠ 0 then setPitState 1 (setPit (fun p => { p with voted := none, decision := none, done := none }) b) else b
    endRestore c 2 0 rng skew 0xFFFFFFFF r b

/-- Step 4 (R393, R395): verifies sections in order until one needs DIGEST_DEV's answer. -/
def restoreVerify : (fuel : Nat) → Cmd → Restoring → Block → Block
  | 0, _, _, b => b
  | f + 1, c, r, b =>
    match r.sections[r.verified]? with
    | none => restoreTail c r b
    | some s =>
      let num := r.numbers.getD r.verified 0
      let own := match vRead b c.ctx s.va s.bytes with
        | .ok x => if x.bad then [] else sectionDigest s.typ s.id s.blk c.repoch x.bytes
        | .error _ => []
      if !s.digest.isEmpty && own != s.digest then endRestore c 0x52 num 0 0xFFFF num r b
      else if c.digestDev = 0xFFFF then restoreVerify f c { r with verified := r.verified + 1 } b
      else sendMsg c.digestDev 5 0 (digestPayload 0x20 0 s.id s.blk c.repoch (fieldAt c.desc 0x20 2) s.typ [])
        { b with restoring := some r }

/-- Steps 2 and 3, then 4, over a record or live blocks. -/
def restoreData (c : Cmd) (rec' : List Byte) (live : Option (List (Nat × Nat × List Byte))) (b : Block) : Block :=
  let r : Restoring := ⟨c.queue, c.count, [], [], 0, rec', 0, 0⟩
  let b := { b with restoring := some r }
  let x : RestoreStep := match (if c.rparts.testBit 3 && live.isNone then recordPart rec' 4 else none) with
    | some p => match restoreContext c p b with
      | some b => .ok ({ r with applied := 8 }, b)
      | none => .error ⟨0x13, 3 * 8192, 0xFFFFFFFF, r, b⟩
    | none => .ok (r, b)
  let x : RestoreStep := match x with
    | .error e => .error e
    | .ok rb => match live with
      | some bs => restoreLiveData c bs rb
      | none => restoreRecordData c rec' rb
  match x with
  | .error x =>
    if x.status = 0x24 then
      match findCmd x.blk c.queue c.count with
      | some m => abortCmd 0x24 x.detail (stopContext c.ctx x.blk) m
      | none => x.blk
    else endRestore c x.status x.detail 0 0xFFFF x.failSection x.r x.blk
  | .ok (r, b) =>
    let r := { r with applied := r.applied ||| (c.rparts &&& 3) }
    restoreVerify (r.sections.length + 1) c r b

/-- The dispatch checks that need the device's state (R392, R393). -/
def restoreCheck (b : Block) (c : Cmd) : Option Nat :=
  if c.ctx ≠ stepCtx b then some 0
  else if c.digestDev = 0xFFFF ∧ role b ≠ 0 then some 0x1A
  else if c.rsrc = 3 ∧ c.repoch ≠ ctxEpoch b c.ctx then some 0x24
  else none

/-- A whole record in memory (RSRC RECORD), its poison, or none where the address faults. -/
def recordInMemory (b : Block) (c : Cmd) : Option VRead :=
  let va := fieldAt c.desc 0x10 8
  match vRead b c.ctx va 256 with
  | .error _ => none
  | .ok h =>
    let n := fieldAt h.bytes 0x18 8
    if fieldAt h.bytes 0 2 ≠ 1 ∨ n < 256 ∨ 2 ^ 40 < n then some h
    else match vRead b c.ctx va n with
    | .ok r => some r
    | .error _ => none

/-- RESTORE (R393): a remote source is asked once, and `data` is what it has delivered. -/
def restoreRow (q n : Nat) (data : RestoreData) (b : Block) : Block :=
  match findCmd b q n with
  | none => b
  | some c =>
    if !c.active || c.cls != 0x09 || b.restoring.isSome then b
    else match restoreCheck b c with
    | some o => finishCmd q n 0x10 (invalidDetail 0 o) b
    | none =>
      let b := if c.stage == .dispatched && c.rsrc != 1 then
        sendGang (fieldAt c.desc 0x18 2) (.restoreRequest (c.rsrc == 3) (fieldAt c.desc 0x20 2) c.repoch) b else b
      let c := { c with stage := .running }
      let b := setCmd c b
      let r : Restoring := ⟨q, n, [], [], 0, [], 0, 0⟩
      let fromRecord := fun (bs : List Byte) (pois : Bool) (b : Block) =>
        if pois then failRestore c 0x53 0 r b
        else if !recordOk c bs then failRestore c 0x50 0 r b
        else restoreData c bs none b
      if c.rsrc = 1 then
        match recordInMemory b c with
        | none => failRestore c 0x13 0x10 r b
        | some x => fromRecord x.bytes x.bad b
      else match data with
      | .waiting => b
      | .absent => failRestore c 0x53 0 r b
      | .record bs pois => if c.rsrc = 2 then fromRecord bs pois b else b
      | .blocks e bs pois =>
        if c.rsrc ≠ 3 then b
        else if e ≠ c.repoch then finishCmd q n 0x10 (invalidDetail 0 0x24) b
        else if pois then failRestore c 0x53 0 r b
        else restoreData c [] (some bs) b

/-- DIGEST_ANS (R395): compares the answer with the rewritten section. -/
def digestAns (m : Msg) (b : Block) : Block :=
  let p := m.payload
  if m.cls ≠ 5 ∨ byteAt p 0 ≠ 0x21 then b
  else gated m (fun b =>
    match b.restoring with
    | none => b
    | some r => match findCmd b r.queue r.count, r.sections[r.verified]? with
      | some c, some s =>
        let num := r.numbers.getD r.verified 0
        if m.src ≠ c.digestDev ∨ fieldAt p 2 2 ≠ s.id ∨ fieldAt p 4 4 ≠ s.blk ∨ byteAt p 14 ≠ s.typ then b
        else
          let own := match vRead b c.ctx s.va s.bytes with
            | .ok x => if x.bad then [] else sectionDigest s.typ s.id s.blk c.repoch x.bytes
            | .error _ => []
          if byteAt p 1 = 0 ∨ (p.drop 0x20).take 32 ≠ own then endRestore c 0x52 num 0 0xFFFF num r b
          else restoreVerify (r.sections.length + 1) c { r with verified := r.verified + 1 } b
      | _, _ => b) b

/-- RESTORE_BARRIER_TIMEOUT (R393, R399): a source or a digest device did not answer. -/
def restoreTimeout (q n : Nat) (b : Block) : Block :=
  match findCmd b q n with
  | none => b
  | some c =>
    if c.stage != .running || c.cls != 0x09 then b
    else match b.restoring with
    | some r =>
      let num := r.numbers.getD r.verified 0
      endRestore c 0x52 num 0 0xFFFF num r b
    | none => failRestore c 0x53 0 ⟨q, n, [], [], 0, [], 0, 0⟩ b

end Sys2Proof.Machine
end

