-- ==== Sys2Proof/Machine/TxnRows.lean ====
section
/-!
DEFINITION. Register transactions, row by row (03 R71–R79, 01 R30 R31).
-/

namespace Sys2Proof.Machine

/-! ### Authority (03 R71) -/

/-- Authority of a port, as TXN_STAT.OWNER: 0 host, 1 management, 2 test. -/
def portOwner : Port → Nat
  | .ch0 | .ch1 | .txn => 0
  | .i3c => 1
  | .test => 2

/-- Requester number of a port in a page's arbiter (R72). -/
def requesterOf : Port → Nat
  | .ch0 => 0
  | .ch1 => 1
  | .i3c => 2
  | .test => 3
  | .txn => 4

/-- What R71 grants. -/
inductive Authority where
  | none | ro | rw
  deriving DecidableEq, Repr

/-- PW registers that only management writes. -/
def pwManagement (o : Nat) : Bool := o == 0x040 || o == 0x044 || o == 0x0D0 || o == 0x068 || o == 0x0C0

/-- Firmware staging registers of the SEC page. -/
def secStaging (o : Nat) : Bool := decide (0x108 ≤ o ∧ o ≤ 0x114)

/-- Bit of GRANT that gives the test authority WRITE on a page kind (18 R512). -/
def grantBit : PageKind → Option Nat
  | .cl => some 1
  | .se => some 2
  | .ve => some 3
  | .op => some 4
  | .ld => some 5
  | .ad => some 6
  | .ch => some 7
  | .sg => some 8
  | .red => some 9
  | .dev | .tx | .pw | .sec | .sc | .ev | .tm | .gg | .queue => none

/-- What the host may write: all but management's registers and the firmware staging. -/
def hostAuthority (k : PageKind) (o : Nat) : Authority :=
  if (k == .pw && pwManagement o) || (k == .sec && secStaging o) then .ro else .rw

/-- What management may write: TX, PW and the firmware staging. -/
def managementAuthority (k : PageKind) (o : Nat) : Authority :=
  if k == .tx || k == .pw || (k == .sec && secStaging o) then .rw else .ro

/-- What the test port may do: nothing without an unlock, then reads, and writes of the granted page kinds (18 R514). -/
def testAuthority (b : Block) (k : PageKind) : Authority :=
  if !isSet b fSEC_DBG_UNLOCKED then .none
  else match grantBit k with
  | some i => if b.dbg.grant.testBit i then .rw else .ro
  | none => .ro

/-- The access matrix (R71, 18 R514). -/
def authority (b : Block) (port : Port) (k : PageKind) (o : Nat) : Authority :=
  match port with
  | .ch0 | .ch1 | .txn => hostAuthority k o
  | .i3c => managementAuthority k o
  | .test => testAuthority b k

/-! ### Safe points (03 R75) -/

/-- The safe point of a page holds now; rows come between two dispatches and between two requests of a block. -/
def safePoint (b : Block) (p : Nat) : Bool :=
  match pageOf p with
  | some (.cl, n) => clusterSafe b n
  | some (.se, n) => clusterSafe b n
  | some (.ve, n) => clusterSafe b (n / 2)
  | some (.op, n) => clusterSafe b (n / 4)
  | _ => true

/-- Pages with affected engines: an epoch flip due at the same safe point comes first (01 R31). -/
def hasEngines (p : Nat) : Bool :=
  match pageOf p with
  | some (.cl, _) | some (.se, _) | some (.ve, _) | some (.op, _) | some (.sc, _) | some (.gg, _) | some (.queue, _) => true
  | _ => false

/-- The staged registers of a page take their values, oldest staged first. -/
def applyStaged (ss : List (Nat × W32)) (b : Block) : Block := ss.foldr (fun e b => applyRw e.1 e.2 b) b

/-- Commits one page (R74). -/
def commitPage (p : Nat) (b : Block) : Block :=
  raise p 2 (applyStaged (mapGet [] b.txn.staged p) (endTxn p 1 b))

/-- Commits every member in one cycle (R79); FAIL_PAGE then reads 0 (log 125). -/
def commitGroup (b : Block) : Block :=
  let ms := b.txn.members
  let ss := ms.map (fun p => mapGet [] b.txn.staged p)
  let b := ms.foldl (fun b p => endTxn p 1 b) b
  let b := ss.foldl (fun b s => applyStaged s b) b
  endTx 1 0 2 (ms.foldl (fun b p => raise p 2 b) b)

/-- Stages nothing at all. -/
def stagedEmpty (b : Block) (ms : List Nat) : Bool := ms.all (fun p => (mapGet [] b.txn.staged p).isEmpty)

/-! ### TXN_CTL and TX_CTL (03 R73, R74, R79) -/

/-- A command that the state and the owner permit: 0 none, 1 BEGIN, 2 COMMIT, 3 ROLLBACK. R74 gives cause 0x5
to a COMMIT by another or on an IDLE page; to the owner's on a page that is PENDING already it gives none, and the model gives 0x5 (log 158). -/
def controlOk (state owner who cmd : Nat) : Bool :=
  match cmd with
  | 1 => state == 0
  | 2 => state == 1 && owner == who
  | 3 => state != 0 && owner == who
  | _ => state == 0 || (owner == who && state == 1)

/-- Opens a page's transaction. -/
def openPage (who : Nat) (grp : Bool) (p : Nat) (b : Block) : Block :=
  let base := pageBase p
  put (fTXN_STAT_GROUP base) (b2n grp) (put (fTXN_STAT_STAGED base) 0 (put (fTXN_STAT_OWNER base) who (put (fTXN_STAT_STATE base) 1 b)))

/-- TXN_CTL of a page: the cause of a discard, or the block after it. -/
def pageControl (port : Port) (p : Nat) (v : W32) (b : Block) : Except Nat Block :=
  let base := pageBase p
  let cmd := field v 1 0
  if txnGroup b p then .error 8
  else if !controlOk (txnState b p) (get b (fTXN_STAT_OWNER base)) (portOwner port) cmd then
    .error (if cmd = 0 ∧ txnState b p = 2 then 6 else 5)
  else
    let b := put (fTXN_CTL_TIMEOUT base) (field v 23 8) b
    .ok (match cmd with
      | 1 => openPage (portOwner port) false p b
      | 2 => if stagedEmpty b [p] then commitPage p b else put (fTXN_STAT_STATE base) 2 b
      | 3 => rollbackOne 2 b p
      | _ => b)

/-- Pages of the valid members, ascending and without repeats. -/
def memberPages (b : Block) : List Nat :=
  (List.range 32).foldl (fun l n => if isSet b (fTX_MEMBER_VALID n) then setInsert l (get b (fTX_MEMBER_PAGE n)) else l) []

/-- A member that lets BEGIN fail (R79): unassigned, not powered, not IDLE, or without RW for the authority. -/
def memberBad (b : Block) (port : Port) (p : Nat) : Bool :=
  match pageOf p with
  | none => true
  | some (k, n) => !domOn b (pageDomain k n) || txnState b p != 0 || authority b port k 0x020 != .rw

/-- TX_CTL BEGIN (R79). -/
def txBegin (port : Port) (b : Block) : Block :=
  let ms := memberPages b
  match ms.find? (memberBad b port) with
  | some p => raise 1 4 (incr fTX_STAT_SEQ 1 (put fTX_STAT_FAIL_PAGE p (put fTX_STAT_RESULT 7 b)))
  | none =>
    let b := ms.foldl (fun b p => openPage (portOwner port) true p b) b
    let b := { b with txn := { b.txn with members := ms } }
    put fTX_STAT_OWNER (portOwner port) (put fTX_STAT_STATE 1 b)

/-- TX_CTL COMMIT (R79): with nothing staged it completes at once. -/
def txCommit (b : Block) : Block :=
  let ms := b.txn.members
  if stagedEmpty b ms then commitGroup b
  else put fTX_STAT_STATE 2 (ms.foldl (fun b p => put (fTXN_STAT_STATE (pageBase p)) 2 b) b)

/-- TX_CTL: the cause of a discard, or the block after it. -/
def txControl (port : Port) (v : W32) (b : Block) : Except Nat Block :=
  let cmd := field v 1 0
  let st := get b fTX_STAT_STATE
  if !controlOk st (get b fTX_STAT_OWNER) (portOwner port) cmd then
    .error (if cmd = 0 ∧ st = 2 then 6 else 5)
  else
    let b := put fTX_CTL_TIMEOUT (field v 23 8) b
    .ok (match cmd with
      | 1 => txBegin port b
      | 2 => txCommit b
      | 3 => rollbackGroup 2 0 b
      | _ => b)

/-! ### Safe points reached and timeouts -/

/-- An epoch flip that is due comes first (01 R31). -/
def flipFirst (ps : List Nat) (b : Block) : Block := if ps.any hasEngines then commitApply b else b

/-- TXN_SAFE_POINT_APPLY (R74, R75). -/
def txnSafeApply (p : Nat) (b : Block) : Block :=
  if txnState b p = 2 ∧ txnGroup b p = false ∧ safePoint b p then commitPage p (flipFirst [p] b) else b

/-- The row TXN_SAFE_POINT_APPLY: with `storageError` the staged values cannot be read back, and the transaction rolls back with
ROLLBACK_FAULT (R78, log 93). -/
def txnApplyRow (p : Nat) (storageError : Bool) (b : Block) : Block :=
  if storageError then rollback p 5 b else txnSafeApply p b

/-- TX_SAFE_POINT_APPLY (R79): every affected engine at a safe point together. -/
def txSafeApply (b : Block) : Block :=
  if get b fTX_STAT_STATE = 2 ∧ b.txn.members.all (safePoint b) then commitGroup (flipFirst b.txn.members b) else b

/-- The group's timeout (R77, R79): FAIL_PAGE names the lowest member whose safe point was not reached; of a transaction still OPEN,
the lowest that is not at one now, else the first (log 126). -/
def txTimeout (b : Block) : Block :=
  let ms := b.txn.members
  if get b fTX_STAT_STATE = 0 then b
  else if get b fTX_STAT_STATE = 2 ∧ ms.all (safePoint b) then commitGroup (flipFirst ms b)
  else
    let p := match ms.find? (fun p => !safePoint b p) with
      | some p => p
      | none => ms.headD 0
    rollbackGroup 3 p b

/-- TXN_TIMEOUT (R74, R77): of one page, or of the device-wide transaction. -/
def txnTimeout (p : Nat) (deviceWide : Bool) (b : Block) : Block :=
  if deviceWide then txTimeout b
  else if txnState b p = 0 ∨ txnGroup b p then b
  else if txnState b p = 2 ∧ safePoint b p then commitPage p (flipFirst [p] b)
  else rollbackOne 3 b p

/-! ### One-register writes (03 R76) -/

/-- Removes the first waiting write that a test names. -/
def takeSingle (t : Nat × W32 × Port → Bool) (b : Block) : Option ((Nat × W32 × Port) × Block) :=
  match b.txn.singles.find? t with
  | none => none
  | some e => some (e, { b with txn := { b.txn with singles := b.txn.singles.erase e } })

/-- A waiting write applies: CL_RETIRE, PARK, or the register. -/
def applySingle (e : Nat × W32 × Port) (b : Block) : Block :=
  match pageOf (e.1 / 4096) with
  | some (.cl, c) =>
    if e.1 = rCL_RETIRE c then retireCluster c 1 false b
    else if e.1 % 4096 = 0x008 then applyPark c (bit e.2.1 8) b
    else applyRw e.1 e.2.1 b
  | _ => applyRw e.1 e.2.1 b

/-- SINGLE_WRITE_APPLY (R76, 01 R31): the oldest write of the page, after an epoch flip that is due. It leaves TXN_STAT as it is
(log 124). -/
def singleApply (p : Nat) (b : Block) : Block :=
  if safePoint b p then
    match takeSingle (fun e => e.1 / 4096 == p) b with
    | some (e, b) => applySingle e (flipFirst [p] b)
    | none => b
  else b

/-- A request of CL_RETIRE waits without a limit (14 R374). -/
def timedSingle (p : Nat) (e : Nat × W32 × Port) : Bool := e.1 / 4096 == p && e.1 % 4096 != 0x0F0

/-- SINGLE_WRITE_TIMEOUT (R76): discarded with cause 0x9; a safe point in the same cycle applies it (R77). -/
def singleTimeout (p : Nat) (b : Block) : Block :=
  match takeSingle (timedSingle p) b with
  | none => b
  | some (e, b') => if safePoint b p then applySingle e (flipFirst [p] b') else discard p (e.1 % 4096) 9 b'

/-! ### Happenings in one PCLK cycle (03 R75, R77) -/

/-- R77: a ROLLBACK of a page whose safe point has been reached meets the commit, which comes first. -/
def rollbackMeets (off p : Nat) (v : W32) (b : Block) : Block :=
  if field v 1 0 ≠ 3 then b else if off = rTX_CTL then txSafeApply b else txnSafeApply p b

/-- R75: the commits and one-register writes that waited while FD3 fenced the work apply when the fence is complete. -/
def applyWaiting (b : Block) : Block :=
  let b := txSafeApply ((openPages b).foldl (fun b p => txnSafeApply p b) b)
  let ps := b.txn.singles.map (fun e => e.1 / 4096)
  ps.foldl (fun b p => singleApply p b) b

/-- FD3's fence is complete: what waited applies, then the domains go off (17 R488). -/
def fd3Settle (b : Block) : Block :=
  if b.fd.offDue then fd3Off (setFd (fun f => { f with offDue := false }) (applyWaiting b)) else b

end Sys2Proof.Machine
end

