-- ==== Sys2Proof/Machine/Access.lean ====
section
/-!
DEFINITION. Accesses to the control window and the memory window: checks, staging, holding, reads (03 R64–R76, 15 R404–R413,
17 R481 R482, 18 R514).
-/

namespace Sys2Proof.Machine

/-! ### Domains that are off (17 R482) -/

/-- A domain that the activity state has switched off, and nothing else. -/
def activityOff (b : Block) (d : Nat) : Bool :=
  let st := activity b
  ready b && decide (dom b d < 2) &&
    (if d < 32 then decide (2 ≤ st ∧ fdLevel b < 3) && (runningClusters b).contains d
     else if d < 44 ∨ d = 74 ∨ d = 75 then decide (2 ≤ st ∧ fdLevel b < 3)
     else if d < 63 then false
     else decide (st = 3))

/-- A domain whose accesses are held: off for the activity state, or parked by the governor (R482, R485). -/
def domainHeld (b : Block) (d : Nat) : Bool :=
  activityOff b d || (decide (d < 32) && dom b d == 1 && isSet b (fCL_BLK_STAT_GOV_PARKED d))

/-- Domains that a memory-window access needs (01 R18). A parked cluster's SRAM has its own access port (10 R261). -/
def memoryDomains (pa : Nat) : List Nat :=
  match rangeOf pa with
  | .hbm => [domFab 0, domFab 1, domLode (lodeOf pa)]
  | .staging s => [domFab (s / 4), domSg s]
  | .cluster n => [domFab (halfOfCluster n), n]
  | .host | .unassigned => []

/-- A memory-window access is held. -/
def memoryHeld (b : Block) (pa : Nat) : Bool := (memoryDomains pa).any (activityOff b)

/-! ### Checks of a register write -/

/-- A write carries a reserved encoding (00 R9). -/
def reservedWrite (b : Block) (k : PageKind) (n o : Nat) (v : W32) : Bool :=
  if o = 0x020 then field v 23 8 == 0
  else match k with
  | .tx => o == 0x040 && field v 23 8 == 0
  | .pw => (o == 0x044 && decide (field v 11 0 < 600)) || (o == 0x060 && field v 1 0 == 3)
      || (o == 0x068 && bit v 0 && field v 15 8 != 0xA5)
  | .sec => o == 0x110 && (field v 24 0 % 64 != 0 || decide (field v 24 0 < 64 ∨ 0x1000000 < field v 24 0))
  | .sc => o == 0x048 && (decide (5 ≤ field v 10 8) || (field v 10 8 == 1 && ctxQuiet b (field v 5 0) && (ctxLoad (field v 5 0) b).isNone))
  | .ev => decide (0x040 ≤ o) && o % 32 == 8 && (decide (field v 3 0 < 4) || field v 5 4 == 3)
  | .gg => (o == 0x064 && (field v 15 0 == 0 || decide (field v 31 16 < 10 ∨ 1000 < field v 31 16)))
      || (o == 0x0A0 && decide (4096 < field v 12 0))
  | .ld => (o == 0x040 && decide (field v 7 0 = 0 ∨ 168 < field v 7 0)) || (o == 0x044 && field v 7 0 == 0)
  | .sg => (o == 0x040 && decide (32 < field v 5 0 + field v 13 8 + (if n = 4 then 1 else 0)))
      || (o == 0x048 && decide (field v 7 0 = 0 ∨ 240 < field v 7 0))
  | .queue => (o == 0x050 && decide (field v 11 8 < 4 ∨ 14 < field v 11 8)) || (o == 0x058 && !tailOk b n v.toNat)
  | .dev | .tm | .cl | .se | .ve | .op | .ad | .ch | .red => false

/-- Gang registers of 11 R298, R311 and 13 R362, and securing registers of 14 R400, in a state that permits their write. -/
def gangWriteOk (b : Block) (o : Nat) (v : W32) : Bool :=
  if o = 0x040 then (List.range 18).all (fun a => aditState b a == 0)
  else if o = 0x044 then !(bit v 0 || bit v 1) || (gangRegions b).isSome
  else if 0x050 ≤ o ∧ o ≤ 0x064 then role b == 0 && !isSet b fGG_STATE_JOINING && !isSet b fGG_STATE_TAKEN
  else if o = 0x06C then role b == 0
  else if o = 0x090 then get b fGG_SECURE_STAT_STATE == 0 || field v 1 0 == get b fGG_SECURE_CTL_TARGET
  else if 0x094 ≤ o ∧ o ≤ 0x0C0 then get b fGG_SECURE_STAT_STATE == 0
  else true

/-- The state that a register's own description asks for (cause 0x5). -/
def stateOk (b : Block) (k : PageKind) (n o : Nat) (v : W32) : Bool :=
  match k with
  | .tx => !(decide (0x080 ≤ o) && get b fTX_STAT_STATE != 0)
  | .sec =>
    if o = 0x108 ∨ o = 0x10C ∨ o = 0x110 then fwState b == 0 || fwState b == 2
    else if o = 0x114 then (match field v 1 0 with
      | 1 => decide (fwState b < 3) && !unverified b
      | 2 => fwState b == 2
      | 3 => decide (fwState b < 3)
      | _ => true)
    else if o = 0x058 then !(bit v 0 && get b fSEC_ATT_STAT_STATE == 2)
    else true
  | .sc => !(o == 0x048 && (field v 10 8 == 1 || field v 10 8 == 3 || field v 10 8 == 4) && !ctxQuiet b (field v 5 0))
  | .ev =>
    if o < 0x040 then true
    else
      let r := (o - 0x40) / 32
      if o % 32 = 0 ∨ o % 32 = 4 then !isSet b (fEV_CFG_ENABLE r)
      else if o % 32 = 8 then !isSet b (fEV_CFG_ENABLE r) || field v 3 0 == get b (fEV_CFG_SIZE_LOG2 r)
      else true
  | .gg => gangWriteOk b o v
  | .cl =>
    let usable := usableClusters b
    if o = 0x008 then usable.contains n || bit v 8 == isSet b (fCL_BLK_CTL_PARK n)
    else if o = 0x0F0 then !(bit v 0 && usable.filter (fun c => c == n || !retireWaits b c) == [n])
    else true
  | .sg => !(o == 0x040 && isSet b (fSG_STATE_AREA_BUSY n))
  | .queue =>
    if (0x040 ≤ o ∧ o ≤ 0x050) ∨ o = 0x064 then qState b n == 0
    else if o = 0x054 then enableMay b n (bit v 0)
    else true
  | .dev | .pw | .tm | .se | .ve | .op | .ld | .ad | .ch | .red => true

/-- Registers that act in the cycle of their grant, whether or not a transaction is open (R76, 15 R416 R423 R442, 17 R475). -/
def actsAtOnce (k : PageKind) (o : Nat) (i : RegInfo) : Bool :=
  match k with
  | .queue => o == 0x058
  | .sc => o == 0x040 || o == 0x044 || o == 0x048
  | .ev => decide (0x040 ≤ o)
  | .ad => o == 0x040
  | _ => i.rw == 0 && i.w1c == 0

/-- Engine pages (R76). -/
def enginePage (k : PageKind) : Bool :=
  match k with
  | .cl | .se | .ve | .op | .sc | .gg | .queue => true
  | _ => false

/-- A write of RW fields outside a transaction that waits for the safe point (R76): a block-specific register of an engine page,
or PARK from any port (17 R486). The test port's other writes do not wait. -/
def waitsForSafePoint (b : Block) (port : Port) (k : PageKind) (n o : Nat) (i : RegInfo) (v : W32) : Bool :=
  i.rw != 0
    && ((port != .test && enginePage k && decide (0x040 ≤ o))
      || (k == .cl && o == 0x008 && bit v 8 != isSet b (fCL_BLK_CTL_PARK n)))

/-- What becomes of a register write. -/
inductive Verdict where
  | ignored
  | discarded (cause : Nat)
  | partly (cause : Nat)   -- the RW fields are discarded, the WO fields act (R76)
  | holds
  | control
  | stages
  | single
  | now
  deriving DecidableEq, Repr

/-- A write that the page's transaction keeps out: its RW fields are discarded, and its WO fields act, which are exempt (R76). -/
def keptOut (i : RegInfo) (cause : Nat) : Verdict := if i.wo = 0 then .discarded cause else .partly cause

/-- What the page's transaction makes of a write that no description exempts (R74–R76). -/
def judgeState (b : Block) (port : Port) (p : Nat) (k : PageKind) (n o : Nat) (i : RegInfo) (v : W32) : Verdict :=
  match txnState b p with
  | 1 => if get b (fTXN_STAT_OWNER (pageBase p)) != portOwner port then keptOut i 5
         else if !stateOk b k n o v then .discarded 5
         else if i.rw = 0 then .now else .stages
  | 2 => if i.rw != 0 then keptOut i 6 else if stateOk b k n o v then .now else .discarded 5
  | _ => if !stateOk b k n o v then .discarded 5
         else if waitsForSafePoint b port k n o i v then .single else .now

/-- The checks of R66–R76 on a 32-bit aligned write, in their order (log 30). -/
def judgeWrite (b : Block) (port : Port) (p : Nat) (k : PageKind) (n o : Nat) (v : W32) : Verdict :=
  if authority b port k o != .rw then .discarded 2
  else match regInfo k o with
  | none => .ignored
  | some i =>
    let d := pageDomain k n
    if i.rw = 0 ∧ i.w1c = 0 ∧ i.wo = 0 then .ignored
    else if decide (0x040 ≤ o) && !(k == .ad && o == 0x040) && !domOn b d then
      if domainHeld b d && decide (b.act.held.length < 64) then .holds else .discarded 4
    else if reservedWrite b k n o v then .discarded 1
    else if o = 0x020 ∨ (k = .tx ∧ o = 0x040) then .control
    else if actsAtOnce k o i then (if stateOk b k n o v then .now else .discarded 5)
    else judgeState b port p k n o i v

/-! ### Register writes -/

/-- Stages a register (R74); a 65th one is discarded with cause 0x7 and rolls the transaction back. -/
def stageWrite (p off : Nat) (v : W32) (b : Block) : Block × Bool :=
  let s := mapGet [] b.txn.staged p
  let kept := s.filter (fun e => e.1 != off)
  if kept.length = 64 then (rollback p 4 (discard p (off % 4096) 7 b), false)
  else
    let b := { b with txn := { b.txn with staged := mapSet [] b.txn.staged p ((off, v) :: kept) } }
    (put (fTXN_STAT_STAGED (pageBase p)) (kept.length + 1) b, true)

/-- An access is held and wakes the device (17 R481, R482). -/
def holdAccess (h : HeldAccess) (b : Block) : Block :=
  wake { b with act := { b.act with held := b.act.held ++ [h] } }

/-- Carries out a judged write: the block after it, and whether the write was not discarded. -/
def performWrite (port : Port) (p off : Nat) (v : W32) (j : Verdict) (b : Block) : Block × Bool :=
  match j with
  | .ignored => (b, true)
  | .discarded c => (discard p (off % 4096) c b, false)
  | .partly c => (applyWo port off v (discard p (off % 4096) c b), false)
  | .holds => (holdAccess ⟨port, true, off, true, leBytes 4 v.toNat, 4, 0, 0⟩ b, true)
  | .control =>
    let b := rollbackMeets off p v b
    match (if off = rTX_CTL then txControl port v b else pageControl port p v b) with
    | .ok b' => (b', true)
    | .error c => (discard p (off % 4096) c b, false)
  | .stages =>
    let r := stageWrite p off v b
    if r.2 then (applyWo port off v (applyW1c off v r.1), true) else r
  | .single =>
    let b := if off % 4096 = 0x008 then put (fBLK_CTL_RING (pageBase p)) (field v 3 0) b else b
    let e := (off, v, port)
    let b := if safePoint b p then applySingle e (flipFirst [p] b) else { b with txn := { b.txn with singles := b.txn.singles ++ [e] } }
    (applyWo port off v b, true)
  | .now => (applyWo port off v (applyW1c off v (applyRw off v b)), true)

/-- The page's arbiter grants the port (R72). -/
def granted (port : Port) (p : Nat) (b : Block) : Block :=
  (rrGrant (arbPage p) 5 (fun i => i == requesterOf port) b).2

/-- A register write of `size` bytes (R66); an unassigned page records its discards in the device page. -/
def regWriteOk (port : Port) (off size : Nat) (v : W32) (b : Block) : Block × Bool :=
  let p := off / 4096
  match pageOf p with
  | none => (discard 0 (off % 4096) 3 b, false)
  | some (k, n) =>
    let b := granted port p b
    if size ≠ 4 ∨ off % 4 ≠ 0 then (discard p (off % 4096) 3 b, false)
    else performWrite port p off v (judgeWrite b port p k n (off % 4096) v) b

/-- A register write, its effect alone. -/
def regWrite (port : Port) (off : Nat) (v : W32) (b : Block) : Block := (regWriteOk port off 4 v b).1

/-- I3C answers from the end of boot phase CLOCKS on (17 R493), while the pins are the device's (02 R46). -/
def i3cUp (b : Block) : Bool := pinsDriven b && powered b && decide (2 ≤ get b fDEV_BLK_STAT_BOOT_PHASE)

/-- An access can arrive at a port: at I3C only while it answers (02 R46). -/
def portLive (port : Port) (b : Block) : Bool := port != .i3c || i3cUp b

/-- A register write that arrives at a port. -/
def regWriteAt (port : Port) (off size : Nat) (v : W32) (b : Block) : Block :=
  if portLive port b then (regWriteOk port off size v b).1 else b

/-! ### Register reads (03 R66–R71, 05 R136) -/

/-- Offset of a 64-bit counter's _LO register. -/
def counterLo (k : PageKind) (o : Nat) : Bool :=
  match k with
  | .se => o == 0x058 || o == 0x060 || o == 0x068
  | .ve => o == 0x050 || o == 0x058 || o == 0x060 || o == 0x068 || o == 0x070
  | .op => o == 0x050 || o == 0x058 || o == 0x060 || o == 0x068
  | .tm => o == 0x040 || o == 0x048
  | .red => o == 0x050 || o == 0x058
  | _ => false

/-- The live value of a register. -/
def regValue (b : Block) (k : PageKind) (n off : Nat) : W32 :=
  let o := off % 4096
  if o = 0x018 then rd b (off - 8)
  else if o = 0x00C then setBit (rd b off) 0 (domOn b (pageDomain k n))
  else rd b off

/-- What a read changes and returns: counters capture their upper half, PEAK_W clears. -/
def readValue (k : PageKind) (n off : Nat) (b : Block) : W32 × Block :=
  let v := regValue b k n off
  if counterLo k (off % 4096) then
    (v, { b with latches := mapSet 0 b.latches (off + 4) ((rd b (off + 4)).toNat + 1) })
  else if mapGet 0 b.latches off ≠ 0 then
    (BitVec.ofNat 32 (mapGet 0 b.latches off - 1), { b with latches := mapErase b.latches off })
  else if off = rPW_POWER then (v, put fPW_POWER_PEAK_W 0 b)
  else (v, b)

/-- A register read of `size` bytes. -/
def regRead (port : Port) (off size : Nat) (b : Block) : W32 × Block :=
  let p := off / 4096
  match pageOf p with
  | none => (0, b)
  | some (k, n) =>
    let b := granted port p b
    if size ≠ 4 ∨ off % 4 ≠ 0 then (0, b)
    else if authority b port k (off % 4096) = .none then (0, b)
    else match regInfo k (off % 4096) with
    | none => (0, b)
    | some _ => readValue k n off b

/-- A read that arrives at a port, its value driven out there. -/
def regReadOut (port : Port) (off : Nat) (b : Block) : Block :=
  if !portLive port b then b
  else
    let r := regRead port off 4 b
    emit (.regRead port off r.1) r.2

/-! ### The memory window (15 R404, R411, R413, 10 R261, R282) -/

/-- Bytes of a host read: unassigned and device-owned addresses read zero. -/
def windowBytes (b : Block) (pa n : Nat) : List Byte :=
  (List.range n).map (fun i => if reachable b (pa + i) then memByte b (pa + i) else 0#8)

/-- Poison mask of a host read: bit i for line i of the data. -/
def windowPoison (b : Block) (pa n : Nat) : Nat :=
  linePoison ((List.range n).map (fun i => reachable b (pa + i) && poisoned b (pa + i)))

/-- A host write to the window: what is unassigned or device-owned takes nothing. The window's map changes at 4 KiB. -/
def windowWrite (pa : Nat) (bs : List Byte) (b : Block) : Block :=
  let k := min bs.length (4096 - pa % 4096)
  let b := if reachable b pa && 0 < k then memWrite pa (bs.take k) b else b
  if k < bs.length ∧ reachable b (pa + k) then memWrite (pa + k) (bs.drop k) b else b

/-- A host write to the memory window through a port; without the fabric of the port's half nothing is reached (01 R18). -/
def windowStore (port pa : Nat) (bs : List Byte) (b : Block) : Block :=
  if domOn b (domFab port) then windowWrite pa bs b else b

/-- Answers a host read of the memory window; without the fabric of the port's half nothing is reached (01 R18). -/
def windowAnswer (port pa n tag : Nat) (b : Block) : Block :=
  if domOn b (domFab port) then chSend port (cplDataTxn tag (windowBytes b pa n) (windowPoison b pa n)) b
  else chSend port (cplDataTxn tag (leBytes n 0) 0) b

/-- A discard that addresses no page: recorded in the device page, with an offset that the spec does not state (log 2). -/
def discardWindow (cause : Nat) (b : Block) : Block :=
  let r := drawFree b
  discard 0 (r.1 % 4096) cause r.2

/-- Chaell port of a requester. -/
def portOf (p : Nat) : Port := if p = 0 then .ch0 else .ch1

/-- Host address of a window: control window offset, or memory window PA (15 R404, R408). -/
inductive Window where
  | control (off : Nat)
  | memory (pa : Nat)
  | outside
  deriving DecidableEq, Repr

/-- Where a host address lies. -/
def windowOf (x : ChPort) (addr : Nat) : Window :=
  if x.ctrlBase ≤ addr ∧ addr < x.ctrlBase + 0x1000000 then .control (addr - x.ctrlBase)
  else if x.memBase ≤ addr ∧ addr < x.memBase + 2 ^ 40 then .memory (addr - x.memBase)
  else .outside

/-! ### Held accesses complete (17 R478, R482) -/

/-- A held access still waits for its domain. -/
def stillHeld (b : Block) (h : HeldAccess) : Bool :=
  if h.window then domainHeld b (domainOfPage (h.off / 4096)) else memoryHeld b h.off

/-- Completes one held access. -/
def completeHeld (h : HeldAccess) (b : Block) : Block :=
  if h.window then
    let b := (regWriteOk h.port h.off h.len (BitVec.ofNat 32 (leNat (h.value.take 4))) b).1
    if h.port = .test then { b with dbg := { b.dbg with winDone := true } } else b
  else if h.write then windowStore (if h.port = .ch1 then 1 else 0) h.off h.value b
  else windowAnswer (if h.port = .ch1 then 1 else 0) h.off h.len h.tag b

/-- Held accesses complete in the order of their arrival, up to one that still waits. -/
def flushHeld : (fuel : Nat) → Block → Block
  | 0, b => b
  | f + 1, b => match b.act.held with
    | [] => b
    | h :: t =>
      if stillHeld b h then b
      else flushHeld f (completeHeld h { b with act := { b.act with held := t } })

/-- The SRAM of a cluster in RETAIN has its own access port, which the control path powers for the access (10 R261). -/
def portHeld (b : Block) (pa : Nat) : Bool :=
  match rangeOf pa with
  | .cluster n => dom b n == 1
  | _ => false

/-- The control path holds an access to memory. One that only the access port of a cluster's SRAM delays is no wake cause; it
completes once those that arrived earlier have, within the 20 µs that the port may take (10 R261, R482). -/
def holdMemory (h : HeldAccess) (b : Block) : Block :=
  if memoryHeld b h.off then holdAccess h b
  else flushHeld 64 { b with act := { b.act with held := b.act.held ++ [h] } }

/-- A write of the port waits, and every later write of the port behind it (R414). -/
def writeWaits (b : Block) (p : Nat) : Bool := b.act.held.any (fun h => h.write && h.port == portOf p)

/-- A host RD (R409, R410): one completion, unless it is held. `ups` are the flips of the staging and SRAM words that it reads (04 R107,
log 133). -/
def hostRead (p : Nat) (t : ChTxn) (ups : List Upset) (b : Block) : Block :=
  let b := ups.foldl sramUpset b
  if portState b p ≠ 2 then b
  else if !portActive b p || !txnClean t false then chSend p (cplTxn t.tag 1) b
  else match windowOf (chPort b p) t.addr with
  | .control off =>
    let r := regRead (portOf p) off t.len b
    let bs := if t.len = 4 then leBytes 4 r.1.toNat else leBytes t.len 0
    chSend p (cplDataTxn t.tag bs 0) r.2
  | .memory pa =>
    if memoryHeld b pa || portHeld b pa then
      if b.act.held.length < 64 then holdMemory ⟨portOf p, false, pa, false, [], t.len, t.tag, 0⟩ b
      else chSend p (cplDataTxn t.tag (leBytes t.len 0) 0) b
    else windowAnswer p pa t.len t.tag b
  | .outside => chSend p (cplTxn t.tag 1) b

/-- A host WR (R409, R411): posted. One that follows a held write of its port waits behind it (R414). -/
def hostWr (p : Nat) (t : ChTxn) (b : Block) : Block :=
  if !portActive b p || !txnClean t true then b
  else match windowOf (chPort b p) t.addr with
  | .control off =>
    if t.poison.isSome then
      match pageOf (off / 4096) with
      | some _ => discard (off / 4096) (off % 4096) 3 b
      | none => discard 0 (off % 4096) 3 b
    else if writeWaits b p then
      if b.act.held.length < 64 then
        { b with act := { b.act with held := b.act.held ++ [⟨portOf p, true, off, true, t.data, t.len, 0, 0⟩] } }
      else match pageOf (off / 4096) with
      | some _ => discard (off / 4096) (off % 4096) 4 b
      | none => discard 0 (off % 4096) 4 b
    else (regWriteOk (portOf p) off t.len (BitVec.ofNat 32 (leNat (t.data.take 4))) b).1
  | .memory pa =>
    if t.poison.isSome then discardWindow 3 b
    else if memoryHeld b pa || portHeld b pa || writeWaits b p then
      if b.act.held.length < 64 then holdMemory ⟨portOf p, false, pa, true, t.data, t.len, 0, 0⟩ b
      else discardWindow 4 b
    else windowStore p pa t.data b
  | .outside => b

/-! ### The transaction stream (R406, R409) -/

/-- A TYPE that data follow. -/
def carriesData (kind : Nat) : Bool := kind == 2 || kind == 4 || kind == 7

/-- The poison mask's bytes in a transaction. -/
def maskLen (bs : List Byte) : Nat := if (byteAt bs 1).testBit 0 then 4 else 0

/-- Bytes of the transaction whose header stands first: header, poison mask and data. One of a reserved TYPE carries no data (log 170). -/
def txnLen (bs : List Byte) : Nat := 16 + maskLen bs + (if carriesData (byteAt bs 0) then fieldAt bs 4 2 else 0)

/-- Reads a transaction (R409, R411). -/
def parseTxn (bs : List Byte) : ChTxn :=
  ⟨byteAt bs 0, fieldAt bs 2 2, fieldAt bs 4 2, byteAt bs 6, fieldAt bs 8 8,
   if maskLen bs = 0 then none else some (BitVec.ofNat 32 (fieldAt bs 16 4)), bs.drop (16 + maskLen bs)⟩

/-- A received transaction (R409): one with a reserved value is discarded, and when it is a read answered with UNSUPPORTED. Only the
device sends INTR. -/
def takeTxn (p : Nat) (bs : List Byte) (b : Block) : Block :=
  let t := parseTxn bs
  if decide (2 ≤ byteAt bs 1) || byteAt bs 7 != 0 then
    if (t.kind = 1 ∨ t.kind = 3) ∧ portState b p = 2 then chSend p (cplTxn t.tag 1) b else b
  else match t.kind with
  | 1 => hostRead p t [] b
  | 2 => hostWr p t b
  | 3 => cfgRead p t b
  | 4 => cfgWrite p t b
  | 6 => cplIn p t b
  | 7 => cplDataIn p t b
  | _ => b

/-- Takes the whole transactions out of what a port's DATA flits have brought (R406, R409). -/
def takeTxns (p : Nat) : (fuel : Nat) → Block → Block
  | 0, b => b
  | f + 1, b =>
    let x := link b (chLink p)
    if x.part.length < 16 ∨ x.part.length < txnLen x.part then b
    else takeTxns p f (takeTxn p (x.part.take (txnLen x.part)) (setLink (chLink p) { x with part := x.part.drop (txnLen x.part) } b))

/-! ### Activity exit (R478, R482, R485) -/

/-- ACTIVITY_EXIT_COMPLETE (R478, R482). -/
def activityExit (b : Block) : Block :=
  if b.act.exiting then flushHeld 64 (exitDomains b) else b

/-- GOVERNOR_UNPARK (R485), with the held accesses that it lets go. -/
def governorUnparkRow (c : Nat) (b : Block) : Block := flushHeld 64 (governorUnpark c b)

/-! ### I3C and the test port (03 R65, 02 R47, 18 R514) -/

/-- Whole groups of four bytes as words; a shorter rest is dropped (log 123). -/
def wordGroups : (fuel : Nat) → List Byte → List W32
  | 0, _ => []
  | f + 1, bs => if bs.length < 4 then [] else BitVec.ofNat 32 (leNat (bs.take 4)) :: wordGroups f (bs.drop 4)

/-- I3C_PRIVATE_WRITE (R65): the offset advances by 4 after each group. -/
def i3cWrite (off : Nat) (data : List Byte) (b : Block) : Block :=
  if !i3cUp b then b
  else
    let step := fun (a : Nat × Block) (w : W32) => ((a.1 + 4) % 2 ^ 24, regWrite .i3c a.1 w a.2)
    let r := (wordGroups data.length data).foldl step (off % 2 ^ 24, b)
    setPwr (fun p => { p with i3cOffset := r.1 }) r.2

/-- I3C_PRIVATE_READ (R65): `words` groups from an offset. -/
def i3cRead (off words : Nat) (b : Block) : Block :=
  if !i3cUp b then b
  else
    let step := fun (a : Nat × List W32 × Block) (_ : Nat) =>
      let r := regRead .i3c a.1 4 a.2.2
      ((a.1 + 4) % 2 ^ 24, a.2.1 ++ [r.1], r.2)
    let r := (List.range words).foldl step (off % 2 ^ 24, [], b)
    emit (.i3cRead r.2.1) (setPwr (fun p => { p with i3cOffset := r.1 }) r.2.2)

/-- What Capture-DR of DBG_WINDOW takes up (R510, R514): the data in [56:25] and DONE in [57] of the access before it; the
spec does not say what the other bits capture (log 105). -/
def windowCapture (b : Block) : Block :=
  let p := drawFree b
  emit (.tdo (p.1 % 2 ^ 25 + b.dbg.winData * 2 ^ 25 + b2n b.dbg.winDone * 2 ^ 57) 58) p.2

/-- DBG_WINDOW (R510, R514): the data and DONE of the access before it are captured; then the access runs. -/
def dbgWindow (write : Bool) (off : Nat) (data : W32) (b : Block) : Block :=
  let b := windowCapture (tapSelect 0x22 b)
  if write then
    let n := b.act.held.length
    let b := regWrite .test (off % 2 ^ 24) data b
    { b with dbg := { b.dbg with winDone := decide (b.act.held.length ≤ n) } }
  else
    let r := regRead .test (off % 2 ^ 24) 4 b
    { r.2 with dbg := { r.2.dbg with winData := r.1.toNat, winDone := true } }

end Sys2Proof.Machine
end

