-- ==== Sys2Proof/Machine/RowScan.lean ====
section
/-!
DEFINITION. Row statistics (07 R189–R197), scans (08 R200–R207) and attention scores (08 R222), on FP32 words with their flags.
-/

namespace Sys2Proof.Machine

/-- A word and the flags of forming it (06 R161). -/
abbrev WFl := W32 × Nat

/-- Rounds once. -/
def rn1 (x : XR) : WFl := let o := laneRound false x; (o.w, o.fl)
/-- rn(a + b). -/
def rnAdd (a b : W32) : WFl := rn1 (xAdd (fp32 a) (fp32 b))
/-- rn(a − b). -/
def rnSub (a b : W32) : WFl := rn1 (xAdd (fp32 a) (fpNeg (fp32 b)))
/-- rn(a × b). -/
def rnMul (a b : W32) : WFl := rn1 (xMul (fp32 a) (fp32 b))
/-- rn(a ÷ b). -/
def rnDiv (a b : W32) : WFl := rn1 (xDiv (fp32 a) (fp32 b))
/-- Correctly rounded square root. -/
def rnSqrt (a : W32) : WFl := rn1 (xSqrt (fp32 a))
/-- MAX of 06 R151. -/
def wMax (a b : W32) : W32 := (laneExact false (fpMax (fp32 a) (fp32 b))).w
/-- −∞. -/
def negInf : W32 := 0xFF800000#32
/-- 1.0. -/
def oneW : W32 := 0x3F800000#32

/-- Then: the second step on the first's word, flags joined. -/
def WFl.bind (x : WFl) (f : W32 → WFl) : WFl := let y := f x.1; (y.1, x.2 ||| y.2)

/-- One level of the fixed tree (R190). -/
def treeLevel (op : W32 → W32 → WFl) : List W32 → List WFl
  | a :: b :: t => op a b :: treeLevel op t
  | [a] => [(a, 0)]
  | [] => []

/-- The fixed tree over 256 values (R190), with the flags of its adds. -/
def treeFold (op : W32 → W32 → WFl) (l : List W32) : WFl :=
  let r := upTo 8 (fun (s : List W32 × Nat) _ =>
    let n := treeLevel op s.1
    (n.map (·.1), n.foldl (fun f x => f ||| x.2) s.2)) (l, 0)
  (r.1.headD 0#32, r.2)

/-- tree(v, add). -/
def treeAdd (l : List W32) : WFl := treeFold rnAdd l
/-- tree(v, max). -/
def treeMax (l : List W32) : W32 := (treeFold (fun a b => (wMax a b, 0)) l).1

/-- Joins the flags of a list of words. -/
def allFlags (l : List WFl) : Nat := l.foldl (fun f x => f ||| x.2) 0

/-! ### Row statistics (R189–R197) -/

/-- Running state of a row: three words (R189), and the flags of the step. -/
structure RowState where
  a : W32
  b : W32
  c : W32
  fl : Nat := 0
  deriving DecidableEq, Repr

/-- Softmax operations. -/
def rowSoftmax (op : Nat) : Bool := op == 1 || op == 2 || op == 5
/-- RMS operations. -/
def rowRms (op : Nat) : Bool := op == 4 || op == 7

/-- The state at the start of a row block (R189, R191, R192, R197). -/
def rowInit (op : Nat) : RowState := if rowSoftmax op then ⟨negInf, 0#32, 0#32, 0⟩ else ⟨0#32, 0#32, 0#32, 0⟩

/-- exp in a mode (R173). -/
def sfuE (psidy : Bool) (x : W32) : WFl := sfu psidy 0x02 x
/-- ln in a mode (R174). -/
def sfuL (psidy : Bool) (x : W32) : WFl := sfu psidy 0x04 x

/-- Pass 1 of one tile row in standard order (R191, R192); `live` columns lie below ROW_LEN. -/
def rowPass1 (op t live : Nat) (xs : List W32) (s : RowState) : RowState :=
  let tag := xs.mapIdx (fun j x => (j, x))
  if rowSoftmax op then
    let mt := treeMax (tag.map (fun p => if p.1 < live then p.2 else negInf))
    let mn := wMax s.a mt
    let c : WFl := if fpEq (fp32 mn) (fp32 s.a) then (oneW, 0) else (rnSub s.a mn).bind (sfuE false)
    let e := tag.map (fun p => if mn = negInf ∨ live ≤ p.1 then ((0#32, 0) : WFl) else (rnSub p.2 mn).bind (sfuE false))
    let tr := treeAdd (e.map (·.1))
    let sc := rnMul s.b c.1
    let r := rnAdd sc.1 tr.1
    ⟨mn, r.1, 0#32, s.fl ||| c.2 ||| allFlags e ||| tr.2 ||| sc.2 ||| r.2⟩
  else
    let shift := if rowRms op then 0#32 else if t = 0 then xs.headD 0#32 else s.a
    let d := tag.map (fun p => if live ≤ p.1 ∨ rowRms op then ((0#32, 0) : WFl) else rnSub p.2 shift)
    let q := (tag.zip d).map (fun p => if live ≤ p.1.1 then ((0#32, 0) : WFl)
      else if rowRms op then rnMul p.1.2 p.1.2 else rnMul p.2.1 p.2.1)
    let td := treeAdd (d.map (·.1))
    let tq := treeAdd (q.map (·.1))
    let sd := rnAdd s.b td.1
    let sq := rnAdd s.c tq.1
    if rowRms op then ⟨shift, s.b, sq.1, s.fl ||| allFlags q ||| tq.2 ||| sq.2⟩
    else ⟨shift, sd.1, sq.1, s.fl ||| allFlags d ||| allFlags q ||| td.2 ||| tq.2 ||| sd.2 ||| sq.2⟩

/-- Pass 1 of one tile row in Psidy order (R197): elements one at a time. A row of only −inf and NaN keeps the maximum −inf, as the
pseudocode has it (log 172). -/
def rowPsidy (op live : Nat) (xs : List W32) (s : RowState) : RowState :=
  (xs.take live).foldl (fun s x =>
    if rowSoftmax op then
      if x = negInf then s
      else
        let up := fpLt (fp32 s.a) (fp32 x)
        let r : WFl := if up then ((rnSub s.a x).bind (sfuE true)).bind (rnMul s.b) else (s.b, 0)
        let m := if up then x else s.a
        let e := (rnSub x m).bind (sfuE true)
        let t := rnAdd r.1 e.1
        ⟨m, t.1, 0#32, s.fl ||| r.2 ||| e.2 ||| t.2⟩
    else
      let s1 : WFl := if rowRms op then (s.b, 0) else rnAdd s.b x
      let q := (rnMul x x).bind (rnAdd s.c)
      ⟨s.a, s1.1, q.1, s.fl ||| s1.2 ||| q.2⟩) s

/-- What finalisation keeps of a row: two words for pass 2 and two for *_STATS (R191, R192, R195, R197). -/
structure RowFinal where
  p : W32
  r : W32
  c0 : W32
  c1 : W32
  fl : Nat := 0
  deriving DecidableEq, Repr

/-- Finalisation (R188, R191, R192, R197). -/
def rowFinal (op : Nat) (psidy : Bool) (rowLen : Nat) (eps : W32) (s : RowState) : RowFinal :=
  if rowSoftmax op then
    let f : WFl := if s.a = negInf then (0#32, 0) else if op = 2 then sfuL psidy s.b else if op = 1 then rnDiv oneW s.b else (0#32, 0)
    ⟨s.a, f.1, s.a, s.b, f.2⟩
  else
    let n := round32 (.fin false rowLen 0)
    let inv := fun (v : WFl) => ((v.bind (fun v => rnAdd v eps)).bind rnSqrt).bind (fun q => rnDiv oneW q)
    if rowRms op then
      let ms := rnDiv s.c n
      let r := inv ms
      ⟨0#32, r.1, ms.1, r.1, r.2⟩
    else if psidy then
      let mu := rnDiv s.b n
      let m2 := rnMul mu.1 mu.1
      let v := (rnDiv s.c n).bind (fun q => rnSub q m2.1)
      let r := inv (wMax v.1 0#32, v.2)
      ⟨mu.1, r.1, mu.1, r.1, mu.2 ||| m2.2 ||| r.2⟩
    else
      let mu := (rnDiv s.b n).bind (rnAdd s.a)
      let dd := (rnMul s.b s.b).bind (fun x => rnDiv x n)
      let v := ((rnSub s.c dd.1).bind (fun x => rnDiv x n))
      let r := inv (wMax v.1 0#32, v.2)
      ⟨mu.1, r.1, mu.1, r.1, mu.2 ||| dd.2 ||| r.2⟩

/-- Pass 2 of one element (R191, R192). -/
def rowPass2 (op : Nat) (psidy : Bool) (f : RowFinal) (x : W32) : WFl :=
  if op = 1 then
    if f.p = negInf then (0#32, 0) else ((rnSub x f.p).bind (sfuE psidy)).bind (fun e => rnMul e f.r)
  else if op = 2 then
    if f.p = negInf then (negInf, 0) else (rnSub x f.p).bind (fun d => rnSub d f.r)
  else if op = 4 then rnMul x f.r
  else (rnSub x f.p).bind (fun d => rnMul d f.r)

/-! ### Scans (08 R200–R204) -/

/-- An element or prefix of a scan: the identity `[]`, one word, or the pair of LINREC (R200, R201). -/
abbrev ScanVal := List W32

/-- LCSE (R202). -/
def lcse (psidy : Bool) (u v : W32) : WFl :=
  let hi := wMax u v
  let lo := (laneExact false (fpMin (fp32 u) (fp32 v))).w
  if fpIsNaN (fp32 hi) then (0x7FC00000#32, 0)
  else if fpIsInf (fp32 hi) then (hi, 0)
  else if lo = negInf then (hi, 0)
  else (((rnSub lo hi).bind (sfuE psidy)).bind (rnAdd oneW)).bind (fun y => (sfuL psidy y).bind (rnAdd hi))

/-- combine(u, v) (R200–R202). -/
def scanCombine (op : Nat) (psidy : Bool) (u v : ScanVal) : ScanVal × Nat :=
  match u, v with
  | [], v => (v, 0)
  | u, [] => (u, 0)
  | au :: bu, av :: bv =>
    match op with
    | 1 =>
      let a := rnMul av au
      let b := rn1 (xFma (fp32 av) (fp32 (bu.headD 0#32)) (fp32 (bv.headD 0#32)))
      ([a.1, b.1], a.2 ||| b.2)
    | 2 => let r := rnAdd au av; ([r.1], r.2)
    | 3 => ([wMax au av], 0)
    | _ => let r := lcse psidy au av; ([r.1], r.2)

/-- The output at a position, or the carry after a segment: the prefix with the incoming carry applied (R200, R201, R204). -/
def scanApply (op : Nat) (psidy : Bool) (cin : Option W32) (l : ScanVal) : Option W32 × Nat :=
  match cin, l with
  | c, [] => (c, 0)
  | none, a :: t => (some (if op = 1 then t.headD 0#32 else a), 0)
  | some h, a :: t =>
    if op = 1 then let r := rn1 (xFma (fp32 a) (fp32 h) (fp32 (t.headD 0#32))); (some r.1, r.2)
    else
      let r := scanCombine op psidy [h] [a]
      (r.1.head?, r.2)

/-- One level of scan_tile (R203): element i takes its partner k below it. -/
def scanLevel (op : Nat) (psidy : Bool) (k : Nat) (v : List ScanVal) : List ScanVal × Nat :=
  let r := v.mapIdx (fun i x => if i < k then (x, 0) else scanCombine op psidy (v.getD (i - k) []) x)
  (r.map (·.1), r.foldl (fun f x => f ||| x.2) 0)

/-- scan_tile (R203). -/
def scanTile (op : Nat) (psidy : Bool) (v : List ScanVal) : List ScanVal × Nat :=
  upTo 7 (fun s level => let r := scanLevel op psidy (2 ^ level) s.1; (r.1, s.2 ||| r.2)) (v, 0)

/-! ### Attention scores (08 R222) -/

/-- State of a query row between the passes: m, s, the block's mt, and c once it is formed. -/
structure AttnRow where
  m : W32
  s : W32
  mt : W32
  c : W32
  fl : Nat := 0
  deriving DecidableEq, Repr

/-- Pass 1 of one tile row; masked scores count as −∞. -/
def attnPass1 (masked : Nat → Bool) (xs : List W32) (r : AttnRow) : AttnRow :=
  { r with mt := wMax r.mt (treeMax (xs.mapIdx (fun j x => if masked j then negInf else x))) }

/-- Between the passes: mn, c and the rescaled s. The result's `m` is mn. -/
def attnTurn (psidy : Bool) (r : AttnRow) : AttnRow :=
  let mn := wMax r.m r.mt
  let c : WFl := if fpEq (fp32 mn) (fp32 r.m) then (oneW, 0) else (rnSub r.m mn).bind (sfuE psidy)
  let s := rnMul r.s c.1
  ⟨mn, s.1, r.mt, c.1, c.2 ||| s.2⟩

/-- Pass 2 of one tile row: the outputs e and the new s. -/
def attnPass2 (psidy : Bool) (masked : Nat → Bool) (xs : List W32) (r : AttnRow) : AttnRow × List W32 :=
  let e := xs.mapIdx (fun j x => if r.m = negInf ∨ masked j then ((0#32, 0) : WFl) else (rnSub x r.m).bind (sfuE psidy))
  let t := treeAdd (e.map (·.1))
  let s := rnAdd r.s t.1
  ({ r with s := s.1, fl := allFlags e ||| t.2 ||| s.2 }, e.map (·.1))

end Sys2Proof.Machine
end

