-- ==== Sys2Proof/Machine/OpuOps.lean ====
section
/-!
DEFINITION. The outer-product engine (05 R110–R137): weight slots, the fill pipeline, tiles and the processing of drained rows.
-/

namespace Sys2Proof.Machine

/-- OPU `o` of the device. -/
def opu (b : Block) (o : Nat) : Opu := mapGet Opu.fresh b.opus o
/-- Replaces it. -/
def setOpu (o : Nat) (x : Opu) (b : Block) : Block := { b with opus := mapSet Opu.fresh b.opus o x }

/-- Sets a slot's state. -/
def setSlot (o k v : Nat) (b : Block) : Block := put ⟨rOP_WSLOT o, 2 * k + 1, 2 * k⟩ v b

/-- A cluster issues in an ACLK cycle (17 R484); every other cycle is a paced one. `sub` is the cycle's place among the twelve of the PCLK
cycle that TM_ACLK has reached. -/
def issues (b : Block) (sub : Nat) : Bool :=
  let l := get b fPW_PACE_LEVEL
  let c := (rd64 b rTM_ACLK_LO + sub % 12) % 64
  decide (c * l / 64 < (c + 1) * l / 64)

/-- Weight rows of one partition iteration. -/
def Cmd.rowsPerIter (c : Cmd) : Nat := c.elems 1 / 256

/-! ### Weight slots (R124–R126, 09 R246, R254) -/

/-- Words of the elements of a row: how many elements a 32-bit word carries (04 R82). -/
def perWord (fmt : Nat) : Nat := max 1 (32 / max 1 (fmtWidth fmt))

/-- A row of elements after a check of its word `k` finds bits flipped since it was written (04 R106, R107): every element that the word
carries takes its new bits and the word's poison; with whether the check counts a corrected and a new uncorrectable error. -/
def upsetWord (fmt k : Nat) (bits : List Nat) (row : List Elem) : List Elem × Bool × Bool :=
  let p := perWord fmt
  let w := max 1 (fmtWidth fmt)
  let seg := (row.drop (p * k)).take p
  let word := (seg.mapIdx (fun i v => v.raw * 2 ^ (w * i))).foldl (· + ·) 0
  let r := readUpset (BitVec.ofNat 32 word) (seg.any (fun v => v.pois)) bits
  let seg' := seg.mapIdx (fun i v =>
    let raw := r.w.toNat / 2 ^ (w * i) % 2 ^ w
    { v with raw := raw, pois := r.pois, pad := v.pad && raw == v.raw, val := if raw = v.raw then v.val else scaledValue fmt v.sc raw })
  (row.take (p * k) ++ seg' ++ row.drop (p * k + seg.length), r.ce && !seg.isEmpty, r.ue && !seg.isEmpty)

/-- The words of a row that a transfer or a buffer read finds flipped, in turn: the row, corrected errors and new uncorrectable ones. -/
def upsetRow (fmt : Nat) (ups : List Upset) (row : List Elem) : List Elem × Nat × Nat :=
  ups.foldl (fun a u =>
    let r := upsetWord fmt u.word u.bits a.1
    (r.1, a.2.1 + b2n r.2.1, a.2.2 + b2n r.2.2)) (row, 0, 0)

/-- Takes weight row `w` of a cluster, counted over the command, into its slot; none while that slot is not free. -/
def takeWeightRow (cl w : Nat) (c : Cmd) (row : List Elem) (b : Block) : Option Block :=
  let p := weightPlace cl c w
  let o := p.2.1
  let ord := p.2.2
  let s := ord % 8
  let x := opu b o
  if p.1 % 128 = 0 then
    if slotState b o s = 0 then
      some (setSlot o s 1 (setOpu o { x with slots := mapSet [] x.slots s [row], ords := mapSet 0 x.ords s (ord + 1) } b))
    else none
  else if slotState b o s = 1 ∧ mapGet 0 x.ords s = ord + 1 then
    some (setOpu o { x with slots := mapSet [] x.slots s (mapGet [] x.slots s ++ [row]) } b)
  else none

/-- Moves fetched rows of entry 1 into slots while they are taken, on a cluster that fetches its own weights. -/
def pourWeights : (fuel : Nat) → Nat → Block → Block
  | 0, _, b => b
  | f + 1, cl, b =>
    match jobCmd b (se b cl).job with
    | none => b
    | some (c, _) =>
      let s := se b cl
      if (c.tensor 1).hoist ∨ !c.hasOpu then b
      else match elemsAt (entryOf s 1) (256 * s.wrows) 256 with
        | none => b
        | some row => match takeWeightRow cl s.wrows c row b with
          | none => b
          | some b =>
            let b := consume cl 1 (256 * s.wrows) 256 b
            pourWeights f cl (setSe cl { se b cl with wrows := s.wrows + 1 } b)

/-- Corrected errors of a stream engine's operand buffers or stream block store, and new uncorrectable ones (09 R257, 14 R378). -/
def countBuf (cl ce ue : Nat) (b : Block) : Block :=
  let b := if ue = 0 then b else canaryAdd .ue ue b
  if ce = 0 then b else raise (seBase cl / 4096) 32 (bump (fSE_ECC_CE_BUF cl) ce (canaryAdd .ceChip ce b))

/-- Checks of the words that a fetch reads (04 R107, 09 R257): store 0 is the entry's operand buffer, oldest element first; store 1 the
stream block store, whose uncorrectable word the engine consumes; store 2 the cluster's own SRAM, by 32-bit word, and the stores above it
as `sramUpset` has them (log 133). A corrected word of a cluster SRAM feeds CE_CHIP and no block counter (log 133). -/
def streamUpset (cl e : Nat) (b : Block) (u : Upset) : Block :=
  match jobCmd b (se b cl).job with
  | none => b
  | some (c, _) =>
    if u.store = 0 then
      let x := entryOf (se b cl) e
      let r := upsetWord (c.tensor e).fmt u.word u.bits (x.buf.map (·.2))
      countBuf cl (b2n r.2.1) (b2n r.2.2) (setEntry cl e { x with buf := (x.buf.map (·.1)).zip r.1 } b)
    else if u.store = 1 then
      let r := readUpset (BitVec.ofNat 32 (fieldAt c.sblk (4 * u.word) 4)) false u.bits
      let s := c.sblk.take (4 * u.word) ++ leBytes 4 r.w.toNat ++ c.sblk.drop (4 * u.word + 4)
      if c.sblk.length ≤ 4 * u.word then b
      else
        let b := countBuf cl (b2n r.ce) (b2n r.ue) b
        if r.pois then poisonTask cl c.queue c.count b else modCmd c.queue c.count (fun c => { c with sblk := s }) b
    else sramUpset b (if u.store = 2 then { u with store := 11 + cl } else u)

/-- WEIGHT_SLOT_FILLED (R125): a complete FILLING slot becomes READY. -/
def slotFilled (o k : Nat) (b : Block) : Block :=
  let x := opu b o
  match jobCmd b x.job with
  | none => b
  | some (c, _) =>
    let ord := mapGet 0 x.ords k - 1
    let n := min 128 (c.klen - ord % max c.setSlots 1 * 128)
    if slotState b o k = 1 ∧ (mapGet [] x.slots k).length = n then setSlot o k 2 b else b

/-- The next cluster on the hoist chain (09 R253). -/
def nextOnChain (c : Cmd) (rank : Nat) : Option Nat := c.clusters[rank + 1]?

/-- The chain's links from cluster `cl` to cluster `d`, past the clusters it bypasses, carry something of requester `r`: 0 a tile's row, 1 a
carry (09 R253). -/
def linkGrant (cl d r : Nat) (b : Block) : Block :=
  (List.range (d - cl)).foldl (fun b i => (rrGrant (arbLink (cl + i)) 2 (fun x => x == r) b).2) b

/-- HOIST_ROW_FORWARD (09 R254): a cluster takes the next weight row into its slot and forwards it, or holds it; the chain waits behind a
cluster that holds one. -/
def hoistForward (cl : Nat) (ups : List Upset) (b : Block) : Block :=
  match jobCmd b (se b cl).job with
  | none => b
  | some (c, _) =>
    let s := se b cl
    let next := nextOnChain c s.rank
    if !(c.tensor 1).hoist || !c.hasOpu || next.any (fun d => !(se b d).hoist.isEmpty) then b
    else
      let src := if s.rank = 0 then elemsAt (entryOf s 1) (256 * s.wrows) 256 else s.hoist.head?
      match src with
      | none => b
      | some row =>
        let p := upsetRow c.wFmt ups row
        let row := p.1
        let round := s.wrows / max c.rowsPerIter 1
        let mine := decide (round * c.nclus + s.rank < c.parts)
        match (if mine then takeWeightRow cl s.wrows c row b else some b) with
        | none => b
        | some b =>
          let b := if p.2.2 = 0 then b else canaryAdd .ue p.2.2 b
          let b := if p.2.1 = 0 then b else raise (seBase cl / 4096) 32 (bump (fSE_ECC_CE_HOIST cl) p.2.1 (canaryAdd .ceChip p.2.1 b))
          let b := if s.rank = 0 then consume cl 1 (256 * s.wrows) 256 b
            else setSe cl { se b cl with hoist := s.hoist.drop 1 } b
          let b := setSe cl { se b cl with wrows := s.wrows + 1 } b
          match next with
          | none => b
          | some d => count64 (rSE_CNT_HOIST_LO cl) ((row.filter (fun v => !v.pad)).length * fmtWidth c.wFmt / 8)
              (linkGrant cl d 0 (setSe d { se b d with hoist := (se b d).hoist ++ [row] } b))

/-! ### Groups (R112–R117) -/

/-- The row vector of a step from its slots (R124, R126). -/
def weightVector (b : Block) (o : Nat) (c : Cmd) (step : Nat) : Option (List Elem × List Nat) :=
  let x := opu b o
  let k := max c.klen 1
  let base := step / k / max c.reuse 1 * c.setSlots
  let r := step % k
  let ready := fun ord => decide (2 ≤ slotState b o (ord % 8)) && mapGet 0 x.ords (ord % 8) == ord + 1
  if c.trans then
    let o0 := base + 2 * (r / 256)
    if ready o0 && ready (o0 + 1) then
      some ((mapGet [] x.slots (o0 % 8) ++ mapGet [] x.slots ((o0 + 1) % 8)).map (fun v => v.getD (r % 256) padElem),
            [o0 % 8, (o0 + 1) % 8])
    else none
  else
    let o0 := base + r / 128
    if ready o0 then some ((mapGet [] x.slots (o0 % 8)).getD (r % 128) [], [o0 % 8]) else none

/-- Slots whose last read the step was (R125). -/
def lastRead (c : Cmd) (step : Nat) (slots : List Nat) : List Nat :=
  let k := max c.klen 1
  let r := step % k
  let lastTile := step / k % max c.reuse 1 + 1 == max c.reuse 1
  let ends := if c.trans then r % 256 == 255 else r % 128 == 127 || r + 1 == k
  if lastTile && ends then slots else []

/-- Steps of the command on each OPU of a cluster. -/
def totalSteps (b : Block) (cl : Nat) (c : Cmd) : Nat := c.itersOf (se b cl).rank * c.rounds * c.klen

/-- Operands of one step, when all are present (R112). -/
def stepOperands (b : Block) (o : Nat) (c : Cmd) (step : Nat) : Option (List Elem × List Elem × List Nat) :=
  match elemsAt (entryOf (se b (o / 4)) 0) (128 * step) 128, weightVector b o c step with
  | some a, some (w, s) => some (a, w, s)
  | _, _ => none

/-- Column vectors that every participating OPU has taken leave the operand buffers. -/
def dropColumns (cl : Nat) (c : Cmd) (b : Block) : Block :=
  let least := (c.opus.map (fun i => (opu b (4 * cl + i)).step)).foldl min ((opu b (4 * cl + c.opus.headD 0)).step)
  let x := entryOf (se b cl) 0
  setEntry cl 0 { x with buf := x.buf.filter (fun v => decide (128 * least ≤ v.1)) } b

/-- The steps of the group that begins at `step`. -/
def groupOfSteps (c : Cmd) (step : Nat) : List Nat :=
  let k := max c.klen 1
  if c.groupSteps = 2 ∧ step % k + 1 < k then [step, step + 1] else [step]

/-- The group due next, when every operand of it is present. -/
def dueGroup (b : Block) (o : Nat) (c : Cmd) : Option (Grp × List Nat × List Nat) :=
  let step := (opu b o).step
  if totalSteps b (o / 4) c ≤ step then none
  else
    let ss := groupOfSteps c step
    let ops := ss.filterMap (stepOperands b o c)
    if ops.length = ss.length then
      let k := max c.klen 1
      some (⟨step / k, step % k == 0, (step + ss.length) % k == 0, ops.map (fun p => p.1), ops.map (fun p => p.2.1)⟩,
        (ops.flatMap (fun p => p.2.2)).eraseDups, (ss.zip ops).flatMap (fun p => lastRead c p.1 p.2.2.2))
    else none

/-- The tile that ADD would start is free (R115): its drain is done and its initial value is there. -/
def tileFree (x : Opu) (c : Cmd) (t : Nat) : Bool :=
  !x.switch && x.fill == t && !x.drains.any (fun d => d.1 % 2 == t % 2)
    && (c.accInit != 1 || (x.loadTile == t && x.loaded == 128) || decide (t < x.loadTile))

/-- An exact product (R122, R128); CB4 padding gives +0 (09 R231). -/
def product (c : Cmd) (a w : Elem) : Fp :=
  if w.pad ∧ c.wFmt = 7 then .fin false 0 0 else fpMul a.val w.val

/-- One cell after a group (R122): its word, and whether it rounded from finite to infinite. -/
def accumulateCell (c : Cmd) (g : Grp) (acc : W32) (m n : Nat) : W32 × Bool :=
  let pairs := g.cols.zip g.rows
  if c.int8 then
    (pairs.foldl (fun a p => a + BitVec.ofInt 32 (sx8 (p.1.getD m padElem).raw * sx8 (p.2.getD n padElem).raw)) acc, false)
  else
    match pairs.map (fun p => product c (p.1.getD m padElem) (p.2.getD n padElem)) with
    | [] => (acc, false)
    | p :: ps =>
      let s := ps.foldl fpAdd p
      let x := fpAdd (fp32 acc) s
      let r := round32 x
      (r, fpIsFin x && fpIsInf (fp32 r))

/-- The column sums that a group brings to column `n` of a tile: each leaf block's once (04 R100), and the column of the weight tensor,
which the first element that is not padding names. -/
def sumColumn (g : Grp) (h : Nat) (x : Opu) (n : Nat) : Opu :=
  let k := 256 * h + n
  let x := if g.first then { x with colSum := mapErase x.colSum k, colSeen := mapErase x.colSeen k, colIdx := mapErase x.colIdx k } else x
  g.rows.foldl (fun x v =>
    let e := v.getD n padElem
    if e.pad then x
    else
      let x := if mapGet 0 x.colIdx k = 0 then { x with colIdx := mapSet 0 x.colIdx k (e.col + 1) } else x
      if (mapGet [] x.colSeen k).contains e.leaf then x
      else { x with colSum := mapSet 0 x.colSum k (mapGet 0 x.colSum k + e.colSum), colSeen := mapSet [] x.colSeen k (e.leaf :: mapGet [] x.colSeen k) }) x

/-- A group's ADD on its tile (R122, R130): cells, sums of INT8 operands, overflow count. -/
def accumulate (o : Nat) (c : Cmd) (g : Grp) (b : Block) : Block :=
  let x := opu b o
  let h := g.tile % 2
  let start := g.first && c.accInit == 0
  let old := fun k => if start then 0#32 else mapGet 0 x.cells (32768 * h + k)
  let new := (List.range 32768).map (fun k => accumulateCell c g (old k) (k / 256) (k % 256))
  let ovf := (new.filter (fun r => r.2)).length
  let mine := ((List.range 32768).zip new).filterMap (fun p => if p.2.1 = 0#32 then none else some (32768 * h + p.1, p.2.1))
  let other := x.cells.filter (fun e => e.1 / 32768 != h)
  let rs0 := fun m => if g.first then 0 else mapGet 0 x.rowSum (128 * h + m)
  let rs := if !c.int8 then x.rowSum else (List.range 128).foldl (fun s m =>
    mapSet 0 s (128 * h + m) (g.cols.foldl (fun a v => a + sx8 (v.getD m padElem).raw) (rs0 m))) x.rowSum
  let x := { x with cells := if h = 0 then mine ++ other else other ++ mine, rowSum := rs, switch := g.last,
                    cellPois := if start then x.cellPois.filter (fun k => k / 32768 != h) else x.cellPois }
  addCounts c.queue c.count 0 ovf (setOpu o (if c.int8 then (List.range 256).foldl (sumColumn g h) x else x) b)

/-- Poison among a group's operands (R131). -/
def grpPoison (g : Option Grp) : Bool :=
  match g with
  | some g => (g.cols ++ g.rows).any (fun v => v.any (fun e => e.pois))
  | none => false

/-- A corrected error of an OPU (R131). -/
def countOpu (o : Nat) (f : Nat → Fld) (b : Block) : Block :=
  raise (opBase o / 4096) 32 (bump (f o) 1 (canaryAdd .ceChip 1 b))

/-- The check of accumulator word `k` as it is read (R131). -/
def cellUpset (o k : Nat) (bits : List Nat) (b : Block) : Block :=
  let x := opu b o
  let r := readUpset (mapGet 0 x.cells k) (x.cellPois.contains k) bits
  let b := chipUe r.ue (setOpu o { x with cells := mapSet 0 x.cells k r.w,
                                          cellPois := if r.pois then setInsert x.cellPois k else setErase x.cellPois k } b)
  if r.ce then countOpu o fOP_ECC_CE_ACC b else b

/-- Checks of the accumulator words that a group's ADD reads: store 0, by word of the tile (R131). -/
def opuUpsets (o h : Nat) (ups : List Upset) (b : Block) : Block :=
  ups.foldl (fun b u => if u.store = 0 then cellUpset o (32768 * h + u.word % 32768) u.bits b else b) b

/-- Row of a slot that a step reads: the slot's tile row, or, transposed, the column whose word of every row it reads (R126). -/
def stepReads (c : Cmd) (step slot row word : Nat) (slots : List Nat) : Bool :=
  let r := step % max c.klen 1
  slots.contains slot && (if c.trans then r % 256 / perWord c.wFmt == word else row == r % 128)

/-- The check of word `u.word` of a weight slot's rows: slot · 16,384 + row · 128 + word of the row (R124, R131). -/
def slotUpset (o : Nat) (c : Cmd) (u : Upset) (b : Block) : Block :=
  let x := opu b o
  let s := u.word / 16384
  let rows := mapGet [] x.slots s
  let row := u.word % 16384 / 128
  let r := upsetWord c.wFmt (u.word % 128) u.bits (rows.getD row [])
  let b := chipUe r.2.2 (setOpu o { x with slots := mapSet [] x.slots s (rows.set row r.1) } b)
  if r.2.1 then countOpu o fOP_ECC_CE_WS b else b

/-- Scale data of an element after its record word has been checked: the bytes of the word that concern it (R96, R131). -/
def recordElem (fmt n k : Nat) (w : W32) (pois : Bool) (v : Elem) : Elem :=
  if v.pad then v
  else
    let v := { v with pois := v.pois || pois }
    if isMX fmt then
      let s := byteAt (leBytes 4 w.toNat) (n % 4)
      { v with sc := s, val := scaledValue fmt s v.raw }
    else if fmt = 6 then { v with colSum := sx16 (fieldAt (leBytes 4 w.toNat) (2 * (n % 2)) 2) }
    else if fmt = 7 then
      let m := 2 ^ (32 * k)
      let s := v.sc % m + w.toNat * m + v.sc / (m * 2 ^ 32) * (m * 2 ^ 32)
      { v with sc := s, val := scaledValue fmt s v.raw }
    else v

/-- Columns of a weight tile, its 32-row band, and the word within a codebook, that word `i` of a slot's record area concerns (R96, R124):
four scale bytes, two column sums, or two codebook entries. -/
def recordPlace (fmt i : Nat) : Nat × List Nat × Nat :=
  if isMX fmt then (i / 8 / 8, (List.range 4).map (fun k => 32 * (i / 8 % 8) + 4 * (i % 8) + k), 0)
  else if fmt = 6 then (i / 16 / 8, (List.range 2).map (fun k => 32 * (i / 16 % 8) + 2 * (i % 16) + k), 0)
  else (i / 8, List.range 256, i % 8)

/-- The record word that the elements of a slot hold, and whether it is poisoned. -/
def recordWord (fmt k : Nat) (vs : List (Nat × Elem)) : Nat × Bool :=
  let live := vs.filter (fun p => !p.2.pad)
  let pois := !live.isEmpty && live.all (fun p => p.2.pois)
  if isMX fmt then (live.foldl (fun a p => a ||| p.2.sc * 256 ^ (p.1 % 4)) 0, pois)
  else if fmt = 6 then (live.foldl (fun a p => a ||| (p.2.colSum % 65536).toNat * 65536 ^ (p.1 % 2)) 0, pois)
  else ((live.head?.map (fun p => p.2.sc)).getD 0 / 2 ^ (32 * k) % 2 ^ 32, pois)

/-- The check of word `u.word` of the record areas: slot · 512 + word (R124, R131). -/
def recordUpset (o : Nat) (c : Cmd) (u : Upset) (b : Block) : Block :=
  let x := opu b o
  let s := u.word / 512
  let rows := mapGet [] x.slots s
  let p := recordPlace c.wFmt (u.word % 512)
  let band := (List.range 32).map (fun i => 32 * p.1 + i)
  let vs := band.flatMap (fun m => p.2.1.filterMap (fun n => ((rows.getD m [])[n]?).map (fun v => (n, v))))
  let old := recordWord c.wFmt p.2.2 vs
  let r := readUpset (BitVec.ofNat 32 old.1) old.2 u.bits
  let new := rows.mapIdx (fun m row => if band.contains m then
      row.mapIdx (fun n v => if p.2.1.contains n then recordElem c.wFmt n p.2.2 r.w r.pois v else v) else row)
  let b := chipUe r.ue (setOpu o { x with slots := mapSet [] x.slots s new } b)
  if r.ce then countOpu o fOP_ECC_CE_WS b else b

/-- Checks of the weight-store words that the group due next reads: store 1 its rows, store 2 their records (R131). -/
def weightUpsets (o : Nat) (c : Cmd) (ups : List Upset) (steps used : List Nat) (b : Block) : Block :=
  ups.foldl (fun b u =>
    if u.store = 1 then
      if steps.any (fun t => stepReads c t (u.word / 16384) (u.word % 16384 / 128) (u.word % 128) used) then slotUpset o c u b else b
    else if u.store = 2 then
      if !(isMX c.wFmt || c.wFmt == 6 || c.wFmt == 7) then b
      else if used.contains (u.word / 512) && steps.any (fun t => t % max c.klen 1 % 128 / 32 == (recordPlace c.wFmt (u.word % 512)).1)
      then recordUpset o c u b else b
    else b) b

/-- Counts a cycle by what enters B1: a step, or a bubble (R136). -/
def countCycle (o : Nat) (c : Cmd) (b : Block) : Block :=
  match dueGroup b o c with
  | none => count64 (rOP_CNT_BUBBLE_LO o) 1 b
  | some _ => count64 (rOP_CNT_STEP_LO o) 1 b

/-- A group or a bubble enters B1 in an advancing cycle (R112–R114). -/
def enterGroup (o : Nat) (c : Cmd) (ups : List Upset) (b : Block) : Option Grp × Block :=
  let x := opu b o
  match dueGroup b o c with
  | none => (none, b)
  | some (_, used, done') =>
    let b := used.foldl (fun b s => if slotState b o s = 2 then setSlot o s 3 b else b) b
    if c.slowGroup && !x.half then (none, setOpu o { opu b o with half := true } b)
    else
      let b := weightUpsets o c ups (groupOfSteps c x.step) used b
      match dueGroup b o c with
      | none => (none, b)
      | some (g, _, _) =>
        let b := done'.foldl (fun b s => setSlot o s 0 b) b
        let y := opu b o
        (some g, dropColumns (o / 4) c (setOpu o { y with half := false, step := y.step + g.cols.length } b))

/-- The OPU has work: steps to enter, a pipeline to empty, or a tile to switch. -/
def fillBusy (b : Block) (o : Nat) (c : Cmd) : Bool :=
  let x := opu b o
  decide (x.step < totalSteps b (o / 4) c) || x.b2.isSome || x.mul.isSome || x.add.isSome || x.switch

/-- OPU_GROUP_ENTRY: one ACLK cycle of the fill pipeline (R113–R117, R130, R131). -/
def opuCycle (o aclk : Nat) (ups : List Upset) (b : Block) : Block :=
  let x := opu b o
  match jobCmd b x.job with
  | none => b
  | some (c, _) =>
    if !issues b aclk then put (fOP_STATE_FROZEN o) 1 (count64 (rOP_CNT_PACE_LO o) 1 b)
    else
      let frozen := match x.add with
        | some g => g.first && !tileFree x c g.tile
        | none => false
      if frozen then put (fOP_STATE_FROZEN o) 1 (count64 (rOP_CNT_FREEZE_LO o) 1 (setOpu o { x with frozen := x.frozen + 1 } b))
      else
        let b := countCycle o c b
        let b := match x.add with
          | some g => if g.first && c.accInit == 0 then b else opuUpsets o (g.tile % 2) ups b
          | none => b
        let bad := match x.add with
          | some g => !(g.first && c.accInit == 0) && (opu b o).cellPois.any (fun k => k / 32768 == g.tile % 2)
          | none => false
        if grpPoison x.mul || bad then poisonTask (o / 4) c.queue c.count b
        else
          let b := match x.add with
            | some g => accumulate o c g b
            | none => b
          let q := enterGroup o c ups b
          put (fOP_STATE_FROZEN o) 0
            (setOpu o { opu q.2 o with b2 := q.1, mul := x.b2, add := x.mul, frozen := 0, stalled := false } q.2)

/-- Rows of the drain tile not yet accepted, and DRAIN_BUSY (R135). -/
def drainState (o : Nat) (c : Cmd) (b : Block) : Block :=
  let x := opu b o
  let rows := match x.drains with
    | (_, r) :: _ => 128 - r
    | [] => 0
  let other := fun (t : Nat) => t % 2 != x.fill % 2
  put (fOP_STATE_DRAIN_ROWS o) rows
    (put (fOP_STATE_DRAIN_BUSY o) (b2n (x.drains.any (fun d => other d.1)
      || (c.accInit == 1 && other x.loadTile && decide (0 < x.loaded ∧ x.loaded < 128)))) b)

/-- TILE_FILL_COMPLETE (R118): the filling tile becomes the drain tile; the next tile fills the other. -/
def tileComplete (o : Nat) (b : Block) : Block :=
  let x := opu b o
  match jobCmd b x.job with
  | none => b
  | some (c, _) =>
    if !x.switch then b
    else
      let b := setOpu o { x with switch := false, fill := x.fill + 1, drains := x.drains ++ [(x.fill, 0)] } b
      drainState o c (put (fOP_STATE_FILL_TILE o) ((x.fill + 1) % 2) b)

/-- The tile whose next initial row can arrive, and that row's number (R118, R119): the tile that loads, or the one after it, of the
tile that fills and the next, once its previous drain is done. -/
def loadNext (x : Opu) (total : Nat) : Option (Nat × Nat) :=
  let t := if x.loaded < 128 then x.loadTile else x.loadTile + 1
  let r := if x.loaded < 128 then x.loaded else 0
  if t < total ∧ t ≤ x.fill + 1 ∧ !x.drains.any (fun d => d.1 % 2 == t % 2) ∧ !(x.switch && t % 2 == x.fill % 2) then some (t, r) else none

/-- ACC_LOAD_ROW (R116, R119): in an ACLK cycle that is not paced, the next row of a tile's initial value arrives and is checked (R107,
log 133). A poisoned word stays poisoned in its cell (R109, R131). -/
def loadRow (o aclk : Nat) (ups : List Upset) (b : Block) : Block :=
  let x := opu b o
  match jobCmd b x.job with
  | none => b
  | some (c, _) =>
    if c.accInit ≠ 1 ∨ !issues b aclk then b
    else match loadNext x (totalSteps b (o / 4) c / max c.klen 1) with
      | none => b
      | some (t, r) =>
        let q := max c.opus.length 1
        let first := (t * q + (c.opus.idxOf? (o % 4)).getD 0) * 32768 + 256 * r
        match elemsAt (entryOf (se b (o / 4)) 2) first 256 with
        | none => b
        | some vs =>
          let p := upsetRow (c.tensor 2).fmt ups vs
          let vs := p.1
          let b := countBuf (o / 4) p.2.1 p.2.2 b
          let base := 32768 * (t % 2) + 256 * r
          let cells := ((List.range 256).zip vs).foldl (fun m p => mapSet 0 m (base + p.1) (BitVec.ofNat 32 p.2.raw)) x.cells
          let pois := ((List.range 256).zip vs).foldl (fun l p =>
            if p.2.pois then setInsert l (base + p.1) else setErase l (base + p.1)) x.cellPois
          drainState o c (consume (o / 4) 2 first 256
            (setOpu o { x with cells := cells, cellPois := pois, loadTile := t, loaded := r + 1 } b))

/-- DRAIN_STALL (R137): raised once for an unbroken run of drain freezes longer than OP_STALL_LIMIT. -/
def drainStall (o : Nat) (b : Block) : Block :=
  let x := opu b o
  let limit := get b (fOP_STALL_LIMIT_LIMIT o)
  if x.frozen ≤ limit ∨ x.stalled ∨ limit = 0 then b
  else raise (opBase o / 4096) 16 (setOpu o { x with stalled := true } b)

/-! ### Drain (R120, R121, R129, R130) -/

/-- A drained cell. -/
structure Drained where
  w : W32
  pois : Bool
  nan : Bool
  ovf : Bool
  consumed : Bool            -- a poisoned word met arithmetic
  deriving DecidableEq, Repr

/-- The drained value of cell (m, n) of tile `t` (R129). An INT32 cell is never NaN; a column of which only padding came has scale +0 and
zero point 0 (log 134). -/
def drainCell (x : Opu) (c : Cmd) (j : Job) (t m n : Nat) : Drained :=
  let h := t % 2
  let w := mapGet 0 x.cells (32768 * h + 256 * m + n)
  let p := x.cellPois.contains (32768 * h + 256 * m + n)
  if c.int8 then
    let col := mapGet 0 x.colIdx (256 * h + n)
    let at' := fun (i k : Nat) => if col = 0 then 0 else fieldAt j.colVec (8 * (col - 1) + i) k
    let sa := fp32 (BitVec.ofNat 32 (c.tensor 0).sa)
    let sn := fp32 (BitVec.ofNat 32 (at' 0 4))
    let zn := sx8 (at' 4 1)
    let za := sx8 (c.tensor 0).za
    let acc := w.toInt - zn * mapGet 0 x.rowSum (128 * h + m) - za * mapGet 0 x.colSum (256 * h + n) + c.klen * za * zn
    let s := round32 (fpMul sa sn)
    let y := round32 (fpMul (fp32 (round32 (fpInt acc))) (fp32 s))
    ⟨y, false, false, fpIsFin sa && fpIsFin sn && fpIsInf (fp32 y), p⟩
  else if c.descale && (c.aDs || c.wDs) then
    let y := round32 (fpScale (fp32 w) (-(if c.aDs then j.expA else 0) - (if c.wDs then j.expW else 0)))
    ⟨y, false, fpIsNaN (fp32 y), fpIsFin (fp32 w) && fpIsInf (fp32 y), p⟩
  else ⟨w, p, fpIsNaN (fp32 w), false, false⟩

/-- The row that an OPU offers: its tile, its row number and its cells (R120). -/
def offeredRow (b : Block) (o : Nat) : Option (Nat × Nat × List Drained) :=
  let x := opu b o
  match jobCmd b x.job, x.drains with
  | some (c, j), (t, r) :: _ => some (t, r, (List.range 256).map (drainCell x c j t r))
  | _, _ => none

/-- A row has been accepted: the next row, or the next tile's drain (R118, R120). -/
def rowAccepted (o : Nat) (c : Cmd) (row : List Drained) (b : Block) : Block :=
  let x := opu b o
  let ds := match x.drains with
    | (t, r) :: rest => if r + 1 = 128 then rest else (t, r + 1) :: rest
    | [] => []
  let b := addCounts c.queue c.count (row.filter (fun d => d.nan)).length (row.filter (fun d => d.ovf)).length b
  drainState o c (setOpu o { x with drains := ds } b)

end Sys2Proof.Machine
end

