-- ==== Sys2Proof/Machine/VeOps.lean ====
section
/-!
DEFINITION. The vector engine's tile buffers, landing, work order, lanes and output (06 R138–R169, 09 R244–R250).
-/

namespace Sys2Proof.Machine

/-- VE `v` of the device. -/
def ve (b : Block) (v : Nat) : Ve := mapGet Ve.fresh b.ves v
/-- Replaces it. -/
def setVe (v : Nat) (x : Ve) (b : Block) : Block := { b with ves := mapSet Ve.fresh b.ves v x }
/-- State of a tile buffer: 0 FREE, 1 FILLING, 2 FULL, 3 IN_USE (R141). -/
def tbState (b : Block) (v k : Nat) : Nat := field (rd b (rVE_TB v)) (2 * k + 1) (2 * k)
/-- Sets it. -/
def setTb (v k s : Nat) (b : Block) : Block := put ⟨rVE_TB v, 2 * k + 1, 2 * k⟩ s b

/-- Replaces a run of words, keeping the canonical form. -/
def spliceWords (m : SMap W32) (base : Nat) (ws : List W32) : SMap W32 :=
  m.filter (fun e => decide (e.1 < base)) ++ (ws.mapIdx (fun i w => (base + i, w))).filter (fun e => e.2 != 0#32)
    ++ m.filter (fun e => decide (base + ws.length ≤ e.1))

/-- Replaces the poison marks of a run of words. -/
def splicePois (l : List Nat) (base : Nat) (ps : List Bool) : List Nat :=
  l.filter (fun k => decide (k < base)) ++ (ps.mapIdx (fun i p => (base + i, p))).filterMap (fun e => if e.2 then some e.1 else none)
    ++ l.filter (fun k => decide (base + ps.length ≤ k))

/-- Key of the poison that the odd half of packed word `k` brings: the word is poisoned while either half is (R162). -/
def oddPois (k : Nat) : Nat := 196608 + k
/-- A word of a VE's buffers is poisoned. -/
def wordPois (x : Ve) (k : Nat) : Bool := x.pois.contains k || x.pois.contains (oddPois k)

/-- Puts a row of a tile into a buffer (R139): FP32 words, or pairs of BF16 halves. -/
def putRow (packed : Bool) (buf row : Nat) (vs : List (W32 × Bool)) (x : Ve) : Ve :=
  if packed then
    let base := 32768 * buf + 128 * row
    let at' := fun i => vs.getD i (0#32, false)
    let ws := (List.range 128).map (fun i => (at' (2 * i)).1 >>> 16 ||| ((at' (2 * i + 1)).1 &&& 0xFFFF0000#32))
    let ps := fun o => (List.range 128).map (fun i => (at' (2 * i + o)).2)
    { x with words := spliceWords x.words base ws, pois := splicePois (splicePois x.pois base (ps 0)) (oddPois base) (ps 1) }
  else
    let base := 32768 * buf + 256 * row
    { x with words := spliceWords x.words base (vs.map (·.1)),
             pois := splicePois (splicePois x.pois base (vs.map (·.2))) (oddPois base) (vs.map (fun _ => false)) }

/-- Key of the word of element (m, n). -/
def tbKey (packed : Bool) (buf m n : Nat) : Nat := if packed then 32768 * buf + 128 * m + n / 2 else 32768 * buf + 256 * m + n

/-- Element (m, n) of a buffer, packed halves as their FP32 widening. -/
def tbElem (x : Ve) (packed : Bool) (buf m n : Nat) : W32 × Bool :=
  let k := tbKey packed buf m n
  let w := mapGet 0 x.words k
  (if packed then (if n % 2 = 0 then w <<< 16 else w &&& 0xFFFF0000#32) else w, wordPois x k)

/-- Writes element (m, n) of a buffer. -/
def putElem (packed : Bool) (buf m n : Nat) (v : W32 × Bool) (x : Ve) : Ve :=
  let k := tbKey packed buf m n
  let old := mapGet 0 x.words k
  let w := if !packed then v.1 else if n % 2 = 0 then (old &&& 0xFFFF0000#32) ||| v.1 >>> 16 else (old &&& 0xFFFF#32) ||| (v.1 &&& 0xFFFF0000#32)
  let mine := if packed && n % 2 == 1 then oddPois k else k
  let ps := if packed then x.pois else setErase x.pois (oddPois k)
  { x with words := mapSet 0 x.words k w, pois := if v.2 then setInsert ps mine else setErase ps mine }

/-! ### Work of a VE (R142, R245) -/

/-- IN0 tiles of a VE over the command. -/
def veTiles (b : Block) (c : Cmd) (v : Nat) : Nat :=
  let n := c.itersOf (se b (v / 2)).rank
  let k := max c.ves.length 1
  if c.hasOpu then n * c.rounds * (c.feeders (v % 2)).length else (n + (k - 1) - vePlace c v) / k * c.inTiles

/-- Items of a VE over the command. -/
def veItems (b : Block) (c : Cmd) (v : Nat) : Nat :=
  let n := veTiles b c v
  match c.mode with
  | 0 => 0
  | 1 => n
  | 2 => n
  | 3 => n / max c.blockTiles 1 * blockItems c
  | _ => if c.isAttn then n / max c.blockTiles 1 * blockItems c else n / c.scanPasses * scanWork c

/-- Where a row of a scan result lies (08 R206, R207, R209): channel block, channel tile, and the position of row `m` when it is a
real one. -/
def scanRow (c : Cmd) (unit t m : Nat) : Nat × Nat × Option Nat :=
  let cb := unit / max c.segments 1
  let s := unit % max c.segments 1
  let x := s * c.segLen + t / max c.chTiles 1
  let real := decide (cb < c.chBlocks ∧ t / max c.chTiles 1 < c.segChunks s)
  let pos := 128 * (if c.reverse then c.chunks - 1 - x else x) + m
  (cb, t % max c.chTiles 1, if real && decide (pos < c.rowLen) then some pos else none)

/-- Query row of row `m` of a block of ATTN_SCORE. -/
def attnRowNo (c : Cmd) (rank v u m : Nat) : Nat :=
  let n := blockNo c v u
  let per := max c.blocksPerIter 1
  128 * ((rank + n / per * c.nclus) * per + n % per) + m

/-- Position of element (m, n) of a result (R250, 08 R219). -/
def positionOf (c : Cmd) (rank v : Nat) (w : Work) (m n : Nat) : Nat :=
  if c.mode ≠ 4 then (c.posBase + 32768 * resultTile c rank w.res + 256 * m + n) % 2 ^ 64
  else if c.isAttn then (65536 * (c.scanBase + attnRowNo c rank v w.block m) + 256 * w.t + n) % 2 ^ 64
  else
    let r := scanRow c w.block w.t m
    (65536 * (c.scanBase + r.2.2.getD 0) + 256 * c.chTiles * r.1 + 256 * r.2.1 + n) % 2 ^ 64

/-- Columns of row `m` that can be written (R163, 07 R194, 08 R207 R209 R222). -/
def liveCols (c : Cmd) (rank v : Nat) (w : Work) (m : Nat) : Nat :=
  match c.mode with
  | 3 => if c.isStats then 256 else min 256 (c.rowLen - 256 * w.t)
  | 4 =>
    if c.isAttn then if attnRowNo c rank v w.block m < c.nch then 256 else 0
    else
      let r := scanRow c w.block w.t m
      if r.2.2.isNone then 0 else min 256 (c.nch - (256 * c.chTiles * r.1 + 256 * r.2.1))
  | _ => 256

/-! ### Landing (R141–R143) -/

/-- Landing entry of tile `t` of a stream. -/
def landBuf (c : Cmd) (stream t : Nat) : Nat :=
  let l := c.land stream
  l.getD (t % max l.length 1) 0

/-- Rows landed of a tile. -/
def landed (x : Ve) (stream t : Nat) : Nat := mapGet 0 (if stream = 0 then x.land0 else x.land1) t

/-- The tile's entry takes its next row (R142): FREE, with no earlier tile still due in it, or FILLING with the same tile. -/
def canLand (b : Block) (v : Nat) (c : Cmd) (stream t : Nat) : Bool :=
  let x := ve b v
  let k := landBuf c stream t
  let n := max (c.land stream).length 1
  match tbState b v k with
  | 0 => decide (t < n) || landed x stream (t - n) == 128
  | 1 => mapGet (9, 0) x.held k == (stream, t)
  | _ => false

/-- Accepts a row of a tile into its landing buffer (R141, R142). -/
def landRow (v stream t : Nat) (c : Cmd) (vs : List (W32 × Bool)) (b : Block) : Block :=
  let x := ve b v
  let k := landBuf c stream t
  let r := landed x stream t
  let x := putRow c.pack k r vs { x with held := mapSet (9, 0) x.held k (stream, t) }
  let x := if stream = 0 then { x with land0 := mapSet 0 x.land0 t (r + 1) } else { x with land1 := mapSet 0 x.land1 t (r + 1) }
  setTb v k (if r + 1 = 128 then 2 else 1) (setVe v x b)

/-- The next tile and row of a stream that the stream engine delivers to a VE. -/
def nextLand (l : SMap Nat) : Nat × Nat :=
  match l.getLast? with
  | none => (0, 0)
  | some (t, r) => if r = 128 then (t + 1, 0) else (t, r)

/-- Elements as the words that a VE takes, none where widening meets poison (04 R109, 09 R244). -/
def veWords (c : Cmd) (e : Nat) (vs : List Elem) : Option (List (W32 × Bool)) :=
  let f := (c.tensor e).fmt
  if f != 0 && !c.pack && vs.any (fun v => v.pois) then none else some (vs.map (elemWord f))

/-- VE_ROW_LAND (R142): the stream engine offers the next row of IN0 or IN1, whose words are checked as they arrive (04 R107, log 133);
an OPU's row is accepted by `drainAccept`. -/
def rowLand (v stream : Nat) (ups : List Upset) (b : Block) : Block :=
  let x := ve b v
  match jobCmd b x.job with
  | none => b
  | some (c, _) =>
    let cl := v / 2
    if (stream = 0 ∧ c.hasOpu) ∨ (stream ≠ 0 ∧ !c.in1) ∨ !c.ves.contains (v % 2) then b
    else
      let (t, r) := nextLand (if stream = 0 then x.land0 else x.land1)
      let total := if stream = 0 ∨ c.mode ≠ 3 then veTiles b c v else veTiles b c v / max c.blockTiles 1 * c.rowTiles
      let e := if stream = 0 then 0 else 3
      let n := if stream = 0 then clusterIdx c v c.inTiles t else readNo c v t
      let first := 32768 * n + 256 * r
      if total ≤ t ∨ !canLand b v c stream t then b
      else match elemsAt (entryOf (se b cl) e) first 256 with
        | none => b
        | some vs =>
          let p := upsetRow (c.tensor e).fmt ups vs
          let b := countBuf cl p.2.1 p.2.2 b
          match veWords c e p.1 with
          | none => poisonTask cl c.queue c.count b
          | some ws => consume cl e first 256 (landRow v stream t c ws b)

/-- LANDING_BUFFER_RELEASE (R143): the buffers whose last read is done return to FREE. -/
def bufferRelease (v : Nat) (b : Block) : Block :=
  let x := ve b v
  x.release.foldl (fun b k => setTb v k 0 b)
    (setVe v { x with release := [], held := x.release.foldl (fun h k => mapErase h k) x.held } b)

/-! ### Lanes (R148–R157) -/

/-- What an element's words read: command, job, buffers of IN0 and IN1, vectors, and its position's base. -/
structure LaneEnv where
  c : Cmd
  j : Job
  in0 : Nat
  in1 : Nat
  rowv : List (W32 × Bool)
  colv : List (W32 × Bool)
  tbl : List (Nat × W32)           -- elements whose SFU evaluation reads a table word that is wrong and not seen to be, with its result
  deriving DecidableEq, Repr

/-- An element under way. -/
structure LaneRun where
  x : W32
  xp : Bool
  tmps : List (Nat × W32 × Bool)   -- buffers written, newest first
  fl : Nat := 0
  nans : Nat := 0
  ovfs : Nat := 0
  used : Bool := false             -- poison was consumed (R162)
  deriving DecidableEq, Repr

/-- A value read in packed use is rounded to BF16 (R157); that rounding sets no OVERFLOW and no UNDERFLOW (log 171). -/
def packRead (packed : Bool) (w : W32) : W32 := if packed then (laneRound true ⟨fp32 w, false, 0⟩).w else w

/-- Value of an operand code for element (m, n) at position `p` (R149). In packed use POSM and POSN are the integer in the operand's 16 bits
(log 135). -/
def laneOperand (x : Ve) (en : LaneEnv) (m n p : Nat) (r : LaneRun) (code : Nat) : W32 × Bool :=
  let pk := en.c.pack
  let small := fun (i : Nat) => if pk then BitVec.ofNat 32 (i * 65536) else BitVec.ofNat 32 i
  if code < 6 then
    match r.tmps.find? (fun t => t.1 == code) with
    | some t => t.2
    | none => tbElem x pk code m n
  else match code with
    | 0x06 => (r.x, r.xp)
    | 0x07 => tbElem x pk en.in0 m n
    | 0x08 => tbElem x pk en.in1 m n
    | 0x09 => let v := en.rowv.getD n (0#32, false); (packRead pk v.1, v.2)
    | 0x0A => let v := en.colv.getD m (0#32, false); (packRead pk v.1, v.2)
    | 0x0B => (packRead pk (randValue (drawWord en.j.rand en.c.randStream en.j.epoch en.c.posBase p)), false)
    | 0x0C => (small m, false)
    | 0x0D => (small n, false)
    | 0x0E => (0#32, false)
    | 0x0F => (oneBits, false)
    | _ => (packRead pk (en.c.konst (code - 16)), x.konstPois.contains (code - 16))
where
  /-- 1.0. -/
  oneBits : W32 := 0x3F800000#32

/-- The result of an SFU evaluation for the element of word `k`: a table word that is wrong unseen makes it a free value (04 R107, log 133). -/
def LaneEnv.evaluated (en : LaneEnv) (k : Nat) (w : W32) : W32 := ((en.tbl.find? (fun e => e.1 == k)).map (·.2)).getD w

/-- Runs one stage or instruction of an element (R150, R152, R154, R162). -/
def laneStep (x : Ve) (en : LaneEnv) (m n p : Nat) (r : LaneRun) (w : LaneWord) : LaneRun :=
  let rdv := fun code => laneOperand x en m n p r code
  let zero : W32 × Bool := (0#32, false)
  let a := rdv w.a
  let ar := opcodeOf w.op
  let two := match ar with
    | some (.two, _, _) => true
    | some (.three, _, _) => true
    | _ => false
  let three := match ar with
    | some (.three, _, _) => true
    | _ => false
  let bv := if two then rdv w.b else zero
  let cv := if three then rdv w.c else zero
  let bad := w.op != 0x24 && (a.2 || bv.2 || cv.2)
  let r16 := if w.op = 0x0E ∧ w.b.testBit 4 then spore16 (drawWord en.j.cvt en.c.cvtStream en.j.epoch en.c.posBase p) else 0
  let o := laneOp en.j.psidy en.c.pack w.op w.b r16 a.1 bv.1 cv.1
  let o := if w.op = 0x0D then { o with w := en.evaluated (256 * m + n) o.w } else o
  let xp := w.op == 0x24 && a.2
  { x := o.w, xp := xp, tmps := if w.dst < 6 then (w.dst, o.w, xp) :: r.tmps else r.tmps,
    fl := r.fl ||| o.fl, nans := r.nans + o.nans, ovfs := r.ovfs + o.ovfs, used := r.used || bad }

/-- Runs all words of an element from its first X. -/
def laneRun (x : Ve) (en : LaneEnv) (m n p : Nat) (x0 : W32 × Bool) (fl : Nat) : LaneRun :=
  en.c.words.foldl (laneStep x en m n p) ⟨x0.1, x0.2, [], fl, 0, 0, false⟩

/-- Vectors of a delivery, when they are needed and there; none while one is missing. -/
def vectorOf (b : Block) (cl e : Nat) (c : Cmd) (need : Bool) (n w : Nat) : Option (List (W32 × Bool)) :=
  if !need then some []
  else match elemsAt (entryOf (se b cl) e) (w * n) w with
    | some vs => some (vs.map (elemWord (c.tensor e).fmt))
    | none => none

/-- A vector element whose widening met poison is consumed. -/
def vectorBad (c : Cmd) (e : Nat) (vs : List (W32 × Bool)) : Bool := (c.tensor e).fmt != 0 && !c.pack && vs.any (fun v => v.2)

/-- Adds to the flags of the command on this VE (R161). -/
def veFlags (v fl : Nat) (b : Block) : Block :=
  let x := ve b v
  setVe v { x with sum := { x.sum with flags := x.sum.flags ||| fl } } b

/-- What the reads of a VE's stores meet: a word that stops the command, and the evaluations that read a wrong table word. -/
structure VeRead where
  blk : Block
  stop : Bool
  tbl : List (Nat × W32)
  deriving DecidableEq, Repr

/-- Replaces 32-bit word `i` of the image that a VE has loaded. -/
def Ve.setImage (off : Nat) (w : W32) (x : Ve) : Ve :=
  { x with image := x.image.take off ++ leBytes 4 w.toNat ++ x.image.drop (off + 4) }

/-- Counts a check of a VE's stores or tables (R168, 07 R199, 14 R378). -/
def countVe (v : Nat) (f : Fld) (page : Bool) (r : Checked) (b : Block) : Block :=
  let b := chipUe r.ue b
  if r.ce then
    let b := bump f 1 (canaryAdd .ceChip 1 b)
    if page then raise (veBase v / 4096) 16 b else b
  else b

/-- The check of a word that a VE reads (R107, R140, 07 R199): stores 0 to 5 are tile-buffer words. Store 6 holds the program words of
the loaded image (0 to 255), the constant registers (256 to 271) and the vector store (from 272, two halves of 256 row and 128 column words);
an uncorrectable program word stops the command, any other is poison where it lies (R162). Store 7 is the SFU tables, `word` naming the element
whose evaluation reads the word. -/
def veUpset (v : Nat) (p : VeRead) (u : Upset) : VeRead :=
  let b := p.blk
  let x := ve b v
  if u.store < 6 then
    let k := 32768 * u.store + u.word % 32768
    let r := readUpset (mapGet 0 x.words k) (wordPois x k) u.bits
    let ps := if r.pois then setInsert x.pois k else setErase (setErase x.pois k) (oddPois k)
    { p with blk := countVe v (fVE_ECC_CE_TB v) true r (setVe v { x with words := mapSet 0 x.words k r.w, pois := ps } b) }
  else if u.store = 6 then
    let count := countVe v (fVE_ECC_CE_STORE v) true
    match jobCmd b x.job with
    | none => p
    | some (c, _) =>
      if u.word < 256 then
        let off := wordsOff c.mode + 4 * u.word
        if c.imgCount ≤ u.word then p
        else
          let r := readUpset (BitVec.ofNat 32 (fieldAt x.image off 4)) false u.bits
          { p with blk := count r (setVe v (x.setImage off r.w) b), stop := p.stop || r.pois }
      else if u.word < 272 then
        let i := u.word - 256
        let r := readUpset (BitVec.ofNat 32 (fieldAt x.image (0x40 + 4 * i) 4)) (x.konstPois.contains i) u.bits
        let x := x.setImage (0x40 + 4 * i) r.w
        { p with blk := count r (setVe v { x with konstPois := if r.pois then setInsert x.konstPois i else setErase x.konstPois i } b) }
      else
        let i := (u.word - 272) % 384
        let h := (u.word - 272) / 384 % 2
        let k := if i < 256 then 2 * h else 2 * h + 1
        let j := if i < 256 then i else i - 256
        let l := mapGet [] x.vecs k
        match l[j]? with
        | none => p
        | some w =>
          let r := readUpset w.1 w.2 u.bits
          { p with blk := count r (setVe v { x with vecs := mapSet [] x.vecs k (l.set j (r.w, r.pois)) } b) }
  else
    let r := readUpset 0#32 false u.bits
    let b := countVe v (fVE_SFU_CE_TBL v) false r b
    if r.pois then { p with blk := b, stop := true }
    else if r.w = 0#32 then { p with blk := b }
    else
      let f := drawFree b
      { p with blk := f.2, tbl := (u.word % 32768, BitVec.ofNat 32 f.1) :: p.tbl }

/-- The checks of what a VE reads for one row of the command table, in turn. -/
def veUpsets (v : Nat) (ups : List Upset) (b : Block) : VeRead := ups.foldl (veUpset v) ⟨b, false, []⟩

/-- The vectors delivered with a work item enter the vector store's other half (R138), and the stream engine's entries let them go. -/
def takeVectors (v : Nat) (c : Cmd) (rowv colv : Bool) (read : Nat) (b : Block) : Block :=
  let x := ve b v
  let cl := v / 2
  if x.vecIn || !(rowv || colv) then b
  else
    let h := (x.vecHalf + 1) % 2
    let rs := (vectorOf b cl 4 c rowv read 256).getD []
    let cs := (vectorOf b cl 5 c colv read 128).getD []
    let b := setVe v { x with vecHalf := h, vecIn := true, vecs := mapSet [] (mapSet [] x.vecs (2 * h) rs) (2 * h + 1) cs } b
    let b := if rowv then consume cl 4 (256 * read) 256 b else b
    if colv then consume cl 5 (128 * read) 128 b else b

end Sys2Proof.Machine
end

