-- ==== Sys2Proof/Machine/VeRun.lean ====
section
/-!
DEFINITION. Groups, row statistics, scans and attention scores on a vector engine (06 R153–R158, 07 R188–R198, 08 R203–R222).
-/

namespace Sys2Proof.Machine

/-- Rows of a group (R140); a scan takes a whole tile at once (08 R203). -/
def groupRows (c : Cmd) : Nat := if c.mode = 4 ∧ !c.isAttn then 128 else if c.pack then 8 else 4
/-- Groups of a tile. -/
def groupsPerTile (c : Cmd) : Nat := 128 / groupRows c
/-- IN1's tile for a work item. -/
def in1Tile (c : Cmd) (w : Work) : Nat := if c.mode = 3 then w.block * c.rowTiles + w.t else w.tile
/-- The item reads IN1: pass 2 of ROWSTAT, every tile otherwise. -/
def readsIn1 (c : Cmd) (w : Work) : Bool := c.in1 && (w.out || c.mode == 4)
/-- The item takes its ROWV and COLV delivery. -/
def readsVec (c : Cmd) (w : Work) : Bool := (w.out || (c.mode == 4 && !c.hold)) && !(c.mode == 3 && c.isStats)

/-- The work item that a VE is at, with its rank. -/
def workNow (b : Block) (v : Nat) (c : Cmd) : Option (Work × Nat) :=
  let x := ve b v
  let rank := (se b (v / 2)).rank
  if x.tile < veItems b c v then some (workAt c rank v x.tile, rank) else none

/-- A scan unit that exists: the room of a short last segment may hold none. -/
def unitReal (c : Cmd) (u : Nat) : Bool := decide (u < c.chBlocks * c.segments)

/-- The carry of the unit has reached this VE. -/
def carryHere (x : Ve) (c : Cmd) (u : Nat) : Option (List (W32 × Bool)) :=
  if !unitReal c u then some []
  else match x.carry with
    | some (k, ws) => if k = u then some ws else none
    | none => none

/-- Every input of the next group is present (R153, R155, 08 R212). -/
def groupReady (b : Block) (v : Nat) (c : Cmd) (w : Work) : Bool :=
  let x := ve b v
  let need := (x.grp + 1) * groupRows c
  let stats := c.mode == 3 && c.isStats && w.out
  (stats || decide (need ≤ landed x 0 w.tile))
    && (!readsIn1 c w || decide (need ≤ landed x 1 (in1Tile c w)))
    && (x.vecIn || ((vectorOf b (v / 2) 4 c (c.rowv && readsVec c w) w.read 256).isSome
      && (vectorOf b (v / 2) 5 c (c.colv && readsVec c w) w.read 128).isSome))
    && (c.mode != 3 || !w.out || x.finalised)
    && (c.mode != 4 || c.isAttn || !w.out || (carryHere x c w.block).isSome)

/-- What the lanes give of a group. -/
structure GroupOut where
  ve : Ve
  rows : List OutRow
  fl : Nat
  nans : Nat
  ovfs : Nat
  used : Bool
  deriving DecidableEq, Repr

/-- Environment of a work item: program and constants are those of the image that the VE holds, vectors those of its vector store, or the
delivery that waits for it. -/
def laneEnv (b : Block) (v : Nat) (c : Cmd) (j : Job) (w : Work) : LaneEnv :=
  let x := ve b v
  let vec := fun (e k n : Nat) (on : Bool) =>
    if x.vecIn then mapGet [] x.vecs (2 * x.vecHalf + k) else (vectorOf b (v / 2) e c (on && readsVec c w) w.read n).getD []
  { c := { c with image := x.image }, j := j, in0 := landBuf c 0 w.tile, in1 := landBuf c 1 (in1Tile c w),
    rowv := vec 4 0 256 c.rowv, colv := vec 5 1 128 c.colv, tbl := [] }

/-- Joins the elements of a group into its outcome; buffer writes apply in program order (R155). -/
def gather (x : Ve) (c : Cmd) (rank v : Nat) (w : Work) (rows : List (Nat × List LaneRun)) : GroupOut :=
  let rs := rows.flatMap (·.2)
  let x := rows.foldl (fun x row => (row.2.mapIdx (fun n r => (n, r))).foldl (fun x p =>
    let x := p.2.tmps.reverse.foldl (fun x t => putElem c.pack t.1 row.1 p.1 t.2 x) x
    let k := 256 * row.1 + p.1
    { x with x := mapSet 0 x.x k p.2.x, xPois := if p.2.xp then setInsert x.xPois k else setErase x.xPois k }) x) x
  ⟨x, rows.map (fun row => ⟨w.res, row.1, row.2.map (fun r => (r.x, r.xp)), liveCols c rank v w row.1⟩),
   rs.foldl (fun f r => f ||| r.fl) 0, rs.foldl (fun a r => a + r.nans) 0, rs.foldl (fun a r => a + r.ovfs) 0, rs.any (·.used)⟩

/-- A frond chain or element program on one group (R152–R155). -/
def groupProgram (x : Ve) (en : LaneEnv) (rank v : Nat) (w : Work) : GroupOut :=
  let c := en.c
  gather x c rank v w ((List.range (groupRows c)).map (fun i =>
    let m := groupRows c * x.grp + i
    (m, (List.range 256).map (fun n => laneRun x en m n (positionOf c rank v w m n) (tbElem x c.pack en.in0 m n) 0))))

/-- Words 4i to 4i + 3 of a row's state (07 R189). -/
def stateRow (x : Ve) (buf m : Nat) : RowState × Bool :=
  let k := fun i => mapGet 0 x.words (32768 * buf + 256 * m + i)
  (⟨k 0, k 1, k 2, 0⟩, (List.range 4).any (fun i => wordPois x (32768 * buf + 256 * m + i)))

/-- A row's state as its words: m, s, +0, +0 or shift, sd, sq, +0 (07 R189). -/
def putState (buf m : Nat) (s : RowState) (x : Ve) : Ve :=
  let base := 32768 * buf + 256 * m
  { x with words := spliceWords x.words base [s.a, s.b, s.c, 0#32], pois := splicePois x.pois base [false, false, false, false] }

/-- Row `m` of a buffer. -/
def tbRow (x : Ve) (buf m : Nat) : List (W32 × Bool) := (List.range 256).map (fun n => tbElem x false buf m n)

/-- A sum over a row's SFU evaluations, free where one of them reads a wrong table word. -/
def evaluatedRow (tbl : List (Nat × W32)) (m : Nat) (w : W32) : W32 := ((tbl.find? (fun e => e.1 / 256 == m)).map (·.2)).getD w

/-- Pass 1 of ROWSTAT on one group (07 R191, R192, R197). -/
def groupStat1 (x : Ve) (en : LaneEnv) (w : Work) : GroupOut :=
  let c := en.c
  let buf := c.temp.headD 0
  let live := min 256 (c.rowLen - 256 * w.t)
  (List.range 4).foldl (fun (g : GroupOut) i =>
    let m := 4 * x.grp + i
    let row := tbRow g.ve en.in0 m
    let s := stateRow g.ve buf m
    let s0 := if w.t = 0 then (rowInit c.rowOp, false) else s
    let xs := row.map (·.1)
    let r := if en.j.psidy then rowPsidy c.rowOp live xs { s0.1 with fl := 0 } else rowPass1 c.rowOp w.t live xs { s0.1 with fl := 0 }
    let r := if rowSoftmax c.rowOp then { r with b := evaluatedRow en.tbl m r.b } else r
    { g with ve := putState buf m r g.ve, fl := g.fl ||| r.fl, used := g.used || s0.2 || (row.take live).any (·.2) })
    ⟨x, [], 0, 0, 0, false⟩

/-- A row's finalised statistics (07 R191, R192): four words kept by the VE. -/
def finalOf (x : Ve) (m : Nat) : RowFinal :=
  let k := fun i => mapGet 0 x.finals (4 * m + i)
  ⟨k 0, k 1, k 2, k 3, 0⟩

/-- Output group of a *_STATS operation (07 R195). -/
def groupStats (x : Ve) (w : Work) : GroupOut :=
  ⟨x, (List.range 4).map (fun i =>
    let m := 4 * x.grp + i
    let f := finalOf x m
    ⟨w.res, m, (f.c0, false) :: (f.c1, false) :: List.replicate 254 (0#32, false), 256⟩), 0, 0, 0, false⟩

/-- Pass 2 of ROWSTAT on one group, with its post chain (07 R191, R192, R194). -/
def groupStat2 (x : Ve) (en : LaneEnv) (rank v : Nat) (w : Work) : GroupOut :=
  let c := en.c
  gather x c rank v w ((List.range 4).map (fun i =>
    let m := 4 * x.grp + i
    let f := finalOf x m
    let live := liveCols c rank v w m
    (m, (tbRow x en.in0 m).mapIdx (fun n e =>
      if live ≤ n then ⟨0#32, false, [], 0, 0, 0, false⟩
      else
        let y := rowPass2 c.rowOp en.j.psidy f e.1
        let y0 := if c.rowOp = 1 then en.evaluated (256 * m + n) y.1 else y.1
        let r := laneRun x en m n (positionOf c rank v w m n) (y0, false) y.2
        { r with used := r.used || e.2 }))))

/-- A key is masked for a query row (08 R219, R222). -/
def attnMasked (c : Cmd) (row key : Nat) : Bool :=
  decide (c.rowLen ≤ key) || (c.causal && decide ((c.scanBase + row) % 2 ^ 64 < (c.keyBase + key) % 2 ^ 64))

/-- State of a query row during a block (08 R222). -/
def attnState (x : Ve) (m : Nat) : AttnRow :=
  let l := (mapGet (([], false) : List W32 × Bool) x.run m).1
  ⟨l.getD 0 negInf, l.getD 1 0#32, l.getD 2 negInf, l.getD 3 0#32, 0⟩

/-- Keeps a query row's state. -/
def putAttn (m : Nat) (r : AttnRow) (x : Ve) : Ve := { x with run := mapSet ([], false) x.run m ([r.m, r.s, r.mt, r.c], false) }

/-- Pass 1 or pass 2 of ATTN_SCORE on one group (08 R222). REVERSE has no effect here (log 175). -/
def groupAttn (x : Ve) (en : LaneEnv) (rank v : Nat) (w : Work) : GroupOut :=
  let c := en.c
  let rows := (List.range 4).map (fun i => 4 * x.grp + i)
  let start := fun (m : Nat) =>
    let q := attnRowNo c rank v w.block m
    if !w.out && w.t == 0 then
      if c.carrySrc = 1 ∧ q < c.nch then
        let rec4 := fun k => en.j.initial.getD (4 * q + k) (0#32, false)
        ((⟨(rec4 0).1, (rec4 1).1, negInf, 0#32, 0⟩ : AttnRow), (rec4 0).2 || (rec4 1).2)
      else (⟨negInf, 0#32, negInf, 0#32, 0⟩, false)
    else if w.out && w.t == 0 then (attnTurn en.j.psidy (attnState x m), false)
    else (attnState x m, false)
  if !w.out then
    rows.foldl (fun (g : GroupOut) m =>
      let row := tbRow x en.in0 m
      let s := start m
      let mk := fun k => attnMasked c (attnRowNo c rank v w.block m) (256 * w.t + k)
      let bad := (row.mapIdx (fun k e => e.2 && !mk k)).any id
      let r := attnPass1 mk (row.map (·.1)) s.1
      { g with ve := putAttn m r g.ve, used := g.used || s.2 || bad }) ⟨x, [], 0, 0, 0, false⟩
  else
    let p := rows.map (fun m =>
      let row := tbRow x en.in0 m
      let s := start m
      let mk := fun k => attnMasked c (attnRowNo c rank v w.block m) (256 * w.t + k)
      let bad := (row.mapIdx (fun k e => e.2 && !mk k)).any id
      (m, attnPass2 en.j.psidy mk (row.map (·.1)) s.1, s.1.fl, bad))
    let x := p.foldl (fun x r => putAttn r.1 { r.2.1.1 with s := evaluatedRow en.tbl r.1 r.2.1.1.s } x) x
    let g := gather x c rank v w (p.map (fun r => (r.1, r.2.1.2.mapIdx (fun n e =>
      if attnMasked c (attnRowNo c rank v w.block r.1) (256 * w.t + n) then ⟨0#32, false, [], 0, 0, 0, false⟩
      else laneRun x en r.1 n (positionOf c rank v w r.1 n) (en.evaluated (256 * r.1 + n) e, false) 0))))
    { g with fl := p.foldl (fun f r => f ||| r.2.1.1.fl ||| r.2.2.1) g.fl, used := g.used || p.any (fun r => r.2.2.2) }

/-- Prefix of a channel of the block that a VE scans. -/
def scanRun (x : Ve) (k : Nat) : ScanVal × Bool := mapGet (([], false) : List W32 × Bool) x.run k

/-- One tile of a scan: its columns' prefixes in scan order, then the outputs of the final pass (08 R203, R204, R206, R207). -/
def groupScan (x : Ve) (en : LaneEnv) (rank v : Nat) (w : Work) : GroupOut :=
  let c := en.c
  let ct := w.t % max c.chTiles 1
  let order := fun i => if c.reverse then 127 - i else i
  let real := (List.range 128).map (fun i => (scanRow c w.block w.t (order i)).2.2.isSome)
  let cin := (carryHere x c w.block).getD []
  let cols := (List.range 256).map (fun n =>
    let k := 256 * ct + n
    let run := if w.t < c.chTiles then ([], false) else scanRun x k
    let els := (List.range 128).map (fun i =>
      if real.getD i false then
        let a := tbElem x false en.in0 (order i) n
        if c.rowOp = 1 then let bb := tbElem x false en.in1 (order i) n; ([a.1, bb.1], a.2 || bb.2) else ([a.1], a.2)
      else (([], false) : ScanVal × Bool))
    let v0 := scanTile c.rowOp en.j.psidy (els.map (·.1))
    let ls := v0.1.map (fun l => scanCombine c.rowOp en.j.psidy run.1 l)
    let fl := ls.foldl (fun f l => f ||| l.2) v0.2
    let last := ((List.range 128).filter (fun i => real.getD i false)).getLast?
    let run' := match last with
      | some i => (ls.getD i ([], 0)).1
      | none => run.1
    let run' := if c.rowOp = 4 then (match en.tbl.find? (fun e => e.1 % 256 == n) with
      | some e => [e.2]
      | none => run') else run'
    let cw := cin[k]?
    let outs := ls.map (fun l => scanApply c.rowOp en.j.psidy (cw.map (·.1)) l.1)
    (k, run', outs, fl, els.any (·.2) || (w.out && (match cw with
      | some e => e.2
      | none => false))))
  let x := { x with run := cols.foldl (fun r q => mapSet ([], false) r q.1 (q.2.1, false)) x.run }
  let used := cols.any (fun q => q.2.2.2.2)
  let fl := cols.foldl (fun f q => f ||| q.2.2.2.1) 0
  if !w.out then ⟨x, [], fl, 0, 0, used⟩
  else
    let fl := cols.foldl (fun f q => q.2.2.1.foldl (fun f o => f ||| o.2) f) fl
    let g := gather x c rank v w ((List.range 128).map (fun m =>
      (m, cols.mapIdx (fun n q =>
        match (q.2.2.1.getD (order m) (none, 0)).1, real.getD (order m) false with
        | some y, true =>
          let y := if c.rowOp = 4 then en.evaluated (256 * m + n) y else y
          laneRun x en m n (positionOf c rank v w m n) (y, false) 0
        | _, _ => ⟨0#32, false, [], 0, 0, 0, false⟩))))
    { g with fl := g.fl ||| fl, used := g.used || used }

/-- The lanes on the next group of an item. -/
def groupOut (b : Block) (v : Nat) (c : Cmd) (en : LaneEnv) (w : Work) (rank : Nat) : GroupOut :=
  let x := ve b v
  match c.mode with
  | 3 => if !w.out then groupStat1 x en w else if c.isStats then groupStats x w else groupStat2 x en rank v w
  | 4 => if c.isAttn then groupAttn x en rank v w else groupScan x en rank v w
  | _ => groupProgram x en rank v w

/-! ### Cycles (R158, 07 R198, 08 R217) -/

/-- SFU words of the image. -/
def sfuWords (c : Cmd) : Nat := (c.words.filter (fun w => w.op == 0x0D)).length
/-- Cost of a post chain. -/
def postCost (c : Cmd) : Nat := c.words.length - sfuWords c + 4 * sfuWords c

/-- Lane cycles of one group, and the SFU's share. The groups of ATTN_SCORE have no entry in 08 R217's table (log 174). -/
def groupCycles (c : Cmd) (psidy : Bool) (w : Work) : Nat × Nat :=
  let s := c.words.length
  let f := sfuWords c
  match c.mode with
  | 1 => (max (max (s - f) (4 * f)) 1, 4 * f)
  | 2 => (s + 1 + 3 * f, 4 * f)
  | 3 =>
    let exps := if rowSoftmax c.rowOp then 4 else 0
    if !w.out then
      (if psidy then 8 else if rowSoftmax c.rowOp then 6 else if rowRms c.rowOp then 2 else 3, exps)
    else if c.isStats then (1, 0)
    else ((match c.rowOp with
      | 1 => 6
      | 2 => 2
      | 3 => 2
      | _ => 1) + postCost c, (if c.rowOp = 1 then 4 else 0) + 4 * f)
  | _ =>
    if c.isAttn then (if w.out then 6 + postCost c else 1, if w.out then 4 + 4 * f else 0)
    else
      let p := fun (a b' : Nat) => if w.out then b' + 32 * postCost c else a
      match c.rowOp with
      | 1 => (p 512 576, 32 * 4 * (if w.out then f else 0))
      | 4 => (p 2048 2304, p 2048 2304)
      | _ => (p 256 288, 32 * 4 * (if w.out then f else 0))

/-! ### Ends of tiles and segments (R143, 08 R204, R212–R215) -/

/-- Writes a carry or state record's words (08 R215, R222). -/
def carryWrite (va : Nat) (c : Cmd) (ws : List (W32 × Bool)) (b : Block) : Block :=
  match writeWords c.queue c.count c.ctx va ws b with
  | .ok b => b
  | .error .poison => poisonTask (c.clusters.headD 0) c.queue c.count b
  | .error _ => abortTask c.queue c.count 0x13 (4 * 2 ^ 13 + 0x88) b

/-- A segment's carry out is known (08 R204, R212): to the next segment, or to the final carry's destinations. -/
def segmentDone (u : Nat) (c : Cmd) (ws : List (W32 × Bool)) (b : Block) : Block :=
  let cb := u / max c.segments 1
  if (u + 1) % max c.segments 1 ≠ 0 then
    modJob c.queue c.count (fun j => { j with carries := mapSet none j.carries (u + 1) (some ws) }) b
  else
    let b := if c.carryFlags.testBit 2 then carryWrite (c.carryOut + 1024 * c.chTiles * cb) c (ws.take (c.blockCh cb)) b else b
    let b := modJob c.queue c.count (fun j => { j with final := mapSet none j.final cb (some (if c.toDrift then ws else [])) }) b
    pumpCarry c.queue c.count b

/-- A carry on its way to a segment of another cluster takes the chain's links between them: requester 1 of their arbiters (09 R253). -/
def linkCarry (cl u : Nat) (c : Cmd) (b : Block) : Block :=
  let k := max c.segsPerIter 1
  let d := c.clusters.getD ((u + 1) / k % max c.nclus 1) cl
  if (u + 1) % max c.segments 1 = 0 then b else linkGrant (min cl d) (max cl d) 1 b

/-- The carry out of the unit that a VE has aggregated, once its carry in is here (08 R213); `tbl` names the channels whose evaluation
reads a wrong table word. -/
def carryOut (v : Nat) (c : Cmd) (j : Job) (u : Nat) (tbl : List (Nat × W32)) (b : Block) : Block :=
  let x := ve b v
  match carryHere x c u with
  | none => b
  | some cin =>
    let ws := (List.range (256 * c.chTiles)).map (fun k =>
      let cw := cin[k]?
      (scanApply c.rowOp j.psidy (cw.map (·.1)) (scanRun x k).1, match cw with
        | some e => e.2
        | none => false))
    if ws.any (fun w => w.2) then poisonTask (v / 2) c.queue c.count b
    else linkCarry (v / 2) u c <| segmentDone u c (ws.mapIdx (fun k w => (((tbl.find? (fun e => e.1 == k)).map (·.2)).getD (w.1.1.getD 0#32), false)))
      (veFlags v (ws.foldl (fun f w => f ||| w.1.2) 0) b)

/-- The state records of a row block of ATTN_SCORE (08 R222). -/
def attnRecords (v rank : Nat) (c : Cmd) (u : Nat) (b : Block) : Block :=
  let x := ve b v
  (List.range 128).foldl (fun b m =>
    let q := attnRowNo c rank v u m
    if c.nch ≤ q then b
    else
      let r := attnState x m
      carryWrite (c.carryOut + 16 * q) c [(r.m, false), (r.s, false), (r.c, false), (0#32, false)] b) b

/-- A tile of work is done: its delivery is over, buffers are due release, and segments pass their carries. -/
def tileEnd (v rank : Nat) (c : Cmd) (j : Job) (w : Work) (b : Block) : Block :=
  let x := ve b v
  let rel := (if w.frees && !(c.mode == 3 && c.isStats && w.out) then [landBuf c 0 w.tile] else [])
    ++ (if readsIn1 c w && w.frees then [landBuf c 1 (in1Tile c w)] else [])
  let b := setVe v { x with release := x.release ++ rel, tile := x.tile + 1, grp := 0, vecIn := false } b
  if c.mode = 3 then
    let endOfBlock := w.out && (c.isStats || w.t + 1 == c.rowTiles)
    if endOfBlock then setVe v { ve b v with finalised := false } b else b
  else if c.isAttn then
    if w.out && w.t + 1 == c.rowTiles then attnRecords v rank c w.block b else b
  else if c.mode = 4 then
    let n := if !c.wholeBlocks then c.segRoom * c.chTiles else c.segChunks (w.block % max c.segments 1) * c.chTiles
    if w.t + 1 ≠ n ∨ !unitReal c w.block then b
    else if !w.out || c.onePass then carryOut v c j w.block [] b else b
  else b

/-- The output is refusing rows (R159): a row waits, or 32 rows where MX blocks form down columns. -/
def outBlocked (c : Cmd) (x : Ve) : Bool :=
  decide ((if isMX c.outFmt && c.outAxis && !c.outTb then 32 else 1) ≤ x.out.length)

/-- Row `m` of a work item's row block lies in the tensor of entry 0 (07 R186, R163): its first element is no padding. -/
def rowInside (b : Block) (v : Nat) (c : Cmd) (w : Work) (m : Nat) : Bool :=
  let s := if c.hasOpu then 128 * (opuTileOf c v w.tile).1 * max c.klen 1 + m else 32768 * clusterIdx c v c.inTiles w.tile + 256 * m
  written c (entryOf (se b (v / 2)) 0) 0 s

/-- VE_GROUP_RUN (R153, R155, R158, R168): one ACLK's decision of the lanes, and the whole group when it can run. -/
def groupRun (v aclk : Nat) (ups : List Upset) (b : Block) : Block :=
  let x := ve b v
  match jobCmd b x.job with
  | none => b
  | some (c, j) =>
    if !issues b aclk then count64 (rVE_CNT_PACE_LO v) 1 b
    else if outBlocked c x then count64 (rVE_CNT_BLOCK_LO v) 1 (setVe v { x with wait := 0, waited := false } b)
    else match workNow b v c with
    | none => count64 (rVE_CNT_WAIT_LO v) 1 (setVe v { x with wait := x.wait + 1 } b)
    | some (w, rank) =>
      if !groupReady b v c w then count64 (rVE_CNT_WAIT_LO v) 1 (setVe v { x with wait := x.wait + 1 } b)
      else
        let b := takeVectors v c (c.rowv && readsVec c w) (c.colv && readsVec c w) w.read b
        let now := laneEnv b v c j w
        let vecBad := !x.vecIn && (vectorBad c 4 now.rowv || vectorBad c 5 now.colv)
        let u := veUpsets v ups b
        let b := u.blk
        let g := groupOut b v c { laneEnv b v c j w with tbl := u.tbl } w rank
        if u.stop || g.used || vecBad then poisonTask (v / 2) c.queue c.count b
        else
          let cy := groupCycles c j.psidy w
          let rows := if c.mode == 3 && c.outTb then g.rows.map (fun r => if rowInside b v c w r.row then r else { r with live := 0 }) else g.rows
          let b := setVe v { g.ve with out := g.ve.out ++ rows, grp := x.grp + 1, wait := 0, waited := false } b
          let b := veFlags v g.fl (addCounts c.queue c.count g.nans g.ovfs b)
          let b := count64 (rVE_CNT_ISSUE_LO v) cy.1 (count64 (rVE_CNT_SFU_LO v) cy.2 b)
          if x.grp + 1 = groupsPerTile c then tileEnd v rank c j w b else b

/-- ROWSTAT_FINALISATION (07 R188, R191, R192): after pass 1 of a row block, the statistics of its 128 rows. -/
def rowFinalise (v : Nat) (ups : List Upset) (b : Block) : Block :=
  let x := ve b v
  match jobCmd b x.job with
  | none => b
  | some (c, j) =>
    match workNow b v c with
    | none => b
    | some (w, _) =>
      if c.mode ≠ 3 ∨ !w.out ∨ x.finalised ∨ x.grp ≠ 0 ∨ w.t ≠ 0 then b
      else
        let buf := c.temp.headD 0
        let u := veUpsets v ups b
        let b := u.blk
        let x := ve b v
        let rows := (List.range 128).map (fun m => stateRow x buf m)
        if u.stop || rows.any (·.2) then poisonTask (v / 2) c.queue c.count b
        else
          let fs := rows.mapIdx (fun m r =>
            let f := rowFinal c.rowOp j.psidy c.rowLen c.eps r.1
            if c.rowOp = 2 then { f with r := evaluatedRow u.tbl m f.r } else f)
          let finals := (fs.mapIdx (fun m f => (m, f))).foldl (fun (l : SMap W32) p =>
            mapSet 0 (mapSet 0 (mapSet 0 (mapSet 0 l (4 * p.1) p.2.p) (4 * p.1 + 1) p.2.r) (4 * p.1 + 2) p.2.c0) (4 * p.1 + 3) p.2.c1) []
          veFlags v (fs.foldl (fun f r => f ||| r.fl) 0)
            (count64 (rVE_CNT_ISSUE_LO v) 32 (setVe v { x with finals := finals, finalised := true, wait := 0, waited := false } b))

/-- The words of a carry as they arrive, store 8 naming them (04 R107, log 133). -/
def carryUpset (v : Nat) (a : List (W32 × Bool) × Block) (u : Upset) : List (W32 × Bool) × Block :=
  match a.1[u.word]? with
  | none => a
  | some w =>
    let r := readUpset w.1 w.2 u.bits
    (a.1.set u.word (r.w, r.pois), countVe v (fVE_ECC_CE_STORE v) true r a.2)

/-- SEGMENT_CARRY_ARRIVAL (08 R212, R213): the carry of the predecessor segment reaches the VE that scans its successor. Its words are
checked as they arrive, and the SFU tables where the carry goes on through LCSE (07 R181). -/
def carryArrive (v : Nat) (ups : List Upset) (b : Block) : Block :=
  let x := ve b v
  match jobCmd b x.job with
  | none => b
  | some (c, j) =>
    match workNow b v c with
    | none => b
    | some (w, _) =>
      if c.mode ≠ 4 ∨ c.isAttn then b
      else match mapGet none j.carries w.block with
        | none => b
        | some ws =>
          if (match x.carry with
              | some (k, _) => k == w.block
              | none => false) then b
          else
            let a := (ups.filter (fun u => u.store == 8)).foldl (carryUpset v) (ws, b)
            let b := setVe v { ve a.2 v with carry := some (w.block, a.1) } a.2
            if w.out && !c.onePass && w.t == 0 then
              let u := veUpsets v (ups.filter (fun u => u.store == 7 && c.rowOp == 4)) b
              if u.stop then poisonTask (v / 2) c.queue c.count u.blk else carryOut v c j w.block u.tbl u.blk
            else b

/-- LAND_WAIT (R169): raised once for an unbroken input-wait run longer than VE_WAIT_LIMIT. -/
def landWait (v : Nat) (b : Block) : Block :=
  let x := ve b v
  let limit := get b (fVE_WAIT_LIMIT_LIMIT v)
  if x.wait ≤ limit ∨ x.waited ∨ limit = 0 then b
  else raise (veBase v / 4096) 64 (setVe v { x with waited := true } b)

end Sys2Proof.Machine
end

