-- ==== Sys2Proof/Machine/VeOut.lean ====
section
/-!
DEFINITION. Result rows, drained rows, summaries and guards (05 R120, R121, 06 R159–R166, 09 R250, R251).
-/

namespace Sys2Proof.Machine

/-! ### Summaries (R163) -/

/-- An FP32 value as an integer in units of 2^−149; 0 unless finite. -/
def sumUnits (x : Fp) : Int :=
  match x with
  | .fin s m e =>
    let v : Int := if 0 ≤ e + 149 then (m : Int) * 2 ^ (e + 149).toNat else (m : Int) / 2 ^ (-(e + 149)).toNat
    if s then -v else v
  | _ => 0

/-- The larger or smaller of an optional value and another. -/
def joinMax (a : Option Fp) (x : Fp) : Option Fp :=
  match a with
  | none => some x
  | some y => some (fpMax y x)
/-- The smaller. -/
def joinMin (a : Option Fp) (x : Fp) : Option Fp :=
  match a with
  | none => some x
  | some y => some (fpMin y x)

/-- One written result enters a summary (R163); a poisoned one counts in COUNT alone. -/
def Summary.add (s : Summary) (w : W32) (pois : Bool) : Summary :=
  let x := fp32 w
  if pois then { s with count := s.count + 1 }
  else if fpIsNaN x then { s with count := s.count + 1, nans := s.nans + 1 }
  else
    let s := { s with count := s.count + 1, max := joinMax s.max x, min := joinMin s.min x }
    if fpIsInf x then { s with infs := s.infs + 1 }
    else { s with absMax := joinMax s.absMax (fpAbs x), sum := s.sum + sumUnits x }

/-- Joins optional values. -/
def joinOpt (f : Option Fp → Fp → Option Fp) (a b : Option Fp) : Option Fp :=
  match b with
  | none => a
  | some y => f a y

/-- Combines two summaries (R163). -/
def Summary.join (a b : Summary) : Summary where
  max := joinOpt joinMax a.max b.max
  min := joinOpt joinMin a.min b.min
  absMax := joinOpt joinMax a.absMax b.absMax
  sum := a.sum + b.sum
  count := a.count + b.count
  nans := a.nans + b.nans
  infs := a.infs + b.infs
  flags := a.flags ||| b.flags

/-- SUM rounded once to FP32, and whether it overflowed. -/
def Summary.sumWord (s : Summary) : W32 × Bool :=
  let r := round32 (.fin (decide (s.sum < 0)) s.sum.natAbs (-149))
  (r, fpIsInf (fp32 r))

/-- FLAGS with SUM_OVF (R161). -/
def Summary.flagWord (s : Summary) : Nat := s.flags ||| (if s.sumWord.2 then flSumOvf else 0)

/-- MAX or MIN: canonical NaN where every result was NaN. -/
def optWord (o : Option Fp) : W32 :=
  match o with
  | none => 0x7FC00000#32
  | some x => round32 x

/-- ABSMAX: +0 where no result was finite. -/
def Summary.absWord (s : Summary) : W32 :=
  match s.absMax with
  | none => 0#32
  | some x => round32 x

/-- Comparison codes of a guard (R165). -/
def guardCmp (cmp : Nat) (lt eq unordered : Bool) : Bool :=
  match cmp with
  | 0 => !lt && !eq && !unordered
  | 1 => !lt && !unordered
  | 2 => lt
  | 3 => lt || eq
  | 4 => eq
  | 5 => !eq
  | _ => false

/-- A guard holds (R165). -/
def guardHolds (g : Nat) (s : Summary) : Bool :=
  let f := g % 16
  let cmp := g / 16 % 8
  let th := g / 2 ^ 32
  let fp := fun (w : W32) =>
    let t := fp32 (BitVec.ofNat 32 th)
    guardCmp cmp (fpLt (fp32 w) t) (fpEq (fp32 w) t) (fpIsNaN (fp32 w) || fpIsNaN t)
  let nat := fun (n : Nat) => guardCmp cmp (decide (n < th)) (n == th) false
  match f with
  | 1 => fp (optWord s.max)
  | 2 => fp (optWord s.min)
  | 3 => fp s.sumWord.1
  | 4 => fp s.absWord
  | 5 => nat s.nans
  | 6 => nat s.infs
  | 7 => s.flagWord &&& th != 0
  | _ => false

/-- The 64-byte record (R164). -/
def Summary.record (s : Summary) (guards : Nat) : List Byte :=
  leBytes 4 (optWord s.max).toNat ++ leBytes 4 (optWord s.min).toNat ++ leBytes 4 s.absWord.toNat ++ leBytes 4 s.sumWord.1.toNat
    ++ leBytes 8 s.count ++ leBytes 4 s.nans ++ leBytes 4 s.infs ++ leBytes 4 s.flagWord ++ leBytes 4 guards ++ leBytes 24 0

/-! ### Output (R159, R160) -/

/-- A result value on its way out: the element it becomes, its value, poison. -/
structure OutElem where
  s : Nat                 -- element number of entry 6
  m : Nat
  n : Nat
  w : W32
  pois : Bool
  live : Bool             -- the command writes it
  deriving DecidableEq, Repr

/-- Elements of a result row; `live` says which the stream-out stage writes. -/
def rowElems (b : Block) (v : Nat) (c : Cmd) (r : OutRow) : List OutElem :=
  let x := entryOf (se b (v / 2)) 6
  r.vals.mapIdx (fun n p =>
    let s := 32768 * r.tile + 256 * r.row + n
    ⟨s, r.row, n, p.1, p.2, decide (n < r.live) && (c.outTb || written c x 6 s)⟩)

/-- Order of a result's write among all of the command's (09 R236): by result tile, entry 6 before entry 7, then by element. -/
def outOrder (t e m n : Nat) : Nat := (2 * t + (if e = 7 then 1 else 0)) * 32768 + 256 * m + n

/-- The work item that gave a result tile, for its position. -/
def workOfRes (c : Cmd) (v res : Nat) : Work :=
  if c.mode = 4 ∧ !c.isAttn then
    let a := c.scanAt 1 (res % max c.resultTiles 1)
    ⟨0, true, 0, a.2.2.1, 0, res, true⟩
  else if c.isAttn ∧ c.oneToOne then
    let f := c.feeders (v % 2)
    let j := res / max c.veFeeders.length 1 * f.length + (f.idxOf? (c.veFeeders.getD (res % max c.veFeeders.length 1) 0)).getD 0
    ⟨0, true, j / max c.blockTiles 1, j % max c.blockTiles 1, 0, res, true⟩
  else if c.isAttn then
    -- row block of this VE with that number on the cluster
    let nb := res / max c.rowTiles 1
    let u := (List.range (nb + 1)).find? (fun u => blockNo c v u == nb)
    ⟨0, true, u.getD 0, res % max c.rowTiles 1, 0, res, true⟩
  else ⟨0, true, 0, 0, 0, res, true⟩

/-- Scan unit of a result tile of a cluster. -/
def unitOfRes (c : Cmd) (rank res : Nat) : Nat :=
  let n := max c.resultTiles 1
  (rank + res / n * c.nclus) * c.segsPerIter + (c.scanAt 1 (res % n)).1

/-- Random bits of a result's stochastic rounding (R159, 13 R364). -/
def drawOut (b : Block) (v : Nat) (c : Cmd) (j : Job) (res m n : Nat) : Nat :=
  if c.outCvt % 2 = 0 then 0
  else
    let rank := (se b (v / 2)).rank
    let w := workOfRes c v res
    let w := if c.mode = 4 ∧ !c.isAttn then { w with block := unitOfRes c rank res } else w
    spore16 (drawWord j.cvt c.cvtStream j.epoch c.posBase (positionOf c rank v w m n))

/-- The value that is converted: scaled by the amax record's exponent under OUT_DS (04 R104). -/
def outValue (c : Cmd) (j : Job) (w : W32) : Fp := if c.outDs then fpScale (fp32 w) j.expOut else fp32 w

/-- What converted elements add to the amax record (04 R104). -/
def amaxOf (es : List (OutElem × CvtOut)) : AmaxAdd :=
  es.foldl (fun a p =>
    let x := fp32 p.1.w
    if fpIsFin x then ⟨maxWord a.pending (round32 (fpAbs x)), a.ovfs + p.2.ovfs, a.nans⟩ else ⟨a.pending, a.ovfs + p.2.ovfs, a.nans + 1⟩)
    ⟨0#32, 0, 0⟩

/-- Stores converted elements of one result tile and keeps the counts, flags, summary and amax record (R160–R163). Every conversion
counts (04 R91, R104); the summary and the stores take what the command writes. -/
def storeOut (v : Nat) (c : Cmd) (t : Nat) (es : List (OutElem × CvtOut)) (b : Block) : Block :=
  let cl := v / 2
  let live := es.filter (fun p => p.1.live)
  let x := ve b v
  let sum := live.foldl (fun s p => s.add p.1.w p.1.pois) x.sum
  let fl := es.foldl (fun f p => f ||| p.2.fl) 0
  let b := setVe v { x with sum := { sum with flags := sum.flags ||| fl } } b
  let b := addCounts c.queue c.count (es.foldl (fun a p => a + p.2.nans) 0) (es.foldl (fun a p => a + p.2.ovfs) 0) b
  match (if c.outDs then amaxAdd c.ctx c.outRec (amaxOf es) b else .ok b) with
  | .error st => abortTask c.queue c.count st (if st = 0x24 then cl else 3 * 8192 + 0x44) b
  | .ok b =>
  if c.outTb then
    setVe v (es.foldl (fun x p => putElem c.pack c.outBuf p.1.m p.1.n
      (if c.pack then BitVec.ofNat 32 (p.2.w * 65536) else BitVec.ofNat 32 p.2.w, p.1.pois) x) (ve b v)) b
  else
    let b := clearCovered cl 6 (fmtWidth c.outFmt) (live.map (fun p => (p.1.s, outOrder t 6 p.1.m p.1.n))) b
    live.foldl (fun b p => storeElem cl 6 p.1.s (outOrder t 6 p.1.m p.1.n) ⟨p.2.w, fmtWidth c.outFmt, p.1.pois⟩ b) b

/-- Converts and stores MX blocks (R159, 04 R93): groups of 32 results, each of which goes to the converter. -/
def storeBlocks (v : Nat) (c : Cmd) (j : Job) (t : Nat) (groups : List (List OutElem)) (b : Block) : Block :=
  groups.foldl (fun b g =>
    let rs := if c.outCvt % 2 = 1 then some (g.map (fun e => drawOut b v c j (e.s / 32768) e.m e.n)) else none
    let blk := mxBlock c.outFmt (c.outCvt.testBit 1) rs (g.map (fun e => outValue c j e.w))
    let b := match g.find? (·.live) with
      | some e => storeScale (v / 2) 6 e.s (outOrder t 6 e.m e.n) blk.1 b
      | none => b
    storeOut v c t (g.zip blk.2) b) b

/-- Elements of OUT_TB rows are all written; those of stream-out rows wait for their coordinates. -/
def outRoom (b : Block) (v : Nat) (c : Cmd) (r : OutRow) : Bool :=
  c.outTb || outReady b (v / 2) 6 (32768 * r.tile + 256 * r.row) 256

/-! ### Drain (05 R120, R121) -/

/-- A row of OPU place `q`, tile `t` (counted over the command), can be taken by port `p` (R120, R142). -/
def drainFits (b : Block) (cl p : Nat) (c : Cmd) (j : Job) (t q r : Nat) : Bool :=
  if p < 2 then
    let f := c.feeders p
    canLand b (2 * cl + p) c 0 (t * f.length + (f.idxOf? q).getD 0)
  else
    let s := 32768 * (t * c.seFeeders.length + (c.seFeeders.idxOf? q).getD 0) + 256 * r
    let k := max c.rounds 1
    outReady b cl 7 s 256 && mayWrite b cl c j (((se b cl).rank + t / k * c.nclus) * c.tilesPerIter + c.seLocal (t % k) q)

/-- The OPU requests its drain port (R120). -/
def drainAsks (b : Block) (cl p i : Nat) : Bool :=
  let o := 4 * cl + i
  let x := opu b o
  match jobCmd b x.job, x.drains with
  | some (c, j), (t, r) :: _ =>
    c.opus.contains i && c.drainDst i == p && drainFits b cl p c j t ((c.opus.idxOf? i).getD 0) r
  | _, _ => false

/-- Takes a drained row to entry 7 (R121). -/
def drainToStream (cl : Nat) (c : Cmd) (t q r : Nat) (row : List Drained) (b : Block) : Block :=
  let s := 32768 * (t * c.seFeeders.length + (c.seFeeders.idxOf? q).getD 0) + 256 * r
  let k := max c.rounds 1
  let g := ((se b cl).rank + t / k * c.nclus) * c.tilesPerIter + c.seLocal (t % k) q
  let b := clearCovered cl 7 32 ((List.range row.length).map (fun n => (s + n, outOrder g 7 r n))) b
  let b := (row.mapIdx (fun n d => (n, d))).foldl (fun b p =>
    storeElem cl 7 (s + p.1) (outOrder g 7 r p.1) ⟨p.2.w.toNat, 32, p.2.pois⟩ b) b
  noteRow cl g b

/-! ### Ends of commands (R164, R251) -/

/-- Every stage of a cluster is empty and its programs have run (R251). -/
def clusterDone (b : Block) (c : Cmd) (cl : Nat) : Bool :=
  let s := se b cl
  let progs := c.entries.all (fun e => !runsProgram c s.rank e ||
    (let x := entryOf s e
     decide ((c.prog e).length ≤ x.pc) && x.frames.isEmpty && decide (programRuns c e ≤ x.rounds + 1)))
  let opus := !c.hasOpu || c.opus.all (fun i =>
    let o := 4 * cl + i
    !fillBusy b o c && (opu b o).drains.isEmpty)
  let ves := c.ves.all (fun i =>
    let v := 2 * cl + i
    decide (veItems b c v ≤ (ve b v).tile) && (ve b v).out.isEmpty)
  let hoist := !(c.hasOpu && (c.tensor 1).hoist) ||
    (s.hoist.isEmpty && decide (ceilDiv c.parts c.nclus * c.rowsPerIter ≤ s.wrows))
  let move := !c.isMove || decide (c.elems 0 * c.itersOf s.rank ≤ s.outRows)
  progs && opus && ves && hoist && move

/-- Every carry of a scan has taken its way. -/
def carriesDone (b : Block) (c : Cmd) (j : Job) : Bool :=
  c.mode != 4 || c.isAttn || ((List.range c.chBlocks).all (fun i => (mapGet none j.final i).isSome) && carriesSent b c j)

/-- A kernel-class command has nothing left but its summary (R251). -/
def kernelWorkDone (b : Block) (c : Cmd) (j : Job) : Bool := c.clusters.all (clusterDone b c) && carriesDone b c j

/-- The combined summary of a command: its VEs' within each cluster, then the clusters' (R163). -/
def summaryOf (b : Block) (c : Cmd) : Summary :=
  (c.clusters.flatMap (fun cl => c.ves.map (fun i => (ve b (2 * cl + i)).sum))).foldl Summary.join Summary.fresh

/-- SUMMARY_AND_GUARDS (R164–R166, 15 R518). -/
def summaryGuards (q n : Nat) (b : Block) : Block :=
  match jobCmd b (some (q, n)) with
  | none => b
  | some (c, j) =>
    if c.mode = 0 ∨ j.summed ∨ !kernelWorkDone b c j then b
    else
      let s := summaryOf b c
      let h0 := guardHolds (c.guard 0) s
      let h1 := guardHolds (c.guard 1) s
      let act := fun (a : Nat) => (h0 && c.guard 0 / 256 % 4 == a) || (h1 && c.guard 1 / 256 % 4 == a)
      let b := setJob { j with summed := true } b
      let w : Except Xlat Block := if c.summaryVa = 0 then .ok b
        else vWrite c.ctx c.summaryVa (s.record (b2n h0 + 2 * b2n h1)) [] b
      let failed := match w with
        | .ok _ => false
        | .error _ => true
      match w with
      | .error .poison => poisonTask (c.clusters.headD 0) q n b
      | w =>
      let b := match w with
        | .ok b => b
        | .error _ => b
      let b := if act 1 && !act 2 then modCmd q n (fun c => { c with branch := true }) b else b
      let st := if act 2 then (0x27, 0) else if failed then (0x13, 4 * 2 ^ 13 + 0x10) else (0, 0)
      let b := modCmd q n (fun c => { c with status := st.1, detail := st.2 }) b
      if act 2 then raise (veBase (2 * c.clusters.headD 0) / 4096) 32 b else b

end Sys2Proof.Machine
end

