-- ==== Sys2Proof/Machine/PortOps.lean ====
section
/-!
DEFINITION. The fabric port of a cluster's stream engine and what goes through it: index fetches, fetches of elements, and the rows that
entries 6 and 7 write (09 R233, R248, R249, R252, 06 R159, 05 R120).
-/

namespace Sys2Proof.Machine

/-- A row of results, or 32 rows of MX blocks down columns, that VE `v` can hand on now (06 R159): its command, job, result tile and rows. -/
def outputNow (b : Block) (v : Nat) : Option (Cmd × Job × Nat × List OutRow) :=
  let x := ve b v
  let cl := v / 2
  match jobCmd b x.job with
  | none => none
  | some (c, j) =>
    let n := if isMX c.outFmt && c.outAxis && !c.outTb then 32 else 1
    let rows := x.out.take n
    match rows with
    | [] => none
    | r0 :: _ =>
      let t := resultTile c (se b cl).rank r0.tile
      if rows.length < n ∨ !rows.all (outRoom b v c) ∨ !mayWrite b cl c j t then none else some (c, j, t, rows)

/-- A portion of a pure move that a cluster can write now (R252): the command, its job, the number of elements, and the elements. -/
def moveNow (b : Block) (cl : Nat) : Option (Cmd × Job × Nat × List Elem) :=
  match jobCmd b (se b cl).job with
  | none => none
  | some (c, j) =>
    let s := se b cl
    let per := max (c.elems 0) 1
    let k := s.outRows / per
    let i := s.outRows % per
    let n := min 1024 (min (per - i) (c.elems 0 * c.itersOf s.rank - s.outRows))
    match elemsAt (entryOf s 0) s.outRows n with
    | none => none
    | some vs =>
      if !c.isMove ∨ n = 0 ∨ !outReady b cl 6 s.outRows n ∨ !mayWrite b cl c j ((s.rank + k * c.nclus) * c.tilesPerIter + i / 32768) then none
      else some (c, j, n, vs)

/-- Entry `e` requests the fabric port of its cluster's stream engine (R249): an index or an element to fetch, or a row to write. -/
def wantsPort (b : Block) (cl e : Nat) : Bool :=
  indexAsks b cl e ||
  (match e with
   | 6 => (moveNow b cl).isSome || (List.range 2).any (fun i => (outputNow b (2 * cl + i)).any (fun r => !r.1.outTb))
   | 7 => (List.range 4).any (drainAsks b cl 2)
   | _ => inputAsks b cl e)

/-- The port's arbiter (R25, R249) picks entry `e` among those that request; none where it picks another. -/
def portGrant (cl e : Nat) (b : Block) : Option Block :=
  let g := rrGrant (arbStream cl) 8 (wantsPort b cl) b
  if g.1 = some e then some g.2 else none

/-- LOOP (R230); the first index of an INDIR loop is fetched once the port is granted. -/
def streamLoop (cl e : Nat) (b : Block) : Block :=
  if indexAsks b cl e then match portGrant cl e b with
    | none => b
    | some b => iterLoop cl e b
  else iterLoop cl e b

/-- END (R230); the next index of an INDIR loop is fetched once the port is granted. -/
def streamEnd (cl e : Nat) (b : Block) : Block :=
  if indexAsks b cl e then match portGrant cl e b with
    | none => b
    | some b => iterEnd cl e b
  else iterEnd cl e b

/-- STREAM_FETCH (R248, R249): the next leaf block's worth of elements of an input entry. Padding comes at once; the rest once the arbiter of
the cluster's one fabric port grants it, and an entry that is not its pick waits. -/
def streamFetch (cl e : Nat) (b : Block) : Block :=
  if e < 6 ∧ dom b (domFab (halfOfCluster cl)) = 2 then
    let p := fetchPads 1024 cl e b
    if inputAsks p.2 cl e then match portGrant cl e p.2 with
      | none => p.2
      | some b => fetchElems p.1 cl e b
    else p.2
  else b

/-- STREAM_FETCH of an entry with what follows at once: fetched weight rows go to their slots. The checks of memory and of the stream
block come before the fetch, those of the operand buffer after it. -/
def fetchAndPour (cl e : Nat) (ups : List Upset) (b : Block) : Block :=
  let b := (ups.filter (fun u => u.store != 0)).foldl (streamUpset cl e) b
  let b := (ups.filter (fun u => u.store == 0)).foldl (streamUpset cl e) (streamFetch cl e b)
  if e = 1 then pourWeights 512 cl b else b

/-- VE_OUTPUT_ROW (R159): the next converted row, or 32 rows of MX blocks down columns, is accepted by the output: the tile buffer of OUT_TB,
or entry 6 through the fabric port. -/
def outputRow (v : Nat) (b : Block) : Block :=
  let cl := v / 2
  match outputNow b v with
  | none => b
  | some (c, j, t, rows) =>
    match (if c.outTb then some b else portGrant cl 6 b) with
    | none => b
    | some b =>
      let es := rows.map (rowElems b v c)
      let bad := !(c.outTb && c.outFmt == 0) && es.any (fun l => l.any (fun e => e.pois))
      if bad then poisonTask cl c.queue c.count b
      else
        let b := setVe v { ve b v with out := (ve b v).out.drop rows.length } b
        let b :=
          if isMX c.outFmt then
            let groups := if c.outAxis then (List.range 256).map (fun k => es.filterMap (fun l => l[k]?))
              else es.flatMap (fun l => chunkList 32 9 l)
            storeBlocks v c j t groups b
          else
            storeOut v c t (es.flatMap (fun l => l.map (fun e =>
              (e, if e.pois then { w := e.w.toNat }
                  else convertCode c.outFmt ⟨if c.outCvt % 2 = 1 then some (drawOut b v c j ((rows.head?.map (·.tile)).getD 0) e.m e.n) else none, c.outCvt.testBit 1⟩
                    (outValue c j e.w))))) b
        rows.foldl (fun b _ => noteRow cl t b) b

/-- DRAIN_ROW_ACCEPT (R116, R120, R129, R130): in an ACLK cycle that is not paced, the port's arbiter grants one OPU whose row its taker
can accept; a row for entry 7 also takes the stream engine's fabric port (09 R249). -/
def drainAccept (cl p aclk : Nat) (ups : List Upset) (b : Block) : Block :=
  if !issues b aclk then b else
  let g := rrGrant (arbDrain cl p) 4 (drainAsks b cl p) b
  match g.1, (if p < 2 then some g.2 else portGrant cl 7 g.2) with
  | none, _ => b
  | _, none => b
  | some i, some b =>
    let o := 4 * cl + i
    let b := ups.foldl (fun b u =>
      let x := opu b o
      match x.drains with
      | (t, r) :: _ =>
        cellUpset o (32768 * (t % 2) + 256 * r + u.word % 256) u.bits b
      | [] => b) b
    match jobCmd b (opu b o).job, offeredRow b o with
    | some (c, _), some (t, r, row) =>
      let q := (c.opus.idxOf? i).getD 0
      if row.any (fun d => d.consumed) then poisonTask cl c.queue c.count b
      else
        let b := rowAccepted o c row b
        if p < 2 then
          let f := c.feeders p
          landRow (2 * cl + p) 0 (t * f.length + (f.idxOf? q).getD 0) c (row.map (fun d => (d.w, d.pois))) b
        else drainToStream cl c t q r row b
    | _, _ => b

/-- One portion of a pure move on one cluster (R252): up to a leaf block's worth of fetched elements of one partition iteration go
from entry 0 to entry 6, through the fabric port. -/
def moveStep (cl : Nat) (b : Block) : Block :=
  match moveNow b cl with
  | none => b
  | some (c, _, n, vs) =>
    match portGrant cl 6 b with
    | none => b
    | some b =>
      let s := se b cl
      let per := max (c.elems 0) 1
      let i := s.outRows % per
      let tile := (s.rank + s.outRows / per * c.nclus) * c.tilesPerIter + i / 32768
      let last := decide (i + n = per)
      let b := consume cl 0 s.outRows n (moveElems cl s.outRows n vs last c b)
      match jobCmd b (se b cl).job with
      | none => b
      | some (c, j) =>
        let b := setSe cl { se b cl with outRows := s.outRows + n } b
        let rows := if last || (i + n) % 32768 == 0 then 128 else (i + n) % 32768 / 256
        let j := { j with rowsOut := mapSet 0 j.rowsOut tile rows, moved := j.moved + n }
        let b := put (fSE_STATE_PART_DONE cl) (min ((s.outRows + n) / per) 0xFFFF) (setJob j b)
        if j.moved = c.elems 0 * c.parts then moveSums cl c j b else b

end Sys2Proof.Machine
end

