-- ==== Sys2Proof/Machine/KernelStart.lean ====
section
/-!
DEFINITION. The start of a kernel-class command: fetches, checks, tables, engines; and a pure move's steps
(04 R100, R103, 06 R145, R147, 08 R208–R215, 09 R238–R246, 13 R366–R368).
-/

namespace Sys2Proof.Machine

/-- INVALID_FIELD or TRANSLATION's DETAIL for a structure (15 R435). -/
def structDetail (part off : Nat) : Nat := part * 8192 + min off 0x1FFF

/-- Why a command ends at its start. -/
structure StartErr where
  status : Nat
  detail : Nat
  deriving DecidableEq, Repr

/-- Offset at which the first unusable page of a range begins, and whether a table word was poisoned. -/
def firstFault (b : Block) (cx va n : Nat) : Nat × Bool :=
  match ((List.range (n / 4096 + 2)).map (fun i => if i = 0 then 0 else 4096 * i - va % 4096)).find? (fun o =>
      decide (o < n) && (match translate b cx (va + o) false with
        | .ok _ => false
        | _ => true)) with
  | some o => (o, translate b cx (va + o) false == .poison)
  | none => (0, false)

/-- Fetches a structure at dispatch (R145, R243): its bytes, TRANSLATION with the page's offset, or ABORTED_POISON of the cluster. -/
def fetchStruct (b : Block) (c : Cmd) (part va n : Nat) : Except StartErr (List Byte) :=
  let cl := c.clusters.headD 0
  match vRead b c.ctx va n with
  | .ok r => if r.bad then .error ⟨0x24, cl⟩ else .ok r.bytes
  | .error _ =>
    let f := firstFault b c.ctx va n
    if f.2 then .error ⟨0x24, cl⟩ else .error ⟨0x13, structDetail part f.1⟩

/-- The unit that consumes a poisoned table word at dispatch: SCH or RCX (15 R435). -/
def dispatchUnit (b : Block) : Nat := if get b fSC_DISPATCH_WHO = 1 then domRcx else domSch

/-- Reads a table entry at dispatch (04 R103, 09 R239, 13 R366): HBM or staging alone, and no reserved value. -/
def fetchEntry (b : Block) (cx va n : Nat) (checks : List Byte → List (Nat × Bool)) : Except StartErr (List Byte) :=
  match vaPieces b cx va n false with
  | .error .poison => .error ⟨0x24, dispatchUnit b⟩
  | .error _ => .error ⟨0x13, structDetail 3 0⟩
  | .ok _ => match tableEntry b cx va n with
    | none => .error ⟨0x10, structDetail 3 0⟩
    | some (_, true) => .error ⟨0x24, dispatchUnit b⟩
    | some (d, false) => match minFail (checks d) with
      | some o => .error ⟨0x10, structDetail 3 o⟩
      | none => .ok d

/-- An amax record that a command names (R103, R104, 05 R134, 06 R147): its exponent; `part` and `off` name the field that names it. -/
def fetchAmax (b : Block) (cx part off j fmt : Nat) : Except StartErr Int :=
  if (ctx b cx).amaxCnt ≤ j then .error ⟨0x10, structDetail part off⟩
  else match fetchEntry b cx ((ctx b cx).amaxVa + 128 * j) 128 amaxChecks with
  | .error e => .error e
  | .ok d => if byteAt d 0x43 = fmt then .ok (sx8 (byteAt d 0x40)) else .error ⟨0x10, structDetail part off⟩

/-- Result tiles of the whole command. -/
def Cmd.allTiles (c : Cmd) : Nat := c.parts * c.tilesPerIter

/-- A spore stream that a command names (R366–R368). -/
def fetchSpore (b : Block) (c : Cmd) (off s : Nat) : Except StartErr (List Byte) :=
  if (ctx b c.ctx).sporeCnt ≤ s then .error ⟨0x10, structDetail 2 off⟩
  else match fetchEntry b c.ctx ((ctx b c.ctx).sporeVa + 64 * s) 64 sporeChecks with
  | .error e => .error e
  | .ok d =>
    if !isSequential d then .ok d
    else
      let named := mapGet 0 b.stepStreams (c.ctx * 65536 + s)
      let used := (fieldAt d 0x10 8 + 2 ^ 64 - cursorBase d c.epoch) % 2 ^ 64
      if c.mode = 4 then .error ⟨0x10, structDetail 2 off⟩
      else if named ≠ 0 ∧ named ≠ c.queue + 1 then .error ⟨0x48, s⟩
      else if fieldAt d 0x18 8 < used + 32768 * c.allTiles then .error ⟨0x49, s⟩
      else .ok d

/-- Buffers FULL on every participating VE at dispatch (06 R147). -/
def fullBuffers (b : Block) (c : Cmd) : List Nat :=
  (List.range 6).filter (fun k => c.clusters.all (fun cl => c.ves.all (fun i => tbState b (2 * cl + i) k == 2)))

/-- GROUP names a group of which the device is a current member (08 R211). -/
def scanMember (b : Block) (c : Cmd) : Bool := (scanDrift b c).isSome && get b fGG_STATE_ROLE != 0

/-! ### Owner tables (R239–R241) -/

/-- Runs the next instruction of an entry's program, whatever it is; of a run that leaves the tensor base, the elements before that one are
reached. -/
def progStep (cl e : Nat) (b : Block) : Block :=
  match jobCmd b (se b cl).job with
  | none => b
  | some (c, _) =>
    let x := entryOf (se b cl) e
    match nextInstr c e x with
    | none => b
    | some i => match i.op with
      | 1 => iterLoop cl e b
      | 2 => iterEnd cl e b
      | 3 => match (if x.zero then none else belowBase x.row x.col i.drow i.dcol i.count) with
        | some k => setEntry cl e { x with segs := x.segs ++ [⟨x.emitted, k, x.row, x.col, i.drow, i.dcol, false, 0⟩], pc := (c.prog e).length } b
        | none => streamRun cl e b
      | 4 => streamAdd cl e b
      | _ => streamPad cl e b

/-- Runs an entry's program until it ends, or until a fault or a poisoned index ends it: the block before that point. -/
def progRun : (fuel : Nat) → Nat → Nat → Block → Block
  | 0, _, _, b => b
  | f + 1, cl, e, b =>
    let next := progStep cl e b
    match jobCmd next (se next cl).job with
    | none => b
    | some (c, _) => if (nextInstr c e (entryOf (se next cl) e)).isNone then next else progRun f cl e next

/-- More instructions than a program can execute on one cluster. -/
def progFuel (c : Cmd) (e : Nat) : Nat :=
  (progFold (fun m x => m * (1 + (if x.op = 1 then x.count else 0))) (c.prog e) + (c.prog e).length) * (c.parts + 1) + 1

/-- Owner blocks that an entry's program reaches on a cluster, found on a copy of the block (R241). -/
def reachedBlocks (b : Block) (c : Cmd) (cl e : Nat) : List Nat :=
  let b := progRun (progFuel c e) cl e b
  let t := c.tensor e
  let x := entryOf (se b cl) e
  (x.segs.flatMap (fun g => if g.pad then [] else (List.range g.n).filterMap (fun (i : Nat) =>
    let r := g.row + (i : Int) * g.drow
    let k := g.col + (i : Int) * g.dcol
    if beyond t r k then none else some (tileIndex t r.toNat k.toNat / 2 ^ t.pitch)))).eraseDups

/-- Reads the owner-table entries of every block that the command's streams reach. -/
def fetchOwners (b : Block) (c : Cmd) : Except StartErr (SMap (List Byte)) :=
  let want := c.entries.flatMap (fun e =>
    if (c.tensor e).layout ≠ 2 then [] else ((c.clusters.flatMap (fun cl => reachedBlocks b c cl e)).eraseDups).map (fun k => (e, k)))
  want.foldl (fun a p => match a with
    | .error x => .error x
    | .ok m => match fetchEntry b c.ctx ((c.tensor p.1).base + 32 * p.2) 32 ownerChecks with
      | .error x => .error x
      | .ok d => .ok (mapSet [] m (p.1 * 2 ^ 32 + p.2) d)) (.ok [])

/-- The output entry that reaches a SHADOWED block with SHADOW = 0, if any (13 R348): its SFLAGS byte fails. -/
def shadowFail (c : Cmd) (owners : SMap (List Byte)) : Option StartErr :=
  match [6, 7].find? (fun e => c.entries.contains e && !(c.tensor e).shadow
      && owners.any (fun o => o.1 / 2 ^ 32 == e && (byteAt o.2 2).testBit 0)) with
  | some e => some ⟨0x10, structDetail 1 (0x40 + 64 * e + 0x37)⟩
  | none => none

/-! ### Ordered mode (R238) -/

/-- Byte ranges of a tensor: (address, bytes), scale data included; of a distributed one, the blocks that device `me` holds. -/
def tensorRanges (me : Nat) (c : Cmd) (owners : SMap (List Byte)) (epoch e : Nat) : List (Nat × Nat) :=
  let t := c.tensor e
  let w := fmtWidth t.fmt
  let tiles := ceilDiv t.rows 128 * ceilDiv t.cols 256
  let recs := if isMX t.fmt then 1024 else if t.fmt = 6 then 2048 else if t.fmt = 7 then 128 else 0
  match t.layout with
  | 0 => (t.base, tiles * 4096 * w) :: (if recs = 0 ∨ t.scale = 0 then [] else [(t.scale, tiles * recs)])
  | 1 =>
    (t.base, (t.rows - 1) * t.pitch + rowBytes t)
      :: (if isMX t.fmt then [(t.scale, if t.axis then t.rows / 32 * t.cols else t.rows * (t.cols / 32))] else [])
  | _ =>
    (owners.filter (fun o => o.1 / 2 ^ 32 == e && fieldAt o.2 0 2 == me)).map (fun o =>
      let odd := (epoch % 2 == 1) != t.shadow
      (fieldAt o.2 (if (byteAt o.2 2).testBit 0 && odd then 0x10 else 0x08) 8, 2 ^ t.pitch * (4096 * w + recs)))

/-- An input range overlaps an output range. -/
def needsOrder (me : Nat) (c : Cmd) (owners : SMap (List Byte)) : Bool :=
  let r := fun (e : Nat) => tensorRanges me c owners c.epoch e
  let ins := (c.entries.filter (fun e => decide (e < 6))).flatMap r
  let outs := (c.entries.filter (fun e => decide (6 ≤ e))).flatMap r
  ins.any (fun i => outs.any (fun o => decide (i.1 < o.1 + o.2 ∧ o.1 < i.1 + i.2)))

/-! ### Start -/

/-- Per-column scales and zero points of INT8 weights (04 R100). -/
def fetchColumns (b : Block) (c : Cmd) : Except StartErr (List Byte) :=
  if !(c.hasOpu && c.int8) then .ok []
  else
    let t := c.tensor 1
    match fetchStruct b c 1 t.aux (8 * t.cols) with
    | .error e => .error e
    | .ok d =>
      if (List.range t.cols).all (fun i => zeroAt d (8 * i + 5) 3) then .ok d
      else .error ⟨0x10, structDetail 1 (0x40 + 64 + 0x10)⟩

/-- The carry or state record that a SCAN reads at dispatch (08 R215, R222). -/
def fetchCarry (b : Block) (c : Cmd) : Except StartErr (List (W32 × Bool)) :=
  if c.mode ≠ 4 ∨ c.carrySrc ≠ 1 then .ok []
  else
    match vRead b c.ctx c.carryIn ((if c.isAttn then 16 else 4) * c.nch) with
    | .ok r => .ok (toWords r.bytes r.pois)
    | .error .poison => .error ⟨0x24, c.clusters.headD 0⟩
    | .error _ => .error ⟨0x13, structDetail 2 0x80⟩

/-- Initial carries of the channel blocks that are known at dispatch (08 R212, R214). -/
def initialCarries (b : Block) (c : Cmd) (initial : List (W32 × Bool)) : SMap (Option (List (W32 × Bool))) :=
  if c.mode ≠ 4 ∨ c.isAttn then []
  else (List.range c.chBlocks).foldl (fun m i =>
    let w := 256 * c.chTiles
    match c.carrySrc with
    | 0 => mapSet none m (i * c.segments) (some [])
    | 1 =>
      let ws := (initial.drop (w * i)).take w
      mapSet none m (i * c.segments) (some (ws ++ List.replicate (w - ws.length) (0#32, false)))
    | _ => if (scanPred b c).isNone then mapSet none m (i * c.segments) (some []) else m) []

/-- The checks of a command's two blocks, descriptor first (R243–R246, 06 R147, 08 R211). -/
def startChecks (b : Block) (c : Cmd) (psidy : Bool) : Option StartErr :=
  match minFail (sblkChecks c) with
  | some o => some ⟨0x10, structDetail 1 o⟩
  | none =>
    if c.mode = 0 then none
    else match minFail (imageChecks c psidy (scanMember b c) (fullBuffers b c)) with
    | some o => some ⟨0x10, structDetail 2 o⟩
    | none => none

/-- Reads the stream block and the image (R145, R243). -/
def fetchBlocks (b : Block) (c : Cmd) : Except StartErr Cmd :=
  match fetchStruct b c 1 c.streamVa 576 with
  | .error e => .error e
  | .ok h => match fetchStruct b c 1 c.streamVa (sblkLen h) with
    | .error e => .error e
    | .ok s =>
      let c := { c with sblk := s }
      if c.mode = 0 then .ok c
      else match fetchStruct b c 2 c.imageVa 4 with
      | .error e => .error e
      | .ok h => match fetchStruct b c 2 c.imageVa (imageLen c.mode (fieldAt h 0 2)) with
        | .error e => .error e
        | .ok i => .ok { c with image := i }

/-- The command's job, from everything it reads at dispatch. -/
def makeJob (b : Block) (c : Cmd) : Except StartErr Job :=
  let amax := fun (use : Bool) (part off j fmt : Nat) => if use then fetchAmax b c.ctx part off j fmt else .ok 0
  match amax (c.hasOpu && c.aDs) 0 0x14 c.aRec c.aFmt with
  | .error e => .error e
  | .ok ea => match amax (c.hasOpu && c.wDs) 0 0x16 c.wRec c.wFmt with
  | .error e => .error e
  | .ok ew => match amax (c.mode != 0 && c.outDs) 2 0x0A c.outRec c.outFmt with
  | .error e => .error e
  | .ok eo => match (if c.drawsRand then fetchSpore b c 0x0C c.randStream else .ok []) with
  | .error e => .error e
  | .ok rand => match (if c.drawsCvt then fetchSpore b c 0x0E c.cvtStream else .ok []) with
  | .error e => .error e
  | .ok cvt => match fetchColumns b c with
  | .error e => .error e
  | .ok cols => match fetchCarry b c with
  | .error e => .error e
  | .ok initial => .ok {
      queue := c.queue, count := c.count, clusters := c.clusters, psidy := (ctx b c.ctx).psidy, epoch := c.epoch,
      expA := ea, expW := ew, expOut := eo, rand := rand, cvt := cvt, colVec := cols, owners := [], ordered := false, tags := [],
      words := [], cover := [], leaves := [], rowsOut := [], initial := initial, carries := initialCarries b c initial, final := [], parts := [],
      granted := 0, sentParts := 0, moved := 0, summed := false }

/-- A participating VE takes the command (06 R143, R145, R167): TEMP reads +0, TEMP and OUT_BUF are IN_USE. -/
def startVe (c : Cmd) (v : Nat) (b : Block) : Block :=
  let x := ve b v
  let clear := fun (k : Nat) => c.temp.contains (k % 196608 / 32768)
  let y := { Ve.fresh with job := some (c.queue, c.count), image := c.image, words := x.words.filter (fun e => !clear e.1),
                           pois := x.pois.filter (fun k => !clear k) }
  let b := setVe v y b
  let b := (c.temp ++ (if c.outTb then [c.outBuf] else [])).foldl (fun b k => setTb v k 3 b) b
  put (fVE_STATE_BUSY v) 1 (put (fVE_STATE_MODE v) c.mode (put (fVE_STATE_PACK v) (b2n c.pack)
    (put (fVE_STATE_IN1 v) (b2n c.in1) (put (fVE_STATE_COUNT v) c.imgCount b))))

/-- A participating OPU takes the command (05 R132, R135): the first output tile fills ping. -/
def startOpu (c : Cmd) (o : Nat) (b : Block) : Block :=
  let b := setOpu o { Opu.fresh with job := some (c.queue, c.count) } b
  put (fOP_STATE_BUSY o) 1 (put (fOP_STATE_FILL_TILE o) 0 (put (fOP_STATE_A_FMT o) c.aFmt (put (fOP_STATE_W_FMT o) c.wFmt
    (put (fOP_STATE_TRANS o) (b2n c.trans) (put (fOP_STATE_DRAIN_BUSY o) 0 b)))))

/-- A participating cluster takes the command (R253, R257). -/
def startCluster (c : Cmd) (ordered : Bool) (cl rank : Nat) (b : Block) : Block :=
  let b := setSe cl { Se.fresh with job := some (c.queue, c.count), rank := rank } b
  let b := put (fSE_STATE_BUSY cl) 1 (put (fSE_STATE_ORDERED cl) (b2n ordered)
    (put (fSE_STATE_HOIST_HEAD cl) (b2n (rank == 0 && c.hasOpu && (c.tensor 1).hoist)) (put (fSE_STATE_ENTRIES cl) c.valid
      (put (fSE_STATE_PART_DONE cl) 0 b))))
  let b := if c.hasOpu then c.opus.foldl (fun b i => startOpu c (4 * cl + i) b) b else b
  c.ves.foldl (fun b i => startVe c (2 * cl + i) b) b

/-- Puts a command's engines to work. -/
def startEngines (c : Cmd) (j : Job) (b : Block) : Block :=
  let b := setCmd c { b with jobs := b.jobs.filter (fun x => !(x.queue == j.queue && x.count == j.count)) ++ [j] }
  (c.clusters.mapIdx (fun r cl => (r, cl))).foldl (fun b p => startCluster c j.ordered p.2 p.1 b) b

/-- A tally that the command takes (12 R315). -/
def takeTally (c : Cmd) (b : Block) : Option Block :=
  if c.fromDrift || c.toDrift then
    let i := c.scanTally % 65536
    let g := c.scanTally / 65536
    if newer16 g (mapGet 0 b.lastGen i) then some { b with lastGen := mapSet 0 b.lastGen i g } else none
  else some b

/-- Notes the sequential streams that a command names (13 R367). -/
def noteStreams (c : Cmd) (j : Job) (b : Block) : Block :=
  c.streams.foldl (fun b s =>
    let d := if s.1 = 0x0C then j.rand else j.cvt
    if isSequential d then { b with stepStreams := mapSet 0 b.stepStreams (c.ctx * 65536 + s.2) (c.queue + 1) } else b) b

/-- A command ends at its start: a fault on the fetch of its blocks, or poison consumed there, as a task abort does (R145, R243); a failed
check with nothing run (R10). -/
def startFails (q n : Nat) (fetch : Bool) (e : StartErr) (b : Block) : Block :=
  if e.status = 0x24 ∨ (fetch ∧ e.status = 0x13) then abortTask q n e.status e.detail b else finishCmd q n e.status e.detail b

/-- Bytes that each cluster's stream engine fetches at dispatch (R257): its blocks, the column vector of INT8 weights, and the owner-table
entries of the blocks that its streams reach. -/
def countStart (b0 : Block) (c : Cmd) (j : Job) (b : Block) : Block :=
  c.clusters.foldl (fun b cl =>
    let owners := c.entries.foldl (fun a e => if (c.tensor e).layout = 2 then a + (reachedBlocks b0 c cl e).length else a) 0
    count64 (rSE_CNT_RD_LO cl) (c.sblk.length + c.image.length + j.colVec.length + 32 * owners) b) b

/-- The owner-table fetches of a cluster's entries take its fabric port, each under its entry (R249). -/
def ownerGrants (c : Cmd) (b : Block) : Block :=
  c.clusters.foldl (fun b cl => (c.entries.filter (fun e => decide ((c.tensor e).layout = 2))).foldl (fun b e =>
    (rrGrant (arbStream cl) 8 (fun x => x == e) b).2) b) b

/-- A SCAN whose predecessor on the drift has been declared FAILED takes no carry (08 R216). -/
def startScan (c : Cmd) (j : Job) (b : Block) : Block :=
  match scanPred b c with
  | some d => if c.fromDrift && (failedIds b).contains d then scanAbort c j b else scanGrant c b
  | none => scanGrant c b

/-- Halves whose adits carry the messages between this device and a neighbour on a SCAN's drift, none of which has its fabric (01 R18): the
missing domain. -/
def aditsDown (b : Block) (nb : Option Nat) : Option Nat :=
  match (nb.bind (nextHop b)).map (fun d => ((bundleAdits b d).map aditHalf).eraseDups) with
  | some (h :: t) => if (h :: t).any (fun h => domOn b (domFab h)) then none else some (domFab h)
  | _ => none

/-- The missing domain that a command's tensors or its messages need (01 R18, 14 R377). -/
def startMissing (b : Block) (c : Cmd) : Option Nat :=
  match rangesDown b c.ctx (c.entries.flatMap (tensorRanges (devId b) c [] c.epoch)) with
  | some d => some d
  | none =>
    match (if c.fromDrift then aditsDown b (scanPred b c) else none) with
    | some d => some d
    | none => if c.toDrift then aditsDown b (scanSucc b c) else none

/-- Starts a dispatched command of a class (R242, 15 R427, 08 R209). -/
def kernelStart (cls q n : Nat) (b : Block) : Block :=
  match findCmd b q n with
  | none => b
  | some c =>
    if c.stage != .dispatched || c.cls != cls then b
    else match fetchBlocks b c with
    | .error e => startFails q n true e b
    | .ok c =>
      match startChecks b c (ctx b c.ctx).psidy with
      | some e => finishCmd q n e.status e.detail b
      | none => match startMissing b c with
        | some d => finishCmd q n 0x11 d b
        | none => match makeJob b c with
        | .error e => startFails q n false e b
        | .ok j =>
          let c := { c with stage := .running, ran := true }
          match fetchOwners (startEngines c j b) c with
          | .error e => startFails q n false e b
          | .ok owners =>
            match shadowFail c owners with
            | some e => finishCmd q n e.status e.detail b
            | none => match takeTally c b with
            | none => finishCmd q n 0x38 (c.scanTally % 65536) b
            | some b =>
              let j := { j with owners := owners, ordered := needsOrder (devId b) c owners }
              let b := noteStreams c j (startEngines c j b)
              startScan c j (ownerGrants c (countStart b c j b))

/-- A class row on a command that runs: a pure move takes its next portion on every cluster that can. -/
def kernelRow (cls q n : Nat) (b : Block) : Block :=
  match findCmd b q n with
  | none => b
  | some c =>
    if c.cls ≠ cls then b
    else if c.stage == .dispatched then kernelStart cls q n b
    else if c.stage == .running && c.isMove then c.clusters.foldl (fun b cl => moveStep cl b) b
    else b

/-! ### The end (R251, 06 R143, 13 R367) -/

/-- A kernel-class command has finished normally: its stages are empty and its summary is done. -/
def kernelDone (b : Block) (c : Cmd) : Bool :=
  match jobOf b c.queue c.count with
  | none => false
  | some j => kernelWorkDone b c j && (c.mode == 0 || j.summed) && (!c.isMove || j.moved == c.elems 0 * c.parts)

/-- Advances the cursors of the sequential streams it named (R367). -/
def advanceCursors (c : Cmd) (j : Job) (b : Block) : Block :=
  (c.streams.map (fun s => (s.2, if s.1 = 0x0C then j.rand else j.cvt))).eraseDups.foldl (fun b s =>
    if isSequential s.2 then
      match vWrite c.ctx ((ctx b c.ctx).sporeVa + 64 * s.1 + 0x10) (leBytes 8 (fieldAt s.2 0x10 8 + 32768 * c.allTiles)) [] b with
      | .ok b => b
      | .error _ => b
    else b) b

/-- Tile buffers at a normal end (06 R143): TEMP becomes FREE, OUT_BUF becomes FULL, the others keep what they hold. -/
def endVe (c : Cmd) (v : Nat) (b : Block) : Block :=
  let x := ve b v
  let b := setVe v { Ve.fresh with words := x.words, pois := x.pois } b
  let b := c.temp.foldl (fun b k => setTb v k 0 b) b
  let b := x.release.foldl (fun b k => setTb v k 0 b) b
  let b := if c.outTb then setTb v c.outBuf 2 b else b
  wr b (rVE_STATE v) 0

/-- Engines of a cluster after a normal end. -/
def endCluster (c : Cmd) (cl : Nat) (b : Block) : Block :=
  let b := wr { b with ses := mapErase b.ses cl } (rSE_STATE cl) 0
  let b := (List.range 4).foldl (fun b i => releaseOpu b (4 * cl + i)) b
  c.ves.foldl (fun b i => endVe c (2 * cl + i) b) b

/-- Finishes a kernel-class command that is done. -/
def kernelEnd (c : Cmd) (b : Block) : Block :=
  match jobOf b c.queue c.count with
  | none => b
  | some j =>
    let b := if c.status = 0 then advanceCursors c j b else b
    let b := c.clusters.foldl (fun b cl => endCluster c cl b) b
    finishCmd c.queue c.count c.status c.detail b

end Sys2Proof.Machine
end

