-- ==== Sys2Proof/Machine/CmdRows.lean ====
section
/-!
DEFINITION. Commands that use no engine (15 R429–R432), dispatch opportunities and completion (15 R421, 16 R447–R452).
-/

namespace Sys2Proof.Machine

/-- Runs an operation on a dispatched command of a class that has no stage, so that its record does not show RAN (R433, log 168). -/
def onDispatched (cls q n : Nat) (f : Cmd → Block → Block) (b : Block) : Block :=
  match findCmd b q n with
  | none => b
  | some c =>
    if c.stage == .dispatched && c.cls == cls then
      let c := { c with stage := .running }
      f c (setCmd c b)
    else b

/-- FENCE and DRAIN (R429): what they wait for has happened at their dispatch; tables are walked at each access (log 6). -/
def fenceRow (cls q n : Nat) (b : Block) : Block := onDispatched cls q n (fun _ => finishCmd q n 0 0) b

/-! ### WAIT (15 R430) -/

/-- MODE, TIME and TIMEOUT of a WAIT. -/
def Cmd.waitMode (c : Cmd) : Nat := byteAt c.desc 0x10
/-- TIME. -/
def Cmd.waitTime (c : Cmd) : Nat := fieldAt c.desc 0x18 8
/-- TIMEOUT. -/
def Cmd.waitTimeout (c : Cmd) : Nat := fieldAt c.desc 0x20 8

/-- A WAIT of a MODE that ends at a time: at once where the time has come. MODE 2 counts from its dispatch. -/
def waitFrom (mode q n : Nat) (ends : Cmd → Block → Nat) (b : Block) : Block :=
  onDispatched 0x0C q n (fun c b =>
    if c.waitMode ≠ mode then setCmd { c with stage := .dispatched } b
    else
      let t := ends c b
      if t ≤ now b then finishCmd q n 0 0 b else setCmd { c with endAt := t } b) b

/-- WAIT_TIMER_EXPIRY: a running WAIT's time has come, or a WAIT that is its queue's next command passes its TIMEOUT, which counts from when
it became that, with its token not reached. -/
def waitExpiry (q n : Nat) (b : Block) : Block :=
  match findCmd b q n with
  | none => b
  | some c =>
    if c.cls ≠ 0x0C then b
    else if c.stage == .running then if c.endAt ≤ now b then finishCmd q n 0 0 b else b
    else if (c.stage == .fetched || c.stage == .held) && (cmdsOf b q).head? == some c && qState b q == 1
        && c.waitTimeout != 0 && decide (c.since + c.waitTimeout ≤ now b) && (descFail c).isNone && !tokenReached b c then
      finishCmd q n 0x17 0 (takeDispSeq c { b with dispatches := b.dispatches + 1 })
    else b

/-! ### EVENT (15 R431) -/

/-- EVENT: posts its USER record; the command completes once the record is visible. -/
def eventRow (q n : Nat) (b : Block) : Block :=
  onDispatched 0x0D q n (fun c b =>
    postTo (byteAt c.desc 0x10 % 16) ⟨0x0600, c.ctx, 4, q, c.seq, now b, fieldAt c.desc 0x18 8⟩ b) b

/-- The USER record of an EVENT command still waits to be written. -/
def eventWaits (b : Block) (c : Cmd) : Bool :=
  let r := ring b (byteAt c.desc 0x10 % 16)
  (r.posted ++ r.waiting).any (fun e => e.code == 0x0600 && e.queue == c.queue && e.seq == c.seq)

/-- A running EVENT command whose record is out completes. -/
def eventSettle (b : Block) (c : Cmd) : Block :=
  if c.stage == .running && c.cls == 0x0D && !eventWaits b c then finishCmd c.queue c.count 0 0 b else b

/-! ### TXN (15 R432) -/

/-- PAGE and OP of a TXN descriptor. -/
def Cmd.txnPage (c : Cmd) : Nat := fieldAt c.desc 0x10 2
/-- OP. -/
def Cmd.txnOp (c : Cmd) : Nat := byteAt c.desc 0x12

/-- Offset within the page of the control register: TX_CTL of the TX page, else TXN_CTL. -/
def txnCtlOff (p : Nat) : Nat := if p = 1 then 0x040 else 0x020

/-- State, owner and RESULT that the control register's status shows. -/
def txnStatus (b : Block) (p : Nat) : Nat × Nat × Nat :=
  if p = 1 then (get b fTX_STAT_STATE, get b fTX_STAT_OWNER, get b fTX_STAT_RESULT)
  else (txnState b p, get b (fTXN_STAT_OWNER (pageBase p)), get b (fTXN_STAT_RESULT (pageBase p)))

/-- Writes a CMD with the TIMEOUT that the register holds. -/
def txnCtlWrite (p cmd : Nat) (b : Block) : Block × Bool :=
  let off := pageBase p + txnCtlOff p
  regWriteOk .txn off 4 (BitVec.ofNat 32 (cmd + field (rd b off) 23 8 * 256)) b

/-- Runs an operation on a dispatched TXN command of an OP. -/
def onTxn (op q n : Nat) (f : Cmd → Block → Block) (b : Block) : Block :=
  match findCmd b q n with
  | none => b
  | some c => if c.txnOp = op then onDispatched 0x0E q n f b else b

/-- BEGIN: OK when the page is OPEN with host ownership after the write. -/
def txnCmdBegin (q n : Nat) (b : Block) : Block :=
  onTxn 1 q n (fun c b =>
    let off := pageBase c.txnPage + txnCtlOff c.txnPage
    let b := (regWriteOk .txn off 4 (BitVec.ofNat 32 (1 + fieldAt c.desc 0x14 2 * 256)) b).1
    let s := txnStatus b c.txnPage
    if s.1 = 1 ∧ s.2.1 = 0 then finishCmd q n 0 0 b else finishCmd q n 0x18 (txnCtlOff c.txnPage) b) b

/-- A running COMMIT command whose transaction has its outcome completes. -/
def txnSettle (b : Block) (c : Cmd) : Block :=
  if c.stage == .running && c.cls == 0x0E && c.txnOp == 2 then
    let s := txnStatus b c.txnPage
    if s.1 ≠ 0 then b
    else if s.2.2 = 1 then finishCmd c.queue c.count 0 0 b
    else finishCmd c.queue c.count 0x19 s.2.2 b
  else b

/-- COMMIT: a discarded write completes it with TXN_REFUSED; else it waits for the outcome. -/
def txnCmdCommit (q n : Nat) (b : Block) : Block :=
  onTxn 2 q n (fun c b =>
    let r := txnCtlWrite c.txnPage 2 b
    if r.2 then txnSettle r.1 c else finishCmd q n 0x18 (txnCtlOff c.txnPage) r.1) b

/-- ROLLBACK: OK once the page is IDLE. -/
def txnCmdRollback (q n : Nat) (b : Block) : Block :=
  onTxn 3 q n (fun c b =>
    let b := (txnCtlWrite c.txnPage 3 b).1
    if (txnStatus b c.txnPage).1 = 0 then finishCmd q n 0 0 b else finishCmd q n 0x18 (txnCtlOff c.txnPage) b) b

/-- Stages pairs in order, up to the first that is discarded: its offset. -/
def txnPairs (p : Nat) : List (Nat × Nat) → Block → Option Nat × Block
  | [], b => (none, b)
  | (o, v) :: t, b =>
    let r := regWriteOk .txn (pageBase p + o) 4 (BitVec.ofNat 32 v) b
    if r.2 then txnPairs p t r.1 else (some o, r.1)

/-- WRITE. -/
def txnCmdWrite (q n : Nat) (b : Block) : Block :=
  onTxn 4 q n (fun c b =>
    let ps := (List.range (byteAt c.desc 0x13)).map (fun i => (fieldAt c.desc (0x18 + 8 * i) 4, fieldAt c.desc (0x1C + 8 * i) 4))
    let r := txnPairs c.txnPage ps b
    match r.1 with
    | none => finishCmd q n 0 0 r.2
    | some o => finishCmd q n 0x18 o r.2) b

/-! ### Dispatch and completion -/

/-- Firedamp has kept a command from its start for longer than the host's latency tolerance (16 R452, log 87): from FD2 on a ready or
held command, at FD1 a held one, whose engines run paced. -/
def startsLate (b : Block) : Bool :=
  let held := b.cmds.filter (fun c => c.stage == .held)
  let kept := if 2 ≤ fdLevel b then readyHeads b ++ held else held
  decide (1 ≤ fdLevel b) && b.fd.yieldedAt != fdLevel b
    && kept.any (fun c => decide (100 * get b fPW_LATTOL_TOL_US < now b - c.since))

/-- R452: the first late start of a firedamp episode. -/
def lateStart (b : Block) : Block :=
  if startsLate b then
    let l := fdLevel b
    yieldGuarantee 2 4 1 l (setFd (fun f => { f with yieldedAt := l }) b)
  else b

/-- DISPATCH_OPPORTUNITY (16 R447–R449, R452). -/
def dispatchRow (b : Block) : Block := dispatchOpportunity (lateStart b)

/-- COMMAND_COMPLETION (15 R421): kernel-class commands of the queue that are done end, and its oldest writes its record. -/
def completionRow (q : Nat) (b : Block) : Block :=
  let ended := fun (b : Block) (c : Cmd) =>
    if c.stage == .running && kernelDone b c then kernelEnd c b else b
  completeOldest q ((cmdsOf b q).foldl ended b)

end Sys2Proof.Machine
end

