-- ==== Sys2Proof/Machine/Settle.lean ====
section
/-!
DEFINITION. What follows from every command: outcomes that the new state decides, and the registers that show state kept
elsewhere; and the PCLK tick of an empty queue.
-/

namespace Sys2Proof.Machine

/-! ### Outcomes -/

/-- A running command of the gang's groups: a collective, or a scan on a drift. -/
def gangCommand (b : Block) : Bool :=
  b.cmds.any (fun c => c.active && (c.cls == 0x06 || (c.cls == 0x05 && (c.fromDrift || c.toDrift))))

/-- After GANG_LOST, the member is in NONE once its commands of the gang's groups have completed (13 R358). -/
def lostSettle (b : Block) : Block :=
  if b.pit.lost && pitState b == 6 && !gangCommand b then dropGang b else b

/-- FD3 ends a securing (14 R391). -/
def secureSettle (b : Block) : Block := if fdLevel b = 3 then secureAbort b else b

/-- Commands whose outcome the new state decides; buckets and scans whose command is over. -/
def outcomes (b : Block) : Block :=
  let b := stepHalts (b.cmds.foldl txnSettle (b.cmds.foldl eventSettle b))
  leaveSettle (lostSettle (secureSettle (scanAborted (collAborted (fd3Settle b)))))

/-! ### Registers that show state kept elsewhere -/

/-- Writes a field only where it differs. -/
def showField (f : Fld) (v : Nat) (b : Block) : Block := if get b f = v then b else put f v b

/-- PW_ASTATE (17 R495). -/
def showActivity (b : Block) : Block :=
  showField fPW_ASTATE_A3_BLOCK (a3Block b) (showField fPW_ASTATE_IDLE (b2n (ready b && deviceIdle b))
    (showField fPW_ASTATE_ALLOWED (allowedState b) b))

/-- PW_PACE beyond LEVEL (17 R495). -/
def showPace (b : Block) : Block :=
  let n := fun (f : Nat → Fld) => ((List.range 32).filter (fun c => isSet b (f c))).length
  showField fPW_PACE_CAP (fdCap (fdLevel b)) (showField fPW_PACE_GOV_PARKED (n fCL_BLK_STAT_GOV_PARKED)
    (showField fPW_PACE_HOST_PARKED (n fCL_BLK_STAT_PARKED) b))

/-- SC_DISPATCH.HELD (16 R470). -/
def showHeld (b : Block) : Block :=
  showField fSC_DISPATCH_HELD (min 63 (b.cmds.filter (fun c => c.stage == .held)).length) b

/-- PW_FD.CAUSE (17 R495): the lowest code among the causes that call for the current level; none at level 0; at a level that is held after
its causes have gone (R489), the cause that called for it last. -/
def showCause (b : Block) : Block :=
  if fdLevel b = 0 then showField fPW_FD_CAUSE 0 b
  else if fdCauseOf b (fdLevel b) = 0 then b
  else showField fPW_FD_CAUSE (fdCauseOf b (fdLevel b)) b

/-- PW_FD.FD_N_IN and FD_N_OUT (17 R495): the pin is low while this module or another drives it. -/
def showFdn (b : Block) : Block :=
  showField fPW_FD_FD_N_IN (b2n (b.fd.fdnPin || fdnDriven b)) (showField fPW_FD_FD_N_OUT (b2n (fdnDriven b)) b)

/-- The sampled registers, while the control path runs. -/
def samples (b : Block) : Block :=
  if domOn b domPwr then
    showFdn (showCause (showHeld (showPace (showActivity (coolSettle (redSample b))))))
  else b

/-- What follows from every command. -/
def settle (b : Block) : Block := samples (outcomes b)

/-- Runs a command's operation on the block. -/
def State.run (f : Block → Block) (s : State) : Host.Outcome State Fault Refusal :=
  .next { s with blk := settle (f s.blk) }

/-! ### The PCLK tick (log 15) -/

/-- The timers of TM: 100 MHz and 1,200 MHz (15 R443), and the pacing level at a multiple of 64 ACLK (17 R484). -/
def tickTime (b : Block) : Block :=
  let a := rd64 b rTM_ACLK_LO
  let b := count64 rTM_TS_LO 1 (count64 rTM_ACLK_LO 12 b)
  match b.paceNext with
  | some l => if a / 64 = (a + 12) / 64 then b else put fPW_PACE_LEVEL l { b with paceNext := none }
  | none => b

/-- An activation that waits or is paused counts its seconds; the pause begins once the step under way has completed (16 R463 and the
example of R466). -/
def tickWait (b : Block) : Block :=
  if fwState b = 3 ∨ ((fwState b = 4 ∨ fwState b = 5) ∧ b.fw.paused ∧ b.fw.stepping = none) then
    let n := b.fw.waited + 1
    showField fSEC_FW_WAIT_SECONDS (min (n / 100000000) 0xFFFFFFFF) (setFw (fun f => { f with waited := n }) b)
  else b

/-- The dividers run from the end of boot phase CLOCKS until PWR_GOOD falls, a module reset included (17 R473, R492). -/
def dividersRun (b : Block) : Bool :=
  b.pwr.pwrGood && (!b.pwr.cold || decide (2 ≤ get b fDEV_BLK_STAT_BOOT_PHASE))

/-- A port in TRAINING or RECOVERY sends its CAPS every 1 µs (15 R407), counted by TM_TS (log 15). -/
def capsTimer (b : Block) (p : Nat) : Block :=
  if now b % 100 = 0 ∧ (portState b p = 1 ∨ portState b p = 3) then sendCaps p b else b

/-- One PCLK cycle without a command: time counts while the dividers run, due ACKs leave (11 R289), and training ports
send CAPS (15 R407). -/
def tick (b : Block) : Block :=
  if dividersRun b then (List.range 2).foldl capsTimer ((List.range 20).foldl lateAck (tickWait (tickTime b))) else b

end Sys2Proof.Machine
end

