-- ==== Sys2Proof/Machine/RowOps.lean ====
section
/-!
DEFINITION. Operations that a row of the command table needs beside the shared ones: writes that a row names by field, lane
instructions one at a time, and received chunk messages.
-/

namespace Sys2Proof.Machine

/-- A row that carries an input voltage: above 50.0 V the module's behaviour is not specified (02 R35). -/
def State.runVin (vinMv : Nat) (f : Block → Block) (s : State) : Host.Outcome State Fault Refusal :=
  if 50000 < vinMv then .fault .beyondAbsoluteMaximum else s.run f

/-! ### Writes named by a field -/

/-- A write of a value to a register. -/
def writeNat (port : Port) (off v : Nat) (b : Block) : Block := regWriteAt port off 4 (BitVec.ofNat 32 v) b

/-- A TXN_CTL write: CMD and TIMEOUT (03 R73). -/
def pageCommand (port : Port) (page cmd timeout : Nat) (b : Block) : Block :=
  writeNat port (rTXN_CTL (pageBase page)) (cmd + timeout % 65536 * 256) b

/-- A TX_CTL write (03 R79). -/
def deviceCommand (port : Port) (cmd timeout : Nat) (b : Block) : Block :=
  writeNat port rTX_CTL (cmd + timeout % 65536 * 256) b

/-- An SC_CTX_CTL write: CTX and CMD (15 R416). -/
def contextCommand (port : Port) (ctx cmd : Nat) (b : Block) : Block :=
  writeNat port rSC_CTX_CTL (ctx % 64 + cmd * 256) b

/-! ### Dynamic address assignment (02 R47) -/

/-- SETDASA to a static address: the module's own is 0x40 + MOD_ADDR. -/
def setDasa (static addr : Nat) (b : Block) : Block :=
  if i3cUp b ∧ static = 0x40 + b.pwr.modAddr then setPwr (fun p => { p with dynAddr := some (addr % 128) }) b else b

/-- ENTDAA: a module that holds no dynamic address takes one. -/
def entDaa (addr : Nat) (b : Block) : Block :=
  if i3cUp b ∧ b.pwr.dynAddr = none then setPwr (fun p => { p with dynAddr := some (addr % 128) }) b else b

/-! ### Link timers and the TAP -/

/-- ACK_TIMER (11 R289): an accepted DATA flit not yet acknowledged is acknowledged with what came since. -/
def ackTimerRow (l : Nat) (b : Block) : Block :=
  if linkUp b l ∧ (link b l).sinceAck ≠ 0 then sendAck l b else b

/-- BYPASS (18 R510): the 1-bit register captures 0. -/
def jtagBypassRow (b : Block) : Block := emit (.tdo 0 1) (tapSelect 0xFF b)

/-- IDCODE (18 R510): stepping 1, part 0xB240, manufacturer 0x3A5, and a 1. -/
def jtagIdcodeRow (b : Block) : Block := emit (.tdo 0x1B24074B 32) (tapSelect 0x01 b)

/-! ### Lane instructions (06 R148–R151, R162) -/

/-- Runs one instruction of the VE's command on lane element (m, n): X, a tile-buffer element where DST names one, flags, counts
and poison; `tbl` names elements whose SFU evaluation reads a wrong table word. Without a command, or with an argument that the instruction
does not take, nothing runs. -/
def laneInstr (op v m n dst a b' c' : Nat) (tbl : List (Nat × W32)) (b : Block) : Block :=
  let x := ve b v
  let w : LaneWord := ⟨op, dst, a, b', c'⟩
  match jobCmd b x.job with
  | none => b
  | some (c, j) =>
    match workNow b v c with
    | none => b
    | some (wk, rank) =>
      if !w.argOk j.psidy then b
      else
        let k := 256 * m + n
        let r := laneStep x { laneEnv b v c j wk with tbl := tbl } m n (positionOf c rank v wk m n)
          ⟨mapGet 0 x.x k, x.xPois.contains k, [], 0, 0, 0, false⟩ w
        if r.used then poisonTask (v / 2) c.queue c.count b
        else
          let x := r.tmps.foldl (fun x t => putElem c.pack t.1 m n t.2 x) x
          let x := { x with x := mapSet 0 x.x k r.x, xPois := if r.xp then setInsert x.xPois k else setErase x.xPois k }
          veFlags v r.fl (addCounts c.queue c.count r.nans r.ovfs (setVe v x b))

/-- VE_SFU with the errors that its reads of tables and stores meet (06 R162, 07 R199). -/
def laneSfu (v m n dst a fn : Nat) (ups : List Upset) (b : Block) : Block :=
  match jobCmd b (ve b v).job with
  | none => b
  | some (c, j) =>
    if (workNow b v c).isNone || !(⟨0x0D, dst, a, fn, 0⟩ : LaneWord).argOk j.psidy then b
    else
      let u := veUpsets v ups b
      if u.stop then poisonTask (v / 2) c.queue c.count u.blk else laneInstr 0x0D v m n dst a fn 0 u.tbl u.blk

/-! ### Chunk messages (12 R317–R338) -/

/-- A received message of CLASS 1 or 2 counts on its half once (R342): one that is held for its generation is not counted again. -/
def countRxOnce (half : Nat) (m : Msg) (b : Block) : Block :=
  if b.gang.counted.contains m then { b with gang := { b.gang with counted := b.gang.counted.erase m } }
  else
    let b := countRx half m b
    if get b fGG_STATE_ROLE ≠ 0 ∧ genGate b m.mgen = .hold then { b with gang := { b.gang with counted := b.gang.counted ++ [m] } } else b

/-- A message of CLASS 1 or 2 for this device, delivered by an adit: its payload counts on the adit's half (R342), the check of R301 comes
first, and the half's engine handles it in its turn (R322). An engine that is off handles and counts nothing (03 R68). -/
def chunkMsg (adit : Nat) (m : Msg) (f : Nat → Block → Block) (b : Block) : Block :=
  let half := aditHalf adit
  if m.dst ≠ devId b ∨ (m.cls ≠ 1 ∧ m.cls ≠ 2) ∨ !domOn b (domRed half) then b
  else
    gated m (fun b =>
      let b := redGrant half (adit % 9) b
      (crossClass half m b).getD (f half b)) (countRxOnce half m b)

/-- CHUNK_DATA (R319, R323, R331–R333), with the errors that the reads of the chunk's buffer meet (04 R107). -/
def chunkData (adit : Nat) (m : Msg) (ups : List Upset) (b : Block) : Block :=
  chunkMsg adit m (fun half b => if m.cls = 1 then
    classify half m [1] (fun c h => c.predOf c.pos == some h.pos) (useData half ups m) b else b) b

/-- CHUNK_GRANT (R320): of a collective's successor, or of a scan's. -/
def chunkGrant (adit : Nat) (m : Msg) (b : Block) : Block :=
  chunkMsg adit m (fun half b => if m.cls = 1 then
    classify half m [2] (fun c h => c.succOf c.pos == some h.pos) useGrant b else useScanGrant half m b) b

/-- The master's ABORT for a tally (R337): POS 0xFFFF, COLL_TIMEOUT. -/
def masterMarker (b : Block) (m : Msg) : Bool :=
  let h := chunkHdr m.payload
  m.src == masterId b && h.kind == 3 && h.pos == 0xFFFF && h.chunk == 0x3C

/-- CHUNK_ABORT (R338, 08 R216). -/
def chunkAbort (adit : Nat) (m : Msg) (b : Block) : Block :=
  chunkMsg adit m (fun half b =>
    if m.cls = 2 then useScanAbort half m b
    else if masterMarker b m then collTimedOut (chunkHdr m.payload).tally b
    else classify half m [3] (fun c h => decide (h.pos < c.n) && (c.fromPos m).isSome
        && (c.fromPos m == c.predOf c.pos || c.fromPos m == c.succOf c.pos)) (useAbort m) b) b

/-- CHUNK_CARRY (R334). -/
def chunkCarry (adit : Nat) (m : Msg) (b : Block) : Block :=
  chunkMsg adit m (fun half b => if m.cls = 2 then useCarry half m b else b) b

/-- A message of the closing lap, from the live position before this one (R335). -/
def chunkLap (kind adit : Nat) (m : Msg) (use : Coll → Block → Block) (b : Block) : Block :=
  chunkMsg adit m (fun half b => if m.cls = 1 then
    classify half m [kind] (fun c h => c.prevLap == some h.pos) (fun c _ => use c) b else b) b

/-- GRANT_TIMER (R320): 1 µs after the first free that is not yet reported. -/
def grantTimer (q n : Nat) (b : Block) : Block :=
  match collOf b q n with
  | none => b
  | some c =>
    if c.complete ∨ c.freed = c.told ∨ c.waitVerdict then b
    else
      let g := grant c b
      setColl g.1 g.2

/-- DATA_FLIT: a flit of an adit or of a Chaell port, whose DATA flits carry the transaction stream (15 R406). -/
def flitRow (l number : Nat) (errors : List Nat) (f : List Byte) (b : Block) : Block :=
  let d := dataFlit l number errors f b
  if l < 18 ∨ (link d l).part = (link b l).part then d else takeTxns (l - 18) 64 d

end Sys2Proof.Machine
end

