-- ==== Sys2Proof/Machine/ExecActivity.lean ====
section
/-!
DEFINITION. Meanings of the commands of activity states, parking and firedamp (17): each row of the command table is one operation on the block.
-/

namespace Sys2Proof.Machine

/-- FD_N_LOW (R47): FD_N sampled low for 1 µs while this module does not drive it raises FD2 by reflex, without driving FD_N. -/
def execFdNLow (s : State) : Host.Outcome State Fault Refusal := s.run fdnLow

/-- FD_N_HIGH (R489): FD_N seen high again starts the 10 ms count that ends an FD2 whose only cause is FD_N. -/
def execFdNHigh (s : State) : Host.Outcome State Fault Refusal := s.run fdnHigh

/-- ACTIVITY_STATE_ENTRY (R480): After the idle dwell of the allowed state, the device enters A1, A2 or A3. -/
def execActivityStateEntry (st : Fin 4) (s : State) : Host.Outcome State Fault Refusal := s.run (activityEntry st)

/-- WAKE_CAUSE (R481): A wake cause abandons an entry or starts the return to A0. -/
def execWakeCauseRow (cause : Wake) (s : State) : Host.Outcome State Fault Refusal := s.run (wakeCause cause)

/-- ACTIVITY_EXIT_COMPLETE (R478): The domains are back ON and held accesses complete in arrival order. -/
def execActivityExitComplete (s : State) : Host.Outcome State Fault Refusal := s.run activityExit

/-- TOL_US (R479): A write of PW_LATTOL.TOL_US sets the allowed state, and is a wake cause when lowered below the current
exit latency. -/
def execTolUs (port : Port) (value : W32) (s : State) : Host.Outcome State Fault Refusal :=
  s.run (regWriteAt port rPW_LATTOL 4 value)

/-- GOVERNOR_PARK (R485): A cluster unused for 100 µs is set to RETAIN by the governor. -/
def execGovernorParkRow (cl : Fin 32) (s : State) : Host.Outcome State Fault Refusal := s.run (governorPark cl)

/-- GOVERNOR_UNPARK (R485): A ready command naming a governor-parked cluster powers it ON within 20 µs. -/
def execGovernorUnparkCmd (cl : Fin 32) (s : State) : Host.Outcome State Fault Refusal := s.run (governorUnparkRow cl)

/-- PARK (R486): A host write of BLK_CTL.PARK parks the cluster at its safe point, or with 0 returns it ON within 20 µs. -/
def execPark (port : Port) (cl : Fin 32) (value : W32) (s : State) : Host.Outcome State Fault Refusal :=
  s.run (regWriteAt port (rCL_BLK_CTL cl) 4 value)

/-- DIE_SENSOR_SAMPLE (R487): Every 10 µs the die sensors are compared with the FD1, FD2 and FD3 thresholds. -/
def execDieSensorSample (readings : List Nat) (s : State) : Host.Outcome State Fault Refusal := s.run (dieSample readings)

/-- REGULATOR_FAULT (R487): A module regulator over-current, over-temperature or loss of regulation trips FD3. -/
def execRegulatorFaultRow (lost : Bool) (s : State) : Host.Outcome State Fault Refusal := s.run (regulatorFault lost)

/-- FORCE (R487): A write of PW_FD_CTL.FORCE holds firedamp at FD1 or FD2 or releases it. -/
def execForce (port : Port) (value : W32) (s : State) : Host.Outcome State Fault Refusal :=
  s.run (regWriteAt port rPW_FD_CTL 4 value)

/-- FIREDAMP_FALL_TIMER (R489): After 10 ms without the causes of the higher level, FD1 or FD2 falls. -/
def execFiredampFallTimer (s : State) : Host.Outcome State Fault Refusal := s.run fallTimer

/-- FD3_RECOVERY (R489): After 1 s without FD2 or FD3 causes, the device powers its domains back and the level falls to FD1
for at least 1 s. -/
def execFd3RecoveryRow (s : State) : Host.Outcome State Fault Refusal := s.run fd3Recovery

/-- FD1_HOLD_EXPIRY (R489): The 1 s hold at FD1 after FD3 recovery ends. -/
def execFd1HoldExpiryRow (s : State) : Host.Outcome State Fault Refusal := s.run fd1HoldExpiry

/-- MODULE (R491): A management write of PW_RESET.MODULE with KEY 0xA5 starts a module reset. -/
def execModuleRow (s : State) : Host.Outcome State Fault Refusal := s.run (writeNat .i3c rPW_RESET 0xA501)

end Sys2Proof.Machine
end

