-- ==== Sys2Proof/Machine/ExecCollective.lean ====
section
/-!
DEFINITION. Meanings of the commands of collectives and scan carries (08, 12): each row of the command table is one operation on the block.
-/

namespace Sys2Proof.Machine

/-- REDUCE_SCATTER (R323): A COLLECTIVE REDUCE_SCATTER reduces a bucket along the drift, and each position keeps its own
shard. -/
def execReduceScatter (queue : Fin 512) (count : Nat) (s : State) : Host.Outcome State Fault Refusal :=
  s.run (hostGated (collRun 1 queue count))

/-- ALL_GATHER (R331): A COLLECTIVE ALL_GATHER circulates every owner's shard around the ring. -/
def execAllGather (queue : Fin 512) (count : Nat) (s : State) : Host.Outcome State Fault Refusal :=
  s.run (hostGated (collRun 2 queue count))

/-- BROADCAST (R332): A COLLECTIVE BROADCAST forwards the root's words in drift order. -/
def execBroadcast (queue : Fin 512) (count : Nat) (s : State) : Host.Outcome State Fault Refusal :=
  s.run (hostGated (collRun 3 queue count))

/-- SHIFT (R333): A COLLECTIVE SHIFT sends each position's words to its successor. -/
def execShift (queue : Fin 512) (count : Nat) (s : State) : Host.Outcome State Fault Refusal :=
  s.run (hostGated (collRun 4 queue count))

/-- CHUNK_DATA (R319): A received DATA chunk is classified by tally and round, then added, encoded and forwarded, or written. -/
def execChunkDataRow (adit : Fin 18) (msg : Msg) (upsets : List Upset) (s : State) : Host.Outcome State Fault Refusal :=
  s.run (hostGated (chunkData adit msg upsets))

/-- CHUNK_GRANT (R320): A received cumulative GRANT allows the sender to send further DATA or CARRY chunks. -/
def execChunkGrantRow (adit : Fin 18) (msg : Msg) (s : State) : Host.Outcome State Fault Refusal :=
  s.run (hostGated (chunkGrant adit msg))

/-- GRANT_TIMER (R320): 1 µs after an unreported buffer free, the receiver sends a new cumulative GRANT. -/
def execGrantTimerRow (queue : Fin 512) (count : Nat) (s : State) : Host.Outcome State Fault Refusal :=
  s.run (grantTimer queue count)

/-- CHUNK_ABORT (R338): A received ABORT marker completes the command with the marker's status and forwards it away from the
sender. -/
def execChunkAbortRow (adit : Fin 18) (msg : Msg) (s : State) : Host.Outcome State Fault Refusal :=
  s.run (hostGated (chunkAbort adit msg))

/-- CHUNK_CARRY (R334): A received scan CARRY part is used as the initial carry of the successor's segment 0. -/
def execChunkCarryRow (adit : Fin 18) (msg : Msg) (s : State) : Host.Outcome State Fault Refusal :=
  s.run (hostGated (chunkCarry adit msg))

/-- CHUNK_CLOSE (R335): A position forwards CLOSE once finished, and CLOSE returning to the closer closes the bucket. -/
def execChunkClose (adit : Fin 18) (msg : Msg) (s : State) : Host.Outcome State Fault Refusal :=
  s.run (hostGated (chunkLap 5 adit msg useClose))

/-- CHUNK_CLOSED (R335): A received CLOSED makes the position write its result record, complete and forward CLOSED. -/
def execChunkClosed (adit : Fin 18) (msg : Msg) (s : State) : Host.Outcome State Fault Refusal :=
  s.run (hostGated (chunkLap 6 adit msg useClosed))

/-- CHUNK_RESTART (R336): A received RESTART verdict discards held chunks, reserves a new window and resends from chunk 0
without the failed position. -/
def execChunkRestart (adit : Fin 18) (msg : Msg) (s : State) : Host.Outcome State Fault Refusal :=
  s.run (hostGated (chunkLap 7 adit msg useRestart))

/-- COLLECTIVE_FINISH (R335): Once all its writes and sends are done, a position that is the closer sends CLOSE. -/
def execCollectiveFinish (queue : Fin 512) (count : Nat) (s : State) : Host.Outcome State Fault Refusal :=
  s.run (hostGated (collFinish queue count))

/-- BARRIER_TIMEOUT (R337): A running collective that hears nothing for the barrier timeout sends the master a wait report. -/
def execBarrierTimeoutRow (queue : Fin 512) (count : Nat) (s : State) : Host.Outcome State Fault Refusal :=
  s.run (barrierTimeout queue count)

/-- WAIT_REPORT (R337): The master starts or adds to a 10 ms gathering of wait reports for a tally. -/
def execWaitReport (src mgen tally group waits : Nat) (s : State) : Host.Outcome State Fault Refusal :=
  s.run (waitReportIn src mgen tally group waits)

/-- WAIT_REPORT_GATHER_END (R337): 10 ms after the first report, the master declares silent positions failed or sends ABORT
with COLL_TIMEOUT. -/
def execWaitReportGatherEnd (tally : Nat) (s : State) : Host.Outcome State Fault Refusal := s.run (gatherEnd tally)

/-- SCAN_CARRY_TIMEOUT (R216): No drift carry by the barrier timeout completes the SCAN command with SCAN_CARRY_TIMEOUT. -/
def execScanCarryTimeout (queue : Fin 512) (count : Nat) (s : State) : Host.Outcome State Fault Refusal :=
  s.run (scanTimeout queue count)

/-- SEGMENT_CARRY_ARRIVAL (R212): A carry from the predecessor segment arrives at a VE, so pass 2 or the one-pass scan of its
segment can run. -/
def execSegmentCarryArrival (ve : Fin 64) (upsets : List Upset) (s : State) : Host.Outcome State Fault Refusal :=
  s.run (hostGated (carryArrive ve upsets))

/-- RED_CLR_CNT (R342): A write of RED_CTL.CLR_CNT clears RED_CNT, RED_CNT2 and RED_ECC at once. -/
def execRedClrCnt (port : Port) (half : Fin 2) (s : State) : Host.Outcome State Fault Refusal :=
  s.run (writeNat port (rRED_CTL half) 1)

/-- RED_CLR_BYTES (R342): A write of RED_CTL.CLR_BYTES clears the RED byte counters at once. -/
def execRedClrBytes (port : Port) (half : Fin 2) (s : State) : Host.Outcome State Fault Refusal :=
  s.run (writeNat port (rRED_CTL half) 2)

end Sys2Proof.Machine
end

