-- ==== Sys2Proof/Machine/ExecCommand.lean ====
section
/-!
DEFINITION. Meanings of the commands of queues, commands and event rings (15): each row of the command table is one operation on the block.
-/

namespace Sys2Proof.Machine

/-- SQ_TAIL (R418): A doorbell write of SQ_TAIL makes descriptors up to TAIL − 1 available for fetch. -/
def execSqTail (port : Port) (queue : Fin 512) (value : W32) (s : State) : Host.Outcome State Fault Refusal :=
  s.run (regWriteAt port (rSQ_TAIL queue) 4 value)

/-- ENABLE (R419): A write of SQ_CTL.ENABLE moves a queue between DISABLED and RUNNING, setting DISP_SEQ to NEXT_SEQ − 1. -/
def execSqEnable (port : Port) (queue : Fin 512) (en : Bool) (s : State) : Host.Outcome State Fault Refusal :=
  s.run (writeNat port (rSQ_CTL queue) (b2n en))

/-- RESUME (R419): SQ_CTL.RESUME returns a STOPPED queue to RUNNING. -/
def execSqResume (port : Port) (queue : Fin 512) (s : State) : Host.Outcome State Fault Refusal :=
  s.run (writeNat port (rSQ_CTL queue) 3)

/-- DISCARD (R419): SQ_CTL.DISCARD completes every undispatched command up to TAIL with DISCARDED and returns the queue to
RUNNING. -/
def execSqDiscard (port : Port) (queue : Fin 512) (s : State) : Host.Outcome State Fault Refusal :=
  s.run (writeNat port (rSQ_CTL queue) 5)

/-- DESCRIPTOR_FETCH (R420): The device fetches a descriptor and checks its SEQ against NEXT_SEQ. -/
def execDescriptorFetch (queue : Fin 512) (s : State) : Host.Outcome State Fault Refusal := s.run (fetchDescriptor queue)

/-- DISPATCH_OPPORTUNITY (R447): Every 32 KCLK under SCH, or 128 under RCX, the dispatcher dispatches a held command or picks
a ready command by class wheel and round robin. -/
def execDispatchOpportunityRow (s : State) : Host.Outcome State Fault Refusal := s.run dispatchRow

/-- COMMAND_COMPLETION (R421): A finished command writes its completion record in SEQ order, signals its token and may write
COMMAND_DONE or COMMAND_ERROR and stop its queue. -/
def execCommandCompletion (queue : Fin 512) (s : State) : Host.Outcome State Fault Refusal := s.run (completionRow queue)

/-- KERNEL (R242): A KERNEL command runs its stream, OPU, VE and stream-out stages on the named clusters. -/
def execKernel (queue : Fin 512) (count : Nat) (s : State) : Host.Outcome State Fault Refusal :=
  s.run (hostGated (kernelRow 1 queue count))

/-- COPY (R427): A COPY command moves entry 0 to entry 6 as a pure move. -/
def execCopy (queue : Fin 512) (count : Nat) (s : State) : Host.Outcome State Fault Refusal :=
  s.run (hostGated (kernelRow 2 queue count))

/-- GATHER (R427): A GATHER command moves indexed elements through an INDIR loop on entry 0. -/
def execGatherRow (queue : Fin 512) (count : Nat) (s : State) : Host.Outcome State Fault Refusal :=
  s.run (hostGated (kernelRow 3 queue count))

/-- SCATTER (R427): A SCATTER command writes elements through an INDIR loop on entry 6. -/
def execScatterRow (queue : Fin 512) (count : Nat) (s : State) : Host.Outcome State Fault Refusal :=
  s.run (hostGated (kernelRow 4 queue count))

/-- SCAN (R209): A SCAN command runs an associative scan or ATTN_SCORE over its channel blocks with carry relay. -/
def execScanRowCmd (queue : Fin 512) (count : Nat) (s : State) : Host.Outcome State Fault Refusal :=
  s.run (hostGated (kernelRow 5 queue count))

/-- FENCE (R429): A FENCE command waits for every earlier command of its queue and may invalidate translations. -/
def execFence (queue : Fin 512) (count : Nat) (s : State) : Host.Outcome State Fault Refusal :=
  s.run (fenceRow 0x0A queue count)

/-- DRAIN (R429): A DRAIN command waits for every earlier command of its context and their host writes, and may invalidate
translations. -/
def execDrain (queue : Fin 512) (count : Nat) (s : State) : Host.Outcome State Fault Refusal :=
  s.run (fenceRow 0x0B queue count)

/-- WAIT_TOKEN_ONLY (R430): A WAIT with MODE 0x00 waits on its header token only. -/
def execWaitTokenOnly (queue : Fin 512) (count : Nat) (s : State) : Host.Outcome State Fault Refusal :=
  s.run (waitFrom 0 queue count (fun _ b => now b))

/-- WAIT_UNTIL_TIME (R430): A WAIT with MODE 0x01 waits until the device timestamp reaches TIME. -/
def execWaitUntilTime (queue : Fin 512) (count : Nat) (s : State) : Host.Outcome State Fault Refusal :=
  s.run (waitFrom 1 queue count (fun c _ => c.waitTime))

/-- WAIT_FOR_TIME (R430): A WAIT with MODE 0x02 waits for TIME after dispatch. -/
def execWaitForTime (queue : Fin 512) (count : Nat) (s : State) : Host.Outcome State Fault Refusal :=
  s.run (waitFrom 2 queue count (fun c _ => c.endAt + c.waitTime))

/-- WAIT_TIMER_EXPIRY (R430): A WAIT's time being reached completes it, or its TIMEOUT expiring completes it with
WAIT_TIMEOUT. -/
def execWaitTimerExpiry (queue : Fin 512) (count : Nat) (s : State) : Host.Outcome State Fault Refusal :=
  s.run (waitExpiry queue count)

/-- EVENT (R431): An EVENT command writes a USER record carrying DATA to a ring. -/
def execEvent (queue : Fin 512) (count : Nat) (s : State) : Host.Outcome State Fault Refusal := s.run (eventRow queue count)

/-- TXN_CMD_BEGIN (R432): A queued TXN BEGIN writes BEGIN to a page or TX page as arbiter requester 4. -/
def execTxnCmdBeginRow (queue : Fin 512) (count : Nat) (s : State) : Host.Outcome State Fault Refusal :=
  s.run (txnCmdBegin queue count)

/-- TXN_CMD_COMMIT (R432): A queued TXN COMMIT writes COMMIT and completes when the transaction has an outcome. -/
def execTxnCmdCommitRow (queue : Fin 512) (count : Nat) (s : State) : Host.Outcome State Fault Refusal :=
  s.run (txnCmdCommit queue count)

/-- TXN_CMD_ROLLBACK (R432): A queued TXN ROLLBACK writes ROLLBACK and completes once the page is IDLE. -/
def execTxnCmdRollbackRow (queue : Fin 512) (count : Nat) (s : State) : Host.Outcome State Fault Refusal :=
  s.run (txnCmdRollback queue count)

/-- TXN_CMD_WRITE (R432): A queued TXN WRITE stages up to five register writes in order. -/
def execTxnCmdWriteRow (queue : Fin 512) (count : Nat) (s : State) : Host.Outcome State Fault Refusal :=
  s.run (txnCmdWrite queue count)

/-- EV_HEAD (R437): A host write of EV_HEAD frees ring space, so RING_OVERFLOW and the waiting records are written. -/
def execEvHeadRow (port : Port) (ring : Fin 16) (value : W32) (s : State) : Host.Outcome State Fault Refusal :=
  s.run (regWriteAt port (rEV_HEAD ring) 4 value)

/-- EVENT_RECORD_WRITE (R437): The device writes an event record to its ring, or holds or drops it while the ring is blocked. -/
def execEventRecordWrite (ring : Fin 16) (s : State) : Host.Outcome State Fault Refusal := s.run (recordWrite ring)

/-- INTERRUPT_MODERATION_EXPIRY (R438): At the end of a MOD interval, one interrupt covers the records written inside it. -/
def execInterruptModerationExpiry (ring : Fin 16) (s : State) : Host.Outcome State Fault Refusal :=
  s.run (moderationExpiry ring)

/-- EV_CFG_ENABLE (R437): A write of EV_CFG.ENABLE that enables a ring unblocks it, so RING_OVERFLOW and the records waiting
for it are written in order. -/
def execEvCfgEnable (port : Port) (ring : Fin 16) (value : W32) (s : State) : Host.Outcome State Fault Refusal :=
  s.run (regWriteAt port (rEV_CFG ring) 4 value)

end Sys2Proof.Machine
end

