-- ==== Sys2Proof/Machine/ExecFabric.lean ====
section
/-!
DEFINITION. Meanings of the commands of adits, links and messages on their way (11): each row of the command table is one operation on the block.
-/

namespace Sys2Proof.Machine

/-- AD_EN_WRITE (R475): A write of AD_CTL.EN = 1 powers the adit's domain and enters DETECT; EN = 0 abandons any retrain and
sends the adit to DISABLED. -/
def execAdEnWrite (port : Port) (adit : Fin 18) (en : Bool) (s : State) : Host.Outcome State Fault Refusal :=
  s.run (writeNat port (rAD_CTL adit) (b2n en))

/-- PRESENCE_DETECTED (R291): ADnn_PRSNT_N low in DETECT starts TRAIN. -/
def execPresenceDetected (adit : Fin 18) (optical : Bool) (s : State) : Host.Outcome State Fault Refusal :=
  s.run (presenceSeen adit optical)

/-- PRESENCE_LOST (R291): Presence lost for 1 µs in any state from TRAIN onward sends the adit to DOWN. -/
def execPresenceLostRow (adit : Fin 18) (s : State) : Host.Outcome State Fault Refusal := s.run (presenceLost adit)

/-- TRAIN_COMPLETE (R291): Equalisation, reversal and polarity detection finish, and the adit enters ALIGN. -/
def execTrainComplete (adit : Fin 18) (reversed : Bool) (s : State) : Host.Outcome State Fault Refusal :=
  s.run (trainDone adit reversed)

/-- TRAIN_TIMEOUT (R291): TRAIN exceeding its limit sends the adit to DOWN. -/
def execTrainTimeoutRow (adit : Fin 18) (s : State) : Host.Outcome State Fault Refusal := s.run (trainTimeout adit)

/-- ALIGN_COMPLETE (R291): Codeword and flit lock on all lanes enter IDENT. -/
def execAlignComplete (adit : Fin 18) (s : State) : Host.Outcome State Fault Refusal := s.run (alignDone adit)

/-- ALIGN_TIMEOUT (R291): ALIGN exceeding 1 ms sends the adit to DOWN. -/
def execAlignTimeoutRow (adit : Fin 18) (s : State) : Host.Outcome State Fault Refusal := s.run (alignTimeout adit)

/-- IDENT_FLIT (R292): A received IDENT flit is compared with the one before it and enters UP, holds IDENT with ID_CONFLICT,
or is ignored in UP. -/
def execIdentFlitRow (adit : Fin 18) (id peerAdit step : Nat) (up : Bool) (s : State) : Host.Outcome State Fault Refusal :=
  s.run (identFlit adit id peerAdit step up)

/-- IDENT_SEND_TIMER (R292): Every 1 µs in IDENT, or in UP until the peer confirms, the adit sends an IDENT flit. -/
def execIdentSendTimer (adit : Fin 18) (s : State) : Host.Outcome State Fault Refusal := s.run (identTimer adit)

/-- RETRAIN_TRIGGER (R293): Lane lock loss, more than 16 uncorrectable codewords in 1 ms, or 16 replays of one flit send an
UP adit to RETRAIN. -/
def execRetrainTrigger (adit : Fin 18) (s : State) : Host.Outcome State Fault Refusal := s.run (retrainNow adit)

/-- AD_RETRAIN (R293): A host write of AD_CTL.RETRAIN sends an UP adit to RETRAIN. -/
def execAdRetrain (port : Port) (adit : Fin 18) (en : Bool) (s : State) : Host.Outcome State Fault Refusal :=
  s.run (writeNat port (rAD_CTL adit) (b2n en + 2))

/-- QUICK_RETRAIN_COMPLETE (R293): A quick retrain that realigns returns the adit to UP and replays its unacknowledged
messages. -/
def execQuickRetrainComplete (adit : Fin 18) (s : State) : Host.Outcome State Fault Refusal := s.run (quickDone adit)

/-- QUICK_RETRAIN_FAIL (R293): A quick retrain not done in 2 ms starts a full retrain of TRAIN and ALIGN. -/
def execQuickRetrainFail (adit : Fin 18) (s : State) : Host.Outcome State Fault Refusal := s.run (quickFail adit)

/-- DOWN_RETRY_TIMER (R291): 1 s after entering DOWN with EN = 1, the adit returns to DETECT. -/
def execDownRetryTimer (adit : Fin 18) (s : State) : Host.Outcome State Fault Refusal := s.run (downRetryAdit adit)

/-- AD_CLR_CNT (R310): A write of AD_CTL.CLR_CNT clears AD_FEC, AD_RETRY and AD_TRAIN. -/
def execAdClrCnt (port : Port) (adit : Fin 18) (en : Bool) (s : State) : Host.Outcome State Fault Refusal :=
  s.run (writeNat port (rAD_CTL adit) (b2n en + 4))

/-- DATA_FLIT (R289): A received DATA flit on an adit or Chaell port is accepted and counted, or discarded as a bad flit with
one NAK. -/
def execDataFlitRow (link : Fin 20) (number : Fin 4096) (errors : List Nat) (flit : List Byte) (s : State) :
    Host.Outcome State Fault Refusal :=
  s.run (flitRow link number errors flit)

/-- ACK_FLIT (R289): A received cumulative ACK frees replay-buffer space up to its count. -/
def execAckFlitRow (link : Fin 20) (count : Nat) (s : State) : Host.Outcome State Fault Refusal := s.run (ackFlit link count)

/-- NAK_FLIT (R289): A received NAK makes the sender replay from the named flit. -/
def execNakFlitRow (link : Fin 20) (count : Nat) (s : State) : Host.Outcome State Fault Refusal := s.run (nakFlit link count)

/-- ACK_TIMER (R289): 100 ns after the oldest unacknowledged accepted DATA flit, the receiver sends a cumulative ACK. -/
def execAckTimer (link : Fin 20) (s : State) : Host.Outcome State Fault Refusal := s.run (ackTimerRow link)

/-- REPLAY_TIMEOUT (R289): With unacknowledged flits and no ACK advance for 3 µs, the sender replays from its oldest
unacknowledged flit. -/
def execReplayTimeoutRow (link : Fin 20) (s : State) : Host.Outcome State Fault Refusal := s.run (replayTimeout link)

/-- MESSAGE_FORWARD (R299): A message whose DST is not this device is forwarded on its route-table bundle with HOPS
incremented, or dropped and counted. -/
def execMessageForward (msg : Msg) (s : State) : Host.Outcome State Fault Refusal := s.run (forwardMsg msg)

/-- PEER_RETRAIN_SIGNAL (R293): An UP adit that receives its peer's retrain signal enters RETRAIN so that both sides retrain
together. -/
def execPeerRetrainSignal (adit : Fin 18) (s : State) : Host.Outcome State Fault Refusal := s.run (retrainNow adit)

end Sys2Proof.Machine
end

