-- ==== Sys2Proof/Machine/ExecFirmware.lean ====
section
/-!
DEFINITION. Meanings of the commands of firmware processors and images (16): each row of the command table is one operation on the block.
-/

namespace Sys2Proof.Machine

/-- CORE_WATCHDOG_FIRE (R453): A control-core watchdog fire aborts the cluster's task with ABORTED_CORE, stops dispatch to
the cluster and restarts the core. -/
def execCoreWatchdogFire (cl : Fin 32) (s : State) : Host.Outcome State Fault Refusal := s.run (coreFire cl)

/-- SCH_WATCHDOG_FIRE (R454): An SCH watchdog fire hands dispatch and SCH work to RCX within 50 µs and restarts SCH. -/
def execSchWatchdogFire (takeUs : Nat) (s : State) : Host.Outcome State Fault Refusal := s.run (schFire takeUs)

/-- RCX_WATCHDOG_FIRE (R455): An RCX core watchdog fire moves its work to the other cores and restarts it. -/
def execRcxWatchdogFire (core : Fin 4) (s : State) : Host.Outcome State Fault Refusal := s.run (rcxFire core)

/-- PWR_WATCHDOG_FIRE (R456): A PWR watchdog fire holds pacing and parking and restarts PWR. -/
def execPwrWatchdogFire (s : State) : Host.Outcome State Fault Refusal := s.run pwrFire

/-- SEC_WATCHDOG_FIRE (R457): A SEC watchdog fire pauses attestation, staging and rolls and restarts SEC. -/
def execSecWatchdogFire (s : State) : Host.Outcome State Fault Refusal := s.run secFire

/-- WATCHDOG_SERVICE (R445): A processor's first watchdog service after a restart ends its restart, and for SCH returns
dispatch to it. -/
def execWatchdogServiceRow (proc : ProcId) (nearMiss : Bool) (upsets : List Upset) (s : State) : Host.Outcome State Fault Refusal :=
  s.run (watchdogService attStart (procKey proc) nearMiss upsets)

/-- RESTART_LIMIT_MISSED (R445): A processor that misses its restart limit is held down, fails its cluster, or leaves the
device with no dispatcher. -/
def execRestartLimitMissed (proc : ProcId) (s : State) : Host.Outcome State Fault Refusal :=
  s.run (restartMissed (procKey proc))

/-- PWR_ABSENT_TIMEOUT (R456): PWR not serviced 20 ms after its fire makes hardware raise FD2 and drive FD_N. -/
def execPwrAbsentTimeout (s : State) : Host.Outcome State Fault Refusal := s.run pwrAbsent

/-- STAGE (R460): SEC_FW_CTL STAGE makes SEC read, verify and write an image to the staged bank. -/
def execStageRow (port : Port) (s : State) : Host.Outcome State Fault Refusal := s.run (writeNat port rSEC_FW_CTL 1)

/-- STAGE_COMPLETE (R500): SEC finishes verifying a staged image and reports STAGED or a refusal cause. -/
def execStageCompleteRow (s : State) : Host.Outcome State Fault Refusal := s.run (hostGated stageComplete)

/-- ACTIVATE (R461): SEC_FW_CTL ACTIVATE starts a roll, or makes it wait for HOLD, firedamp or SEC. -/
def execActivateRow (port : Port) (s : State) : Host.Outcome State Fault Refusal := s.run (writeNat port rSEC_FW_CTL 2)

/-- FW_DISCARD (R461): SEC_FW_CTL DISCARD drops the staged image when no roll runs or waits. -/
def execFwDiscardRow (port : Port) (s : State) : Host.Outcome State Fault Refusal := s.run (writeNat port rSEC_FW_CTL 3)

/-- ROLL_START (R461): A waiting roll starts once HOLD is 0, firedamp has been below FD1 for 1 s and SEC runs. -/
def execRollStartRow (s : State) : Host.Outcome State Fault Refusal := s.run rollStart

/-- UPDATE_DEFERRED (R461): Every 10 minutes of waiting, the device writes UPDATE_DEFERRED. -/
def execUpdateDeferredRow (s : State) : Host.Outcome State Fault Refusal := s.run updateDeferred

/-- ROLL_STEP_COMPLETE (R462): A processor's first service under the new image completes its step, and the next step or the
bank switch and FW_ACTIVATED follows. -/
def execRollStepCompleteRow (s : State) : Host.Outcome State Fault Refusal := s.run (rollStepRow attStart)

/-- ROLL_STEP_FAIL (R464): A step that misses its limit restarts the processor from the old image and rolls back every
activated processor. -/
def execRollStepFailRow (s : State) : Host.Outcome State Fault Refusal := s.run rollStepFail

end Sys2Proof.Machine
end

