-- ==== Sys2Proof/Machine/ExecGang.lean ====
section
/-!
DEFINITION. Meanings of the commands of the gang (11): each row of the command table is one operation on the block.
-/

namespace Sys2Proof.Machine

/-- JOIN (R302): A write of GG_CTL.JOIN translates the gang regions and starts join requests to GG_JOIN.MASTER every 10 ms. -/
def execJoin (port : Port) (s : State) : Host.Outcome State Fault Refusal := s.run (writeNat port rGG_CTL 1)

/-- JOIN_REQUEST_TIMER (R302): Every 10 ms a joining device sends a join request to its master. -/
def execJoinRequestTimer (s : State) : Host.Outcome State Fault Refusal := s.run joinTimer

/-- JOIN_REQUEST (R302): A received join request is recorded by the master toward rule 7, or discarded by a member of another
gang. -/
def execJoinRequest (src : Nat) (s : State) : Host.Outcome State Fault Refusal := s.run (joinRequestIn src)

/-- PROPOSE (R303): A write of GG_CTL.PROPOSE makes the master take and check a copy of PROPOSED. -/
def execPropose (port : Port) (s : State) : Host.Outcome State Fault Refusal := s.run (writeNat port rGG_CTL 2)

/-- CANCEL (R311): A write of GG_CTL.CANCEL stops join requests or drops a taken copy. -/
def execCancel (port : Port) (s : State) : Host.Outcome State Fault Refusal := s.run (writeNat port rGG_CTL 4)

/-- GANG_FORMATION (R302): Once every listed device has requested to join and the route rule holds, the master adopts
generation 1 and sends the tables. -/
def execGangFormationRow (s : State) : Host.Outcome State Fault Refusal := s.run gangFormation

/-- FORMATION_TIMEOUT (R302): Join requests not all in within the barrier timeout from PROPOSE refuse the table with cause
ABSENT. -/
def execFormationTimeoutRow (s : State) : Host.Outcome State Fault Refusal := s.run formationTimeout

/-- ROUTE_Q (R517): A device judges each listed successor against its own routes and answers with one ROUTE_A. -/
def execRouteQRow (adit : Fin 18) (msg : Msg) (s : State) : Host.Outcome State Fault Refusal := s.run (routeQ adit msg)

/-- ROUTE_A (R517): The master records a route answer toward rule 5 of the table check. -/
def execRouteARow (adit : Fin 18) (msg : Msg) (s : State) : Host.Outcome State Fault Refusal := s.run (routeA adit msg)

/-- ADOPTED_TABLES (R303): A member receives adopted tables, writes CURRENT and adopts the generation at formation or with
the decision, leaving if absent. -/
def execAdoptedTables (src mgen epoch : Nat) (tables : Tables) (barrier heartbeat : Nat) (s : State) : Host.Outcome State Fault Refusal :=
  s.run (tablesIn src mgen epoch tables barrier heartbeat)

/-- HEARTBEAT_TIMER (R305): Every 1 ms the master sends a heartbeat to every member. -/
def execHeartbeatTimerRow (s : State) : Host.Outcome State Fault Refusal := s.run heartbeatTimer

/-- HEARTBEAT (R481): A member answers a received heartbeat within 10 µs in any activity state. -/
def execHeartbeatRow (src mgen : Nat) (s : State) : Host.Outcome State Fault Refusal := s.run (heartbeatIn src mgen)

/-- HEARTBEAT_ANSWER (R305): The master records a member's heartbeat answer for quorum and liveness. -/
def execHeartbeatAnswerRow (src mgen : Nat) (s : State) : Host.Outcome State Fault Refusal := s.run (heartbeatAnswer src mgen)

/-- HEARTBEAT_TIMEOUT (R305): No heartbeat answer from a member for GG_TIMEOUT.HEARTBEAT makes the master declare it failed,
or write GANG_QUORUM_LOST without quorum. -/
def execHeartbeatTimeoutRow (dev : Nat) (s : State) : Host.Outcome State Fault Refusal := s.run (heartbeatTimeout dev)

/-- FAILURE_DECLARATION (R336): A member applies a failure declaration to drifts and running collectives, or goes to OUT when
it names itself. -/
def execFailureDeclaration (src mgen dev : Nat) (s : State) : Host.Outcome State Fault Refusal :=
  s.run (declarationIn src mgen dev)

/-- MASTER_SILENCE_TIMEOUT (R306): A deputy that has heard nothing from the master for GG_TIMEOUT.HEARTBEAT sends a takeover
request, and a member without a deputy later writes GANG_LOST. -/
def execMasterSilenceTimeout (s : State) : Host.Outcome State Fault Refusal := s.run masterSilence

/-- TAKEOVER_REQUEST (R306): A member acknowledges a takeover request only if it too has heard nothing from the master for
the heartbeat timeout. -/
def execTakeoverRequestRow (src mgen : Nat) (s : State) : Host.Outcome State Fault Refusal := s.run (takeoverRequest src mgen)

/-- TAKEOVER_ACK (R306): With acknowledgements from a majority, the deputy becomes master, declares the old master failed and
resends its last logged decision. -/
def execTakeoverAckRow (src mgen : Nat) (s : State) : Host.Outcome State Fault Refusal := s.run (takeoverAck src mgen)

/-- TAKEOVER_TIMEOUT (R306): Without majority acknowledgement within the barrier timeout, the deputy writes GANG_QUORUM_LOST
and the gang stops. -/
def execTakeoverTimeoutRow (s : State) : Host.Outcome State Fault Refusal := s.run takeoverTimeout

/-- ROUTE_ANSWER_TIMEOUT (R517): A device that has not answered a ROUTE_Q within the barrier timeout fails the route rule,
and the master refuses the table under rule 5. -/
def execRouteAnswerTimeout (s : State) : Host.Outcome State Fault Refusal := s.run routeTimeout

end Sys2Proof.Machine
end

