-- ==== Sys2Proof/Machine/ExecHost.lean ====
section
/-!
DEFINITION. Meanings of the commands of the Chaell ports and contexts (15): each row of the command table is one operation on the block.
-/

namespace Sys2Proof.Machine

/-- CH_TRAINING_START (R403): A Chaell port whose domain powers enters TRAINING. -/
def execChTrainingStart (port : Fin 2) (s : State) : Host.Outcome State Fault Refusal := s.run (trainingStart port)

/-- CH_TRAINING_COMPLETE (R407): Equalisation, lock and CAPS exchange finish, and the port becomes ACTIVE. -/
def execChTrainingComplete (port : Fin 2) (s : State) : Host.Outcome State Fault Refusal := s.run (trainingComplete port)

/-- CH_TRAINING_TIMEOUT (R403): TRAINING exceeding 50 ms sends the port to DOWN. -/
def execChTrainingTimeout (port : Fin 2) (s : State) : Host.Outcome State Fault Refusal := s.run (trainingTimeout port)

/-- CH_RECOVERY (R403): Link errors or a host request send an ACTIVE port into RECOVERY, holding traffic. -/
def execChRecovery (port : Fin 2) (s : State) : Host.Outcome State Fault Refusal := s.run (recovery port)

/-- CH_RECOVERY_COMPLETE (R407): RECOVERY relocks and replays within 1 ms and returns to ACTIVE. -/
def execChRecoveryComplete (port : Fin 2) (s : State) : Host.Outcome State Fault Refusal := s.run (recoveryComplete port)

/-- CH_RECOVERY_TIMEOUT (R403): RECOVERY exceeding 1 ms sends the port to DOWN. -/
def execChRecoveryTimeout (port : Fin 2) (s : State) : Host.Outcome State Fault Refusal := s.run (recoveryTimeout port)

/-- CH_DOWN_RETRY (R403): 1 s after DOWN, the port returns to TRAINING. -/
def execChDownRetry (port : Fin 2) (s : State) : Host.Outcome State Fault Refusal := s.run (downRetry port)

/-- CAPS_FLIT (R408): A received CAPS flit is checked for REVISION 0x01 toward ending training. -/
def execCapsFlitRow (port : Fin 2) (caps : List Byte) (s : State) : Host.Outcome State Fault Refusal :=
  s.run (capsFlit port caps)

/-- CFG_RD (R408): A CFG_RD reads the port's configuration block. -/
def execCfgRd (port : Fin 2) (txn : ChTxn) (s : State) : Host.Outcome State Fault Refusal := s.run (cfgRead port txn)

/-- CFG_WR (R408): A CFG_WR writes CTRL_BASE, MEM_BASE or CFG_CTL, setting the windows and ENABLE. -/
def execCfgWr (port : Fin 2) (txn : ChTxn) (s : State) : Host.Outcome State Fault Refusal := s.run (cfgWrite port txn)

/-- RD (R409): A host RD of the control or memory window, or a device RD of host memory, is served and answered with one
completion. For a device RD `port` is the half whose traffic it is (R405). -/
def execRdTxn (port : Fin 2) (device : Bool) (txn : ChTxn) (upsets : List Upset) (s : State) : Host.Outcome State Fault Refusal :=
  s.run (fun b => if device then deviceRead port txn b else hostRead port txn upsets b)

/-- WR (R409): A posted WR writes the control or memory window, or host memory, with poison handling. For a device
WR `port` is the half whose traffic it is (R405). -/
def execWrTxn (port : Fin 2) (device : Bool) (txn : ChTxn) (s : State) : Host.Outcome State Fault Refusal :=
  s.run (fun b => if device then deviceWrite port txn b else hostWr port txn b)

/-- INTR (R438): The device sends a ring's VECTOR as an INTR once its records are visible, unless moderated. -/
def execIntr (ring : Fin 16) (s : State) : Host.Outcome State Fault Refusal := s.run (ringIntr ring)

/-- CPL (R410): A received CPL ends an outstanding read with a non-zero STATUS. -/
def execCpl (port : Fin 2) (txn : ChTxn) (s : State) : Host.Outcome State Fault Refusal := s.run (cplIn port txn)

/-- CPL_DATA (R411): A received CPL_DATA delivers read data, writing lines marked in its poison mask poisoned. -/
def execCplData (port : Fin 2) (txn : ChTxn) (s : State) : Host.Outcome State Fault Refusal := s.run (cplDataIn port txn)

/-- COMPLETION_TIMEOUT (R410): A read without completion 100 ms after sending ends with a completion timeout. -/
def execCompletionTimeout (port : Fin 2) (tag : Nat) (s : State) : Host.Outcome State Fault Refusal :=
  s.run (cplTimeout port tag)

/-- HOST_ACCESS_TIMEOUT (R405): A device access to host memory with no ACTIVE port for 100 ms fails as an unassigned address. -/
def execHostAccessTimeout (s : State) : Host.Outcome State Fault Refusal := s.run hostTimeout

/-- LOAD (R416): SC_CTX_CTL LOAD reads a context record into context CTX and flushes its translations. -/
def execCtxLoadRow (port : Port) (ctx : Fin 64) (s : State) : Host.Outcome State Fault Refusal :=
  s.run (hostGated (contextCommand port ctx 1))

/-- READ (R416): SC_CTX_CTL READ writes the context's current record to SC_CTX_SRC. -/
def execCtxReadRow (port : Port) (ctx : Fin 64) (s : State) : Host.Outcome State Fault Refusal :=
  s.run (hostGated (contextCommand port ctx 2))

/-- UNFENCE (R416): SC_CTX_CTL UNFENCE lifts a context's fence. -/
def execCtxUnfenceRow (port : Port) (ctx : Fin 64) (s : State) : Host.Outcome State Fault Refusal :=
  s.run (contextCommand port ctx 3)

/-- INVALIDATE (R416): SC_CTX_CTL INVALIDATE clears VALID and zeroes the tokens. -/
def execCtxInvalidateRow (port : Port) (ctx : Fin 64) (s : State) : Host.Outcome State Fault Refusal :=
  s.run (contextCommand port ctx 4)

end Sys2Proof.Machine
end

