-- ==== Sys2Proof/Machine/ExecLane.lean ====
section
/-!
DEFINITION. Meanings of the commands of the instructions of the vector engines (06): each row of the command table is one operation on the block.
-/

namespace Sys2Proof.Machine

/-- ADD (R150): The VE instruction ADD computes a + b in FP32. -/
def execVeAdd (ve : Fin 64) (m : Fin 128) (n : Fin 256) (dst : Fin 8) (srcA srcB : Fin 64) (s : State) :
    Host.Outcome State Fault Refusal :=
  s.run (laneInstr 0x01 ve m n dst srcA srcB 0 [])

/-- SUB (R150): The VE instruction SUB computes a − b. -/
def execVeSub (ve : Fin 64) (m : Fin 128) (n : Fin 256) (dst : Fin 8) (srcA srcB : Fin 64) (s : State) :
    Host.Outcome State Fault Refusal :=
  s.run (laneInstr 0x02 ve m n dst srcA srcB 0 [])

/-- MUL (R150): The VE instruction MUL computes a × b. -/
def execVeMul (ve : Fin 64) (m : Fin 128) (n : Fin 256) (dst : Fin 8) (srcA srcB : Fin 64) (s : State) :
    Host.Outcome State Fault Refusal :=
  s.run (laneInstr 0x03 ve m n dst srcA srcB 0 [])

/-- FMA (R150): The VE instruction FMA computes a × b + c with one rounding. -/
def execVeFma (ve : Fin 64) (m : Fin 128) (n : Fin 256) (dst : Fin 8) (srcA srcB srcC : Fin 64) (s : State) :
    Host.Outcome State Fault Refusal :=
  s.run (laneInstr 0x04 ve m n dst srcA srcB srcC [])

/-- FMS (R150): The VE instruction FMS computes a × b − c with one rounding. -/
def execVeFms (ve : Fin 64) (m : Fin 128) (n : Fin 256) (dst : Fin 8) (srcA srcB srcC : Fin 64) (s : State) :
    Host.Outcome State Fault Refusal :=
  s.run (laneInstr 0x05 ve m n dst srcA srcB srcC [])

/-- MAX (R151): The VE instruction MAX returns the larger of a and b, with canonical NaN on a NaN operand. -/
def execVeMax (ve : Fin 64) (m : Fin 128) (n : Fin 256) (dst : Fin 8) (srcA srcB : Fin 64) (s : State) :
    Host.Outcome State Fault Refusal :=
  s.run (laneInstr 0x06 ve m n dst srcA srcB 0 [])

/-- MIN (R151): The VE instruction MIN returns the smaller of a and b. -/
def execVeMin (ve : Fin 64) (m : Fin 128) (n : Fin 256) (dst : Fin 8) (srcA srcB : Fin 64) (s : State) :
    Host.Outcome State Fault Refusal :=
  s.run (laneInstr 0x07 ve m n dst srcA srcB 0 [])

/-- ABS (R150): The VE instruction ABS returns |a|. -/
def execVeAbs (ve : Fin 64) (m : Fin 128) (n : Fin 256) (dst : Fin 8) (srcA : Fin 64) (s : State) :
    Host.Outcome State Fault Refusal :=
  s.run (laneInstr 0x08 ve m n dst srcA 0 0 [])

/-- NEG (R150): The VE instruction NEG returns −a. -/
def execVeNeg (ve : Fin 64) (m : Fin 128) (n : Fin 256) (dst : Fin 8) (srcA : Fin 64) (s : State) :
    Host.Outcome State Fault Refusal :=
  s.run (laneInstr 0x09 ve m n dst srcA 0 0 [])

/-- CLAMP (R151): The VE instruction CLAMP returns MIN(MAX(a, b), c). -/
def execVeClamp (ve : Fin 64) (m : Fin 128) (n : Fin 256) (dst : Fin 8) (srcA srcB srcC : Fin 64) (s : State) :
    Host.Outcome State Fault Refusal :=
  s.run (laneInstr 0x0A ve m n dst srcA srcB srcC [])

/-- DIV (R151): The VE instruction DIV returns a ÷ b correctly rounded, setting DIVZERO or INVALID where due. -/
def execVeDiv (ve : Fin 64) (m : Fin 128) (n : Fin 256) (dst : Fin 8) (srcA srcB : Fin 64) (s : State) :
    Host.Outcome State Fault Refusal :=
  s.run (laneInstr 0x0B ve m n dst srcA srcB 0 [])

/-- SQRT (R151): The VE instruction SQRT returns √a correctly rounded. -/
def execVeSqrt (ve : Fin 64) (m : Fin 128) (n : Fin 256) (dst : Fin 8) (srcA : Fin 64) (s : State) :
    Host.Outcome State Fault Refusal :=
  s.run (laneInstr 0x0C ve m n dst srcA 0 0 [])

/-- SFU (R176): The VE instruction SFU evaluates function SRC_B of a from its segment table with a single rounding. -/
def execVeSfu (ve : Fin 64) (m : Fin 128) (n : Fin 256) (dst : Fin 8) (srcA srcB : Fin 64) (upsets : List Upset) (s : State) :
    Host.Outcome State Fault Refusal :=
  s.run (laneSfu ve m n dst srcA srcB upsets)

/-- CVTR (R151): The VE instruction CVTR rounds a to a named format under RND and OVF_ALT, then widens it. -/
def execVeCvtr (ve : Fin 64) (m : Fin 128) (n : Fin 256) (dst : Fin 8) (srcA srcB : Fin 64) (s : State) :
    Host.Outcome State Fault Refusal :=
  s.run (laneInstr 0x0E ve m n dst srcA srcB 0 [])

/-- SELGT (R150): The VE instruction SELGT returns c if a > b, else +0. -/
def execVeSelgt (ve : Fin 64) (m : Fin 128) (n : Fin 256) (dst : Fin 8) (srcA srcB srcC : Fin 64) (s : State) :
    Host.Outcome State Fault Refusal :=
  s.run (laneInstr 0x0F ve m n dst srcA srcB srcC [])

/-- CMPEQ (R150): The VE instruction CMPEQ returns INT32 1 if a = b. -/
def execVeCmpeq (ve : Fin 64) (m : Fin 128) (n : Fin 256) (dst : Fin 8) (srcA srcB : Fin 64) (s : State) :
    Host.Outcome State Fault Refusal :=
  s.run (laneInstr 0x10 ve m n dst srcA srcB 0 [])

/-- CMPLT (R150): The VE instruction CMPLT returns INT32 1 if a < b. -/
def execVeCmplt (ve : Fin 64) (m : Fin 128) (n : Fin 256) (dst : Fin 8) (srcA srcB : Fin 64) (s : State) :
    Host.Outcome State Fault Refusal :=
  s.run (laneInstr 0x11 ve m n dst srcA srcB 0 [])

/-- CMPLE (R150): The VE instruction CMPLE returns INT32 1 if a ≤ b. -/
def execVeCmple (ve : Fin 64) (m : Fin 128) (n : Fin 256) (dst : Fin 8) (srcA srcB : Fin 64) (s : State) :
    Host.Outcome State Fault Refusal :=
  s.run (laneInstr 0x12 ve m n dst srcA srcB 0 [])

/-- ISNAN (R150): The VE instruction ISNAN returns INT32 1 if a is NaN. -/
def execVeIsnan (ve : Fin 64) (m : Fin 128) (n : Fin 256) (dst : Fin 8) (srcA : Fin 64) (s : State) :
    Host.Outcome State Fault Refusal :=
  s.run (laneInstr 0x13 ve m n dst srcA 0 0 [])

/-- SEL (R151): The VE instruction SEL returns a if the word c is non-zero, else b. -/
def execVeSel (ve : Fin 64) (m : Fin 128) (n : Fin 256) (dst : Fin 8) (srcA srcB srcC : Fin 64) (s : State) :
    Host.Outcome State Fault Refusal :=
  s.run (laneInstr 0x14 ve m n dst srcA srcB srcC [])

/-- IADD (R150): The VE instruction IADD computes a + b modulo 2³². -/
def execVeIadd (ve : Fin 64) (m : Fin 128) (n : Fin 256) (dst : Fin 8) (srcA srcB : Fin 64) (s : State) :
    Host.Outcome State Fault Refusal :=
  s.run (laneInstr 0x18 ve m n dst srcA srcB 0 [])

/-- ISUB (R150): The VE instruction ISUB computes a − b modulo 2³². -/
def execVeIsub (ve : Fin 64) (m : Fin 128) (n : Fin 256) (dst : Fin 8) (srcA srcB : Fin 64) (s : State) :
    Host.Outcome State Fault Refusal :=
  s.run (laneInstr 0x19 ve m n dst srcA srcB 0 [])

/-- IMUL (R150): The VE instruction IMUL returns the low 32 bits of a × b. -/
def execVeImul (ve : Fin 64) (m : Fin 128) (n : Fin 256) (dst : Fin 8) (srcA srcB : Fin 64) (s : State) :
    Host.Outcome State Fault Refusal :=
  s.run (laneInstr 0x1A ve m n dst srcA srcB 0 [])

/-- AND (R150): The VE instruction AND returns a AND b. -/
def execVeAnd (ve : Fin 64) (m : Fin 128) (n : Fin 256) (dst : Fin 8) (srcA srcB : Fin 64) (s : State) :
    Host.Outcome State Fault Refusal :=
  s.run (laneInstr 0x1B ve m n dst srcA srcB 0 [])

/-- OR (R150): The VE instruction OR returns a OR b. -/
def execVeOr (ve : Fin 64) (m : Fin 128) (n : Fin 256) (dst : Fin 8) (srcA srcB : Fin 64) (s : State) :
    Host.Outcome State Fault Refusal :=
  s.run (laneInstr 0x1C ve m n dst srcA srcB 0 [])

/-- XOR (R150): The VE instruction XOR returns a XOR b. -/
def execVeXor (ve : Fin 64) (m : Fin 128) (n : Fin 256) (dst : Fin 8) (srcA srcB : Fin 64) (s : State) :
    Host.Outcome State Fault Refusal :=
  s.run (laneInstr 0x1D ve m n dst srcA srcB 0 [])

/-- SHL (R150): The VE instruction SHL shifts a left by b[4:0]. -/
def execVeShl (ve : Fin 64) (m : Fin 128) (n : Fin 256) (dst : Fin 8) (srcA srcB : Fin 64) (s : State) :
    Host.Outcome State Fault Refusal :=
  s.run (laneInstr 0x1E ve m n dst srcA srcB 0 [])

/-- SHR (R150): The VE instruction SHR shifts a right by b[4:0] with zero fill. -/
def execVeShr (ve : Fin 64) (m : Fin 128) (n : Fin 256) (dst : Fin 8) (srcA srcB : Fin 64) (s : State) :
    Host.Outcome State Fault Refusal :=
  s.run (laneInstr 0x1F ve m n dst srcA srcB 0 [])

/-- SAR (R150): The VE instruction SAR shifts a right by b[4:0] with sign fill. -/
def execVeSar (ve : Fin 64) (m : Fin 128) (n : Fin 256) (dst : Fin 8) (srcA srcB : Fin 64) (s : State) :
    Host.Outcome State Fault Refusal :=
  s.run (laneInstr 0x20 ve m n dst srcA srcB 0 [])

/-- ICMPLT (R150): The VE instruction ICMPLT returns INT32 1 if a < b as INT32. -/
def execVeIcmplt (ve : Fin 64) (m : Fin 128) (n : Fin 256) (dst : Fin 8) (srcA srcB : Fin 64) (s : State) :
    Host.Outcome State Fault Refusal :=
  s.run (laneInstr 0x21 ve m n dst srcA srcB 0 [])

/-- CVTIF (R150): The VE instruction CVTIF converts INT32 a to FP32. -/
def execVeCvtif (ve : Fin 64) (m : Fin 128) (n : Fin 256) (dst : Fin 8) (srcA : Fin 64) (s : State) :
    Host.Outcome State Fault Refusal :=
  s.run (laneInstr 0x22 ve m n dst srcA 0 0 [])

/-- CVTFI (R151): The VE instruction CVTFI converts FP32 a to INT32, saturating and setting SAT or INVALID. -/
def execVeCvtfi (ve : Fin 64) (m : Fin 128) (n : Fin 256) (dst : Fin 8) (srcA : Fin 64) (s : State) :
    Host.Outcome State Fault Refusal :=
  s.run (laneInstr 0x23 ve m n dst srcA 0 0 [])

/-- MOV (R162): The VE instruction MOV copies a with its bits unchanged, and carries poison on. -/
def execVeMov (ve : Fin 64) (m : Fin 128) (n : Fin 256) (dst : Fin 8) (srcA : Fin 64) (s : State) :
    Host.Outcome State Fault Refusal :=
  s.run (laneInstr 0x24 ve m n dst srcA 0 0 [])

end Sys2Proof.Machine
end

