-- ==== Sys2Proof/Machine/ExecMemory.lean ====
section
/-!
DEFINITION. Meanings of the commands of lodes and staging slices (10): each row of the command table is one operation on the block.
-/

namespace Sys2Proof.Machine

/-- LODE_READ (R272): A lode read checks each storage word, corrects and writes back single-bit errors, and passes stored or
new poison on. -/
def execLodeReadRow (lode : Fin 12) (addr : Nat) (flips : List Nat) (s : State) : Host.Outcome State Fault Refusal :=
  s.run (lodeRead lode addr flips)

/-- LODE_WRITE (R272): A lode write recodes pairs of on-chip words into storage words, merging partial writes and marking
poison. -/
def execLodeWriteRow (lode : Fin 12) (addr lo hi : Nat) (word0 word1 : W32) (poison0 poison1 : Bool) (flips0 flips1 stored : List Nat) (s : State) :
    Host.Outcome State Fault Refusal :=
  s.run (lodeWrite lode addr lo hi word0.toNat word1.toNat poison0 poison1 flips0 flips1 stored)

/-- PATROL_SCRUB_READ (R274): The scrubber reads the next storage word in an idle lode or staging cycle and writes back
corrections. -/
def execPatrolScrubRead (unit : Fin 20) (flips : List Nat) (caughtUp : Bool) (s : State) : Host.Outcome State Fault Refusal :=
  s.run (scrubRead unit flips caughtUp)

/-- SCRUB_CATCHUP (R274): A scrubber more than 1 % behind schedule becomes eligible for one request in 256 and writes
GUARANTEE_YIELDED. -/
def execScrubCatchupRow (unit : Fin 20) (s : State) : Host.Outcome State Fault Refusal := s.run (scrubCatchup unit)

/-- FILL_COPY (R277): The fill copies the next storage word into the spare and reads it back. -/
def execFillCopyRow (lode : Fin 12) (flips back : List Nat) (s : State) : Host.Outcome State Fault Refusal :=
  s.run (fillCopy lode flips back)

/-- FILL_COMPLETE (R277): At a point between two lode requests, the remap table switches the row group to the spare, and the
next queued fill starts. -/
def execFillCompleteRow (lode : Fin 12) (s : State) : Host.Outcome State Fault Refusal := s.run (fillComplete lode)

/-- LODE_RECALIBRATION (R269): Every 100 ms a lode recalibrates inside refresh windows. -/
def execLodeRecalibration (lode : Fin 12) (s : State) : Host.Outcome State Fault Refusal := s.run (lodeRecal lode)

/-- STACK_TEMP_READOUT (R268): Every 1 ms a lode reads its stack temperature, switches doubled refresh and feeds PWR and
firedamp. -/
def execStackTempReadout (lode : Fin 12) (temp : Nat) (s : State) : Host.Outcome State Fault Refusal :=
  s.run (stackTemp lode temp)

/-- LODE_FAILURE (R270): A lode that fails training, its link or its controller sets FAILED, and all HBM is treated as lost. -/
def execLodeFailureRow (lode : Fin 12) (s : State) : Host.Outcome State Fault Refusal := s.run (lodeFailure lode)

/-- STAGING_SLICE_FAILURE (R283): A failed staging slice loses its areas, and for SG4 the queue descriptors with every
context fenced. -/
def execStagingSliceFailure (slice : Fin 8) (s : State) : Host.Outcome State Fault Refusal := s.run (sliceFailure slice)

/-- LD_CLR_ECC (R284): A write of LD_CTL2.CLR_ECC clears LD_ECC at once. -/
def execLdClrEcc (port : Port) (lode : Fin 12) (s : State) : Host.Outcome State Fault Refusal :=
  s.run (writeNat port (rLD_CTL2 lode) 1)

end Sys2Proof.Machine
end

