-- ==== Sys2Proof/Machine/ExecOpu.lean ====
section
/-!
DEFINITION. Meanings of the commands of outer-product units (05): each row of the command table is one operation on the block.
-/

namespace Sys2Proof.Machine

/-- OPU_GROUP_ENTRY (R113): A step group with all its operands enters B1, or a bubble enters in its place, and moves through
B2, MUL and ADD. -/
def execOpuGroupEntry (opu : Fin 128) (aclk : Nat) (upsets : List Upset) (s : State) : Host.Outcome State Fault Refusal :=
  s.run (opuCycle opu aclk upsets)

/-- TILE_FILL_COMPLETE (R118): The last group of an output tile completing ADD makes the filling tile the drain tile. -/
def execTileFillComplete (opu : Fin 128) (s : State) : Host.Outcome State Fault Refusal := s.run (tileComplete opu)

/-- DRAIN_ROW_ACCEPT (R120): A drain port's round-robin arbiter accepts one processed FP32 row from a requesting OPU. -/
def execDrainRowAccept (cl : Fin 32) (drain : Fin 3) (aclk : Nat) (upsets : List Upset) (s : State) :
    Host.Outcome State Fault Refusal :=
  s.run (hostGated (drainAccept cl drain aclk upsets))

/-- ACC_LOAD_ROW (R119): Under ACC_INIT LOAD, the stream engine delivers one FP32 row of the initial tile to the OPU. -/
def execAccLoadRow (opu : Fin 128) (aclk : Nat) (upsets : List Upset) (s : State) : Host.Outcome State Fault Refusal :=
  s.run (hostGated (loadRow opu aclk upsets))

/-- WEIGHT_SLOT_FILLED (R125): A weight slot's tile and records are complete, and the slot changes from FILLING to READY. -/
def execWeightSlotFilled (opu : Fin 128) (slot : Nat) (s : State) : Host.Outcome State Fault Refusal :=
  s.run (slotFilled opu slot)

/-- DRAIN_STALL (R137): An unbroken run of drain-freeze cycles longer than OP_STALL_LIMIT raises DRAIN_STALL once. -/
def execDrainStallRow (opu : Fin 128) (s : State) : Host.Outcome State Fault Refusal := s.run (drainStall opu)

/-- OP_CLR_CYCLES (R135): A write of OP_CNT_CTL.CLR_CYCLES clears the four OPU cycle counters. -/
def execOpClrCycles (port : Port) (opu : Fin 128) (s : State) : Host.Outcome State Fault Refusal :=
  s.run (writeNat port (rOP_CNT_CTL opu) 1)

/-- OP_CLR_ECC (R135): A write of OP_CNT_CTL.CLR_ECC clears OP_ECC. -/
def execOpClrEcc (port : Port) (opu : Fin 128) (s : State) : Host.Outcome State Fault Refusal :=
  s.run (writeNat port (rOP_CNT_CTL opu) 2)

end Sys2Proof.Machine
end

