-- ==== Sys2Proof/Machine/ExecPower.lean ====
section
/-!
DEFINITION. Meanings of the commands of the power input, the straps and the envelope (02): each row of the command table is one operation on the block.
-/

namespace Sys2Proof.Machine

/-- POWER_UP (R41): A filtered rising edge of PWR_EN with the input within 38.0–42.0 V starts constant-current charge,
regulator sequencing, PWR_GOOD and boot. -/
def execPowerUp (vinMv lowMs : Nat) (s : State) : Host.Outcome State Fault Refusal := State.runVin vinMv (powerUp vinMv lowMs) s

/-- INPUT_ENTERS_RANGE (R42): With PWR_EN held high, the input entering 38.0–42.0 V starts the deferred power-up. -/
def execInputEntersRange (vinMv : Nat) (s : State) : Host.Outcome State Fault Refusal :=
  State.runVin vinMv (inputEntersRange vinMv) s

/-- POWER_DOWN (R41): A filtered falling edge of PWR_EN fences all work, drops PWR_GOOD and turns every regulator off; during
power-up it stops power-up at once. -/
def execPowerDown (s : State) : Host.Outcome State Fault Refusal := s.run powerDown

/-- OVER_VOLTAGE_SHUTDOWN (R37): An input of 46.0–50.0 V trips FD3, drives PWR_GOOD low and turns every regulator off, and
the shutdown latches. -/
def execOverVoltageShutdown (vinMv : Nat) (s : State) : Host.Outcome State Fault Refusal :=
  State.runVin vinMv (overVoltage vinMv) s

/-- UNDER_VOLTAGE_SHUTDOWN (R37): An input below 36.0 V trips FD3, drives PWR_GOOD low and turns every regulator off, and the
shutdown latches. -/
def execUnderVoltageShutdown (s : State) : Host.Outcome State Fault Refusal := s.run underVoltage

/-- INPUT_OV_WARN (R35): Each entry of the input into 42.0–46.0 V writes INPUT_OV_WARN and asserts ALERT_N. -/
def execInputOvWarn (vinMv : Nat) (s : State) : Host.Outcome State Fault Refusal := State.runVin vinMv (inputOvWarn vinMv) s

/-- DROOP (R35): The input falling into 36.0–38.0 V starts the dip timer and counts one droop for the canary. -/
def execDroop (vinMv : Nat) (s : State) : Host.Outcome State Fault Refusal := State.runVin vinMv (droopStart vinMv) s

/-- DIP_TIMER_EXPIRY (R36): The dip timer passing 5 ms causes under-voltage shutdown. -/
def execDipTimerExpiry (s : State) : Host.Outcome State Fault Refusal := s.run dipExpiry

/-- DIP_TIMER_RESET (R36): After 50 ms without a break at or above 38.0 V, the dip timer resets to zero. -/
def execDipTimerReset (s : State) : Host.Outcome State Fault Refusal := s.run dipReset

/-- ELECTRONIC_CURRENT_LIMIT_TRIP (R38): Input current of 100 A for 20 µs trips and is followed by under-voltage-class
shutdown. -/
def execElectronicCurrentLimitTrip (s : State) : Host.Outcome State Fault Refusal := s.run currentTrip

/-- MOD_RST_N_LOW (R492): MOD_RST_N held low for 10 µs with PWR_GOOD high fences work, puts the lodes in self-refresh and
starts a module reset. -/
def execModRstNLow (s : State) : Host.Outcome State Fault Refusal := s.run modRstLow

/-- MOD_RST_N_HIGH (R43): MOD_RST_N going high releases a boot or module reset that waited for it. -/
def execModRstNHigh (s : State) : Host.Outcome State Fault Refusal := s.run modRstHigh

/-- REFCLK_LOST (R51): Loss of REFCLK, or of root lock, detected within 1 µs, fences all work, asserts ALERT_N and writes
REFCLK_LOST. -/
def execRefclkLostEvent (s : State) : Host.Outcome State Fault Refusal := s.run refclkLost

/-- STRAP_CHANGED (R55): Live COOL straps that differ from the latched value at a 10 µs sample force the air envelope, write
STRAP_CHANGED and assert ALERT_N. -/
def execStrapChangedEvent (live : Fin 4) (s : State) : Host.Outcome State Fault Refusal := s.run (strapChanged live)

/-- CONFIRM (R54): A management write of PW_COOL.CONFIRM enables the strapped envelope on a match, or keeps the air envelope
and writes COOL_UNCONFIRMED on a mismatch. -/
def execConfirm (port : Port) (value : W32) (s : State) : Host.Outcome State Fault Refusal :=
  s.run (regWriteAt port rPW_COOL 4 value)

/-- LIMIT_W (R56): A management write of PW_LIMIT sets an additional power limit, and the effective envelope becomes the
lower limit; values below 600 W are discarded. -/
def execLimitW (port : Port) (value : W32) (s : State) : Host.Outcome State Fault Refusal :=
  s.run (regWriteAt port rPW_LIMIT 4 value)

/-- PEAK_W_READ (R56): A read of PW_POWER returns PEAK_W and clears it. -/
def execPeakWRead (s : State) : Host.Outcome State Fault Refusal := s.run (regReadOut .i3c rPW_POWER)

/-- ALERT_CLEAR (R57): A management W1C write to PW_ALERT clears bits, and a bit whose condition still holds is set again in
the next PCLK cycle. -/
def execAlertClear (port : Port) (value : W32) (s : State) : Host.Outcome State Fault Refusal :=
  s.run (regWriteAt port rPW_ALERT 4 value)

/-- ENVELOPE_EXCURSION_HEIGHT (R58): A 10 µs power sample above 1.2 E raises FD2 by hardware reflex and writes
ENVELOPE_EXCURSION. -/
def execEnvelopeExcursionHeight (watts : Nat) (s : State) : Host.Outcome State Fault Refusal := s.run (excursionHeight watts)

/-- ENVELOPE_EXCURSION_LENGTH (R58): A 1 ms run of power samples above E raises FD1 and writes ENVELOPE_EXCURSION. -/
def execEnvelopeExcursionLength (watts : Nat) (s : State) : Host.Outcome State Fault Refusal := s.run (excursionLength watts)

/-- PACING_UPDATE (R484): Every 10 µs the governor chooses the pacing level L under the average limit and the firedamp cap,
and L takes effect at the next multiple of 64 ACLK. -/
def execPacingUpdateRow (predicted : List Nat) (vinMv iin10mA avgW sampleW : Nat) (s : State) : Host.Outcome State Fault Refusal :=
  State.runVin vinMv (pacingUpdate predicted vinMv iin10mA avgW sampleW) s

/-- DIP_END (R36): The input rising back to 38.0 V or above after a ride-through dip stops the dip timer and starts the 50 ms
unbroken count toward its reset. -/
def execDipEndRow (us : Nat) (s : State) : Host.Outcome State Fault Refusal := s.run (dipEnd us)

/-- STRAP_MISMATCH_CLEARED (R55): Live COOL straps sampled equal to the latched value again clear MISMATCH, so CONFIRMED and
ACTIVE can return to the strapped profile and the STRAP alert condition ends. -/
def execStrapMismatchCleared (s : State) : Host.Outcome State Fault Refusal := s.run strapCleared

/-- REFCLK_BACK (R51): REFCLK returning within the limits of R50 ends the REFCLK-absent condition, so the REFCLK alert can
clear and a module reset can end the fence. -/
def execRefclkBackRow (s : State) : Host.Outcome State Fault Refusal := s.run refclkBack

end Sys2Proof.Machine
end

