-- ==== Sys2Proof/Machine/ExecRegisters.lean ====
section
/-!
DEFINITION. Meanings of the commands of register access, transactions and I3C (02, 03, 05): each row of the command table is one operation on the block.
-/

namespace Sys2Proof.Machine

/-- I3C_PRIVATE_WRITE (R65): An I3C private write carries a 24-bit window offset and 32-bit data groups to the control window
with management authority. -/
def execI3cPrivateWrite (off : Nat) (data : List Byte) (s : State) : Host.Outcome State Fault Refusal :=
  s.run (i3cWrite off data)

/-- I3C_PRIVATE_READ (R65): An I3C offset write followed by a repeated START and a private read returns control-window words. -/
def execI3cPrivateRead (off words : Nat) (s : State) : Host.Outcome State Fault Refusal := s.run (i3cRead off words)

/-- SETDASA (R47): An I3C SETDASA assigns the module a dynamic address from its static address. -/
def execSetdasa (static addr : Nat) (s : State) : Host.Outcome State Fault Refusal := s.run (setDasa static addr)

/-- ENTDAA (R47): An I3C ENTDAA assigns the module a dynamic address. -/
def execEntdaa (addr : Nat) (s : State) : Host.Outcome State Fault Refusal := s.run (entDaa addr)

/-- REGISTER_WRITE (R66): A granted 32-bit write to a register with no row of its own is checked for size, page, port,
domain, transaction state and reserved encodings, then staged, applied or discarded. -/
def execRegisterWrite (port : Port) (off size : Nat) (value : W32) (s : State) : Host.Outcome State Fault Refusal :=
  s.run (regWriteAt port off size value)

/-- COUNTER_LO_READ (R136): A read of a 64-bit counter's _LO register captures all 64 bits, so that the next _HI read returns
the captured upper half. -/
def execCounterLoRead (port : Port) (off : Nat) (s : State) : Host.Outcome State Fault Refusal := s.run (regReadOut port off)

/-- BLK_EVT_CLR (R69): A W1C write to BLK_EVT_CLR clears raw event bits, and clearing WRITE_DISCARD also clears DISC_OFFSET
and DISC_CAUSE. -/
def execBlkEvtClr (port : Port) (page : Nat) (value : W32) (s : State) : Host.Outcome State Fault Refusal :=
  s.run (regWriteAt port (rBLK_EVT_CLR (pageBase page)) 4 value)

/-- BLK_EVT_EN (R70): A write to BLK_EVT_EN that sets an enable bit whose raw bit is 1 writes an event record to the page's
ring. -/
def execBlkEvtEn (port : Port) (page : Nat) (value : W32) (s : State) : Host.Outcome State Fault Refusal :=
  s.run (regWriteAt port (rBLK_EVT_EN (pageBase page)) 4 value)

/-- BEGIN (R74): A TXN_CTL BEGIN opens the transaction of an IDLE page, sets OWNER and starts the timeout. -/
def execTxnBegin (port : Port) (page timeout : Nat) (s : State) : Host.Outcome State Fault Refusal :=
  s.run (pageCommand port page 1 timeout)

/-- COMMIT (R74): A TXN_CTL COMMIT from the owner makes the page PENDING, stops new dispatch to the affected engines and
restarts the timer. -/
def execTxnCommit (port : Port) (page timeout : Nat) (s : State) : Host.Outcome State Fault Refusal :=
  s.run (pageCommand port page 2 timeout)

/-- ROLLBACK (R74): A TXN_CTL ROLLBACK from the owner drops the staged values and makes the page IDLE with RESULT
ROLLBACK_HOST. -/
def execTxnRollback (port : Port) (page timeout : Nat) (s : State) : Host.Outcome State Fault Refusal :=
  s.run (pageCommand port page 3 timeout)

/-- TXN_SAFE_POINT_APPLY (R75): When the safe point of a PENDING page is reached, every staged register applies in one PCLK
cycle, and the page becomes IDLE with RESULT COMMITTED. -/
def execTxnSafePointApply (page : Nat) (storageError : Bool) (s : State) : Host.Outcome State Fault Refusal :=
  s.run (hostGated (txnApplyRow page storageError))

/-- TXN_TIMEOUT (R74): The expiry of the transaction timer while the page is OPEN or PENDING rolls the transaction back with
ROLLBACK_TIMEOUT. -/
def execTxnTimeoutRow (page : Nat) (deviceWide : Bool) (s : State) : Host.Outcome State Fault Refusal :=
  s.run (txnTimeout page deviceWide)

/-- SINGLE_WRITE_APPLY (R76): A host or management write to an engine-page RW register outside any transaction applies at the
page's safe point. -/
def execSingleWriteApply (page : Nat) (s : State) : Host.Outcome State Fault Refusal := s.run (singleApply page)

/-- SINGLE_WRITE_TIMEOUT (R76): A one-register write whose safe point is not reached within TIMEOUT is discarded with cause
0x9. -/
def execSingleWriteTimeout (page : Nat) (s : State) : Host.Outcome State Fault Refusal := s.run (singleTimeout page)

/-- TX_BEGIN (R79): A TX_CTL BEGIN opens every valid member page with GROUP set, or refuses with BEGIN_REFUSED and FAIL_PAGE. -/
def execTxBeginRow (port : Port) (timeout : Nat) (s : State) : Host.Outcome State Fault Refusal :=
  s.run (deviceCommand port 1 timeout)

/-- TX_COMMIT (R79): A TX_CTL COMMIT makes every member page PENDING, pending a common safe point of all affected engines. -/
def execTxCommitRow (port : Port) (timeout : Nat) (s : State) : Host.Outcome State Fault Refusal :=
  s.run (deviceCommand port 2 timeout)

/-- TX_ROLLBACK (R79): A TX_CTL ROLLBACK, or a rollback of any member, rolls back every member page with one RESULT code. -/
def execTxRollbackRow (port : Port) (timeout : Nat) (s : State) : Host.Outcome State Fault Refusal :=
  s.run (deviceCommand port 3 timeout)

/-- TX_SAFE_POINT_APPLY (R79): When every affected engine of every member is at a safe point together, all members apply in
one PCLK cycle. -/
def execTxSafePointApply (s : State) : Host.Outcome State Fault Refusal := s.run (hostGated txSafeApply)

end Sys2Proof.Machine
end

