-- ==== Sys2Proof/Machine/ExecSecuring.lean ====
section
/-!
DEFINITION. Meanings of the commands of securing, restoring and failed units (14): each row of the command table is one operation on the block.
-/

namespace Sys2Proof.Machine

/-- SECURING_STREAM (R386): The device hashes and sends the next record section to the chosen targets while the next step
runs. -/
def execSecuringStream (delays : Bool) (s : State) : Host.Outcome State Fault Refusal := s.run (hostGated (secureStream delays))

/-- SECURING_COMPLETE (R388): With every section and the header acknowledged, SINCE and REQUEST clear and SECURE_DONE is
written. -/
def execSecuringComplete (peerAck ledgerAck : Bool) (s : State) : Host.Outcome State Fault Refusal :=
  s.run (hostGated (secureComplete peerAck ledgerAck))

/-- SECURING_FAILURE (R388): A securing that fails leaves its slot incomplete and writes SECURE_FAILED with its cause. -/
def execSecuringFailure (cause target : Nat) (refused : Bool) (s : State) : Host.Outcome State Fault Refusal :=
  s.run (secureFailure cause target refused)

/-- KEEP_RECORD_RECEIVE (R383): A keep holder writes a peer's record into its other keep slot and ledger, or refuses it. -/
def execKeepRecordReceive (src : Nat) (slot : Fin 2) (off : Nat) (part : KeepPart) (data : List Byte) (s : State) :
    Host.Outcome State Fault Refusal :=
  s.run (keepReceive src slot off part data)

/-- CANARY_UPDATE (R379): Every 10 ms the canary computes SCORE, and may set REQUEST, clear or set ARMED and write
CANARY_ALERT. -/
def execCanaryUpdateRow (s : State) : Host.Outcome State Fault Refusal := s.run canaryUpdate

/-- SECURE (R428): A SECURE command completes when securing is idle, with SECURE_FAILED if the last attempt failed. -/
def execSecure (queue : Fin 512) (count : Nat) (s : State) : Host.Outcome State Fault Refusal := s.run (secureRow queue count)

/-- RESTORE (R393): A RESTORE command reads a record or live blocks, writes them, verifies digests and restores queues,
tallies and cursors. -/
def execRestore (queue : Fin 512) (count : Nat) (data : RestoreData) (s : State) : Host.Outcome State Fault Refusal :=
  s.run (hostGated (restoreRow queue count data))

/-- DIGEST_REQ (R395): DIGEST_DEV answers a digest request from its live copy, from its ledger, or with none. -/
def execDigestReqRow (msg : Msg) (s : State) : Host.Outcome State Fault Refusal := s.run (hostGated (digestReq msg))

/-- DIGEST_ANS (R395): The restoring device compares a digest answer with the rewritten section. -/
def execDigestAnsRow (msg : Msg) (s : State) : Host.Outcome State Fault Refusal := s.run (hostGated (digestAns msg))

/-- RETIRE (R374): A host write of CL_RETIRE.RETIRE retires the cluster at its safe point. -/
def execRetire (port : Port) (cl : Fin 32) (s : State) : Host.Outcome State Fault Refusal :=
  s.run (writeNat port (rCL_RETIRE cl) 1)

/-- CLUSTER_FAILURE (R373): A domain regulator fault, core store uncorrectable error or watchdog limit fails the cluster and
retires it. -/
def execClusterFailure (cl : Fin 32) (cause : Nat) (s : State) : Host.Outcome State Fault Refusal :=
  s.run (failCluster cl cause)

/-- FABRIC_DOMAIN_FAILURE (R377): A failed FAB-E or FAB-W makes its half unusable, loses all HBM and fences every context. -/
def execFabricDomainFailure (half : Fin 2) (s : State) : Host.Outcome State Fault Refusal := s.run (fabricFailure half)

/-- RESTORE_BARRIER_TIMEOUT (R393): A restore source or digest device that does not answer within the barrier timeout
completes the RESTORE with RESTORE_SOURCE or RESTORE_DIGEST. -/
def execRestoreBarrierTimeout (queue : Fin 512) (count : Nat) (s : State) : Host.Outcome State Fault Refusal :=
  s.run (restoreTimeout queue count)

end Sys2Proof.Machine
end

