-- ==== Sys2Proof/Machine/ExecSecurity.lean ====
section
/-!
DEFINITION. Meanings of the commands of boot, attestation and the test port (17, 18): each row of the command table is one operation on the block.
-/

namespace Sys2Proof.Machine

/-- BOOT_PHASE_COMPLETE (R493): A boot phase finishes its work and the next phase starts, ending with READY in A0 or A3. -/
def execBootPhaseComplete (badLodes badClusters : List Nat) (badSpares badRows : List (Nat × Nat × Nat)) (s : State) :
    Host.Outcome State Fault Refusal :=
  s.run (bootComplete badLodes badClusters badSpares badRows)

/-- BOOT_PHASE_TIMEOUT (R493): A boot phase exceeding its limit sets BOOT_FAIL, asserts ALERT_N and holds. -/
def execBootPhaseTimeout (s : State) : Host.Outcome State Fault Refusal := s.run bootTimeout

/-- REQ (R506): A host write of SEC_ATT_CTL.REQ makes SEC read the nonce and write a signed report and certificate. -/
def execAttestReq (s : State) : Host.Outcome State Fault Refusal := s.run (hostGated (writeNat .ch0 rSEC_ATT_CTL 1))

/-- ATTESTATION_COMPLETE (R506): SEC finishes the report, sets SEC_ATT_STAT and raises ATTEST_DONE. -/
def execAttestationComplete (s : State) : Host.Outcome State Fault Refusal := s.run (hostGated attComplete)

/-- BYPASS (R510): The JTAG instruction BYPASS selects the 1-bit bypass register. -/
def execJtagBypass (s : State) : Host.Outcome State Fault Refusal := s.run (onTap jtagBypassRow)

/-- IDCODE (R510): The JTAG instruction IDCODE returns 0x1B24_074B. -/
def execJtagIdcode (s : State) : Host.Outcome State Fault Refusal := s.run (onTap jtagIdcodeRow)

/-- SAMPLE_PRELOAD (R510): The JTAG instruction SAMPLE/PRELOAD samples or preloads the boundary register. -/
def execJtagSamplePreload (bits : List Bool) (s : State) : Host.Outcome State Fault Refusal :=
  s.run (onTap (samplePreload bits))

/-- EXTEST (R511): The JTAG instruction EXTEST takes the scanned pins and fences all work until module reset. -/
def execJtagExtest (s : State) : Host.Outcome State Fault Refusal := s.run (onTap (takePins 0x03))

/-- CLAMP_INSTRUCTION (R511): The JTAG instruction CLAMP takes the scanned pins and fences all work until module reset. -/
def execJtagClamp (s : State) : Host.Outcome State Fault Refusal := s.run (onTap (takePins 0x04))

/-- HIGHZ (R511): The JTAG instruction HIGHZ takes the scanned pins and fences all work until module reset. -/
def execJtagHighz (s : State) : Host.Outcome State Fault Refusal := s.run (onTap (takePins 0x05))

/-- DBG_CHAL (R510): The JTAG instruction DBG_CHAL returns the current challenge and binding. -/
def execDbgChalRow (s : State) : Host.Outcome State Fault Refusal := s.run (onTap dbgChal)

/-- DBG_TOKEN (R513): A token shifted in through DBG_TOKEN is checked and unlocks debug, advances the lifecycle, or is
refused, with a new challenge. -/
def execDbgTokenRow (token : List Byte) (s : State) : Host.Outcome State Fault Refusal := s.run (onTap (dbgToken token))

/-- DBG_WINDOW (R514): A DBG_WINDOW access reads or writes the control window under the unlock's grants. -/
def execDbgWindowRow (write : Bool) (off : Nat) (data : W32) (s : State) : Host.Outcome State Fault Refusal :=
  s.run (onTap (dbgWindow write off data))

/-- TRST_N (R491): TRST_N low resets the TAP state only. -/
def execTrstN (s : State) : Host.Outcome State Fault Refusal := s.run trst

end Sys2Proof.Machine
end

