-- ==== Sys2Proof/Machine/ExecStep.lean ====
section
/-!
DEFINITION. Meanings of the commands of the training step (13): each row of the command table is one operation on the block.
-/

namespace Sys2Proof.Machine

/-- PITHEAD (R347): A PITHEAD command checks its epoch, then sends the vote, or decides at once as a local pithead. -/
def execPithead (queue : Fin 512) (count : Nat) (s : State) : Host.Outcome State Fault Refusal :=
  s.run (hostGated (pitheadRow queue count))

/-- VOTE (R352): The master counts, holds or discards a received vote, and decides ABORT or COMMIT. -/
def execVote (adit : Fin 18) (msg : Msg) (s : State) : Host.Outcome State Fault Refusal := s.run (voteIn adit msg)

/-- VOTE_BARRIER_TIMEOUT (R352): A member's vote missing at the barrier timeout is declared failed, and the decision is
ABORT. -/
def execVoteBarrierTimeout (s : State) : Host.Outcome State Fault Refusal := s.run voteTimeout

/-- LOG_ACK (R353): The deputy's acknowledgement logs the decision, and the master sends it to the members. -/
def execLogAck (adit : Fin 18) (msg : Msg) (s : State) : Host.Outcome State Fault Refusal := s.run (logAckIn adit msg)

/-- LOG_ACK_TIMEOUT (R353): A deputy not acknowledging within the heartbeat timeout is declared failed, and the master
decides again. -/
def execLogAckTimeoutRow (s : State) : Host.Outcome State Fault Refusal := s.run logAckTimeout

/-- DECISION (R356): A member receives a COMMIT or ABORT decision, with any adopted tables, and starts applying it or
discards it. -/
def execDecision (adit : Fin 18) (msg : Msg) (s : State) : Host.Outcome State Fault Refusal := s.run (decisionIn adit msg)

/-- COMMIT_APPLY (R356): At the safe point the epoch flips, amax records roll, cursors are set, the generation applies,
securing captures and the record is written. -/
def execCommitApplyRow (s : State) : Host.Outcome State Fault Refusal := s.run (hostGated commitApply)

/-- ABORT_APPLY (R357): Once no step-context command runs, the ABORT applies, queued commands complete STEP_ABORTED and the
PITHEAD completes PITHEAD_ABORTED or an owed abort is held. -/
def execAbortApplyRow (s : State) : Host.Outcome State Fault Refusal := s.run (hostGated abortApply)

end Sys2Proof.Machine
end

