-- ==== Sys2Proof/Machine/ExecStream.lean ====
section
/-!
DEFINITION. Meanings of the commands of stream engines (09): each row of the command table is one operation on the block.
-/

namespace Sys2Proof.Machine

/-- LOOP (R230): The stream instruction LOOP runs its body for its iterations, partitioned or indirect. -/
def execStreamLoopRow (cl : Fin 32) (entry : Fin 8) (s : State) : Host.Outcome State Fault Refusal :=
  s.run (streamLoop cl entry)

/-- END (R230): The stream instruction END closes a LOOP body and restores its position. -/
def execStreamEndRow (cl : Fin 32) (entry : Fin 8) (s : State) : Host.Outcome State Fault Refusal := s.run (streamEnd cl entry)

/-- RUN (R231): The stream instruction RUN emits a run of element coordinates at a fixed step. -/
def execStreamRunRow (cl : Fin 32) (entry : Fin 8) (s : State) : Host.Outcome State Fault Refusal := s.run (streamRun cl entry)

/-- STREAM_ADD (R230): The stream instruction ADD moves the current position by (DROW, DCOL). -/
def execStreamAddRow (cl : Fin 32) (entry : Fin 8) (s : State) : Host.Outcome State Fault Refusal := s.run (streamAdd cl entry)

/-- PAD (R231): The stream instruction PAD emits padding COUNT times. -/
def execStreamPadRow (cl : Fin 32) (entry : Fin 8) (s : State) : Host.Outcome State Fault Refusal := s.run (streamPad cl entry)

/-- STREAM_FETCH (R248): An input entry holding fewer than four tile-units fetches its next leaf blocks and scale records
through the cluster's fabric port. -/
def execStreamFetchRow (cl : Fin 32) (entry : Fin 8) (upsets : List Upset) (s : State) : Host.Outcome State Fault Refusal :=
  s.run (hostGated (fetchAndPour cl entry upsets))

/-- REMOTE_READ_REQUEST (R241): A CLASS 0x3 message asks the owner device to read a distributed block through its step
context. -/
def execRemoteReadRequest (src va bytes : Nat) (upsets : List Upset) (s : State) : Host.Outcome State Fault Refusal :=
  s.run (hostGated (remoteServe src va bytes upsets))

/-- REMOTE_READ_RESPONSE (R241): A CLASS 0x4 message returns remote block data, a poison mask or a translation fault to the
reader. -/
def execRemoteReadResponse (src va : Nat) (data : List Byte) (poison : Nat) (fault : Bool) (s : State) :
    Host.Outcome State Fault Refusal :=
  s.run (remoteAnswer src va data poison fault)

/-- REMOTE_READ_TIMEOUT (R241): A remote read unanswered within the barrier timeout is a stream fault with cause REMOTE. -/
def execRemoteReadTimeout (cl : Fin 32) (entry : Fin 8) (s : State) : Host.Outcome State Fault Refusal :=
  s.run (remoteTimeout cl entry)

/-- HOIST_ROW_FORWARD (R254): A cluster on the hoist chain takes a weight row into its slot and forwards it, or holds it
while it has no FREE slot. -/
def execHoistRowForward (cl : Fin 32) (upsets : List Upset) (s : State) : Host.Outcome State Fault Refusal :=
  s.run (hoistForward cl upsets)

/-- SE_CLR_BYTES (R259): A write of SE_CNT_CTL.CLR_BYTES clears the three byte counters. -/
def execSeClrBytes (port : Port) (cl : Fin 32) (s : State) : Host.Outcome State Fault Refusal :=
  s.run (writeNat port (rSE_CNT_CTL cl) 1)

/-- SE_CLR_IDX (R259): A write of SE_CNT_CTL.CLR_IDX clears SE_IDX. -/
def execSeClrIdx (port : Port) (cl : Fin 32) (s : State) : Host.Outcome State Fault Refusal :=
  s.run (writeNat port (rSE_CNT_CTL cl) 2)

/-- SE_CLR_ECC (R259): A write of SE_CNT_CTL.CLR_ECC clears SE_ECC. -/
def execSeClrEcc (port : Port) (cl : Fin 32) (s : State) : Host.Outcome State Fault Refusal :=
  s.run (writeNat port (rSE_CNT_CTL cl) 4)

end Sys2Proof.Machine
end

