-- ==== Sys2Proof/Machine/ExecVe.lean ====
section
/-!
DEFINITION. Meanings of the commands of vector engines (06, 07): each row of the command table is one operation on the block.
-/

namespace Sys2Proof.Machine

/-- VE_ROW_LAND (R142): An IN0 or IN1 row is accepted into its landing-list buffer, or refused until that buffer is FREE or
FILLING with the same tile. -/
def execVeRowLand (ve : Fin 64) (stream : Fin 2) (upsets : List Upset) (s : State) : Host.Outcome State Fault Refusal :=
  s.run (rowLand ve stream upsets)

/-- LANDING_BUFFER_RELEASE (R143): A landing buffer returns to FREE in the cycle after the command's last read of its tile. -/
def execLandingBufferRelease (ve : Fin 64) (s : State) : Host.Outcome State Fault Refusal := s.run (bufferRelease ve)

/-- VE_GROUP_RUN (R153): With a group's input rows present, the lanes run every stage or instruction of the group in order. -/
def execVeGroupRun (ve : Fin 64) (aclk : Nat) (upsets : List Upset) (s : State) : Host.Outcome State Fault Refusal :=
  s.run (hostGated (groupRun ve aclk upsets))

/-- ROWSTAT_FINALISATION (R188): After pass 1 of a row block, finalisation takes each row's statistics from its running
state. -/
def execRowstatFinalisation (ve : Fin 64) (upsets : List Upset) (s : State) : Host.Outcome State Fault Refusal :=
  s.run (rowFinalise ve upsets)

/-- VE_OUTPUT_ROW (R159): A converted result row goes to the stream-out stage or to OUT_BUF, or holds the VE while the row is
refused. -/
def execVeOutputRow (ve : Fin 64) (s : State) : Host.Outcome State Fault Refusal := s.run (hostGated (outputRow ve))

/-- SUMMARY_AND_GUARDS (R164): After the last result is accepted, the combined summary is written to SUMMARY_VA and the
guards are evaluated. -/
def execSummaryAndGuards (queue : Fin 512) (count : Nat) (s : State) : Host.Outcome State Fault Refusal :=
  s.run (hostGated (summaryGuards queue count))

/-- LAND_WAIT (R169): An unbroken input-wait run longer than VE_WAIT_LIMIT raises LAND_WAIT once. -/
def execLandWaitRow (ve : Fin 64) (s : State) : Host.Outcome State Fault Refusal := s.run (landWait ve)

/-- VE_CLR_CYCLES (R168): A write of VE_CNT_CTL.CLR_CYCLES clears the five VE cycle counters. -/
def execVeClrCycles (port : Port) (ve : Fin 64) (s : State) : Host.Outcome State Fault Refusal :=
  s.run (writeNat port (rVE_CNT_CTL ve) 1)

/-- VE_CLR_ECC (R168): A write of VE_CNT_CTL.CLR_ECC clears VE_ECC. -/
def execVeClrEcc (port : Port) (ve : Fin 64) (s : State) : Host.Outcome State Fault Refusal :=
  s.run (writeNat port (rVE_CNT_CTL ve) 2)

/-- CLR_TBL (R199): A write of VE_SFU.CLR_TBL clears CE_TBL at once. -/
def execClrTbl (port : Port) (ve : Fin 64) (s : State) : Host.Outcome State Fault Refusal :=
  s.run (writeNat port (rVE_SFU ve) 0x80000000)

end Sys2Proof.Machine
end

