-- ==== Sys2Proof/Machine/Dispatch.lean ====
section
/-!
DEFINITION. exec: each command's meaning.
-/

namespace Sys2Proof.Machine

/-- The effect of a command on everything but the queue. -/
def exec (i : Instr) (s : State) : Host.Outcome State Fault Refusal :=
  match i with
  | .powerUp vinMv lowMs => Sys2Proof.Machine.execPowerUp vinMv lowMs s
  | .inputEntersRange vinMv => Sys2Proof.Machine.execInputEntersRange vinMv s
  | .powerDown => Sys2Proof.Machine.execPowerDown s
  | .overVoltageShutdown vinMv => Sys2Proof.Machine.execOverVoltageShutdown vinMv s
  | .underVoltageShutdown => Sys2Proof.Machine.execUnderVoltageShutdown s
  | .inputOvWarn vinMv => Sys2Proof.Machine.execInputOvWarn vinMv s
  | .droop vinMv => Sys2Proof.Machine.execDroop vinMv s
  | .dipTimerExpiry => Sys2Proof.Machine.execDipTimerExpiry s
  | .dipTimerReset => Sys2Proof.Machine.execDipTimerReset s
  | .electronicCurrentLimitTrip => Sys2Proof.Machine.execElectronicCurrentLimitTrip s
  | .modRstNLow => Sys2Proof.Machine.execModRstNLow s
  | .modRstNHigh => Sys2Proof.Machine.execModRstNHigh s
  | .refclkLostEvent => Sys2Proof.Machine.execRefclkLostEvent s
  | .strapChangedEvent live => Sys2Proof.Machine.execStrapChangedEvent live s
  | .confirm port value => Sys2Proof.Machine.execConfirm port value s
  | .limitW port value => Sys2Proof.Machine.execLimitW port value s
  | .peakWRead => Sys2Proof.Machine.execPeakWRead s
  | .alertClear port value => Sys2Proof.Machine.execAlertClear port value s
  | .envelopeExcursionHeight watts => Sys2Proof.Machine.execEnvelopeExcursionHeight watts s
  | .envelopeExcursionLength watts => Sys2Proof.Machine.execEnvelopeExcursionLength watts s
  | .pacingUpdateRow predicted vinMv iin10mA avgW sampleW => Sys2Proof.Machine.execPacingUpdateRow predicted vinMv iin10mA avgW sampleW s
  | .i3cPrivateWrite off data => Sys2Proof.Machine.execI3cPrivateWrite off data s
  | .i3cPrivateRead off words => Sys2Proof.Machine.execI3cPrivateRead off words s
  | .setdasa static addr => Sys2Proof.Machine.execSetdasa static addr s
  | .entdaa addr => Sys2Proof.Machine.execEntdaa addr s
  | .fdNLow => Sys2Proof.Machine.execFdNLow s
  | .fdNHigh => Sys2Proof.Machine.execFdNHigh s
  | .registerWrite port off size value => Sys2Proof.Machine.execRegisterWrite port off size value s
  | .counterLoRead port off => Sys2Proof.Machine.execCounterLoRead port off s
  | .blkEvtClr port page value => Sys2Proof.Machine.execBlkEvtClr port page value s
  | .blkEvtEn port page value => Sys2Proof.Machine.execBlkEvtEn port page value s
  | .txnBegin port page timeout => Sys2Proof.Machine.execTxnBegin port page timeout s
  | .txnCommit port page timeout => Sys2Proof.Machine.execTxnCommit port page timeout s
  | .txnRollback port page timeout => Sys2Proof.Machine.execTxnRollback port page timeout s
  | .txnSafePointApply page storageError => Sys2Proof.Machine.execTxnSafePointApply page storageError s
  | .txnTimeoutRow page deviceWide => Sys2Proof.Machine.execTxnTimeoutRow page deviceWide s
  | .singleWriteApply page => Sys2Proof.Machine.execSingleWriteApply page s
  | .singleWriteTimeout page => Sys2Proof.Machine.execSingleWriteTimeout page s
  | .txBeginRow port timeout => Sys2Proof.Machine.execTxBeginRow port timeout s
  | .txCommitRow port timeout => Sys2Proof.Machine.execTxCommitRow port timeout s
  | .txRollbackRow port timeout => Sys2Proof.Machine.execTxRollbackRow port timeout s
  | .txSafePointApply => Sys2Proof.Machine.execTxSafePointApply s
  | .opuGroupEntry opu aclk upsets => Sys2Proof.Machine.execOpuGroupEntry opu aclk upsets s
  | .tileFillComplete opu => Sys2Proof.Machine.execTileFillComplete opu s
  | .drainRowAccept cl drain aclk upsets => Sys2Proof.Machine.execDrainRowAccept cl drain aclk upsets s
  | .accLoadRow opu aclk upsets => Sys2Proof.Machine.execAccLoadRow opu aclk upsets s
  | .weightSlotFilled opu slot => Sys2Proof.Machine.execWeightSlotFilled opu slot s
  | .drainStallRow opu => Sys2Proof.Machine.execDrainStallRow opu s
  | .opClrCycles port opu => Sys2Proof.Machine.execOpClrCycles port opu s
  | .opClrEcc port opu => Sys2Proof.Machine.execOpClrEcc port opu s
  | .veRowLand ve stream upsets => Sys2Proof.Machine.execVeRowLand ve stream upsets s
  | .landingBufferRelease ve => Sys2Proof.Machine.execLandingBufferRelease ve s
  | .veGroupRun ve aclk upsets => Sys2Proof.Machine.execVeGroupRun ve aclk upsets s
  | .rowstatFinalisation ve upsets => Sys2Proof.Machine.execRowstatFinalisation ve upsets s
  | .veOutputRow ve => Sys2Proof.Machine.execVeOutputRow ve s
  | .summaryAndGuards queue count => Sys2Proof.Machine.execSummaryAndGuards queue count s
  | .landWaitRow ve => Sys2Proof.Machine.execLandWaitRow ve s
  | .veClrCycles port ve => Sys2Proof.Machine.execVeClrCycles port ve s
  | .veClrEcc port ve => Sys2Proof.Machine.execVeClrEcc port ve s
  | .clrTbl port ve => Sys2Proof.Machine.execClrTbl port ve s
  | .veAdd ve m n dst srcA srcB => Sys2Proof.Machine.execVeAdd ve m n dst srcA srcB s
  | .veSub ve m n dst srcA srcB => Sys2Proof.Machine.execVeSub ve m n dst srcA srcB s
  | .veMul ve m n dst srcA srcB => Sys2Proof.Machine.execVeMul ve m n dst srcA srcB s
  | .veFma ve m n dst srcA srcB srcC => Sys2Proof.Machine.execVeFma ve m n dst srcA srcB srcC s
  | .veFms ve m n dst srcA srcB srcC => Sys2Proof.Machine.execVeFms ve m n dst srcA srcB srcC s
  | .veMax ve m n dst srcA srcB => Sys2Proof.Machine.execVeMax ve m n dst srcA srcB s
  | .veMin ve m n dst srcA srcB => Sys2Proof.Machine.execVeMin ve m n dst srcA srcB s
  | .veAbs ve m n dst srcA => Sys2Proof.Machine.execVeAbs ve m n dst srcA s
  | .veNeg ve m n dst srcA => Sys2Proof.Machine.execVeNeg ve m n dst srcA s
  | .veClamp ve m n dst srcA srcB srcC => Sys2Proof.Machine.execVeClamp ve m n dst srcA srcB srcC s
  | .veDiv ve m n dst srcA srcB => Sys2Proof.Machine.execVeDiv ve m n dst srcA srcB s
  | .veSqrt ve m n dst srcA => Sys2Proof.Machine.execVeSqrt ve m n dst srcA s
  | .veSfu ve m n dst srcA srcB upsets => Sys2Proof.Machine.execVeSfu ve m n dst srcA srcB upsets s
  | .veCvtr ve m n dst srcA srcB => Sys2Proof.Machine.execVeCvtr ve m n dst srcA srcB s
  | .veSelgt ve m n dst srcA srcB srcC => Sys2Proof.Machine.execVeSelgt ve m n dst srcA srcB srcC s
  | .veCmpeq ve m n dst srcA srcB => Sys2Proof.Machine.execVeCmpeq ve m n dst srcA srcB s
  | .veCmplt ve m n dst srcA srcB => Sys2Proof.Machine.execVeCmplt ve m n dst srcA srcB s
  | .veCmple ve m n dst srcA srcB => Sys2Proof.Machine.execVeCmple ve m n dst srcA srcB s
  | .veIsnan ve m n dst srcA => Sys2Proof.Machine.execVeIsnan ve m n dst srcA s
  | .veSel ve m n dst srcA srcB srcC => Sys2Proof.Machine.execVeSel ve m n dst srcA srcB srcC s
  | .veIadd ve m n dst srcA srcB => Sys2Proof.Machine.execVeIadd ve m n dst srcA srcB s
  | .veIsub ve m n dst srcA srcB => Sys2Proof.Machine.execVeIsub ve m n dst srcA srcB s
  | .veImul ve m n dst srcA srcB => Sys2Proof.Machine.execVeImul ve m n dst srcA srcB s
  | .veAnd ve m n dst srcA srcB => Sys2Proof.Machine.execVeAnd ve m n dst srcA srcB s
  | .veOr ve m n dst srcA srcB => Sys2Proof.Machine.execVeOr ve m n dst srcA srcB s
  | .veXor ve m n dst srcA srcB => Sys2Proof.Machine.execVeXor ve m n dst srcA srcB s
  | .veShl ve m n dst srcA srcB => Sys2Proof.Machine.execVeShl ve m n dst srcA srcB s
  | .veShr ve m n dst srcA srcB => Sys2Proof.Machine.execVeShr ve m n dst srcA srcB s
  | .veSar ve m n dst srcA srcB => Sys2Proof.Machine.execVeSar ve m n dst srcA srcB s
  | .veIcmplt ve m n dst srcA srcB => Sys2Proof.Machine.execVeIcmplt ve m n dst srcA srcB s
  | .veCvtif ve m n dst srcA => Sys2Proof.Machine.execVeCvtif ve m n dst srcA s
  | .veCvtfi ve m n dst srcA => Sys2Proof.Machine.execVeCvtfi ve m n dst srcA s
  | .veMov ve m n dst srcA => Sys2Proof.Machine.execVeMov ve m n dst srcA s
  | .streamLoopRow cl entry => Sys2Proof.Machine.execStreamLoopRow cl entry s
  | .streamEndRow cl entry => Sys2Proof.Machine.execStreamEndRow cl entry s
  | .streamRunRow cl entry => Sys2Proof.Machine.execStreamRunRow cl entry s
  | .streamAddRow cl entry => Sys2Proof.Machine.execStreamAddRow cl entry s
  | .streamPadRow cl entry => Sys2Proof.Machine.execStreamPadRow cl entry s
  | .streamFetchRow cl entry upsets => Sys2Proof.Machine.execStreamFetchRow cl entry upsets s
  | .remoteReadRequest src va bytes upsets => Sys2Proof.Machine.execRemoteReadRequest src va bytes upsets s
  | .remoteReadResponse src va data poison fault => Sys2Proof.Machine.execRemoteReadResponse src va data poison fault s
  | .remoteReadTimeout cl entry => Sys2Proof.Machine.execRemoteReadTimeout cl entry s
  | .hoistRowForward cl upsets => Sys2Proof.Machine.execHoistRowForward cl upsets s
  | .seClrBytes port cl => Sys2Proof.Machine.execSeClrBytes port cl s
  | .seClrIdx port cl => Sys2Proof.Machine.execSeClrIdx port cl s
  | .seClrEcc port cl => Sys2Proof.Machine.execSeClrEcc port cl s
  | .lodeReadRow lode addr flips => Sys2Proof.Machine.execLodeReadRow lode addr flips s
  | .lodeWriteRow lode addr lo hi word0 word1 poison0 poison1 flips0 flips1 stored => Sys2Proof.Machine.execLodeWriteRow lode addr lo hi word0 word1 poison0 poison1 flips0 flips1 stored s
  | .patrolScrubRead unit flips caughtUp => Sys2Proof.Machine.execPatrolScrubRead unit flips caughtUp s
  | .scrubCatchupRow unit => Sys2Proof.Machine.execScrubCatchupRow unit s
  | .fillCopyRow lode flips back => Sys2Proof.Machine.execFillCopyRow lode flips back s
  | .fillCompleteRow lode => Sys2Proof.Machine.execFillCompleteRow lode s
  | .lodeRecalibration lode => Sys2Proof.Machine.execLodeRecalibration lode s
  | .stackTempReadout lode temp => Sys2Proof.Machine.execStackTempReadout lode temp s
  | .lodeFailureRow lode => Sys2Proof.Machine.execLodeFailureRow lode s
  | .stagingSliceFailure slice => Sys2Proof.Machine.execStagingSliceFailure slice s
  | .ldClrEcc port lode => Sys2Proof.Machine.execLdClrEcc port lode s
  | .adEnWrite port adit en => Sys2Proof.Machine.execAdEnWrite port adit en s
  | .presenceDetected adit optical => Sys2Proof.Machine.execPresenceDetected adit optical s
  | .presenceLostRow adit => Sys2Proof.Machine.execPresenceLostRow adit s
  | .trainComplete adit reversed => Sys2Proof.Machine.execTrainComplete adit reversed s
  | .trainTimeoutRow adit => Sys2Proof.Machine.execTrainTimeoutRow adit s
  | .alignComplete adit => Sys2Proof.Machine.execAlignComplete adit s
  | .alignTimeoutRow adit => Sys2Proof.Machine.execAlignTimeoutRow adit s
  | .identFlitRow adit id peerAdit step up => Sys2Proof.Machine.execIdentFlitRow adit id peerAdit step up s
  | .identSendTimer adit => Sys2Proof.Machine.execIdentSendTimer adit s
  | .retrainTrigger adit => Sys2Proof.Machine.execRetrainTrigger adit s
  | .adRetrain port adit en => Sys2Proof.Machine.execAdRetrain port adit en s
  | .quickRetrainComplete adit => Sys2Proof.Machine.execQuickRetrainComplete adit s
  | .quickRetrainFail adit => Sys2Proof.Machine.execQuickRetrainFail adit s
  | .downRetryTimer adit => Sys2Proof.Machine.execDownRetryTimer adit s
  | .adClrCnt port adit en => Sys2Proof.Machine.execAdClrCnt port adit en s
  | .dataFlitRow link number errors flit => Sys2Proof.Machine.execDataFlitRow link number errors flit s
  | .ackFlitRow link count => Sys2Proof.Machine.execAckFlitRow link count s
  | .nakFlitRow link count => Sys2Proof.Machine.execNakFlitRow link count s
  | .ackTimer link => Sys2Proof.Machine.execAckTimer link s
  | .replayTimeoutRow link => Sys2Proof.Machine.execReplayTimeoutRow link s
  | .messageForward msg => Sys2Proof.Machine.execMessageForward msg s
  | .join port => Sys2Proof.Machine.execJoin port s
  | .joinRequestTimer => Sys2Proof.Machine.execJoinRequestTimer s
  | .joinRequest src => Sys2Proof.Machine.execJoinRequest src s
  | .propose port => Sys2Proof.Machine.execPropose port s
  | .cancel port => Sys2Proof.Machine.execCancel port s
  | .gangFormationRow => Sys2Proof.Machine.execGangFormationRow s
  | .formationTimeoutRow => Sys2Proof.Machine.execFormationTimeoutRow s
  | .routeQRow adit msg => Sys2Proof.Machine.execRouteQRow adit msg s
  | .routeARow adit msg => Sys2Proof.Machine.execRouteARow adit msg s
  | .adoptedTables src mgen epoch tables barrier heartbeat => Sys2Proof.Machine.execAdoptedTables src mgen epoch tables barrier heartbeat s
  | .heartbeatTimerRow => Sys2Proof.Machine.execHeartbeatTimerRow s
  | .heartbeatRow src mgen => Sys2Proof.Machine.execHeartbeatRow src mgen s
  | .heartbeatAnswerRow src mgen => Sys2Proof.Machine.execHeartbeatAnswerRow src mgen s
  | .heartbeatTimeoutRow dev => Sys2Proof.Machine.execHeartbeatTimeoutRow dev s
  | .failureDeclaration src mgen dev => Sys2Proof.Machine.execFailureDeclaration src mgen dev s
  | .masterSilenceTimeout => Sys2Proof.Machine.execMasterSilenceTimeout s
  | .takeoverRequestRow src mgen => Sys2Proof.Machine.execTakeoverRequestRow src mgen s
  | .takeoverAckRow src mgen => Sys2Proof.Machine.execTakeoverAckRow src mgen s
  | .takeoverTimeoutRow => Sys2Proof.Machine.execTakeoverTimeoutRow s
  | .reduceScatter queue count => Sys2Proof.Machine.execReduceScatter queue count s
  | .allGather queue count => Sys2Proof.Machine.execAllGather queue count s
  | .broadcast queue count => Sys2Proof.Machine.execBroadcast queue count s
  | .shift queue count => Sys2Proof.Machine.execShift queue count s
  | .chunkDataRow adit msg upsets => Sys2Proof.Machine.execChunkDataRow adit msg upsets s
  | .chunkGrantRow adit msg => Sys2Proof.Machine.execChunkGrantRow adit msg s
  | .grantTimerRow queue count => Sys2Proof.Machine.execGrantTimerRow queue count s
  | .chunkAbortRow adit msg => Sys2Proof.Machine.execChunkAbortRow adit msg s
  | .chunkCarryRow adit msg => Sys2Proof.Machine.execChunkCarryRow adit msg s
  | .chunkClose adit msg => Sys2Proof.Machine.execChunkClose adit msg s
  | .chunkClosed adit msg => Sys2Proof.Machine.execChunkClosed adit msg s
  | .chunkRestart adit msg => Sys2Proof.Machine.execChunkRestart adit msg s
  | .collectiveFinish queue count => Sys2Proof.Machine.execCollectiveFinish queue count s
  | .barrierTimeoutRow queue count => Sys2Proof.Machine.execBarrierTimeoutRow queue count s
  | .waitReport src mgen tally group waits => Sys2Proof.Machine.execWaitReport src mgen tally group waits s
  | .waitReportGatherEnd tally => Sys2Proof.Machine.execWaitReportGatherEnd tally s
  | .scanCarryTimeout queue count => Sys2Proof.Machine.execScanCarryTimeout queue count s
  | .segmentCarryArrival ve upsets => Sys2Proof.Machine.execSegmentCarryArrival ve upsets s
  | .pithead queue count => Sys2Proof.Machine.execPithead queue count s
  | .vote adit msg => Sys2Proof.Machine.execVote adit msg s
  | .voteBarrierTimeout => Sys2Proof.Machine.execVoteBarrierTimeout s
  | .logAck adit msg => Sys2Proof.Machine.execLogAck adit msg s
  | .logAckTimeoutRow => Sys2Proof.Machine.execLogAckTimeoutRow s
  | .decision adit msg => Sys2Proof.Machine.execDecision adit msg s
  | .commitApplyRow => Sys2Proof.Machine.execCommitApplyRow s
  | .abortApplyRow => Sys2Proof.Machine.execAbortApplyRow s
  | .securingStream delays => Sys2Proof.Machine.execSecuringStream delays s
  | .securingComplete peerAck ledgerAck => Sys2Proof.Machine.execSecuringComplete peerAck ledgerAck s
  | .securingFailure cause target refused => Sys2Proof.Machine.execSecuringFailure cause target refused s
  | .keepRecordReceive src slot off part data => Sys2Proof.Machine.execKeepRecordReceive src slot off part data s
  | .canaryUpdateRow => Sys2Proof.Machine.execCanaryUpdateRow s
  | .secure queue count => Sys2Proof.Machine.execSecure queue count s
  | .restore queue count data => Sys2Proof.Machine.execRestore queue count data s
  | .digestReqRow msg => Sys2Proof.Machine.execDigestReqRow msg s
  | .digestAnsRow msg => Sys2Proof.Machine.execDigestAnsRow msg s
  | .retire port cl => Sys2Proof.Machine.execRetire port cl s
  | .clusterFailure cl cause => Sys2Proof.Machine.execClusterFailure cl cause s
  | .fabricDomainFailure half => Sys2Proof.Machine.execFabricDomainFailure half s
  | .chTrainingStart port => Sys2Proof.Machine.execChTrainingStart port s
  | .chTrainingComplete port => Sys2Proof.Machine.execChTrainingComplete port s
  | .chTrainingTimeout port => Sys2Proof.Machine.execChTrainingTimeout port s
  | .chRecovery port => Sys2Proof.Machine.execChRecovery port s
  | .chRecoveryComplete port => Sys2Proof.Machine.execChRecoveryComplete port s
  | .chRecoveryTimeout port => Sys2Proof.Machine.execChRecoveryTimeout port s
  | .chDownRetry port => Sys2Proof.Machine.execChDownRetry port s
  | .capsFlitRow port caps => Sys2Proof.Machine.execCapsFlitRow port caps s
  | .cfgRd port txn => Sys2Proof.Machine.execCfgRd port txn s
  | .cfgWr port txn => Sys2Proof.Machine.execCfgWr port txn s
  | .rdTxn port device txn upsets => Sys2Proof.Machine.execRdTxn port device txn upsets s
  | .wrTxn port device txn => Sys2Proof.Machine.execWrTxn port device txn s
  | .intr ring => Sys2Proof.Machine.execIntr ring s
  | .cpl port txn => Sys2Proof.Machine.execCpl port txn s
  | .cplData port txn => Sys2Proof.Machine.execCplData port txn s
  | .completionTimeout port tag => Sys2Proof.Machine.execCompletionTimeout port tag s
  | .hostAccessTimeout => Sys2Proof.Machine.execHostAccessTimeout s
  | .ctxLoadRow port ctx => Sys2Proof.Machine.execCtxLoadRow port ctx s
  | .ctxReadRow port ctx => Sys2Proof.Machine.execCtxReadRow port ctx s
  | .ctxUnfenceRow port ctx => Sys2Proof.Machine.execCtxUnfenceRow port ctx s
  | .ctxInvalidateRow port ctx => Sys2Proof.Machine.execCtxInvalidateRow port ctx s
  | .sqTail port queue value => Sys2Proof.Machine.execSqTail port queue value s
  | .sqEnable port queue en => Sys2Proof.Machine.execSqEnable port queue en s
  | .sqResume port queue => Sys2Proof.Machine.execSqResume port queue s
  | .sqDiscard port queue => Sys2Proof.Machine.execSqDiscard port queue s
  | .descriptorFetch queue => Sys2Proof.Machine.execDescriptorFetch queue s
  | .dispatchOpportunityRow => Sys2Proof.Machine.execDispatchOpportunityRow s
  | .commandCompletion queue => Sys2Proof.Machine.execCommandCompletion queue s
  | .kernel queue count => Sys2Proof.Machine.execKernel queue count s
  | .copy queue count => Sys2Proof.Machine.execCopy queue count s
  | .gatherRow queue count => Sys2Proof.Machine.execGatherRow queue count s
  | .scatterRow queue count => Sys2Proof.Machine.execScatterRow queue count s
  | .scanRowCmd queue count => Sys2Proof.Machine.execScanRowCmd queue count s
  | .fence queue count => Sys2Proof.Machine.execFence queue count s
  | .drain queue count => Sys2Proof.Machine.execDrain queue count s
  | .waitTokenOnly queue count => Sys2Proof.Machine.execWaitTokenOnly queue count s
  | .waitUntilTime queue count => Sys2Proof.Machine.execWaitUntilTime queue count s
  | .waitForTime queue count => Sys2Proof.Machine.execWaitForTime queue count s
  | .waitTimerExpiry queue count => Sys2Proof.Machine.execWaitTimerExpiry queue count s
  | .event queue count => Sys2Proof.Machine.execEvent queue count s
  | .txnCmdBeginRow queue count => Sys2Proof.Machine.execTxnCmdBeginRow queue count s
  | .txnCmdCommitRow queue count => Sys2Proof.Machine.execTxnCmdCommitRow queue count s
  | .txnCmdRollbackRow queue count => Sys2Proof.Machine.execTxnCmdRollbackRow queue count s
  | .txnCmdWriteRow queue count => Sys2Proof.Machine.execTxnCmdWriteRow queue count s
  | .evHeadRow port ring value => Sys2Proof.Machine.execEvHeadRow port ring value s
  | .eventRecordWrite ring => Sys2Proof.Machine.execEventRecordWrite ring s
  | .interruptModerationExpiry ring => Sys2Proof.Machine.execInterruptModerationExpiry ring s
  | .coreWatchdogFire cl => Sys2Proof.Machine.execCoreWatchdogFire cl s
  | .schWatchdogFire takeUs => Sys2Proof.Machine.execSchWatchdogFire takeUs s
  | .rcxWatchdogFire core => Sys2Proof.Machine.execRcxWatchdogFire core s
  | .pwrWatchdogFire => Sys2Proof.Machine.execPwrWatchdogFire s
  | .secWatchdogFire => Sys2Proof.Machine.execSecWatchdogFire s
  | .watchdogServiceRow proc nearMiss upsets => Sys2Proof.Machine.execWatchdogServiceRow proc nearMiss upsets s
  | .restartLimitMissed proc => Sys2Proof.Machine.execRestartLimitMissed proc s
  | .pwrAbsentTimeout => Sys2Proof.Machine.execPwrAbsentTimeout s
  | .stageRow port => Sys2Proof.Machine.execStageRow port s
  | .stageCompleteRow => Sys2Proof.Machine.execStageCompleteRow s
  | .activateRow port => Sys2Proof.Machine.execActivateRow port s
  | .fwDiscardRow port => Sys2Proof.Machine.execFwDiscardRow port s
  | .rollStartRow => Sys2Proof.Machine.execRollStartRow s
  | .updateDeferredRow => Sys2Proof.Machine.execUpdateDeferredRow s
  | .rollStepCompleteRow => Sys2Proof.Machine.execRollStepCompleteRow s
  | .rollStepFailRow => Sys2Proof.Machine.execRollStepFailRow s
  | .activityStateEntry st => Sys2Proof.Machine.execActivityStateEntry st s
  | .wakeCauseRow cause => Sys2Proof.Machine.execWakeCauseRow cause s
  | .activityExitComplete => Sys2Proof.Machine.execActivityExitComplete s
  | .tolUs port value => Sys2Proof.Machine.execTolUs port value s
  | .governorParkRow cl => Sys2Proof.Machine.execGovernorParkRow cl s
  | .governorUnparkCmd cl => Sys2Proof.Machine.execGovernorUnparkCmd cl s
  | .park port cl value => Sys2Proof.Machine.execPark port cl value s
  | .dieSensorSample readings => Sys2Proof.Machine.execDieSensorSample readings s
  | .regulatorFaultRow lost => Sys2Proof.Machine.execRegulatorFaultRow lost s
  | .force port value => Sys2Proof.Machine.execForce port value s
  | .firedampFallTimer => Sys2Proof.Machine.execFiredampFallTimer s
  | .fd3RecoveryRow => Sys2Proof.Machine.execFd3RecoveryRow s
  | .fd1HoldExpiryRow => Sys2Proof.Machine.execFd1HoldExpiryRow s
  | .moduleRow => Sys2Proof.Machine.execModuleRow s
  | .bootPhaseComplete badLodes badClusters badSpares badRows => Sys2Proof.Machine.execBootPhaseComplete badLodes badClusters badSpares badRows s
  | .bootPhaseTimeout => Sys2Proof.Machine.execBootPhaseTimeout s
  | .attestReq => Sys2Proof.Machine.execAttestReq s
  | .attestationComplete => Sys2Proof.Machine.execAttestationComplete s
  | .jtagBypass => Sys2Proof.Machine.execJtagBypass s
  | .jtagIdcode => Sys2Proof.Machine.execJtagIdcode s
  | .jtagSamplePreload bits => Sys2Proof.Machine.execJtagSamplePreload bits s
  | .jtagExtest => Sys2Proof.Machine.execJtagExtest s
  | .jtagClamp => Sys2Proof.Machine.execJtagClamp s
  | .jtagHighz => Sys2Proof.Machine.execJtagHighz s
  | .dbgChalRow => Sys2Proof.Machine.execDbgChalRow s
  | .dbgTokenRow token => Sys2Proof.Machine.execDbgTokenRow token s
  | .dbgWindowRow write off data => Sys2Proof.Machine.execDbgWindowRow write off data s
  | .trstN => Sys2Proof.Machine.execTrstN s
  | .dipEndRow us => Sys2Proof.Machine.execDipEndRow us s
  | .strapMismatchCleared => Sys2Proof.Machine.execStrapMismatchCleared s
  | .refclkBackRow => Sys2Proof.Machine.execRefclkBackRow s
  | .peerRetrainSignal adit => Sys2Proof.Machine.execPeerRetrainSignal adit s
  | .routeAnswerTimeout => Sys2Proof.Machine.execRouteAnswerTimeout s
  | .restoreBarrierTimeout queue count => Sys2Proof.Machine.execRestoreBarrierTimeout queue count s
  | .redClrCnt port half => Sys2Proof.Machine.execRedClrCnt port half s
  | .redClrBytes port half => Sys2Proof.Machine.execRedClrBytes port half s
  | .evCfgEnable port ring value => Sys2Proof.Machine.execEvCfgEnable port ring value s

end Sys2Proof.Machine
end

