-- ==== Sys2Proof/WellFormed.lean ====
section
/-!
DEFINITION. Well-formed commands: operands within the ranges that the spec gives their fields. Each check has an ill-formed term
in Tests/Slice0.lean.
-/

namespace Sys2Proof

/-- An input voltage in the 16 bits of PW_INPUT.VIN_MV, within the absolute maximum (02 R35). -/
abbrev voltageOk (v : Nat) : Prop := v ≤ 50000

/-- A transfer of a size that Chaell can carry: 4 to 512 bytes, or a smaller CPU access (03 R66, 15 R409). -/
abbrev sizeOk (n : Nat) : Prop := 1 ≤ n ∧ n ≤ 512

/-- Bit positions of a word of `w` bits, each at most once. -/
abbrev bitsOk (w : Nat) (l : List Nat) : Prop := (∀ b ∈ l, b < w) ∧ l.Nodup

/-- Upsets of on-chip words of 32 data and 7 check bits (04 R106). -/
abbrev upsetsOk (l : List Upset) : Prop := ∀ u ∈ l, bitsOk 39 u.bits

/-- Instance numbers below `w`, each at most once. -/
abbrev distinctBelow (w : Nat) (l : List Nat) : Prop := bitsOk w l

/-- A lode-local address of a storage word: 8 bytes of data (10 R271). -/
abbrev storageWord (a : Nat) : Prop := a % 8 = 0

/-- A fabric message (11 R288). -/
abbrev msgOk (m : Msg) : Prop :=
  m.dst < 65536 ∧ m.src < 65536 ∧ m.mseq < 2 ^ 32 ∧ 1 ≤ m.cls ∧ m.cls ≤ 5 ∧ m.hops < 256 ∧ m.mgen < 65536
    ∧ m.poison < 2 ^ 64 ∧ m.payload.length ≤ 4096 ∧ m.payload.length % 8 = 0 ∧ m.body = none

/-- A Chaell transaction whose header fields fit (15 R409); a reserved value in it is a matter of the command's meaning. -/
abbrev txnOk (t : ChTxn) : Prop :=
  t.kind < 256 ∧ t.tag < 65536 ∧ t.len < 65536 ∧ t.status < 256 ∧ t.addr < 2 ^ 64 ∧ t.data.length < 65536

/-- Tables of a gang of at most 4,096 members, whose IDs fit (11 R300). -/
abbrev tablesOk (t : Tables) : Prop :=
  t.gen < 65536 ∧ t.master < 65536 ∧ t.deputy < 65536 ∧ t.members.length ≤ 4096 ∧ (∀ m ∈ t.members, m.1 < 65536)

/-- Every operand of the command is in its field's range. -/
def WellFormed (i : Instr) : Bool :=
  match i with
  | .powerUp vinMv _ => decide (voltageOk vinMv)
  | .inputEntersRange vinMv => decide (voltageOk vinMv)
  | .powerDown => true
  | .overVoltageShutdown vinMv => decide (voltageOk vinMv)
  | .underVoltageShutdown => true
  | .inputOvWarn vinMv => decide (voltageOk vinMv)
  | .droop vinMv => decide (voltageOk vinMv)
  | .dipTimerExpiry => true
  | .dipTimerReset => true
  | .electronicCurrentLimitTrip => true
  | .modRstNLow => true
  | .modRstNHigh => true
  | .refclkLostEvent => true
  | .strapChangedEvent _ => true
  | .confirm _ _ => true
  | .limitW _ _ => true
  | .peakWRead => true
  | .alertClear _ _ => true
  | .envelopeExcursionHeight watts => decide (watts < 65536)
  | .envelopeExcursionLength watts => decide (watts < 65536)
  | .pacingUpdateRow predicted vinMv iin10mA avgW sampleW => decide (predicted.length = 64 ∧ voltageOk vinMv ∧ iin10mA < 65536 ∧ avgW < 65536 ∧ sampleW < 65536)
  | .i3cPrivateWrite off data => decide (off < 2 ^ 24 ∧ data.length ≤ 4096 ∧ data.length % 4 = 0)
  | .i3cPrivateRead off words => decide (off < 2 ^ 24 ∧ words ≤ 4096)
  | .setdasa static addr => decide (static < 128 ∧ addr < 128)
  | .entdaa addr => decide (addr < 128)
  | .fdNLow => true
  | .fdNHigh => true
  | .registerWrite _ off size _ => decide (off < 2 ^ 24 ∧ sizeOk size)
  | .counterLoRead _ off => decide (off < 2 ^ 24)
  | .blkEvtClr _ page _ => decide (page < 4096)
  | .blkEvtEn _ page _ => decide (page < 4096)
  | .txnBegin _ page timeout => decide (page < 4096 ∧ timeout < 65536)
  | .txnCommit _ page timeout => decide (page < 4096 ∧ timeout < 65536)
  | .txnRollback _ page timeout => decide (page < 4096 ∧ timeout < 65536)
  | .txnSafePointApply page _ => decide (page < 4096)
  | .txnTimeoutRow page _ => decide (page < 4096)
  | .singleWriteApply page => decide (page < 4096)
  | .singleWriteTimeout page => decide (page < 4096)
  | .txBeginRow _ timeout => decide (timeout < 65536)
  | .txCommitRow _ timeout => decide (timeout < 65536)
  | .txRollbackRow _ timeout => decide (timeout < 65536)
  | .txSafePointApply => true
  | .opuGroupEntry _ aclk upsets => decide (aclk < 12 ∧ upsetsOk upsets)
  | .tileFillComplete _ => true
  | .drainRowAccept _ _ aclk upsets => decide (aclk < 12 ∧ upsetsOk upsets)
  | .accLoadRow _ aclk upsets => decide (aclk < 12 ∧ upsetsOk upsets)
  | .weightSlotFilled _ slot => decide (slot < 16)
  | .drainStallRow _ => true
  | .opClrCycles _ _ => true
  | .opClrEcc _ _ => true
  | .veRowLand _ _ upsets => decide (upsetsOk upsets)
  | .landingBufferRelease _ => true
  | .veGroupRun _ aclk upsets => decide (aclk < 12 ∧ upsetsOk upsets)
  | .rowstatFinalisation _ upsets => decide (upsetsOk upsets)
  | .veOutputRow _ => true
  | .summaryAndGuards _ _ => true
  | .landWaitRow _ => true
  | .veClrCycles _ _ => true
  | .veClrEcc _ _ => true
  | .clrTbl _ _ => true
  | .veAdd _ _ _ _ _ _ => true
  | .veSub _ _ _ _ _ _ => true
  | .veMul _ _ _ _ _ _ => true
  | .veFma _ _ _ _ _ _ _ => true
  | .veFms _ _ _ _ _ _ _ => true
  | .veMax _ _ _ _ _ _ => true
  | .veMin _ _ _ _ _ _ => true
  | .veAbs _ _ _ _ _ => true
  | .veNeg _ _ _ _ _ => true
  | .veClamp _ _ _ _ _ _ _ => true
  | .veDiv _ _ _ _ _ _ => true
  | .veSqrt _ _ _ _ _ => true
  | .veSfu _ _ _ _ _ _ upsets => decide (upsetsOk upsets)
  | .veCvtr _ _ _ _ _ _ => true
  | .veSelgt _ _ _ _ _ _ _ => true
  | .veCmpeq _ _ _ _ _ _ => true
  | .veCmplt _ _ _ _ _ _ => true
  | .veCmple _ _ _ _ _ _ => true
  | .veIsnan _ _ _ _ _ => true
  | .veSel _ _ _ _ _ _ _ => true
  | .veIadd _ _ _ _ _ _ => true
  | .veIsub _ _ _ _ _ _ => true
  | .veImul _ _ _ _ _ _ => true
  | .veAnd _ _ _ _ _ _ => true
  | .veOr _ _ _ _ _ _ => true
  | .veXor _ _ _ _ _ _ => true
  | .veShl _ _ _ _ _ _ => true
  | .veShr _ _ _ _ _ _ => true
  | .veSar _ _ _ _ _ _ => true
  | .veIcmplt _ _ _ _ _ _ => true
  | .veCvtif _ _ _ _ _ => true
  | .veCvtfi _ _ _ _ _ => true
  | .veMov _ _ _ _ _ => true
  | .streamLoopRow _ _ => true
  | .streamEndRow _ _ => true
  | .streamRunRow _ _ => true
  | .streamAddRow _ _ => true
  | .streamPadRow _ _ => true
  | .streamFetchRow _ _ upsets => decide (upsetsOk upsets)
  | .remoteReadRequest src va bytes upsets => decide (src < 65536 ∧ va < 2 ^ 48 ∧ bytes ≤ 4096 ∧ upsetsOk upsets)
  | .remoteReadResponse src va data poison _ => decide (src < 65536 ∧ va < 2 ^ 48 ∧ data.length ≤ 4096 ∧ poison < 2 ^ 64)
  | .remoteReadTimeout _ _ => true
  | .hoistRowForward _ upsets => decide (upsetsOk upsets)
  | .seClrBytes _ _ => true
  | .seClrIdx _ _ => true
  | .seClrEcc _ _ => true
  | .lodeReadRow _ addr flips => decide (storageWord addr ∧ bitsOk 72 flips)
  | .lodeWriteRow _ addr lo hi _ _ _ _ flips0 flips1 stored => decide (storageWord addr ∧ lo < hi ∧ hi ≤ 8 ∧ bitsOk 39 flips0 ∧ bitsOk 39 flips1 ∧ bitsOk 72 stored)
  | .patrolScrubRead _ flips _ => decide (bitsOk 72 flips)
  | .scrubCatchupRow _ => true
  | .fillCopyRow _ flips back => decide (bitsOk 72 flips ∧ bitsOk 72 back)
  | .fillCompleteRow _ => true
  | .lodeRecalibration _ => true
  | .stackTempReadout _ temp => decide (temp < 256)
  | .lodeFailureRow _ => true
  | .stagingSliceFailure _ => true
  | .ldClrEcc _ _ => true
  | .adEnWrite _ _ _ => true
  | .presenceDetected _ _ => true
  | .presenceLostRow _ => true
  | .trainComplete _ _ => true
  | .trainTimeoutRow _ => true
  | .alignComplete _ => true
  | .alignTimeoutRow _ => true
  | .identFlitRow _ id peerAdit step _ => decide (id < 65536 ∧ peerAdit < 65536 ∧ step < 16)
  | .identSendTimer _ => true
  | .retrainTrigger _ => true
  | .adRetrain _ _ _ => true
  | .quickRetrainComplete _ => true
  | .quickRetrainFail _ => true
  | .downRetryTimer _ => true
  | .adClrCnt _ _ _ => true
  | .dataFlitRow _ _ errors flit => decide (errors.length ≤ 3 ∧ (∀ e ∈ errors, e ≤ 544) ∧ flit.length = 256)
  | .ackFlitRow _ count => decide (count < 4096)
  | .nakFlitRow _ count => decide (count < 4096)
  | .ackTimer _ => true
  | .replayTimeoutRow _ => true
  | .messageForward msg => decide (msgOk msg)
  | .join _ => true
  | .joinRequestTimer => true
  | .joinRequest src => decide (src < 65536)
  | .propose _ => true
  | .cancel _ => true
  | .gangFormationRow => true
  | .formationTimeoutRow => true
  | .routeQRow _ msg => decide (msgOk msg)
  | .routeARow _ msg => decide (msgOk msg)
  | .adoptedTables src mgen epoch tables barrier heartbeat => decide (src < 65536 ∧ mgen < 65536 ∧ epoch < 2 ^ 32 ∧ tablesOk tables ∧ barrier < 65536 ∧ heartbeat < 65536)
  | .heartbeatTimerRow => true
  | .heartbeatRow src mgen => decide (src < 65536 ∧ mgen < 65536)
  | .heartbeatAnswerRow src mgen => decide (src < 65536 ∧ mgen < 65536)
  | .heartbeatTimeoutRow dev => decide (dev < 65536)
  | .failureDeclaration src mgen dev => decide (src < 65536 ∧ mgen < 65536 ∧ dev < 65536)
  | .masterSilenceTimeout => true
  | .takeoverRequestRow src mgen => decide (src < 65536 ∧ mgen < 65536)
  | .takeoverAckRow src mgen => decide (src < 65536 ∧ mgen < 65536)
  | .takeoverTimeoutRow => true
  | .reduceScatter _ _ => true
  | .allGather _ _ => true
  | .broadcast _ _ => true
  | .shift _ _ => true
  | .chunkDataRow _ msg upsets => decide (msgOk msg ∧ upsetsOk upsets)
  | .chunkGrantRow _ msg => decide (msgOk msg)
  | .grantTimerRow _ _ => true
  | .chunkAbortRow _ msg => decide (msgOk msg)
  | .chunkCarryRow _ msg => decide (msgOk msg)
  | .chunkClose _ msg => decide (msgOk msg)
  | .chunkClosed _ msg => decide (msgOk msg)
  | .chunkRestart _ msg => decide (msgOk msg)
  | .collectiveFinish _ _ => true
  | .barrierTimeoutRow _ _ => true
  | .waitReport src mgen tally group waits => decide (src < 65536 ∧ mgen < 65536 ∧ tally < 2 ^ 32 ∧ group < 65536 ∧ waits < 65536)
  | .waitReportGatherEnd tally => decide (tally < 2 ^ 32)
  | .scanCarryTimeout _ _ => true
  | .segmentCarryArrival _ upsets => decide (upsetsOk upsets)
  | .pithead _ _ => true
  | .vote _ msg => decide (msgOk msg)
  | .voteBarrierTimeout => true
  | .logAck _ msg => decide (msgOk msg)
  | .logAckTimeoutRow => true
  | .decision _ msg => decide (msgOk msg)
  | .commitApplyRow => true
  | .abortApplyRow => true
  | .securingStream _ => true
  | .securingComplete _ _ => true
  | .securingFailure cause target _ => decide (cause < 256 ∧ target < 256)
  | .keepRecordReceive src _ off part data => decide (src < 65536 ∧ off < 2 ^ 40 ∧ (part ≠ .piece ∨ data.length ≤ 4096))
  | .canaryUpdateRow => true
  | .secure _ _ => true
  | .restore _ _ _ => true
  | .digestReqRow msg => decide (msgOk msg)
  | .digestAnsRow msg => decide (msgOk msg)
  | .retire _ _ => true
  | .clusterFailure _ cause => decide (cause < 256)
  | .fabricDomainFailure _ => true
  | .chTrainingStart _ => true
  | .chTrainingComplete _ => true
  | .chTrainingTimeout _ => true
  | .chRecovery _ => true
  | .chRecoveryComplete _ => true
  | .chRecoveryTimeout _ => true
  | .chDownRetry _ => true
  | .capsFlitRow _ caps => decide (caps.length = 7)
  | .cfgRd _ txn => decide (txnOk txn)
  | .cfgWr _ txn => decide (txnOk txn)
  | .rdTxn _ _ txn upsets => decide (txnOk txn ∧ upsetsOk upsets)
  | .wrTxn _ _ txn => decide (txnOk txn)
  | .intr _ => true
  | .cpl _ txn => decide (txnOk txn)
  | .cplData _ txn => decide (txnOk txn)
  | .completionTimeout _ tag => decide (tag < 65536)
  | .hostAccessTimeout => true
  | .ctxLoadRow _ _ => true
  | .ctxReadRow _ _ => true
  | .ctxUnfenceRow _ _ => true
  | .ctxInvalidateRow _ _ => true
  | .sqTail _ _ _ => true
  | .sqEnable _ _ _ => true
  | .sqResume _ _ => true
  | .sqDiscard _ _ => true
  | .descriptorFetch _ => true
  | .dispatchOpportunityRow => true
  | .commandCompletion _ => true
  | .kernel _ _ => true
  | .copy _ _ => true
  | .gatherRow _ _ => true
  | .scatterRow _ _ => true
  | .scanRowCmd _ _ => true
  | .fence _ _ => true
  | .drain _ _ => true
  | .waitTokenOnly _ _ => true
  | .waitUntilTime _ _ => true
  | .waitForTime _ _ => true
  | .waitTimerExpiry _ _ => true
  | .event _ _ => true
  | .txnCmdBeginRow _ _ => true
  | .txnCmdCommitRow _ _ => true
  | .txnCmdRollbackRow _ _ => true
  | .txnCmdWriteRow _ _ => true
  | .evHeadRow _ _ _ => true
  | .eventRecordWrite _ => true
  | .interruptModerationExpiry _ => true
  | .coreWatchdogFire _ => true
  | .schWatchdogFire takeUs => decide (takeUs < 2 ^ 32)
  | .rcxWatchdogFire _ => true
  | .pwrWatchdogFire => true
  | .secWatchdogFire => true
  | .watchdogServiceRow _ _ upsets => decide (upsetsOk upsets)
  | .restartLimitMissed _ => true
  | .pwrAbsentTimeout => true
  | .stageRow _ => true
  | .stageCompleteRow => true
  | .activateRow _ => true
  | .fwDiscardRow _ => true
  | .rollStartRow => true
  | .updateDeferredRow => true
  | .rollStepCompleteRow => true
  | .rollStepFailRow => true
  | .activityStateEntry _ => true
  | .wakeCauseRow _ => true
  | .activityExitComplete => true
  | .tolUs _ _ => true
  | .governorParkRow _ => true
  | .governorUnparkCmd _ => true
  | .park _ _ _ => true
  | .dieSensorSample readings => decide (readings.length = 144)
  | .regulatorFaultRow _ => true
  | .force _ _ => true
  | .firedampFallTimer => true
  | .fd3RecoveryRow => true
  | .fd1HoldExpiryRow => true
  | .moduleRow => true
  | .bootPhaseComplete badLodes badClusters badSpares badRows =>
    decide (distinctBelow 12 badLodes ∧ distinctBelow 32 badClusters ∧ (∀ e ∈ badSpares, e.1 < 12 ∧ e.2.1 < 32 ∧ e.2.2 < 4)
      ∧ (∀ e ∈ badRows, e.1 < 12 ∧ e.2.1 < 32 ∧ e.2.2 < 2 ^ 18))
  | .bootPhaseTimeout => true
  | .attestReq => true
  | .attestationComplete => true
  | .jtagBypass => true
  | .jtagIdcode => true
  | .jtagSamplePreload bits => decide (bits.length ≤ 1024)
  | .jtagExtest => true
  | .jtagClamp => true
  | .jtagHighz => true
  | .dbgChalRow => true
  | .dbgTokenRow token => decide (token.length = 256)
  | .dbgWindowRow _ off _ => decide (off < 2 ^ 24)
  | .trstN => true
  | .dipEndRow us => decide (us < 2 ^ 32)
  | .strapMismatchCleared => true
  | .refclkBackRow => true
  | .peerRetrainSignal _ => true
  | .routeAnswerTimeout => true
  | .restoreBarrierTimeout _ _ => true
  | .redClrCnt _ _ => true
  | .redClrBytes _ _ => true
  | .evCfgEnable _ _ _ => true

end Sys2Proof
end

