-- ==== Sys2Proof/Safety.lean ====
section
/-!
DEFINITION. What claims say about a state: canonical data, a quiet block, and a safe step.
-/

namespace Sys2Proof.Machine

/-- A list of keys in strictly rising order. -/
def rising : List Nat → Bool
  | [] => true
  | [_] => true
  | a :: b :: l => decide (a < b) && rising (b :: l)

/-- Memory and poison in their one canonical form (10 R260, 04 R108). -/
def Block.memOk (b : Block) : Bool := memoryWf b.mem && rising b.poison

/-- No command, bucket, kernel job or securing waits for an outcome, the gang is not lost or left and no FD3 is under way: what every command settles
(`outcomes`) has nothing to do. -/
def Block.quiet (b : Block) : Bool :=
  b.cmds.isEmpty && b.colls.isEmpty && b.securing.isNone && b.jobs.isEmpty && !b.pit.lost && !b.fd.offDue && !b.gang.left

/-- The state in which a command's effect leaves the block `b`: what follows from every command (`settle`) has run, and the
queue is as it was. -/
def State.after (s : State) (b : Block) : State := { s with blk := settle b }

/-- A 32-bit write that takes effect in its cycle: an assigned page, an aligned register, and none of the checks of 03 R66–R76 discards
it, ignores it, holds it, stages it or makes it wait for a safe point. -/
def actsNow (b : Block) (port : Port) (off : Nat) (v : W32) : Bool :=
  portLive port b && (match pageOf (off / 4096) with
  | none => false
  | some (k, n) => off % 4 == 0 && judgeWrite (granted port (off / 4096) b) port (off / 4096) k n (off % 4096) v == .now)

/-- The same for a value given as a number. -/
def actsNowNat (b : Block) (port : Port) (off v : Nat) : Bool := actsNow b port off (BitVec.ofNat 32 v)

/-- A 32-bit write that takes effect in its cycle because its page's safe point holds: it acts, or it would wait for that safe point
(03 R76). -/
def actsSafely (b : Block) (port : Port) (off : Nat) (v : W32) : Bool :=
  actsNow b port off v || (match pageOf (off / 4096) with
    | none => false
    | some (k, n) => portLive port b && off % 4 == 0 && safePoint b (off / 4096)
        && judgeWrite (granted port (off / 4096) b) port (off / 4096) k n (off % 4096) v == .single)

/-- A step that stops nowhere. -/
def safeStep (s : State) : Prop := ∃ t, step s = .next t

/-- The rows that carry an input voltage, with that voltage in mV (02 R35). -/
def carriedVin : Instr → Option Nat
  | .powerUp v _ | .inputEntersRange v | .overVoltageShutdown v | .inputOvWarn v | .droop v => some v
  | .pacingUpdateRow _ v _ _ _ => some v
  | _ => none

/-- The registers that show state kept elsewhere, while the control path runs: the pacing cap is the firedamp level's (17 R488),
FD_N_OUT is the pin that the module drives (17 R488, 02 R47) and FD_N_IN the pin as it stands, HELD counts the held commands up to 63 (16 R470), the counts of parked
clusters are those of the CL pages (17 R495), and PW_ASTATE shows the deepest allowed state and what blocks A3 (17 R479). -/
def Block.shown (b : Block) : Prop :=
  get b fPW_PACE_CAP = fdCap (fdLevel b) ∧
  get b fPW_FD_FD_N_OUT = b2n (fdnDriven b) ∧ get b fPW_FD_FD_N_IN = b2n (b.fd.fdnPin || fdnDriven b) ∧
  get b fSC_DISPATCH_HELD = min 63 (b.cmds.filter (fun c => c.stage == .held)).length ∧
  get b fPW_PACE_HOST_PARKED = ((List.range 32).filter (fun c => isSet b (fCL_BLK_STAT_PARKED c))).length ∧
  get b fPW_PACE_GOV_PARKED = ((List.range 32).filter (fun c => isSet b (fCL_BLK_STAT_GOV_PARKED c))).length ∧
  get b fPW_ASTATE_ALLOWED = allowedState b ∧ get b fPW_ASTATE_A3_BLOCK = a3Block b

/-- Registers that `settle` may write in a quiet block. -/
def settledRegs : List Nat :=
  [rPW_ASTATE, rPW_PACE, rPW_FD, rPW_COOL, rSC_DISPATCH, rRED_STATE 0, rRED_STATE 1] ++ (List.range 8).map rSG_STATE

end Sys2Proof.Machine
end

