-- ==== Sys2Proof/Certificates/Slice0/Obligations.lean ====
section
/-!
DEFINITION. The statements for the provers: what the commands of every family do, what every step keeps, and the shared
operations that the statements of the families rest on. `s.after b` is the state in which a command leaves the block `b`:
`settle b`, whose own statement is `SettleOfAQuietBlock`, and the queue as it was.
-/

open Sys2Proof Sys2Proof.Machine

/-! ### The queue and the step -/

/-- A step runs the command at the front of the queue with the queue's rest. -/
def Obligations.StepRunsFront : Prop :=
  ∀ (c : Instr) (rest : List Instr) (s : State), s.pending = c :: rest → step s = exec c { s with pending := rest }

/-- The model's own choice (log 15): a step on an empty queue is one cycle of PCLK, in which TM_TS advances by one and TM_ACLK by
twelve while the dividers run (15 R443, 17 R473), and which moves no command. -/
def Obligations.EmptyQueueTicks : Prop :=
  ∀ s : State, s.pending = [] →
    ∃ t : State, step s = .next t ∧ t.pending = [] ∧
      (dividersRun s.blk = true → rd64 t.blk rTM_TS_LO = (rd64 s.blk rTM_TS_LO + 1) % 2 ^ 64 ∧
        rd64 t.blk rTM_ACLK_LO = (rd64 s.blk rTM_ACLK_LO + 12) % 2 ^ 64) ∧
      (dividersRun s.blk = false → t = s)

/-- Commands leave the queue first in, first out, and nothing that a command does puts one in: after `k` steps that stop nowhere
the first `k` commands are gone. -/
def Obligations.QueueIsFifo : Prop :=
  ∀ (k : Nat) (s t : State), core.run k s = .next t → t.pending = s.pending.drop k

/-- 02 R35: only an input above 50.0 V, where behaviour is not specified, stops the model; every other command answers a next
state, which differs from the state before in the block alone. -/
def Obligations.OnlyDamageStops : Prop :=
  ∀ (i : Instr) (s : State),
    ((∃ v, carriedVin i = some v ∧ 50000 < v) → exec i s = .fault .beyondAbsoluteMaximum) ∧
    ((∀ v, carriedVin i = some v → v ≤ 50000) → ∃ b : Block, exec i s = .next (s.after b))

/-! ### Reset -/

/-- The block after reset (17 R483, R491, 02 R40): power off, PWR_GOOD low, an empty queue, every register at the reset value of its table, no
byte and no poison in memory, no command fetched; and its memory and its poison are canonical. Readings that the log declares as the
model's: 3, 4, 16. -/
def Sys2Proof.Claims.ResetValues : Prop :=
  State.reset.pending = [] ∧ State.reset.blk.pwr.rail = .off ∧ State.reset.blk.pwr.pwrGood = false ∧
  (∀ off, rd State.reset.blk off = BitVec.ofNat 32 (resetValue off)) ∧
  (∀ pa, memByte State.reset.blk pa = 0 ∧ poisoned State.reset.blk pa = false) ∧
  State.reset.blk.cmds = [] ∧ State.reset.blk.memOk = true ∧ State.reset.blk.quiet = true ∧
  rd State.reset.blk rPW_COOL = 0xf#32 ∧ get State.reset.blk fPW_LIMIT_LIMIT_W = 4095 ∧
  get State.reset.blk fDEV_BLK_CAP_CLUSTERS = 32 ∧ get State.reset.blk fPW_PACE_LEVEL = 64

/-! ### What follows from every command -/

/-- Every step keeps what `Block.shown` says, registers that read as the state behind them: the pacing cap of the firedamp level and
FD_N_OUT (17 R488), the count of held commands (16 R470), the counts of parked clusters (17 R495) and the allowed activity state with
what blocks A3 (17 R479). From any state that shows it, a step leaves a state that shows it wherever the control path runs. -/
def Obligations.StepKeepsShown : Prop :=
  ∀ s t : State, (domOn s.blk domPwr = true → s.blk.shown) → step s = .next t → domOn t.blk domPwr = true → t.blk.shown

/-- What every step keeps (`StepKeepsShown`) holds after reset, where the control path is off. -/
def Sys2Proof.Claims.ResetShown : Prop :=
  (domOn State.reset.blk domPwr = true → State.reset.blk.shown) ∧ domOn State.reset.blk domPwr = false

/-- 17 R483, R491, 02 R40: the block after reset; it shows what every step keeps. -/
def Obligations.ResetState : Prop :=
  Claims.ResetValues ∧ Claims.ResetShown

/-- The frame of what follows from every command: in a block in which no command waits for an outcome it changes no state but
registers, and of these only the ones that show state kept elsewhere; while the control path is off it changes nothing. -/
def Obligations.SettleOfAQuietBlock : Prop :=
  ∀ b : Block, b.quiet = true →
    { settle b with regs := b.regs } = b ∧ (∀ off, off ∉ settledRegs → rd (settle b) off = rd b off) ∧
    (domOn b domPwr = false → settle b = b)

/-! ### Power input, pins and cooling (02) -/

/-- 02 R37, R41: what a loss of power leaves: every register at reset, HBM, staging and cluster SRAM lost, nothing running, PWR_GOOD
low and the supply as named. Of poison only that of host memory stays (14 R371). -/
def poweredOff (rail : Rail) (b : Block) : Prop :=
  b.pwr.rail = rail ∧ b.pwr.pwrGood = false ∧ b.regs = [] ∧ b.cmds = [] ∧ b.jobs = [] ∧ b.colls = [] ∧ b.ctxs = [] ∧
  (∀ w ∈ b.poison, 0x800000000000 ≤ w) ∧ b.lodes = [] ∧ b.gang = Gang.reset ∧ b.txn = ⟨[], [], []⟩ ∧
  ∀ pa, pa < 0x800000000000 → memByte b pa = 0

/-- 02 R41, R42: a filtered rising edge of PWR_EN after 100 ms low starts power-up when the input is in 38.0–42.0 V and defers it otherwise; a
deferred power-up starts when the input enters that range; a falling edge turns the module off. Readings that the log declares as the
model's: 14, 120, 157. -/
def Sys2Proof.Claims.PowerUpAndDown : Prop :=
  ∀ (s : State) (v low : Nat),
    (s.blk.pwr.pwrEn = false → 100 ≤ low → 38000 ≤ v → v ≤ 42000 →
      exec (.powerUp v low) s = .next (s.after (put fPW_INPUT_VIN_MV v
        (setPwr (fun x => { x with pwrEn := true, rail := .charging, cold := true }) s.blk)))) ∧
    (s.blk.pwr.pwrEn = false → 100 ≤ low → v ≤ 50000 → (v < 38000 ∨ 42000 < v) →
      exec (.powerUp v low) s = .next (s.after (setPwr (fun x => { x with pwrEn := true, rail := .waitInput }) s.blk))) ∧
    (s.blk.pwr.rail = .waitInput → s.blk.pwr.pwrEn = true → 38000 ≤ v → v ≤ 42000 →
      exec (.inputEntersRange v) s = .next (s.after (put fPW_INPUT_VIN_MV v
        (setPwr (fun x => { x with ovIn := false, rail := .charging, cold := true }) s.blk)))) ∧
    (s.blk.pwr.rail = .up → 38000 ≤ v → v ≤ 42000 →
      exec (.inputEntersRange v) s = .next (s.after (put fPW_INPUT_VIN_MV v
        (setPwr (fun x => { x with ovIn := false }) s.blk)))) ∧
    (s.blk.pwr.pwrEn = true →
      ∃ t : State, exec .powerDown s = .next t ∧ poweredOff .off t.blk ∧ t.blk.pwr.pwrEn = false ∧ t.pending = s.pending)

/-- 02 R36, R37, R38: over-voltage, under-voltage, the dip timer past 5 ms (when it expires in a dip, and when a dip ends past it) and the
electronic current limit trip shut a powered module down: the shutdown latches and all state is lost. Readings that the log declares as the
model's: 120. -/
def Sys2Proof.Claims.ShutdownsLatch : Prop :=
  ∀ s : State, (s.blk.pwr.rail = .charging ∨ s.blk.pwr.rail = .up) →
    let latches := fun (o : Host.Outcome State Fault Refusal) =>
      ∃ t : State, o = .next t ∧ poweredOff .latchedOff t.blk ∧ t.blk.pwr.pwrEn = s.blk.pwr.pwrEn ∧ t.pending = s.pending
    (∀ v, 46000 ≤ v → v ≤ 50000 → latches (exec (.overVoltageShutdown v) s)) ∧ latches (exec .underVoltageShutdown s) ∧
    latches (exec .electronicCurrentLimitTrip s) ∧ (s.blk.pwr.dip = true → latches (exec .dipTimerExpiry s)) ∧
    (∀ us, s.blk.pwr.dip = true → 5000 < s.blk.pwr.dipUs + us → latches (exec (.dipEndRow us) s))

/-- 02 R35, R36: an input entering 42.0–46.0 V writes INPUT_OV_WARN with the voltage and asserts ALERT_N bit 0; one entering 36.0–38.0 V starts
a dip and counts one droop for the canary; a dip that ends adds its time to the dip timer; 50 ms without a break resets it. Readings that
the log declares as the model's: 43, 120, 157. -/
def Sys2Proof.Claims.DipsAndWarnings : Prop :=
  ∀ (s : State) (v us : Nat), s.blk.pwr.rail = .up →
    (42000 < v → v < 46000 → s.blk.pwr.ovIn = false →
      exec (.inputOvWarn v) s = .next (s.after (alert 1 (post 0x0100 2 v
        (setPwr (fun x => { x with ovIn := true }) (put fPW_INPUT_VIN_MV v s.blk)))))) ∧
    (36000 ≤ v → v < 38000 → s.blk.pwr.dip = false →
      exec (.droop v) s = .next (s.after (canaryAdd .droop 1
        (setPwr (fun x => { x with dip := true, droops := x.droops + 1 }) (put fPW_INPUT_VIN_MV v s.blk))))) ∧
    (s.blk.pwr.dip = true → s.blk.pwr.dipUs + us ≤ 5000 →
      exec (.dipEndRow us) s = .next (s.after
        (setPwr (fun x => { x with dip := false, dipUs := x.dipUs + us }) s.blk))) ∧
    (s.blk.pwr.dip = false →
      exec .dipTimerReset s = .next (s.after (setPwr (fun x => { x with dipUs := 0 }) s.blk)))

/-- 02 R35–R42: powering up and down, the shutdowns that latch, and dips and warnings.
Commands whose next state it gives, wherever its hypotheses on the state and the operands hold: powerUp, inputEntersRange, powerDown,
overVoltageShutdown, underVoltageShutdown, electronicCurrentLimitTrip, dipTimerExpiry, dipEndRow, inputOvWarn, droop, dipTimerReset. -/
def Obligations.PowerInput : Prop :=
  Claims.PowerUpAndDown ∧ Claims.ShutdownsLatch ∧ Claims.DipsAndWarnings

/-- 17 R491, R492: what a module reset leaves: nothing runs and no gang, HBM keeps its bytes while staging and cluster SRAM lose
theirs, the lodes are in self-refresh, the TM counters go on, RESET_CAUSE tells which reset, and boot is in phase CLOCKS. -/
def moduleWasReset (cause : Nat) (old b : Block) : Prop :=
  b.cmds = [] ∧ b.jobs = [] ∧ b.colls = [] ∧ b.ctxs = [] ∧ b.gang = Gang.reset ∧
  (∀ pa, pa < 0x8000000000 → memByte b pa = memByte (fenceAll old) pa) ∧
  (∀ pa, 0x8000000000 ≤ pa → pa < 0x800000000000 → memByte b pa = 0) ∧
  now b = now old ∧ get b fDEV_BLK_STAT_RESET_CAUSE = cause ∧ get b fDEV_BLK_STAT_BOOT_PHASE = 1 ∧
  ready b = false ∧ (∀ l < 12, get b (fLD_BLK_STAT_SELF_REFRESH l) = 1) ∧ b.pwr.cold = false ∧ b.pwr.hardFence = false

/-- 02 R40, R43, 17 R491, R492: MOD_RST_N low with PWR_GOOD high resets the module, which then waits for the pin to go high; before PWR_GOOD it
only tells the pin; going high releases the boot or the reset that waited. Readings that the log declares as the model's: 3, 20, 108, 127.
-/
def Sys2Proof.Claims.ModuleReset : Prop :=
  ∀ s : State,
    (s.blk.pwr.pwrGood = true → ∃ t : State, exec .modRstNLow s = .next t ∧ moduleWasReset 1 s.blk t.blk ∧
      t.blk.pwr.modRstN = false ∧ t.blk.pwr.rstWait = true ∧ t.pending = s.pending) ∧
    (s.blk.pwr.pwrGood = false →
      exec .modRstNLow s = .next (s.after (setPwr (fun x => { x with modRstN := false }) s.blk))) ∧
    exec .modRstNHigh s = .next (s.after (setPwr (fun x => { x with modRstN := true, rstWait := false }) s.blk)) ∧
    (domOn s.blk domPwr = true → ∃ t : State, exec .moduleRow s = .next t ∧ moduleWasReset 2 s.blk t.blk ∧
      t.blk.pwr.rstWait = !s.blk.pwr.modRstN ∧ t.pending = s.pending)

/-- 02 R51, 17 R472: loss of REFCLK fences all work until a module reset, unlocks the root, writes REFCLK_LOST and asserts ALERT_N bit 1; its
return locks the root again once the root runs, and lifts no fence. Readings that the log declares as the model's: 127. -/
def Sys2Proof.Claims.ReferenceClock : Prop :=
  ∀ s : State, s.blk.pwr.rail = .up →
    exec .refclkLostEvent s = .next (s.after (alert 2 (post 0x0101 2 0 (fenceAll
      (put fPW_CLK_ROOT_LOCK 0 (setPwr (fun x => { x with refclk := false, hardFence := true }) s.blk)))))) ∧
    (1 ≤ get s.blk fDEV_BLK_STAT_BOOT_PHASE → exec .refclkBackRow s = .next (s.after
      (put fPW_CLK_ROOT_LOCK 1 (setPwr (fun x => { x with refclk := true }) s.blk)))) ∧
    (get s.blk fDEV_BLK_STAT_BOOT_PHASE = 0 → exec .refclkBackRow s = .next (s.after
      (setPwr (fun x => { x with refclk := true }) s.blk)))

/-- 02 R40–R43, R51, 17 R491, R492: the module reset, and the loss and return of REFCLK.
Commands whose next state it gives, wherever its hypotheses on the state and the operands hold: modRstNLow, modRstNHigh, moduleRow,
refclkLostEvent, refclkBackRow. -/
def Obligations.ModuleResetAndClock : Prop :=
  Claims.ModuleReset ∧ Claims.ReferenceClock

/-- 02 R55, R57: once the straps are latched, a sample of the live ones is shown in PW_COOL, whose CONFIRMED, ACTIVE and MISMATCH follow it
(`coolSettle`): straps that differ from the latched ones force the air envelope. The first mismatch writes STRAP_CHANGED and asserts bit 3;
one that lasts, and straps that agree, write nothing. Straps that read the latched value again end the mismatch. Before the straps are
latched a sample only tells the pins. Readings that the log declares as the model's: 127.
Commands whose next state it gives, wherever its hypotheses on the state and the operands hold: strapChangedEvent, strapMismatchCleared. -/
def Obligations.Cooling : Prop :=
  ∀ (s : State) (live : Fin 4),
    (latched s.blk = true →
      let b := coolSettle (put fPW_COOL_LIVE live (setPwr (fun x => { x with coolPins := live }) s.blk))
      (isSet b fPW_COOL_MISMATCH = decide (live.val ≠ get s.blk fPW_COOL_STRAP)) ∧
      (live.val ≠ get s.blk fPW_COOL_STRAP → get b fPW_COOL_ACTIVE = 0 ∧ isSet b fPW_COOL_CONFIRMED = false) ∧
      (isSet s.blk fPW_COOL_MISMATCH = false → live.val ≠ get s.blk fPW_COOL_STRAP →
        exec (.strapChangedEvent live) s = .next (s.after (alert 8 (post 0x0104 2 (coolData b) b)))) ∧
      (isSet s.blk fPW_COOL_MISMATCH = true ∨ live.val = get s.blk fPW_COOL_STRAP →
        exec (.strapChangedEvent live) s = .next (s.after b)) ∧
      exec .strapMismatchCleared s = .next (s.after (coolSettle (put fPW_COOL_LIVE (get s.blk fPW_COOL_STRAP)
        (setPwr (fun x => { x with coolPins := get s.blk fPW_COOL_STRAP }) s.blk))))) ∧
    (latched s.blk = false → exec (.strapChangedEvent live) s = .next (s.after
      (setPwr (fun x => { x with coolPins := live }) s.blk)))

/-- 02 R54, R56, R57: writes that management makes to the power page, once their checks let them act: a CONFIRM of the strapped profile is
taken, any other writes COOL_UNCONFIRMED and asserts bit 2; LIMIT_W is kept; a written alert bit clears and is set again while its condition
holds. Readings that the log declares as the model's: 121.
Commands whose next state it gives, wherever its hypotheses on the state and the operands hold: confirm, limitW, alertClear, tolUs, force. -/
def Obligations.PowerPageWrites : Prop :=
  ∀ (s : State) (port : Port) (v : W32),
    (actsNow s.blk port rPW_COOL v = true → pwrRuns s.blk = true →
      let b := coolSettle (put fPW_COOL_CONFIRM (field v 5 4) (granted port 2 s.blk))
      (field v 5 4 = get b fPW_COOL_STRAP →
        exec (.confirm port v) s = .next (s.after (setPwr (fun x => { x with unconfirmed := false }) b))) ∧
      (field v 5 4 ≠ get b fPW_COOL_STRAP →
        exec (.confirm port v) s = .next (s.after (alert 4 (post 0x0103 2 (coolData b)
          (setPwr (fun x => { x with unconfirmed := true }) b)))))) ∧
    (actsNow s.blk port rPW_LIMIT v = true → pwrRuns s.blk = true →
      exec (.limitW port v) s = .next (s.after (storeRw rPW_LIMIT v (granted port 2 s.blk)))) ∧
    (actsNow s.blk port rPW_ALERT v = true →
      let b := wr (granted port 2 s.blk) rPW_ALERT (rd s.blk rPW_ALERT &&& ~~~ v)
      exec (.alertClear port v) s = .next (s.after (alert (alertConditions b &&& v.toNat) b))) ∧
    (actsNow s.blk port rPW_LATTOL v = true → pwrRuns s.blk = true →
      let b := put fPW_LATTOL_TOL_US (field v 23 0) (granted port 2 s.blk)
      exec (.tolUs port v) s = .next (s.after (if field v 23 0 < exitUs (activity s.blk) then wake b else b))) ∧
    (actsNow s.blk port rPW_FD_CTL v = true →
      exec (.force port v) s = .next (s.after (fdRise (put fPW_FD_CTL_FORCE (field v 1 0) (granted port 2 s.blk)))))

/-! ### Envelope and firedamp (02 R58, 17 R484–R490) -/

/-- 02 R58: a sample above 1.2 E, or 1 ms of samples above E, raises the highest reading seen, calls firedamp for its cause, and at the start of
its episode is recorded; one that is no excursion changes nothing. 17 R484: the samples of an update are shown, a height or length cause
that the sample no longer shows ends, and the next pacing level is the largest under the firedamp cap at which the predicted power is at
most 0.98 E, or 1. Readings that the log declares as the model's: 10, 94, 122.
Commands whose next state it gives, wherever its hypotheses on the state and the operands hold: envelopeExcursionHeight,
envelopeExcursionLength, pacingUpdateRow. -/
def Obligations.EnvelopeAndPacing : Prop :=
  ∀ (s : State) (w vin iin avg : Nat) (predicted : List Nat), s.blk.pwr.rail = .up →
    let peak := put fPW_POWER_PEAK_W (max (get s.blk fPW_POWER_PEAK_W) (min w 4095)) s.blk
    (12 * envelope s.blk < 10 * w →
      let b := fdRise (setFd (fun x => { x with heightCause := true, powerW := w }) peak)
      exec (.envelopeExcursionHeight w) s = .next (s.after (if s.blk.fd.heightCause then b else excursion w 0 b))) ∧
    (envelope s.blk < w →
      let b := fdRise (setFd (fun x => { x with lengthCause := true, powerW := w }) peak)
      exec (.envelopeExcursionLength w) s = .next (s.after (if s.blk.fd.lengthCause then b else excursion w 1 b))) ∧
    (w ≤ envelope s.blk → exec (.envelopeExcursionHeight w) s = .next (s.after s.blk) ∧
      exec (.envelopeExcursionLength w) s = .next (s.after s.blk)) ∧
    (vin ≤ 50000 → pwrRuns s.blk = true →
      ∃ b : Block, exec (.pacingUpdateRow predicted vin iin avg w) s = .next (s.after b) ∧
        get b fPW_INPUT_VIN_MV = vin % 65536 ∧ get b fPW_INPUT_IIN_10MA = min iin 65535 ∧
        get b fPW_POWER_AVG_W = min avg 4095 ∧
        get b fPW_POWER_PEAK_W = max (get s.blk fPW_POWER_PEAK_W) (min w 4095) ∧
        b.fd.heightCause = (s.blk.fd.heightCause && decide (12 * envelope s.blk < 10 * w)) ∧
        b.fd.lengthCause = (s.blk.fd.lengthCause && decide (envelope s.blk < w)) ∧
        (∃ l, b.paceNext = some l ∧ 1 ≤ l ∧ l ≤ fdCap (fdLevel s.blk) ∧
          (l = 1 ∨ 100 * predicted.getD (l - 1) 0 ≤ 98 * envelope s.blk) ∧
          ∀ k, l < k → k ≤ fdCap (fdLevel s.blk) → 98 * envelope s.blk < 100 * predicted.getD (k - 1) 0) ∧
        b.mem = s.blk.mem ∧ b.cmds = s.blk.cmds)

/-- 17 R487–R489, 02 R40, R47: the events that raise or end firedamp causes. FD_N low counts as a cause unless the module drives the pin itself;
it ends as the pin goes high, and an FD2 that it alone caused is remembered as such; a die sample keeps every reading and shows the hottest;
a regulator fault calls FD3, and PWR_GOOD falls where regulation is lost; the level falls to what the causes still call for; FD3 ends after
its recovery with FD1 held for a second, with the lodes out of self-refresh and the clusters and reduction engines on as far as boot had
come and the activity state lets them. Readings that the log declares as the model's: 49, 94, 128. -/
def Sys2Proof.Claims.FiredampCauses : Prop :=
  ∀ (s : State) (readings : List Nat),
    (powered s.blk = true → fdnDriven s.blk = false →
      exec .fdNLow s = .next (s.after (fdRise (setFd (fun x => { x with fdnPin := true, fdnCause := true }) s.blk)))) ∧
    (powered s.blk = false ∨ fdnDriven s.blk = true →
      exec .fdNLow s = .next (s.after (setFd (fun x => { x with fdnPin := true }) s.blk))) ∧
    exec .fdNHigh s = .next (s.after (setFd (fun x => { x with
      fdnPin := false, fdnCause := false,
      fdnOnly := x.fdnOnly || (x.fdnCause && decide (fdLevel s.blk = 2) && !fdOwnCause s.blk) }) s.blk)) ∧
    (powered s.blk = true →
      let b := ((List.range 144).zip readings).foldl dieReading s.blk
      exec (.dieSensorSample readings) s = .next (s.after
        (fdRise (put fPW_TEMP_DIE_SENSOR (hottestDie b).1 (put fPW_TEMP_DIE_MAX (min (hottestDie b).2 255) b))))) ∧
    (powered s.blk = true → ∀ lost : Bool,
      exec (.regulatorFaultRow lost) s = .next (s.after (fdRise (setFd (fun x => { x with regCause := true })
        (setPwr (fun x => { x with pwrGood := x.pwrGood && !lost }) s.blk))))) ∧
    (fdLevel s.blk ≠ 3 → fdFloor s.blk < fdLevel s.blk →
      exec .firedampFallTimer s = .next (s.after (fdChange (fdFloor s.blk) 9 s.blk))) ∧
    (fdLevel s.blk = 3 → fdCalled (setFd (fun x => { x with regCause := false }) s.blk) < 2 →
      let b := fdChange 1 9 (setFd (fun x => { x with fd3Latch := false, fd1Hold := true })
        (regulationBack (setFd (fun x => { x with regCause := false }) s.blk)))
      let phase := get s.blk fDEV_BLK_STAT_BOOT_PHASE
      ((phase < 5 ∨ 2 ≤ activity s.blk) → exec .fd3RecoveryRow s = .next (s.after b)) ∧
      (phase = 5 → activity s.blk < 2 → exec .fd3RecoveryRow s = .next (s.after (lodesRefresh false b))) ∧
      (6 ≤ phase → activity s.blk < 2 → exec .fd3RecoveryRow s = .next (s.after
        (clustersBack (setDoms [domRed 0, domRed 1] 2 (lodesRefresh false b)))))) ∧
    (s.blk.pwr.pwrGood = true → regulationBack s.blk = s.blk) ∧
    (s.blk.pwr.pwrGood = false → s.blk.pwr.rail = .up →
      regulationBack s.blk = strapLatch (setPwr (fun x => { x with pwrGood := true, rstWait := !x.modRstN }) s.blk)) ∧
    exec .fd1HoldExpiryRow s = .next (s.after (setFd (fun x => { x with fd1Hold := false }) s.blk))

/-- 17 R488, R490: a rise of the firedamp level: the level that the causes call for, the lowest code among its causes, one FIREDAMP record and
the page's bit, FD1 alerts, and the pacing level brought under the level's cap; FD3 also latches. Readings that the log declares as the
model's: 151. -/
def Sys2Proof.Claims.FiredampRise : Prop :=
  ∀ b : Block, fdLevel b < fdCalled b → fdCalled b ≤ 3 →
    fdLevel (fdRise b) = fdCalled b ∧ (fdCalled b = 3 → (fdRise b).fd.fd3Latch = true) ∧
    get (fdRise b) fPW_FD_CAUSE = fdCauseOf b (fdCalled b) % 16 ∧
    (∃ l, (fdRise b).paceNext = some l ∧ l ≤ fdCap (fdCalled b))

/-- 17 R487–R490: what raises and ends firedamp causes, and what a rise does.
Commands whose next state it gives, wherever its hypotheses on the state and the operands hold: fdNLow, fdNHigh, dieSensorSample,
regulatorFaultRow, firedampFallTimer, fd3RecoveryRow, fd1HoldExpiryRow. -/
def Obligations.Firedamp : Prop :=
  Claims.FiredampCauses ∧ Claims.FiredampRise

/-! ### Activity states and parking (17 R477–R486) -/

/-- 17 R478–R482: an idle, ready device enters a state that is deeper than its own and allowed; a cause to wake starts the way back to A0 (a
record in A3 alone, a message in A1 and A2 alone); once the domains are back the state is A0 and the held accesses complete. An exit that no
firedamp delays breaks no guarantee (16 R452). Readings that the log declares as the model's: 92. -/
def Sys2Proof.Claims.ActivityStates : Prop :=
  ∀ (s : State) (st : Fin 4),
    (ready s.blk = true → deviceIdle s.blk = true → activity s.blk < st.val → st.val ≤ allowedState s.blk → pwrRuns s.blk = true →
      s.blk.act.exiting = false →
      exec (.activityStateEntry st) s = .next (s.after (enterActivity st s.blk))) ∧
    (ready s.blk = true → 1 ≤ activity s.blk → get s.blk fPW_COOL_STRAP ≠ 3 → pwrRuns s.blk = true →
      ∀ w : Wake, (w = .record → activity s.blk = 3) → (w = .message → activity s.blk ≠ 3) →
        exec (.wakeCauseRow w) s = .next (s.after { s.blk with act := { s.blk.act with
          exiting := true, since := if s.blk.act.exiting then s.blk.act.since else now s.blk } })) ∧
    (s.blk.act.exiting = true → s.blk.act.held = [] →
      exec .activityExitComplete s = .next (s.after (put fPW_ASTATE_STATE 0
        (domainsOn { exitLate s.blk with act := { s.blk.act with exiting := false } })))) ∧
    (fdLevel s.blk = 0 → exitLate s.blk = s.blk)

/-- 17 R485, R486: the governor parks an ON cluster that no command names (its domain to RETAIN, GOV_PARKED set) and unparks it for a ready
or held command that names it; PARK acts at the cluster's safe point, after an epoch flip that is due (01 R31), with the ring of the same write.
Readings that the log declares as the model's: 151. -/
def Sys2Proof.Claims.Parking : Prop :=
  ∀ (s : State) (c : Fin 32) (port : Port) (v : W32),
    (pwrRuns s.blk = true → (runningClusters s.blk).contains c.val = true → dom s.blk c = 2 → clusterNamed s.blk c = false →
      exec (.governorParkRow c) s = .next (s.after (domainRollback c
        (put (fCL_BLK_STAT_GOV_PARKED c) 1 (put (fDom c) 1 s.blk))))) ∧
    (pwrRuns s.blk = true → isSet s.blk (fCL_BLK_STAT_GOV_PARKED c) = true → fdLevel s.blk < 3 → dom s.blk c ≠ 3 →
      (readyHeads s.blk ++ s.blk.cmds.filter (fun m => m.stage == .held)).any (fun m => (clMask m.desc).testBit c) = true →
      s.blk.act.held = [] →
      exec (.governorUnparkCmd c) s = .next (s.after (put (fCL_BLK_STAT_GOV_PARKED c) 0 (put (fDom c) 2 s.blk)))) ∧
    (clusterSafe s.blk c = true → bit v 8 ≠ isSet s.blk (fCL_BLK_CTL_PARK c) → txnState s.blk (0x10 + c.val) = 0 →
      (port = .ch0 ∨ port = .ch1 ∨ port = .txn) → (usableClusters s.blk).contains c.val = true →
      exec (.park port c v) s = .next (s.after (applyPark c (bit v 8) (flipFirst [0x10 + c.val]
        (put (fBLK_CTL_RING (clBase c)) (field v 3 0) (granted port (0x10 + c.val) s.blk))))))

/-- 17 R477–R486: activity states, and parked clusters.
Commands whose next state it gives, wherever its hypotheses on the state and the operands hold: activityStateEntry, wakeCauseRow,
activityExitComplete, governorParkRow, governorUnparkCmd, park. -/
def Obligations.ActivityAndParking : Prop :=
  Claims.ActivityStates ∧ Claims.Parking

/-! ### Register accesses and transactions (03) -/

/-- 03 R66–R76, R69: what becomes of an aligned 4-byte write of an assigned page by its verdict: it acts (RW fields, then W1C bits and WO
fields); it applies at its page's safe point, at once where that holds; it is staged in an open transaction, a 65th register rolls it back;
it is held for a domain that is coming back; it is a command of TXN_CTL or TX_CTL; it is ignored; or it is discarded, with its offset and
cause
shown and WRITE_DISCARD raised, where the page's transaction keeps it out with its WO fields acting all the same; and one of another size or
alignment is discarded with cause 0x3, as is any write of an unassigned page, which the device page records. At I3C, while it does not
answer, no write arrives (02 R46). A discard changes no register
but the page's status and its raised events. Readings that the log declares as the model's: 30, 32.
Commands whose next state it gives, wherever its hypotheses on the state and the operands hold: registerWrite. -/
def Obligations.RegisterWrites : Prop :=
  (∀ (s : State) (port : Port) (off size : Nat) (v : W32), pageOf (off / 4096) = none →
    portLive port s.blk = true → exec (.registerWrite port off size v) s = .next (s.after (discard 0 (off % 4096) 3 s.blk))) ∧
  (∀ (s : State) (port : Port) (off size : Nat) (v : W32), portLive port s.blk = false →
    exec (.registerWrite port off size v) s = .next (s.after s.blk)) ∧
  ∀ (s : State) (port : Port) (off size : Nat) (v : W32) (k : PageKind) (n : Nat), pageOf (off / 4096) = some (k, n) →
    portLive port s.blk = true →
    let p := off / 4096
    let b := granted port p s.blk
    (actsNow s.blk port off v = true →
      exec (.registerWrite port off 4 v) s = .next (s.after (applyWo port off v (applyW1c off v (applyRw off v b))))) ∧
    (∀ c, off % 4 = 0 → judgeWrite b port p k n (off % 4096) v = .discarded c →
      exec (.registerWrite port off 4 v) s = .next (s.after (discard p (off % 4096) c b))) ∧
    (∀ c, off % 4 = 0 → judgeWrite b port p k n (off % 4096) v = .partly c →
      exec (.registerWrite port off 4 v) s = .next (s.after (applyWo port off v (discard p (off % 4096) c b)))) ∧
    (off % 4 = 0 → judgeWrite b port p k n (off % 4096) v = .control →
      let c := rollbackMeets off p v b
      (∀ d, (if off = rTX_CTL then txControl port v c else pageControl port p v c) = .ok d →
        exec (.registerWrite port off 4 v) s = .next (s.after d)) ∧
      (∀ e, (if off = rTX_CTL then txControl port v c else pageControl port p v c) = .error e →
        exec (.registerWrite port off 4 v) s = .next (s.after (discard p (off % 4096) e c)))) ∧
    (off % 4 = 0 → judgeWrite b port p k n (off % 4096) v = .ignored → exec (.registerWrite port off 4 v) s = .next (s.after b)) ∧
    (off % 4 = 0 → judgeWrite b port p k n (off % 4096) v = .single →
      let c := if off % 4096 = 0x008 then put (fBLK_CTL_RING (pageBase p)) (field v 3 0) b else b
      (safePoint c p = true →
        exec (.registerWrite port off 4 v) s = .next (s.after (applyWo port off v (applySingle (off, v, port) (flipFirst [p] c))))) ∧
      (safePoint c p = false → exec (.registerWrite port off 4 v) s = .next (s.after (applyWo port off v
        { c with txn := { c.txn with singles := c.txn.singles ++ [(off, v, port)] } })))) ∧
    (off % 4 = 0 → judgeWrite b port p k n (off % 4096) v = .stages →
      let kept := (mapGet [] b.txn.staged p).filter (fun e => e.1 != off)
      (kept.length < 64 → exec (.registerWrite port off 4 v) s = .next (s.after (applyWo port off v (applyW1c off v
        (put (fTXN_STAT_STAGED (pageBase p)) (kept.length + 1)
          { b with txn := { b.txn with staged := mapSet [] b.txn.staged p ((off, v) :: kept) } }))))) ∧
      (kept.length = 64 → exec (.registerWrite port off 4 v) s = .next (s.after
        (rollback p 4 (discard p (off % 4096) 7 b))))) ∧
    (off % 4 = 0 → judgeWrite b port p k n (off % 4096) v = .holds → exec (.registerWrite port off 4 v) s = .next (s.after
      (holdAccess ⟨port, true, off, true, leBytes 4 v.toNat, 4, 0, 0⟩ b))) ∧
    ((size ≠ 4 ∨ off % 4 ≠ 0) →
      exec (.registerWrite port off size v) s = .next (s.after (discard p (off % 4096) 3 b))) ∧
    (∀ c, c < 16 →
      let d := discard p (off % 4096) c b
      get d (fBLK_STAT_DISC_CAUSE (pageBase p)) = c ∧ get d (fBLK_STAT_DISC_OFFSET (pageBase p)) = off % 4096 ∧
        bit (rd d (rBLK_EVT_RAW (pageBase p))) 0 = true ∧ d.mem = b.mem ∧ d.cmds = b.cmds ∧
        ∀ x, x ≠ rBLK_STAT (pageBase p) → x ≠ rBLK_EVT_RAW (pageBase p) → rd d x = rd b x)

/-- 03 R69, R71, R74, 00 R9, 17 R474: the cause of a discarded write, check by check: no write authority 0x2; a domain that is not ON and is not
switched off for the activity state or parked by the governor 0x4; a reserved encoding 0x1; a page whose transaction another authority holds
0x5; an RW register of a page whose transaction is PENDING 0x6, WO fields beside RW ones acting all the same (R76). Readings that the log declares as the model's: 30. -/
def Sys2Proof.Claims.WriteCauses : Prop :=
  ∀ (b : Block) (port : Port) (p : Nat) (k : PageKind) (n o : Nat) (i : RegInfo) (v : W32),
    regInfo k o = some i → i.rw ≠ 0 →
    let judged := judgeWrite b port p k n o v
    (authority b port k o ≠ .rw → judged = .discarded 2) ∧
    (authority b port k o = .rw →
      (0x040 ≤ o → ¬ (k = .ad ∧ o = 0x040) → domOn b (pageDomain k n) = false → domainHeld b (pageDomain k n) = false →
        judged = .discarded 4) ∧
      (domOn b (pageDomain k n) = true →
        (reservedWrite b k n o v = true → judged = .discarded 1) ∧
        (reservedWrite b k n o v = false → o ≠ 0x020 → ¬ (k = .tx ∧ o = 0x040) → actsAtOnce k o i = false →
          (txnState b p = 1 → get b (fTXN_STAT_OWNER (pageBase p)) ≠ portOwner port →
            judged = if i.wo = 0 then .discarded 5 else .partly 5) ∧
          (txnState b p = 1 → get b (fTXN_STAT_OWNER (pageBase p)) = portOwner port → stateOk b k n o v = true → judged = .stages) ∧
          (txnState b p = 2 → judged = if i.wo = 0 then .discarded 6 else .partly 6) ∧
          (txnState b p = 0 → stateOk b k n o v = true → waitsForSafePoint b port k n o i v = false → judged = .now))))

/-- 03 R71: of the Chaell ports and queued commands every page takes writes but the management registers of PW and the firmware
staging of SEC; I3C writes TX, PW and the firmware staging alone; the test port nothing while no unlock is in force. -/
def Sys2Proof.Claims.WriteAuthority : Prop :=
  ∀ (b : Block) (port : Port) (k : PageKind) (o : Nat),
    ((port = .ch0 ∨ port = .ch1 ∨ port = .txn) →
      (authority b port k o = .rw ↔ ¬ (k = .pw ∧ pwManagement o = true) ∧ ¬ (k = .sec ∧ secStaging o = true))) ∧
    (port = .i3c → (authority b port k o = .rw ↔ k = .tx ∨ k = .pw ∨ (k = .sec ∧ secStaging o = true))) ∧
    (port = .test → isSet b fSEC_DBG_UNLOCKED = false → authority b port k o = .none)

/-- 03 R69–R76: the checks of a register write, and who may write what. -/
def Obligations.WriteChecks : Prop :=
  Claims.WriteCauses ∧ Claims.WriteAuthority

/-- 03 R65, R66, 05 R136, 02 R58: reads. A register read drives its value out at its port: the counter's lower half and captures the upper
half, the captured upper half once, PW_POWER and clears PEAK_W, anything else and changes nothing. -/
def Sys2Proof.Claims.RegisterReads : Prop :=
  (∀ s : State, portLive .i3c s.blk = true → exec .peakWRead s = .next (s.after (if mapGet 0 s.blk.latches rPW_POWER = 0
    then emit (.regRead .i3c rPW_POWER (rd s.blk rPW_POWER)) (put fPW_POWER_PEAK_W 0 (granted .i3c 2 s.blk))
    else emit (.regRead .i3c rPW_POWER (BitVec.ofNat 32 (mapGet 0 s.blk.latches rPW_POWER - 1)))
      { granted .i3c 2 s.blk with latches := mapErase s.blk.latches rPW_POWER }))) ∧
  ∀ (s : State) (port : Port) (off : Nat) (k : PageKind) (n : Nat) (i : RegInfo),
    pageOf (off / 4096) = some (k, n) → regInfo k (off % 4096) = some i → off % 4 = 0 → authority s.blk port k (off % 4096) ≠ .none →
    portLive port s.blk = true →
    let b := granted port (off / 4096) s.blk
    (counterLo k (off % 4096) = true →
      exec (.counterLoRead port off) s = .next (s.after (emit (.regRead port off (regValue s.blk k n off))
        { b with latches := mapSet 0 b.latches (off + 4) ((rd b (off + 4)).toNat + 1) }))) ∧
    (counterLo k (off % 4096) = false → mapGet 0 s.blk.latches off ≠ 0 →
      exec (.counterLoRead port off) s = .next (s.after (emit
        (.regRead port off (BitVec.ofNat 32 (mapGet 0 s.blk.latches off - 1))) { b with latches := mapErase b.latches off }))) ∧
    (counterLo k (off % 4096) = false → mapGet 0 s.blk.latches off = 0 → off ≠ rPW_POWER →
      exec (.counterLoRead port off) s = .next (s.after (emit (.regRead port off (regValue s.blk k n off)) b)))

/-- 03 R65, 02 R47: I3C, which answers from boot phase FIRMWARE on. A private write of groups of four bytes writes register after register,
a shorter rest writes nothing, and leaves the offset past them; a private read returns as many words as it asks for, the first from the
offset given, and leaves the offset past them; SETDASA to the module's static address, and ENTDAA where no dynamic address is held, give
the dynamic address, and any other changes nothing. Readings that the log declares as the model's: 113, 123. -/
def Sys2Proof.Claims.I3cTransfers : Prop :=
  ∀ (s : State) (off addr static : Nat),
    (i3cUp s.blk = true →
      (∀ (ws : List W32) (rest : List Byte), rest.length < 4 →
        exec (.i3cPrivateWrite off (ws.flatMap (fun w => leBytes 4 w.toNat) ++ rest)) s = .next (s.after
          (setPwr (fun x => { x with i3cOffset := (off + 4 * ws.length) % 2 ^ 24 })
            ((List.range ws.length).foldl
              (fun b i => regWrite .i3c ((off + 4 * i) % 2 ^ 24) (ws.getD i 0) b) s.blk)))) ∧
      (∀ words : Nat, ∃ (ws : List W32) (b : Block), ws.length = words ∧ b.pwr.i3cOffset = (off + 4 * words) % 2 ^ 24 ∧
        (0 < words → ws.head? = some (regRead .i3c (off % 2 ^ 24) 4 s.blk).1) ∧ b.mem = s.blk.mem ∧
        exec (.i3cPrivateRead off words) s = .next (s.after (emit (.i3cRead ws) b))) ∧
      (static = 0x40 + s.blk.pwr.modAddr → exec (.setdasa static addr) s = .next (s.after
        (setPwr (fun x => { x with dynAddr := some (addr % 128) }) s.blk))) ∧
      (static ≠ 0x40 + s.blk.pwr.modAddr → exec (.setdasa static addr) s = .next (s.after s.blk)) ∧
      (s.blk.pwr.dynAddr = none → exec (.entdaa addr) s = .next (s.after
        (setPwr (fun x => { x with dynAddr := some (addr % 128) }) s.blk))) ∧
      (s.blk.pwr.dynAddr ≠ none → exec (.entdaa addr) s = .next (s.after s.blk))) ∧
    (i3cUp s.blk = false → ∀ (data : List Byte) (words : Nat),
      exec (.i3cPrivateWrite off data) s = .next (s.after s.blk) ∧ exec (.i3cPrivateRead off words) s = .next (s.after s.blk) ∧
      exec (.setdasa static addr) s = .next (s.after s.blk) ∧ exec (.entdaa addr) s = .next (s.after s.blk))

/-- 03 R65, R66, 05 R136, 02 R47, R58: register reads, and I3C transfers.
Commands whose next state it gives, wherever its hypotheses on the state and the operands hold: peakWRead, counterLoRead, i3cPrivateWrite,
i3cPrivateRead, setdasa, entdaa. -/
def Obligations.ReadsAndI3c : Prop :=
  Claims.RegisterReads ∧ Claims.I3cTransfers

/-- 03 R69, R70, 09 R258: clearing raw bits, with the discard status for WRITE_DISCARD and the fault registers for an SE page's STREAM_FAULT;
and enabling the bits that the page has, which posts one PAGE_EVENT for those that are raised already. Readings that the log declares as the
model's: 118. -/
def Sys2Proof.Claims.PageEvents : Prop :=
  ∀ (s : State) (port : Port) (p : Nat) (v : W32),
    let b := granted port p s.blk
    let base := pageBase p
    (actsNow s.blk port (rBLK_EVT_CLR base) v = true →
      let cleared := wr (storeRw (rBLK_EVT_CLR base) v b) (rBLK_EVT_RAW base) (rd b (rBLK_EVT_RAW base) &&& ~~~ v)
      let shown := if bit v 0 then put (fBLK_STAT_DISC_OFFSET base) 0 (put (fBLK_STAT_DISC_CAUSE base) 0 cleared) else cleared
      exec (.blkEvtClr port p v) s = .next (s.after (if 0x30 ≤ p ∧ p < 0x50 ∧ bit v 4 = true
        then wr (wr (wr shown (rSE_FAULT (p - 0x30)) 0) (rSE_FAULT_ROW (p - 0x30)) 0) (rSE_FAULT_COL (p - 0x30)) 0
        else shown))) ∧
    (actsNow s.blk port (rBLK_EVT_EN base) v = true →
      let rose := v &&& rwBits (rBLK_EVT_EN base) &&& ~~~ rd b (rBLK_EVT_EN base) &&& rd b (rBLK_EVT_RAW base)
      exec (.blkEvtEn port p v) s = .next (s.after (if rose = 0 then storeRw (rBLK_EVT_EN base) v b
        else post 0x0010 p rose.toNat (storeRw (rBLK_EVT_EN base) v b))))

/-- 03 R73–R79: the transaction of a page: BEGIN opens an idle page for the port's authority with nothing staged; COMMIT of staged registers
makes it PENDING, of none completes it at once; ROLLBACK of an OPEN one, or of a PENDING one whose safe point is not there, drops what is
staged with RESULT 2. Readings that the log declares as the model's: 32, 33, 34, 158. -/
def Sys2Proof.Claims.PageTransactionControl : Prop :=
  ∀ (s : State) (port : Port) (p t : Nat) (k : PageKind) (n : Nat), pageOf p = some (k, n) → p ≠ 1 → t < 65536 →
    txnGroup s.blk p = false → authority s.blk port k 0x020 = .rw → portLive port s.blk = true →
    let b := put (fTXN_CTL_TIMEOUT (pageBase p)) t (granted port p s.blk)
    (txnState s.blk p = 0 → t ≠ 0 → exec (.txnBegin port p t) s = .next (s.after (openPage (portOwner port) false p b))) ∧
    (txnState s.blk p = 1 → get s.blk (fTXN_STAT_OWNER (pageBase p)) = portOwner port → t ≠ 0 →
      exec (.txnCommit port p t) s = .next (s.after
        (if mapGet [] s.blk.txn.staged p = [] then commitPage p b else put (fTXN_STAT_STATE (pageBase p)) 2 b)) ∧
      exec (.txnRollback port p t) s = .next (s.after (rollbackOne 2 b p))) ∧
    (txnState s.blk p = 2 → get s.blk (fTXN_STAT_OWNER (pageBase p)) = portOwner port → t ≠ 0 → safePoint s.blk p = false →
      exec (.txnRollback port p t) s = .next (s.after (rollbackOne 2 b p)))

/-- 03 R74–R77: how a transaction that is under way ends: a PENDING one at its safe point applies its registers; an OPEN one at its timeout
rolls back with RESULT 3, and one whose staged values cannot be read back with RESULT 5 (R78). A page without engines has no epoch flip
before it (01 R31). Readings that the log declares as the model's: 93. -/
def Sys2Proof.Claims.TransactionEnds : Prop :=
  ∀ (s : State) (p : Nat), txnGroup s.blk p = false →
    (hostClear s.blk = true → txnState s.blk p ≠ 0 →
      (txnState s.blk p = 2 → safePoint s.blk p = true →
        exec (.txnSafePointApply p false) s = .next (s.after (commitPage p (flipFirst [p] s.blk)))) ∧
      exec (.txnSafePointApply p true) s = .next (s.after (rollbackOne 5 s.blk p))) ∧
    (txnState s.blk p = 2 → safePoint s.blk p = true →
      exec (.txnTimeoutRow p false) s = .next (s.after (commitPage p (flipFirst [p] s.blk)))) ∧
    ((txnState s.blk p = 1 ∨ (txnState s.blk p = 2 ∧ safePoint s.blk p = false)) →
      exec (.txnTimeoutRow p false) s = .next (s.after (rollbackOne 3 s.blk p)))

/-- 03 R79: the device-wide transaction: BEGIN opens every member page where none is bad; COMMIT with something staged makes every member
PENDING; ROLLBACK rolls all back with RESULT 2; when every member is at its safe point all commit together, and at the timeout the group
rolls back with RESULT 3 and the lowest member that was not. Readings that the log declares as the model's: 35, 125, 126. -/
def Sys2Proof.Claims.GroupTransaction : Prop :=
  ∀ (s : State) (port : Port) (t : Nat), t < 65536 → t ≠ 0 → authority s.blk port .tx 0x040 = .rw → domOn s.blk domPwr = true →
    portLive port s.blk = true →
    let b := put fTX_CTL_TIMEOUT t (granted port 1 s.blk)
    (get s.blk fTX_STAT_STATE = 0 → (memberPages s.blk).all (fun p => !memberBad s.blk port p) = true →
      let opened := (memberPages s.blk).foldl (fun b p => openPage (portOwner port) true p b) b
      exec (.txBeginRow port t) s = .next (s.after (put fTX_STAT_OWNER (portOwner port) (put fTX_STAT_STATE 1
        { opened with txn := { opened.txn with members := memberPages s.blk } })))) ∧
    (get s.blk fTX_STAT_STATE = 1 → get s.blk fTX_STAT_OWNER = portOwner port →
      exec (.txCommitRow port t) s = .next (s.after (txCommit b)) ∧
      exec (.txRollbackRow port t) s = .next (s.after (rollbackGroup 2 0 b))) ∧
    (hostClear s.blk = true → get s.blk fTX_STAT_STATE = 2 → s.blk.txn.members.all (safePoint s.blk) = true →
      exec .txSafePointApply s = .next (s.after (commitGroup (flipFirst s.blk.txn.members s.blk)))) ∧
    (∀ q, get s.blk fTX_STAT_STATE = 2 → s.blk.txn.members.all (safePoint s.blk) = true →
      exec (.txnTimeoutRow q true) s = .next (s.after (commitGroup (flipFirst s.blk.txn.members s.blk)))) ∧
    (∀ p q, get s.blk fTX_STAT_STATE ≠ 0 → s.blk.txn.members.find? (fun p => !safePoint s.blk p) = some p →
      exec (.txnTimeoutRow q true) s = .next (s.after (rollbackGroup 3 p s.blk)))

/-- 03 R74, R78: rolling a page back drops its staged values, leaves it IDLE with its RESULT and one more in SEQ, raises TXN_ROLLBACK, and
changes no other register of any page. -/
def Sys2Proof.Claims.RollbackOfAPage : Prop :=
  ∀ (b : Block) (p r : Nat), r < 16 →
    let t := rollbackOne r b p
    let base := pageBase p
    txnState t p = 0 ∧ mapGet [] t.txn.staged p = [] ∧ get t (fTXN_STAT_RESULT base) = r ∧
    get t (fTXN_STAT_SEQ base) = (get b (fTXN_STAT_SEQ base) + 1) % 2 ^ ((fTXN_STAT_SEQ base).msb + 1 - (fTXN_STAT_SEQ base).lsb) ∧
    bit (rd t (rBLK_EVT_RAW base)) 2 = true ∧ t.mem = b.mem ∧ t.cmds = b.cmds ∧
    (∀ off, off ≠ rTXN_STAT base → off ≠ rBLK_EVT_RAW base → rd t off = rd b off)

/-- 03 R74, R78, R79: the device-wide transaction, and what rolling a page back leaves.
Commands whose next state it gives, wherever its hypotheses on the state and the operands hold: txBeginRow, txCommitRow, txRollbackRow,
txSafePointApply, txnTimeoutRow. -/
def Obligations.DeviceTransaction : Prop :=
  Claims.GroupTransaction ∧ Claims.RollbackOfAPage

/-- 03 R76, R77, 01 R31: a one-register write that waits applies at the page's safe point, after an epoch flip that is due, the oldest of the
page first; at its timeout it applies if the safe point holds and is discarded with cause 0x9 if not; a waiting CL_RETIRE has no timeout.
Readings that the log declares as the model's: 32, 124. -/
def Sys2Proof.Claims.WaitingWrites : Prop :=
  ∀ (s : State) (p : Nat) (e : Nat × W32 × Port), s.blk.txn.singles.find? (fun x => x.1 / 4096 == p) = some e →
    let rest : Block := { s.blk with txn := { s.blk.txn with singles := s.blk.txn.singles.erase e } }
    (safePoint s.blk p = true → exec (.singleWriteApply p) s = .next (s.after (applySingle e (flipFirst [p] rest)))) ∧
    (safePoint s.blk p = false → exec (.singleWriteApply p) s = .next (s.after s.blk)) ∧
    (e.1 % 4096 ≠ 0x0F0 → safePoint s.blk p = true →
      exec (.singleWriteTimeout p) s = .next (s.after (applySingle e (flipFirst [p] rest)))) ∧
    (e.1 % 4096 ≠ 0x0F0 → safePoint s.blk p = false →
      exec (.singleWriteTimeout p) s = .next (s.after (discard p (e.1 % 4096) 9 rest)))

/-- 03 R73–R79: the transaction of a page, from BEGIN to its end, and the one-register writes that wait.
Commands whose next state it gives, wherever its hypotheses on the state and the operands hold: txnBegin, txnCommit, txnRollback,
txnSafePointApply, txnTimeoutRow, singleWriteApply, singleWriteTimeout. -/
def Obligations.PageTransactions : Prop :=
  Claims.PageTransactionControl ∧ Claims.TransactionEnds ∧ Claims.WaitingWrites

/-! ### Engines of a cluster (05, 06) -/

/-- The clear bits of the counter registers (05 R136, 06 R167, 07 R199, 09 R258, 10 R281, 11 R310, 12 R342): once the write acts, the counts
that the bit names are zero and no other is touched. -/
def Sys2Proof.Claims.CountersClear : Prop :=
  ∀ (s : State) (port : Port) (o : Fin 128) (v : Fin 64) (c : Fin 32) (l : Fin 12) (h : Fin 2),
    (actsNowNat s.blk port (rOP_CNT_CTL o) 1 = true → exec (.opClrCycles port o) s = .next (s.after
      (wr64 (wr64 (wr64 (wr64 (storeRw (rOP_CNT_CTL o) 1 (granted port (rOP_CNT_CTL o / 4096) s.blk)) (rOP_CNT_STEP_LO o) 0)
        (rOP_CNT_BUBBLE_LO o) 0) (rOP_CNT_FREEZE_LO o) 0) (rOP_CNT_PACE_LO o) 0))) ∧
    (actsNowNat s.blk port (rOP_CNT_CTL o) 2 = true → exec (.opClrEcc port o) s = .next (s.after
      (wr (storeRw (rOP_CNT_CTL o) 2 (granted port (rOP_CNT_CTL o / 4096) s.blk)) (rOP_ECC o) 0))) ∧
    (actsNowNat s.blk port (rVE_CNT_CTL v) 1 = true → exec (.veClrCycles port v) s = .next (s.after
      (wr64 (wr64 (wr64 (wr64 (wr64 (storeRw (rVE_CNT_CTL v) 1 (granted port (rVE_CNT_CTL v / 4096) s.blk)) (rVE_CNT_ISSUE_LO v) 0)
        (rVE_CNT_WAIT_LO v) 0) (rVE_CNT_BLOCK_LO v) 0) (rVE_CNT_PACE_LO v) 0) (rVE_CNT_SFU_LO v) 0))) ∧
    (actsNowNat s.blk port (rVE_CNT_CTL v) 2 = true → exec (.veClrEcc port v) s = .next (s.after
      (wr (storeRw (rVE_CNT_CTL v) 2 (granted port (rVE_CNT_CTL v / 4096) s.blk)) (rVE_ECC v) 0))) ∧
    (actsNowNat s.blk port (rVE_SFU v) 0x80000000 = true → exec (.clrTbl port v) s = .next (s.after
      (put (fVE_SFU_CE_TBL v) 0 (storeRw (rVE_SFU v) 0x80000000 (granted port (rVE_SFU v / 4096) s.blk))))) ∧
    (actsNowNat s.blk port (rSE_CNT_CTL c) 1 = true → exec (.seClrBytes port c) s = .next (s.after
      (wr64 (wr64 (wr64 (storeRw (rSE_CNT_CTL c) 1 (granted port (rSE_CNT_CTL c / 4096) s.blk)) (rSE_CNT_HOIST_LO c) 0)
        (rSE_CNT_WR_LO c) 0) (rSE_CNT_RD_LO c) 0))) ∧
    (actsNowNat s.blk port (rSE_CNT_CTL c) 2 = true → exec (.seClrIdx port c) s = .next (s.after
      (wr (storeRw (rSE_CNT_CTL c) 2 (granted port (rSE_CNT_CTL c / 4096) s.blk)) (rSE_IDX c) 0))) ∧
    (actsNowNat s.blk port (rSE_CNT_CTL c) 4 = true → exec (.seClrEcc port c) s = .next (s.after
      (wr (storeRw (rSE_CNT_CTL c) 4 (granted port (rSE_CNT_CTL c / 4096) s.blk)) (rSE_ECC c) 0))) ∧
    (actsNowNat s.blk port (rLD_CTL2 l) 1 = true → exec (.ldClrEcc port l) s = .next (s.after
      (lodeClear l (storeRw (rLD_CTL2 l) 1 (granted port (rLD_CTL2 l / 4096) s.blk))))) ∧
    (actsNowNat s.blk port (rRED_CTL h) 1 = true → exec (.redClrCnt port h) s = .next (s.after
      (wr (wr (wr (storeRw (rRED_CTL h) 1 (granted port (rRED_CTL h / 4096) s.blk)) (rRED_CNT h) 0) (rRED_CNT2 h) 0) (rRED_ECC h) 0))) ∧
    (actsNowNat s.blk port (rRED_CTL h) 2 = true → exec (.redClrBytes port h) s = .next (s.after
      (wr64 (wr64 (storeRw (rRED_CTL h) 2 (granted port (rRED_CTL h / 4096) s.blk)) (rRED_BYTES_TX_LO h) 0) (rRED_BYTES_RX_LO h) 0)))

/-- 03 R69, R70 and the clear bits of the engines: a page's event registers and the counters that a write clears.
Commands whose next state it gives, wherever its hypotheses on the state and the operands hold: blkEvtClr, blkEvtEn, opClrCycles, opClrEcc,
veClrCycles, veClrEcc, clrTbl, seClrBytes, seClrIdx, seClrEcc, ldClrEcc, redClrCnt, redClrBytes. -/
def Obligations.EventsAndCounters : Prop :=
  Claims.PageEvents ∧ Claims.CountersClear

/-- 05 R112–R119, R125, R131, R136, R137, 17 R484: the fill of an OPU that runs a command. In a paced ACLK cycle it only counts the pause; where
the next group would start a tile that is not free it freezes and counts it; otherwise it counts a step or a bubble and the pipeline moves
by one stage: the accumulator words that the adder reads are checked, the group at the adder is accumulated, the others advance and the next
one enters. Poison at the multiplier or in a word that the adder reads aborts the task. A filled tile becomes the drain tile. A complete
slot becomes READY. A drain-freeze run beyond the limit raises DRAIN_STALL once. Readings that the log declares as the model's: 52, 133,
134. -/
def Sys2Proof.Claims.OpuRuns : Prop :=
  ∀ (s : State) (o : Fin 128) (aclk : Nat) (ups : List Upset) (c : Cmd) (j : Job), jobCmd s.blk (opu s.blk o).job = some (c, j) →
    let x := opu s.blk o
    let moved := fun (q : Option Grp × Block) => put (fOP_STATE_FROZEN o) 0
      (setOpu o { opu q.2 o with b2 := q.1, mul := x.b2, add := x.mul, frozen := 0, stalled := false } q.2)
    (issues s.blk aclk = false → exec (.opuGroupEntry o aclk ups) s = .next (s.after
      (put (fOP_STATE_FROZEN o) 1 (count64 (rOP_CNT_PACE_LO o) 1 s.blk)))) ∧
    (∀ g, issues s.blk aclk = true → x.add = some g → g.first = true → tileFree x c g.tile = false →
      exec (.opuGroupEntry o aclk ups) s = .next (s.after (put (fOP_STATE_FROZEN o) 1 (count64 (rOP_CNT_FREEZE_LO o) 1
        (setOpu o { x with frozen := x.frozen + 1 } s.blk))))) ∧
    (issues s.blk aclk = true → x.add = none →
      (grpPoison x.mul = false →
        exec (.opuGroupEntry o aclk ups) s = .next (s.after (moved (enterGroup o c ups (countCycle o c s.blk))))) ∧
      (grpPoison x.mul = true → exec (.opuGroupEntry o aclk ups) s = .next (s.after
        (poisonTask (o.val / 4) c.queue c.count (countCycle o c s.blk))))) ∧
    (∀ g, issues s.blk aclk = true → x.add = some g → (g.first = false ∨ tileFree x c g.tile = true) →
      let fresh := g.first && c.accInit == 0
      let b := if fresh then countCycle o c s.blk else opuUpsets o (g.tile % 2) ups (countCycle o c s.blk)
      let bad := !fresh && (opu b o).cellPois.any (fun k => k / 32768 == g.tile % 2)
      (grpPoison x.mul = false → bad = false →
        exec (.opuGroupEntry o aclk ups) s = .next (s.after (moved (enterGroup o c ups (accumulate o c g b))))) ∧
      (grpPoison x.mul = true ∨ bad = true →
        exec (.opuGroupEntry o aclk ups) s = .next (s.after (poisonTask (o.val / 4) c.queue c.count b)))) ∧
    (x.switch = true → exec (.tileFillComplete o) s = .next (s.after (drainState o c (put (fOP_STATE_FILL_TILE o) ((x.fill + 1) % 2)
      (setOpu o { x with switch := false, fill := x.fill + 1, drains := x.drains ++ [(x.fill, 0)] } s.blk))))) ∧
    (∀ k, slotState s.blk o k = 1 →
      (mapGet [] x.slots k).length = min 128 (c.klen - (mapGet 0 x.ords k - 1) % max c.setSlots 1 * 128) →
      exec (.weightSlotFilled o k) s = .next (s.after (setSlot o k 2 s.blk))) ∧
    (x.stalled = false → get s.blk (fOP_STALL_LIMIT_LIMIT o) ≠ 0 → get s.blk (fOP_STALL_LIMIT_LIMIT o) < x.frozen →
      exec (.drainStallRow o) s = .next (s.after (raise (opBase o / 4096) 16 (setOpu o { x with stalled := true } s.blk))))

/-- 05 R116, R119, R120, R121, R131: the rows that enter and leave a tile, in an ACLK cycle that is not paced. An initial row fills the next row
of the tile that loads, its words checked as they arrive; its poisoned words stay poisoned in their cells. The drain port grants its OPUs in
rotation: the granted OPU's row is checked as it is read; with no poisoned word that met arithmetic it is accepted and goes to the VE of its
port, or, where the fabric port grants entry 7, to the stream; with one it aborts the task. In a paced cycle nothing moves. Readings that
the log declares as the model's: 60, 129, 133, 134, 176. -/
def Sys2Proof.Claims.OpuRows : Prop :=
  ∀ (s : State) (o : Fin 128) (cl : Fin 32) (p : Fin 3) (aclk : Nat) (ups : List Upset) (c : Cmd) (j : Job),
    hostClear s.blk = true →
    (issues s.blk aclk = false → exec (.drainRowAccept cl p aclk ups) s = .next (s.after s.blk) ∧
      exec (.accLoadRow o aclk ups) s = .next (s.after s.blk)) ∧
    (jobCmd s.blk (opu s.blk o).job = some (c, j) → c.accInit = 1 → issues s.blk aclk = true →
      let x := opu s.blk o
      ∀ t r vs, loadNext x (totalSteps s.blk (o.val / 4) c / max c.klen 1) = some (t, r) →
        let first := (t * max c.opus.length 1 + (c.opus.idxOf? (o.val % 4)).getD 0) * 32768 + 256 * r
        elemsAt (entryOf (se s.blk (o.val / 4)) 2) first 256 = some vs →
        let base := 32768 * (t % 2) + 256 * r
        let row := upsetRow (c.tensor 2).fmt ups vs
        exec (.accLoadRow o aclk ups) s = .next (s.after (drainState o c (consume (o.val / 4) 2 first 256 (setOpu o { x with
          cells := ((List.range 256).zip row.1).foldl (fun m p => mapSet 0 m (base + p.1) (BitVec.ofNat 32 p.2.raw)) x.cells,
          cellPois := ((List.range 256).zip row.1).foldl (fun l p =>
            if p.2.pois then setInsert l (base + p.1) else setErase l (base + p.1)) x.cellPois,
          loadTile := t, loaded := r + 1 } (countBuf (o.val / 4) row.2.1 row.2.2 s.blk)))))) ∧
    (∀ (i t r : Nat) (row0 row : List Drained) (go : Block), issues s.blk aclk = true →
      rrPick (mapGet 0 s.blk.arb (arbDrain cl p)) 4 (drainAsks s.blk cl p) = some i →
      jobCmd s.blk (opu s.blk (4 * cl.val + i)).job = some (c, j) → offeredRow s.blk (4 * cl.val + i) = some (t, r, row0) →
      (let picked : Block := { s.blk with arb := mapSet 0 s.blk.arb (arbDrain cl p) ((i + 1) % 4) }
       if p.val < 2 then some picked else portGrant cl 7 picked) = some go →
      let read := ups.foldl (fun b u => cellUpset (4 * cl.val + i) (32768 * (t % 2) + 256 * r + u.word % 256) u.bits b) go
      offeredRow read (4 * cl.val + i) = some (t, r, row) →
      let q := (c.opus.idxOf? i).getD 0
      (row.any (fun d => d.consumed) = false →
        let taken := rowAccepted (4 * cl.val + i) c row read
        exec (.drainRowAccept cl p aclk ups) s = .next (s.after (if p.val < 2
          then landRow (2 * cl.val + p.val) 0 (t * (c.feeders p).length + ((c.feeders p).idxOf? q).getD 0) c (row.map (fun d => (d.w, d.pois))) taken
          else drainToStream cl c t q r row taken))) ∧
      (row.any (fun d => d.consumed) = true →
        exec (.drainRowAccept cl p aclk ups) s = .next (s.after (poisonTask cl c.queue c.count read))))

/-- 05: the fill of an OPU, and the rows that enter and leave its tiles.
Commands whose next state it gives, wherever its hypotheses on the state and the operands hold: opuGroupEntry, tileFillComplete,
weightSlotFilled, drainStallRow, drainRowAccept, accLoadRow. -/
def Obligations.OuterProductEngine : Prop :=
  Claims.OpuRuns ∧ Claims.OpuRows

/-- 06 R141–R143, R153–R159, R162, R168, 07 R191, 08 R212, R169: what a vector engine that runs a command does. The buffers that are due return
to FREE. In a paced cycle, with a blocked output, without work or without its inputs the engine only counts the cycle; else the vectors of a
new work item enter the vector store, the stores that it reads are checked and the lanes run the whole group: its rows join the output, its
flags and counts add up and the cycles count, and after the tile's last group the tile ends. Poison that the group consumes aborts the task.
An input-wait run beyond the limit raises LAND_WAIT once. Readings that the log declares as the model's: 68, 172, 174, 175. -/
def Sys2Proof.Claims.VeRuns : Prop :=
  ∀ (s : State) (v : Fin 64) (aclk : Nat) (ups : List Upset) (c : Cmd) (j : Job), jobCmd s.blk (ve s.blk v).job = some (c, j) →
    let x := ve s.blk v
    let waits := s.after (count64 (rVE_CNT_WAIT_LO v) 1 (setVe v { x with wait := x.wait + 1 } s.blk))
    exec (.landingBufferRelease v) s = .next (s.after (x.release.foldl (fun b k => setTb v k 0 b)
      (setVe v { x with release := [], held := x.release.foldl (fun h k => mapErase h k) x.held } s.blk))) ∧
    (x.waited = false → get s.blk (fVE_WAIT_LIMIT_LIMIT v) ≠ 0 → get s.blk (fVE_WAIT_LIMIT_LIMIT v) < x.wait →
      exec (.landWaitRow v) s = .next (s.after (raise (veBase v / 4096) 64 (setVe v { x with waited := true } s.blk)))) ∧
    (hostClear s.blk = true →
      (issues s.blk aclk = false → exec (.veGroupRun v aclk ups) s = .next (s.after (count64 (rVE_CNT_PACE_LO v) 1 s.blk))) ∧
      (issues s.blk aclk = true → outBlocked c x = true → exec (.veGroupRun v aclk ups) s = .next (s.after
        (count64 (rVE_CNT_BLOCK_LO v) 1 (setVe v { x with wait := 0, waited := false } s.blk)))) ∧
      (issues s.blk aclk = true → outBlocked c x = false → workNow s.blk v c = none → exec (.veGroupRun v aclk ups) s = .next waits) ∧
      (∀ w rank, issues s.blk aclk = true → outBlocked c x = false → workNow s.blk v c = some (w, rank) →
        groupReady s.blk v c w = false → exec (.veGroupRun v aclk ups) s = .next waits) ∧
      (∀ w rank, issues s.blk aclk = true → outBlocked c x = false → workNow s.blk v c = some (w, rank) →
        groupReady s.blk v c w = true →
        let taken := takeVectors v c (c.rowv && readsVec c w) (c.colv && readsVec c w) w.read s.blk
        let vec := laneEnv taken v c j w
        let u := veUpsets v ups taken
        let g := groupOut u.blk v c { laneEnv u.blk v c j w with tbl := u.tbl } w rank
        let bad := u.stop || g.used || (!x.vecIn && (vectorBad c 4 vec.rowv || vectorBad c 5 vec.colv))
        let cy := groupCycles c j.psidy w
        let rows := if c.mode == 3 && c.outTb then g.rows.map (fun r => if rowInside u.blk v c w r.row then r else { r with live := 0 }) else g.rows
        let ran := count64 (rVE_CNT_ISSUE_LO v) cy.1 (count64 (rVE_CNT_SFU_LO v) cy.2
          (veFlags v g.fl (addCounts c.queue c.count g.nans g.ovfs
            (setVe v { g.ve with out := g.ve.out ++ rows, grp := x.grp + 1, wait := 0, waited := false } u.blk))))
        (bad = false → x.grp + 1 ≠ groupsPerTile c → exec (.veGroupRun v aclk ups) s = .next (s.after ran)) ∧
        (bad = false → x.grp + 1 = groupsPerTile c →
          exec (.veGroupRun v aclk ups) s = .next (s.after (tileEnd v rank c j w ran))) ∧
        (bad = true → exec (.veGroupRun v aclk ups) s = .next (s.after (poisonTask (v.val / 2) c.queue c.count u.blk)))))

/-- 06 R142, R159, R162, R164, 07 R191, 08 R212: rows and results of a vector engine that runs a command: the next row of IN0 or of IN1 lands
where its buffer takes it, its words checked as they arrive, or aborts the task where its widening meets poison; the statistics of a row
block whose state is free of poison are finalised after its pass 1; a segment's carry that has come reaches the engine, its words checked,
and in pass 2 goes on from there; an output row that the output accepts, and for memory the arbiter of the fabric port, is converted,
written and leaves, and a poisoned one that would be converted aborts the task; and a command whose work is done gets its summary. Readings
that the log declares as the model's: 63, 173. -/
def Sys2Proof.Claims.VeRows : Prop :=
  ∀ (s : State) (v : Fin 64) (c : Cmd) (j : Job) (ups : List Upset), jobCmd s.blk (ve s.blk v).job = some (c, j) →
    let x := ve s.blk v
    (∀ st : Fin 2, (st.val = 0 → c.hasOpu = false) → (st.val = 1 → c.in1 = true) → c.ves.contains (v.val % 2) = true →
      let tr := nextLand (if st.val = 0 then x.land0 else x.land1)
      let e := if st.val = 0 then 0 else 3
      let first := 32768 * (if st.val = 0 then clusterIdx c v c.inTiles tr.1 else readNo c v tr.1) + 256 * tr.2
      tr.1 < (if st.val = 0 ∨ c.mode ≠ 3 then veTiles s.blk c v else veTiles s.blk c v / max c.blockTiles 1 * c.rowTiles) →
      canLand s.blk v c st tr.1 = true →
      ∀ vs, elemsAt (entryOf (se s.blk (v.val / 2)) e) first 256 = some vs →
        let row := upsetRow (c.tensor e).fmt ups vs
        let b := countBuf (v.val / 2) row.2.1 row.2.2 s.blk
        (∀ ws, veWords c e row.1 = some ws → exec (.veRowLand v st ups) s = .next (s.after
          (consume (v.val / 2) e first 256 (landRow v st tr.1 c ws b)))) ∧
        (veWords c e row.1 = none → exec (.veRowLand v st ups) s = .next (s.after (poisonTask (v.val / 2) c.queue c.count b)))) ∧
    (∀ (w : Work) (rank : Nat), workNow s.blk v c = some (w, rank) → c.mode = 3 → w.out = true → x.finalised = false →
      x.grp = 0 → w.t = 0 →
      let u := veUpsets v ups s.blk
      let rows := (List.range 128).map (fun m => stateRow (ve u.blk v) (c.temp.headD 0) m)
      (u.stop = false → rows.any (·.2) = false →
        ∃ b : Block, exec (.rowstatFinalisation v ups) s = .next (s.after b) ∧ (ve b v).finalised = true ∧
          (∀ m, m < 128 → finalOf (ve b v) m =
            let f := rowFinal c.rowOp j.psidy c.rowLen c.eps (stateRow (ve u.blk v) (c.temp.headD 0) m).1
            ⟨f.p, if c.rowOp = 2 then evaluatedRow u.tbl m f.r else f.r, f.c0, f.c1, 0⟩) ∧ b.mem = u.blk.mem) ∧
      (u.stop = true ∨ rows.any (·.2) = true →
        exec (.rowstatFinalisation v ups) s = .next (s.after (poisonTask (v.val / 2) c.queue c.count u.blk)))) ∧
    (hostClear s.blk = true → ∀ w rank ws, workNow s.blk v c = some (w, rank) → c.mode = 4 → c.isAttn = false →
      mapGet none j.carries w.block = some ws → x.carry = none →
      let a := (ups.filter (fun u => u.store == 8)).foldl (carryUpset v) (ws, s.blk)
      let b := setVe v { ve a.2 v with carry := some (w.block, a.1) } a.2
      let u := veUpsets v (ups.filter (fun u => u.store == 7 && c.rowOp == 4)) b
      exec (.segmentCarryArrival v ups) s = .next (s.after
        (if w.out = true ∧ c.onePass = false ∧ w.t = 0 then
          if u.stop then poisonTask (v.val / 2) c.queue c.count u.blk else carryOut v c j w.block u.tbl u.blk
         else b))) ∧
    (hostClear s.blk = true → ∀ r rest, x.out = r :: rest → (isMX c.outFmt = true → c.outAxis = false) → outRoom s.blk v c r = true →
      let rank := (se s.blk (v.val / 2)).rank
      let t := resultTile c rank r.tile
      mayWrite s.blk (v.val / 2) c j t = true → ∀ go, (if c.outTb then some s.blk else portGrant (v.val / 2) 6 s.blk) = some go →
      let es := rowElems go v c r
      let bad := !(c.outTb && c.outFmt == 0) && es.any (fun e => e.pois)
      let b := setVe v { x with out := rest } go
      let stored := if isMX c.outFmt then storeBlocks v c j t (chunkList 32 9 es) b
        else storeOut v c t (es.map (fun e => (e, if e.pois then { w := e.w.toNat }
          else convertCode c.outFmt ⟨if c.outCvt % 2 = 1 then some (drawOut b v c j r.tile e.m e.n) else none, c.outCvt.testBit 1⟩
            (outValue c j e.w)))) b
      (bad = false → exec (.veOutputRow v) s = .next (s.after
        (noteRow (v.val / 2) t stored))) ∧
      (bad = true → exec (.veOutputRow v) s = .next (s.after (poisonTask (v.val / 2) c.queue c.count go)))) ∧
    (hostClear s.blk = true → ∀ (q : Fin 512) (n : Nat) (c' : Cmd) (j' : Job), jobCmd s.blk (some (q.val, n)) = some (c', j') →
      c'.mode ≠ 0 → j'.summed = false → kernelWorkDone s.blk c' j' = true → c'.summaryVa = 0 →
      guardHolds (c'.guard 0) (summaryOf s.blk c') = false → guardHolds (c'.guard 1) (summaryOf s.blk c') = false →
      exec (.summaryAndGuards q n) s = .next (s.after (modCmd q n (fun c => { c with status := 0, detail := 0 })
        (setJob { j' with summed := true } s.blk))))

/-- 06, 07, 08: what a vector engine that runs a command does, and its rows and results.
Commands whose next state it gives, wherever its hypotheses on the state and the operands hold: landingBufferRelease, landWaitRow,
veGroupRun, veRowLand, rowstatFinalisation, segmentCarryArrival, veOutputRow, summaryAndGuards. -/
def Obligations.VectorEngine : Prop :=
  Claims.VeRuns ∧ Claims.VeRows

/-- 06 R148–R151, R162: every instruction of a vector engine that runs a command, on one lane element: its operands are read, its result goes to
X and to the tile buffer that DST names, flags and counts add up; an operand that carries poison aborts the task with ABORTED_POISON. The
result itself is `laneOp`'s. SFU first meets the errors of the stores and tables that it reads (07 R199). Readings that the log declares
as the model's: 41. -/
def Sys2Proof.Claims.LaneEffects : Prop :=
  ∀ (s : State) (v : Fin 64) (m : Fin 128) (n : Fin 256) (dst : Fin 8) (a b c : Fin 64) (ups : List Upset),
    let does := fun (i : Instr) (blk : Block) (tbl : List (Nat × W32)) (w : LaneWord) =>
      ∀ (c : Cmd) (j : Job) (wk : Work) (rank : Nat), jobCmd blk (ve blk v).job = some (c, j) → workNow blk v c = some (wk, rank) →
        w.argOk j.psidy = true →
        let x := ve blk v
        let k := 256 * m.val + n.val
        let r := laneStep x { laneEnv blk v c j wk with tbl := tbl } m n (positionOf c rank v wk m n) ⟨mapGet 0 x.x k, x.xPois.contains k, [], 0, 0, 0, false⟩ w
        (r.used = false →
          let y := r.tmps.foldl (fun x t => putElem c.pack t.1 m n t.2 x) x
          exec i s = .next (s.after (veFlags v r.fl (addCounts c.queue c.count r.nans r.ovfs
            (setVe v { y with x := mapSet 0 y.x k r.x, xPois := if r.xp then setInsert y.xPois k else setErase y.xPois k } blk))))) ∧
        (r.used = true → exec i s = .next (s.after (poisonTask (v.val / 2) c.queue c.count blk)))
    does (.veAdd v m n dst a b) s.blk [] ⟨0x01, dst, a, b, 0⟩ ∧ does (.veSub v m n dst a b) s.blk [] ⟨0x02, dst, a, b, 0⟩ ∧
    does (.veMul v m n dst a b) s.blk [] ⟨0x03, dst, a, b, 0⟩ ∧ does (.veFma v m n dst a b c) s.blk [] ⟨0x04, dst, a, b, c⟩ ∧
    does (.veFms v m n dst a b c) s.blk [] ⟨0x05, dst, a, b, c⟩ ∧ does (.veMax v m n dst a b) s.blk [] ⟨0x06, dst, a, b, 0⟩ ∧
    does (.veMin v m n dst a b) s.blk [] ⟨0x07, dst, a, b, 0⟩ ∧ does (.veAbs v m n dst a) s.blk [] ⟨0x08, dst, a, 0, 0⟩ ∧
    does (.veNeg v m n dst a) s.blk [] ⟨0x09, dst, a, 0, 0⟩ ∧ does (.veClamp v m n dst a b c) s.blk [] ⟨0x0A, dst, a, b, c⟩ ∧
    does (.veDiv v m n dst a b) s.blk [] ⟨0x0B, dst, a, b, 0⟩ ∧ does (.veSqrt v m n dst a) s.blk [] ⟨0x0C, dst, a, 0, 0⟩ ∧
    does (.veCvtr v m n dst a b) s.blk [] ⟨0x0E, dst, a, b, 0⟩ ∧ does (.veSelgt v m n dst a b c) s.blk [] ⟨0x0F, dst, a, b, c⟩ ∧
    does (.veCmpeq v m n dst a b) s.blk [] ⟨0x10, dst, a, b, 0⟩ ∧ does (.veCmplt v m n dst a b) s.blk [] ⟨0x11, dst, a, b, 0⟩ ∧
    does (.veCmple v m n dst a b) s.blk [] ⟨0x12, dst, a, b, 0⟩ ∧ does (.veIsnan v m n dst a) s.blk [] ⟨0x13, dst, a, 0, 0⟩ ∧
    does (.veSel v m n dst a b c) s.blk [] ⟨0x14, dst, a, b, c⟩ ∧ does (.veIadd v m n dst a b) s.blk [] ⟨0x18, dst, a, b, 0⟩ ∧
    does (.veIsub v m n dst a b) s.blk [] ⟨0x19, dst, a, b, 0⟩ ∧ does (.veImul v m n dst a b) s.blk [] ⟨0x1A, dst, a, b, 0⟩ ∧
    does (.veAnd v m n dst a b) s.blk [] ⟨0x1B, dst, a, b, 0⟩ ∧ does (.veOr v m n dst a b) s.blk [] ⟨0x1C, dst, a, b, 0⟩ ∧
    does (.veXor v m n dst a b) s.blk [] ⟨0x1D, dst, a, b, 0⟩ ∧ does (.veShl v m n dst a b) s.blk [] ⟨0x1E, dst, a, b, 0⟩ ∧
    does (.veShr v m n dst a b) s.blk [] ⟨0x1F, dst, a, b, 0⟩ ∧ does (.veSar v m n dst a b) s.blk [] ⟨0x20, dst, a, b, 0⟩ ∧
    does (.veIcmplt v m n dst a b) s.blk [] ⟨0x21, dst, a, b, 0⟩ ∧ does (.veCvtif v m n dst a) s.blk [] ⟨0x22, dst, a, 0, 0⟩ ∧
    does (.veCvtfi v m n dst a) s.blk [] ⟨0x23, dst, a, 0, 0⟩ ∧ does (.veMov v m n dst a) s.blk [] ⟨0x24, dst, a, 0, 0⟩ ∧
    (let u := veUpsets v ups s.blk
     (u.stop = false → does (.veSfu v m n dst a b ups) u.blk u.tbl ⟨0x0D, dst, a, b, 0⟩) ∧
     (u.stop = true → ∀ (c : Cmd) (j : Job) (wk : Work) (rank : Nat), jobCmd s.blk (ve s.blk v).job = some (c, j) →
       workNow s.blk v c = some (wk, rank) → (⟨0x0D, dst, a, b, 0⟩ : LaneWord).argOk j.psidy = true →
       exec (.veSfu v m n dst a b ups) s = .next (s.after (poisonTask (v.val / 2) c.queue c.count u.blk))))

/-- 06 R150, R151: results of the lane instructions on words: the integer operations on the patterns; MAX and MIN of a NaN are the canonical NaN
and of the two zeros +0 and −0; comparisons with a NaN are false and the zeros are equal; DIV by a zero and SQRT of −0 and of a negative
number; SEL tests the whole word; CVTFI saturates; MOV keeps the bits. Readings that the log declares as the model's: 25, 58, 135, 171. -/
def Sys2Proof.Claims.LaneResults : Prop :=
  ∀ (p : Bool) (a b c : W32),
    (laneOp p false 0x18 0 0 a b c).w = a + b ∧ (laneOp p false 0x19 0 0 a b c).w = a - b ∧
    (laneOp p false 0x1A 0 0 a b c).w = a * b ∧ (laneOp p false 0x1B 0 0 a b c).w = a &&& b ∧
    (laneOp p false 0x1C 0 0 a b c).w = a ||| b ∧ (laneOp p false 0x1D 0 0 a b c).w = a ^^^ b ∧
    (laneOp p false 0x1E 0 0 a b c).w = a <<< (b.toNat % 32) ∧ (laneOp p false 0x1F 0 0 a b c).w = a >>> (b.toNat % 32) ∧
    (laneOp p false 0x20 0 0 a b c).w = a.sshiftRight (b.toNat % 32) ∧
    (laneOp p false 0x21 0 0 a b c).w = (if a.toInt < b.toInt then 1 else 0) ∧ (laneOp p false 0x24 0 0 a b c).w = a ∧
    (laneOp p false 0x14 0 0 a b c).w = (if c = 0 then b else a) ∧
    (fpIsNaN (fp32 a) = true →
      (laneOp p false 0x06 0 0 a b c).w = 0x7FC00000#32 ∧ (laneOp p false 0x07 0 0 a b c).w = 0x7FC00000#32 ∧
      (laneOp p false 0x06 0 0 b a c).w = 0x7FC00000#32 ∧ (laneOp p false 0x07 0 0 b a c).w = 0x7FC00000#32 ∧
      (laneOp p false 0x10 0 0 a b c).w = 0 ∧ (laneOp p false 0x11 0 0 a b c).w = 0 ∧ (laneOp p false 0x12 0 0 a b c).w = 0 ∧
      (laneOp p false 0x13 0 0 a b c).w = 1 ∧ (laneOp p false 0x23 0 0 a b c).w = 0 ∧
      (laneOp p false 0x23 0 0 a b c).fl = flInvalid) ∧
    (laneOp p false 0x06 0 0 0x80000000#32 0 c).w = 0 ∧ (laneOp p false 0x07 0 0 0 0x80000000#32 c).w = 0x80000000#32 ∧
    (laneOp p false 0x10 0 0 0x80000000#32 0 c).w = 1 ∧
    (laneOp p false 0x0B 0 0 0x3F800000#32 0x80000000#32 c).w = 0xFF800000#32 ∧
    (laneOp p false 0x0B 0 0 0x3F800000#32 0 c).fl = flDivZero ∧
    (laneOp p false 0x0B 0 0 0 0 c).w = 0x7FC00000#32 ∧ (laneOp p false 0x0B 0 0 0 0 c).fl = flInvalid ∧
    (laneOp p false 0x0C 0 0 0x80000000#32 b c).w = 0x80000000#32 ∧ (laneOp p false 0x0C 0 0 0xBF800000#32 b c).fl = flInvalid ∧
    (laneOp p false 0x23 0 0 0x4F000000#32 b c).w = 0x7FFFFFFF#32 ∧ (laneOp p false 0x23 0 0 0xCF000000#32 b c).w = 0x80000000#32

/-- 06 R148–R151, R162: the effect of every lane instruction, and the results of those on words.
Commands whose next state it gives, wherever its hypotheses on the state and the operands hold: veAdd, veSub, veMul, veFma, veFms, veMax,
veMin, veAbs, veNeg, veClamp, veDiv, veSqrt, veCvtr, veSelgt, veCmpeq, veCmplt, veCmple, veIsnan, veSel, veIadd, veIsub, veImul, veAnd,
veOr, veXor, veShl, veShr, veSar, veIcmplt, veCvtif, veCvtfi, veMov, veSfu. -/
def Obligations.LaneInstructions : Prop :=
  Claims.LaneEffects ∧ Claims.LaneResults

/-! ### Streams (09) -/

/-- 09 R230, R231, R234: the instructions of a stream program, on the entry of a cluster whose command runs it. A LOOP with iterations left for
the cluster starts the first of its own, one without skips the body; END starts the next iteration or leaves the loop at the position that
it found; an iteration of an INDIR loop waits for the grant of the fabric port that fetches its index (R249); RUN emits its coordinates
unless one lies below the tensor base, which faults the stream; ADD moves the position; PAD emits padding. Readings that the log declares as
the model's: 129, 177.
Commands whose next state it gives, wherever its hypotheses on the state and the operands hold: streamLoopRow, streamEndRow, streamRunRow,
streamAddRow, streamPadRow. -/
def Obligations.StreamPrograms : Prop :=
  ∀ (s : State) (cl : Fin 32) (e : Fin 8) (c : Cmd) (j : Job) (i : SInstr), jobCmd s.blk (se s.blk cl).job = some (c, j) →
    let x := entryOf (se s.blk cl) e
    nextInstr c e x = some i → runsProgram c (se s.blk cl).rank e = true →
    (i.op = 1 → ∀ first, first = (if i.part then (se s.blk cl).rank else 0) →
      (first < i.count → (∀ go, (if i.indir then portGrant cl e s.blk else some s.blk) = some go →
          exec (.streamLoopRow cl e) s = .next (s.after (startIter cl e c i ⟨x.pc, first, x.row, x.col, x.zero⟩ x.frames go))) ∧
        (i.indir = true → portGrant cl e s.blk = none → exec (.streamLoopRow cl e) s = .next (s.after s.blk))) ∧
      (i.count ≤ first → exec (.streamLoopRow cl e) s = .next (s.after
        (setEntry cl e { x with pc := (c.prog e).length } s.blk)))) ∧
    (i.op = 2 → ∀ f rest l, x.frames = f :: rest → (c.prog e)[f.pc]? = some l →
      let k := f.i + (if l.part then c.nclus else 1)
      (k < l.count →
        (∀ go, (if l.indir then portGrant cl e s.blk else some s.blk) = some go →
          exec (.streamEndRow cl e) s = .next (s.after (startIter cl e c l { f with i := k } rest go))) ∧
        (l.indir = true → portGrant cl e s.blk = none → exec (.streamEndRow cl e) s = .next (s.after s.blk))) ∧
      (l.count ≤ k → exec (.streamEndRow cl e) s = .next (s.after (wrapProgram cl e c
        (setEntry cl e { x with frames := rest, pc := x.pc + 1, row := f.row, col := f.col, zero := f.zero } s.blk))))) ∧
    (i.op = 3 → (x.zero = true ∨ belowBase x.row x.col i.drow i.dcol i.count = none) →
      exec (.streamRunRow cl e) s = .next (s.after (wrapProgram cl e c (setEntry cl e { x with
        pc := x.pc + 1,
        segs := x.segs ++ [⟨x.emitted, i.count, x.row, x.col, i.drow, i.dcol, x.zero, windowNow c e x⟩],
        emitted := x.emitted + i.count } s.blk)))) ∧
    (i.op = 3 → x.zero = false → ∀ k, belowBase x.row x.col i.drow i.dcol i.count = some k →
      exec (.streamRunRow cl e) s = .next (s.after
        (streamFault cl e 1 (x.row + k * i.drow) (x.col + k * i.dcol) c.queue c.count s.blk))) ∧
    (i.op = 4 → exec (.streamAddRow cl e) s = .next (s.after (wrapProgram cl e c
      (setEntry cl e { x with pc := x.pc + 1, row := x.row + i.drow, col := x.col + i.dcol } s.blk)))) ∧
    (i.op = 5 → exec (.streamPadRow cl e) s = .next (s.after (wrapProgram cl e c (setEntry cl e { x with
      pc := x.pc + 1, segs := x.segs ++ [⟨x.emitted, i.count, 0, 0, 0, 0, true, 0⟩], emitted := x.emitted + i.count } s.blk))))

/-- 09 R241, R248, R249, R254, 01 R18: elements on their way into a cluster. STREAM_FETCH of an entry but the weights' takes the padding that
comes next at once; what is to be fetched comes, a leaf block's worth, once the arbiter of the cluster's fabric port picks the entry, and
waits where it does not, as does an entry whose fabric is off. A peer's read of this device's owner blocks is answered with the bytes and
poison that the step context's tables give, with poison where a table entry is poisoned, or with a fault; a read not answered in time faults
the stream with cause OWNER_TIMEOUT; a weight row that its slot takes is taken and passed down the hoist chain, where the next cluster holds
none, its elements that are no padding counted. Readings that the log declares as the model's: 52, 129, 133, 155, 182. -/
def Sys2Proof.Claims.InputEntries : Prop :=
  ∀ (s : State) (cl : Fin 32), hostClear s.blk = true →
    (∀ e : Fin 8, e.val < 6 → e.val ≠ 1 → dom s.blk (domFab (halfOfCluster cl)) = 2 →
      let p := fetchPads 1024 cl e s.blk
      (inputAsks p.2 cl e = false → exec (.streamFetchRow cl e []) s = .next (s.after p.2)) ∧
      (inputAsks p.2 cl e = true →
        (∀ go, portGrant cl e p.2 = some go → exec (.streamFetchRow cl e []) s = .next (s.after (fetchElems p.1 cl e go))) ∧
        (portGrant cl e p.2 = none → exec (.streamFetchRow cl e []) s = .next (s.after p.2)))) ∧
    (∀ e : Fin 8, e.val ≠ 1 → dom s.blk (domFab (halfOfCluster cl)) ≠ 2 →
      exec (.streamFetchRow cl e []) s = .next (s.after s.blk)) ∧
    (∀ (src va n : Nat) (ups : List Upset), activeMember s.blk (devId s.blk) = true →
      let b := ups.foldl sramUpset s.blk
      (∀ r : VRead, vRead b (get b fGG_STEP_CTX_CTX) va n = .ok r →
        exec (.remoteReadRequest src va n ups) s = .next (s.after (sendGang src (.readAnswer va r.bytes (linePoison r.pois) false) b))) ∧
      (vRead b (get b fGG_STEP_CTX_CTX) va n = .error .poison → exec (.remoteReadRequest src va n ups) s = .next (s.after
        (sendGang src (.readAnswer va (leBytes n 0) (linePoison (List.replicate n true)) false) b))) ∧
      (vRead b (get b fGG_STEP_CTX_CTX) va n = .error .fault →
        exec (.remoteReadRequest src va n ups) s = .next (s.after (sendGang src (.readAnswer va [] 0 true) b)))) ∧
    (∀ (e : Fin 8) (c : Cmd) (j : Job) (g : Seg) (row col : Int), jobCmd s.blk (se s.blk cl).job = some (c, j) →
      (entryOf (se s.blk cl) e).asked ≠ [] → coordOf (entryOf (se s.blk cl) e) (entryOf (se s.blk cl) e).fetched = some (g, row, col) →
      exec (.remoteReadTimeout cl e) s = .next (s.after (streamFault cl e 5 row col c.queue c.count s.blk))) ∧
    (∀ (c : Cmd) (j : Job) (row : List Elem) (b : Block), jobCmd s.blk (se s.blk cl).job = some (c, j) →
      (c.tensor 1).hoist = true → c.hasOpu = true → (se s.blk cl).rank ≠ 0 → (se s.blk cl).hoist.head? = some row →
      (se s.blk cl).wrows / max c.rowsPerIter 1 * c.nclus + (se s.blk cl).rank < c.parts →
      takeWeightRow cl (se s.blk cl).wrows c row s.blk = some b →
      let taken := setSe cl { se b cl with hoist := (se s.blk cl).hoist.drop 1 } b
      let passed := setSe cl { se taken cl with wrows := (se s.blk cl).wrows + 1 } taken
      (∀ d, nextOnChain c (se s.blk cl).rank = some d → (se s.blk d).hoist ≠ [] → exec (.hoistRowForward cl []) s = .next (s.after s.blk)) ∧
      (∀ d, nextOnChain c (se s.blk cl).rank = some d → (se s.blk d).hoist = [] → exec (.hoistRowForward cl []) s = .next (s.after
        (count64 (rSE_CNT_HOIST_LO cl) ((row.filter (fun v => !v.pad)).length * fmtWidth c.wFmt / 8)
          (linkGrant cl d 0 (setSe d { se passed d with hoist := (se passed d).hoist ++ [row] } passed))))) ∧
      (nextOnChain c (se s.blk cl).rank = none → exec (.hoistRowForward cl []) s = .next (s.after passed)))

/-- 09 R241: the answer to a remote read reaches the entry that asked for it: the bytes with their poison are there, and the request is
outstanding no more. Nothing else changes where no other entry asked for the same. -/
def Sys2Proof.Claims.RemoteReadAnswers : Prop :=
  ∀ (s : State) (src va : Nat) (data : List Byte) (poison : Nat) (cl : Fin 32) (e : Fin 6) (c : Cmd) (j : Job),
    jobCmd s.blk (se s.blk cl).job = some (c, j) →
    let x := entryOf (se s.blk cl) e
    let named := fun (a : Nat × Nat × Nat) => a.1 == src && a.2.1 == va
    x.asked.any named = true →
    (∀ (cl' : Fin 32) (e' : Fin 6), (cl', e') ≠ (cl, e) → (entryOf (se s.blk cl') e').asked.any named = false) →
    exec (.remoteReadResponse src va data poison false) s = .next (s.after (setEntry cl e { x with
      asked := x.asked.filter (fun a => !named a),
      got := (src, va, data, bytePoison poison data.length) :: x.got } s.blk))

/-- 09 and 11: what reaches an input entry of a stream program, from memory and from a peer.
Commands whose next state it gives, wherever its hypotheses on the state and the operands hold: streamFetchRow, remoteReadRequest,
remoteReadTimeout, hoistRowForward, remoteReadResponse. -/
def Obligations.StreamInputs : Prop :=
  Claims.InputEntries ∧ Claims.RemoteReadAnswers

/-! ### Memory (04, 10) -/

/-- A write of bytes to memory: the bytes of its range read as written, every other byte as before, and the canonical form is kept. Readings
that the log declares as the model's: 4. -/
def Sys2Proof.Claims.WritesReadBack : Prop :=
  ∀ (b : Block) (pa : Nat) (bs : List Byte) (src : Nat → Bool), b.memOk = true →
    let t := memWriteP pa bs src b
    t.memOk = true ∧ (∀ i, i < bs.length → memByte t (pa + i) = bs.getD i 0) ∧
    (∀ a, a < pa ∨ pa + bs.length ≤ a → memByte t a = memByte b a) ∧
    t.regs = b.regs ∧ t.cmds = b.cmds

/-- 04 R108, 10 R272, R273: a storage word of HBM written whole takes the written words' poison and loses its own. Readings that the log
declares as the model's: 109. -/
def Sys2Proof.Claims.WholeWordClearsPoison : Prop :=
  ∀ (b : Block) (pa : Nat) (bs : List Byte), pa % 8 = 0 → pa + 8 ≤ 0x8000000000 → bs.length = 8 →
    poisoned (memWriteP pa bs (fun _ => false) b) pa = false ∧ poisoned (memWriteP pa bs (fun _ => false) b) (pa + 4) = false ∧
    poisoned (memWriteP pa bs (fun _ => true) b) pa = true ∧ poisoned (memWriteP pa bs (fun _ => true) b) (pa + 4) = true

/-- 10 R260, R273, 04 R108: what a write of memory leaves, and what it does to poison. -/
def Obligations.MemoryReadsBack : Prop :=
  Claims.WritesReadBack ∧ Claims.WholeWordClearsPoison

/-- 10 R266: with g the granule of an HBM address, q = g div 12 and r = g mod 12, the byte lies in lode (r + (q >> 10) + (q >> 20)) mod 12 at
lode-local granule q with its offset; the mapping is undone by `lodePa`, and one group of 12 granules meets every lode once. -/
def Obligations.HbmInterleave : Prop :=
  ∀ a : Nat, a < 0x8000000000 →
    lodeOf a = (a / 4096 % 12 + (a / 4096 / 12) / 2 ^ 10 + (a / 4096 / 12) / 2 ^ 20) % 12 ∧
    lodeLocal a / 4096 = a / 4096 / 12 ∧ lodeLocal a % 4096 = a % 4096 ∧ lodePa (lodeOf a) (lodeLocal a) = a ∧
    (∀ l, l < 12 → ∃ r, r < 12 ∧ lodeOf ((a / 4096 / 12 * 12 + r) * 4096) = l)

/-- 10 R264: a translation that succeeds stays within a page that lies wholly in one assigned range, and its address is reachable. Readings that
the log declares as the model's: 178. -/
def Obligations.TranslationIsSafe : Prop :=
  ∀ (b : Block) (c va pa : Nat) (write : Bool), translate b c va write = .ok pa →
    va < 2 ^ 52 ∧ reachable b pa = true ∧
    ∃ page size, pageAllowed page size = true ∧ (size = 2 ^ 21 ∨ size = 2 ^ 30) ∧ page ≤ pa ∧ pa < page + size ∧ pa = page + va % size

/-- 10 R271–R274, R278: words read from and written to a lode that works, with at most two flipped bits, at a granule that the lode has. A clean
word reads as it is, and stored poison as poison; one flipped bit is corrected and counted; two are a new uncorrectable error. A write of a
whole storage word from clean on-chip words stores them. A patrol read checks its word and moves on; a scrub that falls behind, of a lode or
of a staging slice, yields its guarantee once. Readings that the log declares as the model's: 7.
Commands whose next state it gives, wherever its hypotheses on the state and the operands hold: lodeReadRow, lodeWriteRow, patrolScrubRead,
scrubCatchupRow. -/
def Obligations.LodeAccesses : Prop :=
  ∀ (s : State) (l : Fin 12) (a : Nat), a % 8 = 0 → targetReachable s.blk (lodePa l a) = true → domOn s.blk (domLode l) = true →
    lodeHas s.blk l a = true →
    (poisoned s.blk (lodePa l a) = false → exec (.lodeReadRow l a []) s = .next (s.after s.blk) ∧ ∀ i, i < 72 →
      exec (.lodeReadRow l a [i]) s = .next (s.after (lodeCe l a s.blk)) ∧
      ∀ k, k < 72 → i ≠ k → exec (.lodeReadRow l a [i, k]) s = .next (s.after (lodeUe l a s.blk))) ∧
    (poisoned s.blk (lodePa l a) = true → exec (.lodeReadRow l a []) s = .next (s.after
      (setPoison (setPoison s.blk (lodePa l a) true) (lodePa l a + 4) true))) ∧
    (∀ w0 w1 : W32, exec (.lodeWriteRow l a 0 8 w0 w1 false false [] [] []) s = .next (s.after
      (memWriteP (lodePa l a) (leBytes 4 w0.toNat ++ leBytes 4 w1.toNat) (fun _ => false) s.blk))) ∧
    (∀ u : Fin 20, u.val = l.val → isSet s.blk (fLD_BLK_STAT_SELF_REFRESH l) = false → hbmLost s.blk = false →
      (lode s.blk l).scrubPos * 8 = a → (lode s.blk l).scrubPos + 1 < lodeGranules s.blk l * 512 → (lode s.blk l).fill = none →
      poisoned s.blk (lodePa l a) = false →
      exec (.patrolScrubRead u [] false) s = .next (s.after
        (setLode l { lode s.blk l with scrubPos := (lode s.blk l).scrubPos + 1 } s.blk))) ∧
    (∀ u : Fin 20, u.val = l.val → (lode s.blk l).catchup = false →
      exec (.scrubCatchupRow u) s = .next (s.after (yieldGuarantee (ldPage l) 5 2 0x10
        (setLode l { lode s.blk l with catchup := true } s.blk)))) ∧
    (∀ (u : Fin 20) (g : Fin 8), u.val = 12 + g.val → s.blk.sgCatchup.contains g.val = false →
      exec (.scrubCatchupRow u) s = .next (s.after (yieldGuarantee (sgPage g) 5 2 0x10
        { s.blk with sgCatchup := setInsert s.blk.sgCatchup g.val })))

/-- 10 R268–R270, R277–R283, 14 R376, R377: fills and failures. A fill copies its next clean word; a complete fill switches its row group to the
spare, a lost region then reading as poison but for what was written whole meanwhile; a recalibration changes no result; a stack readout
shows its temperature, on the lode's own page while its domain is ON, raises STACK_HOT as it passes 85 °C, and calls firedamp for it; a
failed lode, staging slice or fabric domain stays failed, and its contents are lost. Readings that the log declares as the model's: 79, 136,
137, 138, 162.
Commands whose next state it gives, wherever its hypotheses on the state and the operands hold: fillCopyRow, fillCompleteRow,
lodeRecalibration, stackTempReadout, lodeFailureRow, stagingSliceFailure, fabricDomainFailure. -/
def Obligations.MemoryFailures : Prop :=
  ∀ (s : State) (l : Fin 12) (g : Fin 8) (h : Fin 2) (temp : Nat),
    (∀ f : Fill, (lode s.blk l).fill = some f → isSet s.blk (fLD_BLK_STAT_SELF_REFRESH l) = false → domOn s.blk (domLode l) = true →
      f.pos < rgWords → hbmLost s.blk = false →
      (f.lost = true ∨ poisoned s.blk (lodePa l (rgWordAt f.pc f.rg f.pos)) = false → exec (.fillCopyRow l [] []) s = .next (s.after
        (setLode l { lode s.blk l with fill := some { f with pos := f.pos + 1 } } s.blk)))) ∧
    (∀ f : Fill, (lode s.blk l).fill = some f → rgWords ≤ f.pos → (lode s.blk l).queued = [] →
      isSet s.blk (fLD_BLK_STAT_SELF_REFRESH l) = false → domOn s.blk (domLode l) = true → hbmLost s.blk = false →
      ∃ b : Block, exec (.fillCompleteRow l) s = .next (s.after b) ∧ (lode b l).fill = none ∧
        (lode b l).remap = (lode s.blk l).remap.filter (fun e => !(e.1 == f.pc && e.2.1 == f.rg)) ++ [(f.pc, f.rg, f.spare)] ∧
        (f.lost = true → ∀ i, i < rgWords → lodeHas s.blk l (rgWordAt f.pc f.rg i) = true →
          f.written.contains (lodePa l (rgWordAt f.pc f.rg i)) = false → poisoned b (lodePa l (rgWordAt f.pc f.rg i)) = true) ∧
        b.mem = s.blk.mem) ∧
    exec (.lodeRecalibration l) s = .next (s.after (setLode l { lode s.blk l with recals := (lode s.blk l).recals + 1 } s.blk)) ∧
    (isSet s.blk (fBLK_STAT_FAILED (ldBase l)) = false → dom s.blk (domLode l) ≠ 0 →
      let shown := if domOn s.blk (domLode l)
        then put (fLD_TEMP_TEMP_C l) temp (put (fLD_TEMP_REFRESH_X2 l) (b2n (decide (85 < temp))) s.blk) else s.blk
      let told := if 85 < temp ∧ isSet s.blk (fLD_TEMP_REFRESH_X2 l) = false then canaryAdd .stack 1 (raise (ldPage l) 2048 shown) else shown
      let b := setFd (fun f => { f with
        hbm := mapSet 0 f.hbm l temp,
        hbmLevel := mapSet 0 f.hbmLevel l (stackLevelOf (mapGet 0 f.hbmLevel l) temp) }) told
      let hottest := b.fd.hbm.foldl (fun a e => if a.2 < e.2 then e else a) (0, 0)
      exec (.stackTempReadout l temp) s = .next (s.after
        (fdRise (put fPW_TEMP_HBM_LODE hottest.1 (put fPW_TEMP_HBM_MAX (min hottest.2 255) b))))) ∧
    (isSet s.blk (fBLK_STAT_FAILED (ldBase l)) = false →
      ∃ b : Block, exec (.lodeFailureRow l) s = .next (s.after b) ∧ hbmLost b = true ∧ dom b (domLode l) = 3 ∧
        get b (fLD_BLK_STAT_TRAINED l) = 0) ∧
    (isSet s.blk (fBLK_STAT_FAILED (sgBase g)) = false →
      ∃ b : Block, exec (.stagingSliceFailure g) s = .next (s.after b) ∧ isSet b (fBLK_STAT_FAILED (sgBase g)) = true ∧
        dom b (domSg g) = 3) ∧
    (dom s.blk (domFab h) ≠ 3 →
      ∃ b : Block, exec (.fabricDomainFailure h) s = .next (s.after b) ∧ dom b (domFab h) = 3 ∧ hbmLost b = true)

/-! ### Adits, links and messages (11 R286–R299) -/

/-- 11 R291–R294: what the entry of UP, of DOWN and of DISABLED leaves: the adit's state, no peer outside UP, one more in DOWNS, LINK_UP or
LINK_DOWN raised, and nothing of memory, commands or any other adit's state changed. -/
def aditEntered (b t : Block) (a : Nat) (st : Nat) : Prop :=
  aditState t a = st ∧ t.mem = b.mem ∧ t.cmds = b.cmds ∧ ∀ a', a' < 18 → a' ≠ a → aditState t a' = aditState b a' ∧ peerId t a' = peerId b a'

/-- 11 R291–R294, R310, 17 R475: the commands of an adit. Enabling a disabled adit turns its domain on and enters DETECT; disabling goes to
DISABLED; presence starts TRAIN and its loss, like a training or alignment that is too long, goes to DOWN; TRAIN is followed by ALIGN and
IDENT, a full retrain by UP; an UP adit retrains on a trigger, on its peer's signal and on AD_CTL.RETRAIN; after 1 s a DOWN adit whose EN is
1 is in DETECT; CLR_CNT clears the counts. Readings that the log declares as the model's: 102, 149. -/
def Sys2Proof.Claims.AditChanges : Prop :=
  ∀ (s : State) (a : Fin 18) (port : Port) (f : Bool),
    let st := aditState s.blk a
    let full := (link s.blk a).full
    (actsNowNat s.blk port (rAD_CTL a) 1 = true → isSet s.blk (fAD_CTL_EN a) = false → dom s.blk (domAdit a) ≠ 3 →
      exec (.adEnWrite port a true) s = .next (s.after (setAdit a 1 (put (fDom (domAdit a)) 2 (put (fAD_CTL_EN a) 1
        (granted port (rAD_CTL a / 4096) s.blk)))))) ∧
    (actsNowNat s.blk port (rAD_CTL a) 0 = true → isSet s.blk (fAD_CTL_EN a) = true →
      ∃ b : Block, exec (.adEnWrite port a false) s = .next (s.after b) ∧ aditState b a = 0 ∧ peerId b a = 0xFFFF ∧
        isSet b (fAD_CTL_EN a) = false ∧ b.mem = s.blk.mem) ∧
    (st = 1 → exec (.presenceDetected a f) s = .next (s.after
      (setAdit a 2 (put (fAD_BLK_STAT_OPTICAL a) (b2n f) (put (fAD_BLK_STAT_PRESENT a) 1 s.blk))))) ∧
    (2 ≤ st → st ≤ 6 →
      exec (.presenceLostRow a) s = .next (s.after (enterDown a (put (fAD_BLK_STAT_PRESENT a) 0 s.blk)))) ∧
    (aditEntered s.blk (enterDown a s.blk) a 7 ∧ peerId (enterDown a s.blk) a = 0xFFFF ∧
      (st = 5 ∨ st = 6 → bit (rd (enterDown a s.blk) (rBLK_EVT_RAW (pageBase (0x120 + a.val)))) 5 = true)) ∧
    (st = 2 → exec (.trainComplete a f) s = .next (s.after (setAdit a 3 (put (fAD_BLK_STAT_REVERSED a) (b2n f) s.blk))) ∧
      exec (.trainTimeoutRow a) s = .next (s.after (enterDown a s.blk))) ∧
    (st = 6 → full = 1 → exec (.trainComplete a f) s = .next (s.after (setLink a { link s.blk a with full := 2 }
        (put (fAD_BLK_STAT_REVERSED a) (b2n f) s.blk))) ∧
      exec (.trainTimeoutRow a) s = .next (s.after (enterDown a s.blk))) ∧
    (st = 3 → exec (.alignComplete a) s = .next (s.after (setAdit a 4 (setLink a Link.fresh s.blk))) ∧
      exec (.alignTimeoutRow a) s = .next (s.after (enterDown a s.blk))) ∧
    (st = 6 → full = 2 → exec (.alignComplete a) s = .next (s.after (enterUp a (peerId s.blk a) false s.blk)) ∧
      exec (.alignTimeoutRow a) s = .next (s.after (enterDown a s.blk))) ∧
    (aditEntered s.blk (enterUp a (peerId s.blk a) f s.blk) a 5 ∧
      bit (rd (enterUp a (peerId s.blk a) f s.blk) (rBLK_EVT_RAW (pageBase (0x120 + a.val)))) 4 = true) ∧
    (st = 5 → exec (.retrainTrigger a) s = .next (s.after (enterRetrain a true s.blk)) ∧
      exec (.peerRetrainSignal a) s = .next (s.after (enterRetrain a true s.blk)) ∧
      aditEntered s.blk (enterRetrain a true s.blk) a 6 ∧
      (link (enterRetrain a true s.blk) a).unacked = (link s.blk a).unacked ∧
      bit (rd (enterRetrain a true s.blk) (rBLK_EVT_RAW (pageBase (0x120 + a.val)))) 6 = true) ∧
    (actsNowNat s.blk port (rAD_CTL a) 3 = true → isSet s.blk (fAD_CTL_EN a) = true → st = 5 →
      exec (.adRetrain port a true) s = .next (s.after (enterRetrain a true
        (put (fAD_CTL_EN a) 1 (granted port (rAD_CTL a / 4096) s.blk))))) ∧
    (st = 6 → full = 0 → exec (.quickRetrainComplete a) s = .next (s.after (enterUp a (peerId s.blk a) false s.blk)) ∧
      exec (.quickRetrainFail a) s = .next (s.after (setLink a { link s.blk a with full := 1 } s.blk))) ∧
    (st = 7 → isSet s.blk (fAD_CTL_EN a) = true → exec (.downRetryTimer a) s = .next (s.after (setAdit a 1 s.blk))) ∧
    (actsNowNat s.blk port (rAD_CTL a) 5 = true → isSet s.blk (fAD_CTL_EN a) = true →
      exec (.adClrCnt port a true) s = .next (s.after (wr (wr (wr (put (fAD_CTL_EN a) 1 (granted port (rAD_CTL a / 4096) s.blk))
        (rAD_FEC a) 0) (rAD_RETRY a) 0) (rAD_TRAIN a) 0)))

/-- 11 R292: IDENT. The first of two flits is kept; the second of two that are the same, from a valid ID that is not this device's, gives the
peer and enters UP, where its MSEQ restarts if it forms a bundle; an ID that is not valid or is this device's sets ID_CONFLICT and stays in
IDENT. While the peer is not known to be UP an IDENT flit goes every 1 µs, with this device's ID, the adit, the stepping and whether it is
UP; one that tells that the peer is UP lets what waits for the bundle leave. What waited for a bundle that forms is numbered again from
zero (R295). Readings that the log declares as the model's: 101. -/
def Sys2Proof.Claims.AditIdent : Prop :=
  ∀ (s : State) (a : Fin 18) (id pa step : Nat),
    let b := setLink a { link s.blk a with ident := some (id, pa, step) } s.blk
    (aditState s.blk a = 4 → (id = devId s.blk ∨ id = 0xFFFF ∨ devId s.blk = 0xFFFF) → ∀ up,
      exec (.identFlitRow a id pa step up) s = .next (s.after (raise (0x120 + a.val) 128 b))) ∧
    (aditState s.blk a = 4 → id ≠ devId s.blk → id ≠ 0xFFFF → devId s.blk ≠ 0xFFFF →
      ((link s.blk a).ident ≠ some (id, pa, step) → ∀ up,
        exec (.identFlitRow a id pa step up) s = .next (s.after b)) ∧
      ((link s.blk a).ident = some (id, pa, step) → id < 0xFFFF → pa < 32 →
        ∃ t : Block, exec (.identFlitRow a id pa step false) s = .next (s.after t) ∧ aditState t a = 5 ∧ peerId t a = id ∧
          get t (fAD_PEER_PEER_ADIT a) = pa ∧ t.mem = s.blk.mem ∧
          (isBundlePeer s.blk id = false → bundle t id =
            ⟨(bundle s.blk id).queued.length, 0, [], renumber 0 (bundle s.blk id).queued⟩))) ∧
    (aditState s.blk a = 5 → exec (.identFlitRow a id pa step true) s = .next (s.after (confirmLink a s.blk)) ∧
      exec (.identFlitRow a id pa step false) s = .next (s.after s.blk)) ∧
    ((aditState s.blk a = 4 ∨ (aditState s.blk a = 5 ∧ (link s.blk a).confirmed = false)) →
      exec (.identSendTimer a) s = .next (s.after (emit (.flit a (flitBytes 4 (leBytes 2 (devId s.blk) ++ leBytes 1 a
        ++ leBytes 1 (stepping s.blk) ++ leBytes 1 (b2n (aditState s.blk a == 5))))) s.blk)))

/-- 11 R287–R293: the states of an adit, and its identification.
Commands whose next state it gives, wherever its hypotheses on the state and the operands hold: adEnWrite, presenceDetected,
presenceLostRow, trainComplete, trainTimeoutRow, alignComplete, alignTimeoutRow, retrainTrigger, peerRetrainSignal, adRetrain,
quickRetrainComplete, quickRetrainFail, downRetryTimer, adClrCnt, identFlitRow, identSendTimer. -/
def Obligations.AditStates : Prop :=
  Claims.AditChanges ∧ Claims.AditIdent

/-- 11 R287, R289, R290, R293, R310: flits. The DATA flit that is expected counts in RX and is acknowledged with the 32nd, and on a Chaell port
its bytes join the transaction stream (15 R406); a good one that came before, replayed after a lost ACK, has its ACK sent again; a bad one
draws one NAK with the count expected, and DATA that follows it is dropped until the replay; an ACK frees what it covers, which lets waiting
flits leave; a NAK, which frees the same, and 3 µs without an ACK that advances, replay every flit not acknowledged, the oldest first; an
adit that replays one flit 16 times in a row retrains; the ACK timer acknowledges what is due. A link that is down takes none of these.
Readings that the log declares as the model's: 22, 106, 139, 163, 164. -/
def Sys2Proof.Claims.LinkRetry : Prop :=
  ∀ (s : State) (l : Fin 20) (count : Nat) (number : Fin 4096) (errs : List Nat) (flit : List Byte),
    let x := link s.blk l
    let acked := (count + 4096 - x.acked % 4096) % 4096
    (linkUp s.blk l = false → x.bad.length ≤ 16 →
      (byteAt flit 2 ≤ 3 ∨ flitOk flit = false → exec (.dataFlitRow l number errs flit) s = .next (s.after s.blk)) ∧
      exec (.ackFlitRow l count) s = .next (s.after s.blk) ∧ exec (.nakFlitRow l count) s = .next (s.after s.blk) ∧
      exec (.ackTimer l) s = .next (s.after s.blk) ∧ exec (.replayTimeoutRow l) s = .next (s.after s.blk)) ∧
    (linkUp s.blk l = true → (18 ≤ l.val ∨ x.confirmed = true) → x.bad.length + uncorrectableWords errs ≤ 16 →
      (flitOk flit = true → uncorrectableWords errs = 0 → byteAt flit 2 = 1 → number.val = x.rx → 18 ≤ l.val → flit.length = 256 →
        let d := takeData l number flit s.blk
        exec (.dataFlitRow l number errs flit) s = .next (s.after (takeTxns (l.val - 18) 64 d)) ∧ (link d l).rx = (x.rx + 1) % 4096 ∧
          (link d l).nakSent = false ∧ (link d l).part = x.part ++ flit.drop 3 ∧ d.mem = s.blk.mem) ∧
      (flitOk flit = true → uncorrectableWords errs = 0 → byteAt flit 2 = 1 → number.val = x.rx → l.val < 18 →
        ∃ b : Block, exec (.dataFlitRow l number errs flit) s = .next (s.after b) ∧ (link b l).rx = (x.rx + 1) % 4096 ∧
          (link b l).nakSent = false ∧ b.mem = s.blk.mem ∧
          (x.sinceAck < 31 → (link b l).sinceAck = x.sinceAck + 1 ∧ b.out = s.blk.out) ∧
          (x.sinceAck = 31 → (link b l).sinceAck = 0 ∧ b.out = .flit l (flitBytes 2 (leBytes 2 ((x.rx + 1) % 4096))) :: s.blk.out)) ∧
      (flitOk flit = false ∨ uncorrectableWords errs ≠ 0 → x.nakSent = false →
        ∃ b : Block, exec (.dataFlitRow l number errs flit) s = .next (s.after b) ∧
          b.out = .flit l (flitBytes 3 (leBytes 2 x.rx)) :: s.blk.out ∧
          (link b l).nakSent = true ∧ (link b l).rx = x.rx ∧ b.mem = s.blk.mem) ∧
      (x.nakSent = true → (number.val ≠ x.rx ∧ byteAt flit 2 = 1) ∨ flitOk flit = false →
        ∃ b : Block, exec (.dataFlitRow l number errs flit) s = .next (s.after b) ∧ b.out = s.blk.out ∧
          (link b l).nakSent = true ∧ (link b l).rx = x.rx ∧ b.mem = s.blk.mem ∧ b.inbox = s.blk.inbox) ∧
      (flitOk flit = true → uncorrectableWords errs = 0 → byteAt flit 2 = 1 → number.val ≠ x.rx → x.nakSent = false →
        ∃ b : Block, exec (.dataFlitRow l number errs flit) s = .next (s.after b) ∧ b.out = s.blk.out ∧ (link b l).rx = x.rx ∧
          (link b l).again = (x.again || decide ((x.rx + 4096 - number.val) % 4096 ≤ replayFlits l)) ∧
          b.mem = s.blk.mem ∧ b.inbox = s.blk.inbox) ∧
      exec (.ackFlitRow l count) s = .next (s.after (takeAck l count s.blk)) ∧
      exec (.nakFlitRow l count) s = .next (s.after (replayAll l (takeAck l count s.blk))) ∧
      exec (.replayTimeoutRow l) s = .next (s.after (replayAll l s.blk)) ∧
      (x.sinceAck ≠ 0 → exec (.ackTimer l) s = .next (s.after
        (emit (.flit l (flitBytes 2 (leBytes 2 x.rx))) (setLink l { x with sinceAck := 0, again := false } s.blk))))) ∧
    (x.acked + acked ≤ x.tx → takeAck l count s.blk = pumpFlits l (setLink l { x with
      acked := x.acked + acked, replays := if acked = 0 then x.replays else 0, buffer := x.buffer.drop acked,
      unacked := x.unacked.filter (fun e => decide ((x.acked + acked) * 253 < e.1)) } s.blk)) ∧
    (x.tx < x.acked + acked → takeAck l count s.blk = s.blk) ∧
    (x.buffer = [] → replayAll l s.blk = s.blk) ∧
    (x.buffer ≠ [] →
      let again := x.buffer.foldl (fun b c => emit (.flit l (flitBytes 1 c)) b) (setLink l { x with replays := x.replays + 1 } s.blk)
      (18 ≤ l.val → replayAll l s.blk = again) ∧
      (l.val < 18 → x.replays < 15 → replayAll l s.blk = canaryAdd .replay 1 (bump (fAD_RETRY_REPLAYS l) 1 again)) ∧
      (l.val < 18 → 15 ≤ x.replays →
        replayAll l s.blk = enterRetrain l true (canaryAdd .replay 1 (bump (fAD_RETRY_REPLAYS l) 1 again))))

/-- 11 R299: a message for another device goes on with one more hop: on the bundle to its destination if there is one, else on the bundle of
its route; without a route, or past 16 hops, it is dropped and counted. 11 R295: a bundle numbers its messages one by one, and
delivers them in the order of their numbers. -/
def Sys2Proof.Claims.Forwarding : Prop :=
  ∀ (s : State) (m : Msg), m.dst ≠ devId s.blk →
    let b : Block := { s.blk with inbox := s.blk.inbox.erase m }
    (∀ p, nextHop s.blk m.dst = some p → m.hops < 16 →
      exec (.messageForward m) s = .next (s.after (sendOnBundle p { m with hops := m.hops + 1 } b)) ∧
      (bundle (sendOnBundle p { m with hops := m.hops + 1 } b) p).nextTx = ((bundle b p).nextTx + 1) % 2 ^ 32) ∧
    ((nextHop s.blk m.dst = none ∨ 16 ≤ m.hops) →
      exec (.messageForward m) s = .next (s.after (bump fGG_CNT_FWD_DROP 1 b)))

/-- 11 R288–R296: retry on a link, and forwarding.
Commands whose next state it gives, wherever its hypotheses on the state and the operands hold: dataFlitRow, ackFlitRow, nakFlitRow,
ackTimer, replayTimeoutRow, messageForward. -/
def Obligations.FlitsAndForwarding : Prop :=
  Claims.LinkRetry ∧ Claims.Forwarding

/-! ### The gang (11 R300–R309, R517) -/

/-- 11 R302, R303, R311, R517: forming a gang. JOIN keeps both regions and asks the master, again every 10 ms; PROPOSE before formation keeps
them, takes the copy, and refuses at once one that breaks rule 1 to 4 or 6; the master's PROPOSE asks for routes; CANCEL stops both. A join
request counts with the master and with no other member. Once every device has asked and has routes the master adopts generation 1; where
one has none, or does not answer, or has not asked in time, the table is refused. A device that joins adopts the tables of its master; a
member keeps a newer table, with the master's timeouts, for the decision that it follows, and one in OUT that is absent from it leaves.
Readings that the log declares as the model's: 11, 46, 76, 140. -/
def Sys2Proof.Claims.Forming : Prop :=
  ∀ (s : State) (port : Port),
    (∀ v : W32, actsNow s.blk port rGG_CTL v = true →
      let b := storeRw rGG_CTL v (granted port (rGG_CTL / 4096) s.blk)
      (v = 1 → ∀ r, gangRegions b = some r → role s.blk = 0 → exec (.join port) s = .next (s.after
        (sendGang (get s.blk fGG_JOIN_MASTER) .joinRequest (put fGG_STATE_JOINING 1 (keepRegions r b))))) ∧
      (v = 2 → ∀ r, gangRegions b = some r → (role s.blk = 0 ∨ role s.blk = 3) →
        let k := if role s.blk = 0 then keepRegions r b else b
        let p := readProposed k
        let t := put fGG_STATE_TAKEN 1 (setGang (fun g => { g with
          taken := some p.1, takenBad := p.2, nextTaken := false, routeOut := [], routeSent := false, routeBad := none }) k)
        (role s.blk = 3 → exec (.propose port) s = .next (s.after (sendRoutes t))) ∧
        (role s.blk = 0 → ∀ e, tableRule t p.1 p.2 = some e →
          exec (.propose port) s = .next (s.after (dropTaken (refuseTable e p.1 t)))) ∧
        (role s.blk = 0 → tableRule t p.1 p.2 = none → exec (.propose port) s = .next (s.after (tryForm t)))) ∧
      (v = 4 → exec (.cancel port) s = .next (s.after (dropTaken (put fGG_STATE_JOINING 0 b))))) ∧
    (isSet s.blk fGG_STATE_JOINING = true →
      exec .joinRequestTimer s = .next (s.after (sendGang (get s.blk fGG_JOIN_MASTER) .joinRequest s.blk))) ∧
    (∀ src, ((role s.blk = 1 ∨ role s.blk = 2) → exec (.joinRequest src) s = .next (s.after s.blk)) ∧
      (role s.blk ≠ 1 → role s.blk ≠ 2 → s.blk.gang.taken = none → exec (.joinRequest src) s = .next (s.after
        (setGang (fun g => { g with asked := setInsert g.asked src }) s.blk)))) ∧
    (∀ t, s.blk.gang.taken = some t → role s.blk = 0 →
      (allAsked s.blk t = false → exec .formationTimeoutRow s = .next (s.after (dropTaken (refuseTable 8 t s.blk))) ∧
        exec .gangFormationRow s = .next (s.after s.blk)) ∧
      (allAsked s.blk t = true → s.blk.gang.routeSent = true →
        (∀ d, s.blk.gang.routeBad = some d →
          exec .gangFormationRow s = .next (s.after (dropTaken (refuseTable 5 t s.blk)))) ∧
        (s.blk.gang.routeBad = none → s.blk.gang.routeOut = [] → ∃ b : Block,
          exec .gangFormationRow s = .next (s.after b) ∧ gen b = 1 ∧ role b = tblRole t (devId s.blk) ∧ isSet b fGG_STATE_TAKEN = false ∧
          b.gang.taken = none ∧ (failedIds s.blk = [] → b.gang.cur = some { t with gen := 1 }) ∧ (pitState s.blk = 0 → pitState b = 1))) ∧
      (∀ d p rest, s.blk.gang.routeOut = (d, p) :: rest → s.blk.gang.routeBad = none →
        exec .routeAnswerTimeout s = .next (s.after (dropTaken (refuseTable 5 t
          (setGang (fun g => { g with routeBad := some d, routeOut := [] }) s.blk)))))) ∧
    (∀ (src mgen epoch barrier heartbeat : Nat) (t : Tables),
      let present := (tblIds t).contains (devId s.blk)
      (present = true → role s.blk = 0 → isSet s.blk fGG_STATE_JOINING = true → src = get s.blk fGG_JOIN_MASTER → t.gen < 65536 →
        ∃ b : Block, exec (.adoptedTables src mgen epoch t barrier heartbeat) s = .next (s.after b) ∧ gen b = t.gen ∧
          role b = tblRole t (devId s.blk) ∧ isSet b fGG_STATE_JOINING = false ∧ (failedIds s.blk = [] → b.gang.cur = some t) ∧ b.gang.barrier = barrier ∧
          b.gang.heartbeat = heartbeat) ∧
      (role s.blk ≠ 0 → (src = masterId s.blk ∨ src = t.master) → mgen = gen s.blk → newer16 t.gen (gen s.blk) = true →
        let b := setGang (fun x => { x with heldGang := x.heldGang.erase (src, mgen, .tables epoch t barrier heartbeat) }) (hears src s.blk)
        (present = true ∨ pitState s.blk ≠ 6 → exec (.adoptedTables src mgen epoch t barrier heartbeat) s = .next (s.after
          (setGang (fun g => { g with next := some t, nextEpoch := epoch, nextTimes := (barrier, heartbeat), nextTaken := false }) b))) ∧
        (present = false → pitState s.blk = 6 →
          exec (.adoptedTables src mgen epoch t barrier heartbeat) s = .next (s.after (leaveGang b)))))

/-- 11 R517: a ROUTE_Q without a reserved value, from a member of this device's gang or the master that it joins, is answered by one ROUTE_A
with the first listed device to which this device has no route, or 0xFFFF; one with a reserved value is dropped and counted. A
ROUTE_A that answers an outstanding question is taken off, and a bad one is kept against its device; before formation the gang may then
form. -/
def Sys2Proof.Claims.RouteQuestions : Prop :=
  ∀ (s : State) (a : Fin 18) (m : Msg), m.cls = 5 →
    let p := m.payload
    let b : Block := { s.blk with inbox := s.blk.inbox.erase m }
    (byteAt p 0 = 0x30 → (role s.blk ≠ 0 ∨ m.src = get s.blk fGG_JOIN_MASTER) →
      let n := fieldAt p 4 2
      let bad := ((List.range n).map (fun i => fieldAt p (16 + 2 * i) 2)).find? (fun d => !hasRoute b d)
      (byteAt p 1 = 0 → zeroAt p 8 8 = true → 1 ≤ n → n ≤ 2040 → 16 + 2 * n ≤ p.length →
        exec (.routeQRow a m) s = .next (s.after (sendMsg m.src 5 0 (leBytes 1 0x31 ++ leBytes 1 (if bad.isSome then 2 else 1)
          ++ leBytes 2 (fieldAt p 2 2) ++ leBytes 2 (fieldAt p 6 2) ++ leBytes 2 (bad.getD 0xFFFF) ++ leBytes 8 0) b))) ∧
      ((byteAt p 1 ≠ 0 ∨ n = 0 ∨ 2040 < n) → exec (.routeQRow a m) s = .next (s.after (bump (fAD_RETRY_PROTO a) 1 b)))) ∧
    (byteAt p 0 = 0x31 → p.length = 16 → zeroAt p 8 8 = true → s.blk.gang.taken.isSome = true →
      fieldAt p 2 2 = copyGen s.blk → s.blk.gang.routeOut.contains (m.src, fieldAt p 4 2) = true →
      let off := setGang (fun g => { g with routeOut := g.routeOut.erase (m.src, fieldAt p 4 2) }) b
      (byteAt p 1 = 1 → exec (.routeARow a m) s = .next (s.after (if role s.blk = 0 then tryForm off else off))) ∧
      (byteAt p 1 = 2 → s.blk.gang.routeBad = none →
        let kept := setGang (fun g => { g with routeBad := some m.src }) off
        exec (.routeARow a m) s = .next (s.after (if role s.blk = 0 then tryForm kept else kept))))

/-- 11 R297–R304: how a gang forms, and its route questions.
Commands whose next state it gives, wherever its hypotheses on the state and the operands hold: join, propose, cancel, joinRequestTimer,
joinRequest, formationTimeoutRow, gangFormationRow, routeAnswerTimeout, adoptedTables, routeQRow, routeARow. -/
def Obligations.GangForms : Prop :=
  Claims.Forming ∧ Claims.RouteQuestions

/-- 11 R301: a gang-control message of an older generation is dropped and counted, and one of a newer generation is held; its sender has been
heard either way (R305, R306). Readings that the log
declares as the model's: 45. -/
def Sys2Proof.Claims.GenerationGate : Prop :=
  ∀ (s : State) (src mgen epoch dev tally grp waits barrier beat : Nat) (t : Tables), role s.blk ≠ 0 →
    ∀ (i : Instr) (g : GangMsg),
      ((i = .heartbeatRow src mgen ∧ g = .heartbeat) ∨ (i = .heartbeatAnswerRow src mgen ∧ g = .heartbeatAnswer) ∨
        (i = .failureDeclaration src mgen dev ∧ g = .declaration dev) ∨ (i = .takeoverRequestRow src mgen ∧ g = .takeoverRequest) ∨
        (i = .takeoverAckRow src mgen ∧ g = .takeoverAck) ∨
        (i = .waitReport src mgen tally grp waits ∧ g = .waitReport tally grp waits) ∨
        (i = .adoptedTables src mgen epoch t barrier beat ∧ g = .tables epoch t barrier beat)) →
      (newer16 (gen s.blk) mgen = true → exec i s = .next (s.after (bump fGG_CNT_STALE 1 (hears src s.blk)))) ∧
      (newer16 (gen s.blk) mgen = false → newer16 mgen (gen s.blk) = true → exec i s = .next (s.after
        (setGang (fun x => { x with heldGang := x.heldGang ++ [(src, mgen, g)] }) (hears src s.blk))))

/-- 11 R305–R307, 13 R358, 16 R454, R455: liveness. The master sends heartbeats and a member answers its master while SCH or RCX runs; any
message of the master ends its silence; an answer is counted and may bring the quorum back; a member that does not answer is declared failed
while quorum holds, else the gang stops. A declaration of another member is applied, one of this device puts it OUT; the deputy logs and
acknowledges the first copy. A silent master makes the deputy ask every other member to follow it, which a member does that too has heard
nothing; with a majority the deputy becomes master, without it the gang stops; without a deputy the gang is lost. Readings that the log
declares as the model's: 11, 13, 150, 154. -/
def Sys2Proof.Claims.Liveness : Prop :=
  ∀ (s : State) (src dev : Nat), role s.blk ≠ 0 →
    let got := fun (g : GangMsg) => setGang (fun x => { x with heldGang := x.heldGang.erase (src, gen s.blk, g) }) (hears src s.blk)
    (role s.blk = 3 → dispatcherRuns s.blk = true → exec .heartbeatTimerRow s = .next (s.after
      ((others s.blk).foldl (fun b d => sendGang d .heartbeat b) s.blk))) ∧
    (src = masterId s.blk →
      (dispatcherRuns s.blk = true →
        exec (.heartbeatRow src (gen s.blk)) s = .next (s.after (sendGang src .heartbeatAnswer (got .heartbeat)))) ∧
      (dispatcherRuns s.blk = false → exec (.heartbeatRow src (gen s.blk)) s = .next (s.after (got .heartbeat)))) ∧
    (s.blk.gang.cur.isSome = true → src = masterId s.blk → (hears src s.blk).gang.masterQuiet = false) ∧
    (role s.blk = 3 → (others s.blk).contains src = true →
      let b := setGang (fun g => { g with heard := setInsert g.heard src }) (got .heartbeatAnswer)
      exec (.heartbeatAnswerRow src (gen s.blk)) s = .next (s.after
        (tryDecide (if quorum b then setGang (fun g => { g with stopped := false }) b else b)))) ∧
    (role s.blk = 3 → (others s.blk).contains dev = true →
      let b := setGang (fun g => { g with heard := setErase g.heard dev }) s.blk
      (quorum b = true → exec (.heartbeatTimeoutRow dev) s = .next (s.after (declareFailed dev 2 2 b))) ∧
      (quorum b = false → exec (.heartbeatTimeoutRow dev) s = .next (s.after
        (post 0x0304 7 (heardCount b) (setGang (fun g => { g with stopped := true }) b))))) ∧
    (src = masterId s.blk → dev ≠ devId s.blk → role s.blk ≠ 2 →
      exec (.failureDeclaration src (gen s.blk) dev) s = .next (s.after (applyDeclaration src dev
        (setGang (fun g => { g with loggedDev := setErase g.loggedDev dev }) (got (.declaration dev)))))) ∧
    (src = masterId s.blk → dev ≠ devId s.blk → role s.blk = 2 → s.blk.gang.loggedDev.contains dev = false →
      exec (.failureDeclaration src (gen s.blk) dev) s = .next (s.after (sendLogAck src (stepEpoch s.blk)
        (setGang (fun g => { g with loggedDev := setInsert g.loggedDev dev }) (got (.declaration dev)))))) ∧
    (src = masterId s.blk → dev = devId s.blk → ∃ b : Block,
      exec (.failureDeclaration src (gen s.blk) dev) s = .next (s.after b) ∧ pitState b = 6 ∧ b.pit.decision = none) ∧
    (role s.blk = 2 → pitState s.blk ≠ 6 → s.blk.gang.takingOver = false → s.blk.gang.stopped = false →
      exec .masterSilenceTimeout s = .next (s.after ((others s.blk).foldl (fun b d => sendGang d .takeoverRequest b)
        (setGang (fun g => { g with masterQuiet := true, takingOver := true, acks := [] }) s.blk)))) ∧
    (role s.blk = 1 → pitState s.blk ≠ 6 → s.blk.gang.masterQuiet = false → exec .masterSilenceTimeout s = .next (s.after
      (setGang (fun g => { g with masterQuiet := true }) s.blk))) ∧
    (role s.blk = 1 → pitState s.blk ≠ 6 → s.blk.gang.masterQuiet = true → liveDeputy s.blk = none → ∃ b : Block,
      exec .masterSilenceTimeout s = .next (s.after b) ∧ pitState b = 6 ∧ b.pit.lost = true) ∧
    (s.blk.gang.masterQuiet = true → liveDeputy s.blk = some src → src ≠ masterId s.blk →
      exec (.takeoverRequestRow src (gen s.blk)) s = .next (s.after (sendGang src .takeoverAck (got .takeoverRequest)))) ∧
    (role s.blk = 2 → s.blk.gang.takingOver = true → (others s.blk).contains src = true →
      let b := setGang (fun g => { g with acks := setInsert g.acks src }) (got .takeoverAck)
      exec (.takeoverAckRow src (gen s.blk)) s = .next (s.after
        (if majority b (b.gang.acks.length + 1) then becomeMaster b else b))) ∧
    (s.blk.gang.takingOver = true → exec .takeoverTimeoutRow s = .next (s.after (post 0x0304 7 (s.blk.gang.acks.length + 1)
      (setGang (fun g => { g with takingOver := false, stopped := true }) s.blk))))

/-- 11 R301, R305–R309: the generation check, and the liveness of a gang.
Commands whose next state it gives, wherever its hypotheses on the state and the operands hold: heartbeatTimerRow, heartbeatRow,
heartbeatAnswerRow, heartbeatTimeoutRow, failureDeclaration, masterSilenceTimeout, takeoverRequestRow, takeoverAckRow, takeoverTimeoutRow. -/
def Obligations.GangLiveness : Prop :=
  Claims.GenerationGate ∧ Claims.Liveness

/-! ### Collectives (12) -/

/-- 12 R313–R316, 15 R435: a dispatched COLLECTIVE command of each KIND. A bucket ID whose generation is not newer than its last completes with
COLL_STALE; a group that does not exist or does not list this device, and a failed check, with INVALID_FIELD at the field; any other command
keeps the generation and starts its bucket. Readings that the log declares as the model's: 48, 141, 165. -/
def Sys2Proof.Claims.CollectiveDispatch : Prop :=
  ∀ (s : State) (q : Fin 512) (n : Nat) (m : Cmd), hostClear s.blk = true →
    findCmd s.blk q n = some m → m.queue = q.val → m.count = n → m.stage = .dispatched → m.cls = 0x06 →
    let kind := byteAt m.desc 0x3C % 8
    let starts := fun (out : Host.Outcome State Fault Refusal) =>
      let bid := fieldAt m.desc 0x34 2
      let g := fieldAt m.desc 0x36 2
      let run := setCmd { m with stage := .running } s.blk
      (newer16 g (mapGet 0 s.blk.lastGen bid) = false → out = .next (s.after (finishCmd q n 0x38 bid run))) ∧
      (newer16 g (mapGet 0 s.blk.lastGen bid) = true →
        (groupOf s.blk (fieldAt m.desc 0x38 2) = none → out = .next (s.after (finishCmd q n 0x10 0x38 run))) ∧
        (∀ grp, groupOf s.blk (fieldAt m.desc 0x38 2) = some grp →
          (posOf grp.drift (devId s.blk) = none → out = .next (s.after (finishCmd q n 0x10 0x38 run))) ∧
          (∀ p, posOf grp.drift (devId s.blk) = some p →
            let c := collNew s.blk m grp p
            (∀ o, collCheck c = some o → out = .next (s.after (finishCmd q n 0x10 o run))) ∧
            (collCheck c = none → out = .next (s.after (collStart c { run with lastGen := mapSet 0 s.blk.lastGen bid g }))))))
    (kind = 1 → starts (exec (.reduceScatter q n) s)) ∧ (kind = 2 → starts (exec (.allGather q n) s)) ∧
    (kind = 3 → starts (exec (.broadcast q n) s)) ∧ (kind = 4 → starts (exec (.shift q n) s))

/-- 12 R314: the shards of a bucket of E elements on a drift of n positions lie one after the other from element 0, each but the last of 32 ⌈E ÷
(32 n)⌉ elements, and cover all E. -/
def Sys2Proof.Claims.ShardsCover : Prop :=
  ∀ c : Coll, 0 < c.n →
    (c.shardSpan 0).1 = 0 ∧
    (∀ j, (c.shardSpan (j + 1)).1 = (c.shardSpan j).1 + (c.shardSpan j).2) ∧
    (∀ j, (j + 1) * shardSize c.elems c.n ≤ c.elems → (c.shardSpan j).2 = shardSize c.elems c.n) ∧
    (c.shardSpan (c.n - 1)).1 + (c.shardSpan (c.n - 1)).2 = c.elems ∧ (∀ j, c.n ≤ j → (c.shardSpan j).2 = 0) ∧
    shardSize c.elems c.n % 32 = 0

/-- 12 R313–R322: how a collective starts, and the shards it works in.
Commands whose next state it gives, wherever its hypotheses on the state and the operands hold: reduceScatter, allGather, broadcast, shift. -/
def Obligations.CollectivesStart : Prop :=
  Claims.CollectiveDispatch ∧ Claims.ShardsCover

/-- 12 R317–R320, R335–R338, R342, 11 R301: what a chunk message of this device's generation does. Where the reduction engine of its adit's half
is off nothing changes (03 R68). Else its payload bytes count on that half, once. One of an older round of its bucket counts as stale; one
of the bucket's round, with the bucket's fields, the fields that its KIND states zero, and from the position that may send it, is used: DATA
is reduced, forwarded or delivered, GRANT lets more be sent, ABORT, from a neighbour and naming the position that started it, ends the
bucket, CLOSE is forwarded by a finished position, held by another, and closes the bucket at the closer, CLOSED completes it, RESTART starts
the new round. Readings that the log declares as the model's: 23, 47, 141, 144, 166, 179. -/
def Sys2Proof.Claims.ChunkMessages : Prop :=
  ∀ (s : State) (a : Fin 18) (m : Msg) (ups : List Upset) (c : Coll), hostClear s.blk = true → m.dst = devId s.blk → m.cls = 1 → role s.blk ≠ 0 →
    m.mgen = gen s.blk →
    let h := chunkHdr m.payload
    let half := aditHalf a
    let b := redGrant half (a.val % 9) (hears m.src (takeMsg m (countRxOnce half m s.blk)))
    (∀ i : Instr, (i = .chunkDataRow a m ups ∨ i = .chunkGrantRow a m ∨ i = .chunkAbortRow a m ∨ i = .chunkClose a m ∨ i = .chunkClosed a m ∨
        i = .chunkRestart a m) → domOn s.blk (domRed half) = false → exec i s = .next (s.after s.blk)) ∧
    (domOn s.blk (domRed half) = true → crossClass half m b = none → b.colls.find? (fun x => !x.complete && x.tally % 65536 == h.tally % 65536) = some c → c.tally = h.tally → masterMarker b m = false →
    (∀ i : Instr, (i = .chunkDataRow a m ups ∨ i = .chunkGrantRow a m ∨ i = .chunkAbortRow a m ∨ i = .chunkClose a m ∨ i = .chunkClosed a m ∨
        i = .chunkRestart a m) → roundCmp c.round h.round = 1 →
      exec i s = .next (s.after (setColl { c with stale := c.stale + 1 } (countStale half b)))) ∧
    (roundCmp c.round h.round = 0 → h.zeros (c.kind == 1) = true → h.group = c.group → h.op = c.op → h.agreed = c.agreed → h.elems = c.elems →
      (h.kind = 1 → c.predOf c.pos = some h.pos → exec (.chunkDataRow a m ups) s = .next (s.after (useData half ups m c h b))) ∧
      (h.kind = 2 → c.succOf c.pos = some h.pos → exec (.chunkGrantRow a m) s = .next (s.after (pumpStore
        (let d := (h.chunk + 2 ^ 32 - c.granted % 2 ^ 32) % 2 ^ 32
         if d < 2 ^ 31 then { c with granted := c.granted + d } else c) b))) ∧
      (h.kind = 3 → h.pos < c.n → c.fromPos m ≠ none → (c.fromPos m = c.predOf c.pos ∨ c.fromPos m = c.succOf c.pos) →
        exec (.chunkAbortRow a m) s = .next (s.after (useAbort m c h b))) ∧
      (h.kind = 5 → c.prevLap = some h.pos →
        (c.pos = c.closer → c.closeSent = true →
          exec (.chunkClose a m) s = .next (s.after (lapSend c 6 (collComplete c b)))) ∧
        (c.pos ≠ c.closer → c.finished = true →
          exec (.chunkClose a m) s = .next (s.after (lapSend c 5 (setColl { c with closeSent := true, closeSeen := true } b)))) ∧
        (c.pos ≠ c.closer → c.finished = false →
          exec (.chunkClose a m) s = .next (s.after (setColl { c with closeSeen := true } b)))) ∧
      (h.kind = 6 → c.prevLap = some h.pos → exec (.chunkClosed a m) s = .next (s.after
        (let t := collComplete { c with waitVerdict := false } b
         if c.nextLap = some c.closer then t else lapSend c 6 t))) ∧
      (h.kind = 7 → c.prevLap = some h.pos → c.waitVerdict = true → exec (.chunkRestart a m) s = .next (s.after
        (restartRound c (if c.nextLap = some c.closer then b else lapSend c 7 b))))))

/-- 12 R320, R335, R337: a bucket without a message. The closer that has finished sends CLOSE, or completes when it is alone; another finished
position forwards the CLOSE that it holds; a free not yet reported is reported by a GRANT, where no verdict is awaited; a bucket that waits
for the barrier timeout raises WAIT_REPORT and reports the position it waits on, as a SCAN does that waits for a GRANT of its successor;
reports are gathered by the master, which then declares the silent ones failed, or ends the bucket where none is silent. Readings that the
log declares as the model's: 13, 77, 142, 143, 166. -/
def Sys2Proof.Claims.CollectiveTimers : Prop :=
  ∀ (s : State) (q : Fin 512) (n : Nat),
    (∀ c : Coll, collOf s.blk q n = some c → hostClear s.blk = true → c.finished = true →
      (c.pos = c.closer → c.closeSent = false → c.nextLap = none →
        exec (.collectiveFinish q n) s = .next (s.after (collComplete c s.blk))) ∧
      (c.pos = c.closer → c.closeSent = false → c.nextLap ≠ none → exec (.collectiveFinish q n) s = .next (s.after
        (lapSend c 5 (setColl { c with closeSent := true } s.blk)))) ∧
      (c.pos ≠ c.closer → c.closeSeen = true → c.closeSent = false → exec (.collectiveFinish q n) s = .next (s.after
        (lapSend c 5 (setColl { c with closeSent := true } s.blk))))) ∧
    (∀ c : Coll, collOf s.blk q n = some c → c.complete = false → c.freed ≠ c.told → c.waitVerdict = false → exec (.grantTimerRow q n) s = .next (s.after
      (setColl (grant c s.blk).1 (grant c s.blk).2))) ∧
    (∀ c : Coll, collOf s.blk q n = some c → c.complete = false → (c.sendQ = [] ∨ c.granted ≤ c.sent) →
      role s.blk ≠ 0 → exec (.barrierTimeoutRow q n) s = .next (s.after (
        let b := raise (0x14A + bucketRed s.blk) 64 s.blk
        if role b = 3 then addReport (devId b) c.tally c.group (waitsOn c) b
        else sendGang (masterId b) (.waitReport c.tally c.group (waitsOn c)) b))) ∧
    (∀ (c : Cmd) (j : Job) (d : Nat), collOf s.blk q n = none → jobCmd s.blk (some (q.val, n)) = some (c, j) → scanSucc s.blk c = some d →
      scanWaitsGrant c j = true → role s.blk ≠ 0 → exec (.barrierTimeoutRow q n) s = .next (s.after (
        let b := raise (0x14A + bucketRed s.blk) 64 s.blk
        if role b = 3 then addReport (devId b) c.scanTally c.scanGroup d b
        else sendGang (masterId b) (.waitReport c.scanTally c.scanGroup d) b))) ∧
    (∀ src tally grp waits, role s.blk = 3 → exec (.waitReport src (gen s.blk) tally grp waits) s = .next (s.after
      (addReport src tally grp waits
        (setGang (fun x => { x with heldGang := x.heldGang.erase (src, gen s.blk, .waitReport tally grp waits) })
          (hears src s.blk))))) ∧
    (∀ tally (r : Reports), role s.blk = 3 → s.blk.reports.find? (fun r => r.tally == tally) = some r →
      let b : Block := { s.blk with reports := s.blk.reports.filter (fun x => x.tally != tally) }
      let silent := ((r.got.map (fun p => p.2)).filter (fun d => !r.got.any (fun p => p.1 == d))).eraseDups
      (silent ≠ [] → exec (.waitReportGatherEnd tally) s = .next (s.after
        (declareMembers silent 4 2 b))) ∧
      (silent = [] → ∀ g, groupOf s.blk r.group = some g → exec (.waitReportGatherEnd tally) s = .next (s.after (collTimedOut tally
        ((g.drift.filter (fun d => d != devId s.blk)).foldl (fun b d => sendMsg d 1 0 (timeoutMarker b r) b) b)))))

/-- 12 R319–R338: chunk messages, and the timers of a collective.
Commands whose next state it gives, wherever its hypotheses on the state and the operands hold: chunkDataRow, chunkGrantRow, chunkAbortRow,
chunkClose, chunkClosed, chunkRestart, collectiveFinish, grantTimerRow, barrierTimeoutRow, waitReport, waitReportGatherEnd. -/
def Obligations.ChunksAndTimers : Prop :=
  Claims.ChunkMessages ∧ Claims.CollectiveTimers

/-- 08 R214–R216, 12 R334: carries of a scan along a drift. A part from the predecessor is kept, and the last part of a channel block gives its
carry, with +0 in the channels past its end; a GRANT of the successor lets the carries that are known go; an abort marker, and the barrier
timeout, end a scan whose carry is missing. Readings that the log declares as the model's: 69, 156. -/
def Sys2Proof.Claims.CarriesTravel : Prop :=
  ∀ (s : State) (a : Fin 18) (m : Msg) (c : Cmd) (j : Job), hostClear s.blk = true → m.dst = devId s.blk → m.cls = 2 →
    role s.blk ≠ 0 → m.mgen = gen s.blk →
    let h := chunkHdr m.payload
    let b := redGrant (aditHalf a) (a.val % 9) (hears m.src (takeMsg m (countRxOnce (aditHalf a) m s.blk)))
    domOn s.blk (domRed (aditHalf a)) = true → crossClass (aditHalf a) m b = none → scanByBucket b (h.tally % 65536) = some (c, j) → c.scanTally = h.tally → h.zeros false = true → h.group = c.scanGroup → h.op = 0 →
    h.agreed = 0 → h.round = 0 → h.elems = c.scanElems h.kind →
    (∀ d, scanPred b c = some d → scanPos b c d = some h.pos → c.fromDrift = true →
      (h.kind = 4 → h.shard < c.chBlocks → h.chunk < c.carryParts h.shard →
        h.count = min 1008 (c.blockCh h.shard - 1008 * h.chunk) → h.contrib = 0 → 64 + 4 * h.count ≤ m.payload.length →
        j.parts.any (fun p => p.1 == h.shard && p.2.1 == h.chunk) = false →
        let k := { j with parts := j.parts ++ [(h.shard, h.chunk, chunkWords m h.count)] }
        (assemble c k h.shard = none → exec (.chunkCarryRow a m) s = .next (s.after (setJob k b))) ∧
        (∀ ws, assemble c k h.shard = some ws → 
          let full := some (ws ++ List.replicate (256 * c.chTiles - ws.length) (0#32, false))
          exec (.chunkCarryRow a m) s = .next (s.after (setJob { k with carries := mapSet none j.carries (h.shard * c.segments) full } b)))) ∧
      (h.kind = 3 → ∀ i, missingBlock c j = some i →
        exec (.chunkAbortRow a m) s = .next (s.after (abortTask c.queue c.count 0x31 i b)))) ∧
    (∀ d, scanSucc b c = some d → scanPos b c d = some h.pos → c.toDrift = true → h.kind = 2 →
      exec (.chunkGrantRow a m) s = .next (s.after
        (pumpCarry c.queue c.count (setJob { j with granted := max j.granted h.chunk } b))))

/-- 08 R216: no carry by the barrier timeout ends the scan with SCAN_CARRY_TIMEOUT at its missing channel block, and the master is told whom it
waits on; the master takes its own report. Readings that the log declares as the model's: 13, 70. -/
def Sys2Proof.Claims.ScanTimesOut : Prop :=
  ∀ (s : State) (q : Fin 512) (n i d : Nat) (c : Cmd) (j : Job), jobCmd s.blk (some (q.val, n)) = some (c, j) →
    c.fromDrift = true → missingBlock c j = some i → scanPred s.blk c = some d →
    exec (.scanCarryTimeout q n) s = .next (s.after (
      let b := abortTask q n 0x30 i s.blk
      if role b = 0 then b
      else
        let b := raise (0x14A + bucketRed b) 64 b
        if role b = 3 then addReport (devId b) c.scanTally c.scanGroup d b
        else sendGang (masterId b) (.waitReport c.scanTally c.scanGroup d) b))

/-- 08 R212–R216: the carries of a scan, and its timeouts.
Commands whose next state it gives, wherever its hypotheses on the state and the operands hold: chunkCarryRow, chunkAbortRow, chunkGrantRow,
scanCarryTimeout. -/
def Obligations.ScanCarries : Prop :=
  Claims.CarriesTravel ∧ Claims.ScanTimesOut

/-! ### The training step (13 R345–R362) -/

/-- 13 R345–R351, 14 R387: a PITHEAD command that runs. One that is READY waits while a securing streams. Outside a gang, or for another context
than the step context, it is decided and applied at once. Of a member that is OUT it completes excluded or lost; under a decision that has
come it waits for that; else this member's vote is sent, READY only if the step is clean, and SECURE if the command, the canary, the
interval or a failed securing asks for it. Readings that the log declares as the model's: 74, 75.
Commands whose next state it gives, wherever its hypotheses on the state and the operands hold: pithead. -/
def Obligations.PitheadVotes : Prop :=
  ∀ (s : State) (q : Fin 512) (n : Nat) (m : Cmd), hostClear s.blk = true → findCmd s.blk q n = some m → m.active = true →
    m.cls = 0x07 →
    let ready := byteAt m.desc 0x14 == 1 && !s.blk.pit.dirty.contains m.ctx
    let req := (byteAt m.desc 0x15).testBit 0
    let c := { m with stage := .running }
    let asks := fun (b : Block) => if req then setPit (fun p => { p with secureAsked := setInsert p.secureAsked m.ctx }) b else b
    let alone := asks (setCmd c s.blk)
    let mine := asks (setPit (fun p => { p with running := some (q.val, n) }) (setCmd c s.blk))
    ((m.ctx ≠ stepCtx s.blk ∨ role s.blk = 0) →
      ((ready = false ∨ s.blk.securing = none) → exec (.pithead q n) s = .next (s.after (localPit c ready req alone))) ∧
      (ready = true → s.blk.securing.isSome = true → exec (.pithead q n) s = .next (s.after alone))) ∧
    (m.ctx = stepCtx s.blk → role s.blk ≠ 0 →
      (pitState s.blk = 6 → exec (.pithead q n) s = .next (s.after
        (finishPit c (if s.blk.pit.lost then 0x43 else 0x42) 0 (ctxEpoch mine m.ctx) none false false mine))) ∧
      (pitState s.blk ≠ 6 → s.blk.pit.decision.isSome = true → exec (.pithead q n) s = .next (s.after mine)) ∧
      (pitState s.blk ≠ 6 → s.blk.pit.decision = none →
        (ready = true → s.blk.securing.isSome = true → exec (.pithead q n) s = .next (s.after mine)) ∧
        ((ready = false ∨ s.blk.securing = none) → s.blk.pit.voted = none → exec (.pithead q n) s = .next (s.after
          (sendVote ready (req || secureDue m.ctx mine) (byteAt m.desc 0x14 == 2) mine))) ∧
        (s.blk.pit.voted ≠ none → exec (.pithead q n) s = .next (s.after mine))))

/-- 13 R352, R355: votes at the master. A vote of its epoch of an ACTIVE member that has not voted is counted and may decide; one of the next
epoch that comes after the decision waits; one of another epoch declares its member failed. Where the barrier timeout ends the collection
every ACTIVE member without a vote is declared failed, all of them before the one decision that follows, if the master has quorum; where
only the master's own vote is missing the decision is ABORT. The master decides only with quorum, and while SCH or RCX runs: ABORT on a
failed member or a NOT_READY vote, COMMIT once every ACTIVE member has voted READY. A vote with a reserved value is dropped and counted.
Readings that the log declares as the model's: 145, 150, 167.
Commands whose next state it gives, wherever its hypotheses on the state and the operands hold: vote, voteBarrierTimeout. -/
def Obligations.VotesDecide : Prop :=
  ∀ (s : State) (a : Fin 18) (m : Msg), role s.blk = 3 → m.cls = 5 → byteAt m.payload 0 = 0x10 →
    let p := m.payload
    let v : Vote := ⟨fieldAt p 8 2, byteAt p 1 == 1, (byteAt p 2).testBit 0, (byteAt p 2).testBit 2, fieldAt p 4 4⟩
    let ok := pitOk m (fun v => v == 1 || v == 2) false false
    let b := hears m.src (takeMsg m s.blk)
    (ok = false → exec (.vote a m) s = .next (s.after (bump (fAD_RETRY_PROTO a) 1 (takeMsg m s.blk)))) ∧
    (∀ t, ok = true → m.mgen = gen s.blk → s.blk.gang.cur = some t → (tblActive t).contains v.dev = true →
      s.blk.gang.votes.any (fun x => x.dev == v.dev && x.epoch == v.epoch) = false →
      let kept := setGang (fun g => { g with votes := g.votes ++ [v] }) b
      (collecting s.blk = true → v.epoch = stepEpoch s.blk → exec (.vote a m) s = .next (s.after (tryDecide (put fGG_PIT_MSTATE 1
        (put fGG_PIT_VOTES ((kept.gang.votes.filter (fun x => x.epoch == stepEpoch s.blk)).length) kept))))) ∧
      (collecting s.blk = false → v.epoch = (stepEpoch s.blk + 1) % 2 ^ 32 → exec (.vote a m) s = .next (s.after kept)) ∧
      (collecting s.blk = true → v.epoch ≠ stepEpoch s.blk →
        exec (.vote a m) s = .next (s.after (declareFailed v.dev 3 4 b)))) ∧
    (∀ t, collecting s.blk = true → s.blk.gang.votes.any (fun v => v.epoch == stepEpoch s.blk) = true → s.blk.gang.cur = some t →
      let voted := fun (d : Nat) => s.blk.gang.votes.any (fun v => v.dev == d && v.epoch == stepEpoch s.blk)
      let missing := (tblActive t).filter (fun d => d != devId s.blk && !voted d)
      (missing ≠ [] → exec .voteBarrierTimeout s = .next (s.after (declareMembers missing 1 2 s.blk))) ∧
      (missing = [] → voted (devId s.blk) = false → quorum s.blk = true → dispatcherRuns s.blk = true →
        exec .voteBarrierTimeout s = .next (s.after (decideStep false 2 (devId s.blk) false s.blk)))) ∧
    (∀ t ds cause why, s.blk.gang.cur = some t → ds ≠ [] → (∀ d ∈ ds, d ∈ tblActive t) →
      (quorum s.blk = false → declareMembers ds cause why s.blk = quorumLost (heardCount s.blk) s.blk) ∧
      (quorum s.blk = true → declareMembers ds cause why s.blk =
        tryDecide (ds.foldl (fun b d => declareMember d cause why b) s.blk))) ∧
    (quorum s.blk = true → collecting s.blk = true → dispatcherRuns s.blk = true →
      let vs := s.blk.gang.votes.filter (fun v => v.epoch == stepEpoch s.blk)
      (∀ d why rest, s.blk.gang.failedNow = (d, why) :: rest → tryDecide s.blk = decideStep false why d false s.blk) ∧
      (∀ v, s.blk.gang.failedNow = [] → vs.find? (fun v => !v.ready) = some v →
        tryDecide s.blk = decideStep false 1 v.dev v.host s.blk) ∧
      (∀ t, s.blk.gang.failedNow = [] → vs.find? (fun v => !v.ready) = none → s.blk.gang.cur = some t →
        ((tblActive t).all (fun d => vs.any (fun v => v.dev == d)) = true → tryDecide s.blk = decideStep true 0 0xFFFF false s.blk) ∧
        ((tblActive t).all (fun d => vs.any (fun v => v.dev == d)) = false → tryDecide s.blk = s.blk))) ∧
    ((quorum s.blk = false ∨ dispatcherRuns s.blk = false) → tryDecide s.blk = s.blk)

/-- 13 R353–R357: the decision on its way. The deputy's acknowledgement logs the oldest item that waits for it; a deputy that does not
acknowledge is declared failed while quorum holds, and nothing waits for it any more. A decision that comes from the master makes the deputy
log and acknowledge its first copy; any other member holds it for its own epoch, a COMMIT only after its own READY, and is COMMITTING or
ABORTING. Readings that the log declares as the model's: 11, 71. -/
def Sys2Proof.Claims.DecisionMessages : Prop :=
  ∀ (s : State) (a : Fin 18) (m : Msg), role s.blk ≠ 0 → m.cls = 5 → m.mgen = gen s.blk →
    let b := hears m.src (takeMsg m s.blk)
    (byteAt m.payload 0 = 0x12 → pitOk m (fun v => v == 0) false false = true → role s.blk = 3 → liveDeputy s.blk = some m.src →
      ∀ i rest, s.blk.gang.toLog = i :: rest →
        exec (.logAck a m) s = .next (s.after (logged i (setGang (fun g => { g with toLog := rest }) b)))) ∧
    (role s.blk = 3 → s.blk.gang.toLog ≠ [] → liveDeputy s.blk ≠ none →
      (quorum s.blk = false → exec .logAckTimeoutRow s = .next (s.after (post 0x0304 7 (heardCount s.blk)
        (setGang (fun g => { g with stopped := true }) s.blk)))) ∧
      (quorum s.blk = true → ∃ t : Block, exec .logAckTimeoutRow s = .next (s.after t) ∧ t.gang.toLog = [])) ∧
    (byteAt m.payload 0 = 0x11 → pitOk m (fun v => v == 1 || v == 2) true true = true → m.src = masterId s.blk →
      let d := payloadDecision b m.payload
      (role s.blk = 2 → s.blk.gang.logged = none → exec (.decision a m) s = .next (s.after
        (sendLogAck m.src d.epoch (setGang (fun g => { g with logged := some d, loggedDone := false }) b)))) ∧
      let b := setGang (fun g => { g with loggedDone := g.loggedDone || (match g.logged with
        | some l => l.same d
        | none => false) }) b
      (role s.blk ≠ 2 → pitState s.blk ≠ 6 → s.blk.pit.decision = none → d.epoch = stepEpoch s.blk → appliedBefore s.blk d = false →
        (d.commit = false → exec (.decision a m) s = .next (s.after
          (put fGG_PIT_STATE 5 (setPit (fun p => { p with decision := some d }) b)))) ∧
        (d.commit = true → runningPit s.blk ≠ none → s.blk.pit.voted = some true → exec (.decision a m) s = .next (s.after
          (put fGG_PIT_STATE 4 (setPit (fun p => { p with decision := some d }) b)))) ∧
        (d.commit = true → (runningPit s.blk = none ∨ s.blk.pit.voted ≠ some true) →
          exec (.decision a m) s = .next (s.after b))))

/-- 13 R356, R357, R361: applying a decision that changes no generation. COMMIT moves the context's epoch on by one, counts and may capture a
securing, completes the PITHEAD with OK and leaves the member OPEN with LAST 1; an error that met it is the first of the next step. ABORT,
once no command of the step context runs, completes it with PITHEAD_ABORTED and the cause, the epoch as it was, or is owed to a PITHEAD that
has not come, commands ahead of it in its queue being aborted; the context's queues stop and LAST is 2. Readings that the log declares as
the model's: 73, 74, 147, 150. -/
def Sys2Proof.Claims.DecisionsApply : Prop :=
  ∀ (s : State) (d : Decision), hostClear s.blk = true → s.blk.pit.decision = some d → d.newGen = gen s.blk →
    dispatcherRuns s.blk = true →
    (∀ c, d.commit = true → runningPit s.blk = some c →
      let w := commitSecure c.ctx d.secure (commitEpoch c.ctx s.blk)
      exec .commitApplyRow s = .next (s.after (lateError c.ctx (reopen true d.epoch false
        (finishPit c 0 0 (ctxEpoch w.2 c.ctx) (some { d with applied := now w.2 }) w.1 false w.2)))) ∧
      ctxEpoch (commitEpoch c.ctx s.blk) c.ctx = (ctxEpoch s.blk c.ctx + 1) % 2 ^ 32 ∧
      (∀ x, x ≠ c.ctx → ctxEpoch (commitEpoch c.ctx s.blk) x = ctxEpoch s.blk x)) ∧
    (d.commit = false → stepRunning s.blk = false →
      let e := abortEpoch (stepCtx s.blk) s.blk
      let x := { d with applied := now s.blk }
      let stays := setGang (fun g => { g with left := false })
      ctxEpoch e (stepCtx s.blk) = stepEpoch s.blk ∧
      (∀ c, runningPit s.blk = some c →
        let t := finishPit c 0x41 d.cause (stepEpoch s.blk) (some x) false false e
        exec .abortApplyRow s = .next (s.after (stays (reopen false d.epoch t.pit.owed.isSome (stopContext (stepCtx s.blk) t))))) ∧
      (s.blk.pit.running = none → exec .abortApplyRow s = .next (s.after
        (let t := match waitingPit e d.epoch with
          | some p => abortAhead p e
          | none => e
        stays (reopen false d.epoch true (stopContext (stepCtx s.blk)
          (setPit (fun p => { p with owed := some d.epoch, owedInfo := some x }) t))))))) ∧
    (role s.blk ≠ 3 → ∀ commit e keep, pitState (reopen commit e keep s.blk) = 1 ∧
      get (reopen commit e keep s.blk) fGG_PIT_LAST = (if commit then 1 else 2) ∧
      (reopen commit e keep s.blk).pit.decision = none ∧ (reopen commit e keep s.blk).pit.done = s.blk.pit.decision ∧ (reopen commit e keep s.blk).pit.running = none ∧
      (reopen commit e keep s.blk).pit.voted = none)

/-- 13 R350–R358: how a decision travels and is applied.
Commands whose next state it gives, wherever its hypotheses on the state and the operands hold: logAck, logAckTimeoutRow, decision,
commitApplyRow, abortApplyRow. -/
def Obligations.DecisionsTravel : Prop :=
  Claims.DecisionMessages ∧ Claims.DecisionsApply

/-! ### Securing, restoring and failed units (14) -/

/-- 14 R386, R388, R401: a securing under way. Its next section is read, hashed and sent to the targets it has; a section that cannot be read or
is poisoned fails it. After the last one the keep holder gets the table. When all are sent and acknowledged the table and then the header go
last, and the record is complete: SINCE and REQUEST clear, SEQ and EPOCH are its own. A failure that is reported ends the target or, with
none left, the attempt, and a slot that the keep holder refuses is not the one the next attempt writes. Readings that the log declares as
the model's: 80, 81, 86, 146.
Commands whose next state it gives, wherever its hypotheses on the state and the operands hold: securingStream, securingComplete,
securingFailure. -/
def Obligations.Securings : Prop :=
  ∀ (s : State) (w : Securing), hostClear s.blk = true → s.blk.securing = some w →
    (∀ (x : Section) (delays : Bool), w.sections[w.next]? = some x →
      let r : Except Xlat VRead := if 3 ≤ x.typ then .ok ⟨x.data, []⟩ else vRead s.blk w.ctx x.va x.bytes
      (∀ e, r = .error e → exec (.securingStream delays) s = .next (s.after (secureFail 4 w.target w.epoch s.blk))) ∧
      (∀ v, r = .ok v → v.bad = true → exec (.securingStream delays) s = .next (s.after (secureFail 3 w.target w.epoch s.blk))) ∧
      (∀ v, r = .ok v → v.bad = false →
        let w' : Securing := { w with
          sections := w.sections.set w.next { x with digest := sectionDigest x.typ x.id x.blk w.epoch v.bytes }
          next := w.next + 1
          yielded := w.yielded || delays }
        let off := sectionOffset w.sections w.next
        let b0 : Block := { s.blk with securing := some w' }
        let b1 := if delays = true ∧ w.yielded = false then yieldGuarantee 7 5 3 0x12 b0 else b0
        let b2 := match w.holder with
          | some h => if w.peer then sendGang h (.keepWrite w.peerSlot off v.bytes) b1 else b1
          | none => b1
        let b3 := hostWrite off v.bytes w' b2
        (w'.next < w.sections.length → exec (.securingStream delays) s = .next (s.after b3)) ∧
        (w'.next = w.sections.length → (b3.securing = none ∨ w.holder = none) →
          exec (.securingStream delays) s = .next (s.after b3)) ∧
        (∀ y h, w'.next = w.sections.length → b3.securing = some y → w.holder = some h →
          let table := recordHeader b3 y true ++ sectionTable y.sections
          exec (.securingStream delays) s = .next (s.after
            (sendGang h (if y.peer then .keepTable y.peerSlot table else .ledgerTable y.hostSlot table) b3))))) ∧
    (∀ (peerAck ledgerAck : Bool), w.next = w.sections.length → (w.holder = none ∨ ledgerAck = true) →
      let b1 := hostWrite 0x100 (sectionTable w.sections) w s.blk
      ∀ w1, b1.securing = some w1 →
        let b2 := hostWrite 0 (recordHeader b1 w1 true) w1 b1
        ∀ w2, b2.securing = some w2 → (w2.host = true ∨ (w2.peer = true ∧ peerAck = true)) →
          ∃ b : Block, exec (.securingComplete peerAck ledgerAck) s = .next (s.after b) ∧ b.securing = none ∧ b.secFailed = false ∧
            get b fGG_SECURE_STAT_STATE = 0 ∧ get b fGG_SECURE_STAT_SINCE = 0 ∧ get b fGG_CANARY_REQUEST = 0 ∧
            get b fGG_SECURE_SEQ_SEQ = w2.seq % 2 ^ 32 ∧ get b fGG_SECURE_EPOCH_EPOCH = w2.epoch % 2 ^ 32 ∧ b.mem = b2.mem ∧
            bit (rd b (rBLK_EVT_RAW (pageBase 7))) 5 = true) ∧
    (∀ (cause target : Nat) (refused : Bool), 1 ≤ cause → cause ≤ 6 →
      let b := if refused ∧ w.peer then { s.blk with peerSlot := 1 - w.peerSlot } else s.blk
      (target = 1 → w.host = true → exec (.securingFailure cause target refused) s = .next (s.after (targetFail cause true w s.blk))) ∧
      (target = 2 → w.peer = true → exec (.securingFailure cause target refused) s = .next (s.after (targetFail cause false w b))) ∧
      (target = 3 → exec (.securingFailure cause target refused) s = .next (s.after (secureFail cause w.target w.epoch b))))

/-- 14 R383: a keep holder takes the pieces of a peer's record into the slot that does not hold the newest complete record, its header last,
with the ledger's copy, and then acknowledges; it refuses any piece for a slot that another device writes, that holds the newest complete
record or that is not HBM it can reach (TARGET), a piece that the slot has no room for (SIZE), and a section table that its ledger has no room
for (SPACE); it keeps the table of a record kept elsewhere. Readings that the log declares as the model's: 11, 27. -/
def Sys2Proof.Claims.KeepHolder : Prop :=
  ∀ (s : State) (src off : Nat) (slot : Fin 2) (data : List Byte),
    let p := keepSlot s.blk slot
    let writer := mapGet 0 s.blk.keepWriter slot
    let newest := newestSlot (memBytes s.blk (keepSlot s.blk 0).1 256) (memBytes s.blk (keepSlot s.blk 1).1 256)
    let there := targetReachable s.blk p.1 && decide (rangeOf p.1 = .hbm)
    let mine := writer = src + 1 ∨ (writer = 0 ∧ newest ≠ some slot.val)
    let refused := fun (part : KeepPart) (cause : Nat) =>
      exec (.keepRecordReceive src slot off part data) s = .next (s.after (sendGang src (.keepRefuse slot cause) s.blk))
    ((writer ≠ 0 ∧ writer ≠ src + 1) ∨ (writer = 0 ∧ newest = some slot.val) ∨ there = false → refused .piece 1 ∧ refused .table 1) ∧
    (mine → there = true → p.2 < off + data.length → refused .piece 2 ∧ refused .table 2) ∧
    (there = true → off + data.length ≤ p.2 →
      (writer = src + 1 → exec (.keepRecordReceive src slot off .piece data) s = .next (s.after (memWrite (p.1 + off) data
        { s.blk with keepWriter := mapSet 0 s.blk.keepWriter slot (src + 1) }))) ∧
      (writer = 0 → newest ≠ some slot.val → exec (.keepRecordReceive src slot off .piece data) s = .next (s.after
        (let b := memWrite p.1 (List.replicate 256 0#8) s.blk
         memWrite (p.1 + off) data { b with keepWriter := mapSet 0 b.keepWriter slot (src + 1) }))) ∧
      (mine → ledgerFits s.blk slot data.length = false → refused .table 5) ∧
      (mine → ledgerFits s.blk slot data.length = true → exec (.keepRecordReceive src slot off .table data) s = .next (s.after
        (let b := memWrite p.1 (data.take 256) (memWrite (p.1 + 0x100) (data.drop 256) s.blk)
         sendGang src (.keepAck slot) { b with
           keepWriter := mapErase b.keepWriter slot, ledger := mapSet [] b.ledger slot data })))) ∧
    (ledgerFits s.blk slot data.length = false → refused .ledger 5) ∧
    (ledgerFits s.blk slot data.length = true → exec (.keepRecordReceive src slot off .ledger data) s = .next (s.after
      (sendGang src (.keepAck slot) { s.blk with ledger := mapSet [] s.blk.ledger slot data })))

/-- 15 R428, 14 R379, R395: SECURE completes when the securing is idle, with SECURE_FAILED and its cause where the last attempt failed; the
canary writes its points and its score; a digest request is answered from the live copy, else from the ledger, else with none. Readings that
the log declares as the model's: 29. -/
def Sys2Proof.Claims.SecureCanaryDigest : Prop :=
  ∀ (s : State) (q : Fin 512) (n : Nat) (m : Cmd) (g : Msg), hostClear s.blk = true →
    (findCmd s.blk q n = some m → m.active = true → m.cls = 0x08 →
      let b := setCmd { m with stage := .running } s.blk
      (get s.blk fGG_SECURE_STAT_STATE ≠ 0 → exec (.secure q n) s = .next (s.after b)) ∧
      (get s.blk fGG_SECURE_STAT_STATE = 0 → exec (.secure q n) s = .next (s.after
        (if s.blk.secFailed then finishCmd q n 0x1A (get s.blk fGG_SECURE_STAT_CAUSE) b else finishCmd q n 0 0 b)))) ∧
    (∃ b : Block, exec .canaryUpdateRow s = .next (s.after b) ∧ get b fGG_CANARY_SCORE = canaryScore s.blk ∧
      canaryScore s.blk ≤ 255 ∧ (get s.blk fGG_CANARY_REPLACE ≠ 0 → canaryScore s.blk = 255) ∧
      rd b rGG_CANARY_IN0 = fourBytes ((canaryPoints s.blk).take 4) ∧ rd b rGG_CANARY_IN1 = fourBytes ((canaryPoints s.blk).drop 4) ∧
      b.mem = s.blk.mem) ∧
    (g.cls = 5 → byteAt g.payload 0 = 0x20 → role s.blk ≠ 0 → g.mgen = gen s.blk →
      let p := g.payload
      let id := fieldAt p 2 2
      let blk := fieldAt p 4 4
      let e := fieldAt p 8 4
      let dev := fieldAt p 12 2
      let typ := byteAt p 14
      let answer := fun (source : Nat) (d : List Byte) => exec (.digestReqRow g) s = .next (s.after
        (sendMsg g.src 5 0 (digestPayload 0x21 source id blk e dev typ d) (hears g.src (takeMsg g s.blk))))
      (∀ x d, liveDigest s.blk typ id blk e = some (x :: d) → answer 1 (x :: d)) ∧
      (liveDigest s.blk typ id blk e = some [] → answer 0 []) ∧
      (∀ d, liveDigest s.blk typ id blk e = none → ledgerDigest s.blk typ id blk e dev = some d → answer 2 d) ∧
      (liveDigest s.blk typ id blk e = none → ledgerDigest s.blk typ id blk e dev = none → answer 0 []))

/-- 14 R378–R394: kept sections, and the canary, the digest and the timers of a securing.
Commands whose next state it gives, wherever its hypotheses on the state and the operands hold: keepRecordReceive, secure, canaryUpdateRow,
digestReqRow. -/
def Obligations.SecuringService : Prop :=
  Claims.KeepHolder ∧ Claims.SecureCanaryDigest

/-- 14 R392–R396: a RESTORE command of the step context. Its remote source is asked once, and while it has not delivered the command waits; a
source that is absent or poisoned, or that does not answer in time, completes it with RESTORE_SOURCE, a record that fails its checks with
RESTORE_RECORD; a record that passes is applied, and each section verified; a digest that does not agree, or does not come, completes it
with RESTORE_DIGEST. Readings that the log declares as the model's: 82, 148.
Commands whose next state it gives, wherever its hypotheses on the state and the operands hold: restore, restoreBarrierTimeout,
digestAnsRow. -/
def Obligations.Restores : Prop :=
  ∀ (s : State) (q : Fin 512) (n : Nat) (m : Cmd), hostClear s.blk = true → findCmd s.blk q n = some m → m.cls = 0x09 →
    let c := { m with stage := .running }
    let b := setCmd c (if m.stage = .dispatched ∧ m.rsrc ≠ 1 then
      sendGang (fieldAt m.desc 0x18 2) (.restoreRequest (m.rsrc == 3) (fieldAt m.desc 0x20 2) m.repoch) s.blk else s.blk)
    let none' : Restoring := ⟨q, n, [], [], 0, [], 0, 0⟩
    (m.active = true → s.blk.restoring = none →
      (∀ o data, restoreCheck s.blk m = some o →
        exec (.restore q n data) s = .next (s.after (finishCmd q n 0x10 (invalidDetail 0 o) s.blk))) ∧
      (restoreCheck s.blk m = none → m.rsrc ≠ 1 →
        exec (.restore q n .waiting) s = .next (s.after b) ∧
        exec (.restore q n .absent) s = .next (s.after (failRestore c 0x53 0 none' b)) ∧
        (m.rsrc = 2 → ∀ bs, exec (.restore q n (.record bs true)) s = .next (s.after (failRestore c 0x53 0 none' b)) ∧
          (recordOk m bs = false → exec (.restore q n (.record bs false)) s = .next (s.after (failRestore c 0x50 0 none' b))) ∧
          (recordOk m bs = true → exec (.restore q n (.record bs false)) s = .next (s.after (restoreData c bs none b)))) ∧
        (m.rsrc = 3 → ∀ bs, exec (.restore q n (.blocks m.repoch bs true)) s = .next (s.after (failRestore c 0x53 0 none' b)) ∧
          exec (.restore q n (.blocks m.repoch bs false)) s = .next (s.after (restoreData c [] (some bs) b)) ∧
          (∀ e pois, e ≠ m.repoch →
            exec (.restore q n (.blocks e bs pois)) s = .next (s.after (finishCmd q n 0x10 (invalidDetail 0 0x24) b))))) ∧
      (restoreCheck s.blk m = none → m.rsrc = 1 → ∀ data,
        (recordInMemory b c = none → exec (.restore q n data) s = .next (s.after (failRestore c 0x13 0x10 none' b))) ∧
        (∀ v, recordInMemory b c = some v → v.bad = true → exec (.restore q n data) s = .next (s.after (failRestore c 0x53 0 none' b))) ∧
        (∀ v, recordInMemory b c = some v → v.bad = false → recordOk m v.bytes = false →
          exec (.restore q n data) s = .next (s.after (failRestore c 0x50 0 none' b))) ∧
        (∀ v, recordInMemory b c = some v → v.bad = false → recordOk m v.bytes = true →
          exec (.restore q n data) s = .next (s.after (restoreData c v.bytes none b))))) ∧
    (m.stage = .running → s.blk.restoring = none → exec (.restoreBarrierTimeout q n) s = .next (s.after (failRestore m 0x53 0 none' s.blk))) ∧
    (m.stage = .running → ∀ r, s.blk.restoring = some r → exec (.restoreBarrierTimeout q n) s = .next (s.after
      (endRestore m 0x52 (r.numbers.getD r.verified 0) 0 0xFFFF (r.numbers.getD r.verified 0) r s.blk))) ∧
    (∀ (r : Restoring) (x : Section) (g : Msg), s.blk.restoring = some r → r.queue = q.val → r.count = n → r.sections[r.verified]? = some x →
      g.cls = 5 → byteAt g.payload 0 = 0x21 → role s.blk ≠ 0 → g.mgen = gen s.blk → g.src = m.digestDev →
      fieldAt g.payload 2 2 = x.id → fieldAt g.payload 4 4 = x.blk → byteAt g.payload 14 = x.typ →
      let t := hears g.src (takeMsg g s.blk)
      let num := r.numbers.getD r.verified 0
      (byteAt g.payload 1 = 0 → exec (.digestAnsRow g) s = .next (s.after (endRestore m 0x52 num 0 0xFFFF num r t))) ∧
      (∀ v, byteAt g.payload 1 ≠ 0 → vRead s.blk m.ctx x.va x.bytes = .ok v → v.bad = false →
        (g.payload.drop 0x20).take 32 = sectionDigest x.typ x.id x.blk m.repoch v.bytes →
        exec (.digestAnsRow g) s = .next (s.after (restoreVerify (r.sections.length + 1) m { r with verified := r.verified + 1 } t))))

/-- 14 R373–R375: RETIRE of a cluster that no command uses retires it: its domain goes off, its SRAM is lost, CLUSTERS falls by one, the cause
is 1; one that a command uses waits; a cluster that is retired is not touched. A failure, whose domain is FAILED, also aborts every command
that uses the cluster with ABORTED_CLUSTER and marks it FAILED. Readings that the log declares as the model's: 153.
Commands whose next state it gives, wherever its hypotheses on the state and the operands hold: retire, clusterFailure. -/
def Obligations.ClustersRetire : Prop :=
  ∀ (s : State) (c : Fin 32) (port : Port) (cause : Nat),
    (actsNowNat s.blk port (rCL_RETIRE c) 1 = true →
      let b := storeRw (rCL_RETIRE c) 1 (granted port (rCL_RETIRE c / 4096) s.blk)
      (isSet s.blk (fBLK_STAT_RETIRED (clBase c)) = true → exec (.retire port c) s = .next (s.after b)) ∧
      (isSet s.blk (fBLK_STAT_RETIRED (clBase c)) = false → clusterSafe s.blk c = true →
        exec (.retire port c) s = .next (s.after (retireCluster c 1 false b))) ∧
      (isSet s.blk (fBLK_STAT_RETIRED (clBase c)) = false → clusterSafe s.blk c = false → exec (.retire port c) s = .next (s.after
        { b with txn := { b.txn with singles := b.txn.singles ++ [(rCL_RETIRE c, 1, port)] } }))) ∧
    exec (.clusterFailure c cause) s = .next (s.after (retireCluster c cause true (abortWhere (fun m => m.mask.testBit c) 0x22 c s.blk))) ∧
    (∀ failed, isSet s.blk (fBLK_STAT_RETIRED (clBase c)) = false → dom s.blk c ≠ 3 → 1 ≤ get s.blk fDEV_BLK_CAP_CLUSTERS →
      get s.blk fDEV_BLK_CAP_CLUSTERS ≤ 32 →
      let t := retireCluster c cause failed s.blk
      isSet t (fBLK_STAT_RETIRED (clBase c)) = true ∧ dom t c = (if failed then 3 else 0) ∧
      get t fDEV_BLK_CAP_CLUSTERS = get s.blk fDEV_BLK_CAP_CLUSTERS - 1 ∧ get t (fCL_RETIRE_CAUSE c) = cause % 2 ^ ((fCL_RETIRE_CAUSE c).msb + 1 - (fCL_RETIRE_CAUSE c).lsb) ∧
      (∀ a, clusterSram c ≤ a → a < clusterSram c + 0xC00000 → memByte t a = 0))

/-! ### Queues and commands (15 R417–R435, 16 R446–R452) -/

/-- 15 R418–R420: a queue's registers. TAIL is kept, and wakes a device in A1 or A2 (17 R481); ENABLE of a DISABLED queue makes it RUNNING with
DISP_SEQ one below NEXT_SEQ; ENABLE = 0
makes it DISABLED, with what was fetched and not dispatched no longer fetched; RESUME of a STOPPED queue makes it RUNNING; DISCARD completes
what is not dispatched with DISCARDED, moves HEAD to TAIL and makes it RUNNING. A one-register write comes after an epoch flip that is due
(01 R31). Readings that the log declares as the model's: 28,
36, 37.
Commands whose next state it gives, wherever its hypotheses on the state and the operands hold: sqTail, sqEnable, sqResume, sqDiscard. -/
def Obligations.QueueControl : Prop :=
  ∀ (s : State) (q : Fin 512) (port : Port),
    let b := granted port (0x400 + q.val) s.blk
    (∀ v, actsNow s.blk port (rSQ_TAIL q) v = true →
      exec (.sqTail port q v) s = .next (s.after (wake (storeRw (rSQ_TAIL q) v b)))) ∧
    let f := fun (v : W32) => if actsNow s.blk port (rSQ_CTL q) v = true then b else flipFirst [0x400 + q.val] b
    (actsSafely s.blk port (rSQ_CTL q) 1 = true → qState (f 1) q = 0 → enableMay (f 1) q true = true →
      exec (.sqEnable port q true) s = .next (s.after (put (fSQ_STAT_STATE q) 1 (put (fSQ_CTL_ENABLE q) 1 (setQueue q
        ⟨(get (f 1) (fSQ_SEQ_NEXT_SEQ q) + 2 ^ 32 - 1) % 2 ^ 32, get (f 1) (fSQ_HEAD_HEAD q)⟩ (f 1)))))) ∧
    (actsSafely s.blk port (rSQ_CTL q) 0 = true → qState (f 0) q ≠ 0 → enableMay (f 0) q false = true →
      ∃ t : Block, exec (.sqEnable port q false) s = .next (s.after t) ∧ qState t q = 0 ∧ cmdsOf t q = [] ∧
        get t (fSQ_HEAD_HEAD q) = (get (f 0) (fSQ_HEAD_HEAD q) + 2 ^ 32 - (cmdsOf (f 0) q).length) % 2 ^ 32 ∧
        get t (fSQ_SEQ_NEXT_SEQ q) = (get (f 0) (fSQ_SEQ_NEXT_SEQ q) + 2 ^ 32 - (cmdsOf (f 0) q).length) % 2 ^ 32 ∧
        t.mem = (f 0).mem) ∧
    (actsSafely s.blk port (rSQ_CTL q) 3 = true → qState (f 3) q = 2 →
      exec (.sqResume port q) s = .next (s.after (put (fSQ_STAT_STATE q) 1 (f 3)))) ∧
    (actsSafely s.blk port (rSQ_CTL q) 5 = true → qState (f 5) q = 2 →
      ∃ t : Block, exec (.sqDiscard port q) s = .next (s.after t) ∧ qState t q = 1 ∧
        get t (fSQ_HEAD_HEAD q) = get (f 5) (fSQ_TAIL_TAIL q) ∧ t.mem = (f 5).mem ∧
        t.cmds = (f 5).cmds.map (fun (c : Cmd) => if c.queue == q.val && (c.stage == .fetched || c.stage == .held)
          then { c with stage := .finished, status := 0x16 } else c) ++ discardedCmds (f 5) q)

/-- 15 R420, 16 R446–R452: fetch and dispatch. A descriptor that can be read, clean and in sequence is fetched; one that cannot be read
completes with TRANSLATION, one out of sequence completes
with SEQ_MISMATCH, a poisoned one with ABORTED_POISON of the dispatcher, and stops the queue. A dispatch opportunity dispatches every held
command whose engines are free and then the head that the class wheel and the round robin pick, or holds it while its engines are not free;
where dispatch is not open nothing is dispatched. Under an owed abort a command of the step context completes with STEP_ABORTED, or a
PITHEAD
of another epoch with EPOCH_MISMATCH, before any other check (13 R357). The first late start that firedamp causes writes its record. A
dispatched command
completes at once with INVALID_FIELD, CONTEXT_FENCED, CONDITION_FALSE, CLUSTER_UNAVAILABLE, DOMAIN_DOWN or EPOCH_MISMATCH where that holds.
Readings that the log declares as the model's: 21, 50, 51, 119.
Commands whose next state it gives, wherever its hypotheses on the state and the operands hold: descriptorFetch, dispatchOpportunityRow. -/
def Obligations.FetchAndDispatch : Prop :=
  ∀ (s : State) (q : Fin 512),
    let o := if startsLate s.blk = true then
      yieldGuarantee 2 4 1 (fdLevel s.blk) (setFd (fun f => { f with yieldedAt := fdLevel s.blk }) s.blk) else s.blk
    (qState s.blk q = 1 → get s.blk (fSQ_HEAD_HEAD q) ≠ get s.blk (fSQ_TAIL_TAIL q) → ready s.blk = true → activity s.blk = 0 →
      dispatcherRuns s.blk = true → domOn s.blk (domFab 1) = true →
      let head := get s.blk (fSQ_HEAD_HEAD q)
      let next := get s.blk (fSQ_SEQ_NEXT_SEQ q)
      let pa := rd64 s.blk (rSQ_BASE_LO q) + head % ringSize s.blk q * 64
      let d := memBytes s.blk pa 64
      let taken := put (fSQ_SEQ_NEXT_SEQ q) ((next + 1) % 2 ^ 32) (put (fSQ_HEAD_HEAD q) ((head + 1) % 2 ^ 32) s.blk)
      let c := freshCmd q head (fieldAt d 12 4) (qCtx s.blk q) d (now s.blk)
      canReach s.blk pa = true →
      ((reachable s.blk pa = true ∧ reachable s.blk (pa + 63) = true ∧ readFails s.blk pa = false ∧ readFails s.blk (pa + 63) = false) →
        (anyPoison s.blk pa 64 = true → exec (.descriptorFetch q) s = .next (s.after (put (fSQ_STAT_STATE q) 2
          (meetFails pa 64 { taken with cmds := s.blk.cmds ++ [{ c with
            stage := .finished, status := 0x24, detail := dispatchUnit s.blk }] })))) ∧
        (anyPoison s.blk pa 64 = false →
          (fieldAt d 12 4 = next → exec (.descriptorFetch q) s = .next (s.after
            (meetFails pa 64 { taken with cmds := s.blk.cmds ++ [c] }))) ∧
          (fieldAt d 12 4 ≠ next → exec (.descriptorFetch q) s = .next (s.after (put (fSQ_STAT_STATE q) 2
            (meetFails pa 64 { taken with cmds := s.blk.cmds ++ [{ c with stage := .finished, status := 0x14 }] })))))) ∧
      ((reachable s.blk pa = false ∨ reachable s.blk (pa + 63) = false ∨ readFails s.blk pa = true ∨ readFails s.blk (pa + 63) = true) →
        exec (.descriptorFetch q) s = .next (s.after (put (fSQ_STAT_STATE q) 2 (meetFails pa 64 { taken with
          cmds := s.blk.cmds ++ [{ freshCmd q head next (qCtx s.blk q) [] (now s.blk) with stage := .finished, status := 0x13 }] }))))) ∧
    ((dispatchOpen o = false → exec .dispatchOpportunityRow s = .next (s.after o)) ∧
      (dispatchOpen o = true →
        let h := dispatchHeld o.cmds.length o
        (readyHeads h = [] → exec .dispatchOpportunityRow s = .next (s.after h)) ∧
        (∀ i c, rrPick (mapGet 0 h.arb arbQueues) 512
            (fun i => (readyHeads h).any (fun c => c.queue == i && qClass h i == pickClass h (readyHeads h))) = some i →
          (readyHeads h).find? (fun c => c.queue == i) = some c →
          let b := put fSC_DISPATCH_WHEEL ((get h fSC_DISPATCH_WHEEL + 1) % 15)
            { h with arb := mapSet 0 h.arb arbQueues ((i + 1) % 512) }
          exec .dispatchOpportunityRow s = .next (s.after (if enginesFree b c then dispatchCmd c b
            else setCmd { c with stage := .held, heldAt := b.cmds.foldl (fun m x => max m x.heldAt) 0 + 1 } b))) ∧
        (∀ n c, heldReady o = some c → dispatchHeld (n + 1) o = dispatchHeld n (dispatchCmd c o)))) ∧
    (∀ (c : Cmd) (e : Nat), newer32 c.seq (queue s.blk c.queue).dispSeq = true → s.blk.pit.owed = some e → c.ctx = stepCtx s.blk →
      (c.cls ≠ 0x07 ∨ fieldAt c.desc 0x10 4 ≠ e) →
      dispatchCmd c s.blk = finishCmd c.queue c.count (if c.cls = 0x07 then 0x40 else 0x44) 0
        (setCmd { c with stage := .dispatched, epoch := ctxEpoch s.blk c.ctx, mask := clMask c.desc, order := s.blk.dispatches + 1,
                         endAt := now s.blk } { takeDispSeq c s.blk with dispatches := s.blk.dispatches + 1 })) ∧
    (∀ c : Cmd, newer32 c.seq (queue s.blk c.queue).dispSeq = true → c.desc.length = 64 → s.blk.pit.owed = none →
      let x := { c with stage := .dispatched, epoch := ctxEpoch s.blk c.ctx, mask := clMask c.desc, order := s.blk.dispatches + 1,
                        endAt := now s.blk }
      let b := setCmd x { takeDispSeq c s.blk with dispatches := s.blk.dispatches + 1 }
      (∀ o, descFail x = some o → dispatchCmd c s.blk = finishCmd c.queue c.count 0x10 (invalidDetail 0 o) b) ∧
      (descFail x = none →
        (ctxFenced s.blk c.ctx = true → dispatchCmd c s.blk = finishCmd c.queue c.count 0x15 0 (stopQueue c.queue b)) ∧
        (ctxFenced s.blk c.ctx = false →
          (condHolds s.blk c = false → dispatchCmd c s.blk =
            setCmd { x with stage := .finished, status := 0x01, branch := (token s.blk c.ctx (waitToken c.desc)).2 } b) ∧
          (condHolds s.blk c = true →
            (∀ n, unavailable s.blk x.mask = some n → dispatchCmd c s.blk = finishCmd c.queue c.count 0x12 n b) ∧
            (unavailable s.blk x.mask = none →
              (∀ d, missingDomain b x = some d → dispatchCmd c s.blk = finishCmd c.queue c.count 0x11 d b) ∧
              (missingDomain b x = none → c.cls ≠ 0x07 → dispatchCmd c s.blk = b) ∧
              (missingDomain b x = none → c.cls = 0x07 → c.ctx = stepCtx s.blk → pitState s.blk = 6 → dispatchCmd c s.blk =
                finishPit x (if s.blk.pit.lost then 0x43 else 0x42) 0 (ctxEpoch s.blk c.ctx) none false false b) ∧
              (missingDomain b x = none → c.cls = 0x07 → (c.ctx ≠ stepCtx s.blk ∨ pitState s.blk ≠ 6) → dispatchCmd c s.blk =
                if fieldAt c.desc 0x10 4 = ctxEpoch s.blk c.ctx then b else finishCmd c.queue c.count 0x40 0 b))))))

/-- 15 R421, R426, R433, R434: a queue's oldest command that has finished. Its record is written into the completion ring and nowhere else,
DONE_SEQ is its SEQ, and it is gone. A success signals its token, which counts on and takes its branch bit; an error is shown in ERR_STATUS
and ERR_SEQ and stops the queue. A kernel-class command whose work is done ends first. Readings that the log declares as the model's: 168,
169.
Commands whose next state it gives, wherever its hypotheses on the state and the operands hold: commandCompletion. -/
def Obligations.Completions : Prop :=
  ∀ (s : State) (q : Fin 512) (c : Cmd), (cmdsOf s.blk q).head? = some c →
    let log := get s.blk (fSQ_CFG_SIZE_LOG2 q)
    let pa := rd64 s.blk (rSQ_CQ_LO q) + c.count % 2 ^ log * 32
    ((∀ x ∈ cmdsOf s.blk q, x.stage ≠ .running) → c.stage ≠ .finished →
      exec (.commandCompletion q) s = .next (s.after s.blk)) ∧
    (cmdsOf s.blk q = [c] → c.stage = .running → kernelDone s.blk c = true →
      exec (.commandCompletion q) s = .next (s.after (completeOldest q (kernelEnd c s.blk)))) ∧
    ((∀ x ∈ cmdsOf s.blk q, x.stage ≠ .running) → c.stage = .finished → canReach s.blk pa = true → reachable s.blk pa = true →
      reachable s.blk (pa + 31) = true → c.seq < 2 ^ 32 → c.status < 256 → s.blk.memOk = true →
      (isSuccess c.status = true → ∃ b : Block, exec (.commandCompletion q) s = .next (s.after b) ∧ get b (fSQ_DONE_DONE_SEQ q) = c.seq ∧
        findCmd b q c.count = none ∧
        (∀ i, i < 32 → memByte b (pa + i) = (completionBytes c (phaseOf c.count log) (now s.blk)).getD i 0) ∧
        (∀ a, a < pa ∨ pa + 32 ≤ a → memByte b a = memByte s.blk a) ∧ qState b q = qState s.blk q ∧
        (∀ t, t = fieldAt c.desc 8 2 → t < 1024 → token b c.ctx t = ((((token s.blk c.ctx t).1 + 1) % 2 ^ 32), c.branch)) ∧
        (∀ x t, (x ≠ c.ctx ∨ t ≠ fieldAt c.desc 8 2) → token b x t = token s.blk x t)) ∧
      (errorStops c.status = true → c.ctx ≠ stepCtx s.blk → qState s.blk q = 1 →
        ∃ b : Block, exec (.commandCompletion q) s = .next (s.after b) ∧ get b (fSQ_DONE_DONE_SEQ q) = c.seq ∧
        findCmd b q c.count = none ∧ qState b q = 2 ∧ get b (fSQ_STAT_ERR_STATUS q) = c.status ∧ get b (fSQ_ERR_SEQ_SEQ q) = c.seq ∧
        (∀ i, i < 32 → memByte b (pa + i) = (completionBytes c (phaseOf c.count log) (now s.blk)).getD i 0) ∧
        (∀ a, a < pa ∨ pa + 32 ≤ a → memByte b a = memByte s.blk a) ∧ b.ctxs = s.blk.ctxs))

/-- 15 R427, 09 R242–R247, 12 R315: a dispatched KERNEL, COPY, GATHER, SCATTER or SCAN command reads its blocks, records and columns, and
completes at once with the status of the first that fails, a domain it needs that is not on among them, as a task abort where its blocks
cannot be read or a word is poisoned; one for which all stands puts its engines to work, but a SCAN whose predecessor is FAILED ends. A
running pure move takes its next portion on each of its clusters. Readings that the log declares as the model's: 44, 54, 67, 131, 132, 155,
161, 181.
Commands whose next state it gives, wherever its hypotheses on the state and the operands hold: kernel, copy, gatherRow, scatterRow,
scanRowCmd. -/
def Obligations.KernelsStart : Prop :=
  ∀ (s : State) (q : Fin 512) (n : Nat) (m : Cmd), hostClear s.blk = true → findCmd s.blk q n = some m →
    let starts := fun (out : Host.Outcome State Fault Refusal) =>
      (m.stage = .dispatched →
        let fails := fun (aborts : Bool) (e : StartErr) => out = .next (s.after
          (if aborts = true ∨ e.status = 0x24 then abortTask q n e.status e.detail s.blk else finishCmd q n e.status e.detail s.blk))
        (∀ e, fetchBlocks s.blk m = .error e → fails (e.status == 0x13) e) ∧
        (∀ c, fetchBlocks s.blk m = .ok c →
          (∀ e, startChecks s.blk c (ctx s.blk c.ctx).psidy = some e →
            out = .next (s.after (finishCmd q n e.status e.detail s.blk))) ∧
          (∀ d, startChecks s.blk c (ctx s.blk c.ctx).psidy = none → startMissing s.blk c = some d →
            out = .next (s.after (finishCmd q n 0x11 d s.blk))) ∧
          (startChecks s.blk c (ctx s.blk c.ctx).psidy = none → startMissing s.blk c = none →
            (∀ e, makeJob s.blk c = .error e → fails false e) ∧
            (∀ j, makeJob s.blk c = .ok j →
              let x := { c with stage := .running, ran := true }
              (∀ e, fetchOwners (startEngines x j s.blk) x = .error e → fails false e) ∧
              (∀ os e, fetchOwners (startEngines x j s.blk) x = .ok os → shadowFail x os = some e →
                out = .next (s.after (finishCmd q n e.status e.detail s.blk))) ∧
              (∀ os, fetchOwners (startEngines x j s.blk) x = .ok os → shadowFail x os = none →
                (takeTally x s.blk = none → out = .next (s.after (finishCmd q n 0x38 (x.scanTally % 65536) s.blk))) ∧
                (∀ b, takeTally x s.blk = some b →
                  let k := { j with owners := os, ordered := needsOrder (devId b) x os }
                  let t := noteStreams x k (startEngines x k b)
                  let u := ownerGrants x (countStart t x k t)
                  (∀ d, scanPred u x = some d → x.fromDrift = true → (failedIds u).contains d = true →
                    out = .next (s.after (scanAbort x k u))) ∧
                  ((scanPred u x = none ∨ x.fromDrift = false ∨ ∀ d, scanPred u x = some d → (failedIds u).contains d = false) →
                    out = .next (s.after (scanGrant x u))))))))) ∧
      (m.stage = .running → m.isMove = true →
        out = .next (s.after (m.clusters.foldl (fun b cl => moveStep cl b) s.blk)))
    (m.cls = 1 → starts (exec (.kernel q n) s)) ∧ (m.cls = 2 → starts (exec (.copy q n) s)) ∧
    (m.cls = 3 → starts (exec (.gatherRow q n) s)) ∧ (m.cls = 4 → starts (exec (.scatterRow q n) s)) ∧
    (m.cls = 5 → starts (exec (.scanRowCmd q n) s))

/-- 15 R429–R431: commands that use no engine. A dispatched FENCE or DRAIN has waited at its dispatch and completes with OK; a WAIT completes
once its time, from its dispatch in MODE 2, has come, at once or later, and one whose TIMEOUT has passed since it became its queue's oldest
command, its token not reached, completes with WAIT_TIMEOUT; an EVENT posts its USER record and waits until that is out. Readings that the
log declares as the model's: 99, 168, 169. -/
def Sys2Proof.Claims.PlainCommands : Prop :=
  ∀ (s : State) (q : Fin 512) (n : Nat) (m : Cmd), findCmd s.blk q n = some m →
    let run := { m with stage := .running }
    let b := setCmd run s.blk
    (m.stage = .dispatched →
      (m.cls = 0x0A → exec (.fence q n) s = .next (s.after (finishCmd q n 0 0 b))) ∧
      (m.cls = 0x0B → exec (.drain q n) s = .next (s.after (finishCmd q n 0 0 b))) ∧
      (m.cls = 0x0C → m.waitMode = 0 → exec (.waitTokenOnly q n) s = .next (s.after (finishCmd q n 0 0 b))) ∧
      (m.cls = 0x0C → m.waitMode = 1 → exec (.waitUntilTime q n) s = .next (s.after
        (if m.waitTime ≤ now s.blk then finishCmd q n 0 0 b else setCmd { run with endAt := m.waitTime } b))) ∧
      (m.cls = 0x0C → m.waitMode = 2 → exec (.waitForTime q n) s = .next (s.after
        (if m.endAt + m.waitTime ≤ now s.blk then finishCmd q n 0 0 b else setCmd { run with endAt := m.endAt + m.waitTime } b))) ∧
      (m.cls = 0x0D → exec (.event q n) s = .next (s.after (postTo (byteAt m.desc 0x10 % 16)
        ⟨0x0600, m.ctx, 4, q, m.seq, now s.blk, fieldAt m.desc 0x18 8⟩ b)))) ∧
    (m.cls = 0x0C → m.stage = .running → exec (.waitTimerExpiry q n) s = .next (s.after
      (if m.endAt ≤ now s.blk then finishCmd q n 0 0 s.blk else s.blk))) ∧
    (m.cls = 0x0C → (m.stage = .fetched ∨ m.stage = .held) → (cmdsOf s.blk q).head? = some m → qState s.blk q = 1 → m.waitTimeout ≠ 0 →
      descFail m = none → tokenReached s.blk m = false → exec (.waitTimerExpiry q n) s = .next (s.after
        (if m.since + m.waitTimeout ≤ now s.blk
         then finishCmd q n 0x17 0 (takeDispSeq m { s.blk with dispatches := s.blk.dispatches + 1 }) else s.blk)))

/-- 15 R432: TXN commands, as requester 4 of the page. BEGIN completes with OK where the page is then OPEN under host ownership; COMMIT waits
for the outcome; ROLLBACK completes with OK where the page is then IDLE; WRITE stages its pairs in order up to the first that is discarded;
what is refused completes with TXN_REFUSED at its offset. Readings that the log declares as the model's: 100. -/
def Sys2Proof.Claims.TxnCommands : Prop :=
  ∀ (s : State) (q : Fin 512) (n : Nat) (m : Cmd), findCmd s.blk q n = some m → m.stage = .dispatched → m.cls = 0x0E →
    let run := { m with stage := .running }
    let b := setCmd run s.blk
    let off := txnCtlOff m.txnPage
    (m.txnOp = 1 →
      let t := (regWriteOk .txn (pageBase m.txnPage + off) 4 (BitVec.ofNat 32 (1 + fieldAt m.desc 0x14 2 * 256)) b).1
      exec (.txnCmdBeginRow q n) s = .next (s.after
        (if (txnStatus t m.txnPage).1 = 1 ∧ (txnStatus t m.txnPage).2.1 = 0 then finishCmd q n 0 0 t else finishCmd q n 0x18 off t))) ∧
    (m.txnOp = 2 →
      let r := txnCtlWrite m.txnPage 2 b
      (r.2 = false → exec (.txnCmdCommitRow q n) s = .next (s.after (finishCmd q n 0x18 off r.1))) ∧
      (r.2 = true → (txnStatus r.1 m.txnPage).1 ≠ 0 → exec (.txnCmdCommitRow q n) s = .next (s.after r.1)) ∧
      (r.2 = true → (txnStatus r.1 m.txnPage).1 = 0 → exec (.txnCmdCommitRow q n) s = .next (s.after
        (if (txnStatus r.1 m.txnPage).2.2 = 1 then finishCmd m.queue m.count 0 0 r.1
         else finishCmd m.queue m.count 0x19 (txnStatus r.1 m.txnPage).2.2 r.1)))) ∧
    (m.txnOp = 3 →
      let t := (txnCtlWrite m.txnPage 3 b).1
      exec (.txnCmdRollbackRow q n) s = .next (s.after
        (if (txnStatus t m.txnPage).1 = 0 then finishCmd q n 0 0 t else finishCmd q n 0x18 off t))) ∧
    (m.txnOp = 4 →
      let ps := (List.range (byteAt m.desc 0x13)).map (fun i => (fieldAt m.desc (0x18 + 8 * i) 4, fieldAt m.desc (0x1C + 8 * i) 4))
      let r := txnPairs m.txnPage ps b
      exec (.txnCmdWriteRow q n) s = .next (s.after (match r.1 with
        | none => finishCmd q n 0 0 r.2
        | some o => finishCmd q n 0x18 o r.2)))

/-- 15 R426–R432: the commands that use no engine.
Commands whose next state it gives, wherever its hypotheses on the state and the operands hold: fence, drain, waitTokenOnly, waitUntilTime,
waitForTime, event, waitTimerExpiry, txnCmdBeginRow, txnCmdCommitRow, txnCmdRollbackRow, txnCmdWriteRow. -/
def Obligations.CommandCompletion : Prop :=
  Claims.PlainCommands ∧ Claims.TxnCommands

/-! ### Chaell ports, transactions, contexts and event rings (15 R402–R416, R436–R442) -/

/-- 15 R403–R408, 03 R78: the link of a Chaell port. Its domain on, it trains; two equal CAPS of revision 1 make it ACTIVE; it retries from
DOWN; RECOVERY keeps what is not acknowledged and holds what is to be sent, and then counts its flits from zero and sends them again before
what
was held; a timeout goes to DOWN and loses the link
state and the configuration block but not what is outstanding, and without another port host transactions roll back. Each change is posted.
Readings that the log declares as the model's: 91, 149.
Commands whose next state it gives, wherever its hypotheses on the state and the operands hold: chTrainingStart, chDownRetry, capsFlitRow,
chTrainingComplete, chTrainingTimeout, chRecoveryTimeout, chRecovery, chRecoveryComplete. -/
def Obligations.ChaellLink : Prop :=
  ∀ (s : State) (p : Fin 2) (caps : List Byte),
    let st := portState s.blk p
    let x := chPort s.blk p
    let into := fun (n : Nat) => post 0x0602 (0x140 + p.val) n (put (fCH_LINK_STATE p) n s.blk)
    let up := fun (b : Block) => if x.cfgCtl.testBit 0 then { b with hostDead := false } else b
    let capsOut := leBytes 2 0x03A5 ++ leBytes 2 0xB240 ++ leBytes 1 (stepping s.blk) ++ leBytes 1 p ++ leBytes 1 1
    let train := emit (.flit (18 + p.val) (flitBytes 5 capsOut)) (setPort p { x with caps := none, capsSame := false } (into 1))
    let down : Block := { into 4 with
      links := mapErase s.blk.links (18 + p.val)
      chaell := mapSet ChPort.fresh s.blk.chaell p { ChPort.fresh with reads := x.reads, nextTag := x.nextTag, intrHeld := x.intrHeld } }
    (st = 0 → dom s.blk (domCh p) = 2 → exec (.chTrainingStart p) s = .next (s.after train)) ∧
    (st = 4 → exec (.chDownRetry p) s = .next (s.after train)) ∧
    ((st = 1 ∨ st = 3) → exec (.capsFlitRow p caps) s = .next (s.after
      (setPort p { x with caps := some caps, capsSame := x.caps == some caps && byteAt caps 6 == 1 } s.blk))) ∧
    (st = 1 → x.capsSame = true →
      exec (.chTrainingComplete p) s = .next (s.after (up (setLink (18 + p.val) Link.fresh (into 2))))) ∧
    ((portState s.blk (1 - p.val) = 2 ∨ portState s.blk (1 - p.val) = 3) →
      (st = 1 → exec (.chTrainingTimeout p) s = .next (s.after down)) ∧
      (st = 3 → exec (.chRecoveryTimeout p) s = .next (s.after down))) ∧
    (portState s.blk (1 - p.val) ≠ 2 → portState s.blk (1 - p.val) ≠ 3 →
      (st = 1 → exec (.chTrainingTimeout p) s = .next (s.after (portRollback down))) ∧
      (st = 3 → exec (.chRecoveryTimeout p) s = .next (s.after (portRollback down)))) ∧
    (st = 2 → exec (.chRecovery p) s = .next (s.after (emit (.flit (18 + p.val) (flitBytes 5 capsOut))
      (setPort p { x with caps := none, capsSame := false } (bump (fCH_LINK_RECOVERIES p) 1 (into 3)))))) ∧
    (st = 3 → x.capsSame = true →
      let l := link s.blk (18 + p.val)
      let n := l.buffer.length
      exec (.chRecoveryComplete p) s = .next (s.after (up (x.waiting.foldl (chEmit p) (setPort p { x with waiting := [] }
        (pumpFlits (18 + p.val) (l.buffer.foldl (fun b c => emit (.flit (18 + p.val) (flitBytes 1 c)) b)
          (setLink (18 + p.val) { Link.fresh with
            tx := n, buffer := l.buffer, txTail := l.txTail, txBytes := 253 * n + l.txTail.length, part := l.part } (into 2)))))))))
    ∧ (∀ t : ChTxn, (st = 2 → chSend p t s.blk = chEmit p s.blk t) ∧
      (st = 3 → chSend p t s.blk = setPort p { x with waiting := x.waiting ++ [t] } s.blk) ∧
      ((st ≠ 2 ∧ st ≠ 3) → chSend p t s.blk = s.blk))

/-- 15 R408–R411, 04 R109: transactions of the host. A CFG_RD is answered from the configuration block; a CFG_WR sets the windows, ENABLE and
INTR_EN but the bases while ENABLE is 1; an RD of a register or of memory that is not held is answered by one CPL_DATA, one outside both
windows by CPL with UNSUPPORTED; a WR writes its register or its memory, behind the writes of its port that are held, and a poisoned WR is
discarded. Flips in the words that an RD reads are corrected or poisoned first (04 R107). Without the fabric of the port's half no memory is
reached. Readings that the log declares as the model's: 90, 95, 149, 170, 182. -/
def Sys2Proof.Claims.HostTransactions : Prop :=
  ∀ (s : State) (p : Fin 2) (t : ChTxn), portState s.blk p = 2 →
    let x := chPort s.blk p
    let port : Port := if p.val = 0 then .ch0 else .ch1
    (txnClean t false = true → exec (.cfgRd p t) s = .next (s.after
      (chSend p (cplDataTxn t.tag (toLen t.len (slice (cfgBytes s.blk p) t.addr t.len)) 0) s.blk))) ∧
    (txnClean t true = true → t.poison = none → t.addr = 0x18 → t.len = 4 → x.intrHeld = [] →
      ∃ b : Block, exec (.cfgWr p t) s = .next (s.after b) ∧ (chPort b p).cfgCtl = byteAt t.data 0 % 4 ∧
        b.mem = s.blk.mem ∧ b.regs = s.blk.regs) ∧
    (txnClean t true = true → t.poison = none → (x.cfgCtl.testBit 0 = false ∨ 0x18 ≤ t.addr ∨ t.addr + t.len ≤ 8) →
      let n := overlay (cfgBytes s.blk p) t.addr t.data
      exec (.cfgWr p t) s = .next (s.after (portUp p (releaseIntr p (setPort p { x with
        ctrlBase := fieldAt n 8 8 / 0x1000000 * 0x1000000
        memBase := fieldAt n 0x10 8 / 2 ^ 40 * 2 ^ 40
        cfgCtl := byteAt n 0x18 % 4 } s.blk))))) ∧
    (txnClean t true = true → t.poison = none → x.cfgCtl.testBit 0 = false → t.addr = 8 → t.len = 8 → x.intrHeld = [] →
      ∃ b : Block, exec (.cfgWr p t) s = .next (s.after b) ∧
        (chPort b p).ctrlBase = leNat t.data / 0x1000000 * 0x1000000) ∧
    (txnClean t true = true → x.cfgCtl.testBit 0 = true → t.addr < 0x18 → 8 < t.addr + t.len →
      exec (.cfgWr p t) s = .next (s.after s.blk)) ∧
    (x.cfgCtl.testBit 0 = false → exec (.wrTxn p false t) s = .next (s.after s.blk)) ∧
    (∀ ups : List Upset,
      let b := ups.foldl sramUpset s.blk
      let y := chPort b p
      portState b p = 2 →
      (y.cfgCtl.testBit 0 = false → exec (.rdTxn p false t ups) s = .next (s.after (chSend p (cplTxn t.tag 1) b))) ∧
      (y.cfgCtl.testBit 0 = true → txnClean t false = true →
        (∀ off, windowOf y t.addr = .control off → t.len = 4 →
          let r := regRead port off 4 b
          exec (.rdTxn p false t ups) s = .next (s.after (chSend p (cplDataTxn t.tag (leBytes 4 r.1.toNat) 0) r.2))) ∧
        (∀ pa, windowOf y t.addr = .memory pa → memoryHeld b pa = false → portHeld b pa = false →
          exec (.rdTxn p false t ups) s = .next (s.after (chSend p (if domOn b (domFab p) = true
            then cplDataTxn t.tag (windowBytes b pa t.len) (windowPoison b pa t.len)
            else cplDataTxn t.tag (leBytes t.len 0) 0) b))) ∧
        (windowOf y t.addr = .outside → exec (.rdTxn p false t ups) s = .next (s.after (chSend p (cplTxn t.tag 1) b))))) ∧
    (x.cfgCtl.testBit 0 = true → txnClean t true = true →
      (∀ off, windowOf x t.addr = .control off → t.len = 4 → t.poison = none →
        (writeWaits s.blk p = false → exec (.wrTxn p false t) s = .next (s.after
          (regWrite port off (BitVec.ofNat 32 (leNat (t.data.take 4))) s.blk))) ∧
        (writeWaits s.blk p = true → s.blk.act.held.length < 64 → exec (.wrTxn p false t) s = .next (s.after
          { s.blk with act := { s.blk.act with held := s.blk.act.held ++ [⟨port, true, off, true, t.data, t.len, 0, 0⟩] } }))) ∧
      (∀ off k, windowOf x t.addr = .control off → t.poison.isSome = true → pageOf (off / 4096) = some k →
        exec (.wrTxn p false t) s = .next (s.after (discard (off / 4096) (off % 4096) 3 s.blk))) ∧
      (∀ pa, windowOf x t.addr = .memory pa → t.poison.isSome = true → exec (.wrTxn p false t) s = .next (s.after (discardWindow 3 s.blk))) ∧
      (∀ pa, windowOf x t.addr = .memory pa → t.poison = none → memoryHeld s.blk pa = false → portHeld s.blk pa = false →
        writeWaits s.blk p = false → domOn s.blk (domFab p) = false → exec (.wrTxn p false t) s = .next (s.after s.blk)) ∧
      (∀ pa, windowOf x t.addr = .memory pa → t.poison = none → memoryHeld s.blk pa = false → portHeld s.blk pa = false →
        writeWaits s.blk p = false → domOn s.blk (domFab p) = true → reachable s.blk pa = true → t.data ≠ [] →
        pa % 4096 + t.data.length ≤ 4096 →
        exec (.wrTxn p false t) s = .next (s.after (memWrite pa t.data s.blk))) ∧
      (windowOf x t.addr = .outside → exec (.wrTxn p false t) s = .next (s.after s.blk)))

/-- 15 R405, R409–R411: transactions of the device. The traffic of a half takes the half's own port while that carries it, else the other. An RD
is sent with a tag that no outstanding read has and stays outstanding until its completion: CPL_DATA writes its bytes, the words of marked
lines poisoned; a status other than 0, and 100 ms without a completion, end it, and the access it belongs to fails. A WR writes host memory.
Without an ACTIVE port for 100 ms accesses to host memory fail. Readings that the log declares as the model's: 84, 149, 182. -/
def Sys2Proof.Claims.DeviceTransactions : Prop :=
  ∀ (s : State) (p : Fin 2) (t : ChTxn),
    (portCarries s.blk p = true → portFor s.blk p = some p.val) ∧
    (portCarries s.blk p = false → portCarries s.blk (1 - p.val) = true → portFor s.blk p = some (1 - p.val)) ∧
    (∀ q, portFor s.blk p = some q →
      let x := chPort s.blk q
      (∀ ups, txnClean t false = true → x.reads.length < 4096 → (∀ r ∈ x.reads, r.1 ≠ freeTag x) ∧
        exec (.rdTxn p true t ups) s = .next (s.after (chSend q { t with kind := 1, tag := freeTag x } (setPort q
          { x with reads := x.reads ++ [(freeTag x, t.addr, t.len)], nextTag := (freeTag x + 1) % 65536 } s.blk)))) ∧
      (txnClean t true = true → exec (.wrTxn p true t) s = .next (s.after
        (chSend q { t with kind := 2 } (memWriteP (0x800000000000 + t.addr) t.data
          (fun i => (match t.poison with | some m => m.toNat | none => 0).testBit (i / 64)) s.blk))))) ∧
    (portFor s.blk p = none → ∀ ups, exec (.rdTxn p true t ups) s = .next (s.after s.blk) ∧
      exec (.wrTxn p true t) s = .next (s.after s.blk)) ∧
    (∀ r, (chPort s.blk p).reads.find? (fun r => r.1 == t.tag) = some r →
      let x := chPort s.blk p
      let gone := setPort p { x with reads := x.reads.filter (fun y => y.1 != t.tag) } s.blk
      let failed : Block := { gone with hostFail := s.blk.hostFail ++ [(0x800000000000 + r.2.1, r.2.2)] }
      exec (.completionTimeout p t.tag) s = .next (s.after failed) ∧
      (portState s.blk p = 2 → t.addr = 0 → t.status ≠ 0 → t.status ≤ 2 → exec (.cpl p t) s = .next (s.after failed) ∧
        exec (.cplData p t) s = .next (s.after failed)) ∧
      (portState s.blk p = 2 → t.addr = 0 → t.status = 0 → t.data.length = r.2.2 →
        ∃ b : Block, exec (.cplData p t) s = .next (s.after b) ∧ (chPort b p).reads = x.reads.filter (fun y => y.1 != t.tag) ∧
          b.hostFail = s.blk.hostFail ∧ b.mem = (memWriteP (0x800000000000 + r.2.1) t.data
            (fun i => (match t.poison with | some m => m.toNat | none => 0).testBit (i / 64)) s.blk).mem) ∧
      (t.addr ≠ 0 → exec (.cpl p t) s = .next (s.after s.blk) ∧ exec (.cplData p t) s = .next (s.after s.blk))) ∧
    (anyPortActive s.blk = false → exec .hostAccessTimeout s = .next (s.after { s.blk with hostDead := true }))

/-- 15 R405, R409–R411: transactions of the host and of the device.
Commands whose next state it gives, wherever its hypotheses on the state and the operands hold: cfgRd, cfgWr, wrTxn, rdTxn,
completionTimeout, cpl, cplData, hostAccessTimeout. -/
def Obligations.HostPort : Prop :=
  Claims.HostTransactions ∧ Claims.DeviceTransactions

/-- 15 R415–R417: context commands. LOAD of a whole record makes the context its values, keeping the tokens of a VALID one, and VALID as the
record says; READ writes the record back and nothing else; UNFENCE lifts the fence; INVALIDATE clears VALID and the tokens. Readings that
the log declares as the model's: 96.
Commands whose next state it gives, wherever its hypotheses on the state and the operands hold: ctxLoadRow, ctxReadRow, ctxUnfenceRow,
ctxInvalidateRow. -/
def Obligations.ContextCommands : Prop :=
  ∀ (s : State) (port : Port) (c : Fin 64), hostClear s.blk = true →
    let v := fun (cmd : Nat) => BitVec.ofNat 32 (c.val + cmd * 256)
    let b := fun (cmd : Nat) => storeRw rSC_CTX_CTL (v cmd) (granted port 4 s.blk)
    let pa := rd64 s.blk rSC_CTX_SRC_LO
    (actsNow s.blk port rSC_CTX_CTL (v 1) = true → ∃ t : Block,
      exec (.ctxLoadRow port c) s = .next (s.after t) ∧ ctx t c = ctxOfRecord (memBytes s.blk pa 128)
        (if ctxValid s.blk c then (ctx s.blk c).tokens else []) ∧
      ctxValid t c = (byteAt (memBytes s.blk pa 128) 0).testBit 0 ∧ (∀ x, x ≠ c.val → ctx t x = ctx s.blk x) ∧ t.mem = s.blk.mem) ∧
    (actsNow s.blk port rSC_CTX_CTL (v 2) = true → reachable s.blk pa = true → reachable s.blk (pa + 127) = true →
      exec (.ctxReadRow port c) s = .next (s.after (memWrite pa (contextBytes (b 2) c) (b 2)))) ∧
    (actsNow s.blk port rSC_CTX_CTL (v 3) = true →
      exec (.ctxUnfenceRow port c) s = .next (s.after (put (pairBit rSC_CTX_FENCED_LO c) 0 (b 3)))) ∧
    (actsNow s.blk port rSC_CTX_CTL (v 4) = true → exec (.ctxInvalidateRow port c) s = .next (s.after
      (setCtx c { ctx s.blk c with tokens := [] } (put (pairBit rSC_CTX_VALID_LO c) 0 (b 4)))))

/-- 15 R436–R442: event rings. An open ring with nothing waiting and nothing dropped takes its oldest record into its next slot, and into no
other memory; a blocked ring lets up to 64 records wait and counts a further one as lost. The host's HEAD and ENABLE are kept and then what
the ring owes is written. The vector goes once records are written, where interrupts are on, and is held back until MOD µs after the one
before. Readings
that the log declares as the model's: 98, 149.
Commands whose next state it gives, wherever its hypotheses on the state and the operands hold: eventRecordWrite, evHeadRow, evCfgEnable,
intr, interruptModerationExpiry. -/
def Obligations.EventRings : Prop :=
  ∀ (s : State) (r : Fin 16) (port : Port) (v : W32),
    let x := ring s.blk r
    (∀ e rest, x.posted = e :: rest →
      (ringOpen s.blk r = true → slotOk s.blk r = true → x.dropped = 0 → x.waiting = [] → s.blk.memOk = true →
        ∃ b : Block, exec (.eventRecordWrite r) s = .next (s.after b) ∧ evTail b r = (evTail s.blk r + 1) % 2 ^ 32 ∧
          (ring b r).posted = rest ∧ (ring b r).waiting = [] ∧ (ring b r).irqDue = true ∧
          (∀ i, i < 32 → memByte b (slotPa s.blk r + i) =
            (e.bytes (phaseOf (evTail s.blk r) (get s.blk (fEV_CFG_SIZE_LOG2 r)))).getD i 0) ∧
          (∀ a, a < slotPa s.blk r ∨ slotPa s.blk r + 32 ≤ a → memByte b a = memByte s.blk a)) ∧
      (ringBlocked s.blk r = true → x.waiting.length < 64 → exec (.eventRecordWrite r) s = .next (s.after
        (setRing r { x with posted := rest, waiting := x.waiting ++ [e] } s.blk))) ∧
      (ringBlocked s.blk r = true → 64 ≤ x.waiting.length → exec (.eventRecordWrite r) s = .next (s.after
        (bump (fEV_LOST_COUNT r) 1 (setRing r { x with posted := rest, dropped := x.dropped + 1 } s.blk))))) ∧
    (actsNow s.blk port (rEV_HEAD r) v = true →
      exec (.evHeadRow port r v) s = .next (s.after (flush r (storeRw (rEV_HEAD r) v (granted port 5 s.blk))))) ∧
    (actsNow s.blk port (rEV_CFG r) v = true →
      exec (.evCfgEnable port r v) s = .next (s.after (flush r (storeRw (rEV_CFG r) v (granted port 5 s.blk))))) ∧
    (∀ p, ringPort s.blk r = some p → x.irqDue = true → (chPort s.blk p).cfgCtl.testBit 1 = true →
      let sent := chSend p ⟨5, 0, 0, 0, get s.blk (fEV_IRQ_VECTOR r), none, []⟩
        (setRing r { x with irqDue := false, sentAt := some (now s.blk) } s.blk)
      ((∀ t, x.sentAt = some t → t + 100 * get s.blk (fEV_IRQ_MOD r) ≤ now s.blk) →
        exec (.intr r) s = .next (s.after sent) ∧ exec (.interruptModerationExpiry r) s = .next (s.after sent)) ∧
      (∀ t, x.sentAt = some t → now s.blk < t + 100 * get s.blk (fEV_IRQ_MOD r) →
        exec (.intr r) s = .next (s.after s.blk) ∧ exec (.interruptModerationExpiry r) s = .next (s.after s.blk)))

/-! ### Firmware (16) and boot, attestation and the test port (17, 18) -/

/-- 16 R445, R453–R457: watchdogs. A fire in its own step of a roll fails the step. Any other counts and takes the processor down: a control
core's aborts its cluster's task with ABORTED_CORE or, the third time in 1 s, fails the cluster, whose tasks end with ABORTED_CLUSTER; SCH's
hands dispatch on and shows how long
that took; an RCX core's leaves the other cores; PWR's shows RESTARTING, and 20 ms later calls FD2; SEC's ends a STAGE with SEC_RESTART,
puts a taken attestation back and pauses a roll. The next service writes FW_RESTARTED and brings the processor back, unless a word of its
image store is
uncorrectable (18 R503); a service of a running processor only counts a near miss. A restart limit that passes fails the cluster of a
control core. Readings that the log declares as the
model's: 85, 89, 150.
Commands whose next state it gives, wherever its hypotheses on the state and the operands hold: coreWatchdogFire, schWatchdogFire,
rcxWatchdogFire, pwrWatchdogFire, pwrAbsentTimeout, secWatchdogFire, watchdogServiceRow, restartLimitMissed. -/
def Obligations.Watchdogs : Prop :=
  ∀ (s : State) (cl : Fin 32) (core : Fin 4) (us : Nat) (p : ProcId) (near : Bool) (ups : List Upset),
    let fires := fun (k : Nat) => procOn s.blk k = true ∧ stepsNow s.blk k = false
    (coreOn s.blk cl = true → stepsNow s.blk (4 + cl.val) = false →
      let b := bump (fCL_CORE_FIRES cl) 1 (fireProc (4 + cl.val) s.blk)
      let onIt := fun (c : Cmd) => c.mask.testBit cl.val
      (thirdFire b (4 + cl.val) = false → exec (.coreWatchdogFire cl) s = .next (s.after
        (put (fCL_CORE_STATE cl) 1 (abortWhere onIt 0x25 cl b)))) ∧
      (thirdFire b (4 + cl.val) = true → exec (.coreWatchdogFire cl) s = .next (s.after
        (failCluster cl 3 (restarted (4 + cl.val) 1 2
          (setProc (4 + cl.val) { proc b (4 + cl.val) with heldDown := true } b)))))) ∧
    (coreOn s.blk cl = true → stepsNow s.blk (4 + cl.val) = true → exec (.coreWatchdogFire cl) s = .next (s.after
      (rollStepFail (bump (fCL_CORE_FIRES cl) 1 (fireProc (4 + cl.val) s.blk))))) ∧
    (fires 2 → thirdFire (fireProc 2 s.blk) 2 = false → rcxCores (fireProc 2 s.blk) ≠ 0 →
      exec (.schWatchdogFire us) s = .next (s.after (settleWho (put fSC_DISPATCH_SCH_STATE 1
        (put fSC_FW_TAKE_LAST_US (min us 50) (fireProc 2 s.blk)))))) ∧
    (fires (40 + core.val) → exec (.rcxWatchdogFire core) s = .next (s.after
      (settleWho (put ⟨rSC_DISPATCH, 8 + core.val, 8 + core.val⟩ 0 (fireProc (40 + core.val) s.blk))))) ∧
    (fires 1 → exec .pwrWatchdogFire s = .next (s.after (put fPW_FW_PWR_STATE 1 (fireProc 1 s.blk)))) ∧
    ((proc s.blk 1).down = true → exec .pwrAbsentTimeout s = .next (s.after
      (fdRise (put fPW_FW_FD2_HELD 1 (setFd (fun f => { f with pwrCause := true }) s.blk))))) ∧
    (fires 0 →
      let b := fireProc 0 s.blk
      (get b fSEC_ATT_STAT_STATE = 2 → fwState b = 0 →
        exec .secWatchdogFire s = .next (s.after (put fSEC_ATT_STAT_STATE 1 b))) ∧
      (get b fSEC_ATT_STAT_STATE ≠ 2 → fwState b = 1 → b.fw.staged = [] → exec .secWatchdogFire s = .next (s.after
        (raise 3 32 (setFwResult 6 (setFwState 0 b))))) ∧
      (get b fSEC_ATT_STAT_STATE ≠ 2 → (fwState b = 4 ∨ fwState b = 5) →
        exec .secWatchdogFire s = .next (s.after (setFw (fun f => { f with paused := true }) b)))) ∧
    (procOn s.blk (procKey p) = true →
      ((proc s.blk (procKey p)).down = false → exec (.watchdogServiceRow p near ups) s = .next (s.after
        (if near then nearMissed (procKey p) s.blk else s.blk))) ∧
      ((proc s.blk (procKey p)).down = true →
        let r := restartLoad (procKey p) ups s.blk
        (r.1 = false → exec (.watchdogServiceRow p near ups) s = .next (s.after r.2)) ∧
        (r.1 = true →
          let n := if near then nearMissed (procKey p) r.2 else r.2
          let b := restarted (procKey p) 1 1 n
          fwState n < 4 → exec (.watchdogServiceRow p near ups) s = .next (s.after (serviceEffects attStart (procKey p)
            (setProc (procKey p) { proc b (procKey p) with down := false } b)))))) ∧
    (∀ (take : Block → Block) (b : Block), fwState b < 4 →
      serviceEffects take 2 b = tryDecide (settleWho (put fSC_DISPATCH_SCH_STATE 0 (bump fSC_FW_CNT_SCH_RESTARTS 1 b))) ∧
      serviceEffects take (4 + cl.val) b = put (fCL_CORE_STATE cl) 0 (releaseCluster b cl) ∧
      (let t := settleWho (put ⟨rSC_DISPATCH, 8 + core.val, 8 + core.val⟩ 1 (bump fSC_FW_CNT_RCX_RESTARTS 1 b))
       serviceEffects take (40 + core.val) b = tryDecide (if get t fSC_DISPATCH_WHO = 1 ∧ get b fSC_DISPATCH_WHO ≠ 1
         then put fSC_FW_TAKE_LAST_US (min ((now t - (proc t 2).firedAt) / 100) 0xFFFF) t else t)) ∧
      serviceEffects take 0 b = (if get b fSEC_ATT_STAT_STATE = 1 then take b else b) ∧
      serviceEffects take 1 b = pwrReturn (put fPW_FW_PWR_STATE 0 (setFd (fun f => { f with pwrCause := false })
        (put fPW_FW_FD2_HELD 0 (bump fPW_FW_RESTARTS 1 b))))) ∧
    ((proc s.blk (4 + cl.val)).down = true → procOn s.blk (4 + cl.val) = true →
      let b := setProc (4 + cl.val) { proc s.blk (4 + cl.val) with late := true } s.blk
      exec (.restartLimitMissed (.core cl)) s = .next (s.after (failCluster cl 2 (failedBack (restarted (4 + cl.val) 2 2
        (setProc (4 + cl.val) { proc b (4 + cl.val) with heldDown := true } b))))))

/-- 16 R460, R461, 18 R500, R501: staging and the start of a roll. STAGE starts staging; it ends STAGED with the image and its epoch, or refused
with the cause: SOURCE where it cannot be read, else the first check of R500 that fails. ACTIVATE starts the roll where nothing holds it and
makes it wait elsewhere; ROLL_START ends the wait; a wait is reported; DISCARD drops the image. Readings that the log declares as the
model's: 8, 39, 159. -/
def Sys2Proof.Claims.StagingAndActivation : Prop :=
  ∀ (s : State) (port : Port),
    let w := fun (cmd : W32) => storeRw rSEC_FW_CTL cmd (granted port 3 s.blk)
    (actsNowNat s.blk port rSEC_FW_CTL 1 = true → secRuns (w 1) = true →
      exec (.stageRow port) s = .next (s.after (setFwState 1 (w 1)))) ∧
    (hostClear s.blk = true → fwState s.blk = 1 → unverified s.blk = false →
      let pa := rd64 s.blk rSEC_FW_SRC_LO
      let n := get s.blk fSEC_FW_LEN_BYTES
      let img := memBytes s.blk pa n
      let r := verifyImage s.blk img (some n)
      ((rangeReachable s.blk pa n = false ∨ anyPoison s.blk pa n = true) → s.blk.fw.staged = [] →
        exec .stageCompleteRow s = .next (s.after (raise 3 32 (setFwResult 5 (setFwState 0 s.blk))))) ∧
      (rangeReachable s.blk pa n = true → anyPoison s.blk pa n = false →
        (r = 0 → exec .stageCompleteRow s = .next (s.after (raise 3 16 (setFwResult 1 (setFwState 2
          (put fSEC_FW_STAGED_EPOCH (imageEpoch img) (setFw (fun f => { f with staged := img }) s.blk))))))) ∧
        (r ≠ 0 → s.blk.fw.staged = [] →
          exec .stageCompleteRow s = .next (s.after (raise 3 32 (setFwResult r (setFwState 0 s.blk))))))) ∧
    (actsNowNat s.blk port rSEC_FW_CTL 2 = true →
      let b := put fSEC_FW_WAIT_SECONDS 0 (setFwState 3 (setFw (fun f => { f with waited := 0 }) (w 2)))
      (rollMay b = true → b.fw.fd1Quiet = true → exec (.activateRow port) s = .next (s.after (rollBegin b))) ∧
      ((rollMay b = false ∨ b.fw.fd1Quiet = false) → exec (.activateRow port) s = .next (s.after b))) ∧
    (actsNowNat s.blk port rSEC_FW_CTL 3 = true → fwState s.blk = 2 → s.blk.fw.staged ≠ [] →
      exec (.fwDiscardRow port) s = .next (s.after (setFwResult 9 (setFwState 0
        (put fSEC_FW_STAGED_EPOCH 0 (setFw (fun f => { f with staged := [] }) (w 3))))))) ∧
    (rollMay s.blk = true → fwState s.blk = 3 → exec .rollStartRow s = .next (s.after
      (rollBegin (setFw (fun f => { f with fd1Quiet := true }) s.blk)))) ∧
    (fwState s.blk = 3 → exec .updateDeferredRow s = .next (s.after
      (post 0x0500 3 (get s.blk fSEC_FW_WAIT_SECONDS + fdLevel s.blk * 2 ^ 32 + get s.blk fPW_FW_ACT_HOLD * 2 ^ 34) s.blk)))

/-- 16 R462–R464, 18 R501: the steps of a roll. It starts with RCX. A processor that steps runs again and loads its section of the staged image,
ROLL_POS counts it, and the next processor stops; after SEC's step the banks switch. A step that fails turns the roll back: the failed
processor restarts, and the processors that stepped go back, last first. Readings that the log declares as the model's: 97. -/
def Sys2Proof.Claims.RollSteps : Prop :=
  ∀ s : State,
    (fwState (rollBegin s.blk) = 4 ∧ (rollBegin s.blk).fw.stepping = some 3 ∧ get (rollBegin s.blk) fSEC_FW_STAT_ROLL_POS = 0 ∧
      (rollBegin s.blk).fw.order = 2 :: 1 :: (List.range 32).map (fun n => 4 + n) ++ [0]) ∧
    (∀ p q rest, fwState s.blk = 4 → s.blk.fw.stepping = some p → s.blk.fw.order = q :: rest → 1 ≤ p → p < 4 → q < 4 →
      s.blk.fw.paused = false → (p = 1 → s.blk.fw.pwrWrites = [] ∧ s.blk.fw.pwrPosts = [] ∧ s.blk.act.held = []) →
      get s.blk fSEC_FW_STAT_ROLL_POS < 36 →
      ∃ b : Block, exec .rollStepCompleteRow s = .next (s.after b) ∧ b.fw.stepping = some q ∧ b.fw.order = rest ∧
        b.fw.stepped = p :: s.blk.fw.stepped ∧ get b fSEC_FW_STAT_ROLL_POS = get s.blk fSEC_FW_STAT_ROLL_POS + 1 ∧
        fwState b = 4 ∧ b.mem = s.blk.mem ∧ b.cmds = s.blk.cmds ∧
        ∀ u ∈ unitProcs p, mapGet [] b.fw.store u = sectionBytes s.blk.fw.staged (sectionOf u)) ∧
    (fwState s.blk = 4 → s.blk.fw.stepping = some 0 → s.blk.fw.order = [] → s.blk.fw.paused = false →
      get s.blk fSEC_ATT_STAT_STATE ≠ 2 →
      ∃ b : Block, exec .rollStepCompleteRow s = .next (s.after b) ∧ fwState b = 0 ∧ get b fSEC_FW_STAT_RESULT = 7 ∧
        b.fw.active = s.blk.fw.staged ∧ b.fw.staged = [] ∧ b.fw.runMap = 0 ∧
        get b fSEC_FW_EPOCH_EPOCH = imageEpoch s.blk.fw.staged ∧ b.cmds = s.blk.cmds ∧
        rollbackFloor s.blk ≤ rollbackFloor b) ∧
    (∀ p, fwState s.blk = 4 → s.blk.fw.stepping = some p → p < 3 ∧ p ≠ 2 → (proc s.blk p).heldDown = false →
      ∃ b : Block, exec .rollStepFailRow s = .next (s.after b) ∧ fwState b = 5 ∧ b.fw.failed = some p ∧
        b.fw.order = s.blk.fw.stepped ∧ (proc b p).down = true ∧ b.mem = s.blk.mem ∧ b.cmds = s.blk.cmds)

/-- 16 R460–R464, 18 R500, R501: staging, activation and the steps of a roll.
Commands whose next state it gives, wherever its hypotheses on the state and the operands hold: stageRow, stageCompleteRow, activateRow,
fwDiscardRow, rollStartRow, updateDeferredRow, rollStepCompleteRow, rollStepFailRow. -/
def Obligations.Rolls : Prop :=
  Claims.StagingAndActivation ∧ Claims.RollSteps

/-- 17 R493, 18 R502: boot. Each phase of a powered module that has not failed, and does not wait for MOD_RST_N, does its work and shows the
next: POWER raises PWR_GOOD and latches the straps, CLOCKS locks the root and starts PWR and SEC, VERIFY takes a bank that passes or fails
the boot, FABRIC zeroes staging and trains the ports, MEMORY zeroes HBM after a cold boot alone, CLUSTERS powers the usable clusters, those
that the host parked to RETAIN (17 R486), unless FD3 holds them off, SCHEDULER sets READY. A phase past its limit sets BOOT_FAIL and the
alert. Readings that the log declares as the model's: 5, 8, 127, 151, 160.
Commands whose next state it gives, wherever its hypotheses on the state and the operands hold: bootPhaseTimeout, bootPhaseComplete. -/
def Obligations.BootSequence : Prop :=
  ∀ (s : State) (ls cs : List Nat) (sp rg : List (Nat × Nat × Nat)), ready s.blk = false → s.blk.pwr.rstWait = false →
    let phase := get s.blk fDEV_BLK_STAT_BOOT_PHASE
    (powered s.blk = true → exec .bootPhaseTimeout s = .next (s.after
      (alert 32 (put fDEV_BLK_STAT_BOOT_FAIL 1 (setPwr (fun x => { x with bootFail := true }) s.blk))))) ∧
    (powered s.blk = true → s.blk.pwr.bootFail = false →
      (phase = 0 → s.blk.pwr.rail = .charging → exec (.bootPhaseComplete ls cs sp rg) s = .next (s.after
        (put fDEV_BLK_STAT_BOOT_PHASE 1 (strapLatch
          (setPwr (fun x => { x with rail := .up, pwrGood := true, rstWait := !x.modRstN }) s.blk))))) ∧
      (phase = 1 → s.blk.pwr.refclk = true → exec (.bootPhaseComplete ls cs sp rg) s = .next (s.after
        (put fDEV_BLK_STAT_BOOT_PHASE 2 (secBoot (setDoms [domPwr, domSec] 2 (put fPW_CLK_ROOT_LOCK 1
          (if s.blk.pwr.cold then s.blk else strapLatch s.blk))))))) ∧
      (phase = 2 →
        let r := verifyImage s.blk s.blk.fw.active none
        (r = 0 → exec (.bootPhaseComplete ls cs sp rg) s = .next (s.after (put fDEV_BLK_STAT_BOOT_PHASE 3 (loadImages s.blk)))) ∧
        (r ≠ 0 → s.blk.fw.staged = [] → exec (.bootPhaseComplete ls cs sp rg) s = .next (s.after
          (bootFailed (put fSEC_BOOT_VERIFY_FAIL r s.blk))))) ∧
      (phase = 3 → ∃ b : Block, exec (.bootPhaseComplete ls cs sp rg) s = .next (s.after b) ∧ get b fDEV_BLK_STAT_BOOT_PHASE = 4 ∧
        portState b 0 = 1 ∧ portState b 1 = 1 ∧ get b fPW_CLK_FCLK_OUT = 1 ∧ ∀ pa, 0x8000000000 ≤ pa → pa < 0x8010000000 → memByte b pa = 0) ∧
      (phase = 4 → (∀ l, l < 12 → dom s.blk (domLode l) ≠ 3) → ∃ b : Block, exec (.bootPhaseComplete [] cs [] []) s = .next (s.after b) ∧
        get b fDEV_BLK_STAT_BOOT_PHASE = 5 ∧ (∀ l, l < 12 → get b (fLD_BLK_STAT_TRAINED l) = 1 ∧ dom b (domLode l) = if fdLevel s.blk = 3 then 1 else 2) ∧
        (∀ pa, pa < 0x8000000000 → memByte b pa = if s.blk.pwr.cold then 0 else memByte s.blk pa)) ∧
      (phase = 5 → ∃ b : Block, exec (.bootPhaseComplete ls [] sp rg) s = .next (s.after b) ∧ get b fDEV_BLK_STAT_BOOT_PHASE = 6 ∧
        get b fPW_CLK_ACLK_OUT = 1 ∧ ∀ c, fdLevel s.blk ≠ 3 → (usableClusters s.blk).contains c = true →
          (isSet s.blk (fCL_BLK_STAT_PARKED c) = true → dom s.blk c = 0 → dom b c = 1) ∧
          ((runningClusters s.blk).contains c = true → dom s.blk c ≠ 3 → dom b c = 2)) ∧
      (phase = 5 → ∀ c : Fin 32,
        let a := put fPW_CLK_ACLK_OUT 1 s.blk
        let on := if fdLevel a = 3 then a else clustersBack (setDoms [domRed 0, domRed 1] 2 a)
        exec (.bootPhaseComplete ls [c.val] sp rg) s = .next (s.after (put fDEV_BLK_STAT_BOOT_PHASE 6
          (retireCluster c 6 true on)))) ∧
      (phase = 6 → get s.blk fPW_COOL_STRAP ≠ 3 → ∃ b : Block, exec (.bootPhaseComplete ls cs sp rg) s = .next (s.after b) ∧
        ready b = true ∧ activity b = activity s.blk ∧ b.mem = s.blk.mem))

/-- 18 R506, R510–R514: attestation and the test port. REQ makes SEC read the nonce once, or waits while SEC is down; the report and the
certificate go to the buffer. While PWR_GOOD is high the TAP selects its instructions and shifts out what they capture; EXTEST, CLAMP and
HIGHZ fence all work; a token that passes every check unlocks debug or blows its lifecycle code, any other is counted, and each draws a new
challenge; DBG_WINDOW runs one access of the test authority. TRST_N resets the TAP alone. Readings that the log declares as the model's: 8,
105, 114, 152.
Commands whose next state it gives, wherever its hypotheses on the state and the operands hold: attestReq, attestationComplete, trstN,
jtagBypass, jtagIdcode, jtagSamplePreload, jtagExtest, jtagClamp, jtagHighz, dbgChalRow, dbgTokenRow, dbgWindowRow. -/
def Obligations.AttestationAndTestPort : Prop :=
  ∀ (s : State) (bits : List Bool) (t : List Byte) (off : Nat) (v : W32),
    let ir := fun (code : Nat) => ({ s.blk with dbg := { s.blk.dbg with ir := code } } : Block)
    (hostClear s.blk = true → actsNowNat s.blk .ch0 rSEC_ATT_CTL 1 = true →
      let b := storeRw rSEC_ATT_CTL 1 (granted .ch0 3 s.blk)
      let taken : Block := { b with attNonce := memBytes b (rd64 b rSEC_ATT_PA_LO + 0x40) 64 }
      (secRuns b = true → exec .attestReq s = .next (s.after (put fSEC_ATT_STAT_RESULT 0 (put fSEC_ATT_STAT_STATE 2 taken)))) ∧
      (secRuns b = false → exec .attestReq s = .next (s.after (put fSEC_ATT_STAT_STATE 1 b)))) ∧
    (hostClear s.blk = true → get s.blk fSEC_ATT_STAT_STATE = 2 →
      let pa := rd64 s.blk rSEC_ATT_PA_LO
      let b := put fSEC_ATT_STAT_STATE 0 s.blk
      let cert := if lifecycle s.blk = 2 then s.blk.fuses.cert.take 2048 else []
      rangeReachable b pa 4096 = true →
      exec .attestationComplete s = .next (s.after (raise 3 128 (put fSEC_ATT_STAT_RESULT 1 (put fSEC_ATT_STAT_CERT_LEN cert.length
        (memWrite (pa + 0x400) cert (memWrite pa (attReport b) b))))))) ∧
    exec .trstN s = .next (s.after { s.blk with dbg := { s.blk.dbg with ir := 0xFF, boundary := [] } }) ∧
    (s.blk.pwr.pwrGood = true →
      exec .jtagBypass s = .next (s.after (emit (.tdo 0 1) (ir 0xFF))) ∧
      exec .jtagIdcode s = .next (s.after (emit (.tdo 0x1B24074B 32) (ir 1))) ∧
      (let b := emit (.tdo (bitsNat s.blk.dbg.boundary) s.blk.dbg.boundary.length) (ir 2)
       exec (.jtagSamplePreload bits) s = .next (s.after { b with dbg := { b.dbg with boundary := bits } })) ∧
      (powered s.blk = true →
        (let fenced := fun (code : Nat) => fenceAll (setPwr (fun x => { x with hardFence := true }) (ir code))
         exec .jtagExtest s = .next (s.after (fenced 3)) ∧ exec .jtagClamp s = .next (s.after (fenced 4)) ∧
         exec .jtagHighz s = .next (s.after (fenced 5)))) ∧
      exec .dbgChalRow s = .next (s.after
        (emit (.tdo (s.blk.dbg.challenge + leNat (binding s.blk) * 2 ^ 128) 384) (ir 0x20))) ∧
      (powered s.blk = true → 2 ≤ get s.blk fDEV_BLK_STAT_BOOT_PHASE → secRuns s.blk = true →
        let g := fieldAt t 4 2
        (tokenOk (ir 0x21) t = true → g.testBit 14 = false → g.testBit 15 = false →
          exec (.dbgTokenRow t) s = .next (s.after (raise 3 256 (freshChallenge (unlock g (ir 0x21)))))) ∧
        (tokenOk (ir 0x21) t = true → (g.testBit 14 = true ∨ g.testBit 15 = true) →
          exec (.dbgTokenRow t) s = .next (s.after (raise 3 256 (freshChallenge (blowCode g (ir 0x21)))))) ∧
        (tokenOk (ir 0x21) t = false →
          exec (.dbgTokenRow t) s = .next (s.after (freshChallenge (raise 3 512 (bump fSEC_DBG_REFUSED 1 (ir 0x21))))))) ∧
      (let x := drawFree (ir 0x22)
       let b := emit (.tdo (x.1 % 2 ^ 25 + s.blk.dbg.winData * 2 ^ 25 + b2n s.blk.dbg.winDone * 2 ^ 57) 58) x.2
       let r := regRead .test (off % 2 ^ 24) 4 b
       let w := regWrite .test (off % 2 ^ 24) v b
       exec (.dbgWindowRow false off v) s = .next (s.after
         { r.2 with dbg := { r.2.dbg with winData := r.1.toNat, winDone := true } }) ∧
       exec (.dbgWindowRow true off v) s = .next (s.after
         { w with dbg := { w.dbg with winDone := decide (w.act.held.length ≤ s.blk.act.held.length) } })))

/-! ### Shared rules -/

/-- 01 R25: the arbitration operation of every arbiter: it grants the requester that comes first in the order from its pointer on, and sets the
pointer one past it; without a request the pointer stays; at reset every pointer is 0. -/
def Obligations.RoundRobin : Prop :=
  ∀ (a n : Nat) (req : Nat → Bool) (b : Block),
    mapGet 0 State.reset.blk.arb a = 0 ∧
    (mapGet 0 b.arb a < n →
      (∀ i, i < n → req i = true →
        (∀ k, k < n → req k = true → (i + n - mapGet 0 b.arb a) % n ≤ (k + n - mapGet 0 b.arb a) % n) →
        (rrGrant a n req b).1 = some i ∧ mapGet 0 (rrGrant a n req b).2.arb a = (i + 1) % n ∧
          { (rrGrant a n req b).2 with arb := b.arb } = b) ∧
      ((∀ i, i < n → req i = false) → rrGrant a n req b = (none, b)) ∧
      ((∃ i, i < n ∧ req i = true) → ∃ i, i < n ∧ req i = true ∧ (rrGrant a n req b).1 = some i))

/-- 02 R56: the effective envelope is the lower of the ACTIVE profile's envelope and LIMIT_W; a write below 600 W is discarded as a reserved
encoding (cause 0x1), and 600 W is the lowest that is kept.
Commands whose next state it gives, wherever its hypotheses on the state and the operands hold: limitW. -/
def Obligations.EffectiveEnvelope : Prop :=
  ∀ (s : State) (port : Port) (v : W32),
    envelope s.blk = min (profileW (get s.blk fPW_COOL_ACTIVE)) (get s.blk fPW_LIMIT_LIMIT_W) ∧
    profileW 0 = 1300 ∧ profileW 1 = 2600 ∧ profileW 2 = 2300 ∧ profileW 3 = 1300 ∧
    (authority s.blk port .pw 0x044 = .rw → domOn s.blk domPwr = true → portLive port s.blk = true →
      (field v 11 0 < 600 → exec (.limitW port v) s = .next (s.after (discard 2 0x044 1 (granted port 2 s.blk)))) ∧
      (600 ≤ field v 11 0 → txnState s.blk 2 = 0 → pwrRuns s.blk = true →
        ∃ b : Block, exec (.limitW port v) s = .next (s.after b) ∧ get b fPW_LIMIT_LIMIT_W = field v 11 0 ∧
          envelope b = min (profileW (get s.blk fPW_COOL_ACTIVE)) (field v 11 0)))

/-! ### Commands that no other statement covers on every state -/

/-- 02 R47, 10 R268–R270, R277–R283, 14 R377, 17 R487–R489, 18 R506, R510–R514: each of these commands completes with its own effect. FD_N seen
low or high is taken as it stands, and counts as a cause while the module is powered and does not drive the pin; a die sample shows its
hottest sensor and a regulator fault is a cause; firedamp falls to what its causes call for, FD3 ends at FD1 with its hold, and the hold
ends. A fill moves on by a word and, when all are copied, switches its row group to the spare; a recalibration counts; a stack readout is
kept; a failed lode, staging slice or fabric domain is FAILED. An attestation is taken up or waits, and completes; while PWR_GOOD is high
the TAP carries out each of its instructions, and TRST_N resets it. Readings that the log declares as the model's: 8, 152.
Commands whose next state it gives, wherever its hypotheses on the state and the operands hold: fdNLow, fdNHigh, dieSensorSample,
regulatorFaultRow, firedampFallTimer, fd3RecoveryRow, fd1HoldExpiryRow, fillCopyRow, fillCompleteRow, lodeRecalibration, stackTempReadout,
lodeFailureRow, stagingSliceFailure, fabricDomainFailure, attestReq, attestationComplete, trstN, jtagBypass, jtagIdcode, jtagSamplePreload,
jtagExtest, jtagClamp, jtagHighz, dbgChalRow, dbgTokenRow, dbgWindowRow. -/
def Obligations.CompletingCommands : Prop :=
  ∀ (s : State) (l : Fin 12) (g : Fin 8) (h : Fin 2) (readings : List Nat) (temp off : Nat) (lost : Bool) (bits : List Bool)
    (t : List Byte) (v : W32),
    let does := fun (i : Instr) (p : Block → Prop) => ∃ b : Block, exec i s = .next (s.after b) ∧ p b
    (powered s.blk = true → fdnDriven s.blk = false → does .fdNLow (fun b => b.fd.fdnPin = true ∧ b.fd.fdnCause = true)) ∧
    ((powered s.blk = false ∨ fdnDriven s.blk = true) → does .fdNLow (fun b => b.fd.fdnPin = true ∧ b.fd.fdnCause = s.blk.fd.fdnCause)) ∧
    does .fdNHigh (fun b => b.fd.fdnPin = false ∧ b.fd.fdnCause = false) ∧
    (powered s.blk = true → does (.dieSensorSample readings) (fun b =>
      get b fPW_TEMP_DIE_MAX = min (hottestDie (((List.range 144).zip readings).foldl dieReading s.blk)).2 255)) ∧
    (powered s.blk = true → does (.regulatorFaultRow lost) (fun b =>
      b.fd.regCause = true ∧ b.pwr.pwrGood = (s.blk.pwr.pwrGood && !lost))) ∧
    (fdLevel s.blk ≠ 3 → fdFloor s.blk < fdLevel s.blk → does .firedampFallTimer (fun b => fdLevel b = fdFloor s.blk)) ∧
    (fdLevel s.blk = 3 → fdCalled (setFd (fun x => { x with regCause := false }) s.blk) < 2 →
      does .fd3RecoveryRow (fun b => fdLevel b = 1 ∧ b.fd.fd1Hold = true ∧ b.fd.fd3Latch = false ∧ b.fd.regCause = false)) ∧
    does .fd1HoldExpiryRow (fun b => b.fd.fd1Hold = false) ∧
    (∀ f : Fill, (lode s.blk l).fill = some f → isSet s.blk (fLD_BLK_STAT_SELF_REFRESH l) = false → domOn s.blk (domLode l) = true →
      hbmLost s.blk = false →
      (f.pos < rgWords → (f.lost = true ∨ poisoned s.blk (lodePa l (rgWordAt f.pc f.rg f.pos)) = false) →
        does (.fillCopyRow l [] []) (fun b => (lode b l).fill = some { f with pos := f.pos + 1 })) ∧
      (rgWords ≤ f.pos → (lode s.blk l).queued = [] → does (.fillCompleteRow l) (fun b => (lode b l).fill = none ∧
        (lode b l).remap = (lode s.blk l).remap.filter (fun e => !(e.1 == f.pc && e.2.1 == f.rg)) ++ [(f.pc, f.rg, f.spare)]))) ∧
    does (.lodeRecalibration l) (fun b => (lode b l).recals = (lode s.blk l).recals + 1) ∧
    (isSet s.blk (fBLK_STAT_FAILED (ldBase l)) = false → dom s.blk (domLode l) ≠ 0 →
      does (.stackTempReadout l temp) (fun b => mapGet 0 b.fd.hbm l = temp)) ∧
    (isSet s.blk (fBLK_STAT_FAILED (ldBase l)) = false →
      does (.lodeFailureRow l) (fun b => isSet b (fBLK_STAT_FAILED (ldBase l)) = true ∧ dom b (domLode l) = 3)) ∧
    (isSet s.blk (fBLK_STAT_FAILED (sgBase g)) = false →
      does (.stagingSliceFailure g) (fun b => isSet b (fBLK_STAT_FAILED (sgBase g)) = true ∧ dom b (domSg g) = 3)) ∧
    (dom s.blk (domFab h) ≠ 3 → does (.fabricDomainFailure h) (fun b => dom b (domFab h) = 3)) ∧
    (hostClear s.blk = true → actsNowNat s.blk .ch0 rSEC_ATT_CTL 1 = true →
      does .attestReq (fun b => get b fSEC_ATT_STAT_STATE = if secRuns s.blk then 2 else 1)) ∧
    (hostClear s.blk = true → get s.blk fSEC_ATT_STAT_STATE = 2 → rangeReachable s.blk (rd64 s.blk rSEC_ATT_PA_LO) 4096 = true →
      does .attestationComplete (fun b => get b fSEC_ATT_STAT_STATE = 0 ∧ get b fSEC_ATT_STAT_RESULT = 1)) ∧
    does .trstN (fun b => b.dbg.ir = 0xFF ∧ b.dbg.boundary = []) ∧
    (s.blk.pwr.pwrGood = true →
      does .jtagBypass (fun b => b.dbg.ir = 0xFF) ∧ does .jtagIdcode (fun b => b.dbg.ir = 0x01) ∧
      does (.jtagSamplePreload bits) (fun b => b.dbg.ir = 0x02 ∧ b.dbg.boundary = bits) ∧
      (powered s.blk = true → does .jtagExtest (fun b => b.dbg.ir = 0x03 ∧ b.pwr.hardFence = true) ∧
        does .jtagClamp (fun b => b.dbg.ir = 0x04 ∧ b.pwr.hardFence = true) ∧
        does .jtagHighz (fun b => b.dbg.ir = 0x05 ∧ b.pwr.hardFence = true)) ∧
      does .dbgChalRow (fun b => b.dbg.ir = 0x20 ∧ b.dbg.challenge = s.blk.dbg.challenge) ∧
      does (.dbgTokenRow t) (fun b => b.dbg.ir = 0x21) ∧
      does (.dbgWindowRow false off v) (fun b => b.dbg.winDone = true) ∧
      does (.dbgWindowRow true off v) (fun b => b.dbg.winDone = decide (b.act.held.length ≤ s.blk.act.held.length)))
end

