-- ==== Sys2Proof/Laws/Map.lean ====
section
/-!
SUPPORT. Sparse maps and sorted sets: what a write leaves and gives, and that the canonical form is kept.
-/

namespace Sys2Proof.Machine

variable {α : Type} [DecidableEq α] (d : α)

omit [DecidableEq α] in
theorem mapGet_insert_self (m : SMap α) (k : Nat) (v : α) (h : ∀ e ∈ m, e.1 ≠ k) :
    mapGet d (mapInsert m k v) k = v := by
  induction m with
  | nil => simp [mapInsert, mapGet]
  | cons e t ih =>
    have he := h e (by simp)
    have ht := ih (fun x hx => h x (by simp [hx]))
    simp only [mapInsert]
    split <;> simp [mapGet, he, ht]

omit [DecidableEq α] in
theorem mapGet_insert_ne (m : SMap α) {k k' : Nat} (v : α) (h : k ≠ k') :
    mapGet d (mapInsert m k v) k' = mapGet d m k' := by
  induction m with
  | nil => simp [mapInsert, mapGet, h]
  | cons e t ih =>
    simp only [mapInsert]
    split
    · simp [mapGet, h]
    · simp [mapGet, ih]

omit [DecidableEq α] in
theorem mapGet_erase_self (m : SMap α) (k : Nat) : mapGet d (mapErase m k) k = d := by
  induction m with
  | nil => rfl
  | cons e t ih =>
    simp only [mapErase, List.filter_cons] at *
    by_cases h : e.1 = k
    · simp [h, ih]
    · simp [h, mapGet, ih]

omit [DecidableEq α] in
theorem mapGet_erase_ne (m : SMap α) {k k' : Nat} (h : k ≠ k') : mapGet d (mapErase m k) k' = mapGet d m k' := by
  induction m with
  | nil => rfl
  | cons e t ih =>
    simp only [mapErase, List.filter_cons] at *
    by_cases hk : e.1 = k
    · have : e.1 ≠ k' := fun h' => h (hk.symm.trans h')
      simp [hk, mapGet, ih, h]
    · simp [hk, mapGet, ih]

omit [DecidableEq α] in
theorem mapErase_not_mem (m : SMap α) (k : Nat) : ∀ e ∈ mapErase m k, e.1 ≠ k := by
  intro e he
  simpa [mapErase] using (List.mem_filter.mp he).2

/-- A read of the key just written gives the value written. -/
@[simp] theorem mapGet_set_self (m : SMap α) (k : Nat) (v : α) : mapGet d (mapSet d m k v) k = v := by
  simp only [mapSet]
  split
  · next h => rw [mapGet_erase_self, h]
  · exact mapGet_insert_self d _ _ _ (mapErase_not_mem m k)

/-- A write leaves every other key alone. -/
theorem mapGet_set_ne (m : SMap α) {k k' : Nat} (v : α) (h : k ≠ k') : mapGet d (mapSet d m k v) k' = mapGet d m k' := by
  simp only [mapSet]
  split
  · exact mapGet_erase_ne d m h
  · rw [mapGet_insert_ne d _ v h, mapGet_erase_ne d m h]

/-! ### The canonical form -/

/-- A lower bound is below the first key. -/
def aboveLo (lo : Option Nat) (k : Nat) : Prop := ∀ l, lo = some l → l < k

theorem mapWfFrom_cons (lo : Option Nat) (k : Nat) (v : α) (t : SMap α) :
    mapWfFrom d lo ((k, v) :: t) = true ↔ aboveLo lo k ∧ v ≠ d ∧ mapWfFrom d (some k) t = true := by
  cases lo <;> simp [mapWfFrom, aboveLo, and_assoc]

theorem mapWfFrom_weaken {lo lo' : Option Nat} {m : SMap α} (h : ∀ k, aboveLo lo k → aboveLo lo' k)
    (w : mapWfFrom d lo m = true) : mapWfFrom d lo' m = true := by
  cases m with
  | nil => cases lo' <;> rfl
  | cons e t =>
    obtain ⟨k, v⟩ := e
    rw [mapWfFrom_cons] at *
    exact ⟨h _ w.1, w.2⟩

theorem mapWfFrom_filter {lo : Option Nat} {m : SMap α} (p : Nat × α → Bool) (w : mapWfFrom d lo m = true) :
    mapWfFrom d lo (m.filter p) = true := by
  induction m generalizing lo with
  | nil => simpa using w
  | cons e t ih =>
    obtain ⟨k, v⟩ := e
    rw [mapWfFrom_cons] at w
    rw [List.filter_cons]
    split
    · rw [mapWfFrom_cons]
      exact ⟨w.1, w.2.1, ih w.2.2⟩
    · refine ih (mapWfFrom_weaken d (fun j hj l hl => ?_) w.2.2)
      exact Nat.lt_trans (w.1 l hl) (hj k rfl)

theorem mapWfFrom_insert {lo : Option Nat} {m : SMap α} {k : Nat} {v : α} (hlo : aboveLo lo k) (hv : v ≠ d)
    (hk : ∀ e ∈ m, e.1 ≠ k) (w : mapWfFrom d lo m = true) : mapWfFrom d lo (mapInsert m k v) = true := by
  induction m generalizing lo with
  | nil =>
    rw [mapInsert, mapWfFrom_cons]
    exact ⟨hlo, hv, rfl⟩
  | cons e t ih =>
    obtain ⟨k', v'⟩ := e
    have hne : k' ≠ k := hk (k', v') (by simp)
    have w' := w
    rw [mapWfFrom_cons] at w'
    simp only [mapInsert]
    split
    · next hle =>
      rw [mapWfFrom_cons, mapWfFrom_cons]
      refine ⟨hlo, hv, fun l hl => ?_, w'.2⟩
      cases hl
      omega
    · next hle =>
      rw [mapWfFrom_cons]
      refine ⟨w'.1, w'.2.1, ih (fun l hl => ?_) (fun e he => hk e (by simp [he])) w'.2.2⟩
      cases hl
      omega

/-- A write keeps the canonical form. -/
theorem mapWf_set {m : SMap α} (k : Nat) (v : α) (w : mapWf d m = true) : mapWf d (mapSet d m k v) = true := by
  simp only [mapWf, mapSet] at *
  split
  · exact mapWfFrom_filter d _ w
  · next h =>
    exact mapWfFrom_insert d (by intro l hl; cases hl) h (mapErase_not_mem m k) (mapWfFrom_filter d _ w)

/-- So does dropping entries. -/
theorem mapWf_filter {m : SMap α} (p : Nat × α → Bool) (w : mapWf d m = true) : mapWf d (m.filter p) = true :=
  mapWfFrom_filter d p w

end Sys2Proof.Machine
end

