-- ==== Sys2Proof/Laws/State.lean ====
section
/-!
SUPPORT. One lemma per field and update of the block, true by rfl: what each elementary update leaves and what it writes.
-/

namespace Sys2Proof.Machine

variable (b : Block) (s : State)

/-! ### wr -/

@[simp] theorem wr_pwr (o : Nat) (v : W32) : (wr b o v).pwr = b.pwr := rfl
@[simp] theorem wr_regs (o : Nat) (v : W32) : (wr b o v).regs = mapSet (BitVec.ofNat 32 (resetValue o)) b.regs o v := rfl
@[simp] theorem wr_latches (o : Nat) (v : W32) : (wr b o v).latches = b.latches := rfl
@[simp] theorem wr_arb (o : Nat) (v : W32) : (wr b o v).arb = b.arb := rfl
@[simp] theorem wr_txn (o : Nat) (v : W32) : (wr b o v).txn = b.txn := rfl
@[simp] theorem wr_queues (o : Nat) (v : W32) : (wr b o v).queues = b.queues := rfl
@[simp] theorem wr_cmds (o : Nat) (v : W32) : (wr b o v).cmds = b.cmds := rfl
@[simp] theorem wr_dispatches (o : Nat) (v : W32) : (wr b o v).dispatches = b.dispatches := rfl
@[simp] theorem wr_ctxs (o : Nat) (v : W32) : (wr b o v).ctxs = b.ctxs := rfl
@[simp] theorem wr_rings (o : Nat) (v : W32) : (wr b o v).rings = b.rings := rfl
@[simp] theorem wr_mem (o : Nat) (v : W32) : (wr b o v).mem = b.mem := rfl
@[simp] theorem wr_poison (o : Nat) (v : W32) : (wr b o v).poison = b.poison := rfl
@[simp] theorem wr_lodes (o : Nat) (v : W32) : (wr b o v).lodes = b.lodes := rfl
@[simp] theorem wr_sgCatchup (o : Nat) (v : W32) : (wr b o v).sgCatchup = b.sgCatchup := rfl
@[simp] theorem wr_sgScrub (o : Nat) (v : W32) : (wr b o v).sgScrub = b.sgScrub := rfl
@[simp] theorem wr_canary (o : Nat) (v : W32) : (wr b o v).canary = b.canary := rfl
@[simp] theorem wr_canaryLast (o : Nat) (v : W32) : (wr b o v).canaryLast = b.canaryLast := rfl
@[simp] theorem wr_chaell (o : Nat) (v : W32) : (wr b o v).chaell = b.chaell := rfl
@[simp] theorem wr_links (o : Nat) (v : W32) : (wr b o v).links = b.links := rfl
@[simp] theorem wr_bundles (o : Nat) (v : W32) : (wr b o v).bundles = b.bundles := rfl
@[simp] theorem wr_inbox (o : Nat) (v : W32) : (wr b o v).inbox = b.inbox := rfl
@[simp] theorem wr_gang (o : Nat) (v : W32) : (wr b o v).gang = b.gang := rfl
@[simp] theorem wr_lastGen (o : Nat) (v : W32) : (wr b o v).lastGen = b.lastGen := rfl
@[simp] theorem wr_colls (o : Nat) (v : W32) : (wr b o v).colls = b.colls := rfl
@[simp] theorem wr_reports (o : Nat) (v : W32) : (wr b o v).reports = b.reports := rfl
@[simp] theorem wr_fw (o : Nat) (v : W32) : (wr b o v).fw = b.fw := rfl
@[simp] theorem wr_fd (o : Nat) (v : W32) : (wr b o v).fd = b.fd := rfl
@[simp] theorem wr_act (o : Nat) (v : W32) : (wr b o v).act = b.act := rfl
@[simp] theorem wr_paceNext (o : Nat) (v : W32) : (wr b o v).paceNext = b.paceNext := rfl
@[simp] theorem wr_fuses (o : Nat) (v : W32) : (wr b o v).fuses = b.fuses := rfl
@[simp] theorem wr_dbg (o : Nat) (v : W32) : (wr b o v).dbg = b.dbg := rfl
@[simp] theorem wr_attNonce (o : Nat) (v : W32) : (wr b o v).attNonce = b.attNonce := rfl
@[simp] theorem wr_out (o : Nat) (v : W32) : (wr b o v).out = b.out := rfl
@[simp] theorem wr_free (o : Nat) (v : W32) : (wr b o v).free = b.free := rfl
@[simp] theorem wr_pit (o : Nat) (v : W32) : (wr b o v).pit = b.pit := rfl
@[simp] theorem wr_stepStreams (o : Nat) (v : W32) : (wr b o v).stepStreams = b.stepStreams := rfl
@[simp] theorem wr_jobs (o : Nat) (v : W32) : (wr b o v).jobs = b.jobs := rfl
@[simp] theorem wr_ses (o : Nat) (v : W32) : (wr b o v).ses = b.ses := rfl
@[simp] theorem wr_opus (o : Nat) (v : W32) : (wr b o v).opus = b.opus := rfl
@[simp] theorem wr_ves (o : Nat) (v : W32) : (wr b o v).ves = b.ves := rfl
@[simp] theorem wr_lostCl (o : Nat) (v : W32) : (wr b o v).lostCl = b.lostCl := rfl
@[simp] theorem wr_securing (o : Nat) (v : W32) : (wr b o v).securing = b.securing := rfl
@[simp] theorem wr_secFailed (o : Nat) (v : W32) : (wr b o v).secFailed = b.secFailed := rfl
@[simp] theorem wr_keepWriter (o : Nat) (v : W32) : (wr b o v).keepWriter = b.keepWriter := rfl
@[simp] theorem wr_ledger (o : Nat) (v : W32) : (wr b o v).ledger = b.ledger := rfl
@[simp] theorem wr_peerSlot (o : Nat) (v : W32) : (wr b o v).peerSlot = b.peerSlot := rfl
@[simp] theorem wr_peerLate (o : Nat) (v : W32) : (wr b o v).peerLate = b.peerLate := rfl
@[simp] theorem wr_restoring (o : Nat) (v : W32) : (wr b o v).restoring = b.restoring := rfl
@[simp] theorem wr_restoreHeld (o : Nat) (v : W32) : (wr b o v).restoreHeld = b.restoreHeld := rfl
@[simp] theorem wr_hostDead (o : Nat) (v : W32) : (wr b o v).hostDead = b.hostDead := rfl
@[simp] theorem wr_hostFail (o : Nat) (v : W32) : (wr b o v).hostFail = b.hostFail := rfl

/-! ### put -/

@[simp] theorem put_pwr (f : Fld) (v : Nat) : (put f v b).pwr = b.pwr := rfl
theorem put_regs (f : Fld) (v : Nat) : (put f v b).regs = (wr b f.off (setField (rd b f.off) f.msb f.lsb v)).regs := rfl
@[simp] theorem put_latches (f : Fld) (v : Nat) : (put f v b).latches = b.latches := rfl
@[simp] theorem put_arb (f : Fld) (v : Nat) : (put f v b).arb = b.arb := rfl
@[simp] theorem put_txn (f : Fld) (v : Nat) : (put f v b).txn = b.txn := rfl
@[simp] theorem put_queues (f : Fld) (v : Nat) : (put f v b).queues = b.queues := rfl
@[simp] theorem put_cmds (f : Fld) (v : Nat) : (put f v b).cmds = b.cmds := rfl
@[simp] theorem put_dispatches (f : Fld) (v : Nat) : (put f v b).dispatches = b.dispatches := rfl
@[simp] theorem put_ctxs (f : Fld) (v : Nat) : (put f v b).ctxs = b.ctxs := rfl
@[simp] theorem put_rings (f : Fld) (v : Nat) : (put f v b).rings = b.rings := rfl
@[simp] theorem put_mem (f : Fld) (v : Nat) : (put f v b).mem = b.mem := rfl
@[simp] theorem put_poison (f : Fld) (v : Nat) : (put f v b).poison = b.poison := rfl
@[simp] theorem put_lodes (f : Fld) (v : Nat) : (put f v b).lodes = b.lodes := rfl
@[simp] theorem put_sgCatchup (f : Fld) (v : Nat) : (put f v b).sgCatchup = b.sgCatchup := rfl
@[simp] theorem put_sgScrub (f : Fld) (v : Nat) : (put f v b).sgScrub = b.sgScrub := rfl
@[simp] theorem put_canary (f : Fld) (v : Nat) : (put f v b).canary = b.canary := rfl
@[simp] theorem put_canaryLast (f : Fld) (v : Nat) : (put f v b).canaryLast = b.canaryLast := rfl
@[simp] theorem put_chaell (f : Fld) (v : Nat) : (put f v b).chaell = b.chaell := rfl
@[simp] theorem put_links (f : Fld) (v : Nat) : (put f v b).links = b.links := rfl
@[simp] theorem put_bundles (f : Fld) (v : Nat) : (put f v b).bundles = b.bundles := rfl
@[simp] theorem put_inbox (f : Fld) (v : Nat) : (put f v b).inbox = b.inbox := rfl
@[simp] theorem put_gang (f : Fld) (v : Nat) : (put f v b).gang = b.gang := rfl
@[simp] theorem put_lastGen (f : Fld) (v : Nat) : (put f v b).lastGen = b.lastGen := rfl
@[simp] theorem put_colls (f : Fld) (v : Nat) : (put f v b).colls = b.colls := rfl
@[simp] theorem put_reports (f : Fld) (v : Nat) : (put f v b).reports = b.reports := rfl
@[simp] theorem put_fw (f : Fld) (v : Nat) : (put f v b).fw = b.fw := rfl
@[simp] theorem put_fd (f : Fld) (v : Nat) : (put f v b).fd = b.fd := rfl
@[simp] theorem put_act (f : Fld) (v : Nat) : (put f v b).act = b.act := rfl
@[simp] theorem put_paceNext (f : Fld) (v : Nat) : (put f v b).paceNext = b.paceNext := rfl
@[simp] theorem put_fuses (f : Fld) (v : Nat) : (put f v b).fuses = b.fuses := rfl
@[simp] theorem put_dbg (f : Fld) (v : Nat) : (put f v b).dbg = b.dbg := rfl
@[simp] theorem put_attNonce (f : Fld) (v : Nat) : (put f v b).attNonce = b.attNonce := rfl
@[simp] theorem put_out (f : Fld) (v : Nat) : (put f v b).out = b.out := rfl
@[simp] theorem put_free (f : Fld) (v : Nat) : (put f v b).free = b.free := rfl
@[simp] theorem put_pit (f : Fld) (v : Nat) : (put f v b).pit = b.pit := rfl
@[simp] theorem put_stepStreams (f : Fld) (v : Nat) : (put f v b).stepStreams = b.stepStreams := rfl
@[simp] theorem put_jobs (f : Fld) (v : Nat) : (put f v b).jobs = b.jobs := rfl
@[simp] theorem put_ses (f : Fld) (v : Nat) : (put f v b).ses = b.ses := rfl
@[simp] theorem put_opus (f : Fld) (v : Nat) : (put f v b).opus = b.opus := rfl
@[simp] theorem put_ves (f : Fld) (v : Nat) : (put f v b).ves = b.ves := rfl
@[simp] theorem put_lostCl (f : Fld) (v : Nat) : (put f v b).lostCl = b.lostCl := rfl
@[simp] theorem put_securing (f : Fld) (v : Nat) : (put f v b).securing = b.securing := rfl
@[simp] theorem put_secFailed (f : Fld) (v : Nat) : (put f v b).secFailed = b.secFailed := rfl
@[simp] theorem put_keepWriter (f : Fld) (v : Nat) : (put f v b).keepWriter = b.keepWriter := rfl
@[simp] theorem put_ledger (f : Fld) (v : Nat) : (put f v b).ledger = b.ledger := rfl
@[simp] theorem put_peerSlot (f : Fld) (v : Nat) : (put f v b).peerSlot = b.peerSlot := rfl
@[simp] theorem put_peerLate (f : Fld) (v : Nat) : (put f v b).peerLate = b.peerLate := rfl
@[simp] theorem put_restoring (f : Fld) (v : Nat) : (put f v b).restoring = b.restoring := rfl
@[simp] theorem put_restoreHeld (f : Fld) (v : Nat) : (put f v b).restoreHeld = b.restoreHeld := rfl
@[simp] theorem put_hostDead (f : Fld) (v : Nat) : (put f v b).hostDead = b.hostDead := rfl
@[simp] theorem put_hostFail (f : Fld) (v : Nat) : (put f v b).hostFail = b.hostFail := rfl

/-! ### setPwr -/

@[simp] theorem setPwr_pwr (f : Pwr → Pwr) : (setPwr f b).pwr = f b.pwr := rfl
@[simp] theorem setPwr_regs (f : Pwr → Pwr) : (setPwr f b).regs = b.regs := rfl
@[simp] theorem setPwr_latches (f : Pwr → Pwr) : (setPwr f b).latches = b.latches := rfl
@[simp] theorem setPwr_arb (f : Pwr → Pwr) : (setPwr f b).arb = b.arb := rfl
@[simp] theorem setPwr_txn (f : Pwr → Pwr) : (setPwr f b).txn = b.txn := rfl
@[simp] theorem setPwr_queues (f : Pwr → Pwr) : (setPwr f b).queues = b.queues := rfl
@[simp] theorem setPwr_cmds (f : Pwr → Pwr) : (setPwr f b).cmds = b.cmds := rfl
@[simp] theorem setPwr_dispatches (f : Pwr → Pwr) : (setPwr f b).dispatches = b.dispatches := rfl
@[simp] theorem setPwr_ctxs (f : Pwr → Pwr) : (setPwr f b).ctxs = b.ctxs := rfl
@[simp] theorem setPwr_rings (f : Pwr → Pwr) : (setPwr f b).rings = b.rings := rfl
@[simp] theorem setPwr_mem (f : Pwr → Pwr) : (setPwr f b).mem = b.mem := rfl
@[simp] theorem setPwr_poison (f : Pwr → Pwr) : (setPwr f b).poison = b.poison := rfl
@[simp] theorem setPwr_lodes (f : Pwr → Pwr) : (setPwr f b).lodes = b.lodes := rfl
@[simp] theorem setPwr_sgCatchup (f : Pwr → Pwr) : (setPwr f b).sgCatchup = b.sgCatchup := rfl
@[simp] theorem setPwr_sgScrub (f : Pwr → Pwr) : (setPwr f b).sgScrub = b.sgScrub := rfl
@[simp] theorem setPwr_canary (f : Pwr → Pwr) : (setPwr f b).canary = b.canary := rfl
@[simp] theorem setPwr_canaryLast (f : Pwr → Pwr) : (setPwr f b).canaryLast = b.canaryLast := rfl
@[simp] theorem setPwr_chaell (f : Pwr → Pwr) : (setPwr f b).chaell = b.chaell := rfl
@[simp] theorem setPwr_links (f : Pwr → Pwr) : (setPwr f b).links = b.links := rfl
@[simp] theorem setPwr_bundles (f : Pwr → Pwr) : (setPwr f b).bundles = b.bundles := rfl
@[simp] theorem setPwr_inbox (f : Pwr → Pwr) : (setPwr f b).inbox = b.inbox := rfl
@[simp] theorem setPwr_gang (f : Pwr → Pwr) : (setPwr f b).gang = b.gang := rfl
@[simp] theorem setPwr_lastGen (f : Pwr → Pwr) : (setPwr f b).lastGen = b.lastGen := rfl
@[simp] theorem setPwr_colls (f : Pwr → Pwr) : (setPwr f b).colls = b.colls := rfl
@[simp] theorem setPwr_reports (f : Pwr → Pwr) : (setPwr f b).reports = b.reports := rfl
@[simp] theorem setPwr_fw (f : Pwr → Pwr) : (setPwr f b).fw = b.fw := rfl
@[simp] theorem setPwr_fd (f : Pwr → Pwr) : (setPwr f b).fd = b.fd := rfl
@[simp] theorem setPwr_act (f : Pwr → Pwr) : (setPwr f b).act = b.act := rfl
@[simp] theorem setPwr_paceNext (f : Pwr → Pwr) : (setPwr f b).paceNext = b.paceNext := rfl
@[simp] theorem setPwr_fuses (f : Pwr → Pwr) : (setPwr f b).fuses = b.fuses := rfl
@[simp] theorem setPwr_dbg (f : Pwr → Pwr) : (setPwr f b).dbg = b.dbg := rfl
@[simp] theorem setPwr_attNonce (f : Pwr → Pwr) : (setPwr f b).attNonce = b.attNonce := rfl
@[simp] theorem setPwr_out (f : Pwr → Pwr) : (setPwr f b).out = b.out := rfl
@[simp] theorem setPwr_free (f : Pwr → Pwr) : (setPwr f b).free = b.free := rfl
@[simp] theorem setPwr_pit (f : Pwr → Pwr) : (setPwr f b).pit = b.pit := rfl
@[simp] theorem setPwr_stepStreams (f : Pwr → Pwr) : (setPwr f b).stepStreams = b.stepStreams := rfl
@[simp] theorem setPwr_jobs (f : Pwr → Pwr) : (setPwr f b).jobs = b.jobs := rfl
@[simp] theorem setPwr_ses (f : Pwr → Pwr) : (setPwr f b).ses = b.ses := rfl
@[simp] theorem setPwr_opus (f : Pwr → Pwr) : (setPwr f b).opus = b.opus := rfl
@[simp] theorem setPwr_ves (f : Pwr → Pwr) : (setPwr f b).ves = b.ves := rfl
@[simp] theorem setPwr_lostCl (f : Pwr → Pwr) : (setPwr f b).lostCl = b.lostCl := rfl
@[simp] theorem setPwr_securing (f : Pwr → Pwr) : (setPwr f b).securing = b.securing := rfl
@[simp] theorem setPwr_secFailed (f : Pwr → Pwr) : (setPwr f b).secFailed = b.secFailed := rfl
@[simp] theorem setPwr_keepWriter (f : Pwr → Pwr) : (setPwr f b).keepWriter = b.keepWriter := rfl
@[simp] theorem setPwr_ledger (f : Pwr → Pwr) : (setPwr f b).ledger = b.ledger := rfl
@[simp] theorem setPwr_peerSlot (f : Pwr → Pwr) : (setPwr f b).peerSlot = b.peerSlot := rfl
@[simp] theorem setPwr_peerLate (f : Pwr → Pwr) : (setPwr f b).peerLate = b.peerLate := rfl
@[simp] theorem setPwr_restoring (f : Pwr → Pwr) : (setPwr f b).restoring = b.restoring := rfl
@[simp] theorem setPwr_restoreHeld (f : Pwr → Pwr) : (setPwr f b).restoreHeld = b.restoreHeld := rfl
@[simp] theorem setPwr_hostDead (f : Pwr → Pwr) : (setPwr f b).hostDead = b.hostDead := rfl
@[simp] theorem setPwr_hostFail (f : Pwr → Pwr) : (setPwr f b).hostFail = b.hostFail := rfl

/-! ### setFd -/

@[simp] theorem setFd_pwr (f : Fd → Fd) : (setFd f b).pwr = b.pwr := rfl
@[simp] theorem setFd_regs (f : Fd → Fd) : (setFd f b).regs = b.regs := rfl
@[simp] theorem setFd_latches (f : Fd → Fd) : (setFd f b).latches = b.latches := rfl
@[simp] theorem setFd_arb (f : Fd → Fd) : (setFd f b).arb = b.arb := rfl
@[simp] theorem setFd_txn (f : Fd → Fd) : (setFd f b).txn = b.txn := rfl
@[simp] theorem setFd_queues (f : Fd → Fd) : (setFd f b).queues = b.queues := rfl
@[simp] theorem setFd_cmds (f : Fd → Fd) : (setFd f b).cmds = b.cmds := rfl
@[simp] theorem setFd_dispatches (f : Fd → Fd) : (setFd f b).dispatches = b.dispatches := rfl
@[simp] theorem setFd_ctxs (f : Fd → Fd) : (setFd f b).ctxs = b.ctxs := rfl
@[simp] theorem setFd_rings (f : Fd → Fd) : (setFd f b).rings = b.rings := rfl
@[simp] theorem setFd_mem (f : Fd → Fd) : (setFd f b).mem = b.mem := rfl
@[simp] theorem setFd_poison (f : Fd → Fd) : (setFd f b).poison = b.poison := rfl
@[simp] theorem setFd_lodes (f : Fd → Fd) : (setFd f b).lodes = b.lodes := rfl
@[simp] theorem setFd_sgCatchup (f : Fd → Fd) : (setFd f b).sgCatchup = b.sgCatchup := rfl
@[simp] theorem setFd_sgScrub (f : Fd → Fd) : (setFd f b).sgScrub = b.sgScrub := rfl
@[simp] theorem setFd_canary (f : Fd → Fd) : (setFd f b).canary = b.canary := rfl
@[simp] theorem setFd_canaryLast (f : Fd → Fd) : (setFd f b).canaryLast = b.canaryLast := rfl
@[simp] theorem setFd_chaell (f : Fd → Fd) : (setFd f b).chaell = b.chaell := rfl
@[simp] theorem setFd_links (f : Fd → Fd) : (setFd f b).links = b.links := rfl
@[simp] theorem setFd_bundles (f : Fd → Fd) : (setFd f b).bundles = b.bundles := rfl
@[simp] theorem setFd_inbox (f : Fd → Fd) : (setFd f b).inbox = b.inbox := rfl
@[simp] theorem setFd_gang (f : Fd → Fd) : (setFd f b).gang = b.gang := rfl
@[simp] theorem setFd_lastGen (f : Fd → Fd) : (setFd f b).lastGen = b.lastGen := rfl
@[simp] theorem setFd_colls (f : Fd → Fd) : (setFd f b).colls = b.colls := rfl
@[simp] theorem setFd_reports (f : Fd → Fd) : (setFd f b).reports = b.reports := rfl
@[simp] theorem setFd_fw (f : Fd → Fd) : (setFd f b).fw = b.fw := rfl
@[simp] theorem setFd_fd (f : Fd → Fd) : (setFd f b).fd = f b.fd := rfl
@[simp] theorem setFd_act (f : Fd → Fd) : (setFd f b).act = b.act := rfl
@[simp] theorem setFd_paceNext (f : Fd → Fd) : (setFd f b).paceNext = b.paceNext := rfl
@[simp] theorem setFd_fuses (f : Fd → Fd) : (setFd f b).fuses = b.fuses := rfl
@[simp] theorem setFd_dbg (f : Fd → Fd) : (setFd f b).dbg = b.dbg := rfl
@[simp] theorem setFd_attNonce (f : Fd → Fd) : (setFd f b).attNonce = b.attNonce := rfl
@[simp] theorem setFd_out (f : Fd → Fd) : (setFd f b).out = b.out := rfl
@[simp] theorem setFd_free (f : Fd → Fd) : (setFd f b).free = b.free := rfl
@[simp] theorem setFd_pit (f : Fd → Fd) : (setFd f b).pit = b.pit := rfl
@[simp] theorem setFd_stepStreams (f : Fd → Fd) : (setFd f b).stepStreams = b.stepStreams := rfl
@[simp] theorem setFd_jobs (f : Fd → Fd) : (setFd f b).jobs = b.jobs := rfl
@[simp] theorem setFd_ses (f : Fd → Fd) : (setFd f b).ses = b.ses := rfl
@[simp] theorem setFd_opus (f : Fd → Fd) : (setFd f b).opus = b.opus := rfl
@[simp] theorem setFd_ves (f : Fd → Fd) : (setFd f b).ves = b.ves := rfl
@[simp] theorem setFd_lostCl (f : Fd → Fd) : (setFd f b).lostCl = b.lostCl := rfl
@[simp] theorem setFd_securing (f : Fd → Fd) : (setFd f b).securing = b.securing := rfl
@[simp] theorem setFd_secFailed (f : Fd → Fd) : (setFd f b).secFailed = b.secFailed := rfl
@[simp] theorem setFd_keepWriter (f : Fd → Fd) : (setFd f b).keepWriter = b.keepWriter := rfl
@[simp] theorem setFd_ledger (f : Fd → Fd) : (setFd f b).ledger = b.ledger := rfl
@[simp] theorem setFd_peerSlot (f : Fd → Fd) : (setFd f b).peerSlot = b.peerSlot := rfl
@[simp] theorem setFd_peerLate (f : Fd → Fd) : (setFd f b).peerLate = b.peerLate := rfl
@[simp] theorem setFd_restoring (f : Fd → Fd) : (setFd f b).restoring = b.restoring := rfl
@[simp] theorem setFd_restoreHeld (f : Fd → Fd) : (setFd f b).restoreHeld = b.restoreHeld := rfl
@[simp] theorem setFd_hostDead (f : Fd → Fd) : (setFd f b).hostDead = b.hostDead := rfl
@[simp] theorem setFd_hostFail (f : Fd → Fd) : (setFd f b).hostFail = b.hostFail := rfl

/-! ### setFw -/

@[simp] theorem setFw_pwr (f : Fw → Fw) : (setFw f b).pwr = b.pwr := rfl
@[simp] theorem setFw_regs (f : Fw → Fw) : (setFw f b).regs = b.regs := rfl
@[simp] theorem setFw_latches (f : Fw → Fw) : (setFw f b).latches = b.latches := rfl
@[simp] theorem setFw_arb (f : Fw → Fw) : (setFw f b).arb = b.arb := rfl
@[simp] theorem setFw_txn (f : Fw → Fw) : (setFw f b).txn = b.txn := rfl
@[simp] theorem setFw_queues (f : Fw → Fw) : (setFw f b).queues = b.queues := rfl
@[simp] theorem setFw_cmds (f : Fw → Fw) : (setFw f b).cmds = b.cmds := rfl
@[simp] theorem setFw_dispatches (f : Fw → Fw) : (setFw f b).dispatches = b.dispatches := rfl
@[simp] theorem setFw_ctxs (f : Fw → Fw) : (setFw f b).ctxs = b.ctxs := rfl
@[simp] theorem setFw_rings (f : Fw → Fw) : (setFw f b).rings = b.rings := rfl
@[simp] theorem setFw_mem (f : Fw → Fw) : (setFw f b).mem = b.mem := rfl
@[simp] theorem setFw_poison (f : Fw → Fw) : (setFw f b).poison = b.poison := rfl
@[simp] theorem setFw_lodes (f : Fw → Fw) : (setFw f b).lodes = b.lodes := rfl
@[simp] theorem setFw_sgCatchup (f : Fw → Fw) : (setFw f b).sgCatchup = b.sgCatchup := rfl
@[simp] theorem setFw_sgScrub (f : Fw → Fw) : (setFw f b).sgScrub = b.sgScrub := rfl
@[simp] theorem setFw_canary (f : Fw → Fw) : (setFw f b).canary = b.canary := rfl
@[simp] theorem setFw_canaryLast (f : Fw → Fw) : (setFw f b).canaryLast = b.canaryLast := rfl
@[simp] theorem setFw_chaell (f : Fw → Fw) : (setFw f b).chaell = b.chaell := rfl
@[simp] theorem setFw_links (f : Fw → Fw) : (setFw f b).links = b.links := rfl
@[simp] theorem setFw_bundles (f : Fw → Fw) : (setFw f b).bundles = b.bundles := rfl
@[simp] theorem setFw_inbox (f : Fw → Fw) : (setFw f b).inbox = b.inbox := rfl
@[simp] theorem setFw_gang (f : Fw → Fw) : (setFw f b).gang = b.gang := rfl
@[simp] theorem setFw_lastGen (f : Fw → Fw) : (setFw f b).lastGen = b.lastGen := rfl
@[simp] theorem setFw_colls (f : Fw → Fw) : (setFw f b).colls = b.colls := rfl
@[simp] theorem setFw_reports (f : Fw → Fw) : (setFw f b).reports = b.reports := rfl
@[simp] theorem setFw_fw (f : Fw → Fw) : (setFw f b).fw = f b.fw := rfl
@[simp] theorem setFw_fd (f : Fw → Fw) : (setFw f b).fd = b.fd := rfl
@[simp] theorem setFw_act (f : Fw → Fw) : (setFw f b).act = b.act := rfl
@[simp] theorem setFw_paceNext (f : Fw → Fw) : (setFw f b).paceNext = b.paceNext := rfl
@[simp] theorem setFw_fuses (f : Fw → Fw) : (setFw f b).fuses = b.fuses := rfl
@[simp] theorem setFw_dbg (f : Fw → Fw) : (setFw f b).dbg = b.dbg := rfl
@[simp] theorem setFw_attNonce (f : Fw → Fw) : (setFw f b).attNonce = b.attNonce := rfl
@[simp] theorem setFw_out (f : Fw → Fw) : (setFw f b).out = b.out := rfl
@[simp] theorem setFw_free (f : Fw → Fw) : (setFw f b).free = b.free := rfl
@[simp] theorem setFw_pit (f : Fw → Fw) : (setFw f b).pit = b.pit := rfl
@[simp] theorem setFw_stepStreams (f : Fw → Fw) : (setFw f b).stepStreams = b.stepStreams := rfl
@[simp] theorem setFw_jobs (f : Fw → Fw) : (setFw f b).jobs = b.jobs := rfl
@[simp] theorem setFw_ses (f : Fw → Fw) : (setFw f b).ses = b.ses := rfl
@[simp] theorem setFw_opus (f : Fw → Fw) : (setFw f b).opus = b.opus := rfl
@[simp] theorem setFw_ves (f : Fw → Fw) : (setFw f b).ves = b.ves := rfl
@[simp] theorem setFw_lostCl (f : Fw → Fw) : (setFw f b).lostCl = b.lostCl := rfl
@[simp] theorem setFw_securing (f : Fw → Fw) : (setFw f b).securing = b.securing := rfl
@[simp] theorem setFw_secFailed (f : Fw → Fw) : (setFw f b).secFailed = b.secFailed := rfl
@[simp] theorem setFw_keepWriter (f : Fw → Fw) : (setFw f b).keepWriter = b.keepWriter := rfl
@[simp] theorem setFw_ledger (f : Fw → Fw) : (setFw f b).ledger = b.ledger := rfl
@[simp] theorem setFw_peerSlot (f : Fw → Fw) : (setFw f b).peerSlot = b.peerSlot := rfl
@[simp] theorem setFw_peerLate (f : Fw → Fw) : (setFw f b).peerLate = b.peerLate := rfl
@[simp] theorem setFw_restoring (f : Fw → Fw) : (setFw f b).restoring = b.restoring := rfl
@[simp] theorem setFw_restoreHeld (f : Fw → Fw) : (setFw f b).restoreHeld = b.restoreHeld := rfl
@[simp] theorem setFw_hostDead (f : Fw → Fw) : (setFw f b).hostDead = b.hostDead := rfl
@[simp] theorem setFw_hostFail (f : Fw → Fw) : (setFw f b).hostFail = b.hostFail := rfl

/-! ### setGang -/

@[simp] theorem setGang_pwr (f : Gang → Gang) : (setGang f b).pwr = b.pwr := rfl
@[simp] theorem setGang_regs (f : Gang → Gang) : (setGang f b).regs = b.regs := rfl
@[simp] theorem setGang_latches (f : Gang → Gang) : (setGang f b).latches = b.latches := rfl
@[simp] theorem setGang_arb (f : Gang → Gang) : (setGang f b).arb = b.arb := rfl
@[simp] theorem setGang_txn (f : Gang → Gang) : (setGang f b).txn = b.txn := rfl
@[simp] theorem setGang_queues (f : Gang → Gang) : (setGang f b).queues = b.queues := rfl
@[simp] theorem setGang_cmds (f : Gang → Gang) : (setGang f b).cmds = b.cmds := rfl
@[simp] theorem setGang_dispatches (f : Gang → Gang) : (setGang f b).dispatches = b.dispatches := rfl
@[simp] theorem setGang_ctxs (f : Gang → Gang) : (setGang f b).ctxs = b.ctxs := rfl
@[simp] theorem setGang_rings (f : Gang → Gang) : (setGang f b).rings = b.rings := rfl
@[simp] theorem setGang_mem (f : Gang → Gang) : (setGang f b).mem = b.mem := rfl
@[simp] theorem setGang_poison (f : Gang → Gang) : (setGang f b).poison = b.poison := rfl
@[simp] theorem setGang_lodes (f : Gang → Gang) : (setGang f b).lodes = b.lodes := rfl
@[simp] theorem setGang_sgCatchup (f : Gang → Gang) : (setGang f b).sgCatchup = b.sgCatchup := rfl
@[simp] theorem setGang_sgScrub (f : Gang → Gang) : (setGang f b).sgScrub = b.sgScrub := rfl
@[simp] theorem setGang_canary (f : Gang → Gang) : (setGang f b).canary = b.canary := rfl
@[simp] theorem setGang_canaryLast (f : Gang → Gang) : (setGang f b).canaryLast = b.canaryLast := rfl
@[simp] theorem setGang_chaell (f : Gang → Gang) : (setGang f b).chaell = b.chaell := rfl
@[simp] theorem setGang_links (f : Gang → Gang) : (setGang f b).links = b.links := rfl
@[simp] theorem setGang_bundles (f : Gang → Gang) : (setGang f b).bundles = b.bundles := rfl
@[simp] theorem setGang_inbox (f : Gang → Gang) : (setGang f b).inbox = b.inbox := rfl
@[simp] theorem setGang_gang (f : Gang → Gang) : (setGang f b).gang = f b.gang := rfl
@[simp] theorem setGang_lastGen (f : Gang → Gang) : (setGang f b).lastGen = b.lastGen := rfl
@[simp] theorem setGang_colls (f : Gang → Gang) : (setGang f b).colls = b.colls := rfl
@[simp] theorem setGang_reports (f : Gang → Gang) : (setGang f b).reports = b.reports := rfl
@[simp] theorem setGang_fw (f : Gang → Gang) : (setGang f b).fw = b.fw := rfl
@[simp] theorem setGang_fd (f : Gang → Gang) : (setGang f b).fd = b.fd := rfl
@[simp] theorem setGang_act (f : Gang → Gang) : (setGang f b).act = b.act := rfl
@[simp] theorem setGang_paceNext (f : Gang → Gang) : (setGang f b).paceNext = b.paceNext := rfl
@[simp] theorem setGang_fuses (f : Gang → Gang) : (setGang f b).fuses = b.fuses := rfl
@[simp] theorem setGang_dbg (f : Gang → Gang) : (setGang f b).dbg = b.dbg := rfl
@[simp] theorem setGang_attNonce (f : Gang → Gang) : (setGang f b).attNonce = b.attNonce := rfl
@[simp] theorem setGang_out (f : Gang → Gang) : (setGang f b).out = b.out := rfl
@[simp] theorem setGang_free (f : Gang → Gang) : (setGang f b).free = b.free := rfl
@[simp] theorem setGang_pit (f : Gang → Gang) : (setGang f b).pit = b.pit := rfl
@[simp] theorem setGang_stepStreams (f : Gang → Gang) : (setGang f b).stepStreams = b.stepStreams := rfl
@[simp] theorem setGang_jobs (f : Gang → Gang) : (setGang f b).jobs = b.jobs := rfl
@[simp] theorem setGang_ses (f : Gang → Gang) : (setGang f b).ses = b.ses := rfl
@[simp] theorem setGang_opus (f : Gang → Gang) : (setGang f b).opus = b.opus := rfl
@[simp] theorem setGang_ves (f : Gang → Gang) : (setGang f b).ves = b.ves := rfl
@[simp] theorem setGang_lostCl (f : Gang → Gang) : (setGang f b).lostCl = b.lostCl := rfl
@[simp] theorem setGang_securing (f : Gang → Gang) : (setGang f b).securing = b.securing := rfl
@[simp] theorem setGang_secFailed (f : Gang → Gang) : (setGang f b).secFailed = b.secFailed := rfl
@[simp] theorem setGang_keepWriter (f : Gang → Gang) : (setGang f b).keepWriter = b.keepWriter := rfl
@[simp] theorem setGang_ledger (f : Gang → Gang) : (setGang f b).ledger = b.ledger := rfl
@[simp] theorem setGang_peerSlot (f : Gang → Gang) : (setGang f b).peerSlot = b.peerSlot := rfl
@[simp] theorem setGang_peerLate (f : Gang → Gang) : (setGang f b).peerLate = b.peerLate := rfl
@[simp] theorem setGang_restoring (f : Gang → Gang) : (setGang f b).restoring = b.restoring := rfl
@[simp] theorem setGang_restoreHeld (f : Gang → Gang) : (setGang f b).restoreHeld = b.restoreHeld := rfl
@[simp] theorem setGang_hostDead (f : Gang → Gang) : (setGang f b).hostDead = b.hostDead := rfl
@[simp] theorem setGang_hostFail (f : Gang → Gang) : (setGang f b).hostFail = b.hostFail := rfl

/-! ### setPit -/

@[simp] theorem setPit_pwr (f : Pit → Pit) : (setPit f b).pwr = b.pwr := rfl
@[simp] theorem setPit_regs (f : Pit → Pit) : (setPit f b).regs = b.regs := rfl
@[simp] theorem setPit_latches (f : Pit → Pit) : (setPit f b).latches = b.latches := rfl
@[simp] theorem setPit_arb (f : Pit → Pit) : (setPit f b).arb = b.arb := rfl
@[simp] theorem setPit_txn (f : Pit → Pit) : (setPit f b).txn = b.txn := rfl
@[simp] theorem setPit_queues (f : Pit → Pit) : (setPit f b).queues = b.queues := rfl
@[simp] theorem setPit_cmds (f : Pit → Pit) : (setPit f b).cmds = b.cmds := rfl
@[simp] theorem setPit_dispatches (f : Pit → Pit) : (setPit f b).dispatches = b.dispatches := rfl
@[simp] theorem setPit_ctxs (f : Pit → Pit) : (setPit f b).ctxs = b.ctxs := rfl
@[simp] theorem setPit_rings (f : Pit → Pit) : (setPit f b).rings = b.rings := rfl
@[simp] theorem setPit_mem (f : Pit → Pit) : (setPit f b).mem = b.mem := rfl
@[simp] theorem setPit_poison (f : Pit → Pit) : (setPit f b).poison = b.poison := rfl
@[simp] theorem setPit_lodes (f : Pit → Pit) : (setPit f b).lodes = b.lodes := rfl
@[simp] theorem setPit_sgCatchup (f : Pit → Pit) : (setPit f b).sgCatchup = b.sgCatchup := rfl
@[simp] theorem setPit_sgScrub (f : Pit → Pit) : (setPit f b).sgScrub = b.sgScrub := rfl
@[simp] theorem setPit_canary (f : Pit → Pit) : (setPit f b).canary = b.canary := rfl
@[simp] theorem setPit_canaryLast (f : Pit → Pit) : (setPit f b).canaryLast = b.canaryLast := rfl
@[simp] theorem setPit_chaell (f : Pit → Pit) : (setPit f b).chaell = b.chaell := rfl
@[simp] theorem setPit_links (f : Pit → Pit) : (setPit f b).links = b.links := rfl
@[simp] theorem setPit_bundles (f : Pit → Pit) : (setPit f b).bundles = b.bundles := rfl
@[simp] theorem setPit_inbox (f : Pit → Pit) : (setPit f b).inbox = b.inbox := rfl
@[simp] theorem setPit_gang (f : Pit → Pit) : (setPit f b).gang = b.gang := rfl
@[simp] theorem setPit_lastGen (f : Pit → Pit) : (setPit f b).lastGen = b.lastGen := rfl
@[simp] theorem setPit_colls (f : Pit → Pit) : (setPit f b).colls = b.colls := rfl
@[simp] theorem setPit_reports (f : Pit → Pit) : (setPit f b).reports = b.reports := rfl
@[simp] theorem setPit_fw (f : Pit → Pit) : (setPit f b).fw = b.fw := rfl
@[simp] theorem setPit_fd (f : Pit → Pit) : (setPit f b).fd = b.fd := rfl
@[simp] theorem setPit_act (f : Pit → Pit) : (setPit f b).act = b.act := rfl
@[simp] theorem setPit_paceNext (f : Pit → Pit) : (setPit f b).paceNext = b.paceNext := rfl
@[simp] theorem setPit_fuses (f : Pit → Pit) : (setPit f b).fuses = b.fuses := rfl
@[simp] theorem setPit_dbg (f : Pit → Pit) : (setPit f b).dbg = b.dbg := rfl
@[simp] theorem setPit_attNonce (f : Pit → Pit) : (setPit f b).attNonce = b.attNonce := rfl
@[simp] theorem setPit_out (f : Pit → Pit) : (setPit f b).out = b.out := rfl
@[simp] theorem setPit_free (f : Pit → Pit) : (setPit f b).free = b.free := rfl
@[simp] theorem setPit_pit (f : Pit → Pit) : (setPit f b).pit = f b.pit := rfl
@[simp] theorem setPit_stepStreams (f : Pit → Pit) : (setPit f b).stepStreams = b.stepStreams := rfl
@[simp] theorem setPit_jobs (f : Pit → Pit) : (setPit f b).jobs = b.jobs := rfl
@[simp] theorem setPit_ses (f : Pit → Pit) : (setPit f b).ses = b.ses := rfl
@[simp] theorem setPit_opus (f : Pit → Pit) : (setPit f b).opus = b.opus := rfl
@[simp] theorem setPit_ves (f : Pit → Pit) : (setPit f b).ves = b.ves := rfl
@[simp] theorem setPit_lostCl (f : Pit → Pit) : (setPit f b).lostCl = b.lostCl := rfl
@[simp] theorem setPit_securing (f : Pit → Pit) : (setPit f b).securing = b.securing := rfl
@[simp] theorem setPit_secFailed (f : Pit → Pit) : (setPit f b).secFailed = b.secFailed := rfl
@[simp] theorem setPit_keepWriter (f : Pit → Pit) : (setPit f b).keepWriter = b.keepWriter := rfl
@[simp] theorem setPit_ledger (f : Pit → Pit) : (setPit f b).ledger = b.ledger := rfl
@[simp] theorem setPit_peerSlot (f : Pit → Pit) : (setPit f b).peerSlot = b.peerSlot := rfl
@[simp] theorem setPit_peerLate (f : Pit → Pit) : (setPit f b).peerLate = b.peerLate := rfl
@[simp] theorem setPit_restoring (f : Pit → Pit) : (setPit f b).restoring = b.restoring := rfl
@[simp] theorem setPit_restoreHeld (f : Pit → Pit) : (setPit f b).restoreHeld = b.restoreHeld := rfl
@[simp] theorem setPit_hostDead (f : Pit → Pit) : (setPit f b).hostDead = b.hostDead := rfl
@[simp] theorem setPit_hostFail (f : Pit → Pit) : (setPit f b).hostFail = b.hostFail := rfl

/-! ### setRing -/

@[simp] theorem setRing_pwr (n : Nat) (r : Ring) : (setRing n r b).pwr = b.pwr := rfl
@[simp] theorem setRing_regs (n : Nat) (r : Ring) : (setRing n r b).regs = b.regs := rfl
@[simp] theorem setRing_latches (n : Nat) (r : Ring) : (setRing n r b).latches = b.latches := rfl
@[simp] theorem setRing_arb (n : Nat) (r : Ring) : (setRing n r b).arb = b.arb := rfl
@[simp] theorem setRing_txn (n : Nat) (r : Ring) : (setRing n r b).txn = b.txn := rfl
@[simp] theorem setRing_queues (n : Nat) (r : Ring) : (setRing n r b).queues = b.queues := rfl
@[simp] theorem setRing_cmds (n : Nat) (r : Ring) : (setRing n r b).cmds = b.cmds := rfl
@[simp] theorem setRing_dispatches (n : Nat) (r : Ring) : (setRing n r b).dispatches = b.dispatches := rfl
@[simp] theorem setRing_ctxs (n : Nat) (r : Ring) : (setRing n r b).ctxs = b.ctxs := rfl
@[simp] theorem setRing_rings (n : Nat) (r : Ring) : (setRing n r b).rings = mapSet Ring.fresh b.rings n r := rfl
@[simp] theorem setRing_mem (n : Nat) (r : Ring) : (setRing n r b).mem = b.mem := rfl
@[simp] theorem setRing_poison (n : Nat) (r : Ring) : (setRing n r b).poison = b.poison := rfl
@[simp] theorem setRing_lodes (n : Nat) (r : Ring) : (setRing n r b).lodes = b.lodes := rfl
@[simp] theorem setRing_sgCatchup (n : Nat) (r : Ring) : (setRing n r b).sgCatchup = b.sgCatchup := rfl
@[simp] theorem setRing_sgScrub (n : Nat) (r : Ring) : (setRing n r b).sgScrub = b.sgScrub := rfl
@[simp] theorem setRing_canary (n : Nat) (r : Ring) : (setRing n r b).canary = b.canary := rfl
@[simp] theorem setRing_canaryLast (n : Nat) (r : Ring) : (setRing n r b).canaryLast = b.canaryLast := rfl
@[simp] theorem setRing_chaell (n : Nat) (r : Ring) : (setRing n r b).chaell = b.chaell := rfl
@[simp] theorem setRing_links (n : Nat) (r : Ring) : (setRing n r b).links = b.links := rfl
@[simp] theorem setRing_bundles (n : Nat) (r : Ring) : (setRing n r b).bundles = b.bundles := rfl
@[simp] theorem setRing_inbox (n : Nat) (r : Ring) : (setRing n r b).inbox = b.inbox := rfl
@[simp] theorem setRing_gang (n : Nat) (r : Ring) : (setRing n r b).gang = b.gang := rfl
@[simp] theorem setRing_lastGen (n : Nat) (r : Ring) : (setRing n r b).lastGen = b.lastGen := rfl
@[simp] theorem setRing_colls (n : Nat) (r : Ring) : (setRing n r b).colls = b.colls := rfl
@[simp] theorem setRing_reports (n : Nat) (r : Ring) : (setRing n r b).reports = b.reports := rfl
@[simp] theorem setRing_fw (n : Nat) (r : Ring) : (setRing n r b).fw = b.fw := rfl
@[simp] theorem setRing_fd (n : Nat) (r : Ring) : (setRing n r b).fd = b.fd := rfl
@[simp] theorem setRing_act (n : Nat) (r : Ring) : (setRing n r b).act = b.act := rfl
@[simp] theorem setRing_paceNext (n : Nat) (r : Ring) : (setRing n r b).paceNext = b.paceNext := rfl
@[simp] theorem setRing_fuses (n : Nat) (r : Ring) : (setRing n r b).fuses = b.fuses := rfl
@[simp] theorem setRing_dbg (n : Nat) (r : Ring) : (setRing n r b).dbg = b.dbg := rfl
@[simp] theorem setRing_attNonce (n : Nat) (r : Ring) : (setRing n r b).attNonce = b.attNonce := rfl
@[simp] theorem setRing_out (n : Nat) (r : Ring) : (setRing n r b).out = b.out := rfl
@[simp] theorem setRing_free (n : Nat) (r : Ring) : (setRing n r b).free = b.free := rfl
@[simp] theorem setRing_pit (n : Nat) (r : Ring) : (setRing n r b).pit = b.pit := rfl
@[simp] theorem setRing_stepStreams (n : Nat) (r : Ring) : (setRing n r b).stepStreams = b.stepStreams := rfl
@[simp] theorem setRing_jobs (n : Nat) (r : Ring) : (setRing n r b).jobs = b.jobs := rfl
@[simp] theorem setRing_ses (n : Nat) (r : Ring) : (setRing n r b).ses = b.ses := rfl
@[simp] theorem setRing_opus (n : Nat) (r : Ring) : (setRing n r b).opus = b.opus := rfl
@[simp] theorem setRing_ves (n : Nat) (r : Ring) : (setRing n r b).ves = b.ves := rfl
@[simp] theorem setRing_lostCl (n : Nat) (r : Ring) : (setRing n r b).lostCl = b.lostCl := rfl
@[simp] theorem setRing_securing (n : Nat) (r : Ring) : (setRing n r b).securing = b.securing := rfl
@[simp] theorem setRing_secFailed (n : Nat) (r : Ring) : (setRing n r b).secFailed = b.secFailed := rfl
@[simp] theorem setRing_keepWriter (n : Nat) (r : Ring) : (setRing n r b).keepWriter = b.keepWriter := rfl
@[simp] theorem setRing_ledger (n : Nat) (r : Ring) : (setRing n r b).ledger = b.ledger := rfl
@[simp] theorem setRing_peerSlot (n : Nat) (r : Ring) : (setRing n r b).peerSlot = b.peerSlot := rfl
@[simp] theorem setRing_peerLate (n : Nat) (r : Ring) : (setRing n r b).peerLate = b.peerLate := rfl
@[simp] theorem setRing_restoring (n : Nat) (r : Ring) : (setRing n r b).restoring = b.restoring := rfl
@[simp] theorem setRing_restoreHeld (n : Nat) (r : Ring) : (setRing n r b).restoreHeld = b.restoreHeld := rfl
@[simp] theorem setRing_hostDead (n : Nat) (r : Ring) : (setRing n r b).hostDead = b.hostDead := rfl
@[simp] theorem setRing_hostFail (n : Nat) (r : Ring) : (setRing n r b).hostFail = b.hostFail := rfl

/-! ### setCtx -/

@[simp] theorem setCtx_pwr (c : Nat) (x : Ctx) : (setCtx c x b).pwr = b.pwr := rfl
@[simp] theorem setCtx_regs (c : Nat) (x : Ctx) : (setCtx c x b).regs = b.regs := rfl
@[simp] theorem setCtx_latches (c : Nat) (x : Ctx) : (setCtx c x b).latches = b.latches := rfl
@[simp] theorem setCtx_arb (c : Nat) (x : Ctx) : (setCtx c x b).arb = b.arb := rfl
@[simp] theorem setCtx_txn (c : Nat) (x : Ctx) : (setCtx c x b).txn = b.txn := rfl
@[simp] theorem setCtx_queues (c : Nat) (x : Ctx) : (setCtx c x b).queues = b.queues := rfl
@[simp] theorem setCtx_cmds (c : Nat) (x : Ctx) : (setCtx c x b).cmds = b.cmds := rfl
@[simp] theorem setCtx_dispatches (c : Nat) (x : Ctx) : (setCtx c x b).dispatches = b.dispatches := rfl
@[simp] theorem setCtx_ctxs (c : Nat) (x : Ctx) : (setCtx c x b).ctxs = mapSet Ctx.fresh b.ctxs c x := rfl
@[simp] theorem setCtx_rings (c : Nat) (x : Ctx) : (setCtx c x b).rings = b.rings := rfl
@[simp] theorem setCtx_mem (c : Nat) (x : Ctx) : (setCtx c x b).mem = b.mem := rfl
@[simp] theorem setCtx_poison (c : Nat) (x : Ctx) : (setCtx c x b).poison = b.poison := rfl
@[simp] theorem setCtx_lodes (c : Nat) (x : Ctx) : (setCtx c x b).lodes = b.lodes := rfl
@[simp] theorem setCtx_sgCatchup (c : Nat) (x : Ctx) : (setCtx c x b).sgCatchup = b.sgCatchup := rfl
@[simp] theorem setCtx_sgScrub (c : Nat) (x : Ctx) : (setCtx c x b).sgScrub = b.sgScrub := rfl
@[simp] theorem setCtx_canary (c : Nat) (x : Ctx) : (setCtx c x b).canary = b.canary := rfl
@[simp] theorem setCtx_canaryLast (c : Nat) (x : Ctx) : (setCtx c x b).canaryLast = b.canaryLast := rfl
@[simp] theorem setCtx_chaell (c : Nat) (x : Ctx) : (setCtx c x b).chaell = b.chaell := rfl
@[simp] theorem setCtx_links (c : Nat) (x : Ctx) : (setCtx c x b).links = b.links := rfl
@[simp] theorem setCtx_bundles (c : Nat) (x : Ctx) : (setCtx c x b).bundles = b.bundles := rfl
@[simp] theorem setCtx_inbox (c : Nat) (x : Ctx) : (setCtx c x b).inbox = b.inbox := rfl
@[simp] theorem setCtx_gang (c : Nat) (x : Ctx) : (setCtx c x b).gang = b.gang := rfl
@[simp] theorem setCtx_lastGen (c : Nat) (x : Ctx) : (setCtx c x b).lastGen = b.lastGen := rfl
@[simp] theorem setCtx_colls (c : Nat) (x : Ctx) : (setCtx c x b).colls = b.colls := rfl
@[simp] theorem setCtx_reports (c : Nat) (x : Ctx) : (setCtx c x b).reports = b.reports := rfl
@[simp] theorem setCtx_fw (c : Nat) (x : Ctx) : (setCtx c x b).fw = b.fw := rfl
@[simp] theorem setCtx_fd (c : Nat) (x : Ctx) : (setCtx c x b).fd = b.fd := rfl
@[simp] theorem setCtx_act (c : Nat) (x : Ctx) : (setCtx c x b).act = b.act := rfl
@[simp] theorem setCtx_paceNext (c : Nat) (x : Ctx) : (setCtx c x b).paceNext = b.paceNext := rfl
@[simp] theorem setCtx_fuses (c : Nat) (x : Ctx) : (setCtx c x b).fuses = b.fuses := rfl
@[simp] theorem setCtx_dbg (c : Nat) (x : Ctx) : (setCtx c x b).dbg = b.dbg := rfl
@[simp] theorem setCtx_attNonce (c : Nat) (x : Ctx) : (setCtx c x b).attNonce = b.attNonce := rfl
@[simp] theorem setCtx_out (c : Nat) (x : Ctx) : (setCtx c x b).out = b.out := rfl
@[simp] theorem setCtx_free (c : Nat) (x : Ctx) : (setCtx c x b).free = b.free := rfl
@[simp] theorem setCtx_pit (c : Nat) (x : Ctx) : (setCtx c x b).pit = b.pit := rfl
@[simp] theorem setCtx_stepStreams (c : Nat) (x : Ctx) : (setCtx c x b).stepStreams = b.stepStreams := rfl
@[simp] theorem setCtx_jobs (c : Nat) (x : Ctx) : (setCtx c x b).jobs = b.jobs := rfl
@[simp] theorem setCtx_ses (c : Nat) (x : Ctx) : (setCtx c x b).ses = b.ses := rfl
@[simp] theorem setCtx_opus (c : Nat) (x : Ctx) : (setCtx c x b).opus = b.opus := rfl
@[simp] theorem setCtx_ves (c : Nat) (x : Ctx) : (setCtx c x b).ves = b.ves := rfl
@[simp] theorem setCtx_lostCl (c : Nat) (x : Ctx) : (setCtx c x b).lostCl = b.lostCl := rfl
@[simp] theorem setCtx_securing (c : Nat) (x : Ctx) : (setCtx c x b).securing = b.securing := rfl
@[simp] theorem setCtx_secFailed (c : Nat) (x : Ctx) : (setCtx c x b).secFailed = b.secFailed := rfl
@[simp] theorem setCtx_keepWriter (c : Nat) (x : Ctx) : (setCtx c x b).keepWriter = b.keepWriter := rfl
@[simp] theorem setCtx_ledger (c : Nat) (x : Ctx) : (setCtx c x b).ledger = b.ledger := rfl
@[simp] theorem setCtx_peerSlot (c : Nat) (x : Ctx) : (setCtx c x b).peerSlot = b.peerSlot := rfl
@[simp] theorem setCtx_peerLate (c : Nat) (x : Ctx) : (setCtx c x b).peerLate = b.peerLate := rfl
@[simp] theorem setCtx_restoring (c : Nat) (x : Ctx) : (setCtx c x b).restoring = b.restoring := rfl
@[simp] theorem setCtx_restoreHeld (c : Nat) (x : Ctx) : (setCtx c x b).restoreHeld = b.restoreHeld := rfl
@[simp] theorem setCtx_hostDead (c : Nat) (x : Ctx) : (setCtx c x b).hostDead = b.hostDead := rfl
@[simp] theorem setCtx_hostFail (c : Nat) (x : Ctx) : (setCtx c x b).hostFail = b.hostFail := rfl

/-! ### setLode -/

@[simp] theorem setLode_pwr (l : Nat) (x : Lode) : (setLode l x b).pwr = b.pwr := rfl
@[simp] theorem setLode_regs (l : Nat) (x : Lode) : (setLode l x b).regs = b.regs := rfl
@[simp] theorem setLode_latches (l : Nat) (x : Lode) : (setLode l x b).latches = b.latches := rfl
@[simp] theorem setLode_arb (l : Nat) (x : Lode) : (setLode l x b).arb = b.arb := rfl
@[simp] theorem setLode_txn (l : Nat) (x : Lode) : (setLode l x b).txn = b.txn := rfl
@[simp] theorem setLode_queues (l : Nat) (x : Lode) : (setLode l x b).queues = b.queues := rfl
@[simp] theorem setLode_cmds (l : Nat) (x : Lode) : (setLode l x b).cmds = b.cmds := rfl
@[simp] theorem setLode_dispatches (l : Nat) (x : Lode) : (setLode l x b).dispatches = b.dispatches := rfl
@[simp] theorem setLode_ctxs (l : Nat) (x : Lode) : (setLode l x b).ctxs = b.ctxs := rfl
@[simp] theorem setLode_rings (l : Nat) (x : Lode) : (setLode l x b).rings = b.rings := rfl
@[simp] theorem setLode_mem (l : Nat) (x : Lode) : (setLode l x b).mem = b.mem := rfl
@[simp] theorem setLode_poison (l : Nat) (x : Lode) : (setLode l x b).poison = b.poison := rfl
@[simp] theorem setLode_lodes (l : Nat) (x : Lode) : (setLode l x b).lodes = mapSet Lode.fresh b.lodes l x := rfl
@[simp] theorem setLode_sgCatchup (l : Nat) (x : Lode) : (setLode l x b).sgCatchup = b.sgCatchup := rfl
@[simp] theorem setLode_sgScrub (l : Nat) (x : Lode) : (setLode l x b).sgScrub = b.sgScrub := rfl
@[simp] theorem setLode_canary (l : Nat) (x : Lode) : (setLode l x b).canary = b.canary := rfl
@[simp] theorem setLode_canaryLast (l : Nat) (x : Lode) : (setLode l x b).canaryLast = b.canaryLast := rfl
@[simp] theorem setLode_chaell (l : Nat) (x : Lode) : (setLode l x b).chaell = b.chaell := rfl
@[simp] theorem setLode_links (l : Nat) (x : Lode) : (setLode l x b).links = b.links := rfl
@[simp] theorem setLode_bundles (l : Nat) (x : Lode) : (setLode l x b).bundles = b.bundles := rfl
@[simp] theorem setLode_inbox (l : Nat) (x : Lode) : (setLode l x b).inbox = b.inbox := rfl
@[simp] theorem setLode_gang (l : Nat) (x : Lode) : (setLode l x b).gang = b.gang := rfl
@[simp] theorem setLode_lastGen (l : Nat) (x : Lode) : (setLode l x b).lastGen = b.lastGen := rfl
@[simp] theorem setLode_colls (l : Nat) (x : Lode) : (setLode l x b).colls = b.colls := rfl
@[simp] theorem setLode_reports (l : Nat) (x : Lode) : (setLode l x b).reports = b.reports := rfl
@[simp] theorem setLode_fw (l : Nat) (x : Lode) : (setLode l x b).fw = b.fw := rfl
@[simp] theorem setLode_fd (l : Nat) (x : Lode) : (setLode l x b).fd = b.fd := rfl
@[simp] theorem setLode_act (l : Nat) (x : Lode) : (setLode l x b).act = b.act := rfl
@[simp] theorem setLode_paceNext (l : Nat) (x : Lode) : (setLode l x b).paceNext = b.paceNext := rfl
@[simp] theorem setLode_fuses (l : Nat) (x : Lode) : (setLode l x b).fuses = b.fuses := rfl
@[simp] theorem setLode_dbg (l : Nat) (x : Lode) : (setLode l x b).dbg = b.dbg := rfl
@[simp] theorem setLode_attNonce (l : Nat) (x : Lode) : (setLode l x b).attNonce = b.attNonce := rfl
@[simp] theorem setLode_out (l : Nat) (x : Lode) : (setLode l x b).out = b.out := rfl
@[simp] theorem setLode_free (l : Nat) (x : Lode) : (setLode l x b).free = b.free := rfl
@[simp] theorem setLode_pit (l : Nat) (x : Lode) : (setLode l x b).pit = b.pit := rfl
@[simp] theorem setLode_stepStreams (l : Nat) (x : Lode) : (setLode l x b).stepStreams = b.stepStreams := rfl
@[simp] theorem setLode_jobs (l : Nat) (x : Lode) : (setLode l x b).jobs = b.jobs := rfl
@[simp] theorem setLode_ses (l : Nat) (x : Lode) : (setLode l x b).ses = b.ses := rfl
@[simp] theorem setLode_opus (l : Nat) (x : Lode) : (setLode l x b).opus = b.opus := rfl
@[simp] theorem setLode_ves (l : Nat) (x : Lode) : (setLode l x b).ves = b.ves := rfl
@[simp] theorem setLode_lostCl (l : Nat) (x : Lode) : (setLode l x b).lostCl = b.lostCl := rfl
@[simp] theorem setLode_securing (l : Nat) (x : Lode) : (setLode l x b).securing = b.securing := rfl
@[simp] theorem setLode_secFailed (l : Nat) (x : Lode) : (setLode l x b).secFailed = b.secFailed := rfl
@[simp] theorem setLode_keepWriter (l : Nat) (x : Lode) : (setLode l x b).keepWriter = b.keepWriter := rfl
@[simp] theorem setLode_ledger (l : Nat) (x : Lode) : (setLode l x b).ledger = b.ledger := rfl
@[simp] theorem setLode_peerSlot (l : Nat) (x : Lode) : (setLode l x b).peerSlot = b.peerSlot := rfl
@[simp] theorem setLode_peerLate (l : Nat) (x : Lode) : (setLode l x b).peerLate = b.peerLate := rfl
@[simp] theorem setLode_restoring (l : Nat) (x : Lode) : (setLode l x b).restoring = b.restoring := rfl
@[simp] theorem setLode_restoreHeld (l : Nat) (x : Lode) : (setLode l x b).restoreHeld = b.restoreHeld := rfl
@[simp] theorem setLode_hostDead (l : Nat) (x : Lode) : (setLode l x b).hostDead = b.hostDead := rfl
@[simp] theorem setLode_hostFail (l : Nat) (x : Lode) : (setLode l x b).hostFail = b.hostFail := rfl

/-! ### setLink -/

@[simp] theorem setLink_pwr (l : Nat) (x : Link) : (setLink l x b).pwr = b.pwr := rfl
@[simp] theorem setLink_regs (l : Nat) (x : Link) : (setLink l x b).regs = b.regs := rfl
@[simp] theorem setLink_latches (l : Nat) (x : Link) : (setLink l x b).latches = b.latches := rfl
@[simp] theorem setLink_arb (l : Nat) (x : Link) : (setLink l x b).arb = b.arb := rfl
@[simp] theorem setLink_txn (l : Nat) (x : Link) : (setLink l x b).txn = b.txn := rfl
@[simp] theorem setLink_queues (l : Nat) (x : Link) : (setLink l x b).queues = b.queues := rfl
@[simp] theorem setLink_cmds (l : Nat) (x : Link) : (setLink l x b).cmds = b.cmds := rfl
@[simp] theorem setLink_dispatches (l : Nat) (x : Link) : (setLink l x b).dispatches = b.dispatches := rfl
@[simp] theorem setLink_ctxs (l : Nat) (x : Link) : (setLink l x b).ctxs = b.ctxs := rfl
@[simp] theorem setLink_rings (l : Nat) (x : Link) : (setLink l x b).rings = b.rings := rfl
@[simp] theorem setLink_mem (l : Nat) (x : Link) : (setLink l x b).mem = b.mem := rfl
@[simp] theorem setLink_poison (l : Nat) (x : Link) : (setLink l x b).poison = b.poison := rfl
@[simp] theorem setLink_lodes (l : Nat) (x : Link) : (setLink l x b).lodes = b.lodes := rfl
@[simp] theorem setLink_sgCatchup (l : Nat) (x : Link) : (setLink l x b).sgCatchup = b.sgCatchup := rfl
@[simp] theorem setLink_sgScrub (l : Nat) (x : Link) : (setLink l x b).sgScrub = b.sgScrub := rfl
@[simp] theorem setLink_canary (l : Nat) (x : Link) : (setLink l x b).canary = b.canary := rfl
@[simp] theorem setLink_canaryLast (l : Nat) (x : Link) : (setLink l x b).canaryLast = b.canaryLast := rfl
@[simp] theorem setLink_chaell (l : Nat) (x : Link) : (setLink l x b).chaell = b.chaell := rfl
@[simp] theorem setLink_links (l : Nat) (x : Link) : (setLink l x b).links = mapSet Link.fresh b.links l x := rfl
@[simp] theorem setLink_bundles (l : Nat) (x : Link) : (setLink l x b).bundles = b.bundles := rfl
@[simp] theorem setLink_inbox (l : Nat) (x : Link) : (setLink l x b).inbox = b.inbox := rfl
@[simp] theorem setLink_gang (l : Nat) (x : Link) : (setLink l x b).gang = b.gang := rfl
@[simp] theorem setLink_lastGen (l : Nat) (x : Link) : (setLink l x b).lastGen = b.lastGen := rfl
@[simp] theorem setLink_colls (l : Nat) (x : Link) : (setLink l x b).colls = b.colls := rfl
@[simp] theorem setLink_reports (l : Nat) (x : Link) : (setLink l x b).reports = b.reports := rfl
@[simp] theorem setLink_fw (l : Nat) (x : Link) : (setLink l x b).fw = b.fw := rfl
@[simp] theorem setLink_fd (l : Nat) (x : Link) : (setLink l x b).fd = b.fd := rfl
@[simp] theorem setLink_act (l : Nat) (x : Link) : (setLink l x b).act = b.act := rfl
@[simp] theorem setLink_paceNext (l : Nat) (x : Link) : (setLink l x b).paceNext = b.paceNext := rfl
@[simp] theorem setLink_fuses (l : Nat) (x : Link) : (setLink l x b).fuses = b.fuses := rfl
@[simp] theorem setLink_dbg (l : Nat) (x : Link) : (setLink l x b).dbg = b.dbg := rfl
@[simp] theorem setLink_attNonce (l : Nat) (x : Link) : (setLink l x b).attNonce = b.attNonce := rfl
@[simp] theorem setLink_out (l : Nat) (x : Link) : (setLink l x b).out = b.out := rfl
@[simp] theorem setLink_free (l : Nat) (x : Link) : (setLink l x b).free = b.free := rfl
@[simp] theorem setLink_pit (l : Nat) (x : Link) : (setLink l x b).pit = b.pit := rfl
@[simp] theorem setLink_stepStreams (l : Nat) (x : Link) : (setLink l x b).stepStreams = b.stepStreams := rfl
@[simp] theorem setLink_jobs (l : Nat) (x : Link) : (setLink l x b).jobs = b.jobs := rfl
@[simp] theorem setLink_ses (l : Nat) (x : Link) : (setLink l x b).ses = b.ses := rfl
@[simp] theorem setLink_opus (l : Nat) (x : Link) : (setLink l x b).opus = b.opus := rfl
@[simp] theorem setLink_ves (l : Nat) (x : Link) : (setLink l x b).ves = b.ves := rfl
@[simp] theorem setLink_lostCl (l : Nat) (x : Link) : (setLink l x b).lostCl = b.lostCl := rfl
@[simp] theorem setLink_securing (l : Nat) (x : Link) : (setLink l x b).securing = b.securing := rfl
@[simp] theorem setLink_secFailed (l : Nat) (x : Link) : (setLink l x b).secFailed = b.secFailed := rfl
@[simp] theorem setLink_keepWriter (l : Nat) (x : Link) : (setLink l x b).keepWriter = b.keepWriter := rfl
@[simp] theorem setLink_ledger (l : Nat) (x : Link) : (setLink l x b).ledger = b.ledger := rfl
@[simp] theorem setLink_peerSlot (l : Nat) (x : Link) : (setLink l x b).peerSlot = b.peerSlot := rfl
@[simp] theorem setLink_peerLate (l : Nat) (x : Link) : (setLink l x b).peerLate = b.peerLate := rfl
@[simp] theorem setLink_restoring (l : Nat) (x : Link) : (setLink l x b).restoring = b.restoring := rfl
@[simp] theorem setLink_restoreHeld (l : Nat) (x : Link) : (setLink l x b).restoreHeld = b.restoreHeld := rfl
@[simp] theorem setLink_hostDead (l : Nat) (x : Link) : (setLink l x b).hostDead = b.hostDead := rfl
@[simp] theorem setLink_hostFail (l : Nat) (x : Link) : (setLink l x b).hostFail = b.hostFail := rfl

/-! ### setPort -/

@[simp] theorem setPort_pwr (p : Nat) (x : ChPort) : (setPort p x b).pwr = b.pwr := rfl
@[simp] theorem setPort_regs (p : Nat) (x : ChPort) : (setPort p x b).regs = b.regs := rfl
@[simp] theorem setPort_latches (p : Nat) (x : ChPort) : (setPort p x b).latches = b.latches := rfl
@[simp] theorem setPort_arb (p : Nat) (x : ChPort) : (setPort p x b).arb = b.arb := rfl
@[simp] theorem setPort_txn (p : Nat) (x : ChPort) : (setPort p x b).txn = b.txn := rfl
@[simp] theorem setPort_queues (p : Nat) (x : ChPort) : (setPort p x b).queues = b.queues := rfl
@[simp] theorem setPort_cmds (p : Nat) (x : ChPort) : (setPort p x b).cmds = b.cmds := rfl
@[simp] theorem setPort_dispatches (p : Nat) (x : ChPort) : (setPort p x b).dispatches = b.dispatches := rfl
@[simp] theorem setPort_ctxs (p : Nat) (x : ChPort) : (setPort p x b).ctxs = b.ctxs := rfl
@[simp] theorem setPort_rings (p : Nat) (x : ChPort) : (setPort p x b).rings = b.rings := rfl
@[simp] theorem setPort_mem (p : Nat) (x : ChPort) : (setPort p x b).mem = b.mem := rfl
@[simp] theorem setPort_poison (p : Nat) (x : ChPort) : (setPort p x b).poison = b.poison := rfl
@[simp] theorem setPort_lodes (p : Nat) (x : ChPort) : (setPort p x b).lodes = b.lodes := rfl
@[simp] theorem setPort_sgCatchup (p : Nat) (x : ChPort) : (setPort p x b).sgCatchup = b.sgCatchup := rfl
@[simp] theorem setPort_sgScrub (p : Nat) (x : ChPort) : (setPort p x b).sgScrub = b.sgScrub := rfl
@[simp] theorem setPort_canary (p : Nat) (x : ChPort) : (setPort p x b).canary = b.canary := rfl
@[simp] theorem setPort_canaryLast (p : Nat) (x : ChPort) : (setPort p x b).canaryLast = b.canaryLast := rfl
@[simp] theorem setPort_chaell (p : Nat) (x : ChPort) : (setPort p x b).chaell = mapSet ChPort.fresh b.chaell p x := rfl
@[simp] theorem setPort_links (p : Nat) (x : ChPort) : (setPort p x b).links = b.links := rfl
@[simp] theorem setPort_bundles (p : Nat) (x : ChPort) : (setPort p x b).bundles = b.bundles := rfl
@[simp] theorem setPort_inbox (p : Nat) (x : ChPort) : (setPort p x b).inbox = b.inbox := rfl
@[simp] theorem setPort_gang (p : Nat) (x : ChPort) : (setPort p x b).gang = b.gang := rfl
@[simp] theorem setPort_lastGen (p : Nat) (x : ChPort) : (setPort p x b).lastGen = b.lastGen := rfl
@[simp] theorem setPort_colls (p : Nat) (x : ChPort) : (setPort p x b).colls = b.colls := rfl
@[simp] theorem setPort_reports (p : Nat) (x : ChPort) : (setPort p x b).reports = b.reports := rfl
@[simp] theorem setPort_fw (p : Nat) (x : ChPort) : (setPort p x b).fw = b.fw := rfl
@[simp] theorem setPort_fd (p : Nat) (x : ChPort) : (setPort p x b).fd = b.fd := rfl
@[simp] theorem setPort_act (p : Nat) (x : ChPort) : (setPort p x b).act = b.act := rfl
@[simp] theorem setPort_paceNext (p : Nat) (x : ChPort) : (setPort p x b).paceNext = b.paceNext := rfl
@[simp] theorem setPort_fuses (p : Nat) (x : ChPort) : (setPort p x b).fuses = b.fuses := rfl
@[simp] theorem setPort_dbg (p : Nat) (x : ChPort) : (setPort p x b).dbg = b.dbg := rfl
@[simp] theorem setPort_attNonce (p : Nat) (x : ChPort) : (setPort p x b).attNonce = b.attNonce := rfl
@[simp] theorem setPort_out (p : Nat) (x : ChPort) : (setPort p x b).out = b.out := rfl
@[simp] theorem setPort_free (p : Nat) (x : ChPort) : (setPort p x b).free = b.free := rfl
@[simp] theorem setPort_pit (p : Nat) (x : ChPort) : (setPort p x b).pit = b.pit := rfl
@[simp] theorem setPort_stepStreams (p : Nat) (x : ChPort) : (setPort p x b).stepStreams = b.stepStreams := rfl
@[simp] theorem setPort_jobs (p : Nat) (x : ChPort) : (setPort p x b).jobs = b.jobs := rfl
@[simp] theorem setPort_ses (p : Nat) (x : ChPort) : (setPort p x b).ses = b.ses := rfl
@[simp] theorem setPort_opus (p : Nat) (x : ChPort) : (setPort p x b).opus = b.opus := rfl
@[simp] theorem setPort_ves (p : Nat) (x : ChPort) : (setPort p x b).ves = b.ves := rfl
@[simp] theorem setPort_lostCl (p : Nat) (x : ChPort) : (setPort p x b).lostCl = b.lostCl := rfl
@[simp] theorem setPort_securing (p : Nat) (x : ChPort) : (setPort p x b).securing = b.securing := rfl
@[simp] theorem setPort_secFailed (p : Nat) (x : ChPort) : (setPort p x b).secFailed = b.secFailed := rfl
@[simp] theorem setPort_keepWriter (p : Nat) (x : ChPort) : (setPort p x b).keepWriter = b.keepWriter := rfl
@[simp] theorem setPort_ledger (p : Nat) (x : ChPort) : (setPort p x b).ledger = b.ledger := rfl
@[simp] theorem setPort_peerSlot (p : Nat) (x : ChPort) : (setPort p x b).peerSlot = b.peerSlot := rfl
@[simp] theorem setPort_peerLate (p : Nat) (x : ChPort) : (setPort p x b).peerLate = b.peerLate := rfl
@[simp] theorem setPort_restoring (p : Nat) (x : ChPort) : (setPort p x b).restoring = b.restoring := rfl
@[simp] theorem setPort_restoreHeld (p : Nat) (x : ChPort) : (setPort p x b).restoreHeld = b.restoreHeld := rfl
@[simp] theorem setPort_hostDead (p : Nat) (x : ChPort) : (setPort p x b).hostDead = b.hostDead := rfl
@[simp] theorem setPort_hostFail (p : Nat) (x : ChPort) : (setPort p x b).hostFail = b.hostFail := rfl

/-! ### setQueue -/

@[simp] theorem setQueue_pwr (q : Nat) (x : Queue) : (setQueue q x b).pwr = b.pwr := rfl
@[simp] theorem setQueue_regs (q : Nat) (x : Queue) : (setQueue q x b).regs = b.regs := rfl
@[simp] theorem setQueue_latches (q : Nat) (x : Queue) : (setQueue q x b).latches = b.latches := rfl
@[simp] theorem setQueue_arb (q : Nat) (x : Queue) : (setQueue q x b).arb = b.arb := rfl
@[simp] theorem setQueue_txn (q : Nat) (x : Queue) : (setQueue q x b).txn = b.txn := rfl
@[simp] theorem setQueue_queues (q : Nat) (x : Queue) : (setQueue q x b).queues = mapSet Queue.fresh b.queues q x := rfl
@[simp] theorem setQueue_cmds (q : Nat) (x : Queue) : (setQueue q x b).cmds = b.cmds := rfl
@[simp] theorem setQueue_dispatches (q : Nat) (x : Queue) : (setQueue q x b).dispatches = b.dispatches := rfl
@[simp] theorem setQueue_ctxs (q : Nat) (x : Queue) : (setQueue q x b).ctxs = b.ctxs := rfl
@[simp] theorem setQueue_rings (q : Nat) (x : Queue) : (setQueue q x b).rings = b.rings := rfl
@[simp] theorem setQueue_mem (q : Nat) (x : Queue) : (setQueue q x b).mem = b.mem := rfl
@[simp] theorem setQueue_poison (q : Nat) (x : Queue) : (setQueue q x b).poison = b.poison := rfl
@[simp] theorem setQueue_lodes (q : Nat) (x : Queue) : (setQueue q x b).lodes = b.lodes := rfl
@[simp] theorem setQueue_sgCatchup (q : Nat) (x : Queue) : (setQueue q x b).sgCatchup = b.sgCatchup := rfl
@[simp] theorem setQueue_sgScrub (q : Nat) (x : Queue) : (setQueue q x b).sgScrub = b.sgScrub := rfl
@[simp] theorem setQueue_canary (q : Nat) (x : Queue) : (setQueue q x b).canary = b.canary := rfl
@[simp] theorem setQueue_canaryLast (q : Nat) (x : Queue) : (setQueue q x b).canaryLast = b.canaryLast := rfl
@[simp] theorem setQueue_chaell (q : Nat) (x : Queue) : (setQueue q x b).chaell = b.chaell := rfl
@[simp] theorem setQueue_links (q : Nat) (x : Queue) : (setQueue q x b).links = b.links := rfl
@[simp] theorem setQueue_bundles (q : Nat) (x : Queue) : (setQueue q x b).bundles = b.bundles := rfl
@[simp] theorem setQueue_inbox (q : Nat) (x : Queue) : (setQueue q x b).inbox = b.inbox := rfl
@[simp] theorem setQueue_gang (q : Nat) (x : Queue) : (setQueue q x b).gang = b.gang := rfl
@[simp] theorem setQueue_lastGen (q : Nat) (x : Queue) : (setQueue q x b).lastGen = b.lastGen := rfl
@[simp] theorem setQueue_colls (q : Nat) (x : Queue) : (setQueue q x b).colls = b.colls := rfl
@[simp] theorem setQueue_reports (q : Nat) (x : Queue) : (setQueue q x b).reports = b.reports := rfl
@[simp] theorem setQueue_fw (q : Nat) (x : Queue) : (setQueue q x b).fw = b.fw := rfl
@[simp] theorem setQueue_fd (q : Nat) (x : Queue) : (setQueue q x b).fd = b.fd := rfl
@[simp] theorem setQueue_act (q : Nat) (x : Queue) : (setQueue q x b).act = b.act := rfl
@[simp] theorem setQueue_paceNext (q : Nat) (x : Queue) : (setQueue q x b).paceNext = b.paceNext := rfl
@[simp] theorem setQueue_fuses (q : Nat) (x : Queue) : (setQueue q x b).fuses = b.fuses := rfl
@[simp] theorem setQueue_dbg (q : Nat) (x : Queue) : (setQueue q x b).dbg = b.dbg := rfl
@[simp] theorem setQueue_attNonce (q : Nat) (x : Queue) : (setQueue q x b).attNonce = b.attNonce := rfl
@[simp] theorem setQueue_out (q : Nat) (x : Queue) : (setQueue q x b).out = b.out := rfl
@[simp] theorem setQueue_free (q : Nat) (x : Queue) : (setQueue q x b).free = b.free := rfl
@[simp] theorem setQueue_pit (q : Nat) (x : Queue) : (setQueue q x b).pit = b.pit := rfl
@[simp] theorem setQueue_stepStreams (q : Nat) (x : Queue) : (setQueue q x b).stepStreams = b.stepStreams := rfl
@[simp] theorem setQueue_jobs (q : Nat) (x : Queue) : (setQueue q x b).jobs = b.jobs := rfl
@[simp] theorem setQueue_ses (q : Nat) (x : Queue) : (setQueue q x b).ses = b.ses := rfl
@[simp] theorem setQueue_opus (q : Nat) (x : Queue) : (setQueue q x b).opus = b.opus := rfl
@[simp] theorem setQueue_ves (q : Nat) (x : Queue) : (setQueue q x b).ves = b.ves := rfl
@[simp] theorem setQueue_lostCl (q : Nat) (x : Queue) : (setQueue q x b).lostCl = b.lostCl := rfl
@[simp] theorem setQueue_securing (q : Nat) (x : Queue) : (setQueue q x b).securing = b.securing := rfl
@[simp] theorem setQueue_secFailed (q : Nat) (x : Queue) : (setQueue q x b).secFailed = b.secFailed := rfl
@[simp] theorem setQueue_keepWriter (q : Nat) (x : Queue) : (setQueue q x b).keepWriter = b.keepWriter := rfl
@[simp] theorem setQueue_ledger (q : Nat) (x : Queue) : (setQueue q x b).ledger = b.ledger := rfl
@[simp] theorem setQueue_peerSlot (q : Nat) (x : Queue) : (setQueue q x b).peerSlot = b.peerSlot := rfl
@[simp] theorem setQueue_peerLate (q : Nat) (x : Queue) : (setQueue q x b).peerLate = b.peerLate := rfl
@[simp] theorem setQueue_restoring (q : Nat) (x : Queue) : (setQueue q x b).restoring = b.restoring := rfl
@[simp] theorem setQueue_restoreHeld (q : Nat) (x : Queue) : (setQueue q x b).restoreHeld = b.restoreHeld := rfl
@[simp] theorem setQueue_hostDead (q : Nat) (x : Queue) : (setQueue q x b).hostDead = b.hostDead := rfl
@[simp] theorem setQueue_hostFail (q : Nat) (x : Queue) : (setQueue q x b).hostFail = b.hostFail := rfl

/-! ### setCmd -/

@[simp] theorem setCmd_pwr (c : Cmd) : (setCmd c b).pwr = b.pwr := rfl
@[simp] theorem setCmd_regs (c : Cmd) : (setCmd c b).regs = b.regs := rfl
@[simp] theorem setCmd_latches (c : Cmd) : (setCmd c b).latches = b.latches := rfl
@[simp] theorem setCmd_arb (c : Cmd) : (setCmd c b).arb = b.arb := rfl
@[simp] theorem setCmd_txn (c : Cmd) : (setCmd c b).txn = b.txn := rfl
@[simp] theorem setCmd_queues (c : Cmd) : (setCmd c b).queues = b.queues := rfl
@[simp] theorem setCmd_dispatches (c : Cmd) : (setCmd c b).dispatches = b.dispatches := rfl
@[simp] theorem setCmd_ctxs (c : Cmd) : (setCmd c b).ctxs = b.ctxs := rfl
@[simp] theorem setCmd_rings (c : Cmd) : (setCmd c b).rings = b.rings := rfl
@[simp] theorem setCmd_mem (c : Cmd) : (setCmd c b).mem = b.mem := rfl
@[simp] theorem setCmd_poison (c : Cmd) : (setCmd c b).poison = b.poison := rfl
@[simp] theorem setCmd_lodes (c : Cmd) : (setCmd c b).lodes = b.lodes := rfl
@[simp] theorem setCmd_sgCatchup (c : Cmd) : (setCmd c b).sgCatchup = b.sgCatchup := rfl
@[simp] theorem setCmd_sgScrub (c : Cmd) : (setCmd c b).sgScrub = b.sgScrub := rfl
@[simp] theorem setCmd_canary (c : Cmd) : (setCmd c b).canary = b.canary := rfl
@[simp] theorem setCmd_canaryLast (c : Cmd) : (setCmd c b).canaryLast = b.canaryLast := rfl
@[simp] theorem setCmd_chaell (c : Cmd) : (setCmd c b).chaell = b.chaell := rfl
@[simp] theorem setCmd_links (c : Cmd) : (setCmd c b).links = b.links := rfl
@[simp] theorem setCmd_bundles (c : Cmd) : (setCmd c b).bundles = b.bundles := rfl
@[simp] theorem setCmd_inbox (c : Cmd) : (setCmd c b).inbox = b.inbox := rfl
@[simp] theorem setCmd_gang (c : Cmd) : (setCmd c b).gang = b.gang := rfl
@[simp] theorem setCmd_lastGen (c : Cmd) : (setCmd c b).lastGen = b.lastGen := rfl
@[simp] theorem setCmd_colls (c : Cmd) : (setCmd c b).colls = b.colls := rfl
@[simp] theorem setCmd_reports (c : Cmd) : (setCmd c b).reports = b.reports := rfl
@[simp] theorem setCmd_fw (c : Cmd) : (setCmd c b).fw = b.fw := rfl
@[simp] theorem setCmd_fd (c : Cmd) : (setCmd c b).fd = b.fd := rfl
@[simp] theorem setCmd_act (c : Cmd) : (setCmd c b).act = b.act := rfl
@[simp] theorem setCmd_paceNext (c : Cmd) : (setCmd c b).paceNext = b.paceNext := rfl
@[simp] theorem setCmd_fuses (c : Cmd) : (setCmd c b).fuses = b.fuses := rfl
@[simp] theorem setCmd_dbg (c : Cmd) : (setCmd c b).dbg = b.dbg := rfl
@[simp] theorem setCmd_attNonce (c : Cmd) : (setCmd c b).attNonce = b.attNonce := rfl
@[simp] theorem setCmd_out (c : Cmd) : (setCmd c b).out = b.out := rfl
@[simp] theorem setCmd_free (c : Cmd) : (setCmd c b).free = b.free := rfl
@[simp] theorem setCmd_pit (c : Cmd) : (setCmd c b).pit = b.pit := rfl
@[simp] theorem setCmd_stepStreams (c : Cmd) : (setCmd c b).stepStreams = b.stepStreams := rfl
@[simp] theorem setCmd_jobs (c : Cmd) : (setCmd c b).jobs = b.jobs := rfl
@[simp] theorem setCmd_ses (c : Cmd) : (setCmd c b).ses = b.ses := rfl
@[simp] theorem setCmd_opus (c : Cmd) : (setCmd c b).opus = b.opus := rfl
@[simp] theorem setCmd_ves (c : Cmd) : (setCmd c b).ves = b.ves := rfl
@[simp] theorem setCmd_lostCl (c : Cmd) : (setCmd c b).lostCl = b.lostCl := rfl
@[simp] theorem setCmd_securing (c : Cmd) : (setCmd c b).securing = b.securing := rfl
@[simp] theorem setCmd_secFailed (c : Cmd) : (setCmd c b).secFailed = b.secFailed := rfl
@[simp] theorem setCmd_keepWriter (c : Cmd) : (setCmd c b).keepWriter = b.keepWriter := rfl
@[simp] theorem setCmd_ledger (c : Cmd) : (setCmd c b).ledger = b.ledger := rfl
@[simp] theorem setCmd_peerSlot (c : Cmd) : (setCmd c b).peerSlot = b.peerSlot := rfl
@[simp] theorem setCmd_peerLate (c : Cmd) : (setCmd c b).peerLate = b.peerLate := rfl
@[simp] theorem setCmd_restoring (c : Cmd) : (setCmd c b).restoring = b.restoring := rfl
@[simp] theorem setCmd_restoreHeld (c : Cmd) : (setCmd c b).restoreHeld = b.restoreHeld := rfl
@[simp] theorem setCmd_hostDead (c : Cmd) : (setCmd c b).hostDead = b.hostDead := rfl
@[simp] theorem setCmd_hostFail (c : Cmd) : (setCmd c b).hostFail = b.hostFail := rfl

/-! ### setColl -/

@[simp] theorem setColl_pwr (c : Coll) : (setColl c b).pwr = b.pwr := rfl
@[simp] theorem setColl_regs (c : Coll) : (setColl c b).regs = b.regs := rfl
@[simp] theorem setColl_latches (c : Coll) : (setColl c b).latches = b.latches := rfl
@[simp] theorem setColl_arb (c : Coll) : (setColl c b).arb = b.arb := rfl
@[simp] theorem setColl_txn (c : Coll) : (setColl c b).txn = b.txn := rfl
@[simp] theorem setColl_queues (c : Coll) : (setColl c b).queues = b.queues := rfl
@[simp] theorem setColl_cmds (c : Coll) : (setColl c b).cmds = b.cmds := rfl
@[simp] theorem setColl_dispatches (c : Coll) : (setColl c b).dispatches = b.dispatches := rfl
@[simp] theorem setColl_ctxs (c : Coll) : (setColl c b).ctxs = b.ctxs := rfl
@[simp] theorem setColl_rings (c : Coll) : (setColl c b).rings = b.rings := rfl
@[simp] theorem setColl_mem (c : Coll) : (setColl c b).mem = b.mem := rfl
@[simp] theorem setColl_poison (c : Coll) : (setColl c b).poison = b.poison := rfl
@[simp] theorem setColl_lodes (c : Coll) : (setColl c b).lodes = b.lodes := rfl
@[simp] theorem setColl_sgCatchup (c : Coll) : (setColl c b).sgCatchup = b.sgCatchup := rfl
@[simp] theorem setColl_sgScrub (c : Coll) : (setColl c b).sgScrub = b.sgScrub := rfl
@[simp] theorem setColl_canary (c : Coll) : (setColl c b).canary = b.canary := rfl
@[simp] theorem setColl_canaryLast (c : Coll) : (setColl c b).canaryLast = b.canaryLast := rfl
@[simp] theorem setColl_chaell (c : Coll) : (setColl c b).chaell = b.chaell := rfl
@[simp] theorem setColl_links (c : Coll) : (setColl c b).links = b.links := rfl
@[simp] theorem setColl_bundles (c : Coll) : (setColl c b).bundles = b.bundles := rfl
@[simp] theorem setColl_inbox (c : Coll) : (setColl c b).inbox = b.inbox := rfl
@[simp] theorem setColl_gang (c : Coll) : (setColl c b).gang = b.gang := rfl
@[simp] theorem setColl_lastGen (c : Coll) : (setColl c b).lastGen = b.lastGen := rfl
@[simp] theorem setColl_reports (c : Coll) : (setColl c b).reports = b.reports := rfl
@[simp] theorem setColl_fw (c : Coll) : (setColl c b).fw = b.fw := rfl
@[simp] theorem setColl_fd (c : Coll) : (setColl c b).fd = b.fd := rfl
@[simp] theorem setColl_act (c : Coll) : (setColl c b).act = b.act := rfl
@[simp] theorem setColl_paceNext (c : Coll) : (setColl c b).paceNext = b.paceNext := rfl
@[simp] theorem setColl_fuses (c : Coll) : (setColl c b).fuses = b.fuses := rfl
@[simp] theorem setColl_dbg (c : Coll) : (setColl c b).dbg = b.dbg := rfl
@[simp] theorem setColl_attNonce (c : Coll) : (setColl c b).attNonce = b.attNonce := rfl
@[simp] theorem setColl_out (c : Coll) : (setColl c b).out = b.out := rfl
@[simp] theorem setColl_free (c : Coll) : (setColl c b).free = b.free := rfl
@[simp] theorem setColl_pit (c : Coll) : (setColl c b).pit = b.pit := rfl
@[simp] theorem setColl_stepStreams (c : Coll) : (setColl c b).stepStreams = b.stepStreams := rfl
@[simp] theorem setColl_jobs (c : Coll) : (setColl c b).jobs = b.jobs := rfl
@[simp] theorem setColl_ses (c : Coll) : (setColl c b).ses = b.ses := rfl
@[simp] theorem setColl_opus (c : Coll) : (setColl c b).opus = b.opus := rfl
@[simp] theorem setColl_ves (c : Coll) : (setColl c b).ves = b.ves := rfl
@[simp] theorem setColl_lostCl (c : Coll) : (setColl c b).lostCl = b.lostCl := rfl
@[simp] theorem setColl_securing (c : Coll) : (setColl c b).securing = b.securing := rfl
@[simp] theorem setColl_secFailed (c : Coll) : (setColl c b).secFailed = b.secFailed := rfl
@[simp] theorem setColl_keepWriter (c : Coll) : (setColl c b).keepWriter = b.keepWriter := rfl
@[simp] theorem setColl_ledger (c : Coll) : (setColl c b).ledger = b.ledger := rfl
@[simp] theorem setColl_peerSlot (c : Coll) : (setColl c b).peerSlot = b.peerSlot := rfl
@[simp] theorem setColl_peerLate (c : Coll) : (setColl c b).peerLate = b.peerLate := rfl
@[simp] theorem setColl_restoring (c : Coll) : (setColl c b).restoring = b.restoring := rfl
@[simp] theorem setColl_restoreHeld (c : Coll) : (setColl c b).restoreHeld = b.restoreHeld := rfl
@[simp] theorem setColl_hostDead (c : Coll) : (setColl c b).hostDead = b.hostDead := rfl
@[simp] theorem setColl_hostFail (c : Coll) : (setColl c b).hostFail = b.hostFail := rfl

/-! ### setJob -/

@[simp] theorem setJob_pwr (j : Job) : (setJob j b).pwr = b.pwr := rfl
@[simp] theorem setJob_regs (j : Job) : (setJob j b).regs = b.regs := rfl
@[simp] theorem setJob_latches (j : Job) : (setJob j b).latches = b.latches := rfl
@[simp] theorem setJob_arb (j : Job) : (setJob j b).arb = b.arb := rfl
@[simp] theorem setJob_txn (j : Job) : (setJob j b).txn = b.txn := rfl
@[simp] theorem setJob_queues (j : Job) : (setJob j b).queues = b.queues := rfl
@[simp] theorem setJob_cmds (j : Job) : (setJob j b).cmds = b.cmds := rfl
@[simp] theorem setJob_dispatches (j : Job) : (setJob j b).dispatches = b.dispatches := rfl
@[simp] theorem setJob_ctxs (j : Job) : (setJob j b).ctxs = b.ctxs := rfl
@[simp] theorem setJob_rings (j : Job) : (setJob j b).rings = b.rings := rfl
@[simp] theorem setJob_mem (j : Job) : (setJob j b).mem = b.mem := rfl
@[simp] theorem setJob_poison (j : Job) : (setJob j b).poison = b.poison := rfl
@[simp] theorem setJob_lodes (j : Job) : (setJob j b).lodes = b.lodes := rfl
@[simp] theorem setJob_sgCatchup (j : Job) : (setJob j b).sgCatchup = b.sgCatchup := rfl
@[simp] theorem setJob_sgScrub (j : Job) : (setJob j b).sgScrub = b.sgScrub := rfl
@[simp] theorem setJob_canary (j : Job) : (setJob j b).canary = b.canary := rfl
@[simp] theorem setJob_canaryLast (j : Job) : (setJob j b).canaryLast = b.canaryLast := rfl
@[simp] theorem setJob_chaell (j : Job) : (setJob j b).chaell = b.chaell := rfl
@[simp] theorem setJob_links (j : Job) : (setJob j b).links = b.links := rfl
@[simp] theorem setJob_bundles (j : Job) : (setJob j b).bundles = b.bundles := rfl
@[simp] theorem setJob_inbox (j : Job) : (setJob j b).inbox = b.inbox := rfl
@[simp] theorem setJob_gang (j : Job) : (setJob j b).gang = b.gang := rfl
@[simp] theorem setJob_lastGen (j : Job) : (setJob j b).lastGen = b.lastGen := rfl
@[simp] theorem setJob_colls (j : Job) : (setJob j b).colls = b.colls := rfl
@[simp] theorem setJob_reports (j : Job) : (setJob j b).reports = b.reports := rfl
@[simp] theorem setJob_fw (j : Job) : (setJob j b).fw = b.fw := rfl
@[simp] theorem setJob_fd (j : Job) : (setJob j b).fd = b.fd := rfl
@[simp] theorem setJob_act (j : Job) : (setJob j b).act = b.act := rfl
@[simp] theorem setJob_paceNext (j : Job) : (setJob j b).paceNext = b.paceNext := rfl
@[simp] theorem setJob_fuses (j : Job) : (setJob j b).fuses = b.fuses := rfl
@[simp] theorem setJob_dbg (j : Job) : (setJob j b).dbg = b.dbg := rfl
@[simp] theorem setJob_attNonce (j : Job) : (setJob j b).attNonce = b.attNonce := rfl
@[simp] theorem setJob_out (j : Job) : (setJob j b).out = b.out := rfl
@[simp] theorem setJob_free (j : Job) : (setJob j b).free = b.free := rfl
@[simp] theorem setJob_pit (j : Job) : (setJob j b).pit = b.pit := rfl
@[simp] theorem setJob_stepStreams (j : Job) : (setJob j b).stepStreams = b.stepStreams := rfl
@[simp] theorem setJob_ses (j : Job) : (setJob j b).ses = b.ses := rfl
@[simp] theorem setJob_opus (j : Job) : (setJob j b).opus = b.opus := rfl
@[simp] theorem setJob_ves (j : Job) : (setJob j b).ves = b.ves := rfl
@[simp] theorem setJob_lostCl (j : Job) : (setJob j b).lostCl = b.lostCl := rfl
@[simp] theorem setJob_securing (j : Job) : (setJob j b).securing = b.securing := rfl
@[simp] theorem setJob_secFailed (j : Job) : (setJob j b).secFailed = b.secFailed := rfl
@[simp] theorem setJob_keepWriter (j : Job) : (setJob j b).keepWriter = b.keepWriter := rfl
@[simp] theorem setJob_ledger (j : Job) : (setJob j b).ledger = b.ledger := rfl
@[simp] theorem setJob_peerSlot (j : Job) : (setJob j b).peerSlot = b.peerSlot := rfl
@[simp] theorem setJob_peerLate (j : Job) : (setJob j b).peerLate = b.peerLate := rfl
@[simp] theorem setJob_restoring (j : Job) : (setJob j b).restoring = b.restoring := rfl
@[simp] theorem setJob_restoreHeld (j : Job) : (setJob j b).restoreHeld = b.restoreHeld := rfl
@[simp] theorem setJob_hostDead (j : Job) : (setJob j b).hostDead = b.hostDead := rfl
@[simp] theorem setJob_hostFail (j : Job) : (setJob j b).hostFail = b.hostFail := rfl

/-! ### setSe -/

@[simp] theorem setSe_pwr (c : Nat) (x : Se) : (setSe c x b).pwr = b.pwr := rfl
@[simp] theorem setSe_regs (c : Nat) (x : Se) : (setSe c x b).regs = b.regs := rfl
@[simp] theorem setSe_latches (c : Nat) (x : Se) : (setSe c x b).latches = b.latches := rfl
@[simp] theorem setSe_arb (c : Nat) (x : Se) : (setSe c x b).arb = b.arb := rfl
@[simp] theorem setSe_txn (c : Nat) (x : Se) : (setSe c x b).txn = b.txn := rfl
@[simp] theorem setSe_queues (c : Nat) (x : Se) : (setSe c x b).queues = b.queues := rfl
@[simp] theorem setSe_cmds (c : Nat) (x : Se) : (setSe c x b).cmds = b.cmds := rfl
@[simp] theorem setSe_dispatches (c : Nat) (x : Se) : (setSe c x b).dispatches = b.dispatches := rfl
@[simp] theorem setSe_ctxs (c : Nat) (x : Se) : (setSe c x b).ctxs = b.ctxs := rfl
@[simp] theorem setSe_rings (c : Nat) (x : Se) : (setSe c x b).rings = b.rings := rfl
@[simp] theorem setSe_mem (c : Nat) (x : Se) : (setSe c x b).mem = b.mem := rfl
@[simp] theorem setSe_poison (c : Nat) (x : Se) : (setSe c x b).poison = b.poison := rfl
@[simp] theorem setSe_lodes (c : Nat) (x : Se) : (setSe c x b).lodes = b.lodes := rfl
@[simp] theorem setSe_sgCatchup (c : Nat) (x : Se) : (setSe c x b).sgCatchup = b.sgCatchup := rfl
@[simp] theorem setSe_sgScrub (c : Nat) (x : Se) : (setSe c x b).sgScrub = b.sgScrub := rfl
@[simp] theorem setSe_canary (c : Nat) (x : Se) : (setSe c x b).canary = b.canary := rfl
@[simp] theorem setSe_canaryLast (c : Nat) (x : Se) : (setSe c x b).canaryLast = b.canaryLast := rfl
@[simp] theorem setSe_chaell (c : Nat) (x : Se) : (setSe c x b).chaell = b.chaell := rfl
@[simp] theorem setSe_links (c : Nat) (x : Se) : (setSe c x b).links = b.links := rfl
@[simp] theorem setSe_bundles (c : Nat) (x : Se) : (setSe c x b).bundles = b.bundles := rfl
@[simp] theorem setSe_inbox (c : Nat) (x : Se) : (setSe c x b).inbox = b.inbox := rfl
@[simp] theorem setSe_gang (c : Nat) (x : Se) : (setSe c x b).gang = b.gang := rfl
@[simp] theorem setSe_lastGen (c : Nat) (x : Se) : (setSe c x b).lastGen = b.lastGen := rfl
@[simp] theorem setSe_colls (c : Nat) (x : Se) : (setSe c x b).colls = b.colls := rfl
@[simp] theorem setSe_reports (c : Nat) (x : Se) : (setSe c x b).reports = b.reports := rfl
@[simp] theorem setSe_fw (c : Nat) (x : Se) : (setSe c x b).fw = b.fw := rfl
@[simp] theorem setSe_fd (c : Nat) (x : Se) : (setSe c x b).fd = b.fd := rfl
@[simp] theorem setSe_act (c : Nat) (x : Se) : (setSe c x b).act = b.act := rfl
@[simp] theorem setSe_paceNext (c : Nat) (x : Se) : (setSe c x b).paceNext = b.paceNext := rfl
@[simp] theorem setSe_fuses (c : Nat) (x : Se) : (setSe c x b).fuses = b.fuses := rfl
@[simp] theorem setSe_dbg (c : Nat) (x : Se) : (setSe c x b).dbg = b.dbg := rfl
@[simp] theorem setSe_attNonce (c : Nat) (x : Se) : (setSe c x b).attNonce = b.attNonce := rfl
@[simp] theorem setSe_out (c : Nat) (x : Se) : (setSe c x b).out = b.out := rfl
@[simp] theorem setSe_free (c : Nat) (x : Se) : (setSe c x b).free = b.free := rfl
@[simp] theorem setSe_pit (c : Nat) (x : Se) : (setSe c x b).pit = b.pit := rfl
@[simp] theorem setSe_stepStreams (c : Nat) (x : Se) : (setSe c x b).stepStreams = b.stepStreams := rfl
@[simp] theorem setSe_jobs (c : Nat) (x : Se) : (setSe c x b).jobs = b.jobs := rfl
@[simp] theorem setSe_ses (c : Nat) (x : Se) : (setSe c x b).ses = mapSet Se.fresh b.ses c x := rfl
@[simp] theorem setSe_opus (c : Nat) (x : Se) : (setSe c x b).opus = b.opus := rfl
@[simp] theorem setSe_ves (c : Nat) (x : Se) : (setSe c x b).ves = b.ves := rfl
@[simp] theorem setSe_lostCl (c : Nat) (x : Se) : (setSe c x b).lostCl = b.lostCl := rfl
@[simp] theorem setSe_securing (c : Nat) (x : Se) : (setSe c x b).securing = b.securing := rfl
@[simp] theorem setSe_secFailed (c : Nat) (x : Se) : (setSe c x b).secFailed = b.secFailed := rfl
@[simp] theorem setSe_keepWriter (c : Nat) (x : Se) : (setSe c x b).keepWriter = b.keepWriter := rfl
@[simp] theorem setSe_ledger (c : Nat) (x : Se) : (setSe c x b).ledger = b.ledger := rfl
@[simp] theorem setSe_peerSlot (c : Nat) (x : Se) : (setSe c x b).peerSlot = b.peerSlot := rfl
@[simp] theorem setSe_peerLate (c : Nat) (x : Se) : (setSe c x b).peerLate = b.peerLate := rfl
@[simp] theorem setSe_restoring (c : Nat) (x : Se) : (setSe c x b).restoring = b.restoring := rfl
@[simp] theorem setSe_restoreHeld (c : Nat) (x : Se) : (setSe c x b).restoreHeld = b.restoreHeld := rfl
@[simp] theorem setSe_hostDead (c : Nat) (x : Se) : (setSe c x b).hostDead = b.hostDead := rfl
@[simp] theorem setSe_hostFail (c : Nat) (x : Se) : (setSe c x b).hostFail = b.hostFail := rfl

/-! ### setOpu -/

@[simp] theorem setOpu_pwr (o : Nat) (x : Opu) : (setOpu o x b).pwr = b.pwr := rfl
@[simp] theorem setOpu_regs (o : Nat) (x : Opu) : (setOpu o x b).regs = b.regs := rfl
@[simp] theorem setOpu_latches (o : Nat) (x : Opu) : (setOpu o x b).latches = b.latches := rfl
@[simp] theorem setOpu_arb (o : Nat) (x : Opu) : (setOpu o x b).arb = b.arb := rfl
@[simp] theorem setOpu_txn (o : Nat) (x : Opu) : (setOpu o x b).txn = b.txn := rfl
@[simp] theorem setOpu_queues (o : Nat) (x : Opu) : (setOpu o x b).queues = b.queues := rfl
@[simp] theorem setOpu_cmds (o : Nat) (x : Opu) : (setOpu o x b).cmds = b.cmds := rfl
@[simp] theorem setOpu_dispatches (o : Nat) (x : Opu) : (setOpu o x b).dispatches = b.dispatches := rfl
@[simp] theorem setOpu_ctxs (o : Nat) (x : Opu) : (setOpu o x b).ctxs = b.ctxs := rfl
@[simp] theorem setOpu_rings (o : Nat) (x : Opu) : (setOpu o x b).rings = b.rings := rfl
@[simp] theorem setOpu_mem (o : Nat) (x : Opu) : (setOpu o x b).mem = b.mem := rfl
@[simp] theorem setOpu_poison (o : Nat) (x : Opu) : (setOpu o x b).poison = b.poison := rfl
@[simp] theorem setOpu_lodes (o : Nat) (x : Opu) : (setOpu o x b).lodes = b.lodes := rfl
@[simp] theorem setOpu_sgCatchup (o : Nat) (x : Opu) : (setOpu o x b).sgCatchup = b.sgCatchup := rfl
@[simp] theorem setOpu_sgScrub (o : Nat) (x : Opu) : (setOpu o x b).sgScrub = b.sgScrub := rfl
@[simp] theorem setOpu_canary (o : Nat) (x : Opu) : (setOpu o x b).canary = b.canary := rfl
@[simp] theorem setOpu_canaryLast (o : Nat) (x : Opu) : (setOpu o x b).canaryLast = b.canaryLast := rfl
@[simp] theorem setOpu_chaell (o : Nat) (x : Opu) : (setOpu o x b).chaell = b.chaell := rfl
@[simp] theorem setOpu_links (o : Nat) (x : Opu) : (setOpu o x b).links = b.links := rfl
@[simp] theorem setOpu_bundles (o : Nat) (x : Opu) : (setOpu o x b).bundles = b.bundles := rfl
@[simp] theorem setOpu_inbox (o : Nat) (x : Opu) : (setOpu o x b).inbox = b.inbox := rfl
@[simp] theorem setOpu_gang (o : Nat) (x : Opu) : (setOpu o x b).gang = b.gang := rfl
@[simp] theorem setOpu_lastGen (o : Nat) (x : Opu) : (setOpu o x b).lastGen = b.lastGen := rfl
@[simp] theorem setOpu_colls (o : Nat) (x : Opu) : (setOpu o x b).colls = b.colls := rfl
@[simp] theorem setOpu_reports (o : Nat) (x : Opu) : (setOpu o x b).reports = b.reports := rfl
@[simp] theorem setOpu_fw (o : Nat) (x : Opu) : (setOpu o x b).fw = b.fw := rfl
@[simp] theorem setOpu_fd (o : Nat) (x : Opu) : (setOpu o x b).fd = b.fd := rfl
@[simp] theorem setOpu_act (o : Nat) (x : Opu) : (setOpu o x b).act = b.act := rfl
@[simp] theorem setOpu_paceNext (o : Nat) (x : Opu) : (setOpu o x b).paceNext = b.paceNext := rfl
@[simp] theorem setOpu_fuses (o : Nat) (x : Opu) : (setOpu o x b).fuses = b.fuses := rfl
@[simp] theorem setOpu_dbg (o : Nat) (x : Opu) : (setOpu o x b).dbg = b.dbg := rfl
@[simp] theorem setOpu_attNonce (o : Nat) (x : Opu) : (setOpu o x b).attNonce = b.attNonce := rfl
@[simp] theorem setOpu_out (o : Nat) (x : Opu) : (setOpu o x b).out = b.out := rfl
@[simp] theorem setOpu_free (o : Nat) (x : Opu) : (setOpu o x b).free = b.free := rfl
@[simp] theorem setOpu_pit (o : Nat) (x : Opu) : (setOpu o x b).pit = b.pit := rfl
@[simp] theorem setOpu_stepStreams (o : Nat) (x : Opu) : (setOpu o x b).stepStreams = b.stepStreams := rfl
@[simp] theorem setOpu_jobs (o : Nat) (x : Opu) : (setOpu o x b).jobs = b.jobs := rfl
@[simp] theorem setOpu_ses (o : Nat) (x : Opu) : (setOpu o x b).ses = b.ses := rfl
@[simp] theorem setOpu_opus (o : Nat) (x : Opu) : (setOpu o x b).opus = mapSet Opu.fresh b.opus o x := rfl
@[simp] theorem setOpu_ves (o : Nat) (x : Opu) : (setOpu o x b).ves = b.ves := rfl
@[simp] theorem setOpu_lostCl (o : Nat) (x : Opu) : (setOpu o x b).lostCl = b.lostCl := rfl
@[simp] theorem setOpu_securing (o : Nat) (x : Opu) : (setOpu o x b).securing = b.securing := rfl
@[simp] theorem setOpu_secFailed (o : Nat) (x : Opu) : (setOpu o x b).secFailed = b.secFailed := rfl
@[simp] theorem setOpu_keepWriter (o : Nat) (x : Opu) : (setOpu o x b).keepWriter = b.keepWriter := rfl
@[simp] theorem setOpu_ledger (o : Nat) (x : Opu) : (setOpu o x b).ledger = b.ledger := rfl
@[simp] theorem setOpu_peerSlot (o : Nat) (x : Opu) : (setOpu o x b).peerSlot = b.peerSlot := rfl
@[simp] theorem setOpu_peerLate (o : Nat) (x : Opu) : (setOpu o x b).peerLate = b.peerLate := rfl
@[simp] theorem setOpu_restoring (o : Nat) (x : Opu) : (setOpu o x b).restoring = b.restoring := rfl
@[simp] theorem setOpu_restoreHeld (o : Nat) (x : Opu) : (setOpu o x b).restoreHeld = b.restoreHeld := rfl
@[simp] theorem setOpu_hostDead (o : Nat) (x : Opu) : (setOpu o x b).hostDead = b.hostDead := rfl
@[simp] theorem setOpu_hostFail (o : Nat) (x : Opu) : (setOpu o x b).hostFail = b.hostFail := rfl

/-! ### setVe -/

@[simp] theorem setVe_pwr (v : Nat) (x : Ve) : (setVe v x b).pwr = b.pwr := rfl
@[simp] theorem setVe_regs (v : Nat) (x : Ve) : (setVe v x b).regs = b.regs := rfl
@[simp] theorem setVe_latches (v : Nat) (x : Ve) : (setVe v x b).latches = b.latches := rfl
@[simp] theorem setVe_arb (v : Nat) (x : Ve) : (setVe v x b).arb = b.arb := rfl
@[simp] theorem setVe_txn (v : Nat) (x : Ve) : (setVe v x b).txn = b.txn := rfl
@[simp] theorem setVe_queues (v : Nat) (x : Ve) : (setVe v x b).queues = b.queues := rfl
@[simp] theorem setVe_cmds (v : Nat) (x : Ve) : (setVe v x b).cmds = b.cmds := rfl
@[simp] theorem setVe_dispatches (v : Nat) (x : Ve) : (setVe v x b).dispatches = b.dispatches := rfl
@[simp] theorem setVe_ctxs (v : Nat) (x : Ve) : (setVe v x b).ctxs = b.ctxs := rfl
@[simp] theorem setVe_rings (v : Nat) (x : Ve) : (setVe v x b).rings = b.rings := rfl
@[simp] theorem setVe_mem (v : Nat) (x : Ve) : (setVe v x b).mem = b.mem := rfl
@[simp] theorem setVe_poison (v : Nat) (x : Ve) : (setVe v x b).poison = b.poison := rfl
@[simp] theorem setVe_lodes (v : Nat) (x : Ve) : (setVe v x b).lodes = b.lodes := rfl
@[simp] theorem setVe_sgCatchup (v : Nat) (x : Ve) : (setVe v x b).sgCatchup = b.sgCatchup := rfl
@[simp] theorem setVe_sgScrub (v : Nat) (x : Ve) : (setVe v x b).sgScrub = b.sgScrub := rfl
@[simp] theorem setVe_canary (v : Nat) (x : Ve) : (setVe v x b).canary = b.canary := rfl
@[simp] theorem setVe_canaryLast (v : Nat) (x : Ve) : (setVe v x b).canaryLast = b.canaryLast := rfl
@[simp] theorem setVe_chaell (v : Nat) (x : Ve) : (setVe v x b).chaell = b.chaell := rfl
@[simp] theorem setVe_links (v : Nat) (x : Ve) : (setVe v x b).links = b.links := rfl
@[simp] theorem setVe_bundles (v : Nat) (x : Ve) : (setVe v x b).bundles = b.bundles := rfl
@[simp] theorem setVe_inbox (v : Nat) (x : Ve) : (setVe v x b).inbox = b.inbox := rfl
@[simp] theorem setVe_gang (v : Nat) (x : Ve) : (setVe v x b).gang = b.gang := rfl
@[simp] theorem setVe_lastGen (v : Nat) (x : Ve) : (setVe v x b).lastGen = b.lastGen := rfl
@[simp] theorem setVe_colls (v : Nat) (x : Ve) : (setVe v x b).colls = b.colls := rfl
@[simp] theorem setVe_reports (v : Nat) (x : Ve) : (setVe v x b).reports = b.reports := rfl
@[simp] theorem setVe_fw (v : Nat) (x : Ve) : (setVe v x b).fw = b.fw := rfl
@[simp] theorem setVe_fd (v : Nat) (x : Ve) : (setVe v x b).fd = b.fd := rfl
@[simp] theorem setVe_act (v : Nat) (x : Ve) : (setVe v x b).act = b.act := rfl
@[simp] theorem setVe_paceNext (v : Nat) (x : Ve) : (setVe v x b).paceNext = b.paceNext := rfl
@[simp] theorem setVe_fuses (v : Nat) (x : Ve) : (setVe v x b).fuses = b.fuses := rfl
@[simp] theorem setVe_dbg (v : Nat) (x : Ve) : (setVe v x b).dbg = b.dbg := rfl
@[simp] theorem setVe_attNonce (v : Nat) (x : Ve) : (setVe v x b).attNonce = b.attNonce := rfl
@[simp] theorem setVe_out (v : Nat) (x : Ve) : (setVe v x b).out = b.out := rfl
@[simp] theorem setVe_free (v : Nat) (x : Ve) : (setVe v x b).free = b.free := rfl
@[simp] theorem setVe_pit (v : Nat) (x : Ve) : (setVe v x b).pit = b.pit := rfl
@[simp] theorem setVe_stepStreams (v : Nat) (x : Ve) : (setVe v x b).stepStreams = b.stepStreams := rfl
@[simp] theorem setVe_jobs (v : Nat) (x : Ve) : (setVe v x b).jobs = b.jobs := rfl
@[simp] theorem setVe_ses (v : Nat) (x : Ve) : (setVe v x b).ses = b.ses := rfl
@[simp] theorem setVe_opus (v : Nat) (x : Ve) : (setVe v x b).opus = b.opus := rfl
@[simp] theorem setVe_ves (v : Nat) (x : Ve) : (setVe v x b).ves = mapSet Ve.fresh b.ves v x := rfl
@[simp] theorem setVe_lostCl (v : Nat) (x : Ve) : (setVe v x b).lostCl = b.lostCl := rfl
@[simp] theorem setVe_securing (v : Nat) (x : Ve) : (setVe v x b).securing = b.securing := rfl
@[simp] theorem setVe_secFailed (v : Nat) (x : Ve) : (setVe v x b).secFailed = b.secFailed := rfl
@[simp] theorem setVe_keepWriter (v : Nat) (x : Ve) : (setVe v x b).keepWriter = b.keepWriter := rfl
@[simp] theorem setVe_ledger (v : Nat) (x : Ve) : (setVe v x b).ledger = b.ledger := rfl
@[simp] theorem setVe_peerSlot (v : Nat) (x : Ve) : (setVe v x b).peerSlot = b.peerSlot := rfl
@[simp] theorem setVe_peerLate (v : Nat) (x : Ve) : (setVe v x b).peerLate = b.peerLate := rfl
@[simp] theorem setVe_restoring (v : Nat) (x : Ve) : (setVe v x b).restoring = b.restoring := rfl
@[simp] theorem setVe_restoreHeld (v : Nat) (x : Ve) : (setVe v x b).restoreHeld = b.restoreHeld := rfl
@[simp] theorem setVe_hostDead (v : Nat) (x : Ve) : (setVe v x b).hostDead = b.hostDead := rfl
@[simp] theorem setVe_hostFail (v : Nat) (x : Ve) : (setVe v x b).hostFail = b.hostFail := rfl

/-! ### postTo -/

@[simp] theorem postTo_pwr (n : Nat) (r : EvRec) : (postTo n r b).pwr = b.pwr := rfl
@[simp] theorem postTo_regs (n : Nat) (r : EvRec) : (postTo n r b).regs = b.regs := rfl
@[simp] theorem postTo_latches (n : Nat) (r : EvRec) : (postTo n r b).latches = b.latches := rfl
@[simp] theorem postTo_arb (n : Nat) (r : EvRec) : (postTo n r b).arb = b.arb := rfl
@[simp] theorem postTo_txn (n : Nat) (r : EvRec) : (postTo n r b).txn = b.txn := rfl
@[simp] theorem postTo_queues (n : Nat) (r : EvRec) : (postTo n r b).queues = b.queues := rfl
@[simp] theorem postTo_cmds (n : Nat) (r : EvRec) : (postTo n r b).cmds = b.cmds := rfl
@[simp] theorem postTo_dispatches (n : Nat) (r : EvRec) : (postTo n r b).dispatches = b.dispatches := rfl
@[simp] theorem postTo_ctxs (n : Nat) (r : EvRec) : (postTo n r b).ctxs = b.ctxs := rfl
theorem postTo_rings (n : Nat) (r : EvRec) : (postTo n r b).rings = (setRing n { ring b n with posted := (ring b n).posted ++ [r] } b).rings := rfl
@[simp] theorem postTo_mem (n : Nat) (r : EvRec) : (postTo n r b).mem = b.mem := rfl
@[simp] theorem postTo_poison (n : Nat) (r : EvRec) : (postTo n r b).poison = b.poison := rfl
@[simp] theorem postTo_lodes (n : Nat) (r : EvRec) : (postTo n r b).lodes = b.lodes := rfl
@[simp] theorem postTo_sgCatchup (n : Nat) (r : EvRec) : (postTo n r b).sgCatchup = b.sgCatchup := rfl
@[simp] theorem postTo_sgScrub (n : Nat) (r : EvRec) : (postTo n r b).sgScrub = b.sgScrub := rfl
@[simp] theorem postTo_canary (n : Nat) (r : EvRec) : (postTo n r b).canary = b.canary := rfl
@[simp] theorem postTo_canaryLast (n : Nat) (r : EvRec) : (postTo n r b).canaryLast = b.canaryLast := rfl
@[simp] theorem postTo_chaell (n : Nat) (r : EvRec) : (postTo n r b).chaell = b.chaell := rfl
@[simp] theorem postTo_links (n : Nat) (r : EvRec) : (postTo n r b).links = b.links := rfl
@[simp] theorem postTo_bundles (n : Nat) (r : EvRec) : (postTo n r b).bundles = b.bundles := rfl
@[simp] theorem postTo_inbox (n : Nat) (r : EvRec) : (postTo n r b).inbox = b.inbox := rfl
@[simp] theorem postTo_gang (n : Nat) (r : EvRec) : (postTo n r b).gang = b.gang := rfl
@[simp] theorem postTo_lastGen (n : Nat) (r : EvRec) : (postTo n r b).lastGen = b.lastGen := rfl
@[simp] theorem postTo_colls (n : Nat) (r : EvRec) : (postTo n r b).colls = b.colls := rfl
@[simp] theorem postTo_reports (n : Nat) (r : EvRec) : (postTo n r b).reports = b.reports := rfl
@[simp] theorem postTo_fw (n : Nat) (r : EvRec) : (postTo n r b).fw = b.fw := rfl
@[simp] theorem postTo_fd (n : Nat) (r : EvRec) : (postTo n r b).fd = b.fd := rfl
@[simp] theorem postTo_act (n : Nat) (r : EvRec) : (postTo n r b).act = b.act := rfl
@[simp] theorem postTo_paceNext (n : Nat) (r : EvRec) : (postTo n r b).paceNext = b.paceNext := rfl
@[simp] theorem postTo_fuses (n : Nat) (r : EvRec) : (postTo n r b).fuses = b.fuses := rfl
@[simp] theorem postTo_dbg (n : Nat) (r : EvRec) : (postTo n r b).dbg = b.dbg := rfl
@[simp] theorem postTo_attNonce (n : Nat) (r : EvRec) : (postTo n r b).attNonce = b.attNonce := rfl
@[simp] theorem postTo_out (n : Nat) (r : EvRec) : (postTo n r b).out = b.out := rfl
@[simp] theorem postTo_free (n : Nat) (r : EvRec) : (postTo n r b).free = b.free := rfl
@[simp] theorem postTo_pit (n : Nat) (r : EvRec) : (postTo n r b).pit = b.pit := rfl
@[simp] theorem postTo_stepStreams (n : Nat) (r : EvRec) : (postTo n r b).stepStreams = b.stepStreams := rfl
@[simp] theorem postTo_jobs (n : Nat) (r : EvRec) : (postTo n r b).jobs = b.jobs := rfl
@[simp] theorem postTo_ses (n : Nat) (r : EvRec) : (postTo n r b).ses = b.ses := rfl
@[simp] theorem postTo_opus (n : Nat) (r : EvRec) : (postTo n r b).opus = b.opus := rfl
@[simp] theorem postTo_ves (n : Nat) (r : EvRec) : (postTo n r b).ves = b.ves := rfl
@[simp] theorem postTo_lostCl (n : Nat) (r : EvRec) : (postTo n r b).lostCl = b.lostCl := rfl
@[simp] theorem postTo_securing (n : Nat) (r : EvRec) : (postTo n r b).securing = b.securing := rfl
@[simp] theorem postTo_secFailed (n : Nat) (r : EvRec) : (postTo n r b).secFailed = b.secFailed := rfl
@[simp] theorem postTo_keepWriter (n : Nat) (r : EvRec) : (postTo n r b).keepWriter = b.keepWriter := rfl
@[simp] theorem postTo_ledger (n : Nat) (r : EvRec) : (postTo n r b).ledger = b.ledger := rfl
@[simp] theorem postTo_peerSlot (n : Nat) (r : EvRec) : (postTo n r b).peerSlot = b.peerSlot := rfl
@[simp] theorem postTo_peerLate (n : Nat) (r : EvRec) : (postTo n r b).peerLate = b.peerLate := rfl
@[simp] theorem postTo_restoring (n : Nat) (r : EvRec) : (postTo n r b).restoring = b.restoring := rfl
@[simp] theorem postTo_restoreHeld (n : Nat) (r : EvRec) : (postTo n r b).restoreHeld = b.restoreHeld := rfl
@[simp] theorem postTo_hostDead (n : Nat) (r : EvRec) : (postTo n r b).hostDead = b.hostDead := rfl
@[simp] theorem postTo_hostFail (n : Nat) (r : EvRec) : (postTo n r b).hostFail = b.hostFail := rfl

/-! ### post -/

@[simp] theorem post_pwr (c p d : Nat) : (post c p d b).pwr = b.pwr := rfl
@[simp] theorem post_regs (c p d : Nat) : (post c p d b).regs = b.regs := rfl
@[simp] theorem post_latches (c p d : Nat) : (post c p d b).latches = b.latches := rfl
@[simp] theorem post_arb (c p d : Nat) : (post c p d b).arb = b.arb := rfl
@[simp] theorem post_txn (c p d : Nat) : (post c p d b).txn = b.txn := rfl
@[simp] theorem post_queues (c p d : Nat) : (post c p d b).queues = b.queues := rfl
@[simp] theorem post_cmds (c p d : Nat) : (post c p d b).cmds = b.cmds := rfl
@[simp] theorem post_dispatches (c p d : Nat) : (post c p d b).dispatches = b.dispatches := rfl
@[simp] theorem post_ctxs (c p d : Nat) : (post c p d b).ctxs = b.ctxs := rfl
@[simp] theorem post_mem (c p d : Nat) : (post c p d b).mem = b.mem := rfl
@[simp] theorem post_poison (c p d : Nat) : (post c p d b).poison = b.poison := rfl
@[simp] theorem post_lodes (c p d : Nat) : (post c p d b).lodes = b.lodes := rfl
@[simp] theorem post_sgCatchup (c p d : Nat) : (post c p d b).sgCatchup = b.sgCatchup := rfl
@[simp] theorem post_sgScrub (c p d : Nat) : (post c p d b).sgScrub = b.sgScrub := rfl
@[simp] theorem post_canary (c p d : Nat) : (post c p d b).canary = b.canary := rfl
@[simp] theorem post_canaryLast (c p d : Nat) : (post c p d b).canaryLast = b.canaryLast := rfl
@[simp] theorem post_chaell (c p d : Nat) : (post c p d b).chaell = b.chaell := rfl
@[simp] theorem post_links (c p d : Nat) : (post c p d b).links = b.links := rfl
@[simp] theorem post_bundles (c p d : Nat) : (post c p d b).bundles = b.bundles := rfl
@[simp] theorem post_inbox (c p d : Nat) : (post c p d b).inbox = b.inbox := rfl
@[simp] theorem post_gang (c p d : Nat) : (post c p d b).gang = b.gang := rfl
@[simp] theorem post_lastGen (c p d : Nat) : (post c p d b).lastGen = b.lastGen := rfl
@[simp] theorem post_colls (c p d : Nat) : (post c p d b).colls = b.colls := rfl
@[simp] theorem post_reports (c p d : Nat) : (post c p d b).reports = b.reports := rfl
@[simp] theorem post_fw (c p d : Nat) : (post c p d b).fw = b.fw := rfl
@[simp] theorem post_fd (c p d : Nat) : (post c p d b).fd = b.fd := rfl
@[simp] theorem post_act (c p d : Nat) : (post c p d b).act = b.act := rfl
@[simp] theorem post_paceNext (c p d : Nat) : (post c p d b).paceNext = b.paceNext := rfl
@[simp] theorem post_fuses (c p d : Nat) : (post c p d b).fuses = b.fuses := rfl
@[simp] theorem post_dbg (c p d : Nat) : (post c p d b).dbg = b.dbg := rfl
@[simp] theorem post_attNonce (c p d : Nat) : (post c p d b).attNonce = b.attNonce := rfl
@[simp] theorem post_out (c p d : Nat) : (post c p d b).out = b.out := rfl
@[simp] theorem post_free (c p d : Nat) : (post c p d b).free = b.free := rfl
@[simp] theorem post_pit (c p d : Nat) : (post c p d b).pit = b.pit := rfl
@[simp] theorem post_stepStreams (c p d : Nat) : (post c p d b).stepStreams = b.stepStreams := rfl
@[simp] theorem post_jobs (c p d : Nat) : (post c p d b).jobs = b.jobs := rfl
@[simp] theorem post_ses (c p d : Nat) : (post c p d b).ses = b.ses := rfl
@[simp] theorem post_opus (c p d : Nat) : (post c p d b).opus = b.opus := rfl
@[simp] theorem post_ves (c p d : Nat) : (post c p d b).ves = b.ves := rfl
@[simp] theorem post_lostCl (c p d : Nat) : (post c p d b).lostCl = b.lostCl := rfl
@[simp] theorem post_securing (c p d : Nat) : (post c p d b).securing = b.securing := rfl
@[simp] theorem post_secFailed (c p d : Nat) : (post c p d b).secFailed = b.secFailed := rfl
@[simp] theorem post_keepWriter (c p d : Nat) : (post c p d b).keepWriter = b.keepWriter := rfl
@[simp] theorem post_ledger (c p d : Nat) : (post c p d b).ledger = b.ledger := rfl
@[simp] theorem post_peerSlot (c p d : Nat) : (post c p d b).peerSlot = b.peerSlot := rfl
@[simp] theorem post_peerLate (c p d : Nat) : (post c p d b).peerLate = b.peerLate := rfl
@[simp] theorem post_restoring (c p d : Nat) : (post c p d b).restoring = b.restoring := rfl
@[simp] theorem post_restoreHeld (c p d : Nat) : (post c p d b).restoreHeld = b.restoreHeld := rfl
@[simp] theorem post_hostDead (c p d : Nat) : (post c p d b).hostDead = b.hostDead := rfl
@[simp] theorem post_hostFail (c p d : Nat) : (post c p d b).hostFail = b.hostFail := rfl

/-! ### emit -/

@[simp] theorem emit_pwr (o : Out) : (emit o b).pwr = b.pwr := rfl
@[simp] theorem emit_regs (o : Out) : (emit o b).regs = b.regs := rfl
@[simp] theorem emit_latches (o : Out) : (emit o b).latches = b.latches := rfl
@[simp] theorem emit_arb (o : Out) : (emit o b).arb = b.arb := rfl
@[simp] theorem emit_txn (o : Out) : (emit o b).txn = b.txn := rfl
@[simp] theorem emit_queues (o : Out) : (emit o b).queues = b.queues := rfl
@[simp] theorem emit_cmds (o : Out) : (emit o b).cmds = b.cmds := rfl
@[simp] theorem emit_dispatches (o : Out) : (emit o b).dispatches = b.dispatches := rfl
@[simp] theorem emit_ctxs (o : Out) : (emit o b).ctxs = b.ctxs := rfl
@[simp] theorem emit_rings (o : Out) : (emit o b).rings = b.rings := rfl
@[simp] theorem emit_mem (o : Out) : (emit o b).mem = b.mem := rfl
@[simp] theorem emit_poison (o : Out) : (emit o b).poison = b.poison := rfl
@[simp] theorem emit_lodes (o : Out) : (emit o b).lodes = b.lodes := rfl
@[simp] theorem emit_sgCatchup (o : Out) : (emit o b).sgCatchup = b.sgCatchup := rfl
@[simp] theorem emit_sgScrub (o : Out) : (emit o b).sgScrub = b.sgScrub := rfl
@[simp] theorem emit_canary (o : Out) : (emit o b).canary = b.canary := rfl
@[simp] theorem emit_canaryLast (o : Out) : (emit o b).canaryLast = b.canaryLast := rfl
@[simp] theorem emit_chaell (o : Out) : (emit o b).chaell = b.chaell := rfl
@[simp] theorem emit_links (o : Out) : (emit o b).links = b.links := rfl
@[simp] theorem emit_bundles (o : Out) : (emit o b).bundles = b.bundles := rfl
@[simp] theorem emit_inbox (o : Out) : (emit o b).inbox = b.inbox := rfl
@[simp] theorem emit_gang (o : Out) : (emit o b).gang = b.gang := rfl
@[simp] theorem emit_lastGen (o : Out) : (emit o b).lastGen = b.lastGen := rfl
@[simp] theorem emit_colls (o : Out) : (emit o b).colls = b.colls := rfl
@[simp] theorem emit_reports (o : Out) : (emit o b).reports = b.reports := rfl
@[simp] theorem emit_fw (o : Out) : (emit o b).fw = b.fw := rfl
@[simp] theorem emit_fd (o : Out) : (emit o b).fd = b.fd := rfl
@[simp] theorem emit_act (o : Out) : (emit o b).act = b.act := rfl
@[simp] theorem emit_paceNext (o : Out) : (emit o b).paceNext = b.paceNext := rfl
@[simp] theorem emit_fuses (o : Out) : (emit o b).fuses = b.fuses := rfl
@[simp] theorem emit_dbg (o : Out) : (emit o b).dbg = b.dbg := rfl
@[simp] theorem emit_attNonce (o : Out) : (emit o b).attNonce = b.attNonce := rfl
@[simp] theorem emit_out (o : Out) : (emit o b).out = o :: b.out := rfl
@[simp] theorem emit_free (o : Out) : (emit o b).free = b.free := rfl
@[simp] theorem emit_pit (o : Out) : (emit o b).pit = b.pit := rfl
@[simp] theorem emit_stepStreams (o : Out) : (emit o b).stepStreams = b.stepStreams := rfl
@[simp] theorem emit_jobs (o : Out) : (emit o b).jobs = b.jobs := rfl
@[simp] theorem emit_ses (o : Out) : (emit o b).ses = b.ses := rfl
@[simp] theorem emit_opus (o : Out) : (emit o b).opus = b.opus := rfl
@[simp] theorem emit_ves (o : Out) : (emit o b).ves = b.ves := rfl
@[simp] theorem emit_lostCl (o : Out) : (emit o b).lostCl = b.lostCl := rfl
@[simp] theorem emit_securing (o : Out) : (emit o b).securing = b.securing := rfl
@[simp] theorem emit_secFailed (o : Out) : (emit o b).secFailed = b.secFailed := rfl
@[simp] theorem emit_keepWriter (o : Out) : (emit o b).keepWriter = b.keepWriter := rfl
@[simp] theorem emit_ledger (o : Out) : (emit o b).ledger = b.ledger := rfl
@[simp] theorem emit_peerSlot (o : Out) : (emit o b).peerSlot = b.peerSlot := rfl
@[simp] theorem emit_peerLate (o : Out) : (emit o b).peerLate = b.peerLate := rfl
@[simp] theorem emit_restoring (o : Out) : (emit o b).restoring = b.restoring := rfl
@[simp] theorem emit_restoreHeld (o : Out) : (emit o b).restoreHeld = b.restoreHeld := rfl
@[simp] theorem emit_hostDead (o : Out) : (emit o b).hostDead = b.hostDead := rfl
@[simp] theorem emit_hostFail (o : Out) : (emit o b).hostFail = b.hostFail := rfl

/-! ### State.after -/

@[simp] theorem after_pending : (s.after b).pending = s.pending := rfl
@[simp] theorem after_blk : (s.after b).blk = settle b := rfl

end Sys2Proof.Machine
end

