-- ==== Sys2Proof/Laws/Registers.lean ====
section
/-!
SUPPORT. Registers: reading what was written, and what a write of a register or of a field leaves.
-/

namespace Sys2Proof.Machine

/-- Reading a register is reading its map at its reset value. -/
theorem rd_eq (b : Block) (o : Nat) : rd b o = mapGet (BitVec.ofNat 32 (resetValue o)) b.regs o := by
  unfold rd
  induction b.regs with
  | nil => rfl
  | cons e t ih =>
    by_cases h : e.1 = o
    · simp [mapGet, h]
    · have h' : (e.1 == o) = false := by simpa using h
      simp only [List.find?_cons, h', mapGet, h, if_false]
      exact ih

/-- A register reads as it was written. -/
@[simp] theorem rd_wr_self (b : Block) (o : Nat) (v : W32) : rd (wr b o v) o = v := by
  rw [rd_eq]
  simp [wr]

theorem mapGet_set_ne' {α : Type} [DecidableEq α] (d d' : α) (m : SMap α) {k k' : Nat} (v : α) (h : k ≠ k') :
    mapGet d' (mapSet d m k v) k' = mapGet d' m k' := by
  simp only [mapSet]
  split
  · exact mapGet_erase_ne d' m h
  · rw [mapGet_insert_ne d' _ v h, mapGet_erase_ne d' m h]

/-- A write leaves every other register alone. -/
theorem rd_wr_ne (b : Block) {o o' : Nat} (v : W32) (h : o ≠ o') : rd (wr b o v) o' = rd b o' := by
  rw [rd_eq, rd_eq]
  exact mapGet_set_ne' _ _ _ v h

/-- A field of another register is as before. -/
theorem get_wr_ne (b : Block) {o : Nat} {f : Fld} (v : W32) (h : o ≠ f.off) : get (wr b o v) f = get b f := by
  simp only [get, rd_wr_ne b v h]

theorem get_put_off_ne (b : Block) {f g : Fld} (v : Nat) (h : f.off ≠ g.off) : get (put f v b) g = get b g := by
  simp only [get, put, rd_wr_ne _ _ h]

theorem rd_put_ne (b : Block) {f : Fld} {o : Nat} (v : Nat) (h : f.off ≠ o) : rd (put f v b) o = rd b o := by
  simp only [put, rd_wr_ne _ _ h]

@[simp] theorem rd_put_self (b : Block) (f : Fld) (v : Nat) :
    rd (put f v b) f.off = setField (rd b f.off) f.msb f.lsb v := by
  simp [put]

/-! ### Fields of one word -/

theorem field_testBit (w : W32) (msb lsb i : Nat) :
    (field w msb lsb).testBit i = (decide (i < msb + 1 - lsb) && w.getLsbD (lsb + i)) := by
  simp [field, Nat.testBit_mod_two_pow, Nat.testBit_shiftRight, BitVec.getLsbD]

theorem fieldMask_getLsbD (msb lsb i : Nat) :
    (fieldMask msb lsb).getLsbD i = (decide (i < 32) && decide (lsb ≤ i ∧ i < msb + 1)) := by
  simp only [fieldMask, BitVec.getLsbD_ofNat, Nat.testBit_shiftLeft, Nat.testBit_two_pow_sub_one]
  by_cases h : i < 32 <;> by_cases h2 : lsb ≤ i <;> simp [h, h2]
  omega

theorem setField_getLsbD (w : W32) (msb lsb v i : Nat) : (setField w msb lsb v).getLsbD i =
    (decide (i < 32) && if lsb ≤ i ∧ i < msb + 1 then v.testBit (i - lsb) else w.getLsbD i) := by
  simp only [setField, BitVec.getLsbD_or, BitVec.getLsbD_and, BitVec.getLsbD_not, fieldMask_getLsbD, BitVec.getLsbD_ofNat,
    Nat.testBit_shiftLeft]
  by_cases h2 : lsb ≤ i ∧ i < msb + 1
  · by_cases h : i < 32 <;> simp [h, h2.1, h2.2]
  · rw [if_neg h2]
    by_cases h1 : lsb ≤ i
    · have h3 : ¬ i ≤ msb := by omega
      by_cases h : i < 32 <;> simp [h, h3]
    · by_cases h : i < 32 <;> simp [h, h1]

/-- A field reads as it was written, cut to its width. -/
theorem field_setField_self (w : W32) (msb lsb v : Nat) (h : msb < 32) :
    field (setField w msb lsb v) msb lsb = v % 2 ^ (msb + 1 - lsb) := by
  apply Nat.eq_of_testBit_eq
  intro i
  rw [field_testBit, setField_getLsbD, Nat.testBit_mod_two_pow]
  by_cases hi : i < msb + 1 - lsb
  · have h1 : lsb + i < 32 := by omega
    have h2 : lsb ≤ lsb + i ∧ lsb + i < msb + 1 := by omega
    simp [hi, h1, h2]
  · simp [hi]

/-- A field that shares no bit with the one written is as before. -/
theorem field_setField_ne (w : W32) {msb lsb msb' lsb' : Nat} (v : Nat) (h' : msb' < 32) (h : msb < lsb' ∨ msb' < lsb) :
    field (setField w msb lsb v) msb' lsb' = field w msb' lsb' := by
  apply Nat.eq_of_testBit_eq
  intro i
  rw [field_testBit, field_testBit, setField_getLsbD]
  by_cases hi : i < msb' + 1 - lsb'
  · have h1 : lsb' + i < 32 := by omega
    have h2 : ¬ (lsb ≤ lsb' + i ∧ lsb' + i < msb + 1) := by omega
    rw [if_neg h2]
    simp [hi, h1]
  · simp [hi]

/-- A field reads as it was put. -/
theorem get_put_self (b : Block) (f : Fld) (v : Nat) (h : f.msb < 32) :
    get (put f v b) f = v % 2 ^ (f.msb + 1 - f.lsb) := by
  simp [get, put, field_setField_self _ _ _ _ h]

/-- A field that shares no bit with the one put is as before. -/
theorem get_put_ne (b : Block) {f g : Fld} (v : Nat) (hg : g.msb < 32) (h : f.off ≠ g.off ∨ f.msb < g.lsb ∨ g.msb < f.lsb) :
    get (put f v b) g = get b g := by
  by_cases ho : f.off = g.off
  · simp only [get, put, ← ho, rd_wr_self]
    exact field_setField_ne _ v hg (by tauto)
  · exact get_put_off_ne b v ho

/-- A put that writes the value a field has leaves it. -/
theorem get_showField_self (b : Block) (f : Fld) (v : Nat) (h : f.msb < 32) (hv : v < 2 ^ (f.msb + 1 - f.lsb)) :
    get (showField f v b) f = v := by
  unfold showField
  split
  · assumption
  · rw [get_put_self b f v h, Nat.mod_eq_of_lt hv]

theorem get_showField_ne (b : Block) {f g : Fld} (v : Nat) (hg : g.msb < 32)
    (h : f.off ≠ g.off ∨ f.msb < g.lsb ∨ g.msb < f.lsb) : get (showField f v b) g = get b g := by
  unfold showField
  split
  · rfl
  · exact get_put_ne b v hg h

end Sys2Proof.Machine
end

