-- ==== Sys2Proof/Laws/Access.lean ====
section
/-!
SUPPORT. What every row's run answers, what a register write that acts does, and the shared gates: one lemma each.
-/

namespace Sys2Proof.Machine

/-- A row without a voltage answers the state after its operation. -/
theorem run_eq (f : Block → Block) (s : State) : s.run f = .next (s.after (f s.blk)) := rfl

/-- A row with a voltage: a fault above 50.0 V, else the state after its operation. -/
theorem runVin_eq (v : Nat) (f : Block → Block) (s : State) :
    State.runVin v f s = if 50000 < v then .fault .beyondAbsoluteMaximum else .next (s.after (f s.blk)) := rfl

theorem runVin_ok {v : Nat} (f : Block → Block) (s : State) (h : v ≤ 50000) :
    State.runVin v f s = .next (s.after (f s.blk)) := by
  rw [runVin_eq, if_neg (by omega)]

/-- The grant of a page's port arbiter moves an arbiter pointer and nothing else. -/
theorem granted_eq (port : Port) (p : Nat) (b : Block) : ∃ a, granted port p b = { b with arb := a } := by
  unfold granted rrGrant
  split
  · exact ⟨_, rfl⟩
  · exact ⟨_, rfl⟩

@[simp] theorem rd_granted (port : Port) (p : Nat) (b : Block) (o : Nat) : rd (granted port p b) o = rd b o := by
  obtain ⟨a, h⟩ := granted_eq port p b
  rw [h]; rfl

@[simp] theorem get_granted (port : Port) (p : Nat) (b : Block) (f : Fld) : get (granted port p b) f = get b f := by
  simp only [get, rd_granted]

/-- A write that acts: the RW fields take their value, then the W1C bits and the WO fields act (03 R76). -/
theorem regWrite_acts (port : Port) (off : Nat) (v : W32) (b : Block) (h : actsNow b port off v = true) :
    regWrite port off v b = applyWo port off v (applyW1c off v (applyRw off v (granted port (off / 4096) b))) := by
  rw [actsNow, Bool.and_eq_true] at h
  obtain ⟨-, h⟩ := h
  unfold regWrite regWriteOk
  split at h
  · exact absurd h Bool.false_ne_true
  · next k n hp =>
    simp only [Bool.and_eq_true, beq_iff_eq] at h
    simp only [hp, ne_eq, not_true_eq_false, false_or, h.1, if_false, h.2, performWrite]

/-- The same write where it arrives at its port (02 R46). -/
theorem regWriteAt_acts (port : Port) (off : Nat) (v : W32) (b : Block) (h : actsNow b port off v = true) :
    regWriteAt port off 4 v b = applyWo port off v (applyW1c off v (applyRw off v (granted port (off / 4096) b))) := by
  have hl : portLive port b = true := (Bool.and_eq_true _ _ ▸ h : _ ∧ _).1
  rw [regWriteAt, if_pos hl]
  exact regWrite_acts port off v b h

/-- No failed read is to be met: the operation runs as it is (15 R410). -/
theorem readsOnce_clear (f : Block → Block) (b : Block) (h : b.hostFail = []) : readsOnce f b = f b := by
  simp [readsOnce, h]

/-- An operation that meets failed reads differs from itself only in the reads still to be met. -/
theorem readsOnce_cases (f : Block → Block) (b : Block) : ∃ l, readsOnce f b = { f b with hostFail := l } := by
  unfold readsOnce
  split
  · exact ⟨(f b).hostFail, rfl⟩
  · exact ⟨_, rfl⟩

/-- A gated command runs where host memory answers (15 R405, R410). -/
theorem hostGated_active (f : Block → Block) (b : Block) (h : hostClear b = true) : hostGated f b = f b := by
  simp only [hostClear, Bool.and_eq_true, List.isEmpty_iff] at h
  simp only [hostGated, h.1, Bool.true_or, if_true, readsOnce_clear f b h.2]

/-- It runs where host accesses have failed for good. -/
theorem hostGated_dead (f : Block → Block) (b : Block) (h : b.hostDead = true) (hc : b.hostFail = []) : hostGated f b = f b := by
  simp only [hostGated, h, Bool.or_true, if_true, readsOnce_clear f b hc]

/-- Otherwise it runs or nothing changes. -/
theorem hostGated_cases (f : Block → Block) (b : Block) : (∃ l, hostGated f b = { f b with hostFail := l }) ∨ hostGated f b = b := by
  unfold hostGated
  split
  · exact .inl (readsOnce_cases f b)
  · dsimp only
    split
    · exact .inl ⟨(f b).hostFail, rfl⟩
    · exact .inr rfl

/-- A dispatched command of the class runs. -/
theorem onDispatched_some {cls q n : Nat} {c : Cmd} (f : Cmd → Block → Block) (b : Block) (h : findCmd b q n = some c)
    (hs : c.stage = .dispatched) (hc : c.cls = cls) :
    onDispatched cls q n f b = f { c with stage := .running } (setCmd { c with stage := .running } b) := by
  simp [onDispatched, h, hs, hc]

/-- A domain that has not failed takes the state it is set to (17 R474). -/
theorem setDom_eq (d v : Nat) (b : Block) (h : dom b d ≠ 3) : setDom d v b = put (fDom d) v b := by
  simp [setDom, h]

/-- A FAILED domain stays FAILED. -/
theorem setDom_failed (d v : Nat) (b : Block) (h : dom b d = 3) : setDom d v b = b := by
  simp [setDom, h]

/-- Writing a register twice is writing it once. -/
theorem wr_wr (b : Block) (o : Nat) (x y : W32) : wr (wr b o x) o y = wr b o y := by
  have key : ∀ (d : W32) (m : SMap W32), mapErase (mapSet d m o x) o = mapErase m o := by
    intro d m
    have ins : ∀ m' : SMap W32, (∀ e ∈ m', e.1 ≠ o) → mapErase (mapInsert m' o x) o = m' := by
      intro m' hm
      induction m' with
      | nil => simp [mapInsert, mapErase]
      | cons e t ih =>
        have he := hm e (by simp)
        have ht := ih (fun a ha => hm a (by simp [ha]))
        have hf : (List.filter (fun e => e.1 != o) t) = t := by
          rw [List.filter_eq_self]
          intro a ha
          simpa using hm a (by simp [ha])
        simp only [mapInsert]
        split
        · simp [mapErase, he, hf]
        · simp only [mapErase] at ht
          simp [mapErase, he, ht]
    simp only [mapSet]
    split
    · simp [mapErase, List.filter_filter]
    · exact ins _ (mapErase_not_mem m o)
  have h2 : ∀ (d : W32) (m : SMap W32), mapSet d (mapSet d m o x) o y = mapSet d m o y := by
    intro d m
    rw [mapSet, key, ← mapSet]
  simp [wr, h2]

end Sys2Proof.Machine
end

