-- ==== Sys2Proof/Laws/Memory.lean ====
section
/-!
SUPPORT. Memory: every operation that writes it keeps the canonical form, reads after a write, and the bytes left alone.
-/

namespace Sys2Proof.Machine

/-- Memory holds nothing after reset, which is canonical. -/
theorem reset_memoryWf : memoryWf State.reset.blk.mem = true := rfl

theorem memPut_wf (bs : List Byte) : ∀ (m : List Host.Cell) (pa : Nat), memoryWf m = true → memoryWf (memPut m pa bs) = true := by
  induction bs with
  | nil => intro m pa h; exact h
  | cons v vs ih => intro m pa h; exact ih _ _ (mapWf_set 0 pa v h)

theorem memPut_below (bs : List Byte) : ∀ (m : List Host.Cell) (pa a : Nat), a < pa → mapGet 0 (memPut m pa bs) a = mapGet 0 m a := by
  induction bs with
  | nil => intros; rfl
  | cons v vs ih =>
    intro m pa a h
    rw [memPut, ih _ _ _ (by omega), mapGet_set_ne 0 m v (by omega)]

theorem memPut_above (bs : List Byte) : ∀ (m : List Host.Cell) (pa a : Nat), pa + bs.length ≤ a →
    mapGet 0 (memPut m pa bs) a = mapGet 0 m a := by
  induction bs with
  | nil => intros; rfl
  | cons v vs ih =>
    intro m pa a h
    rw [List.length_cons] at h
    rw [memPut, ih _ _ _ (by omega), mapGet_set_ne 0 m v (by omega)]

theorem memPut_at (bs : List Byte) : ∀ (m : List Host.Cell) (pa i : Nat), i < bs.length →
    mapGet 0 (memPut m pa bs) (pa + i) = bs.getD i 0 := by
  induction bs with
  | nil => intro m pa i h; simp at h
  | cons v vs ih =>
    intro m pa i h
    rw [memPut]
    cases i with
    | zero => rw [memPut_below vs _ _ _ (by omega)]; simp
    | succ j =>
      rw [List.length_cons] at h
      have := ih (mapSet 0 m pa v) (pa + 1) j (by omega)
      rw [show pa + (j + 1) = pa + 1 + j by omega, this]
      simp

/-! ### Poison marks do not touch the bytes -/

@[simp] theorem setPoison_mem (b : Block) (w : Nat) (p : Bool) : (setPoison b w p).mem = b.mem := rfl
@[simp] theorem setPoison_regs (b : Block) (w : Nat) (p : Bool) : (setPoison b w p).regs = b.regs := rfl

/-- A fold of steps that leave a part of the block alone leaves it alone. -/
theorem foldl_keeps {α β : Type} (g : Block → β) (f : Block → α → Block) (h : ∀ b a, g (f b a) = g b) (l : List α) (b : Block) :
    g (l.foldl f b) = g b := by
  induction l generalizing b with
  | nil => rfl
  | cons a t ih => rw [List.foldl_cons, ih, h]

/-- The same for a property that every step keeps. -/
theorem foldl_inv {α : Type} (P : Block → Prop) (f : Block → α → Block) (h : ∀ b a, P b → P (f b a)) (l : List α) (b : Block)
    (hb : P b) : P (l.foldl f b) := by
  induction l generalizing b with
  | nil => exact hb
  | cons a t ih => exact ih _ (h b a hb)

@[simp] theorem poisonAfter_mem (pa n : Nat) (src : Nat → Bool) (u unit : Nat) (b : Block) :
    (poisonAfter pa n src u unit b).mem = b.mem := by
  simp only [poisonAfter]
  exact foldl_keeps (fun b : Block => b.mem) _ (fun b a => setPoison_mem b _ _) _ _

@[simp] theorem fillWord_mem (b : Block) (pa : Nat) : (fillWord b pa).mem = b.mem := by
  simp only [fillWord]
  split <;> rfl

@[simp] theorem fillWrote_mem (pa n : Nat) (b : Block) : (fillWrote pa n b).mem = b.mem := by
  simp only [fillWrote]
  split
  · exact foldl_keeps (fun b : Block => b.mem) _ (fun b i => fillWord_mem b _) _ _
  · rfl

/-- What a write of bytes leaves in memory. -/
@[simp] theorem memWriteP_mem (pa : Nat) (bs : List Byte) (src : Nat → Bool) (b : Block) :
    (memWriteP pa bs src b).mem = memPut b.mem pa bs := by
  simp only [memWriteP]
  rw [foldl_keeps (fun b => b.mem) _ (fun b i => poisonAfter_mem _ _ _ _ _ b)]
  exact fillWrote_mem _ _ _

@[simp] theorem memWrite_mem (pa : Nat) (bs : List Byte) (b : Block) : (memWrite pa bs b).mem = memPut b.mem pa bs := by
  simp [memWrite]

/-! ### Every operation that writes memory keeps its canonical form -/

theorem memWriteP_wf (pa : Nat) (bs : List Byte) (src : Nat → Bool) (b : Block) (h : memoryWf b.mem = true) :
    memoryWf (memWriteP pa bs src b).mem = true := by
  rw [memWriteP_mem]; exact memPut_wf bs _ pa h

theorem memWrite_wf (pa : Nat) (bs : List Byte) (b : Block) (h : memoryWf b.mem = true) :
    memoryWf (memWrite pa bs b).mem = true :=
  memWriteP_wf pa bs _ b h

theorem memUndefine_wf (pa n : Nat) (b : Block) (h : memoryWf b.mem = true) : memoryWf (memUndefine pa n b).mem = true := by
  simp only [memUndefine]
  exact memWrite_wf _ _ _ h

theorem memZero_wf (lo hi : Nat) (b : Block) (h : memoryWf b.mem = true) : memoryWf (memZero lo hi b).mem = true :=
  mapWf_filter 0 _ h

theorem writePieces_wf (l : List (Nat × Nat)) : ∀ (bs : List Byte) (ps : List Bool) (b : Block), memoryWf b.mem = true →
    memoryWf (writePieces l bs ps b).mem = true := by
  induction l with
  | nil => intro bs ps b h; exact h
  | cons p t ih => intro bs ps b h; exact ih _ _ _ (memWriteP_wf _ _ _ _ h)

theorem vWrite_wf (c va : Nat) (bs : List Byte) (ps : List Bool) (b b' : Block) (h : memoryWf b.mem = true)
    (hw : vWrite c va bs ps b = .ok b') : memoryWf b'.mem = true := by
  unfold vWrite at hw
  split at hw
  · cases hw
  · cases hw; exact writePieces_wf _ _ _ _ h

theorem powerLost_wf (r : Rail) (b : Block) (h : memoryWf b.mem = true) : memoryWf (powerLost r b).mem = true :=
  mapWf_filter 0 _ h

/-! ### Reads after a write -/

/-- A byte of the range written reads as written. -/
theorem memByte_memWrite_at (pa i : Nat) (bs : List Byte) (b : Block) (h : i < bs.length) :
    memByte (memWrite pa bs b) (pa + i) = bs.getD i 0 := by
  simp only [memByte, memWrite_mem]
  exact memPut_at bs _ _ _ h

/-- A byte outside it reads as before. -/
theorem memByte_memWrite_ne (pa a : Nat) (bs : List Byte) (b : Block) (h : a < pa ∨ pa + bs.length ≤ a) :
    memByte (memWrite pa bs b) a = memByte b a := by
  simp only [memByte, memWrite_mem]
  rcases h with h | h
  · exact memPut_below bs _ _ _ h
  · exact memPut_above bs _ _ _ h

/-- A register write leaves every byte. -/
@[simp] theorem memByte_put (f : Fld) (v : Nat) (b : Block) (a : Nat) : memByte (put f v b) a = memByte b a := rfl

end Sys2Proof.Machine
end

