-- ==== Sys2Proof/Tests/Slice0.lean ====
section
/-!
SUPPORT. Tests of the model: ill-formed terms that the check refuses, the spec's worked examples, and, for every statement with
hypotheses, a state and operands that meet them, clause by clause (`witness_<statement>`).
-/

open Sys2Proof Sys2Proof.Machine



namespace Sys2Proof.Tests

set_option maxRecDepth 100000
set_option Elab.async false
set_option linter.unusedVariables false


/-- Registers after a boot, by window offset. -/
def upRegs : SMap W32 :=
  [(12, 352#32), (8256, 5#32), (8264, 40000#32), (8276, 2304#32), (8300, 7#32), (8304, 2863311530#32), (8308, 2863311530#32),
   (8312, 11184810#32), (8316, 2684354560#32), (8320, 2863311530#32), (12352, 1#32), (12360, 1#32), (1310784, 1#32), (1314880, 1#32),
   (1351744, 805306368#32), (1355840, 805306368#32)]

def upPwr : Pwr := { Pwr.reset with rail := .up, pwrEn := true, pwrGood := true, coolPins := 1, cold := false }

/-- A module after its boot, with concrete fuses and no bank. -/
def up : Block :=
  { Block.reset with
    pwr := upPwr, regs := upRegs, fw := { Fw.reset with active := [], staged := [] },
    fuses := ⟨0, .replicate 4 0, 0, .replicate 8 none, 0xA5, 0x5A, 1, []⟩ }

def st (b : Block) : State := ⟨b, []⟩


/-- Powered off with PWR_EN high, out of the input range. -/
def waiting : Block := setPwr (fun x => { x with pwrEn := true, rail := .waitInput }) Block.reset
/-- In a dip. -/
def dipping : Block := setPwr (fun x => { x with dip := true }) up
/-- With MOD_RST_N low, and a boot or a reset that waits for it. -/
def held (cold : Bool) : Block := setPwr (fun x => { x with modRstN := false, rstWait := true, cold := cold }) up
/-- Powered, in boot phase POWER. -/
def charged : Block := { up with regs := [] }
/-- With straps that differ from those latched. -/
def mismatched : Block := put fPW_COOL_LIVE 2 (put fPW_COOL_MISMATCH 1 (setPwr (fun x => { x with coolPins := 2 }) up))

/-! ### Ports, queues and commands -/

/-- CH0 ACTIVE and enabled, with a configuration block. -/
def linked (b : Block) : Block :=
  put (fDom (domFab 0)) 2 <| put (fCH_LINK_STATE 0) 2 { b with chaell := [(0, { ChPort.fresh with ctrlBase := 0x1000000, memBase := 0x10000000000, cfgCtl := 3 })] }

/-- A descriptor: its first bytes, then zeros. -/
def desc (bs : List Nat) : List Byte :=
  let d := bs.map (fun n => BitVec.ofNat 8 n)
  d ++ List.replicate (64 - d.length) 0#8

/-- A descriptor of a class with SEQ 1, no token, and the bytes from 0x10 on. -/
def descOf (cls : Nat) (body : List Nat) : List Byte :=
  desc ([cls, 0, 0xFF, 0xFF, 0, 0, 0, 0, 0xFF, 0xFF, 0, 0, 1, 0, 0, 0] ++ body)

/-- A kernel's descriptor that names cluster 0. -/
def kernelDesc : List Byte := descOf 1 (List.replicate 24 0 ++ [1])

/-- The first command of queue 0, in context 0. -/
def cmd (stage : CmdStage) (d : List Byte) : Cmd := { freshCmd 0 0 1 0 d 0 with stage := stage }

/-- Queue 0 RUNNING with these commands, its context valid. -/
def withCmds (cs : List Cmd) (b : Block) : Block :=
  put (fSQ_STAT_STATE 0) 1 (put (fSQ_CTL_ENABLE 0) 1 (put (pairBit rSC_CTX_VALID_LO 0) 1 (linked { b with cmds := cs })))

/-- A command runs on cluster `c`. -/
def runsOn (c : Nat) (b : Block) : Block :=
  { b with cmds := [{ cmd .running kernelDesc with mask := 2 ^ c }] }

/-- A page whose transaction is open under host ownership. -/
def openTxn (p : Nat) (staged : List (Nat × W32)) : Block :=
  put (fTXN_STAT_STATE (pageBase p)) 1 { up with txn := ⟨if staged = [] then [] else [(p, staged)], [], []⟩ }

/-- In an activity state, its domains off. -/
def inState (n : Nat) : Block := enterActivity n up

/-- What the table says of a register. -/
def info (k : PageKind) (o : Nat) : RegInfo := (regInfo k o).getD ⟨0, 0, 0, 0⟩

/-- A ready kernel that names cluster 0, which the governor has parked. -/
def unparks : Block :=
  put (fCL_BLK_STAT_GOV_PARKED 0) 1 (put (fDom 0) 1 (withCmds [cmd .fetched kernelDesc] up))

/-- The device-wide transaction names page 0x90. -/
def grouped : Block := linked (put (fTX_MEMBER_VALID 0) 1 (put (fTX_MEMBER_PAGE 0) 0x90 up))

/-- The device-wide transaction is in a state, with its member page. -/
def openGroup (st : Nat) (b : Block) : Block :=
  let m : Block := put (fTXN_STAT_GROUP (pageBase 0x90)) 1 (put (fTXN_STAT_STATE (pageBase 0x90)) st (put fTX_STAT_STATE st b))
  { m with txn := ⟨[(0x90, [(rOP_STALL_LIMIT 0, 7#32)])], [], [0x90]⟩ }

/-- One write waits for the safe point of OP00. -/
def waitsWrite (b : Block) : Block := { b with txn := ⟨[], [(rOP_STALL_LIMIT 0, 7#32, .ch0)], []⟩ }

/-! ### Engines -/

/-- A tensor descriptor of a stream block: base, pitch, rows, columns, format and layout, program and flags. -/
def tensorBytes (base pitch rows cols fmt imode off len flags : Nat) : List Byte :=
  leBytes 8 base ++ leBytes 16 0 ++ leBytes 8 pitch ++ leBytes 4 rows ++ leBytes 4 cols ++ leBytes 8 0 ++ leBytes 1 fmt ++ leBytes 2 0
    ++ leBytes 1 imode ++ leBytes 2 off ++ leBytes 1 len ++ leBytes 1 flags ++ leBytes 8 0

/-- A stream block with its entries' descriptors and one program. -/
def blockBytes (valid reuse klen : Nat) (ds : List (List Byte)) (prog : List Nat) : List Byte :=
  leBytes 1 valid ++ leBytes 1 0 ++ leBytes 2 reuse ++ leBytes 4 klen ++ leBytes 56 0 ++ ds.flatMap id
    ++ leBytes (512 - 64 * ds.length) 0 ++ prog.flatMap (leBytes 16)

/-- A stream instruction. -/
def insn (op part count : Nat) (drow dcol : Nat) : Nat := op + 16 * part + 256 * (count - 1) + drow * 2 ^ 64 + dcol * 2 ^ 32

/-- A kernel-class command on cluster 0 that runs. -/
def running (cls opuCtl veCtl stages : Nat) (sblk image : List Byte) : Cmd :=
  { cmd .running (descOf cls []) with
    desc := (descOf cls []).take 16 ++ leBytes 8 opuCtl ++ leBytes 8 veCtl ++ leBytes 8 0 ++ leBytes 4 1 ++ leBytes 4 stages ++ leBytes 16 0
    mask := 1, sblk := sblk, image := image }

/-- Its job. -/
def job0 : Job where
  queue := 0
  count := 0
  clusters := [0]
  psidy := false
  epoch := 0
  expA := 0
  expW := 0
  expOut := 0
  rand := []
  cvt := []
  colVec := []
  owners := []
  ordered := false
  tags := []
  words := []
  leaves := []
  rowsOut := []
  initial := []
  carries := []
  final := []
  parts := []
  granted := 0
  sentParts := 0
  moved := 0
  summed := false
  cover := []

/-- The stream engine, the OPUs and the vector engines of cluster 0 serve the command. -/
def serves (c : Cmd) (j : Job) (se : Se) (o : Opu) (v : Ve) : Block :=
  linked { up with
    cmds := [c], jobs := [j], ses := [(0, { se with job := some (0, 0) })], opus := [(0, { o with job := some (0, 0) })],
    ves := [(0, { v with job := some (0, 0) })] }

/-- FP8 operands on OPU 0, drained to VE 0, with a K of 1; `init` is ACC_INIT. -/
def opuCmd (init : Nat) : Cmd :=
  running 1 (0x1033 + 512 * init) 9 1
    (blockBytes 3 1 1 [tensorBytes 0 0 128 1 3 0 576 1 0, tensorBytes 0 0 1 256 3 0 592 1 0] [insn 3 0 128 0 0, insn 3 0 256 0 0])
    (leBytes 4 0x10000 ++ leBytes 1 1 ++ leBytes 123 0)

/-- OPU 0 of cluster 0 serves it. -/
def opuRuns (init : Nat) (o : Opu) : Block := serves (opuCmd init) job0 Se.fresh o Ve.fresh

/-- A step group of +0 elements. -/
def grp (first : Bool) : Grp := ⟨0, first, true, [List.replicate 128 padElem], [List.replicate 256 padElem]⟩

/-- 256 elements of a stream entry that have come. -/
def rowThere : Entry := { Entry.fresh with buf := (List.range 256).map (fun i => (i, padElem)) }

/-- A vector command: one IN0 tile of cluster 0, by MODE and the image's bytes from 3 on. -/
def veCmd (mode : Nat) (image : List Byte) : Cmd :=
  running (if mode = 4 then 5 else 1) 0 (mode + 8) 0 (blockBytes 1 1 0 [tensorBytes 0 0 128 256 0 0 576 1 0] [insn 3 0 32768 0 1])
    (leBytes 2 0 ++ leBytes 1 mode ++ image ++ leBytes (192 - image.length) 0)

/-- VE 0 of cluster 0 serves it. -/
def veRuns (mode : Nat) (image : List Byte) (e : SMap Entry) (j : Job) (v : Ve) : Block :=
  serves (veCmd mode image) j { Se.fresh with entries := e } Opu.fresh v

/-- A row of results. -/
def resultRow : OutRow := ⟨0, 0, List.replicate 256 (0x3F800000#32, false), 256⟩

/-- Entry 0 runs a program. -/
def streams (prog : List Nat) (e : Entry) : Block :=
  serves (running 1 0 0 0 (blockBytes 1 1 0 [tensorBytes 0 0 128 256 0 0 576 prog.length 0] prog) []) job0
    { Se.fresh with entries := [(0, e)] } Opu.fresh Ve.fresh

/-! ### Contexts and the gang -/

/-- Context 0 maps its first gibibyte to the first of HBM, by a table at 0x10000 and one at 0x20000 (10 R262, R263). -/
def mapped (b : Block) : Block :=
  memWrite 0x20000 [0x0F#8] (memWrite 0x10000 [1#8, 0#8, 2#8]
    (setCtx 0 { ctx b 0 with ttPa := 0x10000 } (put (pairBit rSC_CTX_VALID_LO 0) 1 b)))

/-- A gang of three: master 1, deputy 2, member 3, with one ring of all three. -/
def table3 : Tables := ⟨1, 1, 2, [(1, 1), (2, 1), (3, 1)], [⟨0, true, 0, [1, 2, 3]⟩]⟩

/-- This device is one of them; the master hears the others. -/
def member (me : Nat) (b : Block) : Block :=
  put fGG_DEV_ID_ID me (put fGG_STATE_GEN 1 (put fGG_STATE_ROLE (tblRole table3 me)
    (setGang (fun g => { g with cur := some table3, heard := [2, 3] }) b)))

/-- Three clusters run a hoisted kernel, cluster 1 with a row to pass on. -/
def hoistCmd : Cmd :=
  { running 1 0x1033 9 1
      (blockBytes 3 1 1 [tensorBytes 0 0 128 1 3 0 576 3 0, tensorBytes 0 0 1 256 3 0 624 1 1]
        [insn 1 1 3 0 0, insn 3 0 128 0 0, insn 2 0 1 0 0, insn 3 0 256 0 0]) (leBytes 4 0x10000 ++ leBytes 124 1) with mask := 7 }
/-- Its engines. -/
def hoists : Block :=
  linked { up with
    cmds := [hoistCmd], jobs := [{ job0 with clusters := [0, 1, 2] }],
    ses := [(0, { Se.fresh with job := some (0, 0) }),
            (1, { Se.fresh with job := some (0, 0), rank := 1, hoist := [List.replicate 256 padElem] }),
            (2, { Se.fresh with job := some (0, 0), rank := 2 })] }

/-- An adit in a state, its peer device 2. -/
def adit (st : Nat) (x : Link) : Block :=
  put fGG_DEV_ID_ID 1 (put (fAD_PEER_PEER_ID 0) 2 (put (fAD_BLK_STAT_STATE 0) st (put (fAD_CTL_EN 0) 1 (put (fDom (domAdit 0)) 2 { up with links := [(0, x)] }))))

/-- A flit of 256 bytes with its CRC, of kind DATA. -/
def goodFlit : List Byte :=
  let body : List Byte := 1#8 :: List.replicate 253 0#8
  leBytes 2 (crc16 body) ++ body

/-- A message to device `dst` from `src`, of a class and generation 1. -/
def msg (dst src cls : Nat) (payload : List Byte) : Msg := ⟨dst, src, 0, cls, 0, 1, 0, payload, none⟩

/-- The step context names a table region at 0x100000 and a route table at 0x200000. -/
def regions (b : Block) : Block := wr64 (wr64 (mapped b) rGG_TABLE_VA_LO 0x100000) rGG_ROUTE_VA_LO 0x200000

/-- A device 1 outside a gang that keeps a copy of a table to form. -/
def forming (asked : List Nat) (f : Gang → Gang) : Block :=
  put fGG_DEV_ID_ID 1 (setGang (fun g => f { g with taken := some table3, asked := asked, routeSent := true }) up)

/-! ### Collectives, the pithead, securing -/

/-- A REDUCE_SCATTER bucket of 96 elements at position 1 of the ring of three. -/
def coll0 : Coll where
  queue := 0
  count := 0
  ctx := 0
  tally := 0x10005
  group := 0
  drift := [1, 2, 3]
  isRing := true
  kind := 1
  arith := 0
  bx := false
  agreed := 0
  policy := 0
  op := 1
  accEvery := 1
  window := 16
  east := 8
  elems := 96
  src := 0
  dst := 0x1000
  acc := 0
  result := 0x2000
  root := 0
  pos := 1
  epoch := 0
  round := 0
  failed := []
  had := []
  absentMe := false
  selfNan := false
  exchanged := true
  sendQ := []
  sent := 2
  granted := 2
  rx := 2
  freed := 2
  told := 0
  delivered := 0
  nan := 0
  ovf := 0
  infEnc := 0
  rescaled := 0
  maxExp := 0
  contrib := 3
  stale := 0
  closeSeen := false
  closeSent := false
  complete := false
  closedHere := false
  waitVerdict := false
  restarted := false
  marker := false
  held := []
  doneAt := 0

/-- A COLLECTIVE descriptor: OP, group and AGREED_EXP's neighbours, over 96 elements, with its bucket ID 5 in generation `g`. -/
def collDesc (op g grp src dst : Nat) : List Byte :=
  descOf 6 ((leBytes 8 src ++ leBytes 8 dst ++ leBytes 8 0 ++ leBytes 8 0x2000 ++ leBytes 4 96 ++ leBytes 2 5 ++ leBytes 2 g
    ++ leBytes 2 grp ++ leBytes 2 0 ++ leBytes 1 op ++ leBytes 1 0x40 ++ leBytes 1 1 ++ leBytes 1 0).map BitVec.toNat)

/-- Device `me` of the gang with a dispatched COLLECTIVE command. -/
def dispatches (me : Nat) (d : List Byte) : Block := member me (mapped (withCmds [cmd .dispatched d] up))

/-- Device `me` with a bucket that runs. -/
def bucket (me : Nat) (c : Coll) : Block :=
  let d := collDesc 1 1 0 0 0x1000
  { dispatches me d with cmds := [cmd .running d], colls := [c] }

/-- A class 1 message to device 2 from the bucket's position `p`, in round `r`. -/
def chunk (kind p r k : Nat) : Msg :=
  let c : Coll := { coll0 with pos := p, round := r }
  msg 2 (p + 1) 1 (if kind = 1 then c.header 1 0 k 32 1 ++ List.replicate 128 0
    else c.header kind 0 (if kind < 4 then k else 0) 0 0)

/-- A SCAN command of 1,024 channels in one block, its carry from and to the drift. -/
def scanCmd : Cmd :=
  veCmd 4 ((leBytes 2 0 ++ leBytes 2 0 ++ leBytes 2 1 ++ leBytes 33 0 ++ leBytes 1 4 ++ leBytes 1 10 ++ leBytes 4 128 ++ leBytes 4 1 ++ leBytes 4 1024
    ++ leBytes 2 0 ++ leBytes 2 0 ++ leBytes 4 7))

/-- It runs on device 2 of the gang. -/
def scans (j : Job) : Block :=
  member 2 (linked { up with cmds := [scanCmd], jobs := [j], ves := [(0, { Ve.fresh with job := some (0, 0) })], ses := [(0, { Se.fresh with job := some (0, 0) })] })

/-- A class 2 message to device 2 from device `src`. -/
def carry (src kind k n : Nat) : Msg :=
  msg 2 src 2 (({ coll0 with tally := 7, op := 0, elems := if kind = 4 then 1024 else 0, pos := src - 1 }).header kind 0 k n 0 ++ List.replicate (4 * n) 0)

/-- A PITHEAD command with its EPOCH, VOTE and FLAGS. -/
def pitCmd (stage : CmdStage) (vote flags : Nat) : Cmd := cmd stage (descOf 7 [0, 0, 0, 0, vote, flags])

/-- Device `me` with a PITHEAD command and no step command. -/
def pits (me : Nat) (c : Cmd) : Block := member me (mapped (withCmds [c] up))

/-- A securing of epoch 1 with one captured section, its target the HOST slot 0, the PEER slot 0 of `holder`, or both. -/
def secures (ss : List Section) (host peer : Bool) (b : Block) : Block :=
  { b with securing := some ⟨0, 1, 1, 1, 0, host, peer, if peer then some 3 else none, 0, 0, ss, 0, false⟩ }

/-- A section of 64 bytes at an address, or captured. -/
def sect (va : Nat) : Section := ⟨1, 1, 0, va, 64, List.replicate 64 0, []⟩

/-- A keep region of 1 MiB at 0x100000. -/
def keeps (b : Block) : Block := put fGG_KEEP_SIZE_MIB 1 (wr64 b rGG_KEEP_PA_LO 0x100000)

/-- A pithead message: kind, value, flags, cause, epoch, device, generation after it. -/
def pitMsg (src dst kind v f cause e dev g : Nat) : Msg :=
  msg dst src 5 (leBytes 1 kind ++ leBytes 1 v ++ leBytes 1 f ++ leBytes 1 cause ++ leBytes 4 e ++ leBytes 2 dev ++ leBytes 2 g ++ leBytes 20 0)

/-- A COMMIT or an ABORT of epoch 0 without an adoption. -/
def decides (commit : Bool) : Decision := ⟨0, commit, if commit then 0 else 1, 0xFFFF, false, false, false, 0, 1, 0⟩

/-- A RESTORE command: RSRC, DIGEST_DEV, PARTS and EPOCH, its record at 0x30000. -/
def restoreCmd (stage : CmdStage) (src dev parts e : Nat) : Cmd :=
  cmd stage (descOf 9 ((leBytes 8 0x30000 ++ leBytes 2 0 ++ leBytes 2 dev ++ leBytes 1 src ++ leBytes 1 0 ++ leBytes 1 parts ++ leBytes 1 0
    ++ leBytes 2 3 ++ leBytes 2 0 ++ leBytes 4 e).map BitVec.toNat))

/-! ### Commands that start -/

/-- A COPY that names cluster 0, its stream block at 0x60000. -/
def copyDesc : List Byte := descOf 2 ((leBytes 8 0x60000 ++ leBytes 4 1).map BitVec.toNat)

/-- Its stream block: four FP8 elements, the output by `layout`. -/
def copyBlock (layout base pitch : Nat) : List Byte :=
  blockBytes 0x41 1 0 ([tensorBytes 0 0 128 256 3 0 576 1 0] ++ List.replicate 5 (leBytes 64 0)
    ++ [tensorBytes base pitch 128 256 (3 + 16 * layout) 0 576 1 0]) [insn 3 0 4 0 1]

/-- Cluster 0 and both halves of the fabric ON. -/
def domains (b : Block) : Block := put (fDom 0) 2 (put (fDom (domFab 0)) 2 (put (fDom (domFab 1)) 2 b))

/-- A dispatched command with a structure in memory, on device 2 of the gang. -/
def startsWith (d : List Byte) (pa : Nat) (bs : List Byte) : Block :=
  memWrite pa bs (domains (member 2 (mapped (withCmds [{ cmd .dispatched d with mask := 1 }] up))))

/-- A KERNEL on OPU 0 of cluster 0, FP8 operands, drained to the stream engine, the scale of its activations from amax record 0. -/
def opuDesc : List Byte :=
  descOf 1 ((leBytes 8 (0x1033 + 0x20000 + 0x1000000) ++ leBytes 8 0 ++ leBytes 8 0x60000 ++ leBytes 4 1 ++ leBytes 4 1).map BitVec.toNat)

/-- Its stream block. -/
def opuBlock : List Byte :=
  blockBytes 0x83 1 1 ([tensorBytes 0 0 128 1 3 0 576 1 0, tensorBytes 0 0 1 256 3 0 592 1 0] ++ List.replicate 5 (leBytes 64 0)
    ++ [tensorBytes 0x10000 0 128 256 0 0 608 1 0]) [insn 3 0 128 0 0, insn 3 0 256 0 0, insn 3 0 32768 0 1]

/-- A SCAN on VE 0 of cluster 0 that keeps its results in a tile buffer, its image at 0x61000. -/
def scanDesc : List Byte :=
  descOf 5 ((leBytes 8 0 ++ leBytes 8 (0x61000 + 8 + 4) ++ leBytes 8 0x60000 ++ leBytes 4 1 ++ leBytes 4 0).map BitVec.toNat)

/-- Its stream block. -/
def scanBlock : List Byte := blockBytes 1 1 0 [tensorBytes 0 0 128 256 0 0 576 1 0] [insn 3 0 32768 0 1]

/-- Its image: ONE_PASS, 256 channels, the final carry to the drift, with a TALLY. -/
def scanImage (t : Nat) : List Byte :=
  leBytes 2 0 ++ leBytes 1 4 ++ leBytes 1 4 ++ leBytes 1 1 ++ leBytes 2 0 ++ leBytes 1 1 ++ leBytes 32 0 ++ leBytes 1 2 ++ leBytes 1 4
    ++ leBytes 1 1 ++ leBytes 1 8 ++ leBytes 4 128 ++ leBytes 4 1 ++ leBytes 4 256 ++ leBytes 4 0 ++ leBytes 4 t ++ leBytes 128 0

/-- A complete record of device 3 at epoch 4, with no section; its two digests are SHAKE256 values. -/
def goodRecord : List Byte :=
  leBytes 2 1 ++ leBytes 2 3 ++ leBytes 4 0 ++ leBytes 4 4 ++ leBytes 3 0 ++ leBytes 1 1 ++ leBytes 8 0 ++ leBytes 8 256
    ++ leBytes 32 0 ++
    [70, 185, 221, 43, 11, 168, 141, 19, 35, 59, 63, 235, 116, 62, 235, 36, 63, 205, 82, 234, 98, 184, 27, 130, 181, 12, 39, 100, 110, 213, 118, 47] ++
    [186, 4, 13, 97, 60, 161, 85, 204, 22, 17, 176, 88, 45, 41, 224, 82, 112, 11, 81, 16, 39, 169, 132, 48, 247, 35, 155, 64, 210, 38, 223, 188] ++ leBytes 128 0


/-- A well-formed message. -/
def goodMsg : Msg := msg 2 1 1 []
/-- A well-formed transaction. -/
def goodTxn : ChTxn := ⟨1, 0, 4, 0, 0, none, []⟩

/-! ### Ill-formed terms -/

/-- `powerUp` to `txnCommit`: a term that each check refuses. -/
theorem test_illFormed_0 : (([
    .powerUp 50001 0,
    .inputEntersRange 50001,
    .overVoltageShutdown 50001,
    .inputOvWarn 50001,
    .droop 50001,
    .envelopeExcursionHeight 65536,
    .envelopeExcursionLength 65536,
    .pacingUpdateRow [] 0 0 0 0,
    .pacingUpdateRow (List.replicate 64 0) 50001 0 0 0,
    .pacingUpdateRow (List.replicate 64 0) 0 65536 0 0,
    .pacingUpdateRow (List.replicate 64 0) 0 0 65536 0,
    .pacingUpdateRow (List.replicate 64 0) 0 0 0 65536,
    .i3cPrivateWrite (2 ^ 24) [],
    .i3cPrivateWrite 0 (List.replicate 4100 0),
    .i3cPrivateWrite 0 [0],
    .i3cPrivateRead (2 ^ 24) 0,
    .i3cPrivateRead 0 4097,
    .setdasa 128 0,
    .setdasa 0 128,
    .entdaa 128,
    .registerWrite .ch0 (2 ^ 24) 4 0,
    .registerWrite .ch0 0 0 0,
    .registerWrite .ch0 0 513 0,
    .counterLoRead .ch0 (2 ^ 24),
    .blkEvtClr .ch0 4096 0,
    .blkEvtEn .ch0 4096 0,
    .txnBegin .ch0 4096 0,
    .txnBegin .ch0 0 65536,
    .txnCommit .ch0 4096 0,
    .txnCommit .ch0 0 65536] : List Instr).all (fun i => !WellFormed i)) = true := by
  decide +kernel

/-- Terms of these rows that they accept. -/
theorem test_wellFormed_0 : (([
    .powerUp 0 0,
    .inputEntersRange 0,
    .overVoltageShutdown 0,
    .inputOvWarn 0,
    .droop 0,
    .envelopeExcursionHeight 0,
    .envelopeExcursionLength 0,
    .pacingUpdateRow (List.replicate 64 0) 0 0 0 0,
    .i3cPrivateWrite 0 [],
    .i3cPrivateRead 0 0,
    .setdasa 0 0,
    .entdaa 0,
    .registerWrite .ch0 0 4 0,
    .counterLoRead .ch0 0,
    .blkEvtClr .ch0 0 0,
    .blkEvtEn .ch0 0 0,
    .txnBegin .ch0 0 0,
    .txnCommit .ch0 0 0] : List Instr).all WellFormed) = true := by
  decide +kernel

/-- `txnRollback` to `remoteReadResponse`: a term that each check refuses. -/
theorem test_illFormed_1 : (([
    .txnRollback .ch0 4096 0,
    .txnRollback .ch0 0 65536,
    .txnSafePointApply 4096 false,
    .txnTimeoutRow 4096 false,
    .singleWriteApply 4096,
    .singleWriteTimeout 4096,
    .txBeginRow .ch0 65536,
    .txCommitRow .ch0 65536,
    .txRollbackRow .ch0 65536,
    .opuGroupEntry 0 12 [],
    .opuGroupEntry 0 0 [⟨0, 0, [39]⟩],
    .drainRowAccept 0 0 12 [],
    .drainRowAccept 0 0 0 [⟨0, 0, [39]⟩],
    .accLoadRow 0 12 [],
    .accLoadRow 0 0 [⟨0, 0, [39]⟩],
    .weightSlotFilled 0 16,
    .veRowLand 0 0 [⟨0, 0, [39]⟩],
    .veGroupRun 0 12 [],
    .veGroupRun 0 0 [⟨0, 0, [39]⟩],
    .rowstatFinalisation 0 [⟨0, 0, [39]⟩],
    .veSfu 0 0 0 0 0 0 [⟨0, 0, [39]⟩],
    .streamFetchRow 0 0 [⟨0, 0, [39]⟩],
    .remoteReadRequest 65536 0 0 [],
    .remoteReadRequest 0 (2 ^ 48) 0 [],
    .remoteReadRequest 0 0 4097 [],
    .remoteReadRequest 0 0 0 [⟨0, 0, [39]⟩],
    .remoteReadResponse 65536 0 [] 0 false,
    .remoteReadResponse 0 (2 ^ 48) [] 0 false,
    .remoteReadResponse 0 0 (List.replicate 4097 0) 0 false,
    .remoteReadResponse 0 0 [] (2 ^ 64) false] : List Instr).all (fun i => !WellFormed i)) = true := by
  decide +kernel

/-- Terms of these rows that they accept. -/
theorem test_wellFormed_1 : (([
    .txnRollback .ch0 0 0,
    .txnSafePointApply 0 false,
    .txnTimeoutRow 0 false,
    .singleWriteApply 0,
    .singleWriteTimeout 0,
    .txBeginRow .ch0 0,
    .txCommitRow .ch0 0,
    .txRollbackRow .ch0 0,
    .opuGroupEntry 0 0 [],
    .drainRowAccept 0 0 0 [],
    .accLoadRow 0 0 [],
    .weightSlotFilled 0 0,
    .veRowLand 0 0 [],
    .veGroupRun 0 0 [],
    .rowstatFinalisation 0 [],
    .veSfu 0 0 0 0 0 0 [],
    .streamFetchRow 0 0 [],
    .remoteReadRequest 0 0 0 [],
    .remoteReadResponse 0 0 [] 0 false] : List Instr).all WellFormed) = true := by
  decide +kernel

/-- `hoistRowForward` to `messageForward`: a term that each check refuses. -/
theorem test_illFormed_2 : (([
    .hoistRowForward 0 [⟨0, 0, [39]⟩],
    .lodeReadRow 0 4 [],
    .lodeReadRow 0 0 [72],
    .lodeReadRow 0 0 [1, 1],
    .lodeWriteRow 0 4 0 8 0 0 false false [] [] [],
    .lodeWriteRow 0 0 8 8 0 0 false false [] [] [],
    .lodeWriteRow 0 0 0 9 0 0 false false [] [] [],
    .lodeWriteRow 0 0 0 8 0 0 false false [39] [] [],
    .lodeWriteRow 0 0 0 8 0 0 false false [1, 1] [] [],
    .lodeWriteRow 0 0 0 8 0 0 false false [] [39] [],
    .lodeWriteRow 0 0 0 8 0 0 false false [] [1, 1] [],
    .lodeWriteRow 0 0 0 8 0 0 false false [] [] [72],
    .lodeWriteRow 0 0 0 8 0 0 false false [] [] [1, 1],
    .patrolScrubRead 0 [72] false,
    .patrolScrubRead 0 [1, 1] false,
    .fillCopyRow 0 [72] [],
    .fillCopyRow 0 [1, 1] [],
    .fillCopyRow 0 [] [72],
    .fillCopyRow 0 [] [1, 1],
    .stackTempReadout 0 256,
    .identFlitRow 0 65536 0 0 false,
    .identFlitRow 0 0 65536 0 false,
    .identFlitRow 0 0 0 16 false,
    .dataFlitRow 0 0 (List.replicate 4 0) (List.replicate 256 0),
    .dataFlitRow 0 0 [545] (List.replicate 256 0),
    .dataFlitRow 0 0 [] [],
    .ackFlitRow 0 4096,
    .nakFlitRow 0 4096,
    .messageForward { goodMsg with dst := 65536 },
    .messageForward { goodMsg with src := 65536 },
    .messageForward { goodMsg with mseq := 2 ^ 32 },
    .messageForward { goodMsg with cls := 0 },
    .messageForward { goodMsg with cls := 6 },
    .messageForward { goodMsg with hops := 256 },
    .messageForward { goodMsg with mgen := 65536 },
    .messageForward { goodMsg with poison := 2 ^ 64 },
    .messageForward { goodMsg with payload := List.replicate 4104 0 },
    .messageForward { goodMsg with payload := [0] },
    .messageForward { goodMsg with body := some .heartbeat }] : List Instr).all (fun i => !WellFormed i)) = true := by
  decide +kernel

/-- Terms of these rows that they accept. -/
theorem test_wellFormed_2 : (([
    .hoistRowForward 0 [],
    .lodeReadRow 0 0 [],
    .lodeWriteRow 0 0 0 8 0 0 false false [] [] [],
    .patrolScrubRead 0 [] false,
    .fillCopyRow 0 [] [],
    .stackTempReadout 0 0,
    .identFlitRow 0 0 0 0 false,
    .dataFlitRow 0 0 [] (List.replicate 256 0),
    .ackFlitRow 0 0,
    .nakFlitRow 0 0,
    .messageForward goodMsg] : List Instr).all WellFormed) = true := by
  decide +kernel

/-- `joinRequest` to `chunkClose`: a term that each check refuses. -/
theorem test_illFormed_3 : (([
    .joinRequest 65536,
    .routeQRow 0 { goodMsg with hops := 256 },
    .routeARow 0 { goodMsg with hops := 256 },
    .adoptedTables 65536 0 0 table3 0 0,
    .adoptedTables 0 65536 0 table3 0 0,
    .adoptedTables 0 0 (2 ^ 32) table3 0 0,
    .adoptedTables 0 0 0 { table3 with gen := 65536 } 0 0,
    .adoptedTables 0 0 0 { table3 with master := 65536 } 0 0,
    .adoptedTables 0 0 0 { table3 with deputy := 65536 } 0 0,
    .adoptedTables 0 0 0 { table3 with members := [(65536, 1)] } 0 0,
    .adoptedTables 0 0 0 table3 65536 0,
    .adoptedTables 0 0 0 table3 0 65536,
    .heartbeatRow 65536 0,
    .heartbeatRow 0 65536,
    .heartbeatAnswerRow 65536 0,
    .heartbeatAnswerRow 0 65536,
    .heartbeatTimeoutRow 65536,
    .failureDeclaration 65536 0 0,
    .failureDeclaration 0 65536 0,
    .failureDeclaration 0 0 65536,
    .takeoverRequestRow 65536 0,
    .takeoverRequestRow 0 65536,
    .takeoverAckRow 65536 0,
    .takeoverAckRow 0 65536,
    .chunkDataRow 0 { goodMsg with hops := 256 } [],
    .chunkDataRow 0 goodMsg [⟨0, 0, [39]⟩],
    .chunkGrantRow 0 { goodMsg with hops := 256 },
    .chunkAbortRow 0 { goodMsg with hops := 256 },
    .chunkCarryRow 0 { goodMsg with hops := 256 },
    .chunkClose 0 { goodMsg with hops := 256 }] : List Instr).all (fun i => !WellFormed i)) = true := by
  decide +kernel

/-- Terms of these rows that they accept. -/
theorem test_wellFormed_3 : (([
    .joinRequest 0,
    .routeQRow 0 goodMsg,
    .routeARow 0 goodMsg,
    .adoptedTables 0 0 0 table3 0 0,
    .heartbeatRow 0 0,
    .heartbeatAnswerRow 0 0,
    .heartbeatTimeoutRow 0,
    .failureDeclaration 0 0 0,
    .takeoverRequestRow 0 0,
    .takeoverAckRow 0 0,
    .chunkDataRow 0 goodMsg [],
    .chunkGrantRow 0 goodMsg,
    .chunkAbortRow 0 goodMsg,
    .chunkCarryRow 0 goodMsg,
    .chunkClose 0 goodMsg] : List Instr).all WellFormed) = true := by
  decide +kernel

/-- `chunkClosed` to `wrTxn`: a term that each check refuses. -/
theorem test_illFormed_4 : (([
    .chunkClosed 0 { goodMsg with hops := 256 },
    .chunkRestart 0 { goodMsg with hops := 256 },
    .waitReport 65536 0 0 0 0,
    .waitReport 0 65536 0 0 0,
    .waitReport 0 0 (2 ^ 32) 0 0,
    .waitReport 0 0 0 65536 0,
    .waitReport 0 0 0 0 65536,
    .waitReportGatherEnd (2 ^ 32),
    .segmentCarryArrival 0 [⟨0, 0, [39]⟩],
    .vote 0 { goodMsg with hops := 256 },
    .logAck 0 { goodMsg with hops := 256 },
    .decision 0 { goodMsg with hops := 256 },
    .securingFailure 256 0 false,
    .securingFailure 0 256 false,
    .keepRecordReceive 65536 0 0 .piece [],
    .keepRecordReceive 0 0 (2 ^ 40) .piece [],
    .keepRecordReceive 0 0 0 .piece (List.replicate 4097 0),
    .digestReqRow { goodMsg with hops := 256 },
    .digestAnsRow { goodMsg with hops := 256 },
    .clusterFailure 0 256,
    .capsFlitRow 0 [],
    .cfgRd 0 { goodTxn with kind := 256 },
    .cfgRd 0 { goodTxn with tag := 65536 },
    .cfgRd 0 { goodTxn with len := 65536 },
    .cfgRd 0 { goodTxn with status := 256 },
    .cfgRd 0 { goodTxn with addr := 2 ^ 64 },
    .cfgWr 0 { goodTxn with len := 65536 },
    .rdTxn 0 false { goodTxn with len := 65536 } [],
    .rdTxn 0 false goodTxn [⟨0, 0, [39]⟩],
    .wrTxn 0 false { goodTxn with len := 65536 }] : List Instr).all (fun i => !WellFormed i)) = true := by
  decide +kernel

/-- Terms of these rows that they accept. -/
theorem test_wellFormed_4 : (([
    .chunkClosed 0 goodMsg,
    .chunkRestart 0 goodMsg,
    .waitReport 0 0 0 0 0,
    .waitReportGatherEnd 0,
    .segmentCarryArrival 0 [],
    .vote 0 goodMsg,
    .logAck 0 goodMsg,
    .decision 0 goodMsg,
    .securingFailure 0 0 false,
    .keepRecordReceive 0 0 0 .piece [],
    .digestReqRow goodMsg,
    .digestAnsRow goodMsg,
    .clusterFailure 0 0,
    .capsFlitRow 0 (List.replicate 7 0),
    .cfgRd 0 goodTxn,
    .cfgWr 0 goodTxn,
    .rdTxn 0 false goodTxn [],
    .wrTxn 0 false goodTxn] : List Instr).all WellFormed) = true := by
  decide +kernel

/-- `cpl` to `dipEndRow`: a term that each check refuses. -/
theorem test_illFormed_5 : (([
    .cpl 0 { goodTxn with len := 65536 },
    .cplData 0 { goodTxn with len := 65536 },
    .completionTimeout 0 65536,
    .schWatchdogFire (2 ^ 32),
    .watchdogServiceRow .sch false [⟨0, 0, [39]⟩],
    .dieSensorSample [],
    .bootPhaseComplete [12] [] [] [],
    .bootPhaseComplete [1, 1] [] [] [],
    .bootPhaseComplete [] [32] [] [],
    .bootPhaseComplete [] [1, 1] [] [],
    .bootPhaseComplete [] [] [(12, 0, 0)] [],
    .bootPhaseComplete [] [] [(0, 32, 0)] [],
    .bootPhaseComplete [] [] [(0, 0, 4)] [],
    .bootPhaseComplete [] [] [] [(12, 0, 0)],
    .bootPhaseComplete [] [] [] [(0, 32, 0)],
    .bootPhaseComplete [] [] [] [(0, 0, 2 ^ 18)],
    .jtagSamplePreload (List.replicate 1025 false),
    .dbgTokenRow [],
    .dbgWindowRow false (2 ^ 24) 0,
    .dipEndRow (2 ^ 32)] : List Instr).all (fun i => !WellFormed i)) = true := by
  decide +kernel

/-- Terms of these rows that they accept. -/
theorem test_wellFormed_5 : (([
    .cpl 0 goodTxn,
    .cplData 0 goodTxn,
    .completionTimeout 0 0,
    .schWatchdogFire 0,
    .watchdogServiceRow .sch false [],
    .dieSensorSample (List.replicate 144 0),
    .bootPhaseComplete [] [] [] [],
    .jtagSamplePreload [],
    .dbgTokenRow (List.replicate 256 0),
    .dbgWindowRow false 0 0,
    .dipEndRow 0] : List Instr).all WellFormed) = true := by
  decide +kernel

/-! ### Worked examples of the spec -/

/-- The block after one command; a stop gives the reset block. -/
def after (i : Instr) (b : Block) : Block :=
  match exec i (st b) with
  | .next s => s.blk
  | _ => Block.reset

/-- 01, the example after R26: requesters 0 and 3 of four, pointer 2; then again; then 3 alone; then none. -/
theorem test_rrGrant :
    let b : Block := { up with arb := [(5, 2)] }
    let g0 := rrGrant 5 4 (fun i => i == 0 || i == 3) b
    let g1 := rrGrant 5 4 (fun i => i == 0 || i == 3) g0.2
    let g2 := rrGrant 5 4 (fun i => i == 3) g1.2
    let g3 := rrGrant 5 4 (fun _ => false) g2.2
    (g0.1, g1.1, g2.1, g3.1) = (some 3, some 0, some 3, none) ∧
      (mapGet 0 g0.2.arb 5, mapGet 0 g1.2.arb 5, mapGet 0 g2.2.arb 5, mapGet 0 g3.2.arb 5) = (0, 1, 0, 0) := by
  decide +kernel

/-- 02, the example after R37: a timer at 3 ms and a dip of 1.5 ms leave 4.5 ms. -/
theorem test_dipStaysUp :
    let b := after (.dipEndRow 1500) { dipping with pwr := { dipping.pwr with dipUs := 3000 } }
    b.pwr.rail = .up ∧ b.pwr.dipUs = 4500 ∧ b.pwr.dip = false := by decide +kernel

/-- 02, the same example: a dip of 2.5 ms passes 5 ms and shuts down. -/
theorem test_dipShutsDown :
    (after (.dipEndRow 2500) { dipping with pwr := { dipping.pwr with dipUs := 3000 } }).pwr.rail = .latchedOff := by
  decide +kernel

/-- R42: power-up starts inside 38.0–42.0 V and waits outside. -/
theorem test_powerUp :
    (after (.powerUp 38000 100) Block.reset).pwr.rail = .charging ∧ (after (.powerUp 37999 100) Block.reset).pwr.rail = .waitInput := by
  decide +kernel

/-- R56: 900 W is a legal limit, 599 W is not. -/
theorem test_limitW :
    get (after (.limitW .i3c 900#32) up) ⟨rPW_LIMIT, 15, 0⟩ = 900 ∧
      get (after (.limitW .i3c 599#32) up) ⟨rPW_LIMIT, 15, 0⟩ = get up ⟨rPW_LIMIT, 15, 0⟩ := by decide +kernel

/-- 04, the example after R90: 0x3E99999A to E4M3, to nearest and with two random draws. -/
theorem test_convertE4M3 :
    (convertFp fmtE4M3 ⟨none, false⟩ (fp32 0x3E99999A#32)).w = 0x2A ∧
      (convertFp fmtE4M3 ⟨some 0x7000, false⟩ (fp32 0x3E99999A#32)).w = 0x2A ∧
      (convertFp fmtE4M3 ⟨some 0x1234, false⟩ (fp32 0x3E99999A#32)).w = 0x29 := by decide +kernel

/-- 04, the example after R91: 500.0 to E4M3 overflows, to E5M2 does not. -/
theorem test_convertOverflow :
    (convertFp fmtE4M3 ⟨none, false⟩ (fp32 0x43FA0000#32)).w = 0x7E ∧ (convertFp fmtE4M3 ⟨none, false⟩ (fp32 0x43FA0000#32)).ovfs = 1 ∧
      (convertFp fmtE4M3 ⟨none, true⟩ (fp32 0x43FA0000#32)).w = 0x7F ∧
      (convertFp fmtE5M2 ⟨none, false⟩ (fp32 0x43FA0000#32)).w = 0x60 ∧
      (convertFp fmtE5M2 ⟨none, false⟩ (fp32 0x43FA0000#32)).ovfs = 0 := by decide +kernel

/-- 04, the example after R93: an MXFP4 block of 5.0, 2.6, −0.3, 0.25 and zeros. -/
theorem test_mxBlock :
    let r := mxBlock 10 false none ([0x40A00000#32, 0x40266666#32, 0xBE99999A#32, 0x3E800000#32].map fp32 ++
      List.replicate 28 (.fin false 0 0))
    r.1 = 0x7F ∧ r.2.map CvtOut.w = [6, 5, 9, 0] ++ List.replicate 28 0 := by decide +kernel

/-- 04, the example after R105: with a maximum of 3.7 and MARGIN 0 the exponent is 6; with 1,000 it is −2. -/
theorem test_amaxExponent :
    floorLog2Ratio (fmaxOf 3) (fp32 0x406CCCCD#32) = 6 ∧ floorLog2Ratio (fmaxOf 3) (fp32 0x447A0000#32) = -2 := by decide +kernel

/-- 06, the example after R157: the three stage words. -/
theorem test_laneWords :
    laneWord 0x000919C1 = ⟨1, 7, 6, 9, 0⟩ ∧ laneWord 0x021019C4 = ⟨4, 7, 6, 0x10, 8⟩ ∧
      laneWord 0x049119CA = ⟨0xA, 7, 6, 0x11, 0x12⟩ := by decide +kernel

/-- 06, the same example: 3.5 − 0.25 = 3.25; 3.25 × 0.5 + 1.0 = 2.625; 10.875 is clamped to 4.0. -/
theorem test_laneOps :
    (laneOp false false 0x01 0 0 0x40600000#32 0xBE800000#32 0#32).w = 0x40500000#32 ∧
      (laneOp false false 0x04 0 0 0x40500000#32 0x3F000000#32 0x3F800000#32).w = 0x40280000#32 ∧
      (laneOp false false 0x0A 0 0 0x412E0000#32 0#32 0x40800000#32).w = 0x40800000#32 := by decide +kernel

/-- 07, the example after R180: TANH across the seam at 1.0. -/
theorem test_tanh :
    (sfu false 0x05 0x3F7FFFFF#32).1 = 0x3F42F7D6#32 ∧ (sfu false 0x05 0x3F800000#32).1 = 0x3F42F7D6#32 ∧
      (sfu false 0x05 0x3F800001#32).1 = 0x3F42F7D7#32 := by decide +kernel

/-- 09, the example after R232: LOOP PART, LOOP, RUN and END. -/
theorem test_streamWords :
    sInstr (0x0F11 + 0x100 * 2 ^ 64) = ⟨1, true, false, 16, 256, 0⟩ ∧ sInstr (0x0101 + 0x80 * 2 ^ 64) = ⟨1, false, false, 2, 128, 0⟩ ∧
      sInstr (0x1FF01 + 2 ^ 32) = ⟨1, false, false, 512, 0, 1⟩ ∧ sInstr (0x7F03 + 2 ^ 64) = ⟨3, false, false, 128, 1, 0⟩ ∧
      (sInstr 2).op = 2 := by decide +kernel

/-- 10, the example after R267: the lode and the lode-local address of PA 0x1234567800. -/
theorem test_lodeOf : lodeOf 0x1234567800 = 1 ∧ lodeLocal 0x1234567800 = 0x1845C8800 := by decide +kernel

/-- 10, the example after R281: the first granule of row group 50,000 in LD7. -/
theorem test_lodePa : lodePa 7 (3200000 * 4096) = 0x249F00B000 ∧ lodePa 7 (3200063 * 4096) = 0x249F2FF000 := by decide +kernel

/-- 12, the example after R314: E = 1,000,000 on a group of six. -/
theorem test_shards :
    shardSize 1000000 6 = 166688 ∧
      ({ coll0 with elems := 1000000, drift := [1, 2, 3, 4, 5, 6] } : Coll).shardSpan 5 = (833440, 166560) := by decide +kernel

/-- 12, the example after R327: 30.0 and 0.3 at 0x7C; 65.0 and 0.4125 raise the exponent to 0x7D. -/
theorem test_bxEncode :
    bxEncode 8 [fp32 0x41F00000#32, fp32 0x3E99999A#32] 0x7C = ([0x77, 0x42], 0x7C) ∧
      bxEncode 8 [fp32 0x42820000#32, fp32 0x3ED33333#32] 0x7C = ([0x78, 0x3D], 0x7D) := by decide +kernel

/-- 13, the example after R365: stream 3, epoch 812, position 0x17030A. -/
theorem test_spore :
    spore 0x00000004000000030000000200000001 3 812 0x17030A =
      ⟨0x2664C98B#32, 0xF9B87861#32, 0xD6FD0ADE#32, 0x65B4A568#32⟩ ∧ spore16 0x2664C98B = 0x2664 := by decide +kernel

/-- 14, the example after R380: the counts of the last hour score 82; a second uncorrectable error makes it 98. -/
theorem test_canaryScore :
    let b : Block := { up with canary := [(0, [(0, 700)]), (1, [(0, 90)]), (2, [(0, 1)]), (3, [(0, 1)]), (4, [(0, 3000)]), (6, [(0, 1)]),
      (8, [(0, 3)]), (9, [(0, 5)]), (12, [(0, 4)])] }
    canaryScore b = 82 ∧ canaryScore (canaryAdd .ue 1 b) = 98 := by decide +kernel

/-- 15, the example after R435: command 130 in a ring of 64 has PHASE 1. -/
theorem test_phase : phaseOf 130 6 = true := by decide +kernel

/-- 18 R510: IDCODE drives 0x1B24074B. -/
theorem test_idcode : (after .jtagIdcode up).out.head? = some (.tdo 0x1B24074B 32) := by decide +kernel

/-- The table gives its rows no bits. -/
theorem test_decodeTableWord (n w : Nat) : decodeTableWord n w = none := rfl

/-! ### Images and tokens -/

/-- The private seed of RFC 8032's blank message under Ed448, its public key, and its signature. -/
def edSeed : List Byte := leBytes 57 0x5bf99800a249752e038f2f49945bfca3394e042fcc3f8a8c52a348e3f60e96c9639f8cfadd349f926cbf3e51c889be32d6108d80cb62a5826c
/-- The key. -/
def rootKey : List Byte := leBytes 57 0x806125e8afbe1afad16c0fe5f13d78d61b06c7469b7624f1ed7867e9805da70e8a1f0ea7852434a11d6ad46a61ec87e72cfd61b4599b44d75f
/-- The signature. -/
def edBlank : List Byte := leBytes 114 0x0026652eff0858d9718c2663735af04911b6dbf4a013a13085dacdc7c59ab92d8504410bc08d5d925b342d1c5d6c003ef69d8ab1d428200dff8039fd1ba2d09bc528787dd4dd227afdf28182624f033f232b1f591ad423d84f07d2343e844a50fb2dae76f9880d3c021f2557e4bbf6373a53
theorem test_ed448_public : ed448Public edSeed = rootKey := by decide +kernel
theorem test_ed448_verify : ed448Verify rootKey [] [] edBlank = true := by decide +kernel

/-- SHAKE256 of that key. -/
def rootDigest : List Byte := leBytes 32 0x11c30055b64084fc23c6440442d53d87a8b0078d99f1afa90280c69372d2492a
theorem rootDigest_shake : shake256 rootKey 32 = rootDigest := by decide +kernel

/-- The first 64 bytes of SHAKE256 of the empty message (FIPS 202). -/
def emptyDigest : List Byte := [70, 185, 221, 43, 11, 168, 141, 19, 35, 59, 63, 235, 116, 62, 235, 36, 63, 205, 82, 234, 98, 184, 27, 130, 181, 12, 39, 100, 110, 213, 118, 47, 215, 93, 196, 221, 216, 192, 242, 0, 203, 5, 1, 157, 103, 181, 146, 246, 252, 130, 28, 73, 71, 154, 180, 134, 64, 41, 46, 172, 179, 183, 196, 190]
theorem test_shake256_empty : shake256 [] 64 = emptyDigest := by decide +kernel

/-- An image of FW_EPOCH 9 whose five sections are empty. -/
def image : List Byte :=
  leBytes 2 1 ++ leBytes 2 0 ++ leBytes 4 9 ++ leBytes 4 640 ++ leBytes 4 0
    ++ (List.range 5).flatMap (fun i => leBytes 4 (i + 1) ++ leBytes 4 640 ++ leBytes 8 0)
    ++ (List.range 5).flatMap (fun _ => emptyDigest) ++ rootKey ++ leBytes 7 0 ++ leBytes 114 0x002e7b5271125228b0dea69b455dad657b1ee017bfa2413889f1ac0ae7d0d7b3cb7b5112228109fa54bbf5e59959d929fb2108fe0ab5d418a58059f606b12a3b2bd5b3940243b609f7d0ed8a83e886babd65d38ab36651a0c94835a6c15380311ec31f6d08ff98293c81a896b9b892989ae7 ++ leBytes 46 0

/-- A module with that root key. -/
def keyed (b : Block) : Block := { b with fuses := { b.fuses with roots := #v[BitVec.ofNat 256 (leNat rootDigest), 0, 0, 0] } }

/-- Its signature verifies. -/
theorem image_signed :
    ed448Verify (slice image 0x1A0 57) (ascii "BX240-IMAGE") (slice image 0 0x1E0) (slice image 0x1E0 114) = true := by decide +kernel

theorem image_verifies (b : Block) (n : Option Nat) (hn : n = none ∨ n = some 640) (hr : b.fuses.roots = #v[BitVec.ofNat 256 (leNat rootDigest), 0, 0, 0])
    (hv : b.fuses.revoked = 0) (hf : rollbackFloor b ≤ 9) (he : get b fSEC_FW_EPOCH_EPOCH < 9) : verifyImage b image n = 0 := by
  have h1 : imageFormat image = true := by decide +kernel
  have h2 : rootOk b (byteAt image 2) (slice image 0x1A0 57) = true := by
    have e : slice image 0x1A0 57 = rootKey := by decide +kernel
    have e2 : byteAt image 2 = 0 := by decide +kernel
    rw [e, e2]; unfold rootOk; rw [hr, hv, rootDigest_shake]; decide +kernel
  have h3 : (List.range 5).all (fun i => shake256 (sectionBytes image i) 64 == slice image (0x60 + 64 * i) 64) = true := by
    have e : ∀ i, i < 5 → sectionBytes image i = [] ∧ slice image (0x60 + 64 * i) 64 = emptyDigest := by decide +kernel
    rw [List.all_eq_true]
    intro i hi
    have := e i (List.mem_range.mp hi)
    rw [this.1, this.2, test_shake256_empty]; decide
  have h4 : imageEpoch image = 9 := by decide +kernel
  have h5 : imageLength image = 640 := by decide +kernel
  unfold verifyImage
  have h6 : ¬ 9 < rollbackFloor b := by omega
  have h7 : ¬ get b fSEC_FW_EPOCH_EPOCH ≥ 9 := by omega
  rcases hn with rfl | rfl <;> simp [h1, h2, h3, h4, h5, h6, h7, image_signed]

/-- The module that tokens unlock, and its binding. -/
def locked : Block := put fSEC_BOOT_LIFECYCLE 1 (keyed (domains up))
/-- The binding. -/
def lockedBinding : List Byte := leBytes 32 0x321918bd81da4697d7538cb27fe84b94ae7d7dca3cd9b182ca4da320b241b05c
theorem locked_binding : binding locked = lockedBinding := by decide +kernel

/-- A token of slot 0 for lifecycle 1, challenge 0 and that binding, with a grant and its signature. -/
def tokenOf (g sig : Nat) : List Byte :=
  leBytes 2 1 ++ leBytes 1 1 ++ leBytes 1 0 ++ leBytes 2 g ++ leBytes 2 0 ++ lockedBinding ++ leBytes 24 0 ++ rootKey ++ leBytes 7 0
    ++ leBytes 114 sig ++ leBytes 14 0
/-- A token for an unlock. -/
def unlockToken : List Byte := tokenOf 1 0x003bafd910183f31d601454c18c45d60680e6fe9717b6fa261271662afa0f134d9d6fbd3db8545e9327a72ae55169d90fb557862547d032ef5807a389b2b471a2005a26dc822d83048b26b61c18563d22212c4ce916f0444b1729066bbacaf26f31403f39c2794c05785538e7190cad01aca
/-- A token for a lifecycle advance. -/
def advanceToken : List Byte := tokenOf (2 ^ 14) 0x002360c17f56b280045574572f47576a92116ca783c869ce83cbed0071fe20b698deb099bcbc299deda992516a3c49edca642ecc15a287707f805d21fe2bf0247d12214cf3a79e6dab95117f9dc828c39f14c617574f2c6ae4d245008da836fdeb2df0cb2f32c2ba3be31fa806e64e6c6976

/-- It with DBG_TOKEN in the TAP. -/
def lockedTap : Block := { locked with dbg := { locked.dbg with ir := 0x21 } }

theorem token_ok (b : Block) (t : List Byte) (hb : binding b = lockedBinding) (hl : lifecycle b = 1) (hroot : rootOk b 0 rootKey = true)
    (hc : b.dbg.challenge = 0)
    (h : (t.length == 256 && fieldAt t 0 2 == 1 && fieldAt t 4 2 / 2 ^ 10 % 16 == 0 && zeroAt t 6 2 && zeroAt t 0x38 8 && zeroAt t 0x79 7
      && zeroAt t 0xF2 14 && byteAt t 2 == 1 && byteAt t 3 == 0 && slice t 0x40 57 == rootKey
      && ed448Verify rootKey (ascii "BX240-UNLOCK") (slice t 0 0x80) (slice t 0x80 114)
      && slice t 8 32 == lockedBinding && fieldAt t 0x28 16 == 0 && grantOk 1 (fieldAt t 4 2)) = true) :
    tokenOk b t = true := by
  simp only [Bool.and_eq_true, beq_iff_eq] at h
  obtain ⟨⟨⟨⟨⟨⟨⟨⟨⟨⟨⟨⟨⟨a1, a2⟩, a3⟩, a4⟩, a5⟩, a6⟩, a7⟩, a8⟩, a9⟩, a10⟩, a11⟩, a12⟩, a13⟩, a14⟩ := h
  unfold tokenOk
  simp only [a1, a2, a3, a4, a5, a6, a7, a8, a9, a10, a11, a12, a13, a14, hb, hl, hroot, hc, beq_self_eq_true, Bool.and_true]

theorem lockedTap_root : rootOk lockedTap 0 rootKey = true := by
  unfold rootOk; rw [rootDigest_shake]; decide +kernel
theorem unlockToken_ok : tokenOk lockedTap unlockToken = true :=
  token_ok _ _ locked_binding (by decide +kernel) lockedTap_root (by decide +kernel) (by decide +kernel)
theorem advanceToken_ok : tokenOk lockedTap advanceToken = true :=
  token_ok _ _ locked_binding (by decide +kernel) lockedTap_root (by decide +kernel) (by decide +kernel)

/-- Hypotheses of `AttestationAndTestPort` on tokens that the module accepts, for an unlock and for a lifecycle advance. -/
theorem witness_AttestationAndTestPort_token :
    locked.pwr.pwrGood = true ∧ powered locked = true ∧ 2 ≤ get locked fDEV_BLK_STAT_BOOT_PHASE ∧ secRuns locked = true ∧
      (tokenOk lockedTap unlockToken = true ∧
        (fieldAt unlockToken 4 2).testBit 14 = false ∧ (fieldAt unlockToken 4 2).testBit 15 = false) ∧
      tokenOk lockedTap advanceToken = true ∧ (fieldAt advanceToken 4 2).testBit 14 = true :=
  ⟨by decide +kernel, by decide +kernel, by decide +kernel, by decide +kernel, ⟨unlockToken_ok, by decide +kernel, by decide +kernel⟩,
    advanceToken_ok, by decide +kernel⟩

/-- A staging in progress whose image lies at 0x340000. -/
def staging : Block :=
  let b : Block := put fSEC_FW_LEN_BYTES 640 (wr64 (put fSEC_FW_STAT_STATE 1 (keyed (linked up))) rSEC_FW_SRC_LO 0x340000)
  { b with mem := memPut [] 0x340000 image }

/-- Hypotheses of `StagingAndActivation` on an image that passes. -/
theorem witness_StagingAndActivation_accepted :
    anyPortActive staging = true ∧ fwState staging = 1 ∧ rd64 staging rSEC_FW_SRC_LO = 0x340000 ∧ get staging fSEC_FW_LEN_BYTES = 640 ∧
      rangeReachable staging 0x340000 640 = true ∧ anyPoison staging 0x340000 640 = false ∧
      verifyImage staging (memBytes staging 0x340000 640) (some 640) = 0 := by
  have n : image.length = 640 := by decide +kernel
  have e : memBytes staging 0x340000 640 = image := by
    apply List.ext_getElem
    · rw [n]; simp [memBytes]
    · intro i h1 h2
      simp only [memBytes, List.getElem_map, List.getElem_range]
      show mapGet 0 (memPut [] 0x340000 image) (0x340000 + i) = _
      rw [memPut_at _ _ _ _ h2]
      simp [h2]
  refine ⟨by decide +kernel, by decide +kernel, by decide +kernel, by decide +kernel, by decide +kernel, by decide +kernel, ?_⟩
  rw [e]
  exact image_verifies _ _ (.inr rfl) (by decide +kernel) (by decide +kernel) (by decide +kernel) (by decide +kernel)

/-- Boot phase SEC with that image in the active bank. -/
def booting : Block := put fDEV_BLK_STAT_BOOT_PHASE 2 (setFw (fun f => { f with active := image }) (keyed charged))

/-- Hypotheses of `BootSequence` on an active image that passes. -/
theorem witness_BootSequence_verified :
    ready booting = false ∧ booting.pwr.rstWait = false ∧ powered booting = true ∧ booting.pwr.bootFail = false ∧
      get booting fDEV_BLK_STAT_BOOT_PHASE = 2 ∧ verifyImage booting booting.fw.active none = 0 := by
  refine ⟨by decide +kernel, by decide +kernel, by decide +kernel, by decide +kernel, by decide +kernel, ?_⟩
  exact image_verifies _ _ (.inl rfl) (by decide +kernel) (by decide +kernel) (by decide +kernel) (by decide +kernel)

/-! ### Hypotheses under quantifiers -/

/-- Both hypotheses of `OnlyDamageStops`: an operand beyond the absolute maximum, one within it, and a row that carries none. -/
theorem witness_OnlyDamageStops :
    (∃ v, carriedVin (.droop 50001) = some v ∧ 50000 < v) ∧ (∀ v, carriedVin (.droop 50000) = some v → v ≤ 50000) ∧
      ∀ v, carriedVin .trstN = some v → v ≤ 50000 :=
  ⟨⟨50001, rfl, by decide⟩, fun _ h => by cases h; decide, fun _ h => by cases h⟩

/-- Hypotheses of `ShutdownsLatch`, one by one. -/
theorem witness_ShutdownsLatch :
    (up.pwr.rail = .charging ∨ up.pwr.rail = .up) ∧ (46000 ≤ 46000 ∧ 46000 ≤ 50000) ∧ (dipping.pwr.rail = .up ∧ dipping.pwr.dip = true) ∧
      5000 < dipping.pwr.dipUs + 5001 := by
  decide +kernel

/-- Hypothesis of `QueueIsFifo`: two commands run from a queue of three. -/
theorem witness_QueueIsFifo :
    (match core.run 2 ⟨up, [.trstN, .jtagBypass, .powerDown]⟩ with
      | .next t => t.pending == [.powerDown]
      | _ => false) = true := by
  decide +kernel

/-- Hypotheses of `StepKeepsShown`: a block that shows what it should, and a step that leaves the control path running. -/
theorem witness_StepKeepsShown :
    (settle up).shown ∧ (match step ⟨settle up, [.trstN]⟩ with
      | .next t => domOn t.blk domPwr
      | _ => false) = true := by
  unfold Block.shown
  decide +kernel



/-! ### A proposal that every table rule accepts -/

/-- Device 1 has its regions kept, and a proposal of itself alone in memory. -/
def proposing : Block :=
  put fGG_DEV_ID_ID 1 (regions (memWrite 0x140000 [1, 0, 1, 0, 0, 0, 1, 0, 0xFF, 0xFF] (memWrite 0x140040 [1, 0, 1] up)))

/-- PROPOSE written, and the regions kept. -/
def takes : Block :=
  let b := storeRw rGG_CTL 2 (granted .ch0 (rGG_CTL / 4096) proposing)
  match gangRegions b with
  | some r => keepRegions r b
  | none => b

/-- `n` pages from `pa` on. -/
def pagesFrom (pa : Nat) : Nat → List (Nat × Nat)
  | 0 => []
  | n + 1 => (pa, 4096) :: pagesFrom (pa + 4096) n

theorem pieceAt_pagesFrom : ∀ (n pa i : Nat), i < 4096 * n → pieceAt (pagesFrom pa n) i = some (pa + i)
  | 0, _, _, h => by omega
  | n + 1, pa, i, h => by
    simp only [pagesFrom, pieceAt]
    split
    · rfl
    · rw [pieceAt_pagesFrom n (pa + 4096) (i - 4096) (by omega)]
      congr 1
      omega

theorem mapGet_above (k a : Nat) : ∀ m : SMap Byte, (m.all fun e => decide (e.1 < k)) = true → k ≤ a → mapGet 0 m a = (0 : Byte)
  | [], _, _ => rfl
  | (x, v) :: t, h, ha => by
    simp only [List.all_cons, Bool.and_eq_true, decide_eq_true_eq] at h
    have hx : ¬ x = a := by omega
    simp only [mapGet, hx, if_false]
    exact mapGet_above k a t h.2 ha

theorem leNat_zeros : ∀ n : Nat, leNat (List.replicate n 0#8) = 0
  | 0 => rfl
  | n + 1 => by simp [List.replicate_succ, leNat, leNat_zeros n]

theorem takes_pieces : takes.gang.tablePas = pagesFrom 0x100000 128 := by decide +kernel
theorem takes_mem : (takes.mem.all fun e => decide (e.1 < 0x140043)) = true := by decide +kernel

theorem takes_reserved : regionNat takes takes.gang.tablePas (0x40000 + 0xC040) 16320 = 0 := by
  have h : regionBytes takes takes.gang.tablePas (0x40000 + 0xC040) 16320 = List.replicate 16320 0#8 := by
    rw [takes_pieces]
    unfold regionBytes
    rw [show List.replicate 16320 (0#8 : Byte) = List.replicate (List.range 16320).length 0#8 by rw [List.length_range],
      List.map_eq_replicate_iff]
    intro i hi
    rw [List.mem_range] at hi
    rw [pieceAt_pagesFrom 128 _ _ (by omega)]
    exact mapGet_above 0x140043 _ _ takes_mem (by omega)
  unfold regionNat
  rw [h]
  exact leNat_zeros 16320

theorem takes_proposed : readProposed takes = (⟨1, 1, 0xFFFF, [(1, 1)], []⟩, false) := by
  simp only [readProposed, takes_reserved]
  decide +kernel

/-- Hypotheses of `Forming` on a proposal of a device outside a gang that every table rule accepts. -/
theorem witness_Forming_proposed :
    actsNow proposing .ch0 rGG_CTL 2 = true ∧ role proposing = 0 ∧
      gangRegions (storeRw rGG_CTL 2 (granted .ch0 (rGG_CTL / 4096) proposing)) ≠ none ∧
      tableRule (put fGG_STATE_TAKEN 1 (setGang (fun g => { g with
        taken := some (readProposed takes).1, takenBad := (readProposed takes).2, routeOut := [], routeSent := false, routeBad := none })
        takes)) (readProposed takes).1 (readProposed takes).2 = none := by
  rw [takes_proposed]
  decide +kernel

/-! ### Hypotheses of the statements, clause by clause -/

/-- Hypotheses of `StepRunsFront`, clause by clause. -/
theorem witness_StepRunsFront :
    (let c : Instr := .powerDown;
      let rest : List Instr := [.trstN];
      let s : State := ⟨up, [.powerDown, .trstN]⟩;
      decide (s.pending = c :: rest) : Bool) = true := by
  decide +kernel

/-- Hypotheses of `EmptyQueueTicks`, clause by clause. -/
theorem witness_EmptyQueueTicks :
    (let s : State := st (up);
      decide (s.pending = []) : Bool) = true := by
  decide +kernel

/-- Hypotheses of `SettleOfAQuietBlock`, clause by clause. -/
theorem witness_SettleOfAQuietBlock :
    (let b : Block := Block.reset;
      b.quiet &&
      (let off := 0x40;
      decide (off ∉ settledRegs)) &&
      decide (domOn b domPwr = false) : Bool) = true := by
  decide +kernel

/-- Hypotheses of `PowerUpAndDown`, clause by clause. -/
theorem witness_PowerUpAndDown :
    (let s : State := st (Block.reset);
      let v : Nat := 38000;
      let low : Nat := 100;
      decide (s.blk.pwr.pwrEn = false) && decide (100 ≤ low) && decide (38000 ≤ v) && decide (v ≤ 42000) : Bool) = true ∧
    (let s : State := st (Block.reset);
      let v : Nat := 50000;
      let low : Nat := 100;
      decide (s.blk.pwr.pwrEn = false) && decide (100 ≤ low) && decide (v ≤ 50000) && decide (v < 38000 ∨ 42000 < v) : Bool) = true ∧
    (let s : State := st (waiting);
      let v : Nat := 42000;
      let low : Nat := 0;
      decide (s.blk.pwr.rail = .waitInput) && s.blk.pwr.pwrEn && decide (38000 ≤ v) && decide (v ≤ 42000) &&
      s.blk.pwr.pwrEn : Bool) = true ∧
    (let s : State := st (up);
      let v : Nat := 42000;
      let low : Nat := 0;
      decide (s.blk.pwr.rail = .up) && decide (38000 ≤ v) && decide (v ≤ 42000) : Bool) = true := by
  decide +kernel

/-- Hypotheses of `DipsAndWarnings`, clause by clause. -/
theorem witness_DipsAndWarnings :
    (let s : State := st (up);
      let v : Nat := 42001;
      let us : Nat := 0;
      decide (s.blk.pwr.rail = .up) &&
      decide (42000 < v) && decide (v < 46000) && decide (s.blk.pwr.ovIn = false) &&
      decide (s.blk.pwr.dip = false) : Bool) = true ∧
    (let s : State := st (up);
      let v : Nat := 36000;
      let us : Nat := 0;
      decide (s.blk.pwr.rail = .up) && decide (36000 ≤ v) && decide (v < 38000) && decide (s.blk.pwr.dip = false) : Bool) = true ∧
    (let s : State := st (dipping);
      let v : Nat := 36000;
      let us : Nat := 5000;
      decide (s.blk.pwr.rail = .up) && s.blk.pwr.dip && decide (s.blk.pwr.dipUs + us ≤ 5000) : Bool) = true := by
  decide +kernel

/-- Hypotheses of `ModuleReset`, clause by clause. -/
theorem witness_ModuleReset :
    (let s : State := st (up);
      s.blk.pwr.pwrGood &&
      domOn s.blk domPwr : Bool) = true ∧
    (let s : State := st (Block.reset);
      decide (s.blk.pwr.pwrGood = false) : Bool) = true := by
  decide +kernel

/-- Hypotheses of `ReferenceClock`, clause by clause. -/
theorem witness_ReferenceClock :
    (let s : State := st (up);
      decide (s.blk.pwr.rail = .up) && decide (1 ≤ get s.blk fDEV_BLK_STAT_BOOT_PHASE) : Bool) = true ∧
    (let s : State := st (charged);
      decide (s.blk.pwr.rail = .up) && decide (get s.blk fDEV_BLK_STAT_BOOT_PHASE = 0) : Bool) = true := by
  decide +kernel

/-- Hypotheses of `Cooling`, clause by clause. -/
theorem witness_Cooling :
    (let s : State := st (up);
      let live : Fin 4 := 2;
      latched s.blk &&
      (let b := coolSettle (put fPW_COOL_LIVE live (setPwr (fun x => { x with coolPins := live }) s.blk));
      decide (live.val ≠ get s.blk fPW_COOL_STRAP) &&
      decide (isSet s.blk fPW_COOL_MISMATCH = false) && decide (live.val ≠ get s.blk fPW_COOL_STRAP)) : Bool) = true ∧
    (let s : State := st (mismatched);
      let live : Fin 4 := 1;
      latched s.blk &&
      (let b := coolSettle (put fPW_COOL_LIVE live (setPwr (fun x => { x with coolPins := live }) s.blk));
      decide (isSet s.blk fPW_COOL_MISMATCH = true ∨ live.val = get s.blk fPW_COOL_STRAP)) : Bool) = true ∧
    (let s : State := st (charged);
      let live : Fin 4 := 2;
      decide (latched s.blk = false) : Bool) = true := by
  decide +kernel

/-- Hypotheses of `PowerPageWrites`, clause by clause. -/
theorem witness_PowerPageWrites :
    (let s : State := st (up);
      let port : Port := .i3c;
      let v : W32 := 0x20;
      actsNow s.blk port rPW_COOL v && pwrRuns s.blk &&
      (let b := coolSettle (put fPW_COOL_CONFIRM (field v 5 4) (granted port 2 s.blk));
      decide (field v 5 4 ≠ get b fPW_COOL_STRAP)) : Bool) = true ∧
    (let s : State := st (up);
      let port : Port := .i3c;
      let v : W32 := 600;
      (actsNow s.blk port rPW_COOL v && pwrRuns s.blk &&
      (let b := coolSettle (put fPW_COOL_CONFIRM (field v 5 4) (granted port 2 s.blk));
      decide (field v 5 4 = get b fPW_COOL_STRAP))) &&
      actsNow s.blk port rPW_LIMIT v && pwrRuns s.blk &&
      actsNow s.blk port rPW_ALERT v &&
      actsNow s.blk port rPW_LATTOL v && pwrRuns s.blk &&
      actsNow s.blk port rPW_FD_CTL v : Bool) = true := by
  decide +kernel

/-- Hypotheses of `EnvelopeAndPacing`, clause by clause. -/
theorem witness_EnvelopeAndPacing :
    (let s : State := st (up);
      let w : Nat := 5000;
      let vin : Nat := 50000;
      let iin : Nat := 70000;
      let avg : Nat := 5000;
      let predicted : List Nat := [40, 30];
      decide (s.blk.pwr.rail = .up) &&
      (let peak := put fPW_POWER_PEAK_W (max (get s.blk fPW_POWER_PEAK_W) (min w 4095)) s.blk;
      decide (12 * envelope s.blk < 10 * w) &&
      decide (envelope s.blk < w) &&
      decide (vin ≤ 50000) && pwrRuns s.blk) : Bool) = true ∧
    (let s : State := st (up);
      let w : Nat := 100;
      let vin : Nat := 50000;
      let iin : Nat := 70000;
      let avg : Nat := 5000;
      let predicted : List Nat := [40, 30];
      decide (s.blk.pwr.rail = .up) &&
      (let peak := put fPW_POWER_PEAK_W (max (get s.blk fPW_POWER_PEAK_W) (min w 4095)) s.blk;
      decide (w ≤ envelope s.blk)) : Bool) = true := by
  decide +kernel

/-- Hypotheses of `FiredampCauses`, clause by clause. -/
theorem witness_FiredampCauses :
    (let s : State := st ((put fPW_FD_LEVEL 1 up));
      let readings : List Nat := [];
      powered s.blk && decide (fdnDriven s.blk = false) &&
      decide (fdLevel s.blk ≠ 3) && decide (fdFloor s.blk < fdLevel s.blk) &&
      s.blk.pwr.pwrGood : Bool) = true ∧
    (let s : State := st ((put fPW_FD_LEVEL 3 (put fDEV_BLK_STAT_READY 0 up)));
      let readings : List Nat := [];
      decide (powered s.blk = false ∨ fdnDriven s.blk = true) &&
      (decide (fdLevel s.blk = 3) && decide (fdCalled (setFd (fun x => { x with regCause := false }) s.blk) < 2) &&
      (let b := fdChange 1 9 (setFd (fun x => { x with fd3Latch := false, fd1Hold := true }) (regulationBack (setFd (fun x => { x with regCause := false }) s.blk)));
      let phase := get s.blk fDEV_BLK_STAT_BOOT_PHASE;
      decide (6 ≤ phase) && decide (activity s.blk < 2))) : Bool) = true ∧
    (let s : State := st ((put fPW_FD_LEVEL 3 charged));
      let readings : List Nat := [];
      decide (fdLevel s.blk = 3) && decide (fdCalled (setFd (fun x => { x with regCause := false }) s.blk) < 2) &&
      (let b := fdChange 1 9 (setFd (fun x => { x with fd3Latch := false, fd1Hold := true }) (regulationBack (setFd (fun x => { x with regCause := false }) s.blk)));
      let phase := get s.blk fDEV_BLK_STAT_BOOT_PHASE;
      decide (phase < 5 ∨ 2 ≤ activity s.blk)) : Bool) = true ∧
    (let s : State := st ((put fDEV_BLK_STAT_BOOT_PHASE 5 (put fPW_FD_LEVEL 3 charged)));
      let readings : List Nat := [];
      decide (fdLevel s.blk = 3) && decide (fdCalled (setFd (fun x => { x with regCause := false }) s.blk) < 2) &&
      (let b := fdChange 1 9 (setFd (fun x => { x with fd3Latch := false, fd1Hold := true }) (regulationBack (setFd (fun x => { x with regCause := false }) s.blk)));
      let phase := get s.blk fDEV_BLK_STAT_BOOT_PHASE;
      decide (phase = 5) && decide (activity s.blk < 2)) : Bool) = true ∧
    (let s : State := st ((setPwr (fun x => { x with pwrGood := false }) up));
      let readings : List Nat := [];
      decide (s.blk.pwr.pwrGood = false) && decide (s.blk.pwr.rail = .up) : Bool) = true := by
  decide +kernel

/-- Hypotheses of `FiredampRise`, clause by clause. -/
theorem witness_FiredampRise :
    (let b : Block := setFd (fun x => { x with regCause := true }) up;
      decide (fdLevel b < fdCalled b) && decide (fdCalled b ≤ 3) && decide (fdCalled b = 3) : Bool) = true := by
  decide +kernel

/-- Hypotheses of `ActivityStates`, clause by clause. -/
theorem witness_ActivityStates :
    (let s : State := st ((put fPW_LATTOL_TOL_US 400 up));
      let st : Fin 4 := 2;
      ready s.blk && deviceIdle s.blk && decide (activity s.blk < st.val) && decide (st.val ≤ allowedState s.blk) && pwrRuns s.blk && decide (s.blk.act.exiting = false) &&
      decide (fdLevel s.blk = 0) : Bool) = true ∧
    (let s : State := st ((put fPW_ASTATE_STATE 3 up));
      let st : Fin 4 := 0;
      ready s.blk && decide (1 ≤ activity s.blk) && decide (get s.blk fPW_COOL_STRAP ≠ 3) && pwrRuns s.blk &&
      (let w : Wake := .record;
      decide (w = .record → activity s.blk = 3) && decide (w = .message → activity s.blk ≠ 3)) : Bool) = true ∧
    (let s : State := st ({ up with act := ⟨true, 0, []⟩ });
      let st : Fin 4 := 0;
      s.blk.act.exiting && decide (s.blk.act.held = []) : Bool) = true := by
  decide +kernel

/-- Hypotheses of `Parking`, clause by clause. -/
theorem witness_Parking :
    (let s : State := st (up);
      let c : Fin 32 := 0;
      let port : Port := .ch0;
      let v : W32 := 0x100;
      pwrRuns s.blk && (runningClusters s.blk).contains c.val && decide (dom s.blk c = 2) && decide (clusterNamed s.blk c = false) &&
      clusterSafe s.blk c && decide (bit v 8 ≠ isSet s.blk (fCL_BLK_CTL_PARK c)) && decide (txnState s.blk (0x10 + c.val) = 0) && decide (port = .ch0 ∨ port = .ch1 ∨ port = .txn) && (usableClusters s.blk).contains c.val : Bool) = true ∧
    (let s : State := st (unparks);
      let c : Fin 32 := 0;
      let port : Port := .ch0;
      let v : W32 := 0;
      pwrRuns s.blk && isSet s.blk (fCL_BLK_STAT_GOV_PARKED c) && decide (fdLevel s.blk < 3) && decide (dom s.blk c ≠ 3) && (readyHeads s.blk ++ s.blk.cmds.filter (fun m => m.stage == .held)).any (fun m => (clMask m.desc).testBit c) && decide (s.blk.act.held = []) : Bool) = true := by
  decide +kernel

/-- Hypotheses of `RegisterWrites`, clause by clause. -/
theorem witness_RegisterWrites :
    (let s : State := st (up);
      let port : Port := .i3c;
      let off : Nat := rPW_LIMIT;
      let size : Nat := 4;
      let v : W32 := 700;
      let k : PageKind := .pw;
      let n : Nat := 0;
      decide (pageOf (off / 4096) = some (k, n)) && portLive port s.blk &&
      (let p := off / 4096;
      let b := granted port p s.blk;
      actsNow s.blk port off v) : Bool) = true ∧
    (let s : State := st (up);
      let port : Port := .ch0;
      let off : Nat := rPW_LIMIT;
      let size : Nat := 4;
      let v : W32 := 700;
      let k : PageKind := .pw;
      let n : Nat := 0;
      decide (pageOf (off / 4096) = some (k, n)) && portLive port s.blk &&
      (let p := off / 4096;
      let b := granted port p s.blk;
      let c := 2;
      decide (off % 4 = 0) && decide (judgeWrite b port p k n (off % 4096) v = .discarded c)) : Bool) = true ∧
    (let s : State := st (up);
      let port : Port := .i3c;
      let off : Nat := 0x2000;
      let size : Nat := 4;
      let v : W32 := 700;
      let k : PageKind := .pw;
      let n : Nat := 0;
      decide (pageOf (off / 4096) = some (k, n)) && portLive port s.blk &&
      (let p := off / 4096;
      let b := granted port p s.blk;
      decide (off % 4 = 0) && decide (judgeWrite b port p k n (off % 4096) v = .ignored)) : Bool) = true ∧
    (let s : State := st (up);
      let port : Port := .ch0;
      let off : Nat := rOP_STALL_LIMIT 0;
      let size : Nat := 4;
      let v : W32 := 7;
      let k : PageKind := .op;
      let n : Nat := 0;
      decide (pageOf (off / 4096) = some (k, n)) && portLive port s.blk &&
      (let p := off / 4096;
      let b := granted port p s.blk;
      decide (off % 4 = 0) && decide (judgeWrite b port p k n (off % 4096) v = .single) &&
      (let c := if off % 4096 = 0x008 then put (fBLK_CTL_RING (pageBase p)) (field v 3 0) b else b;
      safePoint c p)) : Bool) = true ∧
    (let s : State := st ((runsOn 0 up));
      let port : Port := .ch0;
      let off : Nat := rOP_STALL_LIMIT 0;
      let size : Nat := 4;
      let v : W32 := 7;
      let k : PageKind := .op;
      let n : Nat := 0;
      decide (pageOf (off / 4096) = some (k, n)) && portLive port s.blk &&
      (let p := off / 4096;
      let b := granted port p s.blk;
      decide (off % 4 = 0) && decide (judgeWrite b port p k n (off % 4096) v = .single) &&
      (let c := if off % 4096 = 0x008 then put (fBLK_CTL_RING (pageBase p)) (field v 3 0) b else b;
      decide (safePoint c p = false))) : Bool) = true ∧
    (let s : State := st ((openTxn 0x90 []));
      let port : Port := .ch0;
      let off : Nat := rOP_STALL_LIMIT 0;
      let size : Nat := 4;
      let v : W32 := 7;
      let k : PageKind := .op;
      let n : Nat := 0;
      decide (pageOf (off / 4096) = some (k, n)) && portLive port s.blk &&
      (let p := off / 4096;
      let b := granted port p s.blk;
      decide (off % 4 = 0) && decide (judgeWrite b port p k n (off % 4096) v = .stages) &&
      (let kept := (mapGet [] b.txn.staged p).filter (fun e => e.1 != off);
      decide (kept.length < 64))) : Bool) = true ∧
    (let s : State := st ((openTxn 0x90 ((List.range 64).map (fun i => (4 * i, 0#32)))));
      let port : Port := .ch0;
      let off : Nat := rOP_STALL_LIMIT 0;
      let size : Nat := 4;
      let v : W32 := 7;
      let k : PageKind := .op;
      let n : Nat := 0;
      decide (pageOf (off / 4096) = some (k, n)) && portLive port s.blk &&
      (let p := off / 4096;
      let b := granted port p s.blk;
      decide (off % 4 = 0) && decide (judgeWrite b port p k n (off % 4096) v = .stages) &&
      (let kept := (mapGet [] b.txn.staged p).filter (fun e => e.1 != off);
      decide (kept.length = 64))) : Bool) = true ∧
    (let s : State := st ((inState 2));
      let port : Port := .ch0;
      let off : Nat := rOP_STALL_LIMIT 0;
      let size : Nat := 4;
      let v : W32 := 7;
      let k : PageKind := .op;
      let n : Nat := 0;
      decide (pageOf (off / 4096) = some (k, n)) && portLive port s.blk &&
      (let p := off / 4096;
      let b := granted port p s.blk;
      decide (off % 4 = 0) && decide (judgeWrite b port p k n (off % 4096) v = .holds)) : Bool) = true ∧
    (let s : State := st (up);
      let port : Port := .ch0;
      let off : Nat := 0x2045;
      let size : Nat := 4;
      let v : W32 := 7;
      let k : PageKind := .pw;
      let n : Nat := 0;
      decide (pageOf (off / 4096) = some (k, n)) && portLive port s.blk &&
      (let p := off / 4096;
      let b := granted port p s.blk;
      decide (size ≠ 4 ∨ off % 4 ≠ 0) &&
      (let c := 0;
      decide (c < 16) &&
      (let d := discard p (off % 4096) c b;
      let x := 0;
      decide (x ≠ rBLK_STAT (pageBase p)) && decide (x ≠ rBLK_EVT_RAW (pageBase p))))) : Bool) = true ∧
    (let s : State := st (up);
      let port : Port := .ch0;
      let off : Nat := 0xFFF000;
      let size : Nat := 4;
      let v : W32 := 0;
      decide (pageOf (off / 4096) = none) && portLive port s.blk : Bool) = true ∧
    (let s : State := st ((put (fTXN_STAT_STATE (pageBase (rSQ_CTL 0 / 4096))) 2 up));
      let port : Port := .ch0;
      let off : Nat := rSQ_CTL 0;
      let size : Nat := 4;
      let v : W32 := 0;
      let k : PageKind := .queue;
      let n : Nat := 0;
      decide (pageOf (off / 4096) = some (k, n)) && portLive port s.blk &&
      (let p := off / 4096;
      let b := granted port p s.blk;
      decide (off % 4 = 0) &&
      (match judgeWrite b port p k n (off % 4096) v with
      | .partly c => true
      | _ => false)) : Bool) = true ∧
    (let s : State := st (up);
      let port : Port := .ch0;
      let off : Nat := 0x90020;
      let size : Nat := 4;
      let v : W32 := 0x100001;
      let k : PageKind := .op;
      let n : Nat := 0;
      decide (pageOf (off / 4096) = some (k, n)) && portLive port s.blk &&
      (let p := off / 4096;
      let b := granted port p s.blk;
      decide (off % 4 = 0) && decide (judgeWrite b port p k n (off % 4096) v = .control) &&
      (let c := rollbackMeets off p v b;
      match (if off = rTX_CTL then txControl port v c else pageControl port p v c) with
      | .ok d => true
      | _ => false)) : Bool) = true ∧
    (let s : State := st (up);
      let port : Port := .ch0;
      let off : Nat := 0x90020;
      let size : Nat := 4;
      let v : W32 := 0x100003;
      let k : PageKind := .op;
      let n : Nat := 0;
      decide (pageOf (off / 4096) = some (k, n)) && portLive port s.blk &&
      (let p := off / 4096;
      let b := granted port p s.blk;
      decide (off % 4 = 0) && decide (judgeWrite b port p k n (off % 4096) v = .control) &&
      (let c := rollbackMeets off p v b;
      match (if off = rTX_CTL then txControl port v c else pageControl port p v c) with
      | .error e => true
      | _ => false)) : Bool) = true ∧
    (let s : State := st (Block.reset);
      let port : Port := .i3c;
      let off : Nat := rPW_LIMIT;
      let size : Nat := 4;
      let v : W32 := 700;
      decide (portLive port s.blk = false) : Bool) = true := by
  decide +kernel

/-- Hypotheses of `WriteCauses`, clause by clause. -/
theorem witness_WriteCauses :
    (let b : Block := up;
      let port : Port := .ch0;
      let p : Nat := 2;
      let k : PageKind := .pw;
      let n : Nat := 0;
      let o : Nat := 0x44;
      let i : RegInfo := info (.pw) (0x44);
      let v : W32 := 700;
      decide (regInfo k o = some i) && decide (i.rw ≠ 0) &&
      (let judged := judgeWrite b port p k n o v;
      decide (authority b port k o ≠ .rw)) : Bool) = true ∧
    (let b : Block := put (fDom 0) 0 up;
      let port : Port := .ch0;
      let p : Nat := 0x90;
      let k : PageKind := .op;
      let n : Nat := 0;
      let o : Nat := 0x74;
      let i : RegInfo := info (.op) (0x74);
      let v : W32 := 7;
      decide (regInfo k o = some i) && decide (i.rw ≠ 0) &&
      (let judged := judgeWrite b port p k n o v;
      decide (authority b port k o = .rw) && decide (0x040 ≤ o) && decide (¬ (k = .ad ∧ o = 0x040)) && decide (domOn b (pageDomain k n) = false) && decide (domainHeld b (pageDomain k n) = false)) : Bool) = true ∧
    (let b : Block := up;
      let port : Port := .i3c;
      let p : Nat := 2;
      let k : PageKind := .pw;
      let n : Nat := 0;
      let o : Nat := 0x44;
      let i : RegInfo := info (.pw) (0x44);
      let v : W32 := 599;
      decide (regInfo k o = some i) && decide (i.rw ≠ 0) &&
      (let judged := judgeWrite b port p k n o v;
      decide (authority b port k o = .rw) && domOn b (pageDomain k n) && reservedWrite b k n o v) : Bool) = true ∧
    (let b : Block := openTxn 0x90 [];
      let port : Port := .ch0;
      let p : Nat := 0x90;
      let k : PageKind := .op;
      let n : Nat := 0;
      let o : Nat := 0x74;
      let i : RegInfo := info (.op) (0x74);
      let v : W32 := 7;
      decide (regInfo k o = some i) && decide (i.rw ≠ 0) &&
      (let judged := judgeWrite b port p k n o v;
      decide (authority b port k o = .rw) && domOn b (pageDomain k n) && decide (reservedWrite b k n o v = false) && decide (o ≠ 0x020) && decide (¬ (k = .tx ∧ o = 0x040)) && decide (actsAtOnce k o i = false) && decide (txnState b p = 1) && decide (get b (fTXN_STAT_OWNER (pageBase p)) = portOwner port) && stateOk b k n o v) : Bool) = true ∧
    (let b : Block := put (fTXN_STAT_OWNER (pageBase 0x90)) 1 (openTxn 0x90 []);
      let port : Port := .ch0;
      let p : Nat := 0x90;
      let k : PageKind := .op;
      let n : Nat := 0;
      let o : Nat := 0x74;
      let i : RegInfo := info (.op) (0x74);
      let v : W32 := 7;
      decide (regInfo k o = some i) && decide (i.rw ≠ 0) &&
      (let judged := judgeWrite b port p k n o v;
      decide (authority b port k o = .rw) && domOn b (pageDomain k n) && decide (reservedWrite b k n o v = false) && decide (o ≠ 0x020) && decide (¬ (k = .tx ∧ o = 0x040)) && decide (actsAtOnce k o i = false) && decide (txnState b p = 1) && decide (get b (fTXN_STAT_OWNER (pageBase p)) ≠ portOwner port)) : Bool) = true ∧
    (let b : Block := put (fTXN_STAT_STATE (pageBase 0x90)) 2 up;
      let port : Port := .ch0;
      let p : Nat := 0x90;
      let k : PageKind := .op;
      let n : Nat := 0;
      let o : Nat := 0x74;
      let i : RegInfo := info (.op) (0x74);
      let v : W32 := 7;
      decide (regInfo k o = some i) && decide (i.rw ≠ 0) &&
      (let judged := judgeWrite b port p k n o v;
      decide (authority b port k o = .rw) && domOn b (pageDomain k n) && decide (reservedWrite b k n o v = false) && decide (o ≠ 0x020) && decide (¬ (k = .tx ∧ o = 0x040)) && decide (actsAtOnce k o i = false) && decide (txnState b p = 2)) : Bool) = true ∧
    (let b : Block := up;
      let port : Port := .ch0;
      let p : Nat := 6;
      let k : PageKind := .tm;
      let n : Nat := 0;
      let o : Nat := 0x14;
      let i : RegInfo := info (.tm) (0x14);
      let v : W32 := 7;
      decide (regInfo k o = some i) && decide (i.rw ≠ 0) &&
      (let judged := judgeWrite b port p k n o v;
      decide (authority b port k o = .rw) && domOn b (pageDomain k n) && decide (reservedWrite b k n o v = false) && decide (o ≠ 0x020) && decide (¬ (k = .tx ∧ o = 0x040)) && decide (actsAtOnce k o i = false) && decide (txnState b p = 0) && stateOk b k n o v && decide (waitsForSafePoint b port k n o i v = false)) : Bool) = true := by
  decide +kernel

/-- Hypotheses of `WriteAuthority`, clause by clause. -/
theorem witness_WriteAuthority :
    (let b : Block := up;
      let port : Port := .ch0;
      let k : PageKind := .pw;
      let o : Nat := 0x44;
      decide (port = .ch0 ∨ port = .ch1 ∨ port = .txn) : Bool) = true ∧
    (let b : Block := up;
      let port : Port := .i3c;
      let k : PageKind := .sec;
      let o : Nat := 0x110;
      decide (port = .i3c) : Bool) = true ∧
    (let b : Block := up;
      let port : Port := .test;
      let k : PageKind := .dev;
      let o : Nat := 0x14;
      decide (port = .test) && decide (isSet b fSEC_DBG_UNLOCKED = false) : Bool) = true := by
  decide +kernel

/-- Hypotheses of `RegisterReads`, clause by clause. -/
theorem witness_RegisterReads :
    ((let s : State := st (up);
      portLive .i3c s.blk) &&
      (let s : State := st (up);
      let port : Port := .ch0;
      let off : Nat := rTM_TS_LO;
      let k : PageKind := .tm;
      let n : Nat := 0;
      let i : RegInfo := info (.tm) (rTM_TS_LO % 4096);
      decide (pageOf (off / 4096) = some (k, n)) && decide (regInfo k (off % 4096) = some i) && decide (off % 4 = 0) && decide (authority s.blk port k (off % 4096) ≠ .none) && portLive port s.blk &&
      (let b := granted port (off / 4096) s.blk;
      counterLo k (off % 4096))) : Bool) = true ∧
    (let s : State := st ({ up with latches := [(rTM_TS_LO + 4, 8)] });
      let port : Port := .ch0;
      let off : Nat := rTM_TS_LO + 4;
      let k : PageKind := .tm;
      let n : Nat := 0;
      let i : RegInfo := info (.tm) (rTM_TS_LO + 4 % 4096);
      decide (pageOf (off / 4096) = some (k, n)) && decide (regInfo k (off % 4096) = some i) && decide (off % 4 = 0) && decide (authority s.blk port k (off % 4096) ≠ .none) && portLive port s.blk &&
      (let b := granted port (off / 4096) s.blk;
      decide (counterLo k (off % 4096) = false) && decide (mapGet 0 s.blk.latches off ≠ 0)) : Bool) = true ∧
    (let s : State := st (up);
      let port : Port := .i3c;
      let off : Nat := rPW_LIMIT;
      let k : PageKind := .pw;
      let n : Nat := 0;
      let i : RegInfo := info (.pw) (rPW_LIMIT % 4096);
      decide (pageOf (off / 4096) = some (k, n)) && decide (regInfo k (off % 4096) = some i) && decide (off % 4 = 0) && decide (authority s.blk port k (off % 4096) ≠ .none) && portLive port s.blk &&
      (let b := granted port (off / 4096) s.blk;
      decide (counterLo k (off % 4096) = false) && decide (mapGet 0 s.blk.latches off = 0) && decide (off ≠ rPW_POWER)) : Bool) = true := by
  decide +kernel

/-- Hypotheses of `I3cTransfers`, clause by clause. -/
theorem witness_I3cTransfers :
    (let s : State := st (up);
      let off : Nat := rPW_LIMIT;
      let addr : Nat := 5;
      let static : Nat := 0;
      i3cUp s.blk && decide (static ≠ 0x40 + s.blk.pwr.modAddr) : Bool) = true ∧
    (let s : State := st (up);
      let off : Nat := rPW_LIMIT;
      let addr : Nat := 5;
      let static : Nat := 0x4F;
      i3cUp s.blk &&
      (let ws : List W32 := [700#32];
      let rest : List Byte := [1#8, 2, 3];
      decide (rest.length < 4)) &&
      decide (static = 0x40 + s.blk.pwr.modAddr) &&
      decide (s.blk.pwr.dynAddr = none) : Bool) = true ∧
    (let s : State := st ((setPwr (fun x => { x with dynAddr := some 9 }) up));
      let off : Nat := rPW_LIMIT;
      let addr : Nat := 5;
      let static : Nat := 0x4F;
      i3cUp s.blk && decide (s.blk.pwr.dynAddr ≠ none) : Bool) = true ∧
    (let s : State := st (Block.reset);
      let off : Nat := rPW_LIMIT;
      let addr : Nat := 5;
      let static : Nat := 0x4F;
      decide (i3cUp s.blk = false) : Bool) = true := by
  decide +kernel

/-- Hypotheses of `PageEvents`, clause by clause. -/
theorem witness_PageEvents :
    (let s : State := st ((wr up (rBLK_EVT_RAW (pageBase 7)) 5#32));
      let port : Port := .ch0;
      let p : Nat := 7;
      let v : W32 := 5;
      let b := granted port p s.blk;
      let base := pageBase p;
      actsNow s.blk port (rBLK_EVT_CLR base) v &&
      actsNow s.blk port (rBLK_EVT_EN base) v : Bool) = true := by
  decide +kernel

/-- Hypotheses of `PageTransactionControl`, clause by clause. -/
theorem witness_PageTransactionControl :
    (let s : State := st (up);
      let port : Port := .ch0;
      let p : Nat := 0x90;
      let t : Nat := 65535;
      let k : PageKind := .op;
      let n : Nat := 0;
      decide (pageOf p = some (k, n)) && decide (p ≠ 1) && decide (t < 65536) && decide (txnGroup s.blk p = false) && decide (authority s.blk port k 0x020 = .rw) && portLive port s.blk &&
      (let b := put (fTXN_CTL_TIMEOUT (pageBase p)) t (granted port p s.blk);
      decide (txnState s.blk p = 0) && decide (t ≠ 0)) : Bool) = true ∧
    (let s : State := st ((openTxn 0x90 []));
      let port : Port := .ch0;
      let p : Nat := 0x90;
      let t : Nat := 65535;
      let k : PageKind := .op;
      let n : Nat := 0;
      decide (pageOf p = some (k, n)) && decide (p ≠ 1) && decide (t < 65536) && decide (txnGroup s.blk p = false) && decide (authority s.blk port k 0x020 = .rw) && portLive port s.blk &&
      (let b := put (fTXN_CTL_TIMEOUT (pageBase p)) t (granted port p s.blk);
      decide (txnState s.blk p = 1) && decide (get s.blk (fTXN_STAT_OWNER (pageBase p)) = portOwner port) && decide (t ≠ 0)) : Bool) = true ∧
    (let s : State := st ((put (fTXN_STAT_STATE (pageBase 0x90)) 2 (runsOn 0 (linked up))));
      let port : Port := .ch0;
      let p : Nat := 0x90;
      let t : Nat := 65535;
      let k : PageKind := .op;
      let n : Nat := 0;
      decide (pageOf p = some (k, n)) && decide (p ≠ 1) && decide (t < 65536) && decide (txnGroup s.blk p = false) && decide (authority s.blk port k 0x020 = .rw) && portLive port s.blk &&
      (let b := put (fTXN_CTL_TIMEOUT (pageBase p)) t (granted port p s.blk);
      decide (txnState s.blk p = 2) && decide (get s.blk (fTXN_STAT_OWNER (pageBase p)) = portOwner port) && decide (t ≠ 0) && decide (safePoint s.blk p = false)) : Bool) = true := by
  decide +kernel

/-- Hypotheses of `TransactionEnds`, clause by clause. -/
theorem witness_TransactionEnds :
    (let s : State := st ((put (fTXN_STAT_STATE (pageBase 0x90)) 2 (linked up)));
      let p : Nat := 0x90;
      decide (txnGroup s.blk p = false) &&
      hostClear s.blk && decide (txnState s.blk p ≠ 0) && decide (txnState s.blk p = 2) && safePoint s.blk p &&
      decide (txnState s.blk p = 2) && safePoint s.blk p : Bool) = true ∧
    (let s : State := st ((linked (openTxn 0x90 [(rOP_STALL_LIMIT 0, 7#32)])));
      let p : Nat := 0x90;
      decide (txnGroup s.blk p = false) && decide (txnState s.blk p = 1 ∨ (txnState s.blk p = 2 ∧ safePoint s.blk p = false)) : Bool) = true := by
  decide +kernel

/-- Hypotheses of `GroupTransaction`, clause by clause. -/
theorem witness_GroupTransaction :
    (let s : State := st (grouped);
      let port : Port := .ch0;
      let t : Nat := 5;
      decide (t < 65536) && decide (t ≠ 0) && decide (authority s.blk port .tx 0x040 = .rw) && domOn s.blk domPwr && portLive port s.blk &&
      (let b := put fTX_CTL_TIMEOUT t (granted port 1 s.blk);
      decide (get s.blk fTX_STAT_STATE = 0) && (memberPages s.blk).all (fun p => !memberBad s.blk port p)) : Bool) = true ∧
    (let s : State := st ((openGroup 1 grouped));
      let port : Port := .ch0;
      let t : Nat := 5;
      decide (t < 65536) && decide (t ≠ 0) && decide (authority s.blk port .tx 0x040 = .rw) && domOn s.blk domPwr && portLive port s.blk &&
      (let b := put fTX_CTL_TIMEOUT t (granted port 1 s.blk);
      decide (get s.blk fTX_STAT_STATE = 1) && decide (get s.blk fTX_STAT_OWNER = portOwner port)) : Bool) = true ∧
    (let s : State := st ((openGroup 2 grouped));
      let port : Port := .ch0;
      let t : Nat := 5;
      decide (t < 65536) && decide (t ≠ 0) && decide (authority s.blk port .tx 0x040 = .rw) && domOn s.blk domPwr && portLive port s.blk &&
      (let b := put fTX_CTL_TIMEOUT t (granted port 1 s.blk);
      hostClear s.blk && decide (get s.blk fTX_STAT_STATE = 2) && s.blk.txn.members.all (safePoint s.blk) &&
      decide (get s.blk fTX_STAT_STATE = 2) && s.blk.txn.members.all (safePoint s.blk)) : Bool) = true ∧
    (let s : State := st ((openGroup 2 (runsOn 0 grouped)));
      let port : Port := .ch0;
      let t : Nat := 5;
      decide (t < 65536) && decide (t ≠ 0) && decide (authority s.blk port .tx 0x040 = .rw) && domOn s.blk domPwr && portLive port s.blk &&
      (let b := put fTX_CTL_TIMEOUT t (granted port 1 s.blk);
      let p := 0x90;
      decide (get s.blk fTX_STAT_STATE ≠ 0) && decide (s.blk.txn.members.find? (fun p => !safePoint s.blk p) = some p)) : Bool) = true := by
  decide +kernel

/-- Hypotheses of `RollbackOfAPage`, clause by clause. -/
theorem witness_RollbackOfAPage :
    (let b : Block := openTxn 0x90 [(rOP_STALL_LIMIT 0, 7#32)];
      let p : Nat := 0x90;
      let r : Nat := 15;
      decide (r < 16) &&
      (let t := rollbackOne r b p;
      let base := pageBase p;
      let off := 0;
      decide (off ≠ rTXN_STAT base) && decide (off ≠ rBLK_EVT_RAW base)) : Bool) = true := by
  decide +kernel

/-- Hypotheses of `WaitingWrites`, clause by clause. -/
theorem witness_WaitingWrites :
    (let s : State := st ((waitsWrite up));
      let p : Nat := 0x90;
      let e : Nat × W32 × Port := (rOP_STALL_LIMIT 0, 7#32, Port.ch0);
      decide (s.blk.txn.singles.find? (fun x => x.1 / 4096 == p) = some e) &&
      (let rest : Block := { s.blk with txn := { s.blk.txn with singles := s.blk.txn.singles.erase e } };
      safePoint s.blk p &&
      decide (e.1 % 4096 ≠ 0x0F0) && safePoint s.blk p) : Bool) = true ∧
    (let s : State := st ((waitsWrite (runsOn 0 up)));
      let p : Nat := 0x90;
      let e : Nat × W32 × Port := (rOP_STALL_LIMIT 0, 7#32, Port.ch0);
      decide (s.blk.txn.singles.find? (fun x => x.1 / 4096 == p) = some e) &&
      (let rest : Block := { s.blk with txn := { s.blk.txn with singles := s.blk.txn.singles.erase e } };
      decide (safePoint s.blk p = false) &&
      decide (e.1 % 4096 ≠ 0x0F0) && decide (safePoint s.blk p = false)) : Bool) = true := by
  decide +kernel

/-- Hypotheses of `CountersClear`, clause by clause. -/
theorem witness_CountersClear :
    (let s : State := st (up);
      let port : Port := .ch0;
      let o : Fin 128 := 0;
      let v : Fin 64 := 0;
      let c : Fin 32 := 0;
      let l : Fin 12 := 0;
      let h : Fin 2 := 0;
      actsNowNat s.blk port (rOP_CNT_CTL o) 1 &&
      actsNowNat s.blk port (rOP_CNT_CTL o) 2 &&
      actsNowNat s.blk port (rVE_CNT_CTL v) 1 &&
      actsNowNat s.blk port (rVE_CNT_CTL v) 2 &&
      actsNowNat s.blk port (rVE_SFU v) 0x80000000 &&
      actsNowNat s.blk port (rSE_CNT_CTL c) 1 &&
      actsNowNat s.blk port (rSE_CNT_CTL c) 2 &&
      actsNowNat s.blk port (rSE_CNT_CTL c) 4 &&
      actsNowNat s.blk port (rLD_CTL2 l) 1 &&
      actsNowNat s.blk port (rRED_CTL h) 1 &&
      actsNowNat s.blk port (rRED_CTL h) 2 : Bool) = true := by
  decide +kernel

/-- Hypotheses of `OpuRuns`, clause by clause. -/
theorem witness_OpuRuns :
    (let s : State := st ((put fPW_PACE_LEVEL 1 (opuRuns 0 Opu.fresh)));
      let o : Fin 128 := 0;
      let aclk : Nat := 0;
      let ups : List Upset := [];
      let c : Cmd := opuCmd 0;
      let j : Job := job0;
      decide (jobCmd s.blk (opu s.blk o).job = some (c, j)) &&
      (let x := opu s.blk o;
      let moved := fun (q : Option Grp × Block) => put (fOP_STATE_FROZEN o) 0 (setOpu o { opu q.2 o with b2 := q.1, mul := x.b2, add := x.mul, frozen := 0, stalled := false } q.2);
      decide (issues s.blk aclk = false)) : Bool) = true ∧
    (let s : State := st ((opuRuns 0 { Opu.fresh with add := some (grp true), fill := 1 }));
      let o : Fin 128 := 0;
      let aclk : Nat := 0;
      let ups : List Upset := [];
      let c : Cmd := opuCmd 0;
      let j : Job := job0;
      decide (jobCmd s.blk (opu s.blk o).job = some (c, j)) &&
      (let x := opu s.blk o;
      let moved := fun (q : Option Grp × Block) => put (fOP_STATE_FROZEN o) 0 (setOpu o { opu q.2 o with b2 := q.1, mul := x.b2, add := x.mul, frozen := 0, stalled := false } q.2);
      issues s.blk aclk &&
      (match x.add with
      | some g => g.first && decide (tileFree x c g.tile = false)
      | _ => false)) : Bool) = true ∧
    (let s : State := st ((opuRuns 0 { Opu.fresh with add := some (grp true) }));
      let o : Fin 128 := 0;
      let aclk : Nat := 0;
      let ups : List Upset := [];
      let c : Cmd := opuCmd 0;
      let j : Job := job0;
      decide (jobCmd s.blk (opu s.blk o).job = some (c, j)) &&
      (let x := opu s.blk o;
      let moved := fun (q : Option Grp × Block) => put (fOP_STATE_FROZEN o) 0 (setOpu o { opu q.2 o with b2 := q.1, mul := x.b2, add := x.mul, frozen := 0, stalled := false } q.2);
      issues s.blk aclk &&
      (match x.add with
      | some g => decide (g.first = false ∨ tileFree x c g.tile = true) &&
        (let fresh := g.first && c.accInit == 0;
        let b := if fresh then countCycle o c s.blk else opuUpsets o (g.tile % 2) ups (countCycle o c s.blk);
        let bad := !fresh && (opu b o).cellPois.any (fun k => k / 32768 == g.tile % 2);
        decide (grpPoison x.mul = false) && decide (bad = false))
      | _ => false)) : Bool) = true ∧
    (let s : State := st ((opuRuns 0 { Opu.fresh with switch := true }));
      let o : Fin 128 := 0;
      let aclk : Nat := 0;
      let ups : List Upset := [];
      let c : Cmd := opuCmd 0;
      let j : Job := job0;
      decide (jobCmd s.blk (opu s.blk o).job = some (c, j)) &&
      (let x := opu s.blk o;
      let moved := fun (q : Option Grp × Block) => put (fOP_STATE_FROZEN o) 0 (setOpu o { opu q.2 o with b2 := q.1, mul := x.b2, add := x.mul, frozen := 0, stalled := false } q.2);
      issues s.blk aclk && decide (x.add = none) && decide (grpPoison x.mul = false) &&
      x.switch) : Bool) = true ∧
    (let s : State := st ((setSlot 0 7 1 (opuRuns 0 { Opu.fresh with slots := [(7, [List.replicate 256 padElem])], ords := [(7, 8)] })));
      let o : Fin 128 := 0;
      let aclk : Nat := 0;
      let ups : List Upset := [];
      let c : Cmd := opuCmd 0;
      let j : Job := job0;
      decide (jobCmd s.blk (opu s.blk o).job = some (c, j)) &&
      (let x := opu s.blk o;
      let moved := fun (q : Option Grp × Block) => put (fOP_STATE_FROZEN o) 0 (setOpu o { opu q.2 o with b2 := q.1, mul := x.b2, add := x.mul, frozen := 0, stalled := false } q.2);
      let k := 7;
      decide (slotState s.blk o k = 1) && decide ((mapGet [] x.slots k).length = min 128 (c.klen - (mapGet 0 x.ords k - 1) % max c.setSlots 1 * 128))) : Bool) = true ∧
    (let s : State := st ((put (fOP_STALL_LIMIT_LIMIT 0) 1 (opuRuns 0 { Opu.fresh with frozen := 2 })));
      let o : Fin 128 := 0;
      let aclk : Nat := 0;
      let ups : List Upset := [];
      let c : Cmd := opuCmd 0;
      let j : Job := job0;
      decide (jobCmd s.blk (opu s.blk o).job = some (c, j)) &&
      (let x := opu s.blk o;
      let moved := fun (q : Option Grp × Block) => put (fOP_STATE_FROZEN o) 0 (setOpu o { opu q.2 o with b2 := q.1, mul := x.b2, add := x.mul, frozen := 0, stalled := false } q.2);
      decide (x.stalled = false) && decide (get s.blk (fOP_STALL_LIMIT_LIMIT o) ≠ 0) && decide (get s.blk (fOP_STALL_LIMIT_LIMIT o) < x.frozen)) : Bool) = true ∧
    (let s : State := st ((opuRuns 0 { Opu.fresh with mul := some { grp true with rows := [List.replicate 256 { padElem with pois := true }] } }));
      let o : Fin 128 := 0;
      let aclk : Nat := 0;
      let ups : List Upset := [];
      let c : Cmd := opuCmd 0;
      let j : Job := job0;
      decide (jobCmd s.blk (opu s.blk o).job = some (c, j)) &&
      (let x := opu s.blk o;
      let moved := fun (q : Option Grp × Block) => put (fOP_STATE_FROZEN o) 0 (setOpu o { opu q.2 o with b2 := q.1, mul := x.b2, add := x.mul, frozen := 0, stalled := false } q.2);
      issues s.blk aclk && decide (x.add = none) && grpPoison x.mul) : Bool) = true ∧
    (let s : State := st ((opuRuns 0 { Opu.fresh with mul := some { grp true with rows := [List.replicate 256 { padElem with pois := true }] }, add := some (grp true) }));
      let o : Fin 128 := 0;
      let aclk : Nat := 0;
      let ups : List Upset := [];
      let c : Cmd := opuCmd 0;
      let j : Job := job0;
      decide (jobCmd s.blk (opu s.blk o).job = some (c, j)) &&
      (let x := opu s.blk o;
      let moved := fun (q : Option Grp × Block) => put (fOP_STATE_FROZEN o) 0 (setOpu o { opu q.2 o with b2 := q.1, mul := x.b2, add := x.mul, frozen := 0, stalled := false } q.2);
      issues s.blk aclk &&
      (match x.add with
      | some g => decide (g.first = false ∨ tileFree x c g.tile = true) &&
        (let fresh := g.first && c.accInit == 0;
        let b := if fresh then countCycle o c s.blk else opuUpsets o (g.tile % 2) ups (countCycle o c s.blk);
        let bad := !fresh && (opu b o).cellPois.any (fun k => k / 32768 == g.tile % 2);
        decide (grpPoison x.mul = true ∨ bad = true))
      | _ => false)) : Bool) = true := by
  decide +kernel

/-- Hypotheses of `OpuRows`, clause by clause. -/
theorem witness_OpuRows :
    (let s : State := st ((opuRuns 0 { Opu.fresh with drains := [(0, 127)] }));
      let o : Fin 128 := 0;
      let cl : Fin 32 := 0;
      let p : Fin 3 := 0;
      let aclk : Nat := 0;
      let ups : List Upset := ([] : List Upset);
      let c : Cmd := opuCmd 0;
      let j : Job := job0;
      hostClear s.blk &&
      (let i : Nat := 0;
      issues s.blk aclk && decide (rrPick (mapGet 0 s.blk.arb (arbDrain cl p)) 4 (drainAsks s.blk cl p) = some i) && decide (jobCmd s.blk (opu s.blk (4 * cl.val + i)).job = some (c, j)) &&
      (match offeredRow s.blk (4 * cl.val + i) with
      | some (t, r, row0) => match (let picked : Block := { s.blk with arb := mapSet 0 s.blk.arb (arbDrain cl p) ((i + 1) % 4) }; if p.val < 2 then some picked else portGrant cl 7 picked) with
        | some go => let read := ups.foldl (fun b u => cellUpset (4 * cl.val + i) (32768 * (t % 2) + 256 * r + u.word % 256) u.bits b) go;
          match offeredRow read (4 * cl.val + i) with
          | some (t, r, row) => let q := (c.opus.idxOf? i).getD 0;
            decide (row.any (fun d => d.consumed) = false)
          | _ => false
        | _ => false
      | _ => false)) : Bool) = true ∧
    (let s : State := st ((put fPW_PACE_LEVEL 1 (opuRuns 0 Opu.fresh)));
      let o : Fin 128 := 0;
      let cl : Fin 32 := 0;
      let p : Fin 3 := 0;
      let aclk : Nat := 0;
      let ups : List Upset := ([] : List Upset);
      let c : Cmd := opuCmd 0;
      let j : Job := job0;
      hostClear s.blk && decide (issues s.blk aclk = false) : Bool) = true ∧
    (let s : State := st ((serves (opuCmd 1) job0 { Se.fresh with entries := [(2, { Entry.fresh with buf := (List.range 256).map (fun i => (i, padElem)) })] } Opu.fresh Ve.fresh));
      let o : Fin 128 := 0;
      let cl : Fin 32 := 0;
      let p : Fin 3 := 0;
      let aclk : Nat := 0;
      let ups : List Upset := ([] : List Upset);
      let c : Cmd := opuCmd 1;
      let j : Job := job0;
      hostClear s.blk && decide (jobCmd s.blk (opu s.blk o).job = some (c, j)) && decide (c.accInit = 1) && issues s.blk aclk &&
      (let x := opu s.blk o;
      match loadNext x (totalSteps s.blk (o.val / 4) c / max c.klen 1) with
      | some (t, r) => let first := (t * max c.opus.length 1 + (c.opus.idxOf? (o.val % 4)).getD 0) * 32768 + 256 * r;
        match elemsAt (entryOf (se s.blk (o.val / 4)) 2) first 256 with
        | some vs => true
        | _ => false
      | _ => false) : Bool) = true ∧
    (let s : State := st ((serves (running 1 (0x1033 + 0x1000000 + 2048) 9 1 (opuCmd 0).sblk (opuCmd 0).image) job0 Se.fresh { Opu.fresh with drains := [(0, 0)], cellPois := [0] } Ve.fresh));
      let o : Fin 128 := 0;
      let cl : Fin 32 := 0;
      let p : Fin 3 := 0;
      let aclk : Nat := 0;
      let ups : List Upset := ([] : List Upset);
      let c : Cmd := (running 1 (0x1033 + 0x1000000 + 2048) 9 1 (opuCmd 0).sblk (opuCmd 0).image);
      let j : Job := job0;
      hostClear s.blk && issues s.blk aclk &&
      (match rrPick (mapGet 0 s.blk.arb (arbDrain cl p)) 4 (drainAsks s.blk cl p) with
      | some i => decide (jobCmd s.blk (opu s.blk (4 * cl.val + i)).job = some (c, j)) &&
        (match offeredRow s.blk (4 * cl.val + i) with
        | some (t, r, row0) => match (let picked : Block := { s.blk with arb := mapSet 0 s.blk.arb (arbDrain cl p) ((i + 1) % 4) }; if p.val < 2 then some picked else portGrant cl 7 picked) with
          | some go => let read := ups.foldl (fun b u => cellUpset (4 * cl.val + i) (32768 * (t % 2) + 256 * r + u.word % 256) u.bits b) go;
            match offeredRow read (4 * cl.val + i) with
            | some (t, r, row) => let q := (c.opus.idxOf? i).getD 0;
              row.any (fun d => d.consumed)
            | _ => false
          | _ => false
        | _ => false)
      | _ => false) : Bool) = true := by
  decide +kernel

/-- Hypotheses of `VeRuns`, clause by clause. -/
theorem witness_VeRuns :
    (let s : State := st ((put (fVE_WAIT_LIMIT_LIMIT 0) 1 (veRuns 1 (leBytes 2 0x100) ([]) (job0) { Ve.fresh with wait := 2 })));
      let v : Fin 64 := 0;
      let aclk : Nat := 0;
      let ups : List Upset := [];
      let c : Cmd := veCmd 1 (leBytes 2 0x100);
      let j : Job := job0;
      decide (jobCmd s.blk (ve s.blk v).job = some (c, j)) &&
      (let x := ve s.blk v;
      let waits := s.after (count64 (rVE_CNT_WAIT_LO v) 1 (setVe v { x with wait := x.wait + 1 } s.blk));
      decide (x.waited = false) && decide (get s.blk (fVE_WAIT_LIMIT_LIMIT v) ≠ 0) && decide (get s.blk (fVE_WAIT_LIMIT_LIMIT v) < x.wait) &&
      (hostClear s.blk && issues s.blk aclk && decide (outBlocked c x = false) &&
      (match workNow s.blk v c with
      | some (w, rank) => decide (groupReady s.blk v c w = false)
      | _ => false))) : Bool) = true ∧
    (let s : State := st ((put fPW_PACE_LEVEL 1 (veRuns 1 (leBytes 2 0x100) ([]) (job0) { Ve.fresh with wait := 2 })));
      let v : Fin 64 := 0;
      let aclk : Nat := 0;
      let ups : List Upset := [];
      let c : Cmd := veCmd 1 (leBytes 2 0x100);
      let j : Job := job0;
      decide (jobCmd s.blk (ve s.blk v).job = some (c, j)) &&
      (let x := ve s.blk v;
      let waits := s.after (count64 (rVE_CNT_WAIT_LO v) 1 (setVe v { x with wait := x.wait + 1 } s.blk));
      hostClear s.blk && decide (issues s.blk aclk = false)) : Bool) = true ∧
    (let s : State := st ((veRuns 1 (leBytes 2 0x100) ([]) (job0) { Ve.fresh with out := [resultRow] }));
      let v : Fin 64 := 0;
      let aclk : Nat := 0;
      let ups : List Upset := [];
      let c : Cmd := veCmd 1 (leBytes 2 0x100);
      let j : Job := job0;
      decide (jobCmd s.blk (ve s.blk v).job = some (c, j)) &&
      (let x := ve s.blk v;
      let waits := s.after (count64 (rVE_CNT_WAIT_LO v) 1 (setVe v { x with wait := x.wait + 1 } s.blk));
      hostClear s.blk && issues s.blk aclk && outBlocked c x) : Bool) = true ∧
    (let s : State := st ((veRuns 1 (leBytes 2 0x100) ([]) (job0) { Ve.fresh with land0 := [(0, 4)] }));
      let v : Fin 64 := 0;
      let aclk : Nat := 0;
      let ups : List Upset := [];
      let c : Cmd := veCmd 1 (leBytes 2 0x100);
      let j : Job := job0;
      decide (jobCmd s.blk (ve s.blk v).job = some (c, j)) &&
      (let x := ve s.blk v;
      let waits := s.after (count64 (rVE_CNT_WAIT_LO v) 1 (setVe v { x with wait := x.wait + 1 } s.blk));
      hostClear s.blk && issues s.blk aclk && decide (outBlocked c x = false) &&
      (match workNow s.blk v c with
      | some (w, rank) => groupReady s.blk v c w &&
        (let taken := takeVectors v c (c.rowv && readsVec c w) (c.colv && readsVec c w) w.read s.blk;
        let vec := laneEnv taken v c j w;
        let u := veUpsets v ups taken;
        let g := groupOut u.blk v c { laneEnv u.blk v c j w with tbl := u.tbl } w rank;
        let bad := u.stop || g.used || (!x.vecIn && (vectorBad c 4 vec.rowv || vectorBad c 5 vec.colv));
        let cy := groupCycles c j.psidy w;
        let rows := if c.mode == 3 && c.outTb then g.rows.map (fun r => if rowInside u.blk v c w r.row then r else { r with live := 0 }) else g.rows;
        let ran := count64 (rVE_CNT_ISSUE_LO v) cy.1 (count64 (rVE_CNT_SFU_LO v) cy.2 (veFlags v g.fl (addCounts c.queue c.count g.nans g.ovfs (setVe v { g.ve with out := g.ve.out ++ rows, grp := x.grp + 1, wait := 0, waited := false } u.blk))));
        decide (bad = false) && decide (x.grp + 1 ≠ groupsPerTile c))
      | _ => false)) : Bool) = true ∧
    (let s : State := st ((veRuns 1 (leBytes 2 0x100) ([]) (job0) { Ve.fresh with tile := 1 }));
      let v : Fin 64 := 0;
      let aclk : Nat := 0;
      let ups : List Upset := [];
      let c : Cmd := veCmd 1 (leBytes 2 0x100);
      let j : Job := job0;
      decide (jobCmd s.blk (ve s.blk v).job = some (c, j)) &&
      (let x := ve s.blk v;
      let waits := s.after (count64 (rVE_CNT_WAIT_LO v) 1 (setVe v { x with wait := x.wait + 1 } s.blk));
      hostClear s.blk && issues s.blk aclk && decide (outBlocked c x = false) && decide (workNow s.blk v c = none)) : Bool) = true ∧
    (let s : State := st ((veRuns 1 (leBytes 2 0x100) ([]) (job0) { Ve.fresh with land0 := [(0, 128)], grp := 31 }));
      let v : Fin 64 := 0;
      let aclk : Nat := 0;
      let ups : List Upset := [];
      let c : Cmd := veCmd 1 (leBytes 2 0x100);
      let j : Job := job0;
      decide (jobCmd s.blk (ve s.blk v).job = some (c, j)) &&
      (let x := ve s.blk v;
      let waits := s.after (count64 (rVE_CNT_WAIT_LO v) 1 (setVe v { x with wait := x.wait + 1 } s.blk));
      hostClear s.blk && issues s.blk aclk && decide (outBlocked c x = false) &&
      (match workNow s.blk v c with
      | some (w, rank) => groupReady s.blk v c w &&
        (let taken := takeVectors v c (c.rowv && readsVec c w) (c.colv && readsVec c w) w.read s.blk;
        let vec := laneEnv taken v c j w;
        let u := veUpsets v ups taken;
        let g := groupOut u.blk v c { laneEnv u.blk v c j w with tbl := u.tbl } w rank;
        let bad := u.stop || g.used || (!x.vecIn && (vectorBad c 4 vec.rowv || vectorBad c 5 vec.colv));
        let cy := groupCycles c j.psidy w;
        let rows := if c.mode == 3 && c.outTb then g.rows.map (fun r => if rowInside u.blk v c w r.row then r else { r with live := 0 }) else g.rows;
        let ran := count64 (rVE_CNT_ISSUE_LO v) cy.1 (count64 (rVE_CNT_SFU_LO v) cy.2 (veFlags v g.fl (addCounts c.queue c.count g.nans g.ovfs (setVe v { g.ve with out := g.ve.out ++ rows, grp := x.grp + 1, wait := 0, waited := false } u.blk))));
        decide (bad = false) && decide (x.grp + 1 = groupsPerTile c))
      | _ => false)) : Bool) = true ∧
    (let s : State := st ((serves ({ veCmd 1 (leBytes 2 0x100) with image := leBytes 2 1 ++ (veCmd 1 (leBytes 2 0x100)).image.drop 2 }) job0 Se.fresh Opu.fresh { Ve.fresh with image := ({ veCmd 1 (leBytes 2 0x100) with image := leBytes 2 1 ++ (veCmd 1 (leBytes 2 0x100)).image.drop 2 }).image, land0 := [(0, 128)], grp := 31 }));
      let v : Fin 64 := 0;
      let aclk : Nat := 0;
      let ups : List Upset := [⟨6, 0, [0, 1]⟩];
      let c : Cmd := ({ veCmd 1 (leBytes 2 0x100) with image := leBytes 2 1 ++ (veCmd 1 (leBytes 2 0x100)).image.drop 2 });
      let j : Job := job0;
      decide (jobCmd s.blk (ve s.blk v).job = some (c, j)) &&
      (let x := ve s.blk v;
      let waits := s.after (count64 (rVE_CNT_WAIT_LO v) 1 (setVe v { x with wait := x.wait + 1 } s.blk));
      hostClear s.blk && issues s.blk aclk && decide (outBlocked c x = false) &&
      (match workNow s.blk v c with
      | some (w, rank) => groupReady s.blk v c w &&
        (let taken := takeVectors v c (c.rowv && readsVec c w) (c.colv && readsVec c w) w.read s.blk;
        let vec := laneEnv taken v c j w;
        let u := veUpsets v ups taken;
        let g := groupOut u.blk v c { laneEnv u.blk v c j w with tbl := u.tbl } w rank;
        let bad := u.stop || g.used || (!x.vecIn && (vectorBad c 4 vec.rowv || vectorBad c 5 vec.colv));
        let cy := groupCycles c j.psidy w;
        let rows := if c.mode == 3 && c.outTb then g.rows.map (fun r => if rowInside u.blk v c w r.row then r else { r with live := 0 }) else g.rows;
        let ran := count64 (rVE_CNT_ISSUE_LO v) cy.1 (count64 (rVE_CNT_SFU_LO v) cy.2 (veFlags v g.fl (addCounts c.queue c.count g.nans g.ovfs (setVe v { g.ve with out := g.ve.out ++ rows, grp := x.grp + 1, wait := 0, waited := false } u.blk))));
        bad)
      | _ => false)) : Bool) = true := by
  decide +kernel

/-- Hypotheses of `VeRows`, clause by clause. -/
theorem witness_VeRows :
    (let s : State := st ((veRuns 3 (leBytes 2 0x100 ++ leBytes 1 0 ++ leBytes 1 2 ++ leBytes 33 0 ++ leBytes 1 1 ++ leBytes 1 1 ++ leBytes 2 0 ++ leBytes 4 1) ([]) (job0) { Ve.fresh with tile := 1 }));
      let v : Fin 64 := 0;
      let c : Cmd := veCmd 3 (leBytes 2 0x100 ++ leBytes 1 0 ++ leBytes 1 2 ++ leBytes 33 0 ++ leBytes 1 1 ++ leBytes 1 1 ++ leBytes 2 0 ++ leBytes 4 1);
      let j : Job := job0;
      let ups : List Upset := ([] : List Upset);
      decide (jobCmd s.blk (ve s.blk v).job = some (c, j)) &&
      (let x := ve s.blk v;
      match workNow s.blk v c with
      | some (w, rank) => decide (c.mode = 3) && w.out && decide (x.finalised = false) && decide (x.grp = 0) && decide (w.t = 0) &&
        (let u := veUpsets v ups s.blk;
        let rows := (List.range 128).map (fun m => stateRow (ve u.blk v) (c.temp.headD 0) m);
        decide (u.stop = false) && decide (rows.any (·.2) = false))
      | _ => false) : Bool) = true ∧
    (let s : State := st ((veRuns 4 (leBytes 2 0x100 ++ leBytes 35 0 ++ leBytes 1 1 ++ leBytes 1 4 ++ leBytes 1 1 ++ leBytes 1 0 ++ leBytes 4 1 ++ leBytes 4 1 ++ leBytes 4 1) ([]) ({ job0 with carries := [(0, some [])] }) { Ve.fresh with wait := 0 }));
      let v : Fin 64 := 0;
      let c : Cmd := veCmd 4 (leBytes 2 0x100 ++ leBytes 35 0 ++ leBytes 1 1 ++ leBytes 1 4 ++ leBytes 1 1 ++ leBytes 1 0 ++ leBytes 4 1 ++ leBytes 4 1 ++ leBytes 4 1);
      let j : Job := { job0 with carries := [(0, some [])] };
      let ups : List Upset := ([] : List Upset);
      decide (jobCmd s.blk (ve s.blk v).job = some (c, j)) &&
      (let x := ve s.blk v;
      hostClear s.blk &&
      (match workNow s.blk v c with
      | some (w, rank) => decide (c.mode = 4) && decide (c.isAttn = false) &&
        (match mapGet none j.carries w.block with
        | some ws => decide (x.carry = none)
        | _ => false)
      | _ => false)) : Bool) = true ∧
    (let s : State := st ((veRuns 1 (leBytes 2 0x104) ([]) (job0) { Ve.fresh with out := [resultRow] }));
      let v : Fin 64 := 0;
      let c : Cmd := veCmd 1 (leBytes 2 0x104);
      let j : Job := job0;
      let ups : List Upset := ([] : List Upset);
      decide (jobCmd s.blk (ve s.blk v).job = some (c, j)) &&
      (let x := ve s.blk v;
      hostClear s.blk &&
      (match x.out with
      | r :: rest => decide (isMX c.outFmt = true → c.outAxis = false) && outRoom s.blk v c r &&
        (let rank := (se s.blk (v.val / 2)).rank;
        let t := resultTile c rank r.tile;
        mayWrite s.blk (v.val / 2) c j t &&
        (match (if c.outTb then some s.blk else portGrant (v.val / 2) 6 s.blk) with
        | some go => let es := rowElems go v c r;
          let bad := !(c.outTb && c.outFmt == 0) && es.any (fun e => e.pois);
          let b := setVe v { x with out := rest } go;
          let stored := if isMX c.outFmt then storeBlocks v c j t (chunkList 32 9 es) b else storeOut v c t (es.map (fun e => (e, if e.pois then { w := e.w.toNat } else convertCode c.outFmt ⟨if c.outCvt % 2 = 1 then some (drawOut b v c j r.tile e.m e.n) else none, c.outCvt.testBit 1⟩ (outValue c j e.w)))) b;
          decide (bad = false)
        | _ => false))
      | _ => false)) : Bool) = true ∧
    (let s : State := st ((veRuns 1 (leBytes 2 0x104) ([(0, { Entry.fresh with pc := 1 })]) (job0) { Ve.fresh with tile := 1 }));
      let v : Fin 64 := 0;
      let c : Cmd := veCmd 1 (leBytes 2 0x104);
      let j : Job := job0;
      let ups : List Upset := ([] : List Upset);
      decide (jobCmd s.blk (ve s.blk v).job = some (c, j)) &&
      (let x := ve s.blk v;
      hostClear s.blk &&
      (let q : Fin 512 := 0;
      let n : Nat := 0;
      let c' : Cmd := veCmd 1 (leBytes 2 0x104);
      let j' : Job := job0;
      decide (jobCmd s.blk (some (q.val, n)) = some (c', j')) && decide (c'.mode ≠ 0) && decide (j'.summed = false) && kernelWorkDone s.blk c' j' && decide (c'.summaryVa = 0) && decide (guardHolds (c'.guard 0) (summaryOf s.blk c') = false) && decide (guardHolds (c'.guard 1) (summaryOf s.blk c') = false))) : Bool) = true ∧
    (let s : State := st ((veRuns 1 (leBytes 2 0x100) ([(0, rowThere)]) (job0) { Ve.fresh with wait := 0 }));
      let v : Fin 64 := 0;
      let c : Cmd := veCmd 1 (leBytes 2 0x100);
      let j : Job := job0;
      let ups : List Upset := ([] : List Upset);
      decide (jobCmd s.blk (ve s.blk v).job = some (c, j)) &&
      (let x := ve s.blk v;
      let st : Fin 2 := 0;
      decide (st.val = 0 → c.hasOpu = false) && decide (st.val = 1 → c.in1 = true) && c.ves.contains (v.val % 2) &&
      (let tr := nextLand (if st.val = 0 then x.land0 else x.land1);
      let e := if st.val = 0 then 0 else 3;
      let first := 32768 * (if st.val = 0 then clusterIdx c v c.inTiles tr.1 else readNo c v tr.1) + 256 * tr.2;
      decide (tr.1 < (if st.val = 0 ∨ c.mode ≠ 3 then veTiles s.blk c v else veTiles s.blk c v / max c.blockTiles 1 * c.rowTiles)) && canLand s.blk v c st tr.1 &&
      (match elemsAt (entryOf (se s.blk (v.val / 2)) e) first 256 with
      | some vs => let row := upsetRow (c.tensor e).fmt ups vs;
        let b := countBuf (v.val / 2) row.2.1 row.2.2 s.blk;
        match veWords c e row.1 with
        | some ws => true
        | _ => false
      | _ => false))) : Bool) = true ∧
    (let s : State := st ((serves { veCmd 1 (leBytes 2 0x100) with sblk := blockBytes 1 1 0 [tensorBytes 0 0 128 256 3 0 576 1 0] [insn 3 0 32768 0 1] } job0 { Se.fresh with entries := [(0, { Entry.fresh with buf := (List.range 256).map (fun i => (i, { padElem with pois := true })) })] } Opu.fresh Ve.fresh));
      let v : Fin 64 := 0;
      let c : Cmd := { veCmd 1 (leBytes 2 0x100) with sblk := blockBytes 1 1 0 [tensorBytes 0 0 128 256 3 0 576 1 0] [insn 3 0 32768 0 1] };
      let j : Job := job0;
      let ups : List Upset := ([] : List Upset);
      decide (jobCmd s.blk (ve s.blk v).job = some (c, j)) &&
      (let x := ve s.blk v;
      let st : Fin 2 := 0;
      decide (st.val = 0 → c.hasOpu = false) && decide (st.val = 1 → c.in1 = true) && c.ves.contains (v.val % 2) &&
      (let tr := nextLand (if st.val = 0 then x.land0 else x.land1);
      let e := if st.val = 0 then 0 else 3;
      let first := 32768 * (if st.val = 0 then clusterIdx c v c.inTiles tr.1 else readNo c v tr.1) + 256 * tr.2;
      decide (tr.1 < (if st.val = 0 ∨ c.mode ≠ 3 then veTiles s.blk c v else veTiles s.blk c v / max c.blockTiles 1 * c.rowTiles)) && canLand s.blk v c st tr.1 &&
      (match elemsAt (entryOf (se s.blk (v.val / 2)) e) first 256 with
      | some vs => let row := upsetRow (c.tensor e).fmt ups vs;
        let b := countBuf (v.val / 2) row.2.1 row.2.2 s.blk;
        decide (veWords c e row.1 = none)
      | _ => false))) : Bool) = true ∧
    (let s : State := st ((veRuns 1 (leBytes 5 0x104 ++ leBytes 1 3) ([]) (job0) { Ve.fresh with out := [⟨0, 0, List.replicate 256 (0x3F800000#32, true), 256⟩] }));
      let v : Fin 64 := 0;
      let c : Cmd := veCmd 1 (leBytes 5 0x104 ++ leBytes 1 3);
      let j : Job := job0;
      let ups : List Upset := ([] : List Upset);
      decide (jobCmd s.blk (ve s.blk v).job = some (c, j)) &&
      (let x := ve s.blk v;
      hostClear s.blk &&
      (match x.out with
      | r :: rest => decide (isMX c.outFmt = true → c.outAxis = false) && outRoom s.blk v c r &&
        (let rank := (se s.blk (v.val / 2)).rank;
        let t := resultTile c rank r.tile;
        mayWrite s.blk (v.val / 2) c j t &&
        (match (if c.outTb then some s.blk else portGrant (v.val / 2) 6 s.blk) with
        | some go => let es := rowElems go v c r;
          let bad := !(c.outTb && c.outFmt == 0) && es.any (fun e => e.pois);
          let b := setVe v { x with out := rest } go;
          let stored := if isMX c.outFmt then storeBlocks v c j t (chunkList 32 9 es) b else storeOut v c t (es.map (fun e => (e, if e.pois then { w := e.w.toNat } else convertCode c.outFmt ⟨if c.outCvt % 2 = 1 then some (drawOut b v c j r.tile e.m e.n) else none, c.outCvt.testBit 1⟩ (outValue c j e.w)))) b;
          bad
        | _ => false))
      | _ => false)) : Bool) = true ∧
    (let s : State := st ((serves ({ veCmd 3 (leBytes 2 0x100 ++ leBytes 1 0 ++ leBytes 1 2 ++ leBytes 33 0 ++ leBytes 1 1 ++ leBytes 1 1 ++ leBytes 2 0 ++ leBytes 4 1) with image := leBytes 2 1 ++ (veCmd 3 (leBytes 2 0x100 ++ leBytes 1 0 ++ leBytes 1 2 ++ leBytes 33 0 ++ leBytes 1 1 ++ leBytes 1 1 ++ leBytes 2 0 ++ leBytes 4 1)).image.drop 2 }) job0 Se.fresh Opu.fresh { Ve.fresh with image := ({ veCmd 3 (leBytes 2 0x100 ++ leBytes 1 0 ++ leBytes 1 2 ++ leBytes 33 0 ++ leBytes 1 1 ++ leBytes 1 1 ++ leBytes 2 0 ++ leBytes 4 1) with image := leBytes 2 1 ++ (veCmd 3 (leBytes 2 0x100 ++ leBytes 1 0 ++ leBytes 1 2 ++ leBytes 33 0 ++ leBytes 1 1 ++ leBytes 1 1 ++ leBytes 2 0 ++ leBytes 4 1)).image.drop 2 }).image, tile := 1 }));
      let v : Fin 64 := 0;
      let c : Cmd := ({ veCmd 3 (leBytes 2 0x100 ++ leBytes 1 0 ++ leBytes 1 2 ++ leBytes 33 0 ++ leBytes 1 1 ++ leBytes 1 1 ++ leBytes 2 0 ++ leBytes 4 1) with image := leBytes 2 1 ++ (veCmd 3 (leBytes 2 0x100 ++ leBytes 1 0 ++ leBytes 1 2 ++ leBytes 33 0 ++ leBytes 1 1 ++ leBytes 1 1 ++ leBytes 2 0 ++ leBytes 4 1)).image.drop 2 });
      let j : Job := job0;
      let ups : List Upset := [⟨6, 0, [0, 1]⟩];
      decide (jobCmd s.blk (ve s.blk v).job = some (c, j)) &&
      (let x := ve s.blk v;
      match workNow s.blk v c with
      | some (w, rank) => decide (c.mode = 3) && w.out && decide (x.finalised = false) && decide (x.grp = 0) && decide (w.t = 0) &&
        (let u := veUpsets v ups s.blk;
        let rows := (List.range 128).map (fun m => stateRow (ve u.blk v) (c.temp.headD 0) m);
        decide (u.stop = true ∨ rows.any (·.2) = true))
      | _ => false) : Bool) = true := by
  decide +kernel

/-- Hypotheses of `LaneEffects`, clause by clause. -/
theorem witness_LaneEffects :
    (let s : State := st ((veRuns 1 (leBytes 4 0x10100) ([]) (job0) { Ve.fresh with pois := [0] }));
      let v : Fin 64 := 0;
      let m : Fin 128 := 0;
      let n : Fin 256 := 0;
      let dst : Fin 8 := 7;
      let a : Fin 64 := 0;
      let b : Fin 64 := 6;
      let c : Fin 64 := 1;
      let ups : List Upset := ([] : List Upset);
      let does := fun (i : Instr) (blk : Block) (tbl : List (Nat × W32)) (w : LaneWord) => ∀ (c : Cmd) (j : Job) (wk : Work) (rank : Nat), jobCmd blk (ve blk v).job = some (c, j) → workNow blk v c = some (wk, rank) → w.argOk j.psidy = true → let x := ve blk v; let k := 256 * m.val + n.val; let r := laneStep x { laneEnv blk v c j wk with tbl := tbl } m n (positionOf c rank v wk m n) ⟨mapGet 0 x.x k, x.xPois.contains k, [], 0, 0, 0, false⟩ w; (r.used = false → let y := r.tmps.foldl (fun x t => putElem c.pack t.1 m n t.2 x) x; exec i s = .next (s.after (veFlags v r.fl (addCounts c.queue c.count r.nans r.ovfs (setVe v { y with x := mapSet 0 y.x k r.x, xPois := if r.xp then setInsert y.xPois k else setErase y.xPois k } blk))))) ∧ (r.used = true → exec i s = .next (s.after (poisonTask (v.val / 2) c.queue c.count blk)));
      let u := veUpsets v ups s.blk;
      decide (u.stop = false) : Bool) = true ∧
    (let s : State := st ((veRuns 1 (leBytes 4 0x10100) ([]) (job0) { Ve.fresh with wait := 0 }));
      let v : Fin 64 := 0;
      let m : Fin 128 := 127;
      let n : Fin 256 := 255;
      let dst : Fin 8 := 7;
      let a : Fin 64 := 6;
      let b : Fin 64 := 1;
      let c : Fin 64 := 1;
      let ups : List Upset := [⟨7, 0, [0, 1]⟩];
      let does := fun (i : Instr) (blk : Block) (tbl : List (Nat × W32)) (w : LaneWord) => ∀ (c : Cmd) (j : Job) (wk : Work) (rank : Nat), jobCmd blk (ve blk v).job = some (c, j) → workNow blk v c = some (wk, rank) → w.argOk j.psidy = true → let x := ve blk v; let k := 256 * m.val + n.val; let r := laneStep x { laneEnv blk v c j wk with tbl := tbl } m n (positionOf c rank v wk m n) ⟨mapGet 0 x.x k, x.xPois.contains k, [], 0, 0, 0, false⟩ w; (r.used = false → let y := r.tmps.foldl (fun x t => putElem c.pack t.1 m n t.2 x) x; exec i s = .next (s.after (veFlags v r.fl (addCounts c.queue c.count r.nans r.ovfs (setVe v { y with x := mapSet 0 y.x k r.x, xPois := if r.xp then setInsert y.xPois k else setErase y.xPois k } blk))))) ∧ (r.used = true → exec i s = .next (s.after (poisonTask (v.val / 2) c.queue c.count blk)));
      let u := veUpsets v ups s.blk;
      u.stop &&
      (let c : Cmd := veCmd 1 (leBytes 4 0x10100);
      let j : Job := job0;
      let wk : Work := ⟨0, true, 0, 0, 0, 0, true⟩;
      let rank : Nat := 0;
      decide (jobCmd s.blk (ve s.blk v).job = some (c, j)) && decide (workNow s.blk v c = some (wk, rank)) && (⟨0x0D, dst, a, b, 0⟩ : LaneWord).argOk j.psidy) : Bool) = true := by
  decide +kernel

/-- Hypotheses of `LaneResults`, clause by clause. -/
theorem witness_LaneResults :
    (let p : Bool := true;
      let a : W32 := 0x7F800001;
      let b : W32 := 0x3F800000;
      let c : W32 := 1;
      fpIsNaN (fp32 a) : Bool) = true := by
  decide +kernel

/-- Hypotheses of `StreamPrograms`, clause by clause. -/
theorem witness_StreamPrograms :
    (let s : State := st ((streams [insn 1 0 2 0 1, insn 3 0 4 0 1, insn 2 0 1 0 0] Entry.fresh));
      let cl : Fin 32 := 0;
      let e : Fin 8 := 0;
      let c : Cmd := running 1 0 0 0 (blockBytes 1 1 0 [tensorBytes 0 0 128 256 0 0 576 3 0] [insn 1 0 2 0 1, insn 3 0 4 0 1, insn 2 0 1 0 0]) [];
      let j : Job := job0;
      let i : SInstr := sInstr (insn 1 0 2 0 1);
      decide (jobCmd s.blk (se s.blk cl).job = some (c, j)) &&
      (let x := entryOf (se s.blk cl) e;
      decide (nextInstr c e x = some i) && runsProgram c (se s.blk cl).rank e && decide (i.op = 1) &&
      (let first := 0;
      decide (first = (if i.part then (se s.blk cl).rank else 0)) && decide (first < i.count) &&
      (match (if i.indir then portGrant cl e s.blk else some s.blk) with
      | some go => true
      | _ => false))) : Bool) = true ∧
    (let s : State := st ((setSe 0 { se (streams [insn 1 1 1 0 1, insn 3 0 4 0 1, insn 2 0 1 0 0] Entry.fresh) 0 with rank := 1 } (streams [insn 1 1 1 0 1, insn 3 0 4 0 1, insn 2 0 1 0 0] Entry.fresh)));
      let cl : Fin 32 := 0;
      let e : Fin 8 := 0;
      let c : Cmd := running 1 0 0 0 (blockBytes 1 1 0 [tensorBytes 0 0 128 256 0 0 576 3 0] [insn 1 1 1 0 1, insn 3 0 4 0 1, insn 2 0 1 0 0]) [];
      let j : Job := job0;
      let i : SInstr := sInstr (insn 1 1 1 0 1);
      decide (jobCmd s.blk (se s.blk cl).job = some (c, j)) &&
      (let x := entryOf (se s.blk cl) e;
      decide (nextInstr c e x = some i) && runsProgram c (se s.blk cl).rank e && decide (i.op = 1) &&
      (let first := 1;
      decide (first = (if i.part then (se s.blk cl).rank else 0)) && decide (i.count ≤ first))) : Bool) = true ∧
    (let s : State := st ((streams [insn 1 0 2 0 1, insn 3 0 4 0 1, insn 2 0 1 0 0] { Entry.fresh with pc := 2, frames := [⟨0, 0, 0, 0, false⟩] }));
      let cl : Fin 32 := 0;
      let e : Fin 8 := 0;
      let c : Cmd := running 1 0 0 0 (blockBytes 1 1 0 [tensorBytes 0 0 128 256 0 0 576 3 0] [insn 1 0 2 0 1, insn 3 0 4 0 1, insn 2 0 1 0 0]) [];
      let j : Job := job0;
      let i : SInstr := sInstr (insn 2 0 1 0 0);
      decide (jobCmd s.blk (se s.blk cl).job = some (c, j)) &&
      (let x := entryOf (se s.blk cl) e;
      decide (nextInstr c e x = some i) && runsProgram c (se s.blk cl).rank e && decide (i.op = 2) &&
      (match x.frames with
      | f :: rest => match (c.prog e)[f.pc]? with
        | some l => let k := f.i + (if l.part then c.nclus else 1);
          decide (k < l.count) &&
          (match (if l.indir then portGrant cl e s.blk else some s.blk) with
          | some go => true
          | _ => false)
        | _ => false
      | _ => false)) : Bool) = true ∧
    (let s : State := st ((streams [insn 1 0 2 0 1, insn 3 0 4 0 1, insn 2 0 1 0 0] { Entry.fresh with pc := 2, frames := [⟨0, 1, 0, 0, false⟩] }));
      let cl : Fin 32 := 0;
      let e : Fin 8 := 0;
      let c : Cmd := running 1 0 0 0 (blockBytes 1 1 0 [tensorBytes 0 0 128 256 0 0 576 3 0] [insn 1 0 2 0 1, insn 3 0 4 0 1, insn 2 0 1 0 0]) [];
      let j : Job := job0;
      let i : SInstr := sInstr (insn 2 0 1 0 0);
      decide (jobCmd s.blk (se s.blk cl).job = some (c, j)) &&
      (let x := entryOf (se s.blk cl) e;
      decide (nextInstr c e x = some i) && runsProgram c (se s.blk cl).rank e && decide (i.op = 2) &&
      (match x.frames with
      | f :: rest => match (c.prog e)[f.pc]? with
        | some l => let k := f.i + (if l.part then c.nclus else 1);
          decide (l.count ≤ k)
        | _ => false
      | _ => false)) : Bool) = true ∧
    (let s : State := st ((streams [insn 3 0 4 0 1] Entry.fresh));
      let cl : Fin 32 := 0;
      let e : Fin 8 := 0;
      let c : Cmd := running 1 0 0 0 (blockBytes 1 1 0 [tensorBytes 0 0 128 256 0 0 576 1 0] [insn 3 0 4 0 1]) [];
      let j : Job := job0;
      let i : SInstr := sInstr (insn 3 0 4 0 1);
      decide (jobCmd s.blk (se s.blk cl).job = some (c, j)) &&
      (let x := entryOf (se s.blk cl) e;
      decide (nextInstr c e x = some i) && runsProgram c (se s.blk cl).rank e && decide (i.op = 3) && decide (x.zero = true ∨ belowBase x.row x.col i.drow i.dcol i.count = none)) : Bool) = true ∧
    (let s : State := st ((streams [insn 3 0 4 0 0xFFFFFFFF] { Entry.fresh with col := 2 }));
      let cl : Fin 32 := 0;
      let e : Fin 8 := 0;
      let c : Cmd := running 1 0 0 0 (blockBytes 1 1 0 [tensorBytes 0 0 128 256 0 0 576 1 0] [insn 3 0 4 0 0xFFFFFFFF]) [];
      let j : Job := job0;
      let i : SInstr := sInstr (insn 3 0 4 0 0xFFFFFFFF);
      decide (jobCmd s.blk (se s.blk cl).job = some (c, j)) &&
      (let x := entryOf (se s.blk cl) e;
      decide (nextInstr c e x = some i) && runsProgram c (se s.blk cl).rank e && decide (i.op = 3) && decide (x.zero = false) &&
      (let k := 3;
      decide (belowBase x.row x.col i.drow i.dcol i.count = some k))) : Bool) = true ∧
    (let s : State := st ((streams [insn 4 0 1 1 1] Entry.fresh));
      let cl : Fin 32 := 0;
      let e : Fin 8 := 0;
      let c : Cmd := running 1 0 0 0 (blockBytes 1 1 0 [tensorBytes 0 0 128 256 0 0 576 1 0] [insn 4 0 1 1 1]) [];
      let j : Job := job0;
      let i : SInstr := sInstr (insn 4 0 1 1 1);
      decide (jobCmd s.blk (se s.blk cl).job = some (c, j)) &&
      (let x := entryOf (se s.blk cl) e;
      decide (nextInstr c e x = some i) && runsProgram c (se s.blk cl).rank e && decide (i.op = 4)) : Bool) = true ∧
    (let s : State := st ((streams [insn 5 0 7 0 0] Entry.fresh));
      let cl : Fin 32 := 0;
      let e : Fin 8 := 0;
      let c : Cmd := running 1 0 0 0 (blockBytes 1 1 0 [tensorBytes 0 0 128 256 0 0 576 1 0] [insn 5 0 7 0 0]) [];
      let j : Job := job0;
      let i : SInstr := sInstr (insn 5 0 7 0 0);
      decide (jobCmd s.blk (se s.blk cl).job = some (c, j)) &&
      (let x := entryOf (se s.blk cl) e;
      decide (nextInstr c e x = some i) && runsProgram c (se s.blk cl).rank e && decide (i.op = 5)) : Bool) = true ∧
    (let s : State := st (({ serves (running 1 0 0 0 (blockBytes 5 1 0 [tensorBytes 0 0 128 256 0 0 576 3 0, tensorBytes 0 0 128 256 0 0 576 3 0, tensorBytes 0 0 128 256 0 0 576 3 0] [insn 1 2 2 0 1, insn 3 0 4 0 1, insn 2 0 1 0 0]) []) job0 { Se.fresh with entries := [] } Opu.fresh Ve.fresh with arb := [(arbStream 0, 2)] }));
      let cl : Fin 32 := 0;
      let e : Fin 8 := 0;
      let c : Cmd := running 1 0 0 0 (blockBytes 5 1 0 [tensorBytes 0 0 128 256 0 0 576 3 0, tensorBytes 0 0 128 256 0 0 576 3 0, tensorBytes 0 0 128 256 0 0 576 3 0] [insn 1 2 2 0 1, insn 3 0 4 0 1, insn 2 0 1 0 0]) [];
      let j : Job := job0;
      let i : SInstr := sInstr (insn 1 2 2 0 1);
      decide (jobCmd s.blk (se s.blk cl).job = some (c, j)) &&
      (let x := entryOf (se s.blk cl) e;
      decide (nextInstr c e x = some i) && runsProgram c (se s.blk cl).rank e && decide (i.op = 1) &&
      (let first := 0;
      decide (first = (if i.part then (se s.blk cl).rank else 0)) && decide (first < i.count) && i.indir && decide (portGrant cl e s.blk = none))) : Bool) = true ∧
    (let s : State := st (({ serves (running 1 0 0 0 (blockBytes 5 1 0 [tensorBytes 0 0 128 256 0 0 576 3 0, tensorBytes 0 0 128 256 0 0 576 3 0, tensorBytes 0 0 128 256 0 0 576 3 0] [insn 1 2 2 0 1, insn 3 0 4 0 1, insn 2 0 1 0 0]) []) job0 { Se.fresh with entries := [(0, { Entry.fresh with pc := 2, frames := [⟨0, 0, 0, 0, false⟩] })] } Opu.fresh Ve.fresh with arb := [(arbStream 0, 2)] }));
      let cl : Fin 32 := 0;
      let e : Fin 8 := 0;
      let c : Cmd := running 1 0 0 0 (blockBytes 5 1 0 [tensorBytes 0 0 128 256 0 0 576 3 0, tensorBytes 0 0 128 256 0 0 576 3 0, tensorBytes 0 0 128 256 0 0 576 3 0] [insn 1 2 2 0 1, insn 3 0 4 0 1, insn 2 0 1 0 0]) [];
      let j : Job := job0;
      let i : SInstr := sInstr (insn 2 0 1 0 0);
      decide (jobCmd s.blk (se s.blk cl).job = some (c, j)) &&
      (let x := entryOf (se s.blk cl) e;
      decide (nextInstr c e x = some i) && runsProgram c (se s.blk cl).rank e && decide (i.op = 2) &&
      (match x.frames with
      | f :: rest => match (c.prog e)[f.pc]? with
        | some l => let k := f.i + (if l.part then c.nclus else 1);
          decide (k < l.count) && l.indir && decide (portGrant cl e s.blk = none)
        | _ => false
      | _ => false)) : Bool) = true := by
  decide +kernel

/-- Hypotheses of `InputEntries`, clause by clause. -/
theorem witness_InputEntries :
    (let s : State := st ((member 1 (mapped (linked up))));
      let cl : Fin 32 := 0;
      hostClear s.blk &&
      (let e : Fin 8 := 0;
      decide (e.val < 6) && decide (e.val ≠ 1) && decide (dom s.blk (domFab (halfOfCluster cl)) = 2) &&
      (let p := fetchPads 1024 cl e s.blk;
      decide (inputAsks p.2 cl e = false))) &&
      (let src : Nat := 2;
      let va : Nat := 0;
      let n : Nat := 8;
      let ups : List Upset := ([] : List Upset);
      activeMember s.blk (devId s.blk) &&
      (let b := ups.foldl sramUpset s.blk;
      match vRead b (get b fGG_STEP_CTX_CTX) va n with
      | .ok r => true
      | _ => false)) : Bool) = true ∧
    (let s : State := st ((member 1 (linked up)));
      let cl : Fin 32 := 0;
      hostClear s.blk &&
      (let src : Nat := 2;
      let va : Nat := 0;
      let n : Nat := 8;
      let ups : List Upset := ([] : List Upset);
      activeMember s.blk (devId s.blk) &&
      (let b := ups.foldl sramUpset s.blk;
      (match vRead b (get b fGG_STEP_CTX_CTX) va n with
      | .error .fault => true
      | _ => false))) : Bool) = true ∧
    (let s : State := st ((streams [insn 3 0 4 0 1] { Entry.fresh with asked := [(2, 0, 4)], segs := [⟨0, 4, 0, 0, 0, 1, false, 0⟩] }));
      let cl : Fin 32 := 0;
      hostClear s.blk &&
      (let e : Fin 8 := 0;
      let c : Cmd := running 1 0 0 0 (blockBytes 1 1 0 [tensorBytes 0 0 128 256 0 0 576 1 0] [insn 3 0 4 0 1]) [];
      let j : Job := job0;
      decide (jobCmd s.blk (se s.blk cl).job = some (c, j)) && decide ((entryOf (se s.blk cl) e).asked ≠ []) &&
      (match coordOf (entryOf (se s.blk cl) e) (entryOf (se s.blk cl) e).fetched with
      | some (g, row, col) => true
      | _ => false)) : Bool) = true ∧
    (let s : State := st (hoists);
      let cl : Fin 32 := 1;
      hostClear s.blk &&
      (let c : Cmd := hoistCmd;
      let j : Job := { job0 with clusters := [0, 1, 2] };
      decide (jobCmd s.blk (se s.blk cl).job = some (c, j)) && (c.tensor 1).hoist && c.hasOpu && decide ((se s.blk cl).rank ≠ 0) &&
      (match (se s.blk cl).hoist.head? with
      | some row => decide ((se s.blk cl).wrows / max c.rowsPerIter 1 * c.nclus + (se s.blk cl).rank < c.parts) &&
        (match takeWeightRow cl (se s.blk cl).wrows c row s.blk with
        | some b => let taken := setSe cl { se b cl with hoist := (se s.blk cl).hoist.drop 1 } b;
          let passed := setSe cl { se taken cl with wrows := (se s.blk cl).wrows + 1 } taken;
          match nextOnChain c (se s.blk cl).rank with
          | some d => decide ((se s.blk d).hoist = [])
          | _ => false
        | _ => false)
      | _ => false)) : Bool) = true ∧
    (let s : State := st ((streams [insn 3 0 4 0 1] { Entry.fresh with emitted := 4, segs := [⟨0, 4, 0, 0, 0, 1, false, 0⟩] }));
      let cl : Fin 32 := 0;
      hostClear s.blk &&
      (let e : Fin 8 := 0;
      decide (e.val < 6) && decide (e.val ≠ 1) && decide (dom s.blk (domFab (halfOfCluster cl)) = 2) &&
      (let p := fetchPads 1024 cl e s.blk;
      inputAsks p.2 cl e &&
      (match portGrant cl e p.2 with
      | some go => true
      | _ => false))) : Bool) = true ∧
    (let s : State := st ((put (fDom (domFab 1)) 0 (linked up)));
      let cl : Fin 32 := 31;
      hostClear s.blk &&
      (let e : Fin 8 := 0;
      decide (e.val ≠ 1) && decide (dom s.blk (domFab (halfOfCluster cl)) ≠ 2)) : Bool) = true ∧
    (let s : State := st ((setPoison (member 1 (mapped (linked up))) 0x20000 true));
      let cl : Fin 32 := 0;
      hostClear s.blk &&
      (let src : Nat := 2;
      let va : Nat := 0;
      let n : Nat := 8;
      let ups : List Upset := ([] : List Upset);
      activeMember s.blk (devId s.blk) &&
      (let b := ups.foldl sramUpset s.blk;
      (match vRead b (get b fGG_STEP_CTX_CTX) va n with
      | .error .poison => true
      | _ => false))) : Bool) = true ∧
    (let s : State := st ((setSe 2 { Se.fresh with job := some (0, 0), rank := 2, hoist := [List.replicate 256 padElem] } hoists));
      let cl : Fin 32 := 2;
      hostClear s.blk &&
      (let c : Cmd := hoistCmd;
      let j : Job := { job0 with clusters := [0, 1, 2] };
      decide (jobCmd s.blk (se s.blk cl).job = some (c, j)) && (c.tensor 1).hoist && c.hasOpu && decide ((se s.blk cl).rank ≠ 0) &&
      (match (se s.blk cl).hoist.head? with
      | some row => decide ((se s.blk cl).wrows / max c.rowsPerIter 1 * c.nclus + (se s.blk cl).rank < c.parts) &&
        (match takeWeightRow cl (se s.blk cl).wrows c row s.blk with
        | some b => let taken := setSe cl { se b cl with hoist := (se s.blk cl).hoist.drop 1 } b;
          let passed := setSe cl { se taken cl with wrows := (se s.blk cl).wrows + 1 } taken;
          decide (nextOnChain c (se s.blk cl).rank = none)
        | _ => false)
      | _ => false)) : Bool) = true ∧
    (let s : State := st (({ serves (running 1 0 0 0 (blockBytes 5 1 0 [tensorBytes 0 0 128 256 0 0 576 3 0, tensorBytes 0 0 128 256 0 0 576 3 0, tensorBytes 0 0 128 256 0 0 576 3 0] [insn 1 2 2 0 1, insn 3 0 4 0 1, insn 2 0 1 0 0]) []) job0 { Se.fresh with entries := [(0, { Entry.fresh with emitted := 4, segs := [⟨0, 4, 0, 0, 0, 1, false, 0⟩] })] } Opu.fresh Ve.fresh with arb := [(arbStream 0, 2)] }));
      let cl : Fin 32 := 0;
      hostClear s.blk &&
      (let e : Fin 8 := 0;
      decide (e.val < 6) && decide (e.val ≠ 1) && decide (dom s.blk (domFab (halfOfCluster cl)) = 2) &&
      (let p := fetchPads 1024 cl e s.blk;
      inputAsks p.2 cl e && decide (portGrant cl e p.2 = none))) : Bool) = true ∧
    (let s : State := st ((setSe 2 { se hoists 2 with hoist := [List.replicate 256 padElem] } hoists));
      let cl : Fin 32 := 1;
      hostClear s.blk &&
      (let c : Cmd := hoistCmd;
      let j : Job := { job0 with clusters := [0, 1, 2] };
      decide (jobCmd s.blk (se s.blk cl).job = some (c, j)) && (c.tensor 1).hoist && c.hasOpu && decide ((se s.blk cl).rank ≠ 0) &&
      (match (se s.blk cl).hoist.head? with
      | some row => decide ((se s.blk cl).wrows / max c.rowsPerIter 1 * c.nclus + (se s.blk cl).rank < c.parts) &&
        (match takeWeightRow cl (se s.blk cl).wrows c row s.blk with
        | some b => let taken := setSe cl { se b cl with hoist := (se s.blk cl).hoist.drop 1 } b;
          let passed := setSe cl { se taken cl with wrows := (se s.blk cl).wrows + 1 } taken;
          match nextOnChain c (se s.blk cl).rank with
          | some d => decide ((se s.blk d).hoist ≠ [])
          | _ => false
        | _ => false)
      | _ => false)) : Bool) = true := by
  decide +kernel

/-- Hypotheses of `RemoteReadAnswers`, clause by clause. -/
theorem witness_RemoteReadAnswers :
    (let s : State := st ((settle (streams [insn 3 0 4 0 1] { Entry.fresh with asked := [(2, 0, 4)], segs := [⟨0, 4, 0, 0, 0, 1, false, 0⟩] })));
      let src : Nat := 2;
      let va : Nat := 0;
      let data : List Byte := [1, 2, 3, 4];
      let poison : Nat := 0;
      let cl : Fin 32 := 0;
      let e : Fin 6 := 0;
      let c : Cmd := running 1 0 0 0 (blockBytes 1 1 0 [tensorBytes 0 0 128 256 0 0 576 1 0] [insn 3 0 4 0 1]) [];
      let j : Job := job0;
      decide (jobCmd s.blk (se s.blk cl).job = some (c, j)) &&
      (let x := entryOf (se s.blk cl) e;
      let named := fun (a : Nat × Nat × Nat) => a.1 == src && a.2.1 == va;
      x.asked.any named && decide (∀ (cl' : Fin 32) (e' : Fin 6), (cl', e') ≠ (cl, e) → (entryOf (se s.blk cl') e').asked.any named = false)) : Bool) = true := by
  decide +kernel

/-- Hypotheses of `WritesReadBack`, clause by clause. -/
theorem witness_WritesReadBack :
    (let b : Block := up;
      let pa : Nat := 0x7FFFFFFFFC;
      let bs : List Byte := [0, 1, 2, 3];
      let src : Nat → Bool := fun _ => false;
      b.memOk &&
      (let t := memWriteP pa bs src b;
      (let i := 3;
      decide (i < bs.length)) &&
      (let a := 0x8000000000;
      decide (a < pa ∨ pa + bs.length ≤ a))) : Bool) = true := by
  decide +kernel

/-- Hypotheses of `WholeWordClearsPoison`, clause by clause. -/
theorem witness_WholeWordClearsPoison :
    (let b : Block := up;
      let pa : Nat := 0x7FFFFFFFF8;
      let bs : List Byte := List.replicate 8 0;
      decide (pa % 8 = 0) && decide (pa + 8 ≤ 0x8000000000) && decide (bs.length = 8) : Bool) = true := by
  decide +kernel

/-- Hypotheses of `HbmInterleave`, clause by clause. -/
theorem witness_HbmInterleave :
    (let a : Nat := 0x7FFFFFFFFF;
      decide (a < 0x8000000000) &&
      (let l := 11;
      decide (l < 12)) : Bool) = true := by
  decide +kernel

/-- Hypotheses of `TranslationIsSafe`, clause by clause. -/
theorem witness_TranslationIsSafe :
    (let b : Block := mapped up;
      let c : Nat := 0;
      let va : Nat := 0x3FFFFFFF;
      let write : Bool := true;
      match translate b c va write with
      | .ok pa => true
      | _ => false : Bool) = true := by
  decide +kernel

/-- Hypotheses of `LodeAccesses`, clause by clause. -/
theorem witness_LodeAccesses :
    (let s : State := st ((linked up));
      let l : Fin 12 := 0;
      let a : Nat := 8;
      decide (a % 8 = 0) && targetReachable s.blk (lodePa l a) && domOn s.blk (domLode l) && lodeHas s.blk l a &&
      (decide (poisoned s.blk (lodePa l a) = false) &&
      (let i := 71;
      decide (i < 72) &&
      (let k := 0;
      decide (k < 72) && decide (i ≠ k)))) &&
      (let u : Fin 20 := 0;
      decide (u.val = l.val) && decide ((lode s.blk l).catchup = false)) : Bool) = true ∧
    (let s : State := st ((setLode 0 { lode (linked up) 0 with scrubPos := 1, catchup := true } (linked up)));
      let l : Fin 12 := 0;
      let a : Nat := 8;
      decide (a % 8 = 0) && targetReachable s.blk (lodePa l a) && domOn s.blk (domLode l) && lodeHas s.blk l a &&
      (let u : Fin 20 := 0;
      decide (u.val = l.val) && decide (isSet s.blk (fLD_BLK_STAT_SELF_REFRESH l) = false) && decide (hbmLost s.blk = false) && decide ((lode s.blk l).scrubPos * 8 = a) && decide ((lode s.blk l).scrubPos + 1 < lodeGranules s.blk l * 512) && decide ((lode s.blk l).fill = none) && decide (poisoned s.blk (lodePa l a) = false)) : Bool) = true ∧
    (let s : State := st ((setPoison (linked up) (lodePa 0 8) true));
      let l : Fin 12 := 0;
      let a : Nat := 8;
      decide (a % 8 = 0) && targetReachable s.blk (lodePa l a) && domOn s.blk (domLode l) && lodeHas s.blk l a && poisoned s.blk (lodePa l a) : Bool) = true ∧
    (let s : State := st ((linked up));
      let l : Fin 12 := 0;
      let a : Nat := 8;
      decide (a % 8 = 0) && targetReachable s.blk (lodePa l a) && domOn s.blk (domLode l) && lodeHas s.blk l a &&
      (let u : Fin 20 := 12;
      let g : Fin 8 := 0;
      decide (u.val = 12 + g.val) && decide (s.blk.sgCatchup.contains g.val = false)) : Bool) = true := by
  decide +kernel

/-- Hypotheses of `MemoryFailures`, clause by clause. -/
theorem witness_MemoryFailures :
    (let s : State := st ((setLode 0 { Lode.fresh with fill := some ⟨0, 0, 0, true, 0, []⟩ } (linked up)));
      let l : Fin 12 := 0;
      let g : Fin 8 := 7;
      let h : Fin 2 := 1;
      let temp : Nat := 85;
      (let f : Fill := ⟨0, 0, 0, true, 0, []⟩;
      decide ((lode s.blk l).fill = some f) && decide (isSet s.blk (fLD_BLK_STAT_SELF_REFRESH l) = false) && domOn s.blk (domLode l) && decide (f.pos < rgWords) && decide (hbmLost s.blk = false) && decide (f.lost = true ∨ poisoned s.blk (lodePa l (rgWordAt f.pc f.rg f.pos)) = false)) &&
      decide (isSet s.blk (fBLK_STAT_FAILED (ldBase l)) = false) && decide (dom s.blk (domLode l) ≠ 0) &&
      decide (isSet s.blk (fBLK_STAT_FAILED (sgBase g)) = false) &&
      decide (dom s.blk (domFab h) ≠ 3) : Bool) = true ∧
    (let s : State := st ((setLode 0 { Lode.fresh with fill := some ⟨0, 0, 0, false, rgWords, []⟩ } (linked up)));
      let l : Fin 12 := 0;
      let g : Fin 8 := 7;
      let h : Fin 2 := 1;
      let temp : Nat := 85;
      let f : Fill := ⟨0, 0, 0, false, rgWords, []⟩;
      decide ((lode s.blk l).fill = some f) && decide (rgWords ≤ f.pos) && decide ((lode s.blk l).queued = []) && decide (isSet s.blk (fLD_BLK_STAT_SELF_REFRESH l) = false) && domOn s.blk (domLode l) && decide (hbmLost s.blk = false) : Bool) = true := by
  decide +kernel

/-- Hypotheses of `AditChanges`, clause by clause. -/
theorem witness_AditChanges :
    (let s : State := st ((adit 1 { Link.fresh with full := 0 }));
      let a : Fin 18 := 0;
      let port : Port := .ch0;
      let f : Bool := true;
      let st := aditState s.blk a;
      let full := (link s.blk a).full;
      decide (st = 1) : Bool) = true ∧
    (let s : State := st ((adit 2 { Link.fresh with full := 0 }));
      let a : Fin 18 := 0;
      let port : Port := .ch0;
      let f : Bool := true;
      let st := aditState s.blk a;
      let full := (link s.blk a).full;
      decide (st = 2) : Bool) = true ∧
    (let s : State := st ((adit 3 { Link.fresh with full := 0 }));
      let a : Fin 18 := 0;
      let port : Port := .ch0;
      let f : Bool := true;
      let st := aditState s.blk a;
      let full := (link s.blk a).full;
      decide (st = 3) : Bool) = true ∧
    (let s : State := st ((adit 5 { Link.fresh with full := 0 }));
      let a : Fin 18 := 0;
      let port : Port := .ch0;
      let f : Bool := true;
      let st := aditState s.blk a;
      let full := (link s.blk a).full;
      actsNowNat s.blk port (rAD_CTL a) 0 && isSet s.blk (fAD_CTL_EN a) &&
      decide (2 ≤ st) && decide (st ≤ 6) &&
      decide (st = 5 ∨ st = 6) &&
      decide (st = 5) &&
      actsNowNat s.blk port (rAD_CTL a) 3 && isSet s.blk (fAD_CTL_EN a) && decide (st = 5) &&
      actsNowNat s.blk port (rAD_CTL a) 5 && isSet s.blk (fAD_CTL_EN a) : Bool) = true ∧
    (let s : State := st ((adit 6 { Link.fresh with full := 0 }));
      let a : Fin 18 := 0;
      let port : Port := .ch0;
      let f : Bool := true;
      let st := aditState s.blk a;
      let full := (link s.blk a).full;
      decide (st = 6) && decide (full = 0) : Bool) = true ∧
    (let s : State := st ((adit 6 { Link.fresh with full := 1 }));
      let a : Fin 18 := 0;
      let port : Port := .ch0;
      let f : Bool := true;
      let st := aditState s.blk a;
      let full := (link s.blk a).full;
      decide (st = 6) && decide (full = 1) : Bool) = true ∧
    (let s : State := st ((adit 6 { Link.fresh with full := 2 }));
      let a : Fin 18 := 0;
      let port : Port := .ch0;
      let f : Bool := true;
      let st := aditState s.blk a;
      let full := (link s.blk a).full;
      decide (st = 6) && decide (full = 2) : Bool) = true ∧
    (let s : State := st ((adit 7 { Link.fresh with full := 0 }));
      let a : Fin 18 := 0;
      let port : Port := .ch0;
      let f : Bool := true;
      let st := aditState s.blk a;
      let full := (link s.blk a).full;
      decide (st = 7) && isSet s.blk (fAD_CTL_EN a) : Bool) = true ∧
    (let s : State := st ((put (fAD_CTL_EN 0) 0 (adit 0 Link.fresh)));
      let a : Fin 18 := 0;
      let port : Port := .ch0;
      let f : Bool := true;
      let st := aditState s.blk a;
      let full := (link s.blk a).full;
      actsNowNat s.blk port (rAD_CTL a) 1 && decide (isSet s.blk (fAD_CTL_EN a) = false) && decide (dom s.blk (domAdit a) ≠ 3) : Bool) = true := by
  decide +kernel

/-- Hypotheses of `AditIdent`, clause by clause. -/
theorem witness_AditIdent :
    (let s : State := st ((adit 4 Link.fresh));
      let a : Fin 18 := 0;
      let id : Nat := 1;
      let pa : Nat := 31;
      let step : Nat := 0;
      let b := setLink a { link s.blk a with ident := some (id, pa, step) } s.blk;
      decide (aditState s.blk a = 4) && decide (id = devId s.blk ∨ id = 0xFFFF ∨ devId s.blk = 0xFFFF) &&
      decide (aditState s.blk a = 4 ∨ (aditState s.blk a = 5 ∧ (link s.blk a).confirmed = false)) : Bool) = true ∧
    (let s : State := st ((adit 4 Link.fresh));
      let a : Fin 18 := 0;
      let id : Nat := 2;
      let pa : Nat := 31;
      let step : Nat := 0;
      let b := setLink a { link s.blk a with ident := some (id, pa, step) } s.blk;
      decide (aditState s.blk a = 4) && decide (id ≠ devId s.blk) && decide (id ≠ 0xFFFF) && decide (devId s.blk ≠ 0xFFFF) && decide ((link s.blk a).ident ≠ some (id, pa, step)) : Bool) = true ∧
    (let s : State := st ((adit 4 { Link.fresh with ident := some (2, 31, 0) }));
      let a : Fin 18 := 0;
      let id : Nat := 2;
      let pa : Nat := 31;
      let step : Nat := 0;
      let b := setLink a { link s.blk a with ident := some (id, pa, step) } s.blk;
      decide (aditState s.blk a = 4) && decide (id ≠ devId s.blk) && decide (id ≠ 0xFFFF) && decide (devId s.blk ≠ 0xFFFF) && decide ((link s.blk a).ident = some (id, pa, step)) && decide (id < 0xFFFF) && decide (pa < 32) : Bool) = true ∧
    (let s : State := st ((adit 5 Link.fresh));
      let a : Fin 18 := 0;
      let id : Nat := 2;
      let pa : Nat := 31;
      let step : Nat := 0;
      let b := setLink a { link s.blk a with ident := some (id, pa, step) } s.blk;
      decide (aditState s.blk a = 5) : Bool) = true := by
  decide +kernel

/-- Hypotheses of `LinkRetry`, clause by clause. -/
theorem witness_LinkRetry :
    (let s : State := st (up);
      let l : Fin 20 := 0;
      let count : Nat := 0;
      let number : Fin 4096 := 0;
      let errs : List Nat := [];
      let flit : List Byte := goodFlit;
      let x := link s.blk l;
      let acked := (count + 4096 - x.acked % 4096) % 4096;
      decide (linkUp s.blk l = false) && decide (x.bad.length ≤ 16) && decide (byteAt flit 2 ≤ 3 ∨ flitOk flit = false) : Bool) = true ∧
    (let s : State := st ((setLink 18 { Link.fresh with sinceAck := 31, rx := 4095 } (linked up)));
      let l : Fin 20 := 18;
      let count : Nat := 4095;
      let number : Fin 4096 := 4095;
      let errs : List Nat := [];
      let flit : List Byte := goodFlit;
      let x := link s.blk l;
      let acked := (count + 4096 - x.acked % 4096) % 4096;
      (linkUp s.blk l && decide (18 ≤ l.val ∨ x.confirmed = true) && decide (x.bad.length + uncorrectableWords errs ≤ 16) &&
      flitOk flit && decide (uncorrectableWords errs = 0) && decide (byteAt flit 2 = 1) && decide (number.val = x.rx) && decide (18 ≤ l.val) && decide (flit.length = 256) &&
      decide (x.sinceAck ≠ 0)) &&
      decide (x.tx < x.acked + acked) &&
      decide (x.buffer = []) : Bool) = true ∧
    (let s : State := st ((linked up));
      let l : Fin 20 := 18;
      let count : Nat := 0;
      let number : Fin 4096 := 0;
      let errs : List Nat := [];
      let flit : List Byte := [];
      let x := link s.blk l;
      let acked := (count + 4096 - x.acked % 4096) % 4096;
      linkUp s.blk l && decide (18 ≤ l.val ∨ x.confirmed = true) && decide (x.bad.length + uncorrectableWords errs ≤ 16) && decide (flitOk flit = false ∨ uncorrectableWords errs ≠ 0) && decide (x.nakSent = false) : Bool) = true ∧
    (let s : State := st ((setLink 18 { Link.fresh with tx := 5, acked := 4, buffer := [List.replicate 253 0] } (linked up)));
      let l : Fin 20 := 18;
      let count : Nat := 5;
      let number : Fin 4096 := 5;
      let errs : List Nat := [];
      let flit : List Byte := goodFlit;
      let x := link s.blk l;
      let acked := (count + 4096 - x.acked % 4096) % 4096;
      linkUp s.blk l && decide (18 ≤ l.val ∨ x.confirmed = true) && decide (x.bad.length + uncorrectableWords errs ≤ 16) && flitOk flit && decide (uncorrectableWords errs = 0) && decide (byteAt flit 2 = 1) && decide (number.val ≠ x.rx) && decide (x.nakSent = false) &&
      decide (x.acked + acked ≤ x.tx) &&
      (decide (x.buffer ≠ []) &&
      (let again := x.buffer.foldl (fun b c => emit (.flit l (flitBytes 1 c)) b) (setLink l { x with replays := x.replays + 1 } s.blk);
      decide (18 ≤ l.val))) : Bool) = true ∧
    (let s : State := st ((setLink 0 { Link.fresh with confirmed := true, tx := 1, buffer := [List.replicate 253 0] } (adit 5 Link.fresh)));
      let l : Fin 20 := 0;
      let count : Nat := 0;
      let number : Fin 4096 := 0;
      let errs : List Nat := [];
      let flit : List Byte := goodFlit;
      let x := link s.blk l;
      let acked := (count + 4096 - x.acked % 4096) % 4096;
      linkUp s.blk l && decide (18 ≤ l.val ∨ x.confirmed = true) && decide (x.bad.length + uncorrectableWords errs ≤ 16) && flitOk flit && decide (uncorrectableWords errs = 0) && decide (byteAt flit 2 = 1) && decide (number.val = x.rx) && decide (l.val < 18) &&
      (decide (x.buffer ≠ []) &&
      (let again := x.buffer.foldl (fun b c => emit (.flit l (flitBytes 1 c)) b) (setLink l { x with replays := x.replays + 1 } s.blk);
      decide (l.val < 18) && decide (x.replays < 15))) : Bool) = true ∧
    (let s : State := st ((setLink 0 { Link.fresh with confirmed := true, tx := 1, replays := 15, buffer := [List.replicate 253 0] } (adit 5 Link.fresh)));
      let l : Fin 20 := 0;
      let count : Nat := 0;
      let number : Fin 4096 := 0;
      let errs : List Nat := [];
      let flit : List Byte := goodFlit;
      let x := link s.blk l;
      let acked := (count + 4096 - x.acked % 4096) % 4096;
      decide (x.buffer ≠ []) &&
      (let again := x.buffer.foldl (fun b c => emit (.flit l (flitBytes 1 c)) b) (setLink l { x with replays := x.replays + 1 } s.blk);
      decide (l.val < 18) && decide (15 ≤ x.replays)) : Bool) = true ∧
    (let s : State := st ((setLink 18 { Link.fresh with nakSent := true } (linked up)));
      let l : Fin 20 := 18;
      let count : Nat := 0;
      let number : Fin 4096 := 5;
      let errs : List Nat := [];
      let flit : List Byte := goodFlit;
      let x := link s.blk l;
      let acked := (count + 4096 - x.acked % 4096) % 4096;
      linkUp s.blk l && decide (18 ≤ l.val ∨ x.confirmed = true) && decide (x.bad.length + uncorrectableWords errs ≤ 16) && x.nakSent && decide ((number.val ≠ x.rx ∧ byteAt flit 2 = 1) ∨ flitOk flit = false) : Bool) = true := by
  decide +kernel

/-- Hypotheses of `Forwarding`, clause by clause. -/
theorem witness_Forwarding :
    (let s : State := st ((adit 5 Link.fresh));
      let m : Msg := msg 2 3 1 [];
      decide (m.dst ≠ devId s.blk) &&
      (let b : Block := { s.blk with inbox := s.blk.inbox.erase m };
      match nextHop s.blk m.dst with
      | some p => decide (m.hops < 16)
      | _ => false) : Bool) = true ∧
    (let s : State := st ((adit 5 Link.fresh));
      let m : Msg := { msg 2 3 1 [] with hops := 16 };
      decide (m.dst ≠ devId s.blk) &&
      (let b : Block := { s.blk with inbox := s.blk.inbox.erase m };
      decide (nextHop s.blk m.dst = none ∨ 16 ≤ m.hops)) : Bool) = true := by
  decide +kernel

/-- Hypotheses of `Forming`, clause by clause. -/
theorem witness_Forming :
    (let s : State := st ((regions up));
      let port : Port := .ch0;
      let v : W32 := 1;
      actsNow s.blk port rGG_CTL v &&
      (let b := storeRw rGG_CTL v (granted port (rGG_CTL / 4096) s.blk);
      decide (v = 1) &&
      (match gangRegions b with
      | some r => decide (role s.blk = 0)
      | _ => false)) : Bool) = true ∧
    (let s : State := st ((put fGG_DEV_ID_ID 1 (regions up)));
      let port : Port := .ch0;
      let v : W32 := 2;
      actsNow s.blk port rGG_CTL v &&
      (let b := storeRw rGG_CTL v (granted port (rGG_CTL / 4096) s.blk);
      decide (v = 2) &&
      (match gangRegions b with
      | some r => decide (role s.blk = 0 ∨ role s.blk = 3) &&
        (let k := if role s.blk = 0 then keepRegions r b else b;
        let p := readProposed k;
        let t := put fGG_STATE_TAKEN 1 (setGang (fun g => { g with taken := some p.1, takenBad := p.2, nextTaken := false, routeOut := [], routeSent := false, routeBad := none }) k);
        decide (role s.blk = 0) &&
        (match tableRule t p.1 p.2 with
        | some e => true
        | _ => false))
      | _ => false)) : Bool) = true ∧
    (let s : State := st ((member 1 (regions up)));
      let port : Port := .ch0;
      let v : W32 := 2;
      actsNow s.blk port rGG_CTL v &&
      (let b := storeRw rGG_CTL v (granted port (rGG_CTL / 4096) s.blk);
      decide (v = 2) &&
      (match gangRegions b with
      | some r => decide (role s.blk = 0 ∨ role s.blk = 3) &&
        (let k := if role s.blk = 0 then keepRegions r b else b;
        let p := readProposed k;
        let t := put fGG_STATE_TAKEN 1 (setGang (fun g => { g with taken := some p.1, takenBad := p.2, nextTaken := false, routeOut := [], routeSent := false, routeBad := none }) k);
        decide (role s.blk = 3))
      | _ => false)) : Bool) = true ∧
    (let s : State := st (up);
      let port : Port := .ch0;
      let v : W32 := 4;
      actsNow s.blk port rGG_CTL v &&
      (let b := storeRw rGG_CTL v (granted port (rGG_CTL / 4096) s.blk);
      decide (v = 4)) : Bool) = true ∧
    (let s : State := st ((forming [2] id));
      let port : Port := .ch0;
      match s.blk.gang.taken with
      | some t => decide (role s.blk = 0) && decide (allAsked s.blk t = false)
      | _ => false : Bool) = true ∧
    (let s : State := st ((forming [2, 3] (fun g => { g with routeBad := some 3 })));
      let port : Port := .ch0;
      match s.blk.gang.taken with
      | some t => decide (role s.blk = 0) && allAsked s.blk t && s.blk.gang.routeSent &&
        (match s.blk.gang.routeBad with
        | some d => true
        | _ => false)
      | _ => false : Bool) = true ∧
    (let s : State := st ((forming [2, 3] id));
      let port : Port := .ch0;
      match s.blk.gang.taken with
      | some t => decide (role s.blk = 0) && allAsked s.blk t && s.blk.gang.routeSent && decide (s.blk.gang.routeBad = none) && decide (s.blk.gang.routeOut = [])
      | _ => false : Bool) = true ∧
    (let s : State := st ((forming [2, 3] (fun g => { g with routeOut := [(2, 0)] })));
      let port : Port := .ch0;
      match s.blk.gang.taken with
      | some t => decide (role s.blk = 0) &&
        (match s.blk.gang.routeOut with
        | (d, p) :: rest => decide (s.blk.gang.routeBad = none)
        | _ => false)
      | _ => false : Bool) = true ∧
    (let s : State := st ((put fGG_DEV_ID_ID 2 (put fGG_JOIN_MASTER 1 (put fGG_STATE_JOINING 1 up))));
      let port : Port := .ch0;
      isSet s.blk fGG_STATE_JOINING &&
      (let src := 1;
      decide (role s.blk ≠ 1) && decide (role s.blk ≠ 2) && decide (s.blk.gang.taken = none)) &&
      (let src : Nat := 1;
      let epoch : Nat := 0;
      let barrier : Nat := 5;
      let heartbeat : Nat := 6;
      let t : Tables := { table3 with gen := 65535 };
      let present := (tblIds t).contains (devId s.blk);
      present && decide (role s.blk = 0) && isSet s.blk fGG_STATE_JOINING && decide (src = get s.blk fGG_JOIN_MASTER) && decide (t.gen < 65536)) : Bool) = true ∧
    (let s : State := st ((member 2 up));
      let port : Port := .ch0;
      (let src := 1;
      decide (role s.blk = 1 ∨ role s.blk = 2)) &&
      (let src : Nat := 1;
      let epoch : Nat := 0;
      let barrier : Nat := 5;
      let heartbeat : Nat := 6;
      let t : Tables := { table3 with gen := 2 };
      let present := (tblIds t).contains (devId s.blk);
      decide (role s.blk ≠ 0) && decide (src = masterId s.blk ∨ src = t.master) &&
      (let mgen : Nat := gen s.blk;
      newer16 t.gen (gen s.blk) &&
      (let b := setGang (fun x => { x with heldGang := x.heldGang.erase (src, mgen, .tables epoch t barrier heartbeat) }) (hears src s.blk);
      decide (present = true ∨ pitState s.blk ≠ 6)))) : Bool) = true ∧
    (let s : State := st ((put fGG_PIT_STATE 6 (member 2 up)));
      let port : Port := .ch0;
      let src : Nat := 1;
      let epoch : Nat := 0;
      let barrier : Nat := 5;
      let heartbeat : Nat := 6;
      let t : Tables := { table3 with gen := 2, members := [(1, 1)] };
      let present := (tblIds t).contains (devId s.blk);
      decide (role s.blk ≠ 0) && decide (src = masterId s.blk ∨ src = t.master) &&
      (let mgen : Nat := gen s.blk;
      newer16 t.gen (gen s.blk) &&
      (let b := setGang (fun x => { x with heldGang := x.heldGang.erase (src, mgen, .tables epoch t barrier heartbeat) }) (hears src s.blk);
      decide (present = false) && decide (pitState s.blk = 6))) : Bool) = true := by
  decide +kernel

/-- Hypotheses of `RouteQuestions`, clause by clause. -/
theorem witness_RouteQuestions :
    (let s : State := st ((member 1 up));
      let a : Fin 18 := 17;
      let m : Msg := msg 1 2 5 ([0x30, 0, 2, 0, 2, 0, 7, 0] ++ List.replicate 8 0 ++ [2, 0, 3, 0] ++ List.replicate 4 0);
      decide (m.cls = 5) &&
      (let p := m.payload;
      let b : Block := { s.blk with inbox := s.blk.inbox.erase m };
      decide (byteAt p 0 = 0x30) && decide (role s.blk ≠ 0 ∨ m.src = get s.blk fGG_JOIN_MASTER) &&
      (let n := fieldAt p 4 2;
      let bad := ((List.range n).map (fun i => fieldAt p (16 + 2 * i) 2)).find? (fun d => !hasRoute b d);
      decide (byteAt p 1 = 0) && zeroAt p 8 8 && decide (1 ≤ n) && decide (n ≤ 2040) && decide (16 + 2 * n ≤ p.length))) : Bool) = true ∧
    (let s : State := st ((member 1 up));
      let a : Fin 18 := 17;
      let m : Msg := msg 1 2 5 ([0x30, 0, 2, 0, 0, 0, 7, 0] ++ List.replicate 8 0);
      decide (m.cls = 5) &&
      (let p := m.payload;
      let b : Block := { s.blk with inbox := s.blk.inbox.erase m };
      decide (byteAt p 0 = 0x30) && decide (role s.blk ≠ 0 ∨ m.src = get s.blk fGG_JOIN_MASTER) &&
      (let n := fieldAt p 4 2;
      let bad := ((List.range n).map (fun i => fieldAt p (16 + 2 * i) 2)).find? (fun d => !hasRoute b d);
      decide (byteAt p 1 ≠ 0 ∨ n = 0 ∨ 2040 < n))) : Bool) = true ∧
    (let s : State := st ((setGang (fun g => { g with taken := some table3, routeOut := [(2, 7)] }) (member 1 up)));
      let a : Fin 18 := 17;
      let m : Msg := msg 1 2 5 ([0x31, 1, 2, 0, 7, 0, 0, 0] ++ List.replicate 8 0);
      decide (m.cls = 5) &&
      (let p := m.payload;
      let b : Block := { s.blk with inbox := s.blk.inbox.erase m };
      decide (byteAt p 0 = 0x31) && decide (p.length = 16) && zeroAt p 8 8 && s.blk.gang.taken.isSome && decide (fieldAt p 2 2 = copyGen s.blk) && s.blk.gang.routeOut.contains (m.src, fieldAt p 4 2) &&
      (let off := setGang (fun g => { g with routeOut := g.routeOut.erase (m.src, fieldAt p 4 2) }) b;
      decide (byteAt p 1 = 1))) : Bool) = true ∧
    (let s : State := st ((setGang (fun g => { g with taken := some table3, routeOut := [(2, 7)] }) (member 1 up)));
      let a : Fin 18 := 17;
      let m : Msg := msg 1 2 5 ([0x31, 2, 2, 0, 7, 0, 0, 0] ++ List.replicate 8 0);
      decide (m.cls = 5) &&
      (let p := m.payload;
      let b : Block := { s.blk with inbox := s.blk.inbox.erase m };
      decide (byteAt p 0 = 0x31) && decide (p.length = 16) && zeroAt p 8 8 && s.blk.gang.taken.isSome && decide (fieldAt p 2 2 = copyGen s.blk) && s.blk.gang.routeOut.contains (m.src, fieldAt p 4 2) &&
      (let off := setGang (fun g => { g with routeOut := g.routeOut.erase (m.src, fieldAt p 4 2) }) b;
      decide (byteAt p 1 = 2) && decide (s.blk.gang.routeBad = none))) : Bool) = true := by
  decide +kernel

/-- Hypotheses of `GenerationGate`, clause by clause. -/
theorem witness_GenerationGate :
    (let s : State := st ((member 2 up));
      let src : Nat := 1;
      let mgen : Nat := 0;
      let epoch : Nat := 0;
      let dev : Nat := 3;
      let tally : Nat := 7;
      let grp : Nat := 0;
      let waits : Nat := 3;
      let barrier : Nat := 0;
      let beat : Nat := 0;
      let t : Tables := table3;
      decide (role s.blk ≠ 0) &&
      (let i : Instr := .heartbeatRow 1 0;
      let g : GangMsg := .heartbeat;
      decide ((i = .heartbeatRow src mgen ∧ g = .heartbeat) ∨ (i = .heartbeatAnswerRow src mgen ∧ g = .heartbeatAnswer) ∨ (i = .failureDeclaration src mgen dev ∧ g = .declaration dev) ∨ (i = .takeoverRequestRow src mgen ∧ g = .takeoverRequest) ∨ (i = .takeoverAckRow src mgen ∧ g = .takeoverAck) ∨ (i = .waitReport src mgen tally grp waits ∧ g = .waitReport tally grp waits) ∨ (i = .adoptedTables src mgen epoch t barrier beat ∧ g = .tables epoch t barrier beat)) && newer16 (gen s.blk) mgen) : Bool) = true ∧
    (let s : State := st ((member 2 up));
      let src : Nat := 1;
      let mgen : Nat := 2;
      let epoch : Nat := 0;
      let dev : Nat := 3;
      let tally : Nat := 7;
      let grp : Nat := 0;
      let waits : Nat := 3;
      let barrier : Nat := 0;
      let beat : Nat := 0;
      let t : Tables := table3;
      decide (role s.blk ≠ 0) &&
      (let i : Instr := .heartbeatRow 1 2;
      let g : GangMsg := .heartbeat;
      decide ((i = .heartbeatRow src mgen ∧ g = .heartbeat) ∨ (i = .heartbeatAnswerRow src mgen ∧ g = .heartbeatAnswer) ∨ (i = .failureDeclaration src mgen dev ∧ g = .declaration dev) ∨ (i = .takeoverRequestRow src mgen ∧ g = .takeoverRequest) ∨ (i = .takeoverAckRow src mgen ∧ g = .takeoverAck) ∨ (i = .waitReport src mgen tally grp waits ∧ g = .waitReport tally grp waits) ∨ (i = .adoptedTables src mgen epoch t barrier beat ∧ g = .tables epoch t barrier beat)) && decide (newer16 (gen s.blk) mgen = false) && newer16 mgen (gen s.blk)) : Bool) = true := by
  decide +kernel

/-- Hypotheses of `Liveness`, clause by clause. -/
theorem witness_Liveness :
    (let s : State := st ((member 1 up));
      let src : Nat := 2;
      let dev : Nat := 3;
      decide (role s.blk ≠ 0) &&
      (let got := fun (g : GangMsg) => setGang (fun x => { x with heldGang := x.heldGang.erase (src, gen s.blk, g) }) (hears src s.blk);
      decide (role s.blk = 3) &&
      dispatcherRuns s.blk &&
      (others s.blk).contains src &&
      (others s.blk).contains dev &&
      (let b := setGang (fun g => { g with heard := setErase g.heard dev }) s.blk;
      quorum b)) : Bool) = true ∧
    (let s : State := st ((setGang (fun g => { g with heard := [3] }) (member 1 up)));
      let src : Nat := 2;
      let dev : Nat := 3;
      decide (role s.blk ≠ 0) &&
      (let got := fun (g : GangMsg) => setGang (fun x => { x with heldGang := x.heldGang.erase (src, gen s.blk, g) }) (hears src s.blk);
      decide (role s.blk = 3) && (others s.blk).contains dev &&
      (let b := setGang (fun g => { g with heard := setErase g.heard dev }) s.blk;
      decide (quorum b = false))) : Bool) = true ∧
    (let s : State := st ((member 3 up));
      let src : Nat := 1;
      let dev : Nat := 2;
      decide (role s.blk ≠ 0) &&
      (let got := fun (g : GangMsg) => setGang (fun x => { x with heldGang := x.heldGang.erase (src, gen s.blk, g) }) (hears src s.blk);
      (decide (src = masterId s.blk) &&
      dispatcherRuns s.blk &&
      decide (dev ≠ devId s.blk) && decide (role s.blk ≠ 2)) &&
      s.blk.gang.cur.isSome && decide (src = masterId s.blk) &&
      decide (role s.blk = 1) && decide (pitState s.blk ≠ 6) && decide (s.blk.gang.masterQuiet = false)) : Bool) = true ∧
    (let s : State := st ((member 2 up));
      let src : Nat := 1;
      let dev : Nat := 3;
      decide (role s.blk ≠ 0) &&
      (let got := fun (g : GangMsg) => setGang (fun x => { x with heldGang := x.heldGang.erase (src, gen s.blk, g) }) (hears src s.blk);
      decide (src = masterId s.blk) && decide (dev ≠ devId s.blk) && decide (role s.blk = 2) && decide (s.blk.gang.loggedDev.contains dev = false) &&
      decide (role s.blk = 2) && decide (pitState s.blk ≠ 6) && decide (s.blk.gang.takingOver = false) && decide (s.blk.gang.stopped = false)) : Bool) = true ∧
    (let s : State := st ((setGang (fun g => { g with masterQuiet := true }) (member 3 up)));
      let src : Nat := 2;
      let dev : Nat := 3;
      decide (role s.blk ≠ 0) &&
      (let got := fun (g : GangMsg) => setGang (fun x => { x with heldGang := x.heldGang.erase (src, gen s.blk, g) }) (hears src s.blk);
      s.blk.gang.masterQuiet && decide (liveDeputy s.blk = some src) && decide (src ≠ masterId s.blk)) : Bool) = true ∧
    (let s : State := st ((setGang (fun g => { g with takingOver := true, masterQuiet := true }) (member 2 up)));
      let src : Nat := 3;
      let dev : Nat := 3;
      decide (role s.blk ≠ 0) &&
      (let got := fun (g : GangMsg) => setGang (fun x => { x with heldGang := x.heldGang.erase (src, gen s.blk, g) }) (hears src s.blk);
      decide (role s.blk = 2) && s.blk.gang.takingOver && (others s.blk).contains src &&
      s.blk.gang.takingOver) : Bool) = true ∧
    (let s : State := st ((put fSC_DISPATCH_WHO 2 (member 3 up)));
      let src : Nat := 1;
      let dev : Nat := 3;
      decide (role s.blk ≠ 0) &&
      (let got := fun (g : GangMsg) => setGang (fun x => { x with heldGang := x.heldGang.erase (src, gen s.blk, g) }) (hears src s.blk);
      decide (src = masterId s.blk) &&
      decide (dispatcherRuns s.blk = false) &&
      decide (dev = devId s.blk)) : Bool) = true ∧
    (let s : State := st ((setGang (fun g => { g with masterQuiet := true, cur := some { table3 with deputy := 0xFFFF } }) (member 3 up)));
      let src : Nat := 1;
      let dev : Nat := 3;
      decide (role s.blk ≠ 0) &&
      (let got := fun (g : GangMsg) => setGang (fun x => { x with heldGang := x.heldGang.erase (src, gen s.blk, g) }) (hears src s.blk);
      decide (role s.blk = 1) && decide (pitState s.blk ≠ 6) && s.blk.gang.masterQuiet && decide (liveDeputy s.blk = none)) : Bool) = true := by
  decide +kernel

/-- Hypotheses of `CollectiveDispatch`, clause by clause. -/
theorem witness_CollectiveDispatch :
    (let s : State := st ((dispatches 2 (collDesc 1 1 0 0x8000 0x1000)));
      let q : Fin 512 := 0;
      let n : Nat := 0;
      let m : Cmd := cmd .dispatched (collDesc 1 1 0 0x8000 0x1000);
      hostClear s.blk && decide (findCmd s.blk q n = some m) && decide (m.queue = q.val) && decide (m.count = n) && decide (m.stage = .dispatched) && decide (m.cls = 0x06) &&
      (let kind := byteAt m.desc 0x3C % 8;
      decide (kind = 1) &&
      (let out : Host.Outcome State Fault Refusal := (exec (.reduceScatter q n) s);
      let bid := fieldAt m.desc 0x34 2;
      let g := fieldAt m.desc 0x36 2;
      let run := setCmd { m with stage := .running } s.blk;
      newer16 g (mapGet 0 s.blk.lastGen bid) &&
      (match groupOf s.blk (fieldAt m.desc 0x38 2) with
      | some grp => match posOf grp.drift (devId s.blk) with
        | some p => let c := collNew s.blk m grp p;
          decide (collCheck c = none)
        | _ => false
      | _ => false))) : Bool) = true ∧
    (let s : State := st ((dispatches 2 (collDesc 1 0 0 0 0x1000)));
      let q : Fin 512 := 0;
      let n : Nat := 0;
      let m : Cmd := cmd .dispatched (collDesc 1 0 0 0 0x1000);
      hostClear s.blk && decide (findCmd s.blk q n = some m) && decide (m.queue = q.val) && decide (m.count = n) && decide (m.stage = .dispatched) && decide (m.cls = 0x06) &&
      (let kind := byteAt m.desc 0x3C % 8;
      decide (kind = 1) &&
      (let out : Host.Outcome State Fault Refusal := (exec (.reduceScatter q n) s);
      let bid := fieldAt m.desc 0x34 2;
      let g := fieldAt m.desc 0x36 2;
      let run := setCmd { m with stage := .running } s.blk;
      decide (newer16 g (mapGet 0 s.blk.lastGen bid) = false))) : Bool) = true ∧
    (let s : State := st ((dispatches 2 (collDesc 1 1 5 0 0x1000)));
      let q : Fin 512 := 0;
      let n : Nat := 0;
      let m : Cmd := cmd .dispatched (collDesc 1 1 5 0 0x1000);
      hostClear s.blk && decide (findCmd s.blk q n = some m) && decide (m.queue = q.val) && decide (m.count = n) && decide (m.stage = .dispatched) && decide (m.cls = 0x06) &&
      (let kind := byteAt m.desc 0x3C % 8;
      decide (kind = 1) &&
      (let out : Host.Outcome State Fault Refusal := (exec (.reduceScatter q n) s);
      let bid := fieldAt m.desc 0x34 2;
      let g := fieldAt m.desc 0x36 2;
      let run := setCmd { m with stage := .running } s.blk;
      newer16 g (mapGet 0 s.blk.lastGen bid) && decide (groupOf s.blk (fieldAt m.desc 0x38 2) = none))) : Bool) = true ∧
    (let s : State := st ((dispatches 4 (collDesc 1 1 0 0 0x1000)));
      let q : Fin 512 := 0;
      let n : Nat := 0;
      let m : Cmd := cmd .dispatched (collDesc 1 1 0 0 0x1000);
      hostClear s.blk && decide (findCmd s.blk q n = some m) && decide (m.queue = q.val) && decide (m.count = n) && decide (m.stage = .dispatched) && decide (m.cls = 0x06) &&
      (let kind := byteAt m.desc 0x3C % 8;
      decide (kind = 1) &&
      (let out : Host.Outcome State Fault Refusal := (exec (.reduceScatter q n) s);
      let bid := fieldAt m.desc 0x34 2;
      let g := fieldAt m.desc 0x36 2;
      let run := setCmd { m with stage := .running } s.blk;
      newer16 g (mapGet 0 s.blk.lastGen bid) &&
      (match groupOf s.blk (fieldAt m.desc 0x38 2) with
      | some grp => decide (posOf grp.drift (devId s.blk) = none)
      | _ => false))) : Bool) = true ∧
    (let s : State := st ((dispatches 2 (collDesc 1 1 0 0x1040 0x1000)));
      let q : Fin 512 := 0;
      let n : Nat := 0;
      let m : Cmd := cmd .dispatched (collDesc 1 1 0 0x1040 0x1000);
      hostClear s.blk && decide (findCmd s.blk q n = some m) && decide (m.queue = q.val) && decide (m.count = n) && decide (m.stage = .dispatched) && decide (m.cls = 0x06) &&
      (let kind := byteAt m.desc 0x3C % 8;
      decide (kind = 1) &&
      (let out : Host.Outcome State Fault Refusal := (exec (.reduceScatter q n) s);
      let bid := fieldAt m.desc 0x34 2;
      let g := fieldAt m.desc 0x36 2;
      let run := setCmd { m with stage := .running } s.blk;
      newer16 g (mapGet 0 s.blk.lastGen bid) &&
      (match groupOf s.blk (fieldAt m.desc 0x38 2) with
      | some grp => match posOf grp.drift (devId s.blk) with
        | some p => let c := collNew s.blk m grp p;
          match collCheck c with
          | some o => true
          | _ => false
        | _ => false
      | _ => false))) : Bool) = true ∧
    (let s : State := st ((dispatches 2 (collDesc 2 1 0 0x8000 0x1000)));
      let q : Fin 512 := 0;
      let n : Nat := 0;
      let m : Cmd := cmd .dispatched (collDesc 2 1 0 0x8000 0x1000);
      hostClear s.blk && decide (findCmd s.blk q n = some m) && decide (m.queue = q.val) && decide (m.count = n) && decide (m.stage = .dispatched) && decide (m.cls = 0x06) &&
      (let kind := byteAt m.desc 0x3C % 8;
      decide (kind = 2) &&
      (let out : Host.Outcome State Fault Refusal := (exec (.allGather q n) s);
      let bid := fieldAt m.desc 0x34 2;
      let g := fieldAt m.desc 0x36 2;
      let run := setCmd { m with stage := .running } s.blk;
      newer16 g (mapGet 0 s.blk.lastGen bid) &&
      (match groupOf s.blk (fieldAt m.desc 0x38 2) with
      | some grp => match posOf grp.drift (devId s.blk) with
        | some p => let c := collNew s.blk m grp p;
          decide (collCheck c = none)
        | _ => false
      | _ => false))) : Bool) = true ∧
    (let s : State := st ((dispatches 2 (collDesc 2 0 0 0 0x1000)));
      let q : Fin 512 := 0;
      let n : Nat := 0;
      let m : Cmd := cmd .dispatched (collDesc 2 0 0 0 0x1000);
      hostClear s.blk && decide (findCmd s.blk q n = some m) && decide (m.queue = q.val) && decide (m.count = n) && decide (m.stage = .dispatched) && decide (m.cls = 0x06) &&
      (let kind := byteAt m.desc 0x3C % 8;
      decide (kind = 2) &&
      (let out : Host.Outcome State Fault Refusal := (exec (.allGather q n) s);
      let bid := fieldAt m.desc 0x34 2;
      let g := fieldAt m.desc 0x36 2;
      let run := setCmd { m with stage := .running } s.blk;
      decide (newer16 g (mapGet 0 s.blk.lastGen bid) = false))) : Bool) = true ∧
    (let s : State := st ((dispatches 2 (collDesc 2 1 5 0 0x1000)));
      let q : Fin 512 := 0;
      let n : Nat := 0;
      let m : Cmd := cmd .dispatched (collDesc 2 1 5 0 0x1000);
      hostClear s.blk && decide (findCmd s.blk q n = some m) && decide (m.queue = q.val) && decide (m.count = n) && decide (m.stage = .dispatched) && decide (m.cls = 0x06) &&
      (let kind := byteAt m.desc 0x3C % 8;
      decide (kind = 2) &&
      (let out : Host.Outcome State Fault Refusal := (exec (.allGather q n) s);
      let bid := fieldAt m.desc 0x34 2;
      let g := fieldAt m.desc 0x36 2;
      let run := setCmd { m with stage := .running } s.blk;
      newer16 g (mapGet 0 s.blk.lastGen bid) && decide (groupOf s.blk (fieldAt m.desc 0x38 2) = none))) : Bool) = true ∧
    (let s : State := st ((dispatches 4 (collDesc 2 1 0 0 0x1000)));
      let q : Fin 512 := 0;
      let n : Nat := 0;
      let m : Cmd := cmd .dispatched (collDesc 2 1 0 0 0x1000);
      hostClear s.blk && decide (findCmd s.blk q n = some m) && decide (m.queue = q.val) && decide (m.count = n) && decide (m.stage = .dispatched) && decide (m.cls = 0x06) &&
      (let kind := byteAt m.desc 0x3C % 8;
      decide (kind = 2) &&
      (let out : Host.Outcome State Fault Refusal := (exec (.allGather q n) s);
      let bid := fieldAt m.desc 0x34 2;
      let g := fieldAt m.desc 0x36 2;
      let run := setCmd { m with stage := .running } s.blk;
      newer16 g (mapGet 0 s.blk.lastGen bid) &&
      (match groupOf s.blk (fieldAt m.desc 0x38 2) with
      | some grp => decide (posOf grp.drift (devId s.blk) = none)
      | _ => false))) : Bool) = true ∧
    (let s : State := st ((dispatches 2 (collDesc 2 1 0 0x1040 0x1000)));
      let q : Fin 512 := 0;
      let n : Nat := 0;
      let m : Cmd := cmd .dispatched (collDesc 2 1 0 0x1040 0x1000);
      hostClear s.blk && decide (findCmd s.blk q n = some m) && decide (m.queue = q.val) && decide (m.count = n) && decide (m.stage = .dispatched) && decide (m.cls = 0x06) &&
      (let kind := byteAt m.desc 0x3C % 8;
      decide (kind = 2) &&
      (let out : Host.Outcome State Fault Refusal := (exec (.allGather q n) s);
      let bid := fieldAt m.desc 0x34 2;
      let g := fieldAt m.desc 0x36 2;
      let run := setCmd { m with stage := .running } s.blk;
      newer16 g (mapGet 0 s.blk.lastGen bid) &&
      (match groupOf s.blk (fieldAt m.desc 0x38 2) with
      | some grp => match posOf grp.drift (devId s.blk) with
        | some p => let c := collNew s.blk m grp p;
          match collCheck c with
          | some o => true
          | _ => false
        | _ => false
      | _ => false))) : Bool) = true ∧
    (let s : State := st ((dispatches 2 (collDesc 3 1 0 0x8000 0x1000)));
      let q : Fin 512 := 0;
      let n : Nat := 0;
      let m : Cmd := cmd .dispatched (collDesc 3 1 0 0x8000 0x1000);
      hostClear s.blk && decide (findCmd s.blk q n = some m) && decide (m.queue = q.val) && decide (m.count = n) && decide (m.stage = .dispatched) && decide (m.cls = 0x06) &&
      (let kind := byteAt m.desc 0x3C % 8;
      decide (kind = 3) &&
      (let out : Host.Outcome State Fault Refusal := (exec (.broadcast q n) s);
      let bid := fieldAt m.desc 0x34 2;
      let g := fieldAt m.desc 0x36 2;
      let run := setCmd { m with stage := .running } s.blk;
      newer16 g (mapGet 0 s.blk.lastGen bid) &&
      (match groupOf s.blk (fieldAt m.desc 0x38 2) with
      | some grp => match posOf grp.drift (devId s.blk) with
        | some p => let c := collNew s.blk m grp p;
          decide (collCheck c = none)
        | _ => false
      | _ => false))) : Bool) = true ∧
    (let s : State := st ((dispatches 2 (collDesc 3 0 0 0 0x1000)));
      let q : Fin 512 := 0;
      let n : Nat := 0;
      let m : Cmd := cmd .dispatched (collDesc 3 0 0 0 0x1000);
      hostClear s.blk && decide (findCmd s.blk q n = some m) && decide (m.queue = q.val) && decide (m.count = n) && decide (m.stage = .dispatched) && decide (m.cls = 0x06) &&
      (let kind := byteAt m.desc 0x3C % 8;
      decide (kind = 3) &&
      (let out : Host.Outcome State Fault Refusal := (exec (.broadcast q n) s);
      let bid := fieldAt m.desc 0x34 2;
      let g := fieldAt m.desc 0x36 2;
      let run := setCmd { m with stage := .running } s.blk;
      decide (newer16 g (mapGet 0 s.blk.lastGen bid) = false))) : Bool) = true ∧
    (let s : State := st ((dispatches 2 (collDesc 3 1 5 0 0x1000)));
      let q : Fin 512 := 0;
      let n : Nat := 0;
      let m : Cmd := cmd .dispatched (collDesc 3 1 5 0 0x1000);
      hostClear s.blk && decide (findCmd s.blk q n = some m) && decide (m.queue = q.val) && decide (m.count = n) && decide (m.stage = .dispatched) && decide (m.cls = 0x06) &&
      (let kind := byteAt m.desc 0x3C % 8;
      decide (kind = 3) &&
      (let out : Host.Outcome State Fault Refusal := (exec (.broadcast q n) s);
      let bid := fieldAt m.desc 0x34 2;
      let g := fieldAt m.desc 0x36 2;
      let run := setCmd { m with stage := .running } s.blk;
      newer16 g (mapGet 0 s.blk.lastGen bid) && decide (groupOf s.blk (fieldAt m.desc 0x38 2) = none))) : Bool) = true ∧
    (let s : State := st ((dispatches 4 (collDesc 3 1 0 0 0x1000)));
      let q : Fin 512 := 0;
      let n : Nat := 0;
      let m : Cmd := cmd .dispatched (collDesc 3 1 0 0 0x1000);
      hostClear s.blk && decide (findCmd s.blk q n = some m) && decide (m.queue = q.val) && decide (m.count = n) && decide (m.stage = .dispatched) && decide (m.cls = 0x06) &&
      (let kind := byteAt m.desc 0x3C % 8;
      decide (kind = 3) &&
      (let out : Host.Outcome State Fault Refusal := (exec (.broadcast q n) s);
      let bid := fieldAt m.desc 0x34 2;
      let g := fieldAt m.desc 0x36 2;
      let run := setCmd { m with stage := .running } s.blk;
      newer16 g (mapGet 0 s.blk.lastGen bid) &&
      (match groupOf s.blk (fieldAt m.desc 0x38 2) with
      | some grp => decide (posOf grp.drift (devId s.blk) = none)
      | _ => false))) : Bool) = true ∧
    (let s : State := st ((dispatches 2 ((collDesc 3 1 0 0x8000 0x1000).set 0x3A 5)));
      let q : Fin 512 := 0;
      let n : Nat := 0;
      let m : Cmd := cmd .dispatched ((collDesc 3 1 0 0x8000 0x1000).set 0x3A 5);
      hostClear s.blk && decide (findCmd s.blk q n = some m) && decide (m.queue = q.val) && decide (m.count = n) && decide (m.stage = .dispatched) && decide (m.cls = 0x06) &&
      (let kind := byteAt m.desc 0x3C % 8;
      decide (kind = 3) &&
      (let out : Host.Outcome State Fault Refusal := (exec (.broadcast q n) s);
      let bid := fieldAt m.desc 0x34 2;
      let g := fieldAt m.desc 0x36 2;
      let run := setCmd { m with stage := .running } s.blk;
      newer16 g (mapGet 0 s.blk.lastGen bid) &&
      (match groupOf s.blk (fieldAt m.desc 0x38 2) with
      | some grp => match posOf grp.drift (devId s.blk) with
        | some p => let c := collNew s.blk m grp p;
          match collCheck c with
          | some o => true
          | _ => false
        | _ => false
      | _ => false))) : Bool) = true ∧
    (let s : State := st ((dispatches 2 (collDesc 4 1 0 0x8000 0x1000)));
      let q : Fin 512 := 0;
      let n : Nat := 0;
      let m : Cmd := cmd .dispatched (collDesc 4 1 0 0x8000 0x1000);
      hostClear s.blk && decide (findCmd s.blk q n = some m) && decide (m.queue = q.val) && decide (m.count = n) && decide (m.stage = .dispatched) && decide (m.cls = 0x06) &&
      (let kind := byteAt m.desc 0x3C % 8;
      decide (kind = 4) &&
      (let out : Host.Outcome State Fault Refusal := (exec (.shift q n) s);
      let bid := fieldAt m.desc 0x34 2;
      let g := fieldAt m.desc 0x36 2;
      let run := setCmd { m with stage := .running } s.blk;
      newer16 g (mapGet 0 s.blk.lastGen bid) &&
      (match groupOf s.blk (fieldAt m.desc 0x38 2) with
      | some grp => match posOf grp.drift (devId s.blk) with
        | some p => let c := collNew s.blk m grp p;
          decide (collCheck c = none)
        | _ => false
      | _ => false))) : Bool) = true ∧
    (let s : State := st ((dispatches 2 (collDesc 4 0 0 0 0x1000)));
      let q : Fin 512 := 0;
      let n : Nat := 0;
      let m : Cmd := cmd .dispatched (collDesc 4 0 0 0 0x1000);
      hostClear s.blk && decide (findCmd s.blk q n = some m) && decide (m.queue = q.val) && decide (m.count = n) && decide (m.stage = .dispatched) && decide (m.cls = 0x06) &&
      (let kind := byteAt m.desc 0x3C % 8;
      decide (kind = 4) &&
      (let out : Host.Outcome State Fault Refusal := (exec (.shift q n) s);
      let bid := fieldAt m.desc 0x34 2;
      let g := fieldAt m.desc 0x36 2;
      let run := setCmd { m with stage := .running } s.blk;
      decide (newer16 g (mapGet 0 s.blk.lastGen bid) = false))) : Bool) = true ∧
    (let s : State := st ((dispatches 2 (collDesc 4 1 5 0 0x1000)));
      let q : Fin 512 := 0;
      let n : Nat := 0;
      let m : Cmd := cmd .dispatched (collDesc 4 1 5 0 0x1000);
      hostClear s.blk && decide (findCmd s.blk q n = some m) && decide (m.queue = q.val) && decide (m.count = n) && decide (m.stage = .dispatched) && decide (m.cls = 0x06) &&
      (let kind := byteAt m.desc 0x3C % 8;
      decide (kind = 4) &&
      (let out : Host.Outcome State Fault Refusal := (exec (.shift q n) s);
      let bid := fieldAt m.desc 0x34 2;
      let g := fieldAt m.desc 0x36 2;
      let run := setCmd { m with stage := .running } s.blk;
      newer16 g (mapGet 0 s.blk.lastGen bid) && decide (groupOf s.blk (fieldAt m.desc 0x38 2) = none))) : Bool) = true ∧
    (let s : State := st ((dispatches 4 (collDesc 4 1 0 0 0x1000)));
      let q : Fin 512 := 0;
      let n : Nat := 0;
      let m : Cmd := cmd .dispatched (collDesc 4 1 0 0 0x1000);
      hostClear s.blk && decide (findCmd s.blk q n = some m) && decide (m.queue = q.val) && decide (m.count = n) && decide (m.stage = .dispatched) && decide (m.cls = 0x06) &&
      (let kind := byteAt m.desc 0x3C % 8;
      decide (kind = 4) &&
      (let out : Host.Outcome State Fault Refusal := (exec (.shift q n) s);
      let bid := fieldAt m.desc 0x34 2;
      let g := fieldAt m.desc 0x36 2;
      let run := setCmd { m with stage := .running } s.blk;
      newer16 g (mapGet 0 s.blk.lastGen bid) &&
      (match groupOf s.blk (fieldAt m.desc 0x38 2) with
      | some grp => decide (posOf grp.drift (devId s.blk) = none)
      | _ => false))) : Bool) = true ∧
    (let s : State := st ((dispatches 2 (collDesc 4 1 0 0x1040 0x1000)));
      let q : Fin 512 := 0;
      let n : Nat := 0;
      let m : Cmd := cmd .dispatched (collDesc 4 1 0 0x1040 0x1000);
      hostClear s.blk && decide (findCmd s.blk q n = some m) && decide (m.queue = q.val) && decide (m.count = n) && decide (m.stage = .dispatched) && decide (m.cls = 0x06) &&
      (let kind := byteAt m.desc 0x3C % 8;
      decide (kind = 4) &&
      (let out : Host.Outcome State Fault Refusal := (exec (.shift q n) s);
      let bid := fieldAt m.desc 0x34 2;
      let g := fieldAt m.desc 0x36 2;
      let run := setCmd { m with stage := .running } s.blk;
      newer16 g (mapGet 0 s.blk.lastGen bid) &&
      (match groupOf s.blk (fieldAt m.desc 0x38 2) with
      | some grp => match posOf grp.drift (devId s.blk) with
        | some p => let c := collNew s.blk m grp p;
          match collCheck c with
          | some o => true
          | _ => false
        | _ => false
      | _ => false))) : Bool) = true := by
  decide +kernel

/-- Hypotheses of `ShardsCover`, clause by clause. -/
theorem witness_ShardsCover :
    (let c : Coll := coll0;
      decide (0 < c.n) &&
      (let j := 0;
      decide ((j + 1) * shardSize c.elems c.n ≤ c.elems)) : Bool) = true ∧
    (let c : Coll := coll0;
      decide (0 < c.n) &&
      (let j := 3;
      decide (c.n ≤ j)) : Bool) = true := by
  decide +kernel

/-- Hypotheses of `ChunkMessages`, clause by clause. -/
theorem witness_ChunkMessages :
    (let s : State := st ((bucket 2 (coll0)));
      let a : Fin 18 := 17;
      let m : Msg := chunk 1 0 255 0;
      let ups : List Upset := ([] : List Upset);
      let c : Coll := coll0;
      hostClear s.blk && decide (m.dst = devId s.blk) && decide (m.cls = 1) && decide (role s.blk ≠ 0) && decide (m.mgen = gen s.blk) &&
      (let h := chunkHdr m.payload;
      let half := aditHalf a;
      let b := redGrant half (a.val % 9) (hears m.src (takeMsg m (countRxOnce half m s.blk)));
      domOn s.blk (domRed half) && decide (crossClass half m b = none) && decide (b.colls.find? (fun x => !x.complete && x.tally % 65536 == h.tally % 65536) = some c) && decide (c.tally = h.tally) && decide (masterMarker b m = false) &&
      (let i : Instr := .chunkDataRow 17 (chunk 1 0 255 0) [];
      decide (i = .chunkDataRow a m ups ∨ i = .chunkGrantRow a m ∨ i = .chunkAbortRow a m ∨ i = .chunkClose a m ∨ i = .chunkClosed a m ∨ i = .chunkRestart a m) && decide (roundCmp c.round h.round = 1))) : Bool) = true ∧
    (let s : State := st ((bucket 2 ({ coll0 with sent := 0, rx := 0, granted := 0 })));
      let a : Fin 18 := 17;
      let m : Msg := chunk 1 0 0 0;
      let ups : List Upset := ([] : List Upset);
      let c : Coll := { coll0 with sent := 0, rx := 0, granted := 0 };
      hostClear s.blk && decide (m.dst = devId s.blk) && decide (m.cls = 1) && decide (role s.blk ≠ 0) && decide (m.mgen = gen s.blk) &&
      (let h := chunkHdr m.payload;
      let half := aditHalf a;
      let b := redGrant half (a.val % 9) (hears m.src (takeMsg m (countRxOnce half m s.blk)));
      domOn s.blk (domRed half) && decide (crossClass half m b = none) && decide (b.colls.find? (fun x => !x.complete && x.tally % 65536 == h.tally % 65536) = some c) && decide (c.tally = h.tally) && decide (masterMarker b m = false) && decide (roundCmp c.round h.round = 0) && h.zeros (c.kind == 1) && decide (h.group = c.group) && decide (h.op = c.op) && decide (h.agreed = c.agreed) && decide (h.elems = c.elems) && decide (h.kind = 1) && decide (c.predOf c.pos = some h.pos)) : Bool) = true ∧
    (let s : State := st ((bucket 2 ({ coll0 with sent := 0, rx := 0, granted := 0 })));
      let a : Fin 18 := 17;
      let m : Msg := chunk 2 2 0 1;
      let ups : List Upset := ([] : List Upset);
      let c : Coll := { coll0 with sent := 0, rx := 0, granted := 0 };
      hostClear s.blk && decide (m.dst = devId s.blk) && decide (m.cls = 1) && decide (role s.blk ≠ 0) && decide (m.mgen = gen s.blk) &&
      (let h := chunkHdr m.payload;
      let half := aditHalf a;
      let b := redGrant half (a.val % 9) (hears m.src (takeMsg m (countRxOnce half m s.blk)));
      domOn s.blk (domRed half) && decide (crossClass half m b = none) && decide (b.colls.find? (fun x => !x.complete && x.tally % 65536 == h.tally % 65536) = some c) && decide (c.tally = h.tally) && decide (masterMarker b m = false) && decide (roundCmp c.round h.round = 0) && h.zeros (c.kind == 1) && decide (h.group = c.group) && decide (h.op = c.op) && decide (h.agreed = c.agreed) && decide (h.elems = c.elems) && decide (h.kind = 2) && decide (c.succOf c.pos = some h.pos)) : Bool) = true ∧
    (let s : State := st ((bucket 2 ({ coll0 with sent := 0, rx := 0, granted := 0 })));
      let a : Fin 18 := 17;
      let m : Msg := chunk 3 0 0 0;
      let ups : List Upset := ([] : List Upset);
      let c : Coll := { coll0 with sent := 0, rx := 0, granted := 0 };
      hostClear s.blk && decide (m.dst = devId s.blk) && decide (m.cls = 1) && decide (role s.blk ≠ 0) && decide (m.mgen = gen s.blk) &&
      (let h := chunkHdr m.payload;
      let half := aditHalf a;
      let b := redGrant half (a.val % 9) (hears m.src (takeMsg m (countRxOnce half m s.blk)));
      domOn s.blk (domRed half) && decide (crossClass half m b = none) && decide (b.colls.find? (fun x => !x.complete && x.tally % 65536 == h.tally % 65536) = some c) && decide (c.tally = h.tally) && decide (masterMarker b m = false) && decide (roundCmp c.round h.round = 0) && h.zeros (c.kind == 1) && decide (h.group = c.group) && decide (h.op = c.op) && decide (h.agreed = c.agreed) && decide (h.elems = c.elems) && decide (h.kind = 3) && decide (h.pos < c.n) && decide (c.fromPos m ≠ none) && decide (c.fromPos m = c.predOf c.pos ∨ c.fromPos m = c.succOf c.pos)) : Bool) = true ∧
    (let s : State := st ((bucket 2 ({ coll0 with pos := 0, drift := [2, 1, 3], closeSent := true })));
      let a : Fin 18 := 17;
      let m : Msg := chunk 5 2 0 0;
      let ups : List Upset := ([] : List Upset);
      let c : Coll := { coll0 with pos := 0, drift := [2, 1, 3], closeSent := true };
      hostClear s.blk && decide (m.dst = devId s.blk) && decide (m.cls = 1) && decide (role s.blk ≠ 0) && decide (m.mgen = gen s.blk) &&
      (let h := chunkHdr m.payload;
      let half := aditHalf a;
      let b := redGrant half (a.val % 9) (hears m.src (takeMsg m (countRxOnce half m s.blk)));
      domOn s.blk (domRed half) && decide (crossClass half m b = none) && decide (b.colls.find? (fun x => !x.complete && x.tally % 65536 == h.tally % 65536) = some c) && decide (c.tally = h.tally) && decide (masterMarker b m = false) && decide (roundCmp c.round h.round = 0) && h.zeros (c.kind == 1) && decide (h.group = c.group) && decide (h.op = c.op) && decide (h.agreed = c.agreed) && decide (h.elems = c.elems) && decide (h.kind = 5) && decide (c.prevLap = some h.pos) && decide (c.pos = c.closer) && c.closeSent) : Bool) = true ∧
    (let s : State := st ((bucket 2 (coll0)));
      let a : Fin 18 := 17;
      let m : Msg := chunk 5 0 0 0;
      let ups : List Upset := ([] : List Upset);
      let c : Coll := coll0;
      hostClear s.blk && decide (m.dst = devId s.blk) && decide (m.cls = 1) && decide (role s.blk ≠ 0) && decide (m.mgen = gen s.blk) &&
      (let h := chunkHdr m.payload;
      let half := aditHalf a;
      let b := redGrant half (a.val % 9) (hears m.src (takeMsg m (countRxOnce half m s.blk)));
      domOn s.blk (domRed half) && decide (crossClass half m b = none) && decide (b.colls.find? (fun x => !x.complete && x.tally % 65536 == h.tally % 65536) = some c) && decide (c.tally = h.tally) && decide (masterMarker b m = false) && decide (roundCmp c.round h.round = 0) && h.zeros (c.kind == 1) && decide (h.group = c.group) && decide (h.op = c.op) && decide (h.agreed = c.agreed) && decide (h.elems = c.elems) && decide (h.kind = 5) && decide (c.prevLap = some h.pos) && decide (c.pos ≠ c.closer) && c.finished) : Bool) = true ∧
    (let s : State := st ((bucket 2 ({ coll0 with sent := 0, rx := 0, granted := 0 })));
      let a : Fin 18 := 17;
      let m : Msg := chunk 5 0 0 0;
      let ups : List Upset := ([] : List Upset);
      let c : Coll := { coll0 with sent := 0, rx := 0, granted := 0 };
      hostClear s.blk && decide (m.dst = devId s.blk) && decide (m.cls = 1) && decide (role s.blk ≠ 0) && decide (m.mgen = gen s.blk) &&
      (let h := chunkHdr m.payload;
      let half := aditHalf a;
      let b := redGrant half (a.val % 9) (hears m.src (takeMsg m (countRxOnce half m s.blk)));
      domOn s.blk (domRed half) && decide (crossClass half m b = none) && decide (b.colls.find? (fun x => !x.complete && x.tally % 65536 == h.tally % 65536) = some c) && decide (c.tally = h.tally) && decide (masterMarker b m = false) && decide (roundCmp c.round h.round = 0) && h.zeros (c.kind == 1) && decide (h.group = c.group) && decide (h.op = c.op) && decide (h.agreed = c.agreed) && decide (h.elems = c.elems) && decide (h.kind = 5) && decide (c.prevLap = some h.pos) && decide (c.pos ≠ c.closer) && decide (c.finished = false)) : Bool) = true ∧
    (let s : State := st ((bucket 2 (coll0)));
      let a : Fin 18 := 17;
      let m : Msg := chunk 6 0 0 0;
      let ups : List Upset := ([] : List Upset);
      let c : Coll := coll0;
      hostClear s.blk && decide (m.dst = devId s.blk) && decide (m.cls = 1) && decide (role s.blk ≠ 0) && decide (m.mgen = gen s.blk) &&
      (let h := chunkHdr m.payload;
      let half := aditHalf a;
      let b := redGrant half (a.val % 9) (hears m.src (takeMsg m (countRxOnce half m s.blk)));
      domOn s.blk (domRed half) && decide (crossClass half m b = none) && decide (b.colls.find? (fun x => !x.complete && x.tally % 65536 == h.tally % 65536) = some c) && decide (c.tally = h.tally) && decide (masterMarker b m = false) && decide (roundCmp c.round h.round = 0) && h.zeros (c.kind == 1) && decide (h.group = c.group) && decide (h.op = c.op) && decide (h.agreed = c.agreed) && decide (h.elems = c.elems) && decide (h.kind = 6) && decide (c.prevLap = some h.pos)) : Bool) = true ∧
    (let s : State := st ((bucket 2 ({ coll0 with waitVerdict := true })));
      let a : Fin 18 := 17;
      let m : Msg := chunk 7 0 0 0;
      let ups : List Upset := ([] : List Upset);
      let c : Coll := { coll0 with waitVerdict := true };
      hostClear s.blk && decide (m.dst = devId s.blk) && decide (m.cls = 1) && decide (role s.blk ≠ 0) && decide (m.mgen = gen s.blk) &&
      (let h := chunkHdr m.payload;
      let half := aditHalf a;
      let b := redGrant half (a.val % 9) (hears m.src (takeMsg m (countRxOnce half m s.blk)));
      domOn s.blk (domRed half) && decide (crossClass half m b = none) && decide (b.colls.find? (fun x => !x.complete && x.tally % 65536 == h.tally % 65536) = some c) && decide (c.tally = h.tally) && decide (masterMarker b m = false) && decide (roundCmp c.round h.round = 0) && h.zeros (c.kind == 1) && decide (h.group = c.group) && decide (h.op = c.op) && decide (h.agreed = c.agreed) && decide (h.elems = c.elems) && decide (h.kind = 7) && decide (c.prevLap = some h.pos) && c.waitVerdict) : Bool) = true ∧
    (let s : State := st ((put (fDom (domRed 1)) 0 (bucket 2 (coll0))));
      let a : Fin 18 := 17;
      let m : Msg := chunk 1 0 255 0;
      let ups : List Upset := ([] : List Upset);
      let c : Coll := coll0;
      hostClear s.blk && decide (m.dst = devId s.blk) && decide (m.cls = 1) && decide (role s.blk ≠ 0) && decide (m.mgen = gen s.blk) &&
      (let h := chunkHdr m.payload;
      let half := aditHalf a;
      let b := redGrant half (a.val % 9) (hears m.src (takeMsg m (countRxOnce half m s.blk)));
      let i : Instr := .chunkDataRow 17 (chunk 1 0 255 0) [];
      decide (i = .chunkDataRow a m ups ∨ i = .chunkGrantRow a m ∨ i = .chunkAbortRow a m ∨ i = .chunkClose a m ∨ i = .chunkClosed a m ∨ i = .chunkRestart a m) && decide (domOn s.blk (domRed half) = false)) : Bool) = true := by
  decide +kernel

/-- Hypotheses of `CollectiveTimers`, clause by clause. -/
theorem witness_CollectiveTimers :
    (let s : State := st ((bucket 2 ({ coll0 with drift := [2], pos := 0, rx := 0, sent := 0 })));
      let q : Fin 512 := 0;
      let n : Nat := 0;
      let c : Coll := { coll0 with drift := [2], pos := 0, rx := 0, sent := 0 };
      decide (collOf s.blk q n = some c) && hostClear s.blk && c.finished && decide (c.pos = c.closer) && decide (c.closeSent = false) && decide (c.nextLap = none) : Bool) = true ∧
    (let s : State := st ((bucket 1 ({ coll0 with pos := 0 })));
      let q : Fin 512 := 0;
      let n : Nat := 0;
      (let c : Coll := { coll0 with pos := 0 };
      decide (collOf s.blk q n = some c) &&
      hostClear s.blk && c.finished && decide (c.pos = c.closer) && decide (c.closeSent = false) && decide (c.nextLap ≠ none) &&
      (decide (c.complete = false) &&
      decide (c.freed ≠ c.told) && decide (c.waitVerdict = false) &&
      decide (c.sendQ = [] ∨ c.granted ≤ c.sent) && decide (role s.blk ≠ 0))) &&
      decide (role s.blk = 3) : Bool) = true ∧
    (let s : State := st ((bucket 2 ({ coll0 with closeSeen := true })));
      let q : Fin 512 := 0;
      let n : Nat := 0;
      let c : Coll := { coll0 with closeSeen := true };
      decide (collOf s.blk q n = some c) && hostClear s.blk && c.finished && decide (c.pos ≠ c.closer) && c.closeSeen && decide (c.closeSent = false) : Bool) = true ∧
    (let s : State := st (({ member 1 (linked up) with reports := [⟨5, 0, [(2, 3)]⟩] }));
      let q : Fin 512 := 0;
      let n : Nat := 0;
      let tally := 5;
      let r : Reports := ⟨5, 0, [(2, 3)]⟩;
      decide (role s.blk = 3) && decide (s.blk.reports.find? (fun r => r.tally == tally) = some r) &&
      (let b : Block := { s.blk with reports := s.blk.reports.filter (fun x => x.tally != tally) };
      let silent := ((r.got.map (fun p => p.2)).filter (fun d => !r.got.any (fun p => p.1 == d))).eraseDups;
      decide (silent ≠ [])) : Bool) = true ∧
    (let s : State := st (({ member 1 (linked up) with reports := [⟨5, 0, [(2, 3), (3, 2)]⟩] }));
      let q : Fin 512 := 0;
      let n : Nat := 0;
      let tally := 5;
      let r : Reports := ⟨5, 0, [(2, 3), (3, 2)]⟩;
      decide (role s.blk = 3) && decide (s.blk.reports.find? (fun r => r.tally == tally) = some r) &&
      (let b : Block := { s.blk with reports := s.blk.reports.filter (fun x => x.tally != tally) };
      let silent := ((r.got.map (fun p => p.2)).filter (fun d => !r.got.any (fun p => p.1 == d))).eraseDups;
      decide (silent = []) &&
      (match groupOf s.blk r.group with
      | some g => true
      | _ => false)) : Bool) = true ∧
    (let s : State := st ((setGang (fun g => { g with cur := some table3 }) (scans { job0 with final := [(0, some [(0#32, false)])] })));
      let q : Fin 512 := 0;
      let n : Nat := 0;
      let c : Cmd := scanCmd;
      let j : Job := { job0 with final := [(0, some [(0#32, false)])] };
      let d : Nat := 3;
      decide (collOf s.blk q n = none) && decide (jobCmd s.blk (some (q.val, n)) = some (c, j)) && decide (scanSucc s.blk c = some d) && scanWaitsGrant c j && decide (role s.blk ≠ 0) : Bool) = true := by
  decide +kernel

/-- Hypotheses of `CarriesTravel`, clause by clause. -/
theorem witness_CarriesTravel :
    (let s : State := st ((scans (job0)));
      let a : Fin 18 := 17;
      let m : Msg := carry 1 4 0 1008;
      let c : Cmd := scanCmd;
      let j : Job := job0;
      hostClear s.blk && decide (m.dst = devId s.blk) && decide (m.cls = 2) && decide (role s.blk ≠ 0) && decide (m.mgen = gen s.blk) &&
      (let h := chunkHdr m.payload;
      let b := redGrant (aditHalf a) (a.val % 9) (hears m.src (takeMsg m (countRxOnce (aditHalf a) m s.blk)));
      domOn s.blk (domRed (aditHalf a)) && decide (crossClass (aditHalf a) m b = none) && decide (scanByBucket b (h.tally % 65536) = some (c, j)) && decide (c.scanTally = h.tally) && h.zeros false && decide (h.group = c.scanGroup) && decide (h.op = 0) && decide (h.agreed = 0) && decide (h.round = 0) && decide (h.elems = c.scanElems h.kind) &&
      (match scanPred b c with
      | some d => decide (scanPos b c d = some h.pos) && c.fromDrift && decide (h.kind = 4) && decide (h.shard < c.chBlocks) && decide (h.chunk < c.carryParts h.shard) && decide (h.count = min 1008 (c.blockCh h.shard - 1008 * h.chunk)) && decide (h.contrib = 0) && decide (64 + 4 * h.count ≤ m.payload.length) && decide (j.parts.any (fun p => p.1 == h.shard && p.2.1 == h.chunk) = false) &&
        (let k := { j with parts := j.parts ++ [(h.shard, h.chunk, chunkWords m h.count)] };
        decide (assemble c k h.shard = none))
      | _ => false)) : Bool) = true ∧
    (let s : State := st ((scans ({ job0 with parts := [(0, 1, List.replicate 16 (0#32, false))] })));
      let a : Fin 18 := 17;
      let m : Msg := carry 1 4 0 1008;
      let c : Cmd := scanCmd;
      let j : Job := { job0 with parts := [(0, 1, List.replicate 16 (0#32, false))] };
      hostClear s.blk && decide (m.dst = devId s.blk) && decide (m.cls = 2) && decide (role s.blk ≠ 0) && decide (m.mgen = gen s.blk) &&
      (let h := chunkHdr m.payload;
      let b := redGrant (aditHalf a) (a.val % 9) (hears m.src (takeMsg m (countRxOnce (aditHalf a) m s.blk)));
      domOn s.blk (domRed (aditHalf a)) && decide (crossClass (aditHalf a) m b = none) && decide (scanByBucket b (h.tally % 65536) = some (c, j)) && decide (c.scanTally = h.tally) && h.zeros false && decide (h.group = c.scanGroup) && decide (h.op = 0) && decide (h.agreed = 0) && decide (h.round = 0) && decide (h.elems = c.scanElems h.kind) &&
      (match scanPred b c with
      | some d => decide (scanPos b c d = some h.pos) && c.fromDrift && decide (h.kind = 4) && decide (h.shard < c.chBlocks) && decide (h.chunk < c.carryParts h.shard) && decide (h.count = min 1008 (c.blockCh h.shard - 1008 * h.chunk)) && decide (h.contrib = 0) && decide (64 + 4 * h.count ≤ m.payload.length) && decide (j.parts.any (fun p => p.1 == h.shard && p.2.1 == h.chunk) = false) &&
        (let k := { j with parts := j.parts ++ [(h.shard, h.chunk, chunkWords m h.count)] };
        match assemble c k h.shard with
        | some ws => true
        | _ => false)
      | _ => false)) : Bool) = true ∧
    (let s : State := st ((scans (job0)));
      let a : Fin 18 := 17;
      let m : Msg := carry 1 3 0 0;
      let c : Cmd := scanCmd;
      let j : Job := job0;
      hostClear s.blk && decide (m.dst = devId s.blk) && decide (m.cls = 2) && decide (role s.blk ≠ 0) && decide (m.mgen = gen s.blk) &&
      (let h := chunkHdr m.payload;
      let b := redGrant (aditHalf a) (a.val % 9) (hears m.src (takeMsg m (countRxOnce (aditHalf a) m s.blk)));
      domOn s.blk (domRed (aditHalf a)) && decide (crossClass (aditHalf a) m b = none) && decide (scanByBucket b (h.tally % 65536) = some (c, j)) && decide (c.scanTally = h.tally) && h.zeros false && decide (h.group = c.scanGroup) && decide (h.op = 0) && decide (h.agreed = 0) && decide (h.round = 0) && decide (h.elems = c.scanElems h.kind) &&
      (match scanPred b c with
      | some d => decide (scanPos b c d = some h.pos) && c.fromDrift && decide (h.kind = 3) &&
        (match missingBlock c j with
        | some i => true
        | _ => false)
      | _ => false)) : Bool) = true ∧
    (let s : State := st ((scans (job0)));
      let a : Fin 18 := 17;
      let m : Msg := carry 3 2 1 0;
      let c : Cmd := scanCmd;
      let j : Job := job0;
      hostClear s.blk && decide (m.dst = devId s.blk) && decide (m.cls = 2) && decide (role s.blk ≠ 0) && decide (m.mgen = gen s.blk) &&
      (let h := chunkHdr m.payload;
      let b := redGrant (aditHalf a) (a.val % 9) (hears m.src (takeMsg m (countRxOnce (aditHalf a) m s.blk)));
      domOn s.blk (domRed (aditHalf a)) && decide (crossClass (aditHalf a) m b = none) && decide (scanByBucket b (h.tally % 65536) = some (c, j)) && decide (c.scanTally = h.tally) && h.zeros false && decide (h.group = c.scanGroup) && decide (h.op = 0) && decide (h.agreed = 0) && decide (h.round = 0) && decide (h.elems = c.scanElems h.kind) &&
      (match scanSucc b c with
      | some d => decide (scanPos b c d = some h.pos) && c.toDrift && decide (h.kind = 2)
      | _ => false)) : Bool) = true := by
  decide +kernel

/-- Hypotheses of `ScanTimesOut`, clause by clause. -/
theorem witness_ScanTimesOut :
    (let s : State := st ((scans job0));
      let q : Fin 512 := 0;
      let n : Nat := 0;
      let i : Nat := 0;
      let d : Nat := 1;
      let c : Cmd := scanCmd;
      let j : Job := job0;
      decide (jobCmd s.blk (some (q.val, n)) = some (c, j)) && c.fromDrift && decide (missingBlock c j = some i) && decide (scanPred s.blk c = some d) : Bool) = true := by
  decide +kernel

/-- Hypotheses of `PitheadVotes`, clause by clause. -/
theorem witness_PitheadVotes :
    (let s : State := st ((pits 4 (pitCmd .dispatched 1 0)));
      let q : Fin 512 := 0;
      let n : Nat := 0;
      let m : Cmd := pitCmd .dispatched 1 0;
      hostClear s.blk && decide (findCmd s.blk q n = some m) && m.active && decide (m.cls = 0x07) &&
      (let ready := byteAt m.desc 0x14 == 1 && !s.blk.pit.dirty.contains m.ctx;
      let req := (byteAt m.desc 0x15).testBit 0;
      let c := { m with stage := .running };
      let asks := fun (b : Block) => if req then setPit (fun p => { p with secureAsked := setInsert p.secureAsked m.ctx }) b else b;
      let alone := asks (setCmd c s.blk);
      let mine := asks (setPit (fun p => { p with running := some (q.val, n) }) (setCmd c s.blk));
      decide (m.ctx = stepCtx s.blk) && decide (role s.blk ≠ 0) && decide (pitState s.blk ≠ 6) && decide (s.blk.pit.decision = none) && decide (ready = false ∨ s.blk.securing = none) && decide (s.blk.pit.voted = none)) : Bool) = true ∧
    (let s : State := st ((secures [sect 0] true false (pits 2 (pitCmd .dispatched 1 0))));
      let q : Fin 512 := 0;
      let n : Nat := 0;
      let m : Cmd := pitCmd .dispatched 1 0;
      hostClear s.blk && decide (findCmd s.blk q n = some m) && m.active && decide (m.cls = 0x07) &&
      (let ready := byteAt m.desc 0x14 == 1 && !s.blk.pit.dirty.contains m.ctx;
      let req := (byteAt m.desc 0x15).testBit 0;
      let c := { m with stage := .running };
      let asks := fun (b : Block) => if req then setPit (fun p => { p with secureAsked := setInsert p.secureAsked m.ctx }) b else b;
      let alone := asks (setCmd c s.blk);
      let mine := asks (setPit (fun p => { p with running := some (q.val, n) }) (setCmd c s.blk));
      decide (m.ctx = stepCtx s.blk) && decide (role s.blk ≠ 0) && decide (pitState s.blk ≠ 6) && decide (s.blk.pit.decision = none) && ready && s.blk.securing.isSome) : Bool) = true ∧
    (let s : State := st ((mapped (withCmds [pitCmd .dispatched 1 0] up)));
      let q : Fin 512 := 0;
      let n : Nat := 0;
      let m : Cmd := pitCmd .dispatched 1 0;
      hostClear s.blk && decide (findCmd s.blk q n = some m) && m.active && decide (m.cls = 0x07) &&
      (let ready := byteAt m.desc 0x14 == 1 && !s.blk.pit.dirty.contains m.ctx;
      let req := (byteAt m.desc 0x15).testBit 0;
      let c := { m with stage := .running };
      let asks := fun (b : Block) => if req then setPit (fun p => { p with secureAsked := setInsert p.secureAsked m.ctx }) b else b;
      let alone := asks (setCmd c s.blk);
      let mine := asks (setPit (fun p => { p with running := some (q.val, n) }) (setCmd c s.blk));
      decide (m.ctx ≠ stepCtx s.blk ∨ role s.blk = 0) && decide (ready = false ∨ s.blk.securing = none)) : Bool) = true ∧
    (let s : State := st ((secures [sect 0] true false (mapped (withCmds [pitCmd .dispatched 1 0] up))));
      let q : Fin 512 := 0;
      let n : Nat := 0;
      let m : Cmd := pitCmd .dispatched 1 0;
      hostClear s.blk && decide (findCmd s.blk q n = some m) && m.active && decide (m.cls = 0x07) &&
      (let ready := byteAt m.desc 0x14 == 1 && !s.blk.pit.dirty.contains m.ctx;
      let req := (byteAt m.desc 0x15).testBit 0;
      let c := { m with stage := .running };
      let asks := fun (b : Block) => if req then setPit (fun p => { p with secureAsked := setInsert p.secureAsked m.ctx }) b else b;
      let alone := asks (setCmd c s.blk);
      let mine := asks (setPit (fun p => { p with running := some (q.val, n) }) (setCmd c s.blk));
      decide (m.ctx ≠ stepCtx s.blk ∨ role s.blk = 0) && ready && s.blk.securing.isSome) : Bool) = true ∧
    (let s : State := st ((setPit (fun p => { p with voted := some true }) (pits 2 (pitCmd .dispatched 1 0))));
      let q : Fin 512 := 0;
      let n : Nat := 0;
      let m : Cmd := pitCmd .dispatched 1 0;
      hostClear s.blk && decide (findCmd s.blk q n = some m) && m.active && decide (m.cls = 0x07) &&
      (let ready := byteAt m.desc 0x14 == 1 && !s.blk.pit.dirty.contains m.ctx;
      let req := (byteAt m.desc 0x15).testBit 0;
      let c := { m with stage := .running };
      let asks := fun (b : Block) => if req then setPit (fun p => { p with secureAsked := setInsert p.secureAsked m.ctx }) b else b;
      let alone := asks (setCmd c s.blk);
      let mine := asks (setPit (fun p => { p with running := some (q.val, n) }) (setCmd c s.blk));
      decide (m.ctx = stepCtx s.blk) && decide (role s.blk ≠ 0) && decide (pitState s.blk ≠ 6) && decide (s.blk.pit.decision = none) && decide (s.blk.pit.voted ≠ none)) : Bool) = true ∧
    (let s : State := st ((put fGG_PIT_STATE 6 (pits 2 (pitCmd .dispatched 1 0))));
      let q : Fin 512 := 0;
      let n : Nat := 0;
      let m : Cmd := pitCmd .dispatched 1 0;
      hostClear s.blk && decide (findCmd s.blk q n = some m) && m.active && decide (m.cls = 0x07) &&
      (let ready := byteAt m.desc 0x14 == 1 && !s.blk.pit.dirty.contains m.ctx;
      let req := (byteAt m.desc 0x15).testBit 0;
      let c := { m with stage := .running };
      let asks := fun (b : Block) => if req then setPit (fun p => { p with secureAsked := setInsert p.secureAsked m.ctx }) b else b;
      let alone := asks (setCmd c s.blk);
      let mine := asks (setPit (fun p => { p with running := some (q.val, n) }) (setCmd c s.blk));
      decide (m.ctx = stepCtx s.blk) && decide (role s.blk ≠ 0) && decide (pitState s.blk = 6)) : Bool) = true ∧
    (let s : State := st ((setPit (fun p => { p with decision := some (decides true) }) (pits 2 (pitCmd .dispatched 1 0))));
      let q : Fin 512 := 0;
      let n : Nat := 0;
      let m : Cmd := pitCmd .dispatched 1 0;
      hostClear s.blk && decide (findCmd s.blk q n = some m) && m.active && decide (m.cls = 0x07) &&
      (let ready := byteAt m.desc 0x14 == 1 && !s.blk.pit.dirty.contains m.ctx;
      let req := (byteAt m.desc 0x15).testBit 0;
      let c := { m with stage := .running };
      let asks := fun (b : Block) => if req then setPit (fun p => { p with secureAsked := setInsert p.secureAsked m.ctx }) b else b;
      let alone := asks (setCmd c s.blk);
      let mine := asks (setPit (fun p => { p with running := some (q.val, n) }) (setCmd c s.blk));
      decide (m.ctx = stepCtx s.blk) && decide (role s.blk ≠ 0) && decide (pitState s.blk ≠ 6) && s.blk.pit.decision.isSome) : Bool) = true := by
  decide +kernel

/-- Hypotheses of `VotesDecide`, clause by clause. -/
theorem witness_VotesDecide :
    (let s : State := st ((setGang (fun g => { g with votes := [], failedNow := [] }) (member 1 (mapped (linked up)))));
      let a : Fin 18 := 17;
      let m : Msg := pitMsg 2 1 0x10 3 0 0 0 2 0;
      decide (role s.blk = 3) && decide (m.cls = 5) && decide (byteAt m.payload 0 = 0x10) &&
      (let p := m.payload;
      let v : Vote := ⟨fieldAt p 8 2, byteAt p 1 == 1, (byteAt p 2).testBit 0, (byteAt p 2).testBit 2, fieldAt p 4 4⟩;
      let ok := pitOk m (fun v => v == 1 || v == 2) false false;
      let b := hears m.src (takeMsg m s.blk);
      decide (ok = false)) : Bool) = true ∧
    (let s : State := st ((setGang (fun g => { g with votes := [], failedNow := [] }) (member 1 (mapped (linked up)))));
      let a : Fin 18 := 17;
      let m : Msg := pitMsg 2 1 0x10 1 0 0 5 2 0;
      decide (role s.blk = 3) && decide (m.cls = 5) && decide (byteAt m.payload 0 = 0x10) &&
      (let p := m.payload;
      let v : Vote := ⟨fieldAt p 8 2, byteAt p 1 == 1, (byteAt p 2).testBit 0, (byteAt p 2).testBit 2, fieldAt p 4 4⟩;
      let ok := pitOk m (fun v => v == 1 || v == 2) false false;
      let b := hears m.src (takeMsg m s.blk);
      let t := table3;
      ok && decide (m.mgen = gen s.blk) && decide (s.blk.gang.cur = some t) && (tblActive t).contains v.dev && decide (s.blk.gang.votes.any (fun x => x.dev == v.dev && x.epoch == v.epoch) = false) &&
      (let kept := setGang (fun g => { g with votes := g.votes ++ [v] }) b;
      collecting s.blk && decide (v.epoch ≠ stepEpoch s.blk))) : Bool) = true ∧
    (let s : State := st ((put fGG_PIT_MSTATE 2 (setGang (fun g => { g with votes := [], failedNow := [] }) (member 1 (mapped (linked up))))));
      let a : Fin 18 := 17;
      let m : Msg := pitMsg 2 1 0x10 1 0 0 1 2 0;
      decide (role s.blk = 3) && decide (m.cls = 5) && decide (byteAt m.payload 0 = 0x10) &&
      (let p := m.payload;
      let v : Vote := ⟨fieldAt p 8 2, byteAt p 1 == 1, (byteAt p 2).testBit 0, (byteAt p 2).testBit 2, fieldAt p 4 4⟩;
      let ok := pitOk m (fun v => v == 1 || v == 2) false false;
      let b := hears m.src (takeMsg m s.blk);
      let t := table3;
      ok && decide (m.mgen = gen s.blk) && decide (s.blk.gang.cur = some t) && (tblActive t).contains v.dev && decide (s.blk.gang.votes.any (fun x => x.dev == v.dev && x.epoch == v.epoch) = false) &&
      (let kept := setGang (fun g => { g with votes := g.votes ++ [v] }) b;
      decide (collecting s.blk = false) && decide (v.epoch = (stepEpoch s.blk + 1) % 2 ^ 32))) : Bool) = true ∧
    (let s : State := st ((setGang (fun g => { g with votes := [⟨2, true, false, false, 0⟩], failedNow := [] }) (member 1 (mapped (linked up)))));
      let a : Fin 18 := 17;
      let m : Msg := pitMsg 3 1 0x10 1 0 0 0 3 0;
      decide (role s.blk = 3) && decide (m.cls = 5) && decide (byteAt m.payload 0 = 0x10) &&
      (let p := m.payload;
      let v : Vote := ⟨fieldAt p 8 2, byteAt p 1 == 1, (byteAt p 2).testBit 0, (byteAt p 2).testBit 2, fieldAt p 4 4⟩;
      let ok := pitOk m (fun v => v == 1 || v == 2) false false;
      let b := hears m.src (takeMsg m s.blk);
      (let t := table3;
      (ok && decide (m.mgen = gen s.blk) && decide (s.blk.gang.cur = some t) && (tblActive t).contains v.dev && decide (s.blk.gang.votes.any (fun x => x.dev == v.dev && x.epoch == v.epoch) = false) &&
      (let kept := setGang (fun g => { g with votes := g.votes ++ [v] }) b;
      collecting s.blk && decide (v.epoch = stepEpoch s.blk))) &&
      (collecting s.blk && s.blk.gang.votes.any (fun v => v.epoch == stepEpoch s.blk) && decide (s.blk.gang.cur = some t) &&
      (let voted := fun (d : Nat) => s.blk.gang.votes.any (fun v => v.dev == d && v.epoch == stepEpoch s.blk);
      let missing := (tblActive t).filter (fun d => d != devId s.blk && !voted d);
      decide (missing ≠ [])))) &&
      (let t := table3;
      let ds := [3];
      let cause := 1;
      let why := 2;
      decide (s.blk.gang.cur = some t) && decide (ds ≠ []) && decide (∀ d ∈ ds, d ∈ tblActive t) && quorum s.blk) &&
      (quorum s.blk && collecting s.blk && dispatcherRuns s.blk &&
      (let vs := s.blk.gang.votes.filter (fun v => v.epoch == stepEpoch s.blk);
      let t := table3;
      decide (s.blk.gang.failedNow = []) && decide (vs.find? (fun v => !v.ready) = none) && decide (s.blk.gang.cur = some t) && decide ((tblActive t).all (fun d => vs.any (fun v => v.dev == d)) = false)))) : Bool) = true ∧
    (let s : State := st ((setGang (fun g => { g with votes := [], failedNow := [(3, 2)] }) (member 1 (mapped (linked up)))));
      let a : Fin 18 := 17;
      let m : Msg := pitMsg 2 1 0x10 1 0 0 0 2 0;
      decide (role s.blk = 3) && decide (m.cls = 5) && decide (byteAt m.payload 0 = 0x10) &&
      (let p := m.payload;
      let v : Vote := ⟨fieldAt p 8 2, byteAt p 1 == 1, (byteAt p 2).testBit 0, (byteAt p 2).testBit 2, fieldAt p 4 4⟩;
      let ok := pitOk m (fun v => v == 1 || v == 2) false false;
      let b := hears m.src (takeMsg m s.blk);
      quorum s.blk && collecting s.blk && dispatcherRuns s.blk &&
      (let vs := s.blk.gang.votes.filter (fun v => v.epoch == stepEpoch s.blk);
      let d := 3;
      let why := 2;
      let rest := [];
      decide (s.blk.gang.failedNow = (d, why) :: rest))) : Bool) = true ∧
    (let s : State := st ((setGang (fun g => { g with votes := [⟨2, false, false, false, 0⟩], failedNow := [] }) (member 1 (mapped (linked up)))));
      let a : Fin 18 := 17;
      let m : Msg := pitMsg 3 1 0x10 1 0 0 0 3 0;
      decide (role s.blk = 3) && decide (m.cls = 5) && decide (byteAt m.payload 0 = 0x10) &&
      (let p := m.payload;
      let v : Vote := ⟨fieldAt p 8 2, byteAt p 1 == 1, (byteAt p 2).testBit 0, (byteAt p 2).testBit 2, fieldAt p 4 4⟩;
      let ok := pitOk m (fun v => v == 1 || v == 2) false false;
      let b := hears m.src (takeMsg m s.blk);
      quorum s.blk && collecting s.blk && dispatcherRuns s.blk &&
      (let vs := s.blk.gang.votes.filter (fun v => v.epoch == stepEpoch s.blk);
      let v := ⟨2, false, false, false, 0⟩;
      decide (s.blk.gang.failedNow = []) && decide (vs.find? (fun v => !v.ready) = some v))) : Bool) = true ∧
    (let s : State := st ((setGang (fun g => { g with votes := [⟨1, true, false, false, 0⟩, ⟨2, true, false, false, 0⟩, ⟨3, true, false, false, 0⟩], failedNow := [] }) (member 1 (mapped (linked up)))));
      let a : Fin 18 := 17;
      let m : Msg := pitMsg 3 1 0x10 1 0 0 0 3 0;
      decide (role s.blk = 3) && decide (m.cls = 5) && decide (byteAt m.payload 0 = 0x10) &&
      (let p := m.payload;
      let v : Vote := ⟨fieldAt p 8 2, byteAt p 1 == 1, (byteAt p 2).testBit 0, (byteAt p 2).testBit 2, fieldAt p 4 4⟩;
      let ok := pitOk m (fun v => v == 1 || v == 2) false false;
      let b := hears m.src (takeMsg m s.blk);
      quorum s.blk && collecting s.blk && dispatcherRuns s.blk &&
      (let vs := s.blk.gang.votes.filter (fun v => v.epoch == stepEpoch s.blk);
      let t := table3;
      decide (s.blk.gang.failedNow = []) && decide (vs.find? (fun v => !v.ready) = none) && decide (s.blk.gang.cur = some t) && (tblActive t).all (fun d => vs.any (fun v => v.dev == d)))) : Bool) = true ∧
    (let s : State := st ((setGang (fun g => { g with heard := [] }) (member 1 up)));
      let a : Fin 18 := 17;
      let m : Msg := pitMsg 3 1 0x10 1 0 0 0 3 0;
      decide (role s.blk = 3) && decide (m.cls = 5) && decide (byteAt m.payload 0 = 0x10) &&
      (let p := m.payload;
      let v : Vote := ⟨fieldAt p 8 2, byteAt p 1 == 1, (byteAt p 2).testBit 0, (byteAt p 2).testBit 2, fieldAt p 4 4⟩;
      let ok := pitOk m (fun v => v == 1 || v == 2) false false;
      let b := hears m.src (takeMsg m s.blk);
      (let t := table3;
      let ds := [3];
      let cause := 1;
      let why := 2;
      decide (s.blk.gang.cur = some t) && decide (ds ≠ []) && decide (∀ d ∈ ds, d ∈ tblActive t) && decide (quorum s.blk = false)) &&
      decide (quorum s.blk = false ∨ dispatcherRuns s.blk = false)) : Bool) = true ∧
    (let s : State := st ((setGang (fun g => { g with votes := [⟨2, true, false, false, 0⟩, ⟨3, true, false, false, 0⟩], failedNow := [] }) (member 1 (mapped (linked up)))));
      let a : Fin 18 := 17;
      let m : Msg := pitMsg 3 1 0x10 1 0 0 0 3 0;
      decide (role s.blk = 3) && decide (m.cls = 5) && decide (byteAt m.payload 0 = 0x10) &&
      (let p := m.payload;
      let v : Vote := ⟨fieldAt p 8 2, byteAt p 1 == 1, (byteAt p 2).testBit 0, (byteAt p 2).testBit 2, fieldAt p 4 4⟩;
      let ok := pitOk m (fun v => v == 1 || v == 2) false false;
      let b := hears m.src (takeMsg m s.blk);
      let t := table3;
      collecting s.blk && s.blk.gang.votes.any (fun v => v.epoch == stepEpoch s.blk) && decide (s.blk.gang.cur = some t) &&
      (let voted := fun (d : Nat) => s.blk.gang.votes.any (fun v => v.dev == d && v.epoch == stepEpoch s.blk);
      let missing := (tblActive t).filter (fun d => d != devId s.blk && !voted d);
      decide (missing = []) && decide (voted (devId s.blk) = false) && quorum s.blk && dispatcherRuns s.blk)) : Bool) = true := by
  decide +kernel

/-- Hypotheses of `DecisionMessages`, clause by clause. -/
theorem witness_DecisionMessages :
    (let s : State := st ((setGang (fun g => { g with toLog := [.declare 3 4] }) (member 1 (linked up))));
      let a : Fin 18 := 17;
      let m : Msg := pitMsg 2 1 0x12 0 0 0 0 0 0;
      decide (role s.blk ≠ 0) && decide (m.cls = 5) && decide (m.mgen = gen s.blk) &&
      (let b := hears m.src (takeMsg m s.blk);
      (decide (byteAt m.payload 0 = 0x12) && pitOk m (fun v => v == 0) false false && decide (role s.blk = 3) && decide (liveDeputy s.blk = some m.src) &&
      (let i := .declare 3 4;
      let rest := [];
      decide (s.blk.gang.toLog = i :: rest))) &&
      decide (role s.blk = 3) && decide (s.blk.gang.toLog ≠ []) && decide (liveDeputy s.blk ≠ none) && quorum s.blk) : Bool) = true ∧
    (let s : State := st ((setGang (fun g => { g with heard := [] }) (setGang (fun g => { g with toLog := [.declare 3 4] }) (member 1 (linked up)))));
      let a : Fin 18 := 17;
      let m : Msg := pitMsg 2 1 0x13 0 0 0 0 0 0;
      decide (role s.blk ≠ 0) && decide (m.cls = 5) && decide (m.mgen = gen s.blk) &&
      (let b := hears m.src (takeMsg m s.blk);
      decide (role s.blk = 3) && decide (s.blk.gang.toLog ≠ []) && decide (liveDeputy s.blk ≠ none) && decide (quorum s.blk = false)) : Bool) = true ∧
    (let s : State := st ((member 2 (linked up)));
      let a : Fin 18 := 17;
      let m : Msg := pitMsg 1 2 0x11 1 0 0 0 0xFFFF 1;
      decide (role s.blk ≠ 0) && decide (m.cls = 5) && decide (m.mgen = gen s.blk) &&
      (let b := hears m.src (takeMsg m s.blk);
      decide (byteAt m.payload 0 = 0x11) && pitOk m (fun v => v == 1 || v == 2) true true && decide (m.src = masterId s.blk) &&
      (let d := payloadDecision b m.payload;
      decide (role s.blk = 2) && decide (s.blk.gang.logged = none))) : Bool) = true ∧
    (let s : State := st ((member 3 (linked up)));
      let a : Fin 18 := 17;
      let m : Msg := pitMsg 1 3 0x11 2 0 1 0 0xFFFF 1;
      decide (role s.blk ≠ 0) && decide (m.cls = 5) && decide (m.mgen = gen s.blk) &&
      (let b := hears m.src (takeMsg m s.blk);
      decide (byteAt m.payload 0 = 0x11) && pitOk m (fun v => v == 1 || v == 2) true true && decide (m.src = masterId s.blk) &&
      (let d := payloadDecision b m.payload;
      let b := setGang (fun g => { g with loggedDone := g.loggedDone || (match g.logged with | some l => l.same d | none => false) }) b;
      decide (role s.blk ≠ 2) && decide (pitState s.blk ≠ 6) && decide (s.blk.pit.decision = none) && decide (d.epoch = stepEpoch s.blk) && decide (appliedBefore s.blk d = false) && decide (d.commit = false))) : Bool) = true ∧
    (let s : State := st ((member 3 (linked up)));
      let a : Fin 18 := 17;
      let m : Msg := pitMsg 1 3 0x11 1 0 0 0 0xFFFF 1;
      decide (role s.blk ≠ 0) && decide (m.cls = 5) && decide (m.mgen = gen s.blk) &&
      (let b := hears m.src (takeMsg m s.blk);
      decide (byteAt m.payload 0 = 0x11) && pitOk m (fun v => v == 1 || v == 2) true true && decide (m.src = masterId s.blk) &&
      (let d := payloadDecision b m.payload;
      let b := setGang (fun g => { g with loggedDone := g.loggedDone || (match g.logged with | some l => l.same d | none => false) }) b;
      decide (role s.blk ≠ 2) && decide (pitState s.blk ≠ 6) && decide (s.blk.pit.decision = none) && decide (d.epoch = stepEpoch s.blk) && decide (appliedBefore s.blk d = false) && d.commit && decide (runningPit s.blk = none ∨ s.blk.pit.voted ≠ some true))) : Bool) = true ∧
    (let s : State := st ((setPit (fun p => { p with running := some (0, 0), voted := some true }) (pits 3 (pitCmd .running 1 0))));
      let a : Fin 18 := 17;
      let m : Msg := pitMsg 1 3 0x11 1 0 0 0 0xFFFF 1;
      decide (role s.blk ≠ 0) && decide (m.cls = 5) && decide (m.mgen = gen s.blk) &&
      (let b := hears m.src (takeMsg m s.blk);
      decide (byteAt m.payload 0 = 0x11) && pitOk m (fun v => v == 1 || v == 2) true true && decide (m.src = masterId s.blk) &&
      (let d := payloadDecision b m.payload;
      let b := setGang (fun g => { g with loggedDone := g.loggedDone || (match g.logged with | some l => l.same d | none => false) }) b;
      decide (role s.blk ≠ 2) && decide (pitState s.blk ≠ 6) && decide (s.blk.pit.decision = none) && decide (d.epoch = stepEpoch s.blk) && decide (appliedBefore s.blk d = false) && d.commit && decide (runningPit s.blk ≠ none) && decide (s.blk.pit.voted = some true))) : Bool) = true := by
  decide +kernel

/-- Hypotheses of `DecisionsApply`, clause by clause. -/
theorem witness_DecisionsApply :
    (let s : State := st ((setPit (fun p => { p with decision := some (decides true), running := some (0, 0) }) (pits 2 (pitCmd .running 1 0))));
      let d : Decision := decides true;
      hostClear s.blk && decide (s.blk.pit.decision = some d) && decide (d.newGen = gen s.blk) && dispatcherRuns s.blk &&
      (let c := pitCmd .running 1 0;
      d.commit && decide (runningPit s.blk = some c) &&
      (let w := commitSecure c.ctx d.secure (commitEpoch c.ctx s.blk);
      let x := 1;
      decide (x ≠ c.ctx))) &&
      decide (role s.blk ≠ 3) : Bool) = true ∧
    (let s : State := st ((setPit (fun p => { p with decision := some (decides false) }) (member 2 (mapped (linked up)))));
      let d : Decision := decides false;
      hostClear s.blk && decide (s.blk.pit.decision = some d) && decide (d.newGen = gen s.blk) && dispatcherRuns s.blk && decide (d.commit = false) && decide (stepRunning s.blk = false) &&
      (let e := abortEpoch (stepCtx s.blk) s.blk;
      let x := { d with applied := now s.blk };
      let stays := setGang (fun g => { g with left := false });
      decide (s.blk.pit.running = none)) : Bool) = true ∧
    (let s : State := st ((setPit (fun p => { p with decision := some (decides false), running := some (0, 0) }) (pits 2 (pitCmd .running 1 0))));
      let d : Decision := decides false;
      hostClear s.blk && decide (s.blk.pit.decision = some d) && decide (d.newGen = gen s.blk) && dispatcherRuns s.blk && decide (d.commit = false) && decide (stepRunning s.blk = false) &&
      (let e := abortEpoch (stepCtx s.blk) s.blk;
      let x := { d with applied := now s.blk };
      let stays := setGang (fun g => { g with left := false });
      let c := pitCmd .running 1 0;
      decide (runningPit s.blk = some c)) : Bool) = true := by
  decide +kernel

/-- Hypotheses of `Securings`, clause by clause. -/
theorem witness_Securings :
    (let s : State := st ((secures [sect 0x40000] false true (member 2 (mapped (linked up)))));
      let w : Securing := ⟨0, 1, 1, 1, 0, false, true, some 3, 0, 0, [sect 0x40000], 0, false⟩;
      hostClear s.blk && decide (s.blk.securing = some w) &&
      (let x : Section := sect 0x40000;
      let delays : Bool := true;
      decide (w.sections[w.next]? = some x) &&
      (let r : Except Xlat VRead := if 3 ≤ x.typ then .ok ⟨x.data, []⟩ else vRead s.blk w.ctx x.va x.bytes;
      match r with
      | .ok v => decide (v.bad = false) &&
        (let w' : Securing := { w with sections := w.sections.set w.next { x with digest := sectionDigest x.typ x.id x.blk w.epoch v.bytes }, next := w.next + 1, yielded := w.yielded || delays };
        let off := sectionOffset w.sections w.next;
        let b0 : Block := { s.blk with securing := some w' };
        let b1 := if delays = true ∧ w.yielded = false then yieldGuarantee 7 5 3 0x12 b0 else b0;
        let b2 := match w.holder with | some h => if w.peer then sendGang h (.keepWrite w.peerSlot off v.bytes) b1 else b1 | none => b1;
        let b3 := hostWrite off v.bytes w' b2;
        decide (w'.next = w.sections.length) &&
        (match b3.securing with
        | some y => match w.holder with
          | some h => true
          | _ => false
        | _ => false))
      | _ => false)) : Bool) = true ∧
    (let s : State := st ((secures [sect 0x100000000000] false true (member 2 (mapped (linked up)))));
      let w : Securing := ⟨0, 1, 1, 1, 0, false, true, some 3, 0, 0, [sect 0x100000000000], 0, false⟩;
      hostClear s.blk && decide (s.blk.securing = some w) &&
      (let x : Section := sect 0x100000000000;
      let delays : Bool := true;
      decide (w.sections[w.next]? = some x) &&
      (let r : Except Xlat VRead := if 3 ≤ x.typ then .ok ⟨x.data, []⟩ else vRead s.blk w.ctx x.va x.bytes;
      match r with
      | .error e => true
      | _ => false)) : Bool) = true ∧
    (let s : State := st ((secures [sect 0x40000] false true (setPoison (member 2 (mapped (linked up))) 0x40000 true)));
      let w : Securing := ⟨0, 1, 1, 1, 0, false, true, some 3, 0, 0, [sect 0x40000], 0, false⟩;
      hostClear s.blk && decide (s.blk.securing = some w) &&
      (let x : Section := sect 0x40000;
      let delays : Bool := false;
      decide (w.sections[w.next]? = some x) &&
      (let r : Except Xlat VRead := if 3 ≤ x.typ then .ok ⟨x.data, []⟩ else vRead s.blk w.ctx x.va x.bytes;
      match r with
      | .ok v => v.bad
      | _ => false)) : Bool) = true ∧
    (let s : State := st ((secures [] true true (member 2 (mapped (linked up)))));
      let w : Securing := ⟨0, 1, 1, 1, 0, true, true, some 3, 0, 0, [], 0, false⟩;
      hostClear s.blk && decide (s.blk.securing = some w) &&
      (let peerAck : Bool := true;
      let ledgerAck : Bool := true;
      decide (w.next = w.sections.length) && decide (w.holder = none ∨ ledgerAck = true) &&
      (let b1 := hostWrite 0x100 (sectionTable w.sections) w s.blk;
      match b1.securing with
      | some w1 => let b2 := hostWrite 0 (recordHeader b1 w1 true) w1 b1;
        match b2.securing with
        | some w2 => decide (w2.host = true ∨ (w2.peer = true ∧ peerAck = true))
        | _ => false
      | _ => false)) &&
      (let cause : Nat := 1;
      let target : Nat := 1;
      let refused : Bool := false;
      decide (1 ≤ cause) && decide (cause ≤ 6) &&
      (let b := if refused ∧ w.peer then { s.blk with peerSlot := 1 - w.peerSlot } else s.blk;
      decide (target = 1) && w.host)) : Bool) = true ∧
    (let s : State := st ((secures [] true true (member 2 (mapped (linked up)))));
      let w : Securing := ⟨0, 1, 1, 1, 0, true, true, some 3, 0, 0, [], 0, false⟩;
      hostClear s.blk && decide (s.blk.securing = some w) &&
      (let cause : Nat := 2;
      let target : Nat := 2;
      let refused : Bool := false;
      decide (1 ≤ cause) && decide (cause ≤ 6) &&
      (let b := if refused ∧ w.peer then { s.blk with peerSlot := 1 - w.peerSlot } else s.blk;
      decide (target = 2) && w.peer)) : Bool) = true ∧
    (let s : State := st ((secures [] true true (member 2 (mapped (linked up)))));
      let w : Securing := ⟨0, 1, 1, 1, 0, true, true, some 3, 0, 0, [], 0, false⟩;
      hostClear s.blk && decide (s.blk.securing = some w) &&
      (let cause : Nat := 3;
      let target : Nat := 3;
      let refused : Bool := false;
      decide (1 ≤ cause) && decide (cause ≤ 6) &&
      (let b := if refused ∧ w.peer then { s.blk with peerSlot := 1 - w.peerSlot } else s.blk;
      decide (target = 3))) : Bool) = true ∧
    (let s : State := st ((secures [sect 0x40000, sect 0x40000] false true (member 2 (mapped (linked up)))));
      let w : Securing := ⟨0, 1, 1, 1, 0, false, true, some 3, 0, 0, [sect 0x40000, sect 0x40000], 0, false⟩;
      hostClear s.blk && decide (s.blk.securing = some w) &&
      (let x : Section := sect 0x40000;
      let delays : Bool := false;
      decide (w.sections[w.next]? = some x) &&
      (let r : Except Xlat VRead := if 3 ≤ x.typ then .ok ⟨x.data, []⟩ else vRead s.blk w.ctx x.va x.bytes;
      match r with
      | .ok v => decide (v.bad = false) &&
        (let w' : Securing := { w with sections := w.sections.set w.next { x with digest := sectionDigest x.typ x.id x.blk w.epoch v.bytes }, next := w.next + 1, yielded := w.yielded || delays };
        let off := sectionOffset w.sections w.next;
        let b0 : Block := { s.blk with securing := some w' };
        let b1 := if delays = true ∧ w.yielded = false then yieldGuarantee 7 5 3 0x12 b0 else b0;
        let b2 := match w.holder with | some h => if w.peer then sendGang h (.keepWrite w.peerSlot off v.bytes) b1 else b1 | none => b1;
        let b3 := hostWrite off v.bytes w' b2;
        decide (w'.next < w.sections.length))
      | _ => false)) : Bool) = true ∧
    (let s : State := st ((secures [sect 0x40000] true false (member 2 (mapped (linked up)))));
      let w : Securing := ⟨0, 1, 1, 1, 0, true, false, none, 0, 0, [sect 0x40000], 0, false⟩;
      hostClear s.blk && decide (s.blk.securing = some w) &&
      (let x : Section := sect 0x40000;
      let delays : Bool := false;
      decide (w.sections[w.next]? = some x) &&
      (let r : Except Xlat VRead := if 3 ≤ x.typ then .ok ⟨x.data, []⟩ else vRead s.blk w.ctx x.va x.bytes;
      match r with
      | .ok v => decide (v.bad = false) &&
        (let w' : Securing := { w with sections := w.sections.set w.next { x with digest := sectionDigest x.typ x.id x.blk w.epoch v.bytes }, next := w.next + 1, yielded := w.yielded || delays };
        let off := sectionOffset w.sections w.next;
        let b0 : Block := { s.blk with securing := some w' };
        let b1 := if delays = true ∧ w.yielded = false then yieldGuarantee 7 5 3 0x12 b0 else b0;
        let b2 := match w.holder with | some h => if w.peer then sendGang h (.keepWrite w.peerSlot off v.bytes) b1 else b1 | none => b1;
        let b3 := hostWrite off v.bytes w' b2;
        decide (w'.next = w.sections.length) && decide (b3.securing = none ∨ w.holder = none))
      | _ => false)) : Bool) = true := by
  decide +kernel

/-- Hypotheses of `KeepHolder`, clause by clause. -/
theorem witness_KeepHolder :
    (let s : State := st (({ keeps (member 2 (mapped (linked up))) with keepWriter := [(0, 4)] }));
      let src : Nat := 3;
      let off : Nat := 0x100;
      let slot : Fin 2 := 0;
      let data : List Byte := List.replicate 64 7#8;
      let p := keepSlot s.blk slot;
      let writer := mapGet 0 s.blk.keepWriter slot;
      let newest := newestSlot (memBytes s.blk (keepSlot s.blk 0).1 256) (memBytes s.blk (keepSlot s.blk 1).1 256);
      let there := targetReachable s.blk p.1 && decide (rangeOf p.1 = .hbm);
      let mine := writer = src + 1 ∨ (writer = 0 ∧ newest ≠ some slot.val);
      let refused := fun (part : KeepPart) (cause : Nat) => exec (.keepRecordReceive src slot off part data) s = .next (s.after (sendGang src (.keepRefuse slot cause) s.blk));
      (there && decide (off + data.length ≤ p.2) &&
      decide (writer = src + 1) &&
      decide (writer = src + 1 ∨ (writer = 0 ∧ newest ≠ some slot.val)) && ledgerFits s.blk slot data.length) &&
      ledgerFits s.blk slot data.length : Bool) = true ∧
    (let s : State := st (({ keeps (member 2 (mapped (linked up))) with keepWriter := [(0, 4)] }));
      let src : Nat := 2;
      let off : Nat := 0x100;
      let slot : Fin 2 := 0;
      let data : List Byte := List.replicate 64 7#8;
      let p := keepSlot s.blk slot;
      let writer := mapGet 0 s.blk.keepWriter slot;
      let newest := newestSlot (memBytes s.blk (keepSlot s.blk 0).1 256) (memBytes s.blk (keepSlot s.blk 1).1 256);
      let there := targetReachable s.blk p.1 && decide (rangeOf p.1 = .hbm);
      let mine := writer = src + 1 ∨ (writer = 0 ∧ newest ≠ some slot.val);
      let refused := fun (part : KeepPart) (cause : Nat) => exec (.keepRecordReceive src slot off part data) s = .next (s.after (sendGang src (.keepRefuse slot cause) s.blk));
      decide ((writer ≠ 0 ∧ writer ≠ src + 1) ∨ (writer = 0 ∧ newest = some slot.val) ∨ there = false) : Bool) = true ∧
    (let s : State := st ((keeps (member 2 (mapped (linked up)))));
      let src : Nat := 3;
      let off : Nat := 0x100;
      let slot : Fin 2 := 0;
      let data : List Byte := List.replicate 64 7#8;
      let p := keepSlot s.blk slot;
      let writer := mapGet 0 s.blk.keepWriter slot;
      let newest := newestSlot (memBytes s.blk (keepSlot s.blk 0).1 256) (memBytes s.blk (keepSlot s.blk 1).1 256);
      let there := targetReachable s.blk p.1 && decide (rangeOf p.1 = .hbm);
      let mine := writer = src + 1 ∨ (writer = 0 ∧ newest ≠ some slot.val);
      let refused := fun (part : KeepPart) (cause : Nat) => exec (.keepRecordReceive src slot off part data) s = .next (s.after (sendGang src (.keepRefuse slot cause) s.blk));
      there && decide (off + data.length ≤ p.2) && decide (writer = 0) && decide (newest ≠ some slot.val) : Bool) = true ∧
    (let s : State := st ((up));
      let src : Nat := 3;
      let off : Nat := 0x100;
      let slot : Fin 2 := 0;
      let data : List Byte := List.replicate 64 7#8;
      let p := keepSlot s.blk slot;
      let writer := mapGet 0 s.blk.keepWriter slot;
      let newest := newestSlot (memBytes s.blk (keepSlot s.blk 0).1 256) (memBytes s.blk (keepSlot s.blk 1).1 256);
      let there := targetReachable s.blk p.1 && decide (rangeOf p.1 = .hbm);
      let mine := writer = src + 1 ∨ (writer = 0 ∧ newest ≠ some slot.val);
      let refused := fun (part : KeepPart) (cause : Nat) => exec (.keepRecordReceive src slot off part data) s = .next (s.after (sendGang src (.keepRefuse slot cause) s.blk));
      decide (writer = src + 1 ∨ (writer = 0 ∧ newest ≠ some slot.val)) && there && decide (p.2 < off + data.length) : Bool) = true ∧
    (let s : State := st (((List.range 8).foldl (fun b i => put (fSG_PART_SECURE i) 0 b) ({ keeps (member 2 (mapped (linked up))) with keepWriter := [(0, 4)] })));
      let src : Nat := 3;
      let off : Nat := 0x100;
      let slot : Fin 2 := 0;
      let data : List Byte := List.replicate 320 7#8;
      let p := keepSlot s.blk slot;
      let writer := mapGet 0 s.blk.keepWriter slot;
      let newest := newestSlot (memBytes s.blk (keepSlot s.blk 0).1 256) (memBytes s.blk (keepSlot s.blk 1).1 256);
      let there := targetReachable s.blk p.1 && decide (rangeOf p.1 = .hbm);
      let mine := writer = src + 1 ∨ (writer = 0 ∧ newest ≠ some slot.val);
      let refused := fun (part : KeepPart) (cause : Nat) => exec (.keepRecordReceive src slot off part data) s = .next (s.after (sendGang src (.keepRefuse slot cause) s.blk));
      there && decide (off + data.length ≤ p.2) && decide (writer = src + 1 ∨ (writer = 0 ∧ newest ≠ some slot.val)) && decide (ledgerFits s.blk slot data.length = false) &&
      decide (ledgerFits s.blk slot data.length = false) : Bool) = true := by
  decide +kernel

/-- Hypotheses of `SecureCanaryDigest`, clause by clause. -/
theorem witness_SecureCanaryDigest :
    (let s : State := st ((put fGG_SECURE_STAT_STATE 1 (pits 2 (cmd .dispatched (descOf 8 [])))));
      let q : Fin 512 := 0;
      let n : Nat := 0;
      let m : Cmd := cmd .dispatched (descOf 8 []);
      let g : Msg := msg 2 3 5 [];
      hostClear s.blk && decide (findCmd s.blk q n = some m) && m.active && decide (m.cls = 0x08) &&
      (let b := setCmd { m with stage := .running } s.blk;
      decide (get s.blk fGG_SECURE_STAT_STATE ≠ 0)) : Bool) = true ∧
    (let s : State := st ((pits 2 (cmd .dispatched (descOf 8 []))));
      let q : Fin 512 := 0;
      let n : Nat := 0;
      let m : Cmd := cmd .dispatched (descOf 8 []);
      let g : Msg := msg 2 3 5 [];
      hostClear s.blk && decide (findCmd s.blk q n = some m) && m.active && decide (m.cls = 0x08) &&
      (let b := setCmd { m with stage := .running } s.blk;
      decide (get s.blk fGG_SECURE_STAT_STATE = 0)) : Bool) = true ∧
    (let s : State := st ((put fGG_SECURE_MAN_CNT_COUNT 1 (wr64 (memWrite 0x50000 (leBytes 1 1 ++ leBytes 1 0 ++ leBytes 2 9 ++ leBytes 4 1 ++ leBytes 8 0x51000 ++ leBytes 8 64 ++ leBytes 8 0) (memWrite 0x51000 (leBytes 2 2 ++ leBytes 6 0 ++ leBytes 8 0x52000) (member 2 (mapped (linked up))))) rGG_SECURE_MAN_LO 0x50000)));
      let q : Fin 512 := 0;
      let n : Nat := 0;
      let m : Cmd := cmd .dispatched (descOf 8 []);
      let g : Msg := msg 2 3 5 (leBytes 1 0x20 ++ leBytes 1 0 ++ leBytes 2 9 ++ leBytes 4 0 ++ leBytes 4 0 ++ leBytes 2 3 ++ leBytes 1 1 ++ leBytes 17 0);
      hostClear s.blk && decide (g.cls = 5) && decide (byteAt g.payload 0 = 0x20) && decide (role s.blk ≠ 0) && decide (g.mgen = gen s.blk) &&
      (let p := g.payload;
      let id := fieldAt p 2 2;
      let blk := fieldAt p 4 4;
      let e := fieldAt p 8 4;
      let dev := fieldAt p 12 2;
      let typ := byteAt p 14;
      let answer := fun (source : Nat) (d : List Byte) => exec (.digestReqRow g) s = .next (s.after (sendMsg g.src 5 0 (digestPayload 0x21 source id blk e dev typ d) (hears g.src (takeMsg g s.blk))));
      match liveDigest s.blk typ id blk e with
      | some (x :: d) => true
      | _ => false) : Bool) = true ∧
    (let s : State := st ((setPoison (put fGG_SECURE_MAN_CNT_COUNT 1 (wr64 (memWrite 0x50000 (leBytes 1 1 ++ leBytes 1 0 ++ leBytes 2 9 ++ leBytes 4 1 ++ leBytes 8 0x51000 ++ leBytes 8 64 ++ leBytes 8 0) (memWrite 0x51000 (leBytes 2 2 ++ leBytes 6 0 ++ leBytes 8 0x52000) (member 2 (mapped (linked up))))) rGG_SECURE_MAN_LO 0x50000)) 0x52000 true));
      let q : Fin 512 := 0;
      let n : Nat := 0;
      let g : Msg := msg 2 3 5 (leBytes 1 0x20 ++ leBytes 1 0 ++ leBytes 2 9 ++ leBytes 4 0 ++ leBytes 4 0 ++ leBytes 2 3 ++ leBytes 1 1 ++ leBytes 17 0);
      hostClear s.blk && decide (g.cls = 5) && decide (byteAt g.payload 0 = 0x20) && decide (role s.blk ≠ 0) && decide (g.mgen = gen s.blk) &&
      (let p := g.payload;
      let id := fieldAt p 2 2;
      let blk := fieldAt p 4 4;
      let e := fieldAt p 8 4;
      let dev := fieldAt p 12 2;
      let typ := byteAt p 14;
      let answer := fun (source : Nat) (d : List Byte) => exec (.digestReqRow g) s = .next (s.after (sendMsg g.src 5 0 (digestPayload 0x21 source id blk e dev typ d) (hears g.src (takeMsg g s.blk))));
      decide (liveDigest s.blk typ id blk e = some [])) : Bool) = true ∧
    (let s : State := st ((member 2 (mapped (linked up))));
      let q : Fin 512 := 0;
      let n : Nat := 0;
      let m : Cmd := cmd .dispatched (descOf 8 []);
      let g : Msg := msg 2 3 5 (leBytes 1 0x20 ++ leBytes 1 0 ++ leBytes 2 9 ++ leBytes 4 0 ++ leBytes 4 0 ++ leBytes 2 3 ++ leBytes 1 1 ++ leBytes 17 0);
      hostClear s.blk && decide (g.cls = 5) && decide (byteAt g.payload 0 = 0x20) && decide (role s.blk ≠ 0) && decide (g.mgen = gen s.blk) &&
      (let p := g.payload;
      let id := fieldAt p 2 2;
      let blk := fieldAt p 4 4;
      let e := fieldAt p 8 4;
      let dev := fieldAt p 12 2;
      let typ := byteAt p 14;
      let answer := fun (source : Nat) (d : List Byte) => exec (.digestReqRow g) s = .next (s.after (sendMsg g.src 5 0 (digestPayload 0x21 source id blk e dev typ d) (hears g.src (takeMsg g s.blk))));
      decide (liveDigest s.blk typ id blk e = none) && decide (ledgerDigest s.blk typ id blk e dev = none)) : Bool) = true ∧
    (let s : State := st (({ member 2 (mapped (linked up)) with ledger := [(0, leBytes 2 1 ++ leBytes 2 3 ++ leBytes 4 0 ++ leBytes 4 0 ++ leBytes 8 0 ++ leBytes 4 1 ++ leBytes 232 0 ++ leBytes 1 1 ++ leBytes 1 0 ++ leBytes 2 9 ++ leBytes 28 0 ++ List.replicate 32 5)] }));
      let q : Fin 512 := 0;
      let n : Nat := 0;
      let m : Cmd := cmd .dispatched (descOf 8 []);
      let g : Msg := msg 2 3 5 (leBytes 1 0x20 ++ leBytes 1 0 ++ leBytes 2 9 ++ leBytes 4 0 ++ leBytes 4 0 ++ leBytes 2 3 ++ leBytes 1 1 ++ leBytes 17 0);
      hostClear s.blk && decide (g.cls = 5) && decide (byteAt g.payload 0 = 0x20) && decide (role s.blk ≠ 0) && decide (g.mgen = gen s.blk) &&
      (let p := g.payload;
      let id := fieldAt p 2 2;
      let blk := fieldAt p 4 4;
      let e := fieldAt p 8 4;
      let dev := fieldAt p 12 2;
      let typ := byteAt p 14;
      let answer := fun (source : Nat) (d : List Byte) => exec (.digestReqRow g) s = .next (s.after (sendMsg g.src 5 0 (digestPayload 0x21 source id blk e dev typ d) (hears g.src (takeMsg g s.blk))));
      decide (liveDigest s.blk typ id blk e = none) &&
      (match ledgerDigest s.blk typ id blk e dev with
      | some d => true
      | _ => false)) : Bool) = true := by
  decide +kernel

/-- Hypotheses of `Restores`, clause by clause. -/
theorem witness_Restores :
    (let s : State := st ((member 2 (mapped (withCmds [restoreCmd .dispatched 2 0xFFFF 1 4] up))));
      let q : Fin 512 := 0;
      let n : Nat := 0;
      let m : Cmd := restoreCmd .dispatched 2 0xFFFF 1 4;
      hostClear s.blk && decide (findCmd s.blk q n = some m) && decide (m.cls = 0x09) &&
      (let c := { m with stage := .running };
      let b := setCmd c (if m.stage = .dispatched ∧ m.rsrc ≠ 1 then sendGang (fieldAt m.desc 0x18 2) (.restoreRequest (m.rsrc == 3) (fieldAt m.desc 0x20 2) m.repoch) s.blk else s.blk);
      let none' : Restoring := ⟨q, n, [], [], 0, [], 0, 0⟩;
      m.active && decide (s.blk.restoring = none) &&
      (let data := RestoreData.absent;
      match restoreCheck s.blk m with
      | some o => true
      | _ => false)) : Bool) = true ∧
    (let s : State := st ((member 2 (mapped (withCmds [restoreCmd .dispatched 2 3 1 4] up))));
      let q : Fin 512 := 0;
      let n : Nat := 0;
      let m : Cmd := restoreCmd .dispatched 2 3 1 4;
      hostClear s.blk && decide (findCmd s.blk q n = some m) && decide (m.cls = 0x09) &&
      (let c := { m with stage := .running };
      let b := setCmd c (if m.stage = .dispatched ∧ m.rsrc ≠ 1 then sendGang (fieldAt m.desc 0x18 2) (.restoreRequest (m.rsrc == 3) (fieldAt m.desc 0x20 2) m.repoch) s.blk else s.blk);
      let none' : Restoring := ⟨q, n, [], [], 0, [], 0, 0⟩;
      m.active && decide (s.blk.restoring = none) && decide (restoreCheck s.blk m = none) && decide (m.rsrc ≠ 1) && decide (m.rsrc = 2) &&
      (let bs := [];
      decide (recordOk m bs = false))) : Bool) = true ∧
    (let s : State := st ((member 2 (mapped (withCmds [restoreCmd .dispatched 2 3 1 4] up))));
      let q : Fin 512 := 0;
      let n : Nat := 0;
      let m : Cmd := restoreCmd .dispatched 2 3 1 4;
      hostClear s.blk && decide (findCmd s.blk q n = some m) && decide (m.cls = 0x09) &&
      (let c := { m with stage := .running };
      let b := setCmd c (if m.stage = .dispatched ∧ m.rsrc ≠ 1 then sendGang (fieldAt m.desc 0x18 2) (.restoreRequest (m.rsrc == 3) (fieldAt m.desc 0x20 2) m.repoch) s.blk else s.blk);
      let none' : Restoring := ⟨q, n, [], [], 0, [], 0, 0⟩;
      m.active && decide (s.blk.restoring = none) && decide (restoreCheck s.blk m = none) && decide (m.rsrc ≠ 1) && decide (m.rsrc = 2) &&
      (let bs := goodRecord;
      recordOk m bs)) : Bool) = true ∧
    (let s : State := st ((member 2 (mapped (withCmds [restoreCmd .dispatched 1 3 1 4] up))));
      let q : Fin 512 := 0;
      let n : Nat := 0;
      let m : Cmd := restoreCmd .dispatched 1 3 1 4;
      hostClear s.blk && decide (findCmd s.blk q n = some m) && decide (m.cls = 0x09) &&
      (let c := { m with stage := .running };
      let b := setCmd c (if m.stage = .dispatched ∧ m.rsrc ≠ 1 then sendGang (fieldAt m.desc 0x18 2) (.restoreRequest (m.rsrc == 3) (fieldAt m.desc 0x20 2) m.repoch) s.blk else s.blk);
      let none' : Restoring := ⟨q, n, [], [], 0, [], 0, 0⟩;
      m.active && decide (s.blk.restoring = none) && decide (restoreCheck s.blk m = none) && decide (m.rsrc = 1) &&
      (let data := RestoreData.absent;
      match recordInMemory b c with
      | some v => decide (v.bad = false) && decide (recordOk m v.bytes = false)
      | _ => false)) : Bool) = true ∧
    (let s : State := st ((memWrite 0x30000 goodRecord (member 2 (mapped (withCmds [restoreCmd .dispatched 1 3 1 4] up)))));
      let q : Fin 512 := 0;
      let n : Nat := 0;
      let m : Cmd := restoreCmd .dispatched 1 3 1 4;
      hostClear s.blk && decide (findCmd s.blk q n = some m) && decide (m.cls = 0x09) &&
      (let c := { m with stage := .running };
      let b := setCmd c (if m.stage = .dispatched ∧ m.rsrc ≠ 1 then sendGang (fieldAt m.desc 0x18 2) (.restoreRequest (m.rsrc == 3) (fieldAt m.desc 0x20 2) m.repoch) s.blk else s.blk);
      let none' : Restoring := ⟨q, n, [], [], 0, [], 0, 0⟩;
      m.active && decide (s.blk.restoring = none) && decide (restoreCheck s.blk m = none) && decide (m.rsrc = 1) &&
      (let data := RestoreData.absent;
      match recordInMemory b c with
      | some v => decide (v.bad = false) && recordOk m v.bytes
      | _ => false)) : Bool) = true ∧
    (let s : State := st (({ (member 2 (mapped (withCmds [restoreCmd .dispatched 1 3 1 4] up))) with ctxs := [] }));
      let q : Fin 512 := 0;
      let n : Nat := 0;
      let m : Cmd := restoreCmd .dispatched 1 3 1 4;
      hostClear s.blk && decide (findCmd s.blk q n = some m) && decide (m.cls = 0x09) &&
      (let c := { m with stage := .running };
      let b := setCmd c (if m.stage = .dispatched ∧ m.rsrc ≠ 1 then sendGang (fieldAt m.desc 0x18 2) (.restoreRequest (m.rsrc == 3) (fieldAt m.desc 0x20 2) m.repoch) s.blk else s.blk);
      let none' : Restoring := ⟨q, n, [], [], 0, [], 0, 0⟩;
      m.active && decide (s.blk.restoring = none) && decide (restoreCheck s.blk m = none) && decide (m.rsrc = 1) &&
      (let data := RestoreData.absent;
      decide (recordInMemory b c = none))) : Bool) = true ∧
    (let s : State := st ((member 2 (mapped (withCmds [restoreCmd .running 2 3 1 4] up))));
      let q : Fin 512 := 0;
      let n : Nat := 0;
      let m : Cmd := restoreCmd .running 2 3 1 4;
      hostClear s.blk && decide (findCmd s.blk q n = some m) && decide (m.cls = 0x09) &&
      (let c := { m with stage := .running };
      let b := setCmd c (if m.stage = .dispatched ∧ m.rsrc ≠ 1 then sendGang (fieldAt m.desc 0x18 2) (.restoreRequest (m.rsrc == 3) (fieldAt m.desc 0x20 2) m.repoch) s.blk else s.blk);
      let none' : Restoring := ⟨q, n, [], [], 0, [], 0, 0⟩;
      decide (m.stage = .running) && decide (s.blk.restoring = none)) : Bool) = true ∧
    (let s : State := st (({ (member 2 (mapped (withCmds [restoreCmd .running 2 3 1 4] up))) with restoring := some ⟨0, 0, [sect 0x40000], [0], 0, [], 0, 0⟩ }));
      let q : Fin 512 := 0;
      let n : Nat := 0;
      let m : Cmd := restoreCmd .running 2 3 1 4;
      hostClear s.blk && decide (findCmd s.blk q n = some m) && decide (m.cls = 0x09) &&
      (let c := { m with stage := .running };
      let b := setCmd c (if m.stage = .dispatched ∧ m.rsrc ≠ 1 then sendGang (fieldAt m.desc 0x18 2) (.restoreRequest (m.rsrc == 3) (fieldAt m.desc 0x20 2) m.repoch) s.blk else s.blk);
      let none' : Restoring := ⟨q, n, [], [], 0, [], 0, 0⟩;
      (decide (m.stage = .running) &&
      (let r := ⟨0, 0, [sect 0x40000], [0], 0, [], 0, 0⟩;
      decide (s.blk.restoring = some r))) &&
      (let r : Restoring := ⟨0, 0, [sect 0x40000], [0], 0, [], 0, 0⟩;
      let x : Section := sect 0x40000;
      let g : Msg := msg 2 3 5 (leBytes 1 0x21 ++ leBytes 1 0 ++ leBytes 2 1 ++ leBytes 4 0 ++ leBytes 4 4 ++ leBytes 2 3 ++ leBytes 1 1 ++ leBytes 17 0 ++ leBytes 32 0);
      decide (s.blk.restoring = some r) && decide (r.queue = q.val) && decide (r.count = n) && decide (r.sections[r.verified]? = some x) && decide (g.cls = 5) && decide (byteAt g.payload 0 = 0x21) && decide (role s.blk ≠ 0) && decide (g.mgen = gen s.blk) && decide (g.src = m.digestDev) && decide (fieldAt g.payload 2 2 = x.id) && decide (fieldAt g.payload 4 4 = x.blk) && decide (byteAt g.payload 14 = x.typ) &&
      (let t := hears g.src (takeMsg g s.blk);
      let num := r.numbers.getD r.verified 0;
      decide (byteAt g.payload 1 = 0)))) : Bool) = true ∧
    (let s : State := st (({ (member 2 (mapped (withCmds [restoreCmd .running 2 3 1 4] up))) with restoring := some ⟨0, 0, [sect 0x40000], [0], 0, [], 0, 0⟩ }));
      let q : Fin 512 := 0;
      let n : Nat := 0;
      let m : Cmd := restoreCmd .running 2 3 1 4;
      hostClear s.blk && decide (findCmd s.blk q n = some m) && decide (m.cls = 0x09) &&
      (let c := { m with stage := .running };
      let b := setCmd c (if m.stage = .dispatched ∧ m.rsrc ≠ 1 then sendGang (fieldAt m.desc 0x18 2) (.restoreRequest (m.rsrc == 3) (fieldAt m.desc 0x20 2) m.repoch) s.blk else s.blk);
      let none' : Restoring := ⟨q, n, [], [], 0, [], 0, 0⟩;
      let r : Restoring := ⟨0, 0, [sect 0x40000], [0], 0, [], 0, 0⟩;
      let x : Section := sect 0x40000;
      let g : Msg := msg 2 3 5 (leBytes 1 0x21 ++ leBytes 1 1 ++ leBytes 2 1 ++ leBytes 4 0 ++ leBytes 4 4 ++ leBytes 2 3 ++ leBytes 1 1 ++ leBytes 17 0 ++ sectionDigest 1 1 0 4 (leBytes 64 0));
      decide (s.blk.restoring = some r) && decide (r.queue = q.val) && decide (r.count = n) && decide (r.sections[r.verified]? = some x) && decide (g.cls = 5) && decide (byteAt g.payload 0 = 0x21) && decide (role s.blk ≠ 0) && decide (g.mgen = gen s.blk) && decide (g.src = m.digestDev) && decide (fieldAt g.payload 2 2 = x.id) && decide (fieldAt g.payload 4 4 = x.blk) && decide (byteAt g.payload 14 = x.typ) &&
      (let t := hears g.src (takeMsg g s.blk);
      let num := r.numbers.getD r.verified 0;
      decide (byteAt g.payload 1 ≠ 0) &&
      (match vRead s.blk m.ctx x.va x.bytes with
      | .ok v => decide (v.bad = false) && decide ((g.payload.drop 0x20).take 32 = sectionDigest x.typ x.id x.blk m.repoch v.bytes)
      | _ => false))) : Bool) = true ∧
    (let s : State := st ((member 2 (mapped (withCmds [restoreCmd .dispatched 3 3 1 0] up))));
      let q : Fin 512 := 0;
      let n : Nat := 0;
      let m : Cmd := restoreCmd .dispatched 3 3 1 0;
      hostClear s.blk && decide (findCmd s.blk q n = some m) && decide (m.cls = 0x09) &&
      (let c := { m with stage := .running };
      let b := setCmd c (if m.stage = .dispatched ∧ m.rsrc ≠ 1 then sendGang (fieldAt m.desc 0x18 2) (.restoreRequest (m.rsrc == 3) (fieldAt m.desc 0x20 2) m.repoch) s.blk else s.blk);
      let none' : Restoring := ⟨q, n, [], [], 0, [], 0, 0⟩;
      m.active && decide (s.blk.restoring = none) && decide (restoreCheck s.blk m = none) && decide (m.rsrc ≠ 1) && decide (m.rsrc = 3) &&
      (let bs := ([] : List Byte);
      let e := 9;
      let pois := 0;
      decide (e ≠ m.repoch))) : Bool) = true ∧
    (let s : State := st ((setPoison (memWrite 0x30000 goodRecord (member 2 (mapped (withCmds [restoreCmd .dispatched 1 3 1 4] up)))) 0x30000 true));
      let q : Fin 512 := 0;
      let n : Nat := 0;
      let m : Cmd := restoreCmd .dispatched 1 3 1 4;
      hostClear s.blk && decide (findCmd s.blk q n = some m) && decide (m.cls = 0x09) &&
      (let c := { m with stage := .running };
      let b := setCmd c (if m.stage = .dispatched ∧ m.rsrc ≠ 1 then sendGang (fieldAt m.desc 0x18 2) (.restoreRequest (m.rsrc == 3) (fieldAt m.desc 0x20 2) m.repoch) s.blk else s.blk);
      let none' : Restoring := ⟨q, n, [], [], 0, [], 0, 0⟩;
      m.active && decide (s.blk.restoring = none) && decide (restoreCheck s.blk m = none) && decide (m.rsrc = 1) &&
      (let data := RestoreData.absent;
      match recordInMemory b c with
      | some v => v.bad
      | _ => false)) : Bool) = true := by
  decide +kernel

/-- Hypotheses of `ClustersRetire`, clause by clause. -/
theorem witness_ClustersRetire :
    (let s : State := st ((linked up));
      let c : Fin 32 := 5;
      let port : Port := .ch0;
      let cause : Nat := 3;
      (actsNowNat s.blk port (rCL_RETIRE c) 1 &&
      (let b := storeRw (rCL_RETIRE c) 1 (granted port (rCL_RETIRE c / 4096) s.blk);
      decide (isSet s.blk (fBLK_STAT_RETIRED (clBase c)) = false) && clusterSafe s.blk c)) &&
      (let failed := true;
      decide (isSet s.blk (fBLK_STAT_RETIRED (clBase c)) = false) && decide (dom s.blk c ≠ 3) && decide (1 ≤ get s.blk fDEV_BLK_CAP_CLUSTERS) && decide (get s.blk fDEV_BLK_CAP_CLUSTERS ≤ 32) &&
      (let t := retireCluster c cause failed s.blk;
      let a := clusterSram 5;
      decide (clusterSram c ≤ a) && decide (a < clusterSram c + 0xC00000))) : Bool) = true ∧
    (let s : State := st ((put (fBLK_STAT_RETIRED (clBase 5)) 1 (linked up)));
      let c : Fin 32 := 5;
      let port : Port := .ch0;
      let cause : Nat := 3;
      actsNowNat s.blk port (rCL_RETIRE c) 1 &&
      (let b := storeRw (rCL_RETIRE c) 1 (granted port (rCL_RETIRE c / 4096) s.blk);
      isSet s.blk (fBLK_STAT_RETIRED (clBase c))) : Bool) = true ∧
    (let s : State := st ((runsOn 5 (linked up)));
      let c : Fin 32 := 5;
      let port : Port := .ch0;
      let cause : Nat := 3;
      actsNowNat s.blk port (rCL_RETIRE c) 1 &&
      (let b := storeRw (rCL_RETIRE c) 1 (granted port (rCL_RETIRE c / 4096) s.blk);
      decide (isSet s.blk (fBLK_STAT_RETIRED (clBase c)) = false) && decide (clusterSafe s.blk c = false)) : Bool) = true := by
  decide +kernel

/-- Hypotheses of `QueueControl`, clause by clause. -/
theorem witness_QueueControl :
    (let s : State := st ((withCmds [] up));
      let q : Fin 512 := 0;
      let port : Port := .ch0;
      let b := granted port (0x400 + q.val) s.blk;
      let v := 3;
      actsNow s.blk port (rSQ_TAIL q) v : Bool) = true ∧
    (let s : State := st ((put (fSQ_STAT_STATE 0) 0 (withCmds [] up)));
      let q : Fin 512 := 0;
      let port : Port := .ch0;
      let b := granted port (0x400 + q.val) s.blk;
      let f := fun (v : W32) => if actsNow s.blk port (rSQ_CTL q) v = true then b else flipFirst [0x400 + q.val] b;
      actsSafely s.blk port (rSQ_CTL q) 1 && decide (qState (f 1) q = 0) && enableMay (f 1) q true : Bool) = true ∧
    (let s : State := st ((put (fSQ_STAT_STATE 0) 2 (withCmds [cmd .fetched copyDesc] up)));
      let q : Fin 512 := 0;
      let port : Port := .ch0;
      let b := granted port (0x400 + q.val) s.blk;
      let f := fun (v : W32) => if actsNow s.blk port (rSQ_CTL q) v = true then b else flipFirst [0x400 + q.val] b;
      actsSafely s.blk port (rSQ_CTL q) 0 && decide (qState (f 0) q ≠ 0) && enableMay (f 0) q false &&
      actsSafely s.blk port (rSQ_CTL q) 3 && decide (qState (f 3) q = 2) &&
      actsSafely s.blk port (rSQ_CTL q) 5 && decide (qState (f 5) q = 2) : Bool) = true := by
  decide +kernel

/-- Hypotheses of `FetchAndDispatch`, clause by clause. -/
theorem witness_FetchAndDispatch :
    (let s : State := st ((put (fSQ_SEQ_NEXT_SEQ 0) 1 (put (fSQ_TAIL_TAIL 0) 1 (memWrite 0x300000 copyDesc (wr64 (withCmds [] up) (rSQ_BASE_LO 0) 0x300000)))));
      let q : Fin 512 := 0;
      let o := if startsLate s.blk = true then yieldGuarantee 2 4 1 (fdLevel s.blk) (setFd (fun f => { f with yieldedAt := fdLevel s.blk }) s.blk) else s.blk;
      (decide (qState s.blk q = 1) && decide (get s.blk (fSQ_HEAD_HEAD q) ≠ get s.blk (fSQ_TAIL_TAIL q)) && ready s.blk && decide (activity s.blk = 0) && dispatcherRuns s.blk && domOn s.blk (domFab 1) &&
      (let head := get s.blk (fSQ_HEAD_HEAD q);
      let next := get s.blk (fSQ_SEQ_NEXT_SEQ q);
      let pa := rd64 s.blk (rSQ_BASE_LO q) + head % ringSize s.blk q * 64;
      let d := memBytes s.blk pa 64;
      let taken := put (fSQ_SEQ_NEXT_SEQ q) ((next + 1) % 2 ^ 32) (put (fSQ_HEAD_HEAD q) ((head + 1) % 2 ^ 32) s.blk);
      let c := freshCmd q head (fieldAt d 12 4) (qCtx s.blk q) d (now s.blk);
      canReach s.blk pa && decide (reachable s.blk pa = true ∧ reachable s.blk (pa + 63) = true ∧ readFails s.blk pa = false ∧ readFails s.blk (pa + 63) = false) && decide (anyPoison s.blk pa 64 = false) && decide (fieldAt d 12 4 = next))) &&
      (dispatchOpen o &&
      (let h := dispatchHeld o.cmds.length o;
      decide (readyHeads h = []))) &&
      (let c : Cmd := cmd .fetched copyDesc;
      newer32 c.seq (queue s.blk c.queue).dispSeq && decide (c.desc.length = 64) && decide (s.blk.pit.owed = none) &&
      (let x := { c with stage := .dispatched, epoch := ctxEpoch s.blk c.ctx, mask := clMask c.desc, order := s.blk.dispatches + 1, endAt := now s.blk };
      let b := setCmd x { takeDispSeq c s.blk with dispatches := s.blk.dispatches + 1 };
      decide (descFail x = none) && decide (ctxFenced s.blk c.ctx = false) && condHolds s.blk c && decide (unavailable s.blk x.mask = none) && decide (missingDomain b x = none) && decide (c.cls ≠ 0x07))) : Bool) = true ∧
    (let s : State := st ((put (fSQ_SEQ_NEXT_SEQ 0) 7 (put (fSQ_TAIL_TAIL 0) 1 (memWrite 0x300000 copyDesc (wr64 (withCmds [] up) (rSQ_BASE_LO 0) 0x300000)))));
      let q : Fin 512 := 0;
      let o := if startsLate s.blk = true then yieldGuarantee 2 4 1 (fdLevel s.blk) (setFd (fun f => { f with yieldedAt := fdLevel s.blk }) s.blk) else s.blk;
      decide (qState s.blk q = 1) && decide (get s.blk (fSQ_HEAD_HEAD q) ≠ get s.blk (fSQ_TAIL_TAIL q)) && ready s.blk && decide (activity s.blk = 0) && dispatcherRuns s.blk && domOn s.blk (domFab 1) &&
      (let head := get s.blk (fSQ_HEAD_HEAD q);
      let next := get s.blk (fSQ_SEQ_NEXT_SEQ q);
      let pa := rd64 s.blk (rSQ_BASE_LO q) + head % ringSize s.blk q * 64;
      let d := memBytes s.blk pa 64;
      let taken := put (fSQ_SEQ_NEXT_SEQ q) ((next + 1) % 2 ^ 32) (put (fSQ_HEAD_HEAD q) ((head + 1) % 2 ^ 32) s.blk);
      let c := freshCmd q head (fieldAt d 12 4) (qCtx s.blk q) d (now s.blk);
      canReach s.blk pa && decide (reachable s.blk pa = true ∧ reachable s.blk (pa + 63) = true ∧ readFails s.blk pa = false ∧ readFails s.blk (pa + 63) = false) && decide (anyPoison s.blk pa 64 = false) && decide (fieldAt d 12 4 ≠ next)) : Bool) = true ∧
    (let s : State := st ((setFd (fun f => f) (put fSC_DISPATCH_WHO 2 up)));
      let q : Fin 512 := 0;
      let o := if startsLate s.blk = true then yieldGuarantee 2 4 1 (fdLevel s.blk) (setFd (fun f => { f with yieldedAt := fdLevel s.blk }) s.blk) else s.blk;
      decide (dispatchOpen o = false) : Bool) = true ∧
    (let s : State := st ((domains (withCmds [cmd .held copyDesc] up)));
      let q : Fin 512 := 0;
      let o := if startsLate s.blk = true then yieldGuarantee 2 4 1 (fdLevel s.blk) (setFd (fun f => { f with yieldedAt := fdLevel s.blk }) s.blk) else s.blk;
      dispatchOpen o &&
      (let h := dispatchHeld o.cmds.length o;
      let c := cmd .held copyDesc;
      decide (heldReady o = some c)) : Bool) = true ∧
    (let s : State := st ((domains (withCmds [cmd .fetched copyDesc] up)));
      let q : Fin 512 := 0;
      let o := if startsLate s.blk = true then yieldGuarantee 2 4 1 (fdLevel s.blk) (setFd (fun f => { f with yieldedAt := fdLevel s.blk }) s.blk) else s.blk;
      dispatchOpen o &&
      (let h := dispatchHeld o.cmds.length o;
      let i := 0;
      let c := cmd .fetched copyDesc;
      decide (rrPick (mapGet 0 h.arb arbQueues) 512 (fun i => (readyHeads h).any (fun c => c.queue == i && qClass h i == pickClass h (readyHeads h))) = some i) && decide ((readyHeads h).find? (fun c => c.queue == i) = some c)) : Bool) = true ∧
    (let s : State := st ((domains (withCmds [] up)));
      let q : Fin 512 := 0;
      let o := if startsLate s.blk = true then yieldGuarantee 2 4 1 (fdLevel s.blk) (setFd (fun f => { f with yieldedAt := fdLevel s.blk }) s.blk) else s.blk;
      let c : Cmd := cmd .fetched (desc [2]);
      newer32 c.seq (queue s.blk c.queue).dispSeq && decide (c.desc.length = 64) && decide (s.blk.pit.owed = none) &&
      (let x := { c with stage := .dispatched, epoch := ctxEpoch s.blk c.ctx, mask := clMask c.desc, order := s.blk.dispatches + 1, endAt := now s.blk };
      let b := setCmd x { takeDispSeq c s.blk with dispatches := s.blk.dispatches + 1 };
      match descFail x with
      | some o => true
      | _ => false) : Bool) = true ∧
    (let s : State := st ((put (pairBit rSC_CTX_FENCED_LO 0) 1 (domains (withCmds [] up))));
      let q : Fin 512 := 0;
      let o := if startsLate s.blk = true then yieldGuarantee 2 4 1 (fdLevel s.blk) (setFd (fun f => { f with yieldedAt := fdLevel s.blk }) s.blk) else s.blk;
      let c : Cmd := cmd .fetched copyDesc;
      newer32 c.seq (queue s.blk c.queue).dispSeq && decide (c.desc.length = 64) && decide (s.blk.pit.owed = none) &&
      (let x := { c with stage := .dispatched, epoch := ctxEpoch s.blk c.ctx, mask := clMask c.desc, order := s.blk.dispatches + 1, endAt := now s.blk };
      let b := setCmd x { takeDispSeq c s.blk with dispatches := s.blk.dispatches + 1 };
      decide (descFail x = none) && ctxFenced s.blk c.ctx) : Bool) = true ∧
    (let s : State := st ((domains (withCmds [] up)));
      let q : Fin 512 := 0;
      let o := if startsLate s.blk = true then yieldGuarantee 2 4 1 (fdLevel s.blk) (setFd (fun f => { f with yieldedAt := fdLevel s.blk }) s.blk) else s.blk;
      let c : Cmd := cmd .fetched (desc ([2, 8, 0, 0] ++ [0, 0, 0, 0, 0xFF, 0xFF, 0, 0, 1, 0, 0, 0] ++ [0, 0, 6, 0, 0, 0, 0, 0, 1]));
      newer32 c.seq (queue s.blk c.queue).dispSeq && decide (c.desc.length = 64) && decide (s.blk.pit.owed = none) &&
      (let x := { c with stage := .dispatched, epoch := ctxEpoch s.blk c.ctx, mask := clMask c.desc, order := s.blk.dispatches + 1, endAt := now s.blk };
      let b := setCmd x { takeDispSeq c s.blk with dispatches := s.blk.dispatches + 1 };
      decide (descFail x = none) && decide (ctxFenced s.blk c.ctx = false) && decide (condHolds s.blk c = false)) : Bool) = true ∧
    (let s : State := st ((put (fBLK_STAT_RETIRED (clBase 0)) 1 (domains (withCmds [] up))));
      let q : Fin 512 := 0;
      let o := if startsLate s.blk = true then yieldGuarantee 2 4 1 (fdLevel s.blk) (setFd (fun f => { f with yieldedAt := fdLevel s.blk }) s.blk) else s.blk;
      let c : Cmd := cmd .fetched copyDesc;
      newer32 c.seq (queue s.blk c.queue).dispSeq && decide (c.desc.length = 64) && decide (s.blk.pit.owed = none) &&
      (let x := { c with stage := .dispatched, epoch := ctxEpoch s.blk c.ctx, mask := clMask c.desc, order := s.blk.dispatches + 1, endAt := now s.blk };
      let b := setCmd x { takeDispSeq c s.blk with dispatches := s.blk.dispatches + 1 };
      decide (descFail x = none) && decide (ctxFenced s.blk c.ctx = false) && condHolds s.blk c &&
      (match unavailable s.blk x.mask with
      | some n => true
      | _ => false)) : Bool) = true ∧
    (let s : State := st ((put (fDom 0) 0 (domains (withCmds [] up))));
      let q : Fin 512 := 0;
      let o := if startsLate s.blk = true then yieldGuarantee 2 4 1 (fdLevel s.blk) (setFd (fun f => { f with yieldedAt := fdLevel s.blk }) s.blk) else s.blk;
      let c : Cmd := cmd .fetched copyDesc;
      newer32 c.seq (queue s.blk c.queue).dispSeq && decide (c.desc.length = 64) && decide (s.blk.pit.owed = none) &&
      (let x := { c with stage := .dispatched, epoch := ctxEpoch s.blk c.ctx, mask := clMask c.desc, order := s.blk.dispatches + 1, endAt := now s.blk };
      let b := setCmd x { takeDispSeq c s.blk with dispatches := s.blk.dispatches + 1 };
      decide (descFail x = none) && decide (ctxFenced s.blk c.ctx = false) && condHolds s.blk c && decide (unavailable s.blk x.mask = none) &&
      (match missingDomain b x with
      | some d => true
      | _ => false)) : Bool) = true ∧
    (let s : State := st ((domains (withCmds [] up)));
      let q : Fin 512 := 0;
      let o := if startsLate s.blk = true then yieldGuarantee 2 4 1 (fdLevel s.blk) (setFd (fun f => { f with yieldedAt := fdLevel s.blk }) s.blk) else s.blk;
      let c : Cmd := pitCmd .fetched 1 0;
      newer32 c.seq (queue s.blk c.queue).dispSeq && decide (c.desc.length = 64) && decide (s.blk.pit.owed = none) &&
      (let x := { c with stage := .dispatched, epoch := ctxEpoch s.blk c.ctx, mask := clMask c.desc, order := s.blk.dispatches + 1, endAt := now s.blk };
      let b := setCmd x { takeDispSeq c s.blk with dispatches := s.blk.dispatches + 1 };
      decide (descFail x = none) && decide (ctxFenced s.blk c.ctx = false) && condHolds s.blk c && decide (unavailable s.blk x.mask = none) && decide (missingDomain b x = none) && decide (c.cls = 0x07) && decide (c.ctx ≠ stepCtx s.blk ∨ pitState s.blk ≠ 6)) : Bool) = true ∧
    (let s : State := st ((setPoison (put (fSQ_SEQ_NEXT_SEQ 0) 1 (put (fSQ_TAIL_TAIL 0) 1 (memWrite 0x300000 copyDesc (wr64 (withCmds [] up) (rSQ_BASE_LO 0) 0x300000)))) 0x300000 true));
      let q : Fin 512 := 0;
      let o := if startsLate s.blk = true then yieldGuarantee 2 4 1 (fdLevel s.blk) (setFd (fun f => { f with yieldedAt := fdLevel s.blk }) s.blk) else s.blk;
      decide (qState s.blk q = 1) && decide (get s.blk (fSQ_HEAD_HEAD q) ≠ get s.blk (fSQ_TAIL_TAIL q)) && ready s.blk && decide (activity s.blk = 0) && dispatcherRuns s.blk && domOn s.blk (domFab 1) &&
      (let head := get s.blk (fSQ_HEAD_HEAD q);
      let next := get s.blk (fSQ_SEQ_NEXT_SEQ q);
      let pa := rd64 s.blk (rSQ_BASE_LO q) + head % ringSize s.blk q * 64;
      let d := memBytes s.blk pa 64;
      let taken := put (fSQ_SEQ_NEXT_SEQ q) ((next + 1) % 2 ^ 32) (put (fSQ_HEAD_HEAD q) ((head + 1) % 2 ^ 32) s.blk);
      let c := freshCmd q head (fieldAt d 12 4) (qCtx s.blk q) d (now s.blk);
      canReach s.blk pa && decide (reachable s.blk pa = true ∧ reachable s.blk (pa + 63) = true ∧ readFails s.blk pa = false ∧ readFails s.blk (pa + 63) = false) && anyPoison s.blk pa 64) : Bool) = true ∧
    (let s : State := st ((put fGG_PIT_STATE 6 (domains (member 2 (mapped (withCmds [] up))))));
      let q : Fin 512 := 0;
      let o := if startsLate s.blk = true then yieldGuarantee 2 4 1 (fdLevel s.blk) (setFd (fun f => { f with yieldedAt := fdLevel s.blk }) s.blk) else s.blk;
      let c : Cmd := pitCmd .fetched 1 0;
      newer32 c.seq (queue s.blk c.queue).dispSeq && decide (c.desc.length = 64) && decide (s.blk.pit.owed = none) &&
      (let x := { c with stage := .dispatched, epoch := ctxEpoch s.blk c.ctx, mask := clMask c.desc, order := s.blk.dispatches + 1, endAt := now s.blk };
      let b := setCmd x { takeDispSeq c s.blk with dispatches := s.blk.dispatches + 1 };
      decide (descFail x = none) && decide (ctxFenced s.blk c.ctx = false) && condHolds s.blk c && decide (unavailable s.blk x.mask = none) && decide (missingDomain b x = none) && decide (c.cls = 0x07) && decide (c.ctx = stepCtx s.blk) && decide (pitState s.blk = 6)) : Bool) = true ∧
    (let s : State := st ((put (fSQ_SEQ_NEXT_SEQ 0) 1 (put (fSQ_TAIL_TAIL 0) 1 (wr64 (domains (withCmds [] up)) (rSQ_BASE_LO 0) 0x7FFFFFFFFC0))));
      let q : Fin 512 := 0;
      let o := if startsLate s.blk = true then yieldGuarantee 2 4 1 (fdLevel s.blk) (setFd (fun f => { f with yieldedAt := fdLevel s.blk }) s.blk) else s.blk;
      decide (qState s.blk q = 1) && decide (get s.blk (fSQ_HEAD_HEAD q) ≠ get s.blk (fSQ_TAIL_TAIL q)) && ready s.blk && decide (activity s.blk = 0) && dispatcherRuns s.blk && domOn s.blk (domFab 1) &&
      (let head := get s.blk (fSQ_HEAD_HEAD q);
      let next := get s.blk (fSQ_SEQ_NEXT_SEQ q);
      let pa := rd64 s.blk (rSQ_BASE_LO q) + head % ringSize s.blk q * 64;
      let d := memBytes s.blk pa 64;
      let taken := put (fSQ_SEQ_NEXT_SEQ q) ((next + 1) % 2 ^ 32) (put (fSQ_HEAD_HEAD q) ((head + 1) % 2 ^ 32) s.blk);
      let c := freshCmd q head (fieldAt d 12 4) (qCtx s.blk q) d (now s.blk);
      canReach s.blk pa && decide (reachable s.blk pa = false ∨ reachable s.blk (pa + 63) = false ∨ readFails s.blk pa = true ∨ readFails s.blk (pa + 63) = true)) : Bool) = true ∧
    (let s : State := st ((setPit (fun p => { p with owed := some 5 }) (domains (member 2 (mapped (withCmds [] up))))));
      let q : Fin 512 := 0;
      let o := if startsLate s.blk = true then yieldGuarantee 2 4 1 (fdLevel s.blk) (setFd (fun f => { f with yieldedAt := fdLevel s.blk }) s.blk) else s.blk;
      let c : Cmd := cmd .fetched copyDesc;
      let e : Nat := 5;
      newer32 c.seq (queue s.blk c.queue).dispSeq && decide (s.blk.pit.owed = some e) && decide (c.ctx = stepCtx s.blk) && decide (c.cls ≠ 0x07 ∨ fieldAt c.desc 0x10 4 ≠ e) : Bool) = true := by
  decide +kernel

/-- Hypotheses of `Completions`, clause by clause. -/
theorem witness_Completions :
    (let s : State := st ((put (fSQ_CFG_CTX 0) 0 (wr64 (put (fSQ_CFG_SIZE_LOG2 0) 6 (withCmds [cmd .fetched copyDesc] up)) (rSQ_CQ_LO 0) 0x310000)));
      let q : Fin 512 := 0;
      let c : Cmd := cmd .fetched copyDesc;
      decide ((cmdsOf s.blk q).head? = some c) &&
      (let log := get s.blk (fSQ_CFG_SIZE_LOG2 q);
      let pa := rd64 s.blk (rSQ_CQ_LO q) + c.count % 2 ^ log * 32;
      decide (∀ x ∈ cmdsOf s.blk q, x.stage ≠ .running) && decide (c.stage ≠ .finished)) : Bool) = true ∧
    (let s : State := st (({ serves ({ running 2 0 0 0 (copyBlock 0 0x10000 0) [] with desc := copyDesc }) { job0 with moved := 4, summed := true } { Se.fresh with entries := [(0, { Entry.fresh with pc := 1 }), (6, { Entry.fresh with pc := 1 })], outRows := 4 } Opu.fresh Ve.fresh with opus := [], ves := [] }));
      let q : Fin 512 := 0;
      let c : Cmd := { running 2 0 0 0 (copyBlock 0 0x10000 0) [] with desc := copyDesc };
      decide ((cmdsOf s.blk q).head? = some c) &&
      (let log := get s.blk (fSQ_CFG_SIZE_LOG2 q);
      let pa := rd64 s.blk (rSQ_CQ_LO q) + c.count % 2 ^ log * 32;
      decide (cmdsOf s.blk q = [c]) && decide (c.stage = .running) && kernelDone s.blk c) : Bool) = true ∧
    (let s : State := st ((put (fSQ_CFG_CTX 0) 0 (wr64 (put (fSQ_CFG_SIZE_LOG2 0) 6 (withCmds [{ cmd .finished (desc [13, 0, 0xFF, 0xFF, 0, 0, 0, 0, 9, 0, 0, 0, 1, 0, 0, 0]) with status := 0 }] up)) (rSQ_CQ_LO 0) 0x310000)));
      let q : Fin 512 := 0;
      let c : Cmd := { cmd .finished (desc [13, 0, 0xFF, 0xFF, 0, 0, 0, 0, 9, 0, 0, 0, 1, 0, 0, 0]) with status := 0 };
      decide ((cmdsOf s.blk q).head? = some c) &&
      (let log := get s.blk (fSQ_CFG_SIZE_LOG2 q);
      let pa := rd64 s.blk (rSQ_CQ_LO q) + c.count % 2 ^ log * 32;
      decide (∀ x ∈ cmdsOf s.blk q, x.stage ≠ .running) && decide (c.stage = .finished) && canReach s.blk pa && reachable s.blk pa && reachable s.blk (pa + 31) && decide (c.seq < 2 ^ 32) && decide (c.status < 256) && s.blk.memOk && isSuccess c.status) : Bool) = true ∧
    (let s : State := st ((put fGG_STEP_CTX_CTX 3 (put (fSQ_CFG_CTX 0) 0 (wr64 (put (fSQ_CFG_SIZE_LOG2 0) 6 (withCmds [{ cmd .finished (desc [13, 0, 0xFF, 0xFF, 0, 0, 0, 0, 9, 0, 0, 0, 1, 0, 0, 0]) with status := 0x10 }] up)) (rSQ_CQ_LO 0) 0x310000))));
      let q : Fin 512 := 0;
      let c : Cmd := { cmd .finished (desc [13, 0, 0xFF, 0xFF, 0, 0, 0, 0, 9, 0, 0, 0, 1, 0, 0, 0]) with status := 0x10 };
      decide ((cmdsOf s.blk q).head? = some c) &&
      (let log := get s.blk (fSQ_CFG_SIZE_LOG2 q);
      let pa := rd64 s.blk (rSQ_CQ_LO q) + c.count % 2 ^ log * 32;
      decide (∀ x ∈ cmdsOf s.blk q, x.stage ≠ .running) && decide (c.stage = .finished) && canReach s.blk pa && reachable s.blk pa && reachable s.blk (pa + 31) && decide (c.seq < 2 ^ 32) && decide (c.status < 256) && s.blk.memOk && errorStops c.status && decide (c.ctx ≠ stepCtx s.blk) && decide (qState s.blk q = 1)) : Bool) = true := by
  decide +kernel

/-- Hypotheses of `KernelsStart`, clause by clause. -/
theorem witness_KernelsStart :
    (let s : State := st ((put fGG_DEV_ID_ID 2 (startsWith (descOf 2 ((leBytes 8 0xFFFFFFFF000 ++ leBytes 4 1).map BitVec.toNat)) 0 [])));
      let q : Fin 512 := 0;
      let n : Nat := 0;
      let m : Cmd := { cmd .dispatched (descOf 2 ((leBytes 8 0xFFFFFFFF000 ++ leBytes 4 1).map BitVec.toNat)) with mask := 1 };
      hostClear s.blk && decide (findCmd s.blk q n = some m) && decide (m.cls = 2) &&
      (let out : Host.Outcome State Fault Refusal := (exec (.copy q n) s);
      decide (m.stage = .dispatched) &&
      (let fails := fun (aborts : Bool) (e : StartErr) => out = .next (s.after (if aborts = true ∨ e.status = 0x24 then abortTask q n e.status e.detail s.blk else finishCmd q n e.status e.detail s.blk));
      match fetchBlocks s.blk m with
      | .error e => true
      | _ => false)) : Bool) = true ∧
    (let s : State := st ((startsWith copyDesc 0x60000 []));
      let q : Fin 512 := 0;
      let n : Nat := 0;
      let m : Cmd := { cmd .dispatched copyDesc with mask := 1 };
      hostClear s.blk && decide (findCmd s.blk q n = some m) && decide (m.cls = 2) &&
      (let out : Host.Outcome State Fault Refusal := (exec (.copy q n) s);
      decide (m.stage = .dispatched) &&
      (let fails := fun (aborts : Bool) (e : StartErr) => out = .next (s.after (if aborts = true ∨ e.status = 0x24 then abortTask q n e.status e.detail s.blk else finishCmd q n e.status e.detail s.blk));
      match fetchBlocks s.blk m with
      | .ok c => match startChecks s.blk c (ctx s.blk c.ctx).psidy with
        | some e => true
        | _ => false
      | _ => false)) : Bool) = true ∧
    (let s : State := st ((startsWith opuDesc 0x60000 opuBlock));
      let q : Fin 512 := 0;
      let n : Nat := 0;
      let m : Cmd := { cmd .dispatched opuDesc with mask := 1 };
      hostClear s.blk && decide (findCmd s.blk q n = some m) && decide (m.cls = 1) &&
      (let out : Host.Outcome State Fault Refusal := (exec (.kernel q n) s);
      decide (m.stage = .dispatched) &&
      (let fails := fun (aborts : Bool) (e : StartErr) => out = .next (s.after (if aborts = true ∨ e.status = 0x24 then abortTask q n e.status e.detail s.blk else finishCmd q n e.status e.detail s.blk));
      match fetchBlocks s.blk m with
      | .ok c => decide (startChecks s.blk c (ctx s.blk c.ctx).psidy = none) && decide (startMissing s.blk c = none) &&
        (match makeJob s.blk c with
        | .error e => true
        | _ => false)
      | _ => false)) : Bool) = true ∧
    (let s : State := st ((memWrite 0x70002 [2] (startsWith copyDesc 0x60000 (copyBlock 2 0x70000 0))));
      let q : Fin 512 := 0;
      let n : Nat := 0;
      let m : Cmd := { cmd .dispatched copyDesc with mask := 1 };
      hostClear s.blk && decide (findCmd s.blk q n = some m) && decide (m.cls = 2) &&
      (let out : Host.Outcome State Fault Refusal := (exec (.copy q n) s);
      decide (m.stage = .dispatched) &&
      (let fails := fun (aborts : Bool) (e : StartErr) => out = .next (s.after (if aborts = true ∨ e.status = 0x24 then abortTask q n e.status e.detail s.blk else finishCmd q n e.status e.detail s.blk));
      match fetchBlocks s.blk m with
      | .ok c => decide (startChecks s.blk c (ctx s.blk c.ctx).psidy = none) && decide (startMissing s.blk c = none) &&
        (match makeJob s.blk c with
        | .ok j => let x := { c with stage := .running, ran := true };
          match fetchOwners (startEngines x j s.blk) x with
          | .error e => true
          | _ => false
        | _ => false)
      | _ => false)) : Bool) = true ∧
    (let s : State := st ((memWrite 0x70002 [1] (startsWith copyDesc 0x60000 (copyBlock 2 0x70000 0))));
      let q : Fin 512 := 0;
      let n : Nat := 0;
      let m : Cmd := { cmd .dispatched copyDesc with mask := 1 };
      hostClear s.blk && decide (findCmd s.blk q n = some m) && decide (m.cls = 2) &&
      (let out : Host.Outcome State Fault Refusal := (exec (.copy q n) s);
      decide (m.stage = .dispatched) &&
      (let fails := fun (aborts : Bool) (e : StartErr) => out = .next (s.after (if aborts = true ∨ e.status = 0x24 then abortTask q n e.status e.detail s.blk else finishCmd q n e.status e.detail s.blk));
      match fetchBlocks s.blk m with
      | .ok c => decide (startChecks s.blk c (ctx s.blk c.ctx).psidy = none) && decide (startMissing s.blk c = none) &&
        (match makeJob s.blk c with
        | .ok j => let x := { c with stage := .running, ran := true };
          match fetchOwners (startEngines x j s.blk) x with
          | .ok os => match shadowFail x os with
            | some e => true
            | _ => false
          | _ => false
        | _ => false)
      | _ => false)) : Bool) = true ∧
    (let s : State := st ((memWrite 0x61000 (scanImage 7) (startsWith scanDesc 0x60000 scanBlock)));
      let q : Fin 512 := 0;
      let n : Nat := 0;
      let m : Cmd := { cmd .dispatched scanDesc with mask := 1 };
      hostClear s.blk && decide (findCmd s.blk q n = some m) && decide (m.cls = 5) &&
      (let out : Host.Outcome State Fault Refusal := (exec (.scanRowCmd q n) s);
      decide (m.stage = .dispatched) &&
      (let fails := fun (aborts : Bool) (e : StartErr) => out = .next (s.after (if aborts = true ∨ e.status = 0x24 then abortTask q n e.status e.detail s.blk else finishCmd q n e.status e.detail s.blk));
      match fetchBlocks s.blk m with
      | .ok c => decide (startChecks s.blk c (ctx s.blk c.ctx).psidy = none) && decide (startMissing s.blk c = none) &&
        (match makeJob s.blk c with
        | .ok j => let x := { c with stage := .running, ran := true };
          match fetchOwners (startEngines x j s.blk) x with
          | .ok os => decide (shadowFail x os = none) && decide (takeTally x s.blk = none)
          | _ => false
        | _ => false)
      | _ => false)) : Bool) = true ∧
    (let s : State := st ((memWrite 0x61000 (scanImage 0x10007) (startsWith scanDesc 0x60000 scanBlock)));
      let q : Fin 512 := 0;
      let n : Nat := 0;
      let m : Cmd := { cmd .dispatched scanDesc with mask := 1 };
      hostClear s.blk && decide (findCmd s.blk q n = some m) && decide (m.cls = 5) &&
      (let out : Host.Outcome State Fault Refusal := (exec (.scanRowCmd q n) s);
      decide (m.stage = .dispatched) &&
      (let fails := fun (aborts : Bool) (e : StartErr) => out = .next (s.after (if aborts = true ∨ e.status = 0x24 then abortTask q n e.status e.detail s.blk else finishCmd q n e.status e.detail s.blk));
      match fetchBlocks s.blk m with
      | .ok c => decide (startChecks s.blk c (ctx s.blk c.ctx).psidy = none) && decide (startMissing s.blk c = none) &&
        (match makeJob s.blk c with
        | .ok j => let x := { c with stage := .running, ran := true };
          match fetchOwners (startEngines x j s.blk) x with
          | .ok os => decide (shadowFail x os = none) &&
            (match takeTally x s.blk with
            | some b => let k := { j with owners := os, ordered := needsOrder (devId b) x os };
              let t := noteStreams x k (startEngines x k b);
              let u := ownerGrants x (countStart t x k t);
              decide (scanPred u x = none ∨ x.fromDrift = false ∨ ∀ d, scanPred u x = some d → (failedIds u).contains d = false)
            | _ => false)
          | _ => false
        | _ => false)
      | _ => false)) : Bool) = true ∧
    (let s : State := st ((startsWith copyDesc 0x60000 (copyBlock 0 0x10000 0)));
      let q : Fin 512 := 0;
      let n : Nat := 0;
      let m : Cmd := { cmd .dispatched copyDesc with mask := 1 };
      hostClear s.blk && decide (findCmd s.blk q n = some m) && decide (m.cls = 2) &&
      (let out : Host.Outcome State Fault Refusal := (exec (.copy q n) s);
      decide (m.stage = .dispatched) &&
      (let fails := fun (aborts : Bool) (e : StartErr) => out = .next (s.after (if aborts = true ∨ e.status = 0x24 then abortTask q n e.status e.detail s.blk else finishCmd q n e.status e.detail s.blk));
      match fetchBlocks s.blk m with
      | .ok c => decide (startChecks s.blk c (ctx s.blk c.ctx).psidy = none) && decide (startMissing s.blk c = none) &&
        (match makeJob s.blk c with
        | .ok j => let x := { c with stage := .running, ran := true };
          match fetchOwners (startEngines x j s.blk) x with
          | .ok os => decide (shadowFail x os = none) &&
            (match takeTally x s.blk with
            | some b => let k := { j with owners := os, ordered := needsOrder (devId b) x os };
              let t := noteStreams x k (startEngines x k b);
              let u := ownerGrants x (countStart t x k t);
              decide (scanPred u x = none ∨ x.fromDrift = false ∨ ∀ d, scanPred u x = some d → (failedIds u).contains d = false)
            | _ => false)
          | _ => false
        | _ => false)
      | _ => false)) : Bool) = true ∧
    (let s : State := st ((serves ({ running 2 0 0 0 (copyBlock 0 0x10000 0) [] with desc := copyDesc }) job0 Se.fresh Opu.fresh Ve.fresh));
      let q : Fin 512 := 0;
      let n : Nat := 0;
      let m : Cmd := { running 2 0 0 0 (copyBlock 0 0x10000 0) [] with desc := copyDesc };
      hostClear s.blk && decide (findCmd s.blk q n = some m) && decide (m.cls = 2) &&
      (let out : Host.Outcome State Fault Refusal := (exec (.copy q n) s);
      decide (m.stage = .running) && m.isMove) : Bool) = true ∧
    (let s : State := st ((startsWith (descOf 3 ((leBytes 8 0xFFFFFFFF000 ++ leBytes 4 1).map BitVec.toNat)) 0 []));
      let q : Fin 512 := 0;
      let n : Nat := 0;
      let m : Cmd := { cmd .dispatched (descOf 3 ((leBytes 8 0xFFFFFFFF000 ++ leBytes 4 1).map BitVec.toNat)) with mask := 1 };
      hostClear s.blk && decide (findCmd s.blk q n = some m) && decide (m.cls = 3) &&
      (let out : Host.Outcome State Fault Refusal := (exec (.gatherRow q n) s);
      decide (m.stage = .dispatched) &&
      (let fails := fun (aborts : Bool) (e : StartErr) => out = .next (s.after (if aborts = true ∨ e.status = 0x24 then abortTask q n e.status e.detail s.blk else finishCmd q n e.status e.detail s.blk));
      match fetchBlocks s.blk m with
      | .error e => true
      | _ => false)) : Bool) = true ∧
    (let s : State := st ((startsWith (descOf 4 ((leBytes 8 0xFFFFFFFF000 ++ leBytes 4 1).map BitVec.toNat)) 0 []));
      let q : Fin 512 := 0;
      let n : Nat := 0;
      let m : Cmd := { cmd .dispatched (descOf 4 ((leBytes 8 0xFFFFFFFF000 ++ leBytes 4 1).map BitVec.toNat)) with mask := 1 };
      hostClear s.blk && decide (findCmd s.blk q n = some m) && decide (m.cls = 4) &&
      (let out : Host.Outcome State Fault Refusal := (exec (.scatterRow q n) s);
      decide (m.stage = .dispatched) &&
      (let fails := fun (aborts : Bool) (e : StartErr) => out = .next (s.after (if aborts = true ∨ e.status = 0x24 then abortTask q n e.status e.detail s.blk else finishCmd q n e.status e.detail s.blk));
      match fetchBlocks s.blk m with
      | .error e => true
      | _ => false)) : Bool) = true ∧
    (let s : State := st ((setGang (fun g => { g with cur := some { table3 with members := [(1, 2), (2, 1), (3, 1)] } }) (memWrite 0x61000 ((scanImage 0x10007).set 0x2B 2) (startsWith scanDesc 0x60000 scanBlock))));
      let q : Fin 512 := 0;
      let n : Nat := 0;
      let m : Cmd := { cmd .dispatched scanDesc with mask := 1 };
      hostClear s.blk && decide (findCmd s.blk q n = some m) && decide (m.cls = 5) &&
      (let out : Host.Outcome State Fault Refusal := (exec (.scanRowCmd q n) s);
      decide (m.stage = .dispatched) &&
      (let fails := fun (aborts : Bool) (e : StartErr) => out = .next (s.after (if aborts = true ∨ e.status = 0x24 then abortTask q n e.status e.detail s.blk else finishCmd q n e.status e.detail s.blk));
      match fetchBlocks s.blk m with
      | .ok c => decide (startChecks s.blk c (ctx s.blk c.ctx).psidy = none) && decide (startMissing s.blk c = none) &&
        (match makeJob s.blk c with
        | .ok j => let x := { c with stage := .running, ran := true };
          match fetchOwners (startEngines x j s.blk) x with
          | .ok os => decide (shadowFail x os = none) &&
            (match takeTally x s.blk with
            | some b => let k := { j with owners := os, ordered := needsOrder (devId b) x os };
              let t := noteStreams x k (startEngines x k b);
              let u := ownerGrants x (countStart t x k t);
              match scanPred u x with
              | some d => x.fromDrift && (failedIds u).contains d
              | _ => false
            | _ => false)
          | _ => false
        | _ => false)
      | _ => false)) : Bool) = true ∧
    (let s : State := st ((startsWith (descOf 1 ((leBytes 8 (0x1033 + 0x20000) ++ leBytes 8 0 ++ leBytes 8 0x60000 ++ leBytes 4 1 ++ leBytes 4 1).map BitVec.toNat)) 0x60000 opuBlock));
      let q : Fin 512 := 0;
      let n : Nat := 0;
      let m : Cmd := { cmd .dispatched (descOf 1 ((leBytes 8 (0x1033 + 0x20000) ++ leBytes 8 0 ++ leBytes 8 0x60000 ++ leBytes 4 1 ++ leBytes 4 1).map BitVec.toNat)) with mask := 1 };
      hostClear s.blk && decide (findCmd s.blk q n = some m) && decide (m.cls = 1) &&
      (let out : Host.Outcome State Fault Refusal := (exec (.kernel q n) s);
      decide (m.stage = .dispatched) &&
      (let fails := fun (aborts : Bool) (e : StartErr) => out = .next (s.after (if aborts = true ∨ e.status = 0x24 then abortTask q n e.status e.detail s.blk else finishCmd q n e.status e.detail s.blk));
      match fetchBlocks s.blk m with
      | .ok c => decide (startChecks s.blk c (ctx s.blk c.ctx).psidy = none) && decide (startMissing s.blk c = none) &&
        (match makeJob s.blk c with
        | .ok j => let x := { c with stage := .running, ran := true };
          match fetchOwners (startEngines x j s.blk) x with
          | .ok os => decide (shadowFail x os = none) &&
            (match takeTally x s.blk with
            | some b => let k := { j with owners := os, ordered := needsOrder (devId b) x os };
              let t := noteStreams x k (startEngines x k b);
              let u := ownerGrants x (countStart t x k t);
              decide (scanPred u x = none ∨ x.fromDrift = false ∨ ∀ d, scanPred u x = some d → (failedIds u).contains d = false)
            | _ => false)
          | _ => false
        | _ => false)
      | _ => false)) : Bool) = true := by
  decide +kernel

/-- Hypotheses of `PlainCommands`, clause by clause. -/
theorem witness_PlainCommands :
    (let s : State := st ((withCmds [cmd .dispatched (descOf 10 [0])] up));
      let q : Fin 512 := 0;
      let n : Nat := 0;
      let m : Cmd := cmd .dispatched (descOf 10 [0]);
      decide (findCmd s.blk q n = some m) &&
      (let run := { m with stage := .running };
      let b := setCmd run s.blk;
      decide (m.stage = .dispatched) && decide (m.cls = 0x0A)) : Bool) = true ∧
    (let s : State := st ((withCmds [cmd .dispatched (descOf 11 [0])] up));
      let q : Fin 512 := 0;
      let n : Nat := 0;
      let m : Cmd := cmd .dispatched (descOf 11 [0]);
      decide (findCmd s.blk q n = some m) &&
      (let run := { m with stage := .running };
      let b := setCmd run s.blk;
      decide (m.stage = .dispatched) && decide (m.cls = 0x0B)) : Bool) = true ∧
    (let s : State := st ((withCmds [cmd .dispatched (descOf 12 [0])] up));
      let q : Fin 512 := 0;
      let n : Nat := 0;
      let m : Cmd := cmd .dispatched (descOf 12 [0]);
      decide (findCmd s.blk q n = some m) &&
      (let run := { m with stage := .running };
      let b := setCmd run s.blk;
      decide (m.stage = .dispatched) && decide (m.cls = 0x0C) && decide (m.waitMode = 0)) : Bool) = true ∧
    (let s : State := st ((withCmds [cmd .dispatched (descOf 12 [1, 0, 0, 0, 0, 0, 0, 0, 9])] up));
      let q : Fin 512 := 0;
      let n : Nat := 0;
      let m : Cmd := cmd .dispatched (descOf 12 [1, 0, 0, 0, 0, 0, 0, 0, 9]);
      decide (findCmd s.blk q n = some m) &&
      (let run := { m with stage := .running };
      let b := setCmd run s.blk;
      decide (m.stage = .dispatched) && decide (m.cls = 0x0C) && decide (m.waitMode = 1)) : Bool) = true ∧
    (let s : State := st ((withCmds [cmd .dispatched (descOf 12 [2, 0, 0, 0, 0, 0, 0, 0, 9])] up));
      let q : Fin 512 := 0;
      let n : Nat := 0;
      let m : Cmd := cmd .dispatched (descOf 12 [2, 0, 0, 0, 0, 0, 0, 0, 9]);
      decide (findCmd s.blk q n = some m) &&
      (let run := { m with stage := .running };
      let b := setCmd run s.blk;
      decide (m.stage = .dispatched) && decide (m.cls = 0x0C) && decide (m.waitMode = 2)) : Bool) = true ∧
    (let s : State := st ((withCmds [cmd .dispatched (descOf 13 [1])] up));
      let q : Fin 512 := 0;
      let n : Nat := 0;
      let m : Cmd := cmd .dispatched (descOf 13 [1]);
      decide (findCmd s.blk q n = some m) &&
      (let run := { m with stage := .running };
      let b := setCmd run s.blk;
      decide (m.stage = .dispatched) && decide (m.cls = 0x0D)) : Bool) = true ∧
    (let s : State := st ((withCmds [cmd .running (descOf 12 [1])] up));
      let q : Fin 512 := 0;
      let n : Nat := 0;
      let m : Cmd := cmd .running (descOf 12 [1]);
      decide (findCmd s.blk q n = some m) &&
      (let run := { m with stage := .running };
      let b := setCmd run s.blk;
      decide (m.cls = 0x0C) && decide (m.stage = .running)) : Bool) = true ∧
    (let s : State := st ((withCmds [cmd .fetched (desc ([12, 0, 3, 0, 5, 0, 0, 0, 0xFF, 0xFF, 0, 0, 1, 0, 0, 0] ++ List.replicate 16 0 ++ [9]))] up));
      let q : Fin 512 := 0;
      let n : Nat := 0;
      let m : Cmd := cmd .fetched (desc ([12, 0, 3, 0, 5, 0, 0, 0, 0xFF, 0xFF, 0, 0, 1, 0, 0, 0] ++ List.replicate 16 0 ++ [9]));
      decide (findCmd s.blk q n = some m) &&
      (let run := { m with stage := .running };
      let b := setCmd run s.blk;
      decide (m.cls = 0x0C) && decide (m.stage = .fetched ∨ m.stage = .held) && decide ((cmdsOf s.blk q).head? = some m) && decide (qState s.blk q = 1) && decide (m.waitTimeout ≠ 0) && decide (descFail m = none) && decide (tokenReached s.blk m = false)) : Bool) = true := by
  decide +kernel

/-- Hypotheses of `TxnCommands`, clause by clause. -/
theorem witness_TxnCommands :
    (let s : State := st ((withCmds [cmd .dispatched (descOf 14 [0x90, 0, 1, 0, 5])] up));
      let q : Fin 512 := 0;
      let n : Nat := 0;
      let m : Cmd := cmd .dispatched (descOf 14 [0x90, 0, 1, 0, 5]);
      decide (findCmd s.blk q n = some m) && decide (m.stage = .dispatched) && decide (m.cls = 0x0E) &&
      (let run := { m with stage := .running };
      let b := setCmd run s.blk;
      let off := txnCtlOff m.txnPage;
      decide (m.txnOp = 1)) : Bool) = true ∧
    (let s : State := st ((withCmds [cmd .dispatched (descOf 14 [0x90, 0, 2, 0, 0])] up));
      let q : Fin 512 := 0;
      let n : Nat := 0;
      let m : Cmd := cmd .dispatched (descOf 14 [0x90, 0, 2, 0, 0]);
      decide (findCmd s.blk q n = some m) && decide (m.stage = .dispatched) && decide (m.cls = 0x0E) &&
      (let run := { m with stage := .running };
      let b := setCmd run s.blk;
      let off := txnCtlOff m.txnPage;
      decide (m.txnOp = 2) &&
      (let r := txnCtlWrite m.txnPage 2 b;
      decide (r.2 = false))) : Bool) = true ∧
    (let s : State := st ((withCmds [cmd .dispatched (descOf 14 [0x90, 0, 3, 0, 0])] up));
      let q : Fin 512 := 0;
      let n : Nat := 0;
      let m : Cmd := cmd .dispatched (descOf 14 [0x90, 0, 3, 0, 0]);
      decide (findCmd s.blk q n = some m) && decide (m.stage = .dispatched) && decide (m.cls = 0x0E) &&
      (let run := { m with stage := .running };
      let b := setCmd run s.blk;
      let off := txnCtlOff m.txnPage;
      decide (m.txnOp = 3)) : Bool) = true ∧
    (let s : State := st ((withCmds [cmd .dispatched (descOf 14 [0x90, 0, 4, 1, 0])] up));
      let q : Fin 512 := 0;
      let n : Nat := 0;
      let m : Cmd := cmd .dispatched (descOf 14 [0x90, 0, 4, 1, 0]);
      decide (findCmd s.blk q n = some m) && decide (m.stage = .dispatched) && decide (m.cls = 0x0E) &&
      (let run := { m with stage := .running };
      let b := setCmd run s.blk;
      let off := txnCtlOff m.txnPage;
      decide (m.txnOp = 4)) : Bool) = true ∧
    (let s : State := st (({ withCmds [cmd .dispatched (descOf 14 [0x90, 0, 2])] (openTxn 0x90 []) with txn := (openTxn 0x90 []).txn }));
      let q : Fin 512 := 0;
      let n : Nat := 0;
      let m : Cmd := cmd .dispatched (descOf 14 [0x90, 0, 2]);
      decide (findCmd s.blk q n = some m) && decide (m.stage = .dispatched) && decide (m.cls = 0x0E) &&
      (let run := { m with stage := .running };
      let b := setCmd run s.blk;
      let off := txnCtlOff m.txnPage;
      decide (m.txnOp = 2) &&
      (let r := txnCtlWrite m.txnPage 2 b;
      r.2 && decide ((txnStatus r.1 m.txnPage).1 = 0))) : Bool) = true ∧
    (let s : State := st (({ withCmds [cmd .dispatched (descOf 14 [0x90, 0, 2])] (openTxn 0x90 [(rOP_STALL_LIMIT 0, 7#32)]) with txn := (openTxn 0x90 [(rOP_STALL_LIMIT 0, 7#32)]).txn }));
      let q : Fin 512 := 0;
      let n : Nat := 0;
      let m : Cmd := cmd .dispatched (descOf 14 [0x90, 0, 2]);
      decide (findCmd s.blk q n = some m) && decide (m.stage = .dispatched) && decide (m.cls = 0x0E) &&
      (let run := { m with stage := .running };
      let b := setCmd run s.blk;
      let off := txnCtlOff m.txnPage;
      decide (m.txnOp = 2) &&
      (let r := txnCtlWrite m.txnPage 2 b;
      r.2 && decide ((txnStatus r.1 m.txnPage).1 ≠ 0))) : Bool) = true := by
  decide +kernel

/-- Hypotheses of `ChaellLink`, clause by clause. -/
theorem witness_ChaellLink :
    (let s : State := st ((put (fDom (domCh 0)) 2 (setPort 0 { chPort (linked up) 0 with caps := none } (put (fCH_LINK_STATE 1) 0 (put (fCH_LINK_STATE 0) 0 (linked up))))));
      let p : Fin 2 := 0;
      let caps : List Byte := List.replicate 16 0;
      let st := portState s.blk p;
      let x := chPort s.blk p;
      let into := fun (n : Nat) => post 0x0602 (0x140 + p.val) n (put (fCH_LINK_STATE p) n s.blk);
      let up := fun (b : Block) => if x.cfgCtl.testBit 0 then { b with hostDead := false } else b;
      let capsOut := leBytes 2 0x03A5 ++ leBytes 2 0xB240 ++ leBytes 1 (stepping s.blk) ++ leBytes 1 p ++ leBytes 1 1;
      let train := emit (.flit (18 + p.val) (flitBytes 5 capsOut)) (setPort p { x with caps := none, capsSame := false } (into 1));
      let down : Block := { into 4 with links := mapErase s.blk.links (18 + p.val), chaell := mapSet ChPort.fresh s.blk.chaell p { ChPort.fresh with reads := x.reads, nextTag := x.nextTag, intrHeld := x.intrHeld } };
      decide (st = 0) && decide (dom s.blk (domCh p) = 2) : Bool) = true ∧
    (let s : State := st ((setPort 0 { chPort (linked up) 0 with caps := none } (put (fCH_LINK_STATE 1) 0 (put (fCH_LINK_STATE 0) 4 (linked up)))));
      let p : Fin 2 := 0;
      let caps : List Byte := List.replicate 16 0;
      let st := portState s.blk p;
      let x := chPort s.blk p;
      let into := fun (n : Nat) => post 0x0602 (0x140 + p.val) n (put (fCH_LINK_STATE p) n s.blk);
      let up := fun (b : Block) => if x.cfgCtl.testBit 0 then { b with hostDead := false } else b;
      let capsOut := leBytes 2 0x03A5 ++ leBytes 2 0xB240 ++ leBytes 1 (stepping s.blk) ++ leBytes 1 p ++ leBytes 1 1;
      let train := emit (.flit (18 + p.val) (flitBytes 5 capsOut)) (setPort p { x with caps := none, capsSame := false } (into 1));
      let down : Block := { into 4 with links := mapErase s.blk.links (18 + p.val), chaell := mapSet ChPort.fresh s.blk.chaell p { ChPort.fresh with reads := x.reads, nextTag := x.nextTag, intrHeld := x.intrHeld } };
      decide (st = 4) : Bool) = true ∧
    (let s : State := st ((setPort 0 { chPort (linked up) 0 with capsSame := true } (put (fCH_LINK_STATE 1) 0 (put (fCH_LINK_STATE 0) 1 (linked up)))));
      let p : Fin 2 := 0;
      let caps : List Byte := List.replicate 16 0;
      let st := portState s.blk p;
      let x := chPort s.blk p;
      let into := fun (n : Nat) => post 0x0602 (0x140 + p.val) n (put (fCH_LINK_STATE p) n s.blk);
      let up := fun (b : Block) => if x.cfgCtl.testBit 0 then { b with hostDead := false } else b;
      let capsOut := leBytes 2 0x03A5 ++ leBytes 2 0xB240 ++ leBytes 1 (stepping s.blk) ++ leBytes 1 p ++ leBytes 1 1;
      let train := emit (.flit (18 + p.val) (flitBytes 5 capsOut)) (setPort p { x with caps := none, capsSame := false } (into 1));
      let down : Block := { into 4 with links := mapErase s.blk.links (18 + p.val), chaell := mapSet ChPort.fresh s.blk.chaell p { ChPort.fresh with reads := x.reads, nextTag := x.nextTag, intrHeld := x.intrHeld } };
      decide (st = 1 ∨ st = 3) &&
      decide (st = 1) && x.capsSame &&
      decide (portState s.blk (1 - p.val) ≠ 2) && decide (portState s.blk (1 - p.val) ≠ 3) && decide (st = 1) &&
      decide (st ≠ 2 ∧ st ≠ 3) : Bool) = true ∧
    (let s : State := st ((setPort 0 { chPort (linked up) 0 with caps := none } (put (fCH_LINK_STATE 1) 2 (put (fCH_LINK_STATE 0) 1 (linked up)))));
      let p : Fin 2 := 0;
      let caps : List Byte := List.replicate 16 0;
      let st := portState s.blk p;
      let x := chPort s.blk p;
      let into := fun (n : Nat) => post 0x0602 (0x140 + p.val) n (put (fCH_LINK_STATE p) n s.blk);
      let up := fun (b : Block) => if x.cfgCtl.testBit 0 then { b with hostDead := false } else b;
      let capsOut := leBytes 2 0x03A5 ++ leBytes 2 0xB240 ++ leBytes 1 (stepping s.blk) ++ leBytes 1 p ++ leBytes 1 1;
      let train := emit (.flit (18 + p.val) (flitBytes 5 capsOut)) (setPort p { x with caps := none, capsSame := false } (into 1));
      let down : Block := { into 4 with links := mapErase s.blk.links (18 + p.val), chaell := mapSet ChPort.fresh s.blk.chaell p { ChPort.fresh with reads := x.reads, nextTag := x.nextTag, intrHeld := x.intrHeld } };
      decide (portState s.blk (1 - p.val) = 2 ∨ portState s.blk (1 - p.val) = 3) && decide (st = 1) : Bool) = true ∧
    (let s : State := st ((setPort 0 { chPort (linked up) 0 with caps := none } (put (fCH_LINK_STATE 1) 2 (put (fCH_LINK_STATE 0) 3 (linked up)))));
      let p : Fin 2 := 0;
      let caps : List Byte := List.replicate 16 0;
      let st := portState s.blk p;
      let x := chPort s.blk p;
      let into := fun (n : Nat) => post 0x0602 (0x140 + p.val) n (put (fCH_LINK_STATE p) n s.blk);
      let up := fun (b : Block) => if x.cfgCtl.testBit 0 then { b with hostDead := false } else b;
      let capsOut := leBytes 2 0x03A5 ++ leBytes 2 0xB240 ++ leBytes 1 (stepping s.blk) ++ leBytes 1 p ++ leBytes 1 1;
      let train := emit (.flit (18 + p.val) (flitBytes 5 capsOut)) (setPort p { x with caps := none, capsSame := false } (into 1));
      let down : Block := { into 4 with links := mapErase s.blk.links (18 + p.val), chaell := mapSet ChPort.fresh s.blk.chaell p { ChPort.fresh with reads := x.reads, nextTag := x.nextTag, intrHeld := x.intrHeld } };
      decide (portState s.blk (1 - p.val) = 2 ∨ portState s.blk (1 - p.val) = 3) && decide (st = 3) : Bool) = true ∧
    (let s : State := st ((setPort 0 { chPort (linked up) 0 with caps := none } (put (fCH_LINK_STATE 1) 0 (put (fCH_LINK_STATE 0) 2 (linked up)))));
      let p : Fin 2 := 0;
      let caps : List Byte := List.replicate 16 0;
      let st := portState s.blk p;
      let x := chPort s.blk p;
      let into := fun (n : Nat) => post 0x0602 (0x140 + p.val) n (put (fCH_LINK_STATE p) n s.blk);
      let up := fun (b : Block) => if x.cfgCtl.testBit 0 then { b with hostDead := false } else b;
      let capsOut := leBytes 2 0x03A5 ++ leBytes 2 0xB240 ++ leBytes 1 (stepping s.blk) ++ leBytes 1 p ++ leBytes 1 1;
      let train := emit (.flit (18 + p.val) (flitBytes 5 capsOut)) (setPort p { x with caps := none, capsSame := false } (into 1));
      let down : Block := { into 4 with links := mapErase s.blk.links (18 + p.val), chaell := mapSet ChPort.fresh s.blk.chaell p { ChPort.fresh with reads := x.reads, nextTag := x.nextTag, intrHeld := x.intrHeld } };
      decide (st = 2) &&
      decide (st = 2) : Bool) = true ∧
    (let s : State := st ((setPort 0 { chPort (linked up) 0 with capsSame := true } (put (fCH_LINK_STATE 1) 0 (put (fCH_LINK_STATE 0) 3 (linked up)))));
      let p : Fin 2 := 0;
      let caps : List Byte := List.replicate 16 0;
      let st := portState s.blk p;
      let x := chPort s.blk p;
      let into := fun (n : Nat) => post 0x0602 (0x140 + p.val) n (put (fCH_LINK_STATE p) n s.blk);
      let up := fun (b : Block) => if x.cfgCtl.testBit 0 then { b with hostDead := false } else b;
      let capsOut := leBytes 2 0x03A5 ++ leBytes 2 0xB240 ++ leBytes 1 (stepping s.blk) ++ leBytes 1 p ++ leBytes 1 1;
      let train := emit (.flit (18 + p.val) (flitBytes 5 capsOut)) (setPort p { x with caps := none, capsSame := false } (into 1));
      let down : Block := { into 4 with links := mapErase s.blk.links (18 + p.val), chaell := mapSet ChPort.fresh s.blk.chaell p { ChPort.fresh with reads := x.reads, nextTag := x.nextTag, intrHeld := x.intrHeld } };
      decide (portState s.blk (1 - p.val) ≠ 2) && decide (portState s.blk (1 - p.val) ≠ 3) && decide (st = 3) &&
      decide (st = 3) && x.capsSame &&
      decide (st = 3) : Bool) = true := by
  decide +kernel

/-- Hypotheses of `HostTransactions`, clause by clause. -/
theorem witness_HostTransactions :
    (let s : State := st ((setPort 0 { chPort (linked up) 0 with cfgCtl := 3 } (linked up)));
      let p : Fin 2 := 0;
      let t : ChTxn := ⟨1, 3, 8, 0, 0, none, []⟩;
      decide (portState s.blk p = 2) &&
      (let x := chPort s.blk p;
      let port : Port := if p.val = 0 then .ch0 else .ch1;
      txnClean t false &&
      (let ups : List Upset := ([] : List Upset);
      let b := ups.foldl sramUpset s.blk;
      let y := chPort b p;
      decide (portState b p = 2) && y.cfgCtl.testBit 0 && txnClean t false && decide (windowOf y t.addr = .outside))) : Bool) = true ∧
    (let s : State := st ((settle (setPort 0 { chPort (linked up) 0 with cfgCtl := 3 } (linked up))));
      let p : Fin 2 := 0;
      let t : ChTxn := ⟨2, 3, 4, 0, 24, none, (leBytes 4 1)⟩;
      decide (portState s.blk p = 2) &&
      (let x := chPort s.blk p;
      let port : Port := if p.val = 0 then .ch0 else .ch1;
      txnClean t true && decide (t.poison = none) && decide (t.addr = 0x18) && decide (t.len = 4) && decide (x.intrHeld = []) &&
      x.cfgCtl.testBit 0 && txnClean t true && decide (windowOf x t.addr = .outside)) : Bool) = true ∧
    (let s : State := st ((setPort 0 { chPort (linked up) 0 with cfgCtl := 0 } (linked up)));
      let p : Fin 2 := 0;
      let t : ChTxn := ⟨2, 3, 8, 0, 8, none, (leBytes 8 0x5000000)⟩;
      decide (portState s.blk p = 2) &&
      (let x := chPort s.blk p;
      let port : Port := if p.val = 0 then .ch0 else .ch1;
      (txnClean t true && decide (t.poison = none) &&
      decide (x.cfgCtl.testBit 0 = false ∨ 0x18 ≤ t.addr ∨ t.addr + t.len ≤ 8) &&
      decide (x.cfgCtl.testBit 0 = false) && decide (t.addr = 8) && decide (t.len = 8) && decide (x.intrHeld = [])) &&
      decide (x.cfgCtl.testBit 0 = false) &&
      (let ups : List Upset := ([] : List Upset);
      let b := ups.foldl sramUpset s.blk;
      let y := chPort b p;
      decide (portState b p = 2) && decide (y.cfgCtl.testBit 0 = false))) : Bool) = true ∧
    (let s : State := st ((setPort 0 { chPort (linked up) 0 with cfgCtl := 3 } (linked up)));
      let p : Fin 2 := 0;
      let t : ChTxn := ⟨2, 3, 8, 0, 8, none, (leBytes 8 0x5000000)⟩;
      decide (portState s.blk p = 2) &&
      (let x := chPort s.blk p;
      let port : Port := if p.val = 0 then .ch0 else .ch1;
      txnClean t true && x.cfgCtl.testBit 0 && decide (t.addr < 0x18) && decide (8 < t.addr + t.len)) : Bool) = true ∧
    (let s : State := st ((setPort 0 { chPort (linked up) 0 with cfgCtl := 3 } (linked up)));
      let p : Fin 2 := 0;
      let t : ChTxn := ⟨1, 3, 4, 0, 16777216, none, []⟩;
      decide (portState s.blk p = 2) &&
      (let x := chPort s.blk p;
      let port : Port := if p.val = 0 then .ch0 else .ch1;
      let ups : List Upset := ([] : List Upset);
      let b := ups.foldl sramUpset s.blk;
      let y := chPort b p;
      decide (portState b p = 2) && y.cfgCtl.testBit 0 && txnClean t false &&
      (match windowOf y t.addr with
      | .control off => decide (t.len = 4)
      | _ => false)) : Bool) = true ∧
    (let s : State := st ((setPort 0 { chPort (linked up) 0 with cfgCtl := 3 } (linked up)));
      let p : Fin 2 := 0;
      let t : ChTxn := ⟨1, 3, 64, 0, 1099511627776, none, []⟩;
      decide (portState s.blk p = 2) &&
      (let x := chPort s.blk p;
      let port : Port := if p.val = 0 then .ch0 else .ch1;
      let ups : List Upset := ([] : List Upset);
      let b := ups.foldl sramUpset s.blk;
      let y := chPort b p;
      decide (portState b p = 2) && y.cfgCtl.testBit 0 && txnClean t false &&
      (match windowOf y t.addr with
      | .memory pa => decide (memoryHeld b pa = false) && decide (portHeld b pa = false)
      | _ => false)) : Bool) = true ∧
    (let s : State := st ((setPort 0 { chPort (linked up) 0 with cfgCtl := 3 } (linked up)));
      let p : Fin 2 := 0;
      let t : ChTxn := ⟨2, 3, 4, 0, 16777296, none, (leBytes 4 1)⟩;
      decide (portState s.blk p = 2) &&
      (let x := chPort s.blk p;
      let port : Port := if p.val = 0 then .ch0 else .ch1;
      x.cfgCtl.testBit 0 && txnClean t true &&
      (match windowOf x t.addr with
      | .control off => decide (t.len = 4) && decide (t.poison = none) && decide (writeWaits s.blk p = false)
      | _ => false)) : Bool) = true ∧
    (let s : State := st ((setPort 0 { chPort (linked up) 0 with cfgCtl := 3 } (linked up)));
      let p : Fin 2 := 0;
      let t : ChTxn := ⟨2, 3, 4, 0, 16777296, some 1#32, (leBytes 4 1)⟩;
      decide (portState s.blk p = 2) &&
      (let x := chPort s.blk p;
      let port : Port := if p.val = 0 then .ch0 else .ch1;
      x.cfgCtl.testBit 0 && txnClean t true &&
      (match windowOf x t.addr with
      | .control off => t.poison.isSome &&
        (match pageOf (off / 4096) with
        | some k => true
        | _ => false)
      | _ => false)) : Bool) = true ∧
    (let s : State := st ((setPort 0 { chPort (linked up) 0 with cfgCtl := 3 } (linked up)));
      let p : Fin 2 := 0;
      let t : ChTxn := ⟨2, 3, 8, 0, 1099511627776, none, (leBytes 8 0x5000000)⟩;
      decide (portState s.blk p = 2) &&
      (let x := chPort s.blk p;
      let port : Port := if p.val = 0 then .ch0 else .ch1;
      x.cfgCtl.testBit 0 && txnClean t true &&
      (match windowOf x t.addr with
      | .memory pa => decide (t.poison = none) && decide (memoryHeld s.blk pa = false) && decide (portHeld s.blk pa = false) && decide (writeWaits s.blk p = false) && domOn s.blk (domFab p) && reachable s.blk pa && decide (t.data ≠ []) && decide (pa % 4096 + t.data.length ≤ 4096)
      | _ => false)) : Bool) = true ∧
    (let s : State := st ((setPort 0 { chPort (linked up) 0 with cfgCtl := 3 } (linked up)));
      let p : Fin 2 := 0;
      let t : ChTxn := ⟨2, 3, 8, 0, 1099511627776, some 1#32, (leBytes 8 0x5000000)⟩;
      decide (portState s.blk p = 2) &&
      (let x := chPort s.blk p;
      let port : Port := if p.val = 0 then .ch0 else .ch1;
      x.cfgCtl.testBit 0 && txnClean t true &&
      (match windowOf x t.addr with
      | .memory pa => t.poison.isSome
      | _ => false)) : Bool) = true ∧
    (let s : State := st ((put (fDom (domFab 0)) 0 (setPort 0 { chPort (linked up) 0 with cfgCtl := 3 } (linked up))));
      let p : Fin 2 := 0;
      let t : ChTxn := ⟨2, 3, 8, 0, 1099511627776, none, (leBytes 8 0x5000000)⟩;
      decide (portState s.blk p = 2) &&
      (let x := chPort s.blk p;
      let port : Port := if p.val = 0 then .ch0 else .ch1;
      x.cfgCtl.testBit 0 && txnClean t true &&
      (match windowOf x t.addr with
      | .memory pa => decide (t.poison = none) && decide (memoryHeld s.blk pa = false) && decide (portHeld s.blk pa = false) && decide (writeWaits s.blk p = false) && decide (domOn s.blk (domFab p) = false)
      | _ => false)) : Bool) = true ∧
    (let s : State := st ((let b := setPort 0 { chPort (linked up) 0 with cfgCtl := 3 } (linked up); { b with act := { b.act with held := [⟨.ch0, false, 0, true, leBytes 8 1, 8, 3, 0⟩] } }));
      let p : Fin 2 := 0;
      let t : ChTxn := ⟨2, 3, 4, 0, 16777296, none, (leBytes 4 1)⟩;
      decide (portState s.blk p = 2) &&
      (let x := chPort s.blk p;
      let port : Port := if p.val = 0 then .ch0 else .ch1;
      x.cfgCtl.testBit 0 && txnClean t true &&
      (match windowOf x t.addr with
      | .control off => decide (t.len = 4) && decide (t.poison = none) && writeWaits s.blk p && decide (s.blk.act.held.length < 64)
      | _ => false)) : Bool) = true := by
  decide +kernel

/-- Hypotheses of `DeviceTransactions`, clause by clause. -/
theorem witness_DeviceTransactions :
    (let s : State := st ((setPort 0 { chPort (linked up) 0 with reads := [(3, 0x1000, 8)] } (put (fCH_LINK_STATE 1) 0 (put (fCH_LINK_STATE 0) 2 (linked up)))));
      let p : Fin 2 := 0;
      let t : ChTxn := ⟨3, 3, 0, 1, 0, none, []⟩;
      match (chPort s.blk p).reads.find? (fun r => r.1 == t.tag) with
      | some r => let x := chPort s.blk p;
        let gone := setPort p { x with reads := x.reads.filter (fun y => y.1 != t.tag) } s.blk;
        let failed : Block := { gone with hostFail := s.blk.hostFail ++ [(0x800000000000 + r.2.1, r.2.2)] };
        decide (portState s.blk p = 2) && decide (t.addr = 0) && decide (t.status ≠ 0) && decide (t.status ≤ 2)
      | _ => false : Bool) = true ∧
    (let s : State := st ((setPort 0 { chPort (linked up) 0 with reads := [(3, 0x1000, 8)] } (put (fCH_LINK_STATE 1) 0 (put (fCH_LINK_STATE 0) 2 (linked up)))));
      let p : Fin 2 := 0;
      let t : ChTxn := ⟨4, 3, 8, 0, 0, none, (leBytes 8 0x5000000)⟩;
      portCarries s.blk p &&
      (match portFor s.blk p with
      | some q => let x := chPort s.blk q;
        txnClean t true
      | _ => false) &&
      (match (chPort s.blk p).reads.find? (fun r => r.1 == t.tag) with
      | some r => let x := chPort s.blk p;
        let gone := setPort p { x with reads := x.reads.filter (fun y => y.1 != t.tag) } s.blk;
        let failed : Block := { gone with hostFail := s.blk.hostFail ++ [(0x800000000000 + r.2.1, r.2.2)] };
        decide (portState s.blk p = 2) && decide (t.addr = 0) && decide (t.status = 0) && decide (t.data.length = r.2.2)
      | _ => false) : Bool) = true ∧
    (let s : State := st (up);
      let p : Fin 2 := 0;
      let t : ChTxn := ⟨3, 3, 0, 0, 0, none, []⟩;
      decide (portFor s.blk p = none) &&
      decide (anyPortActive s.blk = false) : Bool) = true ∧
    (let s : State := st ((put (fDom (domFab 1)) 2 (put (fCH_LINK_STATE 0) 0 (put (fCH_LINK_STATE 1) 2 (setPort 1 { ChPort.fresh with cfgCtl := 3 } (linked up))))));
      let p : Fin 2 := 0;
      let t : ChTxn := ⟨1, 3, 8, 0, 4096, none, []⟩;
      decide (portCarries s.blk p = false) && portCarries s.blk (1 - p.val) &&
      (match portFor s.blk p with
      | some q => let x := chPort s.blk q;
        let ups := ([] : List Upset);
        txnClean t false && decide (x.reads.length < 4096)
      | _ => false) : Bool) = true ∧
    (let s : State := st ((setPort 0 { chPort (linked up) 0 with reads := [(3, 0x1000, 8)] } (put (fCH_LINK_STATE 1) 0 (put (fCH_LINK_STATE 0) 2 (linked up)))));
      let p : Fin 2 := 0;
      let t : ChTxn := ⟨3, 3, 0, 1, 8, none, []⟩;
      match (chPort s.blk p).reads.find? (fun r => r.1 == t.tag) with
      | some r => let x := chPort s.blk p;
        let gone := setPort p { x with reads := x.reads.filter (fun y => y.1 != t.tag) } s.blk;
        let failed : Block := { gone with hostFail := s.blk.hostFail ++ [(0x800000000000 + r.2.1, r.2.2)] };
        decide (t.addr ≠ 0)
      | _ => false : Bool) = true := by
  decide +kernel

/-- Hypotheses of `ContextCommands`, clause by clause. -/
theorem witness_ContextCommands :
    (let s : State := st ((memWrite 0x320000 [1] (wr64 (linked up) rSC_CTX_SRC_LO 0x320000)));
      let port : Port := .ch0;
      let c : Fin 64 := 5;
      hostClear s.blk &&
      (let v := fun (cmd : Nat) => BitVec.ofNat 32 (c.val + cmd * 256);
      let b := fun (cmd : Nat) => storeRw rSC_CTX_CTL (v cmd) (granted port 4 s.blk);
      let pa := rd64 s.blk rSC_CTX_SRC_LO;
      actsNow s.blk port rSC_CTX_CTL (v 1) &&
      actsNow s.blk port rSC_CTX_CTL (v 2) && reachable s.blk pa && reachable s.blk (pa + 127) &&
      actsNow s.blk port rSC_CTX_CTL (v 3) &&
      actsNow s.blk port rSC_CTX_CTL (v 4)) : Bool) = true := by
  decide +kernel

/-- Hypotheses of `EventRings`, clause by clause. -/
theorem witness_EventRings :
    (let s : State := st ((setRing 0 { Ring.fresh with posted := [⟨0x0300, 1, 2, 3, 4, 5, 6⟩] } (put (fEV_CFG_ENABLE 0) 1 (put (fEV_CFG_SIZE_LOG2 0) 6 (wr64 (linked up) (rEV_BASE_LO 0) 0x330000)))));
      let r : Fin 16 := 0;
      let port : Port := .ch0;
      let v : W32 := 0;
      let x := ring s.blk r;
      match x.posted with
      | e :: rest => ringOpen s.blk r && slotOk s.blk r && decide (x.dropped = 0) && decide (x.waiting = []) && s.blk.memOk
      | _ => false : Bool) = true ∧
    (let s : State := st ((setRing 0 { Ring.fresh with posted := [⟨0x0300, 1, 2, 3, 4, 5, 6⟩] } (put (fEV_CFG_ENABLE 0) 0 (put (fEV_CFG_SIZE_LOG2 0) 6 (wr64 (linked up) (rEV_BASE_LO 0) 0x330000)))));
      let r : Fin 16 := 0;
      let port : Port := .ch0;
      let v : W32 := 0;
      let x := ring s.blk r;
      match x.posted with
      | e :: rest => ringBlocked s.blk r && decide (x.waiting.length < 64)
      | _ => false : Bool) = true ∧
    (let s : State := st ((setRing 0 { Ring.fresh with posted := [⟨0x0300, 1, 2, 3, 4, 5, 6⟩], waiting := List.replicate 64 ⟨0x0300, 1, 2, 3, 4, 5, 6⟩ } (put (fEV_CFG_ENABLE 0) 0 (put (fEV_CFG_SIZE_LOG2 0) 6 (wr64 (linked up) (rEV_BASE_LO 0) 0x330000)))));
      let r : Fin 16 := 0;
      let port : Port := .ch0;
      let v : W32 := 0;
      let x := ring s.blk r;
      match x.posted with
      | e :: rest => ringBlocked s.blk r && decide (64 ≤ x.waiting.length)
      | _ => false : Bool) = true ∧
    (let s : State := st ((setRing 0 { Ring.fresh with irqDue := true } (put (fEV_CFG_ENABLE 0) 1 (put (fEV_CFG_SIZE_LOG2 0) 6 (wr64 (linked up) (rEV_BASE_LO 0) 0x330000)))));
      let r : Fin 16 := 0;
      let port : Port := .ch0;
      let v : W32 := 0x46#32;
      let x := ring s.blk r;
      actsNow s.blk port (rEV_HEAD r) v &&
      actsNow s.blk port (rEV_CFG r) v &&
      (match ringPort s.blk r with
      | some p => x.irqDue && (chPort s.blk p).cfgCtl.testBit 1 &&
        (let sent := chSend p ⟨5, 0, 0, 0, get s.blk (fEV_IRQ_VECTOR r), none, []⟩ (setRing r { x with irqDue := false, sentAt := some (now s.blk) } s.blk);
        decide (∀ t, x.sentAt = some t → t + 100 * get s.blk (fEV_IRQ_MOD r) ≤ now s.blk))
      | _ => false) : Bool) = true ∧
    (let s : State := st ((put (fEV_IRQ_MOD 0) 5 (setRing 0 { Ring.fresh with irqDue := true, sentAt := some 0 } (put (fEV_CFG_ENABLE 0) 1 (put (fEV_CFG_SIZE_LOG2 0) 6 (wr64 (linked up) (rEV_BASE_LO 0) 0x330000))))));
      let r : Fin 16 := 0;
      let port : Port := .ch0;
      let v : W32 := 0;
      let x := ring s.blk r;
      match ringPort s.blk r with
      | some p => x.irqDue && (chPort s.blk p).cfgCtl.testBit 1 &&
        (let sent := chSend p ⟨5, 0, 0, 0, get s.blk (fEV_IRQ_VECTOR r), none, []⟩ (setRing r { x with irqDue := false, sentAt := some (now s.blk) } s.blk);
        let t := 0;
        decide (x.sentAt = some t) && decide (now s.blk < t + 100 * get s.blk (fEV_IRQ_MOD r)))
      | _ => false : Bool) = true := by
  decide +kernel

/-- Hypotheses of `Watchdogs`, clause by clause. -/
theorem witness_Watchdogs :
    (let s : State := st ({ (domains up) with fw := { ((domains up)).fw with procs := [(4, { Proc.fresh with fires := [0, 0] })] } });
      let cl : Fin 32 := 0;
      let core : Fin 4 := 1;
      let us : Nat := 60;
      let p : ProcId := .sec;
      let near : Bool := false;
      let ups : List Upset := ([] : List Upset);
      let fires := fun (k : Nat) => procOn s.blk k = true ∧ stepsNow s.blk k = false;
      coreOn s.blk cl && decide (stepsNow s.blk (4 + cl.val) = false) &&
      (let b := bump (fCL_CORE_FIRES cl) 1 (fireProc (4 + cl.val) s.blk);
      let onIt := fun (c : Cmd) => c.mask.testBit cl.val;
      thirdFire b (4 + cl.val)) : Bool) = true ∧
    (let s : State := st ({ (domains up) with fw := { ((domains up)).fw with procs := [(1, { Proc.fresh with down := true })] } });
      let cl : Fin 32 := 0;
      let core : Fin 4 := 1;
      let us : Nat := 60;
      let p : ProcId := .sec;
      let near : Bool := false;
      let ups : List Upset := ([] : List Upset);
      let fires := fun (k : Nat) => procOn s.blk k = true ∧ stepsNow s.blk k = false;
      (coreOn s.blk cl && decide (stepsNow s.blk (4 + cl.val) = false) &&
      (let b := bump (fCL_CORE_FIRES cl) 1 (fireProc (4 + cl.val) s.blk);
      let onIt := fun (c : Cmd) => c.mask.testBit cl.val;
      decide (thirdFire b (4 + cl.val) = false))) &&
      decide (procOn s.blk 2 = true ∧ stepsNow s.blk 2 = false) && decide (thirdFire (fireProc 2 s.blk) 2 = false) && decide (rcxCores (fireProc 2 s.blk) ≠ 0) &&
      decide (procOn s.blk (40 + core.val) = true ∧ stepsNow s.blk (40 + core.val) = false) &&
      decide (procOn s.blk 1 = true ∧ stepsNow s.blk 1 = false) &&
      (proc s.blk 1).down &&
      procOn s.blk (procKey p) && decide ((proc s.blk (procKey p)).down = false) : Bool) = true ∧
    (let s : State := st ((put fSEC_ATT_STAT_STATE 2 up));
      let cl : Fin 32 := 0;
      let core : Fin 4 := 1;
      let us : Nat := 60;
      let p : ProcId := .sec;
      let near : Bool := false;
      let ups : List Upset := ([] : List Upset);
      let fires := fun (k : Nat) => procOn s.blk k = true ∧ stepsNow s.blk k = false;
      decide (procOn s.blk 0 = true ∧ stepsNow s.blk 0 = false) &&
      (let b := fireProc 0 s.blk;
      decide (get b fSEC_ATT_STAT_STATE = 2) && decide (fwState b = 0)) : Bool) = true ∧
    (let s : State := st ((put fSEC_FW_STAT_STATE 1 up));
      let cl : Fin 32 := 0;
      let core : Fin 4 := 1;
      let us : Nat := 60;
      let p : ProcId := .sec;
      let near : Bool := false;
      let ups : List Upset := ([] : List Upset);
      let fires := fun (k : Nat) => procOn s.blk k = true ∧ stepsNow s.blk k = false;
      decide (procOn s.blk 0 = true ∧ stepsNow s.blk 0 = false) &&
      (let b := fireProc 0 s.blk;
      decide (get b fSEC_ATT_STAT_STATE ≠ 2) && decide (fwState b = 1) && decide (b.fw.staged = [])) : Bool) = true ∧
    (let s : State := st ({ (domains up) with fw := { ((domains up)).fw with procs := [(0, { Proc.fresh with down := true })] } });
      let cl : Fin 32 := 0;
      let core : Fin 4 := 1;
      let us : Nat := 60;
      let p : ProcId := .sec;
      let near : Bool := false;
      let ups : List Upset := ([] : List Upset);
      let fires := fun (k : Nat) => procOn s.blk k = true ∧ stepsNow s.blk k = false;
      procOn s.blk (procKey p) && (proc s.blk (procKey p)).down &&
      (let r := restartLoad (procKey p) ups s.blk;
      r.1 &&
      (let n := if near then nearMissed (procKey p) r.2 else r.2;
      let b := restarted (procKey p) 1 1 n;
      decide (fwState n < 4))) : Bool) = true ∧
    (let s : State := st ({ (domains up) with fw := { ((domains up)).fw with procs := [(4, { Proc.fresh with down := true })] } });
      let cl : Fin 32 := 0;
      let core : Fin 4 := 1;
      let us : Nat := 60;
      let p : ProcId := .sec;
      let near : Bool := false;
      let ups : List Upset := ([] : List Upset);
      let fires := fun (k : Nat) => procOn s.blk k = true ∧ stepsNow s.blk k = false;
      (proc s.blk (4 + cl.val)).down && procOn s.blk (4 + cl.val) : Bool) = true ∧
    (let s : State := st (up);
      let cl : Fin 32 := 0;
      let core : Fin 4 := 1;
      let us : Nat := 60;
      let p : ProcId := .sec;
      let near : Bool := false;
      let ups : List Upset := ([] : List Upset);
      let fires := fun (k : Nat) => procOn s.blk k = true ∧ stepsNow s.blk k = false;
      let take : Block → Block := id;
      let b : Block := up;
      decide (fwState b < 4) : Bool) = true ∧
    (let s : State := st ((put fSEC_FW_STAT_STATE 4 (setFw (fun f => { f with stepping := some 4, order := [2, 1] }) (domains (linked up)))));
      let cl : Fin 32 := 0;
      let core : Fin 4 := 1;
      let us : Nat := 60;
      let p : ProcId := .sec;
      let near : Bool := false;
      let ups : List Upset := ([] : List Upset);
      let fires := fun (k : Nat) => procOn s.blk k = true ∧ stepsNow s.blk k = false;
      coreOn s.blk cl && stepsNow s.blk (4 + cl.val) &&
      (decide (procOn s.blk 0 = true ∧ stepsNow s.blk 0 = false) &&
      (let b := fireProc 0 s.blk;
      decide (get b fSEC_ATT_STAT_STATE ≠ 2) && decide (fwState b = 4 ∨ fwState b = 5))) : Bool) = true ∧
    (let s : State := st ({ (domains up) with fw := { (domains up).fw with store := [(0, List.replicate 64 1#8)], procs := [(0, { Proc.fresh with down := true })] } });
      let cl : Fin 32 := 0;
      let core : Fin 4 := 1;
      let us : Nat := 60;
      let p : ProcId := .sec;
      let near : Bool := false;
      let ups : List Upset := [⟨0, 0, [0, 1]⟩];
      let fires := fun (k : Nat) => procOn s.blk k = true ∧ stepsNow s.blk k = false;
      procOn s.blk (procKey p) && (proc s.blk (procKey p)).down &&
      (let r := restartLoad (procKey p) ups s.blk;
      decide (r.1 = false)) : Bool) = true := by
  decide +kernel

/-- Hypotheses of `StagingAndActivation`, clause by clause. -/
theorem witness_StagingAndActivation :
    (let s : State := st ((put fSEC_FW_LEN_BYTES 640 (wr64 (put fSEC_FW_STAT_STATE 1 (setFw (fun f => { f with waited := 0 }) (linked up))) rSEC_FW_SRC_LO 0x600000000000)));
      let port : Port := .i3c;
      let w := fun (cmd : W32) => storeRw rSEC_FW_CTL cmd (granted port 3 s.blk);
      hostClear s.blk && decide (fwState s.blk = 1) && decide (unverified s.blk = false) &&
      (let pa := rd64 s.blk rSEC_FW_SRC_LO;
      let n := get s.blk fSEC_FW_LEN_BYTES;
      let img := memBytes s.blk pa n;
      let r := verifyImage s.blk img (some n);
      decide (rangeReachable s.blk pa n = false ∨ anyPoison s.blk pa n = true) && decide (s.blk.fw.staged = [])) : Bool) = true ∧
    (let s : State := st ((put fSEC_FW_LEN_BYTES 640 (wr64 (put fSEC_FW_STAT_STATE 1 (setFw (fun f => { f with waited := 0 }) (linked up))) rSEC_FW_SRC_LO 0x340000)));
      let port : Port := .i3c;
      let w := fun (cmd : W32) => storeRw rSEC_FW_CTL cmd (granted port 3 s.blk);
      hostClear s.blk && decide (fwState s.blk = 1) && decide (unverified s.blk = false) &&
      (let pa := rd64 s.blk rSEC_FW_SRC_LO;
      let n := get s.blk fSEC_FW_LEN_BYTES;
      let img := memBytes s.blk pa n;
      let r := verifyImage s.blk img (some n);
      rangeReachable s.blk pa n && decide (anyPoison s.blk pa n = false) && decide (r ≠ 0) && decide (s.blk.fw.staged = [])) : Bool) = true ∧
    (let s : State := st ((put fSEC_FW_STAT_STATE 2 (setFw (fun f => { f with staged := [1] }) (linked up))));
      let port : Port := .i3c;
      let w := fun (cmd : W32) => storeRw rSEC_FW_CTL cmd (granted port 3 s.blk);
      actsNowNat s.blk port rSEC_FW_CTL 1 && secRuns (w 1) &&
      (actsNowNat s.blk port rSEC_FW_CTL 2 &&
      (let b := put fSEC_FW_WAIT_SECONDS 0 (setFwState 3 (setFw (fun f => { f with waited := 0 }) (w 2)));
      rollMay b && b.fw.fd1Quiet)) &&
      actsNowNat s.blk port rSEC_FW_CTL 3 && decide (fwState s.blk = 2) && decide (s.blk.fw.staged ≠ []) : Bool) = true ∧
    (let s : State := st ((put fSEC_FW_STAT_STATE 2 (setFw (fun f => { f with staged := [1], fd1Quiet := false }) (linked up))));
      let port : Port := .i3c;
      let w := fun (cmd : W32) => storeRw rSEC_FW_CTL cmd (granted port 3 s.blk);
      actsNowNat s.blk port rSEC_FW_CTL 2 &&
      (let b := put fSEC_FW_WAIT_SECONDS 0 (setFwState 3 (setFw (fun f => { f with waited := 0 }) (w 2)));
      decide (rollMay b = false ∨ b.fw.fd1Quiet = false)) : Bool) = true ∧
    (let s : State := st ((put fSEC_FW_STAT_STATE 3 (setFw (fun f => { f with waited := 0 }) (linked up))));
      let port : Port := .i3c;
      let w := fun (cmd : W32) => storeRw rSEC_FW_CTL cmd (granted port 3 s.blk);
      rollMay s.blk && decide (fwState s.blk = 3) &&
      decide (fwState s.blk = 3) : Bool) = true := by
  decide +kernel

/-- Hypotheses of `RollSteps`, clause by clause. -/
theorem witness_RollSteps :
    (let s : State := st ((put fSEC_FW_STAT_STATE 4 (setFw (fun f => { f with stepping := some 3, order := [2, 1] }) (linked up))));
      let p := 3;
      let q := 2;
      let rest := [1];
      decide (fwState s.blk = 4) && decide (s.blk.fw.stepping = some p) && decide (s.blk.fw.order = q :: rest) && decide (1 ≤ p) && decide (p < 4) && decide (q < 4) && decide (s.blk.fw.paused = false) && decide (p = 1 → s.blk.fw.pwrWrites = [] ∧ s.blk.fw.pwrPosts = [] ∧ s.blk.act.held = []) && decide (get s.blk fSEC_FW_STAT_ROLL_POS < 36) : Bool) = true ∧
    (let s : State := st ((put fSEC_FW_STAT_STATE 4 (setFw (fun f => { f with stepping := some 0, order := [] }) (linked up))));
      decide (fwState s.blk = 4) && decide (s.blk.fw.stepping = some 0) && decide (s.blk.fw.order = []) && decide (s.blk.fw.paused = false) && decide (get s.blk fSEC_ATT_STAT_STATE ≠ 2) &&
      (let p := 0;
      decide (fwState s.blk = 4) && decide (s.blk.fw.stepping = some p) && decide (p < 3 ∧ p ≠ 2) && decide ((proc s.blk p).heldDown = false)) : Bool) = true := by
  decide +kernel

/-- Hypotheses of `BootSequence`, clause by clause. -/
theorem witness_BootSequence :
    (let s : State := st ((setPwr (fun x => { x with rail := .charging }) (put fDEV_BLK_STAT_BOOT_PHASE 0 charged)));
      let ls : List Nat := [];
      let cs : List Nat := [];
      let sp : List (Nat × Nat × Nat) := [];
      let rg : List (Nat × Nat × Nat) := [];
      decide (ready s.blk = false) && decide (s.blk.pwr.rstWait = false) &&
      (let phase := get s.blk fDEV_BLK_STAT_BOOT_PHASE;
      powered s.blk && decide (s.blk.pwr.bootFail = false) && decide (phase = 0) && decide (s.blk.pwr.rail = .charging)) : Bool) = true ∧
    (let s : State := st ((put fDEV_BLK_STAT_BOOT_PHASE 1 charged));
      let ls : List Nat := [];
      let cs : List Nat := [];
      let sp : List (Nat × Nat × Nat) := [];
      let rg : List (Nat × Nat × Nat) := [];
      decide (ready s.blk = false) && decide (s.blk.pwr.rstWait = false) &&
      (let phase := get s.blk fDEV_BLK_STAT_BOOT_PHASE;
      powered s.blk && decide (s.blk.pwr.bootFail = false) && decide (phase = 1) && s.blk.pwr.refclk) : Bool) = true ∧
    (let s : State := st ((put fDEV_BLK_STAT_BOOT_PHASE 2 charged));
      let ls : List Nat := [];
      let cs : List Nat := [];
      let sp : List (Nat × Nat × Nat) := [];
      let rg : List (Nat × Nat × Nat) := [];
      decide (ready s.blk = false) && decide (s.blk.pwr.rstWait = false) &&
      (let phase := get s.blk fDEV_BLK_STAT_BOOT_PHASE;
      powered s.blk && decide (s.blk.pwr.bootFail = false) && decide (phase = 2) &&
      (let r := verifyImage s.blk s.blk.fw.active none;
      decide (r ≠ 0) && decide (s.blk.fw.staged = []))) : Bool) = true ∧
    (let s : State := st ((put fDEV_BLK_STAT_BOOT_PHASE 3 charged));
      let ls : List Nat := [];
      let cs : List Nat := [];
      let sp : List (Nat × Nat × Nat) := [];
      let rg : List (Nat × Nat × Nat) := [];
      decide (ready s.blk = false) && decide (s.blk.pwr.rstWait = false) &&
      (let phase := get s.blk fDEV_BLK_STAT_BOOT_PHASE;
      powered s.blk && decide (s.blk.pwr.bootFail = false) && decide (phase = 3)) : Bool) = true ∧
    (let s : State := st ((put fDEV_BLK_STAT_BOOT_PHASE 4 charged));
      let ls : List Nat := [];
      let cs : List Nat := [];
      let sp : List (Nat × Nat × Nat) := [];
      let rg : List (Nat × Nat × Nat) := [];
      decide (ready s.blk = false) && decide (s.blk.pwr.rstWait = false) &&
      (let phase := get s.blk fDEV_BLK_STAT_BOOT_PHASE;
      powered s.blk && decide (s.blk.pwr.bootFail = false) && decide (phase = 4) && (List.range 12).all (fun l => dom s.blk (domLode l) != 3)) : Bool) = true ∧
    (let s : State := st ((put fDEV_BLK_STAT_BOOT_PHASE 5 charged));
      let ls : List Nat := [];
      let cs : List Nat := [];
      let sp : List (Nat × Nat × Nat) := [];
      let rg : List (Nat × Nat × Nat) := [];
      decide (ready s.blk = false) && decide (s.blk.pwr.rstWait = false) &&
      (let phase := get s.blk fDEV_BLK_STAT_BOOT_PHASE;
      powered s.blk && decide (s.blk.pwr.bootFail = false) && decide (phase = 5)) : Bool) = true ∧
    (let s : State := st ((put fPW_COOL_STRAP 1 (put fDEV_BLK_STAT_BOOT_PHASE 6 charged)));
      let ls : List Nat := [];
      let cs : List Nat := [];
      let sp : List (Nat × Nat × Nat) := [];
      let rg : List (Nat × Nat × Nat) := [];
      decide (ready s.blk = false) && decide (s.blk.pwr.rstWait = false) &&
      (let phase := get s.blk fDEV_BLK_STAT_BOOT_PHASE;
      powered s.blk && decide (s.blk.pwr.bootFail = false) && decide (phase = 6) && decide (get s.blk fPW_COOL_STRAP ≠ 3)) : Bool) = true := by
  decide +kernel

/-- Hypotheses of `AttestationAndTestPort`, clause by clause. -/
theorem witness_AttestationAndTestPort :
    (let s : State := st ((linked up));
      let bits : List Bool := [true, false];
      let t : List Byte := [];
      let off : Nat := 0x50;
      let v : W32 := 3;
      let ir := fun (code : Nat) => ({ s.blk with dbg := { s.blk.dbg with ir := code } } : Block);
      (hostClear s.blk && actsNowNat s.blk .ch0 rSEC_ATT_CTL 1 &&
      (let b := storeRw rSEC_ATT_CTL 1 (granted .ch0 3 s.blk);
      let taken : Block := { b with attNonce := memBytes b (rd64 b rSEC_ATT_PA_LO + 0x40) 64 };
      secRuns b)) &&
      (s.blk.pwr.pwrGood && powered s.blk && decide (2 ≤ get s.blk fDEV_BLK_STAT_BOOT_PHASE) && secRuns s.blk &&
      (let g := fieldAt t 4 2;
      decide (tokenOk (ir 0x21) t = false))) : Bool) = true ∧
    (let s : State := st ((setFw (fun f => { f with procs := [(0, { Proc.fresh with down := true })] }) (linked up)));
      let bits : List Bool := [true, false];
      let t : List Byte := [];
      let off : Nat := 0x50;
      let v : W32 := 3;
      let ir := fun (code : Nat) => ({ s.blk with dbg := { s.blk.dbg with ir := code } } : Block);
      hostClear s.blk && actsNowNat s.blk .ch0 rSEC_ATT_CTL 1 &&
      (let b := storeRw rSEC_ATT_CTL 1 (granted .ch0 3 s.blk);
      let taken : Block := { b with attNonce := memBytes b (rd64 b rSEC_ATT_PA_LO + 0x40) 64 };
      decide (secRuns b = false)) : Bool) = true ∧
    (let s : State := st ((put fSEC_ATT_STAT_STATE 2 (wr64 (linked up) rSEC_ATT_PA_LO 0x350000)));
      let bits : List Bool := [true, false];
      let t : List Byte := [];
      let off : Nat := 0x50;
      let v : W32 := 3;
      let ir := fun (code : Nat) => ({ s.blk with dbg := { s.blk.dbg with ir := code } } : Block);
      hostClear s.blk && decide (get s.blk fSEC_ATT_STAT_STATE = 2) &&
      (let pa := rd64 s.blk rSEC_ATT_PA_LO;
      let b := put fSEC_ATT_STAT_STATE 0 s.blk;
      let cert := if lifecycle s.blk = 2 then s.blk.fuses.cert.take 2048 else [];
      rangeReachable b pa 4096) : Bool) = true := by
  decide +kernel

/-- Hypotheses of `RoundRobin`, clause by clause. -/
theorem witness_RoundRobin :
    (let a : Nat := 7;
      let n : Nat := 5;
      let req : Nat → Bool := fun i => i == 2 || i == 4;
      let b : Block := up;
      decide (mapGet 0 b.arb a < n) &&
      (let i := 2;
      decide (i < n) && req i && decide (∀ k, k < n → req k = true → (i + n - mapGet 0 b.arb a) % n ≤ (k + n - mapGet 0 b.arb a) % n)) &&
      decide (∃ i, i < n ∧ req i = true) : Bool) = true ∧
    (let a : Nat := 7;
      let n : Nat := 5;
      let req : Nat → Bool := fun _ => false;
      let b : Block := up;
      decide (mapGet 0 b.arb a < n) && decide (∀ i, i < n → req i = false) : Bool) = true := by
  decide +kernel

/-- Hypotheses of `EffectiveEnvelope`, clause by clause. -/
theorem witness_EffectiveEnvelope :
    (let s : State := st ((linked up));
      let port : Port := .i3c;
      let v : W32 := 599#32;
      decide (authority s.blk port .pw 0x044 = .rw) && domOn s.blk domPwr && portLive port s.blk && decide (field v 11 0 < 600) : Bool) = true ∧
    (let s : State := st ((linked up));
      let port : Port := .i3c;
      let v : W32 := 900#32;
      decide (authority s.blk port .pw 0x044 = .rw) && domOn s.blk domPwr && portLive port s.blk && decide (600 ≤ field v 11 0) && decide (txnState s.blk 2 = 0) && pwrRuns s.blk : Bool) = true := by
  decide +kernel

/-- Hypotheses of `CompletingCommands`, clause by clause. -/
theorem witness_CompletingCommands :
    (let s : State := st ((put fPW_FD_LEVEL 1 up));
      let l : Fin 12 := 0;
      let g : Fin 8 := 7;
      let h : Fin 2 := 1;
      let readings : List Nat := [100, 99];
      let temp : Nat := 85;
      let off : Nat := 0x50;
      let lost : Bool := true;
      let bits : List Bool := [true, false];
      let t : List Byte := [];
      let v : W32 := 3;
      decide (fdLevel s.blk ≠ 3) && decide (fdFloor s.blk < fdLevel s.blk) : Bool) = true ∧
    (let s : State := st ((put fPW_FD_LEVEL 3 up));
      let l : Fin 12 := 0;
      let g : Fin 8 := 7;
      let h : Fin 2 := 1;
      let readings : List Nat := [100, 99];
      let temp : Nat := 96;
      let off : Nat := 0x50;
      let lost : Bool := false;
      let bits : List Bool := [true, false];
      let t : List Byte := [];
      let v : W32 := 3;
      decide (powered s.blk = false ∨ fdnDriven s.blk = true) &&
      decide (fdLevel s.blk = 3) && decide (fdCalled (setFd (fun x => { x with regCause := false }) s.blk) < 2) : Bool) = true ∧
    (let s : State := st ((setLode 0 { Lode.fresh with fill := some ⟨0, 0, 0, true, 0, []⟩ } (linked up)));
      let l : Fin 12 := 0;
      let g : Fin 8 := 7;
      let h : Fin 2 := 1;
      let readings : List Nat := [100, 99];
      let temp : Nat := 90;
      let off : Nat := 0x50;
      let lost : Bool := false;
      let bits : List Bool := [true, false];
      let t : List Byte := [];
      let v : W32 := 3;
      powered s.blk && decide (fdnDriven s.blk = false) &&
      (let f : Fill := ⟨0, 0, 0, true, 0, []⟩;
      decide ((lode s.blk l).fill = some f) && decide (isSet s.blk (fLD_BLK_STAT_SELF_REFRESH l) = false) && domOn s.blk (domLode l) && decide (hbmLost s.blk = false) && decide (f.pos < rgWords) && decide (f.lost = true ∨ poisoned s.blk (lodePa l (rgWordAt f.pc f.rg f.pos)) = false)) &&
      decide (isSet s.blk (fBLK_STAT_FAILED (ldBase l)) = false) && decide (dom s.blk (domLode l) ≠ 0) &&
      decide (isSet s.blk (fBLK_STAT_FAILED (sgBase g)) = false) &&
      decide (dom s.blk (domFab h) ≠ 3) &&
      hostClear s.blk && actsNowNat s.blk .ch0 rSEC_ATT_CTL 1 &&
      s.blk.pwr.pwrGood && powered s.blk : Bool) = true ∧
    (let s : State := st ((setLode 0 { Lode.fresh with fill := some ⟨0, 0, 0, false, rgWords, []⟩ } (linked up)));
      let l : Fin 12 := 0;
      let g : Fin 8 := 7;
      let h : Fin 2 := 1;
      let readings : List Nat := [100, 99];
      let temp : Nat := 90;
      let off : Nat := 0x50;
      let lost : Bool := false;
      let bits : List Bool := [true, false];
      let t : List Byte := [];
      let v : W32 := 3;
      let f : Fill := ⟨0, 0, 0, false, rgWords, []⟩;
      decide ((lode s.blk l).fill = some f) && decide (isSet s.blk (fLD_BLK_STAT_SELF_REFRESH l) = false) && domOn s.blk (domLode l) && decide (hbmLost s.blk = false) && decide (rgWords ≤ f.pos) && decide ((lode s.blk l).queued = []) : Bool) = true ∧
    (let s : State := st ((put fSEC_ATT_STAT_STATE 2 (wr64 (linked up) rSEC_ATT_PA_LO 0x350000)));
      let l : Fin 12 := 0;
      let g : Fin 8 := 7;
      let h : Fin 2 := 1;
      let readings : List Nat := [100, 99];
      let temp : Nat := 85;
      let off : Nat := 0x50;
      let lost : Bool := false;
      let bits : List Bool := [true, false];
      let t : List Byte := [];
      let v : W32 := 3;
      hostClear s.blk && decide (get s.blk fSEC_ATT_STAT_STATE = 2) && rangeReachable s.blk (rd64 s.blk rSEC_ATT_PA_LO) 4096 : Bool) = true := by
  decide +kernel

end Sys2Proof.Tests
end

section
/-!
PROOFS. The checks of a register write (03 R69–R76): one equation for each branch of `judgeWrite` and `judgeState`, one characterisation for
each port's authority, and the obligation `WriteChecks` assembled from them.
-/

namespace Sys2Proof.Machine

/-! ### Who may write what (03 R71) -/

/-- The cases in which the host's authority falls short are management's registers and the firmware staging, and no other. -/
theorem hostAuthority_eq_rw_iff (k : PageKind) (o : Nat) :
    hostAuthority k o = .rw ↔ ¬ (k = .pw ∧ pwManagement o = true) ∧ ¬ (k = .sec ∧ secStaging o = true) := by
  rw [← not_or, hostAuthority]
  split
  · next h => exact iff_of_false (by decide) (not_not_intro (by simpa using h))
  · next h => exact iff_of_true rfl (by simpa using h)

theorem managementAuthority_eq_rw_iff (k : PageKind) (o : Nat) :
    managementAuthority k o = .rw ↔ k = .tx ∨ k = .pw ∨ (k = .sec ∧ secStaging o = true) := by
  rw [managementAuthority]
  split
  · next h => exact iff_of_true rfl (by simpa [or_assoc] using h)
  · next h => exact iff_of_false (by decide) (by simpa [or_assoc] using h)

theorem testAuthority_of_locked {b : Block} (k : PageKind) (h : isSet b fSEC_DBG_UNLOCKED = false) :
    testAuthority b k = .none := by
  simp [testAuthority, h]

/-- Both Chaell ports and queued commands have the host's authority. -/
theorem authority_of_host {port : Port} (h : port = .ch0 ∨ port = .ch1 ∨ port = .txn) (b : Block) (k : PageKind) (o : Nat) :
    authority b port k o = hostAuthority k o := by
  rcases h with rfl | rfl | rfl <;> rfl

/-! ### What the page's transaction makes of a write (03 R74–R76) -/

section JudgeState

variable {b : Block} {port : Port} {p : Nat} {k : PageKind} {n o : Nat} {i : RegInfo} {v : W32}

theorem judgeState_of_open_foreign (ht : txnState b p = 1) (ho : get b (fTXN_STAT_OWNER (pageBase p)) ≠ portOwner port) :
    judgeState b port p k n o i v = keptOut i 5 := by
  simp [judgeState, ht, ho]

theorem judgeState_of_open_own (hrw : i.rw ≠ 0) (ht : txnState b p = 1)
    (ho : get b (fTXN_STAT_OWNER (pageBase p)) = portOwner port) (hs : stateOk b k n o v = true) :
    judgeState b port p k n o i v = .stages := by
  simp [judgeState, ht, ho, hs, hrw]

theorem judgeState_of_pending (hrw : i.rw ≠ 0) (ht : txnState b p = 2) : judgeState b port p k n o i v = keptOut i 6 := by
  simp [judgeState, ht, hrw]

theorem judgeState_of_idle (ht : txnState b p = 0) (hs : stateOk b k n o v = true)
    (hw : waitsForSafePoint b port k n o i v = false) : judgeState b port p k n o i v = .now := by
  simp [judgeState, ht, hs, hw]

end JudgeState

/-! ### The checks in their order -/

section JudgeWrite

variable {b : Block} {port : Port} {k : PageKind} {o : Nat} {i : RegInfo}

theorem judgeWrite_of_no_authority (ha : authority b port k o ≠ .rw) (p n : Nat) (v : W32) :
    judgeWrite b port p k n o v = .discarded 2 := by
  simp [judgeWrite, ha]

variable {n : Nat} {v : W32} (hi : regInfo k o = some i) (hrw : i.rw ≠ 0) (ha : authority b port k o = .rw)

include hi hrw ha

theorem judgeWrite_of_domain_off (ho : 0x040 ≤ o) (had : ¬ (k = .ad ∧ o = 0x040)) (hoff : domOn b (pageDomain k n) = false)
    (hheld : domainHeld b (pageDomain k n) = false) (p : Nat) : judgeWrite b port p k n o v = .discarded 4 := by
  simp [judgeWrite, ha, hi, hrw, ho, had, hoff, hheld]

variable (hon : domOn b (pageDomain k n) = true)

include hon

theorem judgeWrite_of_reserved (hr : reservedWrite b k n o v = true) (p : Nat) : judgeWrite b port p k n o v = .discarded 1 := by
  simp [judgeWrite, ha, hi, hrw, hon, hr]

/-- A write that passes every check before it, and that no description exempts, is judged by the page's transaction. -/
theorem judgeWrite_eq_judgeState (hr : reservedWrite b k n o v = false) (hctl : o ≠ 0x020) (htx : ¬ (k = .tx ∧ o = 0x040))
    (hat : actsAtOnce k o i = false) (p : Nat) : judgeWrite b port p k n o v = judgeState b port p k n o i v := by
  simp [judgeWrite, ha, hi, hrw, hon, hr, hctl, htx, hat]

end JudgeWrite

/-! ### The obligation -/

theorem writeCauses : Claims.WriteCauses := by
  intro b port p k n o i v hi hrw
  refine ⟨fun ha => judgeWrite_of_no_authority ha p n v, fun ha => ⟨fun ho had hoff hheld => ?_, fun hon => ⟨fun hr => ?_, ?_⟩⟩⟩
  · exact judgeWrite_of_domain_off hi hrw ha ho had hoff hheld p
  · exact judgeWrite_of_reserved hi hrw ha hon hr p
  · intro hr hctl htx hat
    rw [judgeWrite_eq_judgeState hi hrw ha hon hr hctl htx hat p]
    exact ⟨judgeState_of_open_foreign, judgeState_of_open_own hrw, judgeState_of_pending hrw, judgeState_of_idle⟩

theorem writeAuthority : Claims.WriteAuthority := by
  intro b port k o
  refine ⟨fun hport => ?_, fun hport => ?_, fun hport hlocked => ?_⟩
  · rw [authority_of_host hport]
    exact hostAuthority_eq_rw_iff k o
  · subst hport
    exact managementAuthority_eq_rw_iff k o
  · subst hport
    exact testAuthority_of_locked k hlocked

/-- Settles O16: the branches of `judgeWrite` in their order (log 30), and the access matrix port by port. -/
theorem writeChecks : Obligations.WriteChecks := ⟨writeCauses, writeAuthority⟩

end Sys2Proof.Machine
end

section
/-!
PROOFS. Round-robin arbitration (01 R25): where each requester comes in the order from the pointer on, and the obligation `RoundRobin`.
-/

namespace Sys2Proof.Machine

/-! ### The order from the pointer on -/

section Turn

variable {ptr n : Nat}

/-- The number asked after `k` others is the one whose turn is `k`. -/
theorem turn_of_asked (hp : ptr < n) {k : Nat} (hk : k < n) : ((ptr + k) % n + n - ptr) % n = k := by
  rcases Nat.lt_or_ge (ptr + k) n with h | h
  · rw [Nat.mod_eq_of_lt h, show ptr + k + n - ptr = k + n by omega, Nat.add_mod_right, Nat.mod_eq_of_lt hk]
  · rw [Nat.mod_eq_sub_mod h, Nat.mod_eq_of_lt (show ptr + k - n < n by omega), show ptr + k - n + n - ptr = k by omega,
      Nat.mod_eq_of_lt hk]

/-- A number is asked at its turn. -/
theorem asked_of_turn (hp : ptr < n) {i : Nat} (hi : i < n) : (ptr + (i + n - ptr) % n) % n = i := by
  rw [Nat.add_mod_mod, show ptr + (i + n - ptr) = i + n by omega, Nat.add_mod_right, Nat.mod_eq_of_lt hi]

/-- The grant goes to the requester with the lowest turn. -/
theorem rrPick_of_first (hp : ptr < n) {req : Nat → Bool} {i : Nat} (hi : i < n) (hr : req i = true)
    (hfirst : ∀ k, k < n → req k = true → (i + n - ptr) % n ≤ (k + n - ptr) % n) : rrPick ptr n req = some i := by
  have hturn : (i + n - ptr) % n < n := Nat.mod_lt _ (by omega)
  rw [rrPick, List.find?_map, List.find?_range_eq_some.mpr ⟨?_, ?_, ?_⟩, Option.map_some, asked_of_turn hp hi]
  · simpa [asked_of_turn hp hi] using hr
  · simpa using hturn
  · intro j hj
    have hasked : (ptr + j) % n < n := Nat.mod_lt _ (by omega)
    have hlater := fun h => hfirst _ hasked h
    rw [turn_of_asked hp (hj.trans hturn)] at hlater
    rw [Bool.not_eq_true']
    exact Bool.eq_false_iff.mpr fun h => absurd (hlater h) (by omega)

/-- Without a requester nobody is granted. -/
theorem rrPick_of_none {req : Nat → Bool} (hnone : ∀ i, i < n → req i = false) : rrPick ptr n req = none := by
  simp only [rrPick, List.find?_eq_none, List.mem_map, List.mem_range]
  rintro _ ⟨k, hk, rfl⟩
  simp [hnone _ (Nat.mod_lt (ptr + k) (by omega))]

/-- Where one number asks, some number that asks is granted. -/
theorem rrPick_of_some (hp : ptr < n) {req : Nat → Bool} {i : Nat} (hi : i < n) (hr : req i = true) :
    ∃ k, k < n ∧ req k = true ∧ rrPick ptr n req = some k := by
  obtain ⟨k, hk⟩ := Option.isSome_iff_exists.mp (show (rrPick ptr n req).isSome = true by
    rw [rrPick, List.find?_isSome]
    exact ⟨i, List.mem_map.mpr ⟨_, List.mem_range.mpr (Nat.mod_lt (i + n - ptr) (by omega)), asked_of_turn hp hi⟩, hr⟩)
  obtain ⟨j, -, rfl⟩ := List.mem_map.mp (List.mem_of_find?_eq_some hk)
  exact ⟨_, Nat.mod_lt _ (by omega), List.find?_some hk, hk⟩

end Turn

/-! ### The grant -/

theorem rrGrant_of_pick {a n i : Nat} {req : Nat → Bool} {b : Block} (h : rrPick (mapGet 0 b.arb a) n req = some i) :
    rrGrant a n req b = (some i, { b with arb := mapSet 0 b.arb a ((i + 1) % n) }) := by
  simp only [rrGrant, h]

theorem rrGrant_of_no_pick {a n : Nat} {req : Nat → Bool} {b : Block} (h : rrPick (mapGet 0 b.arb a) n req = none) :
    rrGrant a n req b = (none, b) := by
  simp only [rrGrant, h]

/-! ### The obligation -/

/-- Settles O58: a requester's turn is its place in the list that `rrPick` searches, so that the first found has the lowest turn. -/
theorem roundRobin : Obligations.RoundRobin := by
  intro a n req b
  refine ⟨rfl, fun hp => ⟨fun i hi hr hfirst => ?_, fun hnone => ?_, fun hsome => ?_⟩⟩
  · rw [rrGrant_of_pick (rrPick_of_first hp hi hr hfirst)]
    exact ⟨rfl, mapGet_set_self 0 b.arb a _, rfl⟩
  · exact rrGrant_of_no_pick (rrPick_of_none hnone)
  · obtain ⟨i, hi, hr⟩ := hsome
    obtain ⟨k, hk, hrk, hpick⟩ := rrPick_of_some hp hi hr
    exact ⟨k, hk, hrk, by rw [rrGrant_of_pick hpick]⟩

end Sys2Proof.Machine
end

section
/-!
PROOFS. The transaction of a page (03 R73–R79): a TXN_CTL write through the checks to its command, the rows that end a transaction, the
one-register writes that wait, and the obligation `PageTransactions` assembled from them.
-/

namespace Sys2Proof.Machine

/-! ### What a port's grant leaves (03 R72) -/

@[simp] theorem txnState_granted (port : Port) (p q : Nat) (b : Block) : txnState (granted port p b) q = txnState b q :=
  get_granted port p b _

@[simp] theorem txnGroup_granted (port : Port) (p q : Nat) (b : Block) : txnGroup (granted port p b) q = txnGroup b q := by
  simp [txnGroup, isSet]

@[simp] theorem txn_granted (port : Port) (p : Nat) (b : Block) : (granted port p b).txn = b.txn := by
  obtain ⟨a, h⟩ := granted_eq port p b
  rw [h]

@[simp] theorem safePoint_granted (port : Port) (p q : Nat) (b : Block) : safePoint (granted port p b) q = safePoint b q := by
  obtain ⟨a, h⟩ := granted_eq port p b
  rw [h]; rfl

@[simp] theorem authority_granted (port who : Port) (p : Nat) (b : Block) (k : PageKind) (o : Nat) :
    authority (granted port p b) who k o = authority b who k o := by
  cases who with
  | test =>
    obtain ⟨a, h⟩ := granted_eq port p b
    rw [h]; rfl
  | _ => rfl

/-! ### A register write that arrives -/

/-- An aligned 32-bit write of an assigned page is granted and then carried out as it is judged. -/
theorem regWriteAt_judged {port : Port} {off : Nat} {b : Block} {k : PageKind} {n : Nat} (hl : portLive port b = true)
    (hp : pageOf (off / 4096) = some (k, n)) (ha : off % 4 = 0) (v : W32) :
    regWriteAt port off 4 v b = (performWrite port (off / 4096) off v
      (judgeWrite (granted port (off / 4096) b) port (off / 4096) k n (off % 4096) v) (granted port (off / 4096) b)).1 := by
  simp [regWriteAt, hl, regWriteOk, hp, ha]

/-! ### TXN_CTL as a register (03 R73) -/

theorem rTXN_CTL_div (p : Nat) : rTXN_CTL (pageBase p) / 4096 = p := by simp only [rTXN_CTL, pageBase]; omega

theorem rTXN_CTL_mod (p : Nat) : rTXN_CTL (pageBase p) % 4096 = 0x020 := by simp only [rTXN_CTL, pageBase]; omega

theorem rTXN_CTL_ne_rTX_CTL (p : Nat) : rTXN_CTL (pageBase p) ≠ rTX_CTL := by
  intro h
  have := rTXN_CTL_mod p
  rw [h] at this
  exact absurd this (by decide)

/-- Every kind of page has TXN_CTL. -/
theorem regInfo_txnCtl (k : PageKind) : regInfo k 0x020 = some ⟨0x3e800, 0xffff00, 0, 3⟩ := by cases k <;> rfl

/-- The word of a TXN_CTL write. -/
def txnCtlWord (cmd timeout : Nat) : W32 := BitVec.ofNat 32 (cmd + timeout % 65536 * 256)

theorem txnCtlWord_cmd {cmd : Nat} (hc : cmd < 4) (t : Nat) : field (txnCtlWord cmd t) 1 0 = cmd := by
  simp only [field, txnCtlWord, BitVec.toNat_ofNat, Nat.shiftRight_zero]
  omega

theorem txnCtlWord_timeout {cmd t : Nat} (hc : cmd < 4) (ht : t < 65536) : field (txnCtlWord cmd t) 23 8 = t := by
  simp only [field, txnCtlWord, BitVec.toNat_ofNat, Nat.shiftRight_eq_div_pow]
  omega

/-- A TXN_CTL write by an authority with RW is a command, unless its TIMEOUT is the reserved 0. -/
theorem judgeWrite_txnCtl {b : Block} {port : Port} {k : PageKind} (ha : authority b port k 0x020 = .rw) {v : W32}
    (ht : field v 23 8 ≠ 0) (p n : Nat) : judgeWrite b port p k n 0x020 v = .control := by
  simp [judgeWrite, ha, regInfo_txnCtl, reservedWrite, ht]

/-! ### The commands of TXN_CTL (03 R73, R74) -/

section Control

variable {port : Port} {p cmd t : Nat} {b : Block}

/-! A command that state and owner permit keeps TIMEOUT and acts. -/

theorem pageControl_begin (ht : t < 65536) (hg : txnGroup b p = false) (hst : txnState b p = 0) :
    pageControl port p (txnCtlWord 1 t) b =
      .ok (openPage (portOwner port) false p (put (fTXN_CTL_TIMEOUT (pageBase p)) t b)) := by
  simp [pageControl, hg, hst, txnCtlWord_cmd, txnCtlWord_timeout, ht, controlOk]

theorem pageControl_commit (ht : t < 65536) (hg : txnGroup b p = false) (hst : txnState b p = 1)
    (ho : get b (fTXN_STAT_OWNER (pageBase p)) = portOwner port) :
    pageControl port p (txnCtlWord 2 t) b = .ok (if mapGet [] b.txn.staged p = []
      then commitPage p (put (fTXN_CTL_TIMEOUT (pageBase p)) t b)
      else put (fTXN_STAT_STATE (pageBase p)) 2 (put (fTXN_CTL_TIMEOUT (pageBase p)) t b)) := by
  simp [pageControl, hg, hst, ho, txnCtlWord_cmd, txnCtlWord_timeout, ht, controlOk, stagedEmpty]

theorem pageControl_rollback (ht : t < 65536) (hg : txnGroup b p = false) (hst : txnState b p ≠ 0)
    (ho : get b (fTXN_STAT_OWNER (pageBase p)) = portOwner port) :
    pageControl port p (txnCtlWord 3 t) b = .ok (rollbackOne 2 (put (fTXN_CTL_TIMEOUT (pageBase p)) t b) p) := by
  simp [pageControl, hg, hst, ho, txnCtlWord_cmd, txnCtlWord_timeout, ht, controlOk]

/-- A ROLLBACK of a transaction that is not at its safe point meets no commit (R77). -/
theorem txnSafeApply_of_waiting (h : txnState b p = 2 → safePoint b p = false) : txnSafeApply p b = b := by
  rw [txnSafeApply, if_neg]
  rintro ⟨hs, -, hsafe⟩
  exact absurd hsafe (by simp [h hs])

/-- A TXN_CTL write that no check stops acts as its command does on the granted page. -/
theorem pageCommand_of_control {k : PageKind} {n : Nat} {d : Block} (hp : pageOf p = some (k, n))
    (ha : authority b port k 0x020 = .rw) (hl : portLive port b = true) (hc : cmd < 4) (ht : t < 65536) (ht0 : t ≠ 0)
    (hmeets : cmd = 3 → txnState b p = 2 → safePoint b p = false)
    (hd : pageControl port p (txnCtlWord cmd t) (granted port p b) = .ok d) : pageCommand port p cmd t b = d := by
  have hjudge : judgeWrite (granted port p b) port p k n 0x020 (txnCtlWord cmd t) = .control :=
    judgeWrite_txnCtl (by simpa using ha) (by rwa [txnCtlWord_timeout hc ht]) p n
  have hstay : rollbackMeets (rTXN_CTL (pageBase p)) p (txnCtlWord cmd t) (granted port p b) = granted port p b := by
    rw [rollbackMeets, txnCtlWord_cmd hc, if_neg (rTXN_CTL_ne_rTX_CTL p)]
    split
    · rfl
    · next h => exact txnSafeApply_of_waiting (by simpa using hmeets (not_not.mp h))
  rw [pageCommand, writeNat, ← txnCtlWord, regWriteAt_judged hl (by rwa [rTXN_CTL_div]) (by simp only [rTXN_CTL, pageBase]; omega),
    rTXN_CTL_div, rTXN_CTL_mod, hjudge]
  simp only [performWrite, hstay, if_neg (rTXN_CTL_ne_rTX_CTL p), hd]

end Control

theorem exec_txnBegin (port : Port) (p t : Nat) (s : State) :
    exec (.txnBegin port p t) s = .next (s.after (pageCommand port p 1 t s.blk)) := rfl

theorem exec_txnCommit (port : Port) (p t : Nat) (s : State) :
    exec (.txnCommit port p t) s = .next (s.after (pageCommand port p 2 t s.blk)) := rfl

theorem exec_txnRollback (port : Port) (p t : Nat) (s : State) :
    exec (.txnRollback port p t) s = .next (s.after (pageCommand port p 3 t s.blk)) := rfl

theorem pageTransactionControl : Claims.PageTransactionControl := by
  intro s port p t k n hp _ ht hg ha hl
  have hg' : txnGroup (granted port p s.blk) p = false := by rwa [txnGroup_granted]
  have hrollback (hst : txnState s.blk p ≠ 0) (ho : get s.blk (fTXN_STAT_OWNER (pageBase p)) = portOwner port) (ht0 : t ≠ 0)
      (hmeets : txnState s.blk p = 2 → safePoint s.blk p = false) : exec (.txnRollback port p t) s = .next (s.after
        (rollbackOne 2 (put (fTXN_CTL_TIMEOUT (pageBase p)) t (granted port p s.blk)) p)) := by
    rw [exec_txnRollback, pageCommand_of_control hp ha hl (by omega) ht ht0 (fun _ => hmeets)
      (pageControl_rollback ht hg' (by simpa using hst) (by simpa using ho))]
  refine ⟨fun hst ht0 => ?_, fun hst ho ht0 => ⟨?_, hrollback (by omega) ho ht0 (by omega)⟩,
    fun hst ho ht0 hsafe => hrollback (by omega) ho ht0 fun _ => hsafe⟩
  · rw [exec_txnBegin, pageCommand_of_control hp ha hl (by omega) ht ht0 (by omega)
      (pageControl_begin ht hg' (by simpa using hst))]
  · rw [exec_txnCommit, pageCommand_of_control hp ha hl (by omega) ht ht0 (by omega)
      (pageControl_commit ht hg' (by simpa using hst) (by simpa using ho)), txn_granted]

/-! ### The ends of a transaction (03 R74–R78) -/

section Ends

variable {b : Block} {p : Nat} (hg : txnGroup b p = false)

include hg

theorem txnSafeApply_of_safe (hst : txnState b p = 2) (hsafe : safePoint b p = true) :
    txnSafeApply p b = commitPage p (flipFirst [p] b) := by
  simp [txnSafeApply, hst, hg, hsafe]

theorem rollback_of_page (hst : txnState b p ≠ 0) (r : Nat) : rollback p r b = rollbackOne r b p := by
  simp [rollback, hst, hg]

/-- The timeout of a PENDING page that is at its safe point commits it (R77). -/
theorem txnTimeout_of_safe (hst : txnState b p = 2) (hsafe : safePoint b p = true) :
    txnTimeout p false b = commitPage p (flipFirst [p] b) := by
  simp [txnTimeout, hst, hg, hsafe]

/-- The timeout of any other transaction under way rolls it back. -/
theorem txnTimeout_of_late (hst : txnState b p = 1 ∨ (txnState b p = 2 ∧ safePoint b p = false)) :
    txnTimeout p false b = rollbackOne 3 b p := by
  rcases hst with hst | ⟨hst, hsafe⟩
  · simp [txnTimeout, hst, hg]
  · simp [txnTimeout, hst, hg, hsafe]

end Ends

theorem exec_txnSafePointApply {s : State} (hclear : hostClear s.blk = true) (p : Nat) (storageError : Bool) :
    exec (.txnSafePointApply p storageError) s = .next (s.after (txnApplyRow p storageError s.blk)) :=
  congrArg (fun b => Host.Outcome.next (s.after b)) (hostGated_active (txnApplyRow p storageError) _ hclear)

theorem exec_txnTimeoutRow (p : Nat) (deviceWide : Bool) (s : State) :
    exec (.txnTimeoutRow p deviceWide) s = .next (s.after (txnTimeout p deviceWide s.blk)) := rfl

/-- The row applies the transaction, unless its staged values cannot be read back: then it rolls it back (log 93). -/
theorem txnApplyRow_eq (p : Nat) (storageError : Bool) (b : Block) :
    txnApplyRow p storageError b = if storageError then rollback p 5 b else txnSafeApply p b := rfl

theorem transactionEnds : Claims.TransactionEnds := by
  intro s p hg
  refine ⟨fun hclear hst => ⟨fun hpending hsafe => ?_, ?_⟩, fun hpending hsafe => ?_, fun hlate => ?_⟩
  · rw [exec_txnSafePointApply hclear, txnApplyRow_eq, if_neg Bool.false_ne_true, txnSafeApply_of_safe hg hpending hsafe]
  · rw [exec_txnSafePointApply hclear, txnApplyRow_eq, if_pos rfl, rollback_of_page hg hst 5]
  · rw [exec_txnTimeoutRow, txnTimeout_of_safe hg hpending hsafe]
  · rw [exec_txnTimeoutRow, txnTimeout_of_late hg hlate]

/-! ### One-register writes that wait (03 R76, R77) -/

theorem exec_singleWriteApply (p : Nat) (s : State) :
    exec (.singleWriteApply p) s = .next (s.after (singleApply p s.blk)) := rfl

theorem exec_singleWriteTimeout (p : Nat) (s : State) :
    exec (.singleWriteTimeout p) s = .next (s.after (singleTimeout p s.blk)) := rfl

/-- Taking the oldest write that a test names takes it out of the list of those that wait. -/
theorem takeSingle_of_find {t : Nat × W32 × Port → Bool} {b : Block} {e : Nat × W32 × Port}
    (h : b.txn.singles.find? t = some e) :
    takeSingle t b = some (e, { b with txn := { b.txn with singles := b.txn.singles.erase e } }) := by
  simp only [takeSingle, h]

/-- The oldest waiting write of a page, where it has a timeout, is the oldest of the page that has one. -/
theorem find_timedSingle {p : Nat} {e : Nat × W32 × Port} {l : List (Nat × W32 × Port)}
    (h : l.find? (fun x => x.1 / 4096 == p) = some e) (ht : e.1 % 4096 ≠ 0x0F0) : l.find? (timedSingle p) = some e := by
  rw [List.find?_eq_some_iff_append] at h ⊢
  obtain ⟨he, before, after, hl, hbefore⟩ := h
  refine ⟨by simpa [timedSingle, ht] using he, before, after, hl, fun x hx => ?_⟩
  simp only [timedSingle, Bool.not_and, hbefore x hx, Bool.true_or]

section Waiting

variable {b : Block} {p : Nat} {e : Nat × W32 × Port}

theorem singleApply_of_unsafe (hsafe : safePoint b p = false) : singleApply p b = b := by
  simp [singleApply, hsafe]

variable (hfind : b.txn.singles.find? (fun x => x.1 / 4096 == p) = some e)

include hfind

theorem singleApply_of_safe (hsafe : safePoint b p = true) : singleApply p b =
    applySingle e (flipFirst [p] { b with txn := { b.txn with singles := b.txn.singles.erase e } }) := by
  simp only [singleApply, hsafe, if_true, takeSingle_of_find hfind]

theorem singleTimeout_of_timed (ht : e.1 % 4096 ≠ 0x0F0) : singleTimeout p b =
    let rest : Block := { b with txn := { b.txn with singles := b.txn.singles.erase e } }
    if safePoint b p then applySingle e (flipFirst [p] rest) else discard p (e.1 % 4096) 9 rest := by
  simp only [singleTimeout, takeSingle_of_find (find_timedSingle hfind ht)]

end Waiting

theorem waitingWrites : Claims.WaitingWrites := by
  intro s p e hfind
  refine ⟨fun hsafe => ?_, fun hsafe => ?_, fun ht hsafe => ?_, fun ht hsafe => ?_⟩
  · rw [exec_singleWriteApply, singleApply_of_safe hfind hsafe]
  · rw [exec_singleWriteApply, singleApply_of_unsafe hsafe]
  · rw [exec_singleWriteTimeout, singleTimeout_of_timed hfind ht]
    simp only [hsafe, if_true]
  · rw [exec_singleWriteTimeout, singleTimeout_of_timed hfind ht]
    simp only [hsafe, Bool.false_eq_true, if_false]

/-! ### The obligation -/

/-- Settles O19: TXN_CTL's commands through the checks of a write, the branches of the rows that end a transaction, and the oldest of
the writes that wait. -/
theorem pageTransactions : Obligations.PageTransactions := ⟨pageTransactionControl, transactionEnds, waitingWrites⟩

end Sys2Proof.Machine
end

section
/-!
PROOFS. The registers of a command queue (15 R418–R420): a write of SQ_TAIL and of SQ_CTL through the checks to its effect, what each
field of SQ_CTL does to the queue, and the obligation `QueueControl` assembled from them.
-/

namespace Sys2Proof.Machine

/-! ### The queue page (03 R67, 15 R423) -/

theorem pageOf_queue {q : Nat} (hq : q < 512) : pageOf (0x400 + q) = some (.queue, q) := by
  rw [pageOf]
  repeat rw [if_neg (by omega)]
  rw [if_pos (by omega), Nat.add_sub_cancel_left]

theorem rSQ_CTL_div (q : Nat) : rSQ_CTL q / 4096 = 0x400 + q := by simp only [rSQ_CTL, queueBase]; omega

theorem rSQ_CTL_mod (q : Nat) : rSQ_CTL q % 4096 = 0x054 := by simp only [rSQ_CTL, queueBase]; omega

theorem rSQ_TAIL_div (q : Nat) : rSQ_TAIL q / 4096 = 0x400 + q := by simp only [rSQ_TAIL, queueBase]; omega

theorem rSQ_TAIL_mod (q : Nat) : rSQ_TAIL q % 4096 = 0x058 := by simp only [rSQ_TAIL, queueBase]; omega

/-- No register of a queue page has W1C bits beside BLK_EVT_CLR. -/
theorem applyW1c_queue {off q : Nat} (hpage : off / 4096 = 0x400 + q) (ho : off % 4096 ≠ 0x018) (v : W32) (b : Block) :
    applyW1c off v b = b := by
  have hpw : off ≠ rPW_ALERT := by
    rintro rfl
    have : rPW_ALERT / 4096 = 2 := by decide
    omega
  rw [applyW1c, if_neg ho, if_neg hpw]

section Queue

variable {q : Nat} (hq : q < 512)

include hq

theorem safePoint_queue (b : Block) : safePoint b (0x400 + q) = true := by
  simp [safePoint, pageOf_queue hq]

theorem applyRw_sqTail (v : W32) (b : Block) : applyRw (rSQ_TAIL q) v b = wake (storeRw (rSQ_TAIL q) v b) := by
  simp [applyRw, rSQ_TAIL_div, rSQ_TAIL_mod, pageOf_queue hq]

theorem applyWo_sqTail (port : Port) (v : W32) (b : Block) : applyWo port (rSQ_TAIL q) v b = b := by
  simp [applyWo, rSQ_TAIL_div, rSQ_TAIL_mod, pageOf_queue hq]

theorem applyRw_sqCtl (v : W32) (b : Block) : applyRw (rSQ_CTL q) v b = applyEnable q (bit v 0) b := by
  simp [applyRw, rSQ_CTL_div, rSQ_CTL_mod, pageOf_queue hq]

theorem applyWo_sqCtl (port : Port) (v : W32) (b : Block) :
    applyWo port (rSQ_CTL q) v b = onBit v 2 (discardQueue q) (onBit v 1 (resumeQueue q) b) := by
  simp [applyWo, rSQ_CTL_div, rSQ_CTL_mod, pageOf_queue hq]

theorem applySingle_sqCtl (port : Port) (v : W32) (b : Block) :
    applySingle (rSQ_CTL q, v, port) b = applyEnable q (bit v 0) b := by
  rw [← applyRw_sqCtl hq]
  simp [applySingle, rSQ_CTL_div, pageOf_queue hq]

end Queue

/-! ### Writes of the two registers -/

/-- A write of SQ_TAIL that acts is kept, and wakes the device (17 R481). -/
theorem regWriteAt_sqTail {q : Nat} (hq : q < 512) {port : Port} {v : W32} {b : Block} (h : actsNow b port (rSQ_TAIL q) v = true) :
    regWriteAt port (rSQ_TAIL q) 4 v b = wake (storeRw (rSQ_TAIL q) v (granted port (0x400 + q) b)) := by
  rw [regWriteAt_acts port _ v b h, applyWo_sqTail hq, applyW1c_queue (rSQ_TAIL_div q) (by rw [rSQ_TAIL_mod]; decide),
    applyRw_sqTail hq, rSQ_TAIL_div]

/-- The block in which a write of SQ_CTL acts: a write that would wait for the safe point comes after an epoch flip that is due
(01 R31). -/
def sqCtlBlock (port : Port) (q : Nat) (v : W32) (b : Block) : Block :=
  if actsNow b port (rSQ_CTL q) v = true then granted port (0x400 + q) b else flipFirst [0x400 + q] (granted port (0x400 + q) b)

/-- A write of SQ_CTL whose safe point holds: ENABLE takes its value, then RESUME and DISCARD act. -/
theorem regWriteAt_sqCtl {q : Nat} (hq : q < 512) {port : Port} {v : W32} {b : Block}
    (h : actsSafely b port (rSQ_CTL q) v = true) : regWriteAt port (rSQ_CTL q) 4 v b =
      onBit v 2 (discardQueue q) (onBit v 1 (resumeQueue q) (applyEnable q (bit v 0) (sqCtlBlock port q v b))) := by
  by_cases hnow : actsNow b port (rSQ_CTL q) v = true
  · rw [regWriteAt_acts port _ v b hnow, applyWo_sqCtl hq, applyW1c_queue (rSQ_CTL_div q) (by rw [rSQ_CTL_mod]; decide),
      applyRw_sqCtl hq, rSQ_CTL_div, sqCtlBlock, if_pos hnow]
  · simp only [actsSafely, hnow, rSQ_CTL_div, pageOf_queue hq, rSQ_CTL_mod, Bool.false_or, Bool.and_eq_true, beq_iff_eq] at h
    obtain ⟨⟨⟨hl, ha⟩, -⟩, hsingle⟩ := h
    have hp : pageOf (rSQ_CTL q / 4096) = some (.queue, q) := by rw [rSQ_CTL_div, pageOf_queue hq]
    rw [regWriteAt_judged hl hp ha, rSQ_CTL_div, rSQ_CTL_mod, hsingle, sqCtlBlock, if_neg hnow]
    simp [performWrite, rSQ_CTL_mod, safePoint_queue hq, applySingle_sqCtl hq, applyWo_sqCtl hq]

/-! ### ENABLE (15 R419, R420) -/

section Enable

variable {b : Block} {q : Nat}

theorem applyEnable_of_disabled (hs : qState b q = 0) (hmay : enableMay b q true = true) : applyEnable q true b =
    put (fSQ_STAT_STATE q) 1 (put (fSQ_CTL_ENABLE q) 1 (setQueue q
      ⟨(get b (fSQ_SEQ_NEXT_SEQ q) + 2 ^ 32 - 1) % 2 ^ 32, get b (fSQ_HEAD_HEAD q)⟩ b)) := by
  simp only [applyEnable, hmay, enableQueue, hs, Bool.not_true, Bool.false_eq_true, if_false, if_true]

/-- ENABLE = 1 changes nothing on a queue that is not DISABLED. -/
theorem applyEnable_of_enabled (hs : qState b q ≠ 0) : applyEnable q true b = b := by
  simp [applyEnable, enableMay, enableOk, enableQueue, hs]

theorem applyEnable_off (hs : qState b q ≠ 0) (hmay : enableMay b q false = true) : applyEnable q false b = disableQueue q b := by
  simp [applyEnable, hmay, hs]

end Enable

/-! ### What a queue's registers read after its state changes -/

/-- In parentheses, so that `simp` rewrites with it and leaves the kernel no registers to unfold. -/
@[simp] theorem get_setCmds (b : Block) (cs : List Cmd) (f : Fld) : get { b with cmds := cs } f = get b f := (rfl)

section State

variable (b : Block) (q v : Nat)

@[simp] theorem qState_put_state : qState (put (fSQ_STAT_STATE q) v b) q = v % 4 :=
  get_put_self b _ v (show 1 < 32 by decide)

@[simp] theorem get_head_put_state : get (put (fSQ_STAT_STATE q) v b) (fSQ_HEAD_HEAD q) = get b (fSQ_HEAD_HEAD q) :=
  get_put_off_ne b v (by simp [fSQ_STAT_STATE, fSQ_HEAD_HEAD])

@[simp] theorem get_seq_put_state : get (put (fSQ_STAT_STATE q) v b) (fSQ_SEQ_NEXT_SEQ q) = get b (fSQ_SEQ_NEXT_SEQ q) :=
  get_put_off_ne b v (by simp [fSQ_STAT_STATE, fSQ_SEQ_NEXT_SEQ])

@[simp] theorem get_head_put_enable : get (put (fSQ_CTL_ENABLE q) v b) (fSQ_HEAD_HEAD q) = get b (fSQ_HEAD_HEAD q) :=
  get_put_off_ne b v (by simp [fSQ_CTL_ENABLE, fSQ_HEAD_HEAD])

@[simp] theorem get_seq_put_enable : get (put (fSQ_CTL_ENABLE q) v b) (fSQ_SEQ_NEXT_SEQ q) = get b (fSQ_SEQ_NEXT_SEQ q) :=
  get_put_off_ne b v (by simp [fSQ_CTL_ENABLE, fSQ_SEQ_NEXT_SEQ])

@[simp] theorem get_head_put_seq : get (put (fSQ_SEQ_NEXT_SEQ q) v b) (fSQ_HEAD_HEAD q) = get b (fSQ_HEAD_HEAD q) :=
  get_put_off_ne b v (by simp [fSQ_SEQ_NEXT_SEQ, fSQ_HEAD_HEAD])

@[simp] theorem get_tail_put_seq : get (put (fSQ_SEQ_NEXT_SEQ q) v b) (fSQ_TAIL_TAIL q) = get b (fSQ_TAIL_TAIL q) :=
  get_put_off_ne b v (by simp [fSQ_SEQ_NEXT_SEQ, fSQ_TAIL_TAIL])

@[simp] theorem get_seq_put_head : get (put (fSQ_HEAD_HEAD q) v b) (fSQ_SEQ_NEXT_SEQ q) = get b (fSQ_SEQ_NEXT_SEQ q) :=
  get_put_off_ne b v (by simp [fSQ_HEAD_HEAD, fSQ_SEQ_NEXT_SEQ])

@[simp] theorem get_head_put_self : get (put (fSQ_HEAD_HEAD q) v b) (fSQ_HEAD_HEAD q) = v % 2 ^ 32 :=
  get_put_self b _ v (show 31 < 32 by decide)

@[simp] theorem get_seq_put_self : get (put (fSQ_SEQ_NEXT_SEQ q) v b) (fSQ_SEQ_NEXT_SEQ q) = v % 2 ^ 32 :=
  get_put_self b _ v (show 31 < 32 by decide)

end State

theorem get_tail_lt (b : Block) (q : Nat) : get b (fSQ_TAIL_TAIL q) < 2 ^ 32 := Nat.mod_lt _ (by positivity)

/-! ### DISABLED, RESUME and DISCARD (15 R419, log 28) -/

section Disable

variable (q : Nat) (b : Block)

theorem qState_disableQueue : qState (disableQueue q b) q = 0 := by simp [disableQueue]

theorem cmdsOf_disableQueue : cmdsOf (disableQueue q b) q = [] := by
  simp [disableQueue, cmdsOf, List.filter_filter]

theorem head_disableQueue : get (disableQueue q b) (fSQ_HEAD_HEAD q) =
    (get b (fSQ_HEAD_HEAD q) + 2 ^ 32 - (cmdsOf b q).length) % 2 ^ 32 := by
  simp only [disableQueue, get_head_put_state, get_head_put_enable, get_setCmds, get_head_put_seq, get_head_put_self, Nat.mod_mod]

theorem seq_disableQueue : get (disableQueue q b) (fSQ_SEQ_NEXT_SEQ q) =
    (get b (fSQ_SEQ_NEXT_SEQ q) + 2 ^ 32 - (cmdsOf b q).length) % 2 ^ 32 := by
  simp only [disableQueue, get_seq_put_state, get_seq_put_enable, get_setCmds, get_seq_put_self, get_seq_put_head, Nat.mod_mod]

theorem mem_disableQueue : (disableQueue q b).mem = b.mem := by simp [disableQueue]

end Disable

theorem resumeQueue_of_stopped {q : Nat} {b : Block} (hs : qState b q = 2) : resumeQueue q b = put (fSQ_STAT_STATE q) 1 b := by
  simp [resumeQueue, hs]

section Discard

variable {q : Nat} {b : Block} (hs : qState b q = 2)

include hs

theorem qState_discardQueue : qState (discardQueue q b) q = 1 := by simp [discardQueue, hs]

theorem head_discardQueue : get (discardQueue q b) (fSQ_HEAD_HEAD q) = get b (fSQ_TAIL_TAIL q) := by
  simp only [discardQueue, hs, if_true, get_head_put_state, get_head_put_self, get_tail_put_seq, get_setCmds,
    Nat.mod_eq_of_lt (get_tail_lt b q)]

theorem mem_discardQueue : (discardQueue q b).mem = b.mem := by simp [discardQueue, hs]

theorem cmds_discardQueue : (discardQueue q b).cmds =
    b.cmds.map (fun (c : Cmd) => if c.queue == q && (c.stage == .fetched || c.stage == .held)
      then { c with stage := .finished, status := 0x16 } else c) ++ discardedCmds b q := by
  simp [discardQueue, hs]

end Discard

/-! ### The obligation -/

theorem exec_sqTail (port : Port) (q : Fin 512) (v : W32) (s : State) :
    exec (.sqTail port q v) s = .next (s.after (regWriteAt port (rSQ_TAIL q) 4 v s.blk)) := rfl

theorem exec_sqEnable (port : Port) (q : Fin 512) (en : Bool) (s : State) :
    exec (.sqEnable port q en) s = .next (s.after (regWriteAt port (rSQ_CTL q) 4 (BitVec.ofNat 32 (b2n en)) s.blk)) := rfl

theorem exec_sqResume (port : Port) (q : Fin 512) (s : State) :
    exec (.sqResume port q) s = .next (s.after (regWriteAt port (rSQ_CTL q) 4 3 s.blk)) := rfl

theorem exec_sqDiscard (port : Port) (q : Fin 512) (s : State) :
    exec (.sqDiscard port q) s = .next (s.after (regWriteAt port (rSQ_CTL q) 4 5 s.blk)) := rfl

section Commands

variable {s : State} {port : Port} {q : Fin 512}

/-- SQ_CTL = 1 on a DISABLED queue. -/
theorem exec_sqEnable_of_disabled (h : actsSafely s.blk port (rSQ_CTL q) 1 = true)
    (hs : qState (sqCtlBlock port q 1 s.blk) q = 0) (hmay : enableMay (sqCtlBlock port q 1 s.blk) q true = true) :
    exec (.sqEnable port q true) s = .next (s.after (put (fSQ_STAT_STATE q) 1 (put (fSQ_CTL_ENABLE q) 1 (setQueue q
      ⟨(get (sqCtlBlock port q 1 s.blk) (fSQ_SEQ_NEXT_SEQ q) + 2 ^ 32 - 1) % 2 ^ 32,
        get (sqCtlBlock port q 1 s.blk) (fSQ_HEAD_HEAD q)⟩ (sqCtlBlock port q 1 s.blk))))) := by
  rw [exec_sqEnable, show BitVec.ofNat 32 (b2n true) = 1 from rfl, regWriteAt_sqCtl q.isLt h, show bit (1 : W32) 0 = true from rfl,
    applyEnable_of_disabled hs hmay]
  rfl

/-- SQ_CTL = 0 on a queue that is not DISABLED. -/
theorem exec_sqEnable_off (h : actsSafely s.blk port (rSQ_CTL q) 0 = true)
    (hs : qState (sqCtlBlock port q 0 s.blk) q ≠ 0) (hmay : enableMay (sqCtlBlock port q 0 s.blk) q false = true) :
    exec (.sqEnable port q false) s = .next (s.after (disableQueue q (sqCtlBlock port q 0 s.blk))) := by
  rw [exec_sqEnable, show BitVec.ofNat 32 (b2n false) = 0 from rfl, regWriteAt_sqCtl q.isLt h, show bit (0 : W32) 0 = false from rfl,
    applyEnable_off hs hmay]
  rfl

/-- SQ_CTL = 3 on a STOPPED queue: ENABLE stays as it is. -/
theorem exec_sqResume_of_stopped (h : actsSafely s.blk port (rSQ_CTL q) 3 = true)
    (hs : qState (sqCtlBlock port q 3 s.blk) q = 2) :
    exec (.sqResume port q) s = .next (s.after (put (fSQ_STAT_STATE q) 1 (sqCtlBlock port q 3 s.blk))) := by
  rw [exec_sqResume, regWriteAt_sqCtl q.isLt h, show bit (3 : W32) 0 = true from rfl, applyEnable_of_enabled (by omega),
    ← resumeQueue_of_stopped hs]
  rfl

/-- SQ_CTL = 5 on a STOPPED queue: ENABLE stays as it is. -/
theorem exec_sqDiscard_of_stopped (h : actsSafely s.blk port (rSQ_CTL q) 5 = true)
    (hs : qState (sqCtlBlock port q 5 s.blk) q = 2) :
    exec (.sqDiscard port q) s = .next (s.after (discardQueue q (sqCtlBlock port q 5 s.blk))) := by
  rw [exec_sqDiscard, regWriteAt_sqCtl q.isLt h, show bit (5 : W32) 0 = true from rfl, applyEnable_of_enabled (by omega)]
  rfl

end Commands

/-- Settles O45: the word that each command writes to SQ_CTL names one field that acts, whose effect on the queue is read off. -/
theorem queueControl : Obligations.QueueControl := by
  intro s q port
  refine ⟨fun v h => ?_, fun h hs hmay => exec_sqEnable_of_disabled h hs hmay, fun h hs hmay => ⟨_, exec_sqEnable_off h hs hmay, ?_⟩,
    fun h hs => exec_sqResume_of_stopped h hs, fun h hs => ⟨_, exec_sqDiscard_of_stopped h hs, ?_⟩⟩
  · rw [exec_sqTail, regWriteAt_sqTail q.isLt h]
  · exact ⟨qState_disableQueue q _, cmdsOf_disableQueue q _, head_disableQueue q _, seq_disableQueue q _, mem_disableQueue q _⟩
  · exact ⟨qState_discardQueue hs, head_discardQueue hs, mem_discardQueue hs, cmds_discardQueue hs⟩

end Sys2Proof.Machine
end

section
/-!
PROOFS. What reaches an input entry of a stream program (09 R241, R248, R249, R254): a fetch through the fabric port, a remote read served,
answered and timed out, a weight row on the hoist chain, and the obligation `StreamInputs` assembled from them.
-/

namespace Sys2Proof.Machine

/-! ### Folds in which at most one step changes the block -/

theorem foldl_of_unchanged {α β : Type} {f : β → α → β} {b : β} {l : List α} (h : ∀ a ∈ l, f b a = b) : l.foldl f b = b := by
  induction l with
  | nil => rfl
  | cons a t ih =>
    rw [List.foldl_cons, h a List.mem_cons_self]
    exact ih fun x hx => h x (List.mem_cons_of_mem _ hx)

/-- Only the step of `a` changes the block: from `b` to `t`, which the others leave as they leave `b`. -/
theorem foldl_of_changed_once {α β : Type} {f : β → α → β} {b t : β} {l : List α} {a : α} (hl : l.Nodup) (ha : a ∈ l)
    (hat : f b a = t) (hothers : ∀ x ∈ l, x ≠ a → f b x = b ∧ f t x = t) : l.foldl f b = t := by
  obtain ⟨before, after, rfl⟩ := List.append_of_mem ha
  have hnodup := List.nodup_middle.mp hl
  have hne : ∀ x ∈ before ++ after, x ≠ a := by
    rintro x hx rfl
    exact (List.nodup_cons.mp hnodup).1 hx
  have hmem : ∀ x ∈ before ++ after, x ∈ before ++ a :: after := by simp +contextual [or_imp]
  have hbefore : ∀ x ∈ before, f b x = b := fun x hx =>
    (hothers x (hmem x (List.mem_append_left _ hx)) (hne x (List.mem_append_left _ hx))).1
  have hafter : ∀ x ∈ after, f t x = t := fun x hx =>
    (hothers x (hmem x (List.mem_append_right _ hx)) (hne x (List.mem_append_right _ hx))).2
  rw [List.foldl_append, List.foldl_cons, foldl_of_unchanged hbefore, hat, foldl_of_unchanged hafter]

/-! ### Entries of a stream engine -/

theorem se_setSe_self (b : Block) (c : Nat) (x : Se) : se (setSe c x b) c = x := by simp [se, setSe]

theorem se_setSe_ne (b : Block) {c d : Nat} (x : Se) (h : c ≠ d) : se (setSe c x b) d = se b d := mapGet_set_ne _ _ _ h

/-- Setting an entry changes no other entry of any cluster. -/
theorem entryOf_setEntry_ne (b : Block) {cl e cl' e' : Nat} (x : Entry) (h : (cl', e') ≠ (cl, e)) :
    entryOf (se (setEntry cl e x b) cl') e' = entryOf (se b cl') e' := by
  by_cases hcl : cl = cl'
  · subst hcl
    have he : e ≠ e' := by
      rintro rfl
      exact h rfl
    rw [setEntry, se_setSe_self]
    exact mapGet_set_ne _ _ _ he
  · rw [setEntry, se_setSe_ne _ _ hcl]

/-! ### STREAM_FETCH (09 R248, R249) -/

/-- Without errors in the words that it reads, a row of another entry than the weights' is the fetch alone. -/
theorem fetchAndPour_of_input (cl : Nat) {e : Nat} (he : e ≠ 1) (b : Block) : fetchAndPour cl e [] b = streamFetch cl e b := by
  simp [fetchAndPour, he]

theorem streamFetch_of_fabric_off {cl : Nat} {b : Block} (e : Nat) (hd : dom b (domFab (halfOfCluster cl)) ≠ 2) :
    streamFetch cl e b = b := by
  simp [streamFetch, hd]

section Fetch

variable {cl e : Nat} {b : Block} (he : e < 6) (hd : dom b (domFab (halfOfCluster cl)) = 2)

include he hd

/-- Padding alone needs no grant. -/
theorem streamFetch_of_padding (ha : inputAsks (fetchPads 1024 cl e b).2 cl e = false) :
    streamFetch cl e b = (fetchPads 1024 cl e b).2 := by
  simp [streamFetch, he, hd, ha]

variable (ha : inputAsks (fetchPads 1024 cl e b).2 cl e = true)

include ha

theorem streamFetch_of_grant {go : Block} (hg : portGrant cl e (fetchPads 1024 cl e b).2 = some go) :
    streamFetch cl e b = fetchElems (fetchPads 1024 cl e b).1 cl e go := by
  simp [streamFetch, he, hd, ha, hg]

theorem streamFetch_of_no_grant (hg : portGrant cl e (fetchPads 1024 cl e b).2 = none) :
    streamFetch cl e b = (fetchPads 1024 cl e b).2 := by
  simp [streamFetch, he, hd, ha, hg]

end Fetch

theorem exec_streamFetchRow {s : State} (hclear : hostClear s.blk = true) (cl : Fin 32) {e : Fin 8} (he : e.val ≠ 1) :
    exec (.streamFetchRow cl e []) s = .next (s.after (streamFetch cl e s.blk)) := by
  rw [← fetchAndPour_of_input cl he]
  exact congrArg (fun b => Host.Outcome.next (s.after b)) (hostGated_active (fetchAndPour cl e []) _ hclear)

/-! ### A remote read at its owner (09 R241) -/

section Serve

variable {src va n : Nat} {ups : List Upset} {b : Block} (hm : activeMember b (devId b) = true)

include hm

theorem remoteServe_of_read {r : VRead} (hr : vRead (ups.foldl sramUpset b) (get (ups.foldl sramUpset b) fGG_STEP_CTX_CTX) va n = .ok r) :
    remoteServe src va n ups b = sendGang src (.readAnswer va r.bytes (linePoison r.pois) false) (ups.foldl sramUpset b) := by
  simp [remoteServe, hm, hr]

theorem remoteServe_of_poison
    (hr : vRead (ups.foldl sramUpset b) (get (ups.foldl sramUpset b) fGG_STEP_CTX_CTX) va n = .error .poison) :
    remoteServe src va n ups b =
      sendGang src (.readAnswer va (leBytes n 0) (linePoison (List.replicate n true)) false) (ups.foldl sramUpset b) := by
  simp [remoteServe, hm, hr]

theorem remoteServe_of_fault
    (hr : vRead (ups.foldl sramUpset b) (get (ups.foldl sramUpset b) fGG_STEP_CTX_CTX) va n = .error .fault) :
    remoteServe src va n ups b = sendGang src (.readAnswer va [] 0 true) (ups.foldl sramUpset b) := by
  simp [remoteServe, hm, hr]

end Serve

theorem exec_remoteReadRequest {s : State} (hclear : hostClear s.blk = true) (src va n : Nat) (ups : List Upset) :
    exec (.remoteReadRequest src va n ups) s = .next (s.after (remoteServe src va n ups s.blk)) :=
  congrArg (fun b => Host.Outcome.next (s.after b)) (hostGated_active (remoteServe src va n ups) _ hclear)

/-! ### A remote read at its reader (09 R241) -/

theorem remoteTimeout_of_asked {cl e : Nat} {b : Block} {c : Cmd} {j : Job} {g : Seg} {row col : Int}
    (hj : jobCmd b (se b cl).job = some (c, j)) (ha : (entryOf (se b cl) e).asked ≠ [])
    (hc : coordOf (entryOf (se b cl) e) (entryOf (se b cl) e).fetched = some (g, row, col)) :
    remoteTimeout cl e b = streamFault cl e 5 row col c.queue c.count b := by
  simp [remoteTimeout, hj, ha, hc]

theorem exec_remoteReadTimeout (cl : Fin 32) (e : Fin 8) (s : State) :
    exec (.remoteReadTimeout cl e) s = .next (s.after (remoteTimeout cl e s.blk)) := rfl

/-- The requests of an entry for a block of a device. -/
def asksFor (src va : Nat) (x : Entry) : Bool := x.asked.any (fun a => a.1 == src && a.2.1 == va)

/-- What the answer with data leaves of an entry that asked. -/
def answered (src va : Nat) (data : List Byte) (poison : Nat) (x : Entry) : Entry :=
  { x with asked := x.asked.filter (fun a => !(a.1 == src && a.2.1 == va)),
           got := (src, va, data, bytePoison poison data.length) :: x.got }

/-- An answer with data, at one entry. -/
def answerEntry (src va : Nat) (data : List Byte) (poison cl : Nat) (b : Block) (e : Nat) : Block :=
  match jobCmd b (se b cl).job with
  | none => b
  | some _ => if asksFor src va (entryOf (se b cl) e) then setEntry cl e (answered src va data poison (entryOf (se b cl) e)) b else b

section Answer

variable {src va : Nat} {data : List Byte} {poison : Nat}

theorem remoteAnswer_eq (b : Block) : remoteAnswer src va data poison false b =
    (List.range 32).foldl (fun b cl => (List.range 6).foldl (answerEntry src va data poison cl) b) b := by
  simp only [remoteAnswer]
  congr 1
  funext b cl
  congr 1
  funext b e
  simp only [answerEntry, asksFor, answered]
  cases jobCmd b (se b cl).job with
  | none => rfl
  | some cj =>
    obtain ⟨c, j⟩ := cj
    by_cases h : (entryOf (se b cl) e).asked.any (fun a => a.1 == src && a.2.1 == va) = true
    · simp [h]
    · simp [h]

theorem answerEntry_of_unasked {cl e : Nat} {b : Block} (h : asksFor src va (entryOf (se b cl) e) = false) :
    answerEntry src va data poison cl b e = b := by
  simp only [answerEntry, h, Bool.false_eq_true, if_false]
  split <;> rfl

theorem answerEntry_of_asked {cl e : Nat} {b : Block} {c : Cmd} {j : Job} (hj : jobCmd b (se b cl).job = some (c, j))
    (h : asksFor src va (entryOf (se b cl) e) = true) :
    answerEntry src va data poison cl b e = setEntry cl e (answered src va data poison (entryOf (se b cl) e)) b := by
  simp only [answerEntry, hj, h, if_true]

/-- Where one entry alone asked, the answer reaches that entry alone. -/
theorem remoteAnswer_of_asked_once {cl e : Nat} {b : Block} {c : Cmd} {j : Job} (hcl : cl < 32) (he : e < 6)
    (hj : jobCmd b (se b cl).job = some (c, j)) (h : asksFor src va (entryOf (se b cl) e) = true)
    (hothers : ∀ cl' < 32, ∀ e' < 6, (cl', e') ≠ (cl, e) → asksFor src va (entryOf (se b cl') e') = false) :
    remoteAnswer src va data poison false b = setEntry cl e (answered src va data poison (entryOf (se b cl) e)) b := by
  have hstays (cl' : Nat) (hcl' : cl' < 32) (e' : Nat) (he' : e' < 6) (hne : (cl', e') ≠ (cl, e)) :
      answerEntry src va data poison cl' b e' = b ∧
        answerEntry src va data poison cl' (setEntry cl e (answered src va data poison (entryOf (se b cl) e)) b) e' =
          setEntry cl e (answered src va data poison (entryOf (se b cl) e)) b :=
    have hun := hothers cl' hcl' e' he' hne
    ⟨answerEntry_of_unasked hun, answerEntry_of_unasked (by rwa [entryOf_setEntry_ne _ _ hne])⟩
  rw [remoteAnswer_eq]
  refine foldl_of_changed_once List.nodup_range (List.mem_range.mpr hcl) ?_ fun cl' hcl' hne => ?_
  · refine foldl_of_changed_once List.nodup_range (List.mem_range.mpr he) (answerEntry_of_asked hj h) fun e' he' hne => ?_
    exact hstays cl hcl e' (List.mem_range.mp he') (by simp [hne])
  · have hrow := fun e' he' => hstays cl' (List.mem_range.mp hcl') e' (List.mem_range.mp he') (by simp [hne])
    exact ⟨foldl_of_unchanged fun e' he' => (hrow e' he').1, foldl_of_unchanged fun e' he' => (hrow e' he').2⟩

end Answer

theorem exec_remoteReadResponse (src va : Nat) (data : List Byte) (poison : Nat) (fault : Bool) (s : State) :
    exec (.remoteReadResponse src va data poison fault) s = .next (s.after (remoteAnswer src va data poison fault s.blk)) := rfl

theorem remoteReadAnswers : Claims.RemoteReadAnswers := by
  intro s src va data poison cl e c j hj x named hasked hothers
  rw [exec_remoteReadResponse, remoteAnswer_of_asked_once cl.isLt e.isLt hj hasked fun cl' hcl' e' he' hne =>
    hothers ⟨cl', hcl'⟩ ⟨e', he'⟩ (by simpa [Fin.ext_iff] using hne)]
  rfl

/-! ### The hoist chain (09 R253, R254) -/

/-- The cluster's slot has taken the row, which leads from `b` to `t`: the cluster holds it no more and counts it. -/
def rowTaken (cl : Nat) (b t : Block) : Block :=
  let taken := setSe cl { se t cl with hoist := (se b cl).hoist.drop 1 } t
  setSe cl { se taken cl with wrows := (se b cl).wrows + 1 } taken

section Hoist

variable {cl d : Nat} {b t : Block} {c : Cmd} {j : Job} {row : List Elem} (hj : jobCmd b (se b cl).job = some (c, j))

include hj

/-- The chain waits behind a cluster that still holds a row. -/
theorem hoistForward_of_blocked (ups : List Upset) (hd : nextOnChain c (se b cl).rank = some d) (hfull : (se b d).hoist ≠ []) :
    hoistForward cl ups b = b := by
  simp [hoistForward, hj, hd, hfull]

variable (hh : (c.tensor 1).hoist = true) (ho : c.hasOpu = true) (hr : (se b cl).rank ≠ 0)
  (hhead : (se b cl).hoist.head? = some row) (hmine : (se b cl).wrows / max c.rowsPerIter 1 * c.nclus + (se b cl).rank < c.parts)
  (htake : takeWeightRow cl (se b cl).wrows c row b = some t)

include hh ho hr hhead hmine htake

/-- A row of its own that a cluster behind the first holds goes to the slot; the chain ends here. -/
theorem hoistForward_of_last (hlast : nextOnChain c (se b cl).rank = none) : hoistForward cl [] b = rowTaken cl b t := by
  simp [hoistForward, hj, hlast, hh, ho, hr, hhead, upsetRow, hmine, htake, rowTaken]

/-- The next cluster, which holds none, gets the row over the chain's links; its elements that are no padding are counted. -/
theorem hoistForward_of_next (hd : nextOnChain c (se b cl).rank = some d) (hfree : (se b d).hoist = []) :
    hoistForward cl [] b = count64 (rSE_CNT_HOIST_LO cl) ((row.filter (fun v => !v.pad)).length * fmtWidth c.wFmt / 8)
      (linkGrant cl d 0 (setSe d { se (rowTaken cl b t) d with hoist := (se (rowTaken cl b t) d).hoist ++ [row] }
        (rowTaken cl b t))) := by
  simp [hoistForward, hj, hd, hfree, hh, ho, hr, hhead, upsetRow, hmine, htake, rowTaken]

end Hoist

theorem exec_hoistRowForward (cl : Fin 32) (ups : List Upset) (s : State) :
    exec (.hoistRowForward cl ups) s = .next (s.after (hoistForward cl ups s.blk)) := rfl

/-! ### The obligation -/

theorem inputEntries : Claims.InputEntries := by
  intro s cl hclear
  refine ⟨fun e he hne hd => ⟨fun ha => ?_, fun ha => ⟨fun go hg => ?_, fun hg => ?_⟩⟩, fun e hne hd => ?_,
    fun src va n ups hm => ⟨fun r hr => ?_, fun hr => ?_, fun hr => ?_⟩, fun e c j g row col hj ha hc => ?_,
    fun c j row b hj hh ho hr hhead hmine htake => ⟨fun d hd hfull => ?_, fun d hd hfree => ?_, fun hlast => ?_⟩⟩
  · rw [exec_streamFetchRow hclear cl hne, streamFetch_of_padding he hd ha]
  · rw [exec_streamFetchRow hclear cl hne, streamFetch_of_grant he hd ha hg]
  · rw [exec_streamFetchRow hclear cl hne, streamFetch_of_no_grant he hd ha hg]
  · rw [exec_streamFetchRow hclear cl hne, streamFetch_of_fabric_off _ hd]
  · rw [exec_remoteReadRequest hclear, remoteServe_of_read hm hr]
  · rw [exec_remoteReadRequest hclear, remoteServe_of_poison hm hr]
  · rw [exec_remoteReadRequest hclear, remoteServe_of_fault hm hr]
  · rw [exec_remoteReadTimeout, remoteTimeout_of_asked hj ha hc]
  · rw [exec_hoistRowForward, hoistForward_of_blocked hj [] hd hfull]
  · rw [exec_hoistRowForward, hoistForward_of_next hj hh ho hr hhead hmine htake hd hfree]
    rfl
  · rw [exec_hoistRowForward, hoistForward_of_last hj hh ho hr hhead hmine htake hlast]
    rfl

/-- Settles O25: the branches of each row, and for an answer the one step of the fold over all entries that changes the block. -/
theorem streamInputs : Obligations.StreamInputs := ⟨inputEntries, remoteReadAnswers⟩

end Sys2Proof.Machine
end

section
/-!
PROOFS. What each row of the command table answers (02 R35), and the obligation `OnlyDamageStops`.
-/

namespace Sys2Proof.Machine

/-- Each row is one operation on the block; a row that carries an input voltage runs it under R35's absolute maximum. -/
theorem exec_eq_run (i : Instr) (s : State) : ∃ f : Block → Block, exec i s = match carriedVin i with
    | some v => State.runVin v f s
    | none => s.run f := by
  cases i with
  | rdTxn port device txn ups => exact ⟨fun b => if device then deviceRead port txn b else hostRead port txn ups b, rfl⟩
  | wrTxn port device txn => exact ⟨fun b => if device then deviceWrite port txn b else hostWr port txn b, rfl⟩
  | _ => exact ⟨_, rfl⟩

/-- What a row answers, from what its operation makes of the block. -/
theorem run_of_eq {f : Block → Block} {s : State} {b : Block} (h : f s.blk = b) : s.run f = .next (s.after b) := by
  rw [run_eq, h]

theorem runVin_of_eq {f : Block → Block} {s : State} {b : Block} {v : Nat} (hv : v ≤ 50000) (h : f s.blk = b) :
    State.runVin v f s = .next (s.after b) := by
  rw [runVin_ok f s hv, h]

/-- Settles O4: a row is an operation on the block, and only a voltage above 50.0 V keeps it from running. -/
theorem onlyDamageStops : Obligations.OnlyDamageStops := by
  intro i s
  obtain ⟨f, hf⟩ := exec_eq_run i s
  rw [hf]
  refine ⟨fun ⟨v, hv, habove⟩ => ?_, fun hbelow => ⟨f s.blk, ?_⟩⟩
  · rw [hv]
    exact if_pos habove
  · cases hv : carriedVin i with
    | none => exact run_eq f s
    | some v => exact runVin_ok f s (hbelow v hv)

end Sys2Proof.Machine
end

section
/-!
PROOFS. The block after reset (17 R483, R491), and the obligation `ResetState`.
-/

namespace Sys2Proof.Machine

theorem domPwr_reset : domOn State.reset.blk domPwr = false := by decide

theorem resetValues : Claims.ResetValues :=
  ⟨rfl, rfl, rfl, fun _ => rfl, fun _ => ⟨rfl, rfl⟩, rfl, rfl, rfl, by decide, by decide, by decide, by decide⟩

theorem resetShown : Claims.ResetShown :=
  ⟨fun hon => absurd hon (by simp [domPwr_reset]), domPwr_reset⟩

/-- Settles O6: no register is listed, so that each reads its reset value; the control path is OFF among them. -/
theorem resetState : Obligations.ResetState := ⟨resetValues, resetShown⟩

end Sys2Proof.Machine
end

section
/-!
PROOFS. What the operations that many rows share leave as it was: the fields that no record, abort, rollback or fence writes, the parts of
the block that an abort or a rise of firedamp leaves alone, and what follows from a command where nothing waits for an outcome.
-/

namespace Sys2Proof.Machine

/-! ### Fields that records, aborts, rollbacks and fences leave -/

/-- A field of BLK_STAT below the fields of a discard (03 R69), or of a PW register other than PW_ALERT and the page's header. -/
def Fld.steady (f : Fld) : Prop := f.msb < 32 ∧ ((f.off % 4096 = 0xc ∧ f.msb < 16) ∨ (0x2040 ≤ f.off ∧ f.off < 0x20d0))

theorem steady_fDom {d : Nat} (hd : d < 80) : (fDom d).steady := by
  simp only [Fld.steady, fDom, rPW_DOM, pwBase]
  omega

theorem steady_failed {base : Nat} (h : base % 4096 = 0) : (fBLK_STAT_FAILED base).steady := by
  simp only [Fld.steady, fBLK_STAT_FAILED]
  omega

section Steady

variable {f : Fld} (hf : f.steady) (b : Block)

include hf

theorem Fld.steady.off_ne {o : Nat} (ho : o % 4096 ≠ 0xc ∧ (o < 0x2040 ∨ 0x20d0 ≤ o)) : o ≠ f.off := by
  obtain ⟨-, h | h⟩ := hf <;> omega

theorem get_wr_steady {o : Nat} (ho : o % 4096 ≠ 0xc ∧ (o < 0x2040 ∨ 0x20d0 ≤ o)) (v : W32) : get (wr b o v) f = get b f :=
  get_wr_ne b v (hf.off_ne ho)

theorem get_put_steady {g : Fld} (hg : g.off % 4096 ≠ 0xc ∧ (g.off < 0x2040 ∨ 0x20d0 ≤ g.off)) (v : Nat) :
    get (put g v b) f = get b f :=
  get_put_off_ne b v (hf.off_ne hg)

omit hf in
theorem get_setTxn (t : Txn) : get { b with txn := t } f = get b f := rfl

theorem get_raise_steady (p m : Nat) : get (raise p m b) f = get b f := by
  have hraw : get (wr b (rBLK_EVT_RAW (pageBase p)) (BitVec.ofNat 32 ((rd b (rBLK_EVT_RAW (pageBase p))).toNat ||| m))) f = get b f :=
    get_wr_steady hf b (by simp only [rBLK_EVT_RAW, pageBase]; omega) _
  simp only [raise]
  split
  · exact hraw
  · exact hraw

theorem get_alert_steady (m : Nat) : get (alert m b) f = get b f := by
  have hwr (v : W32) : get (wr b rPW_ALERT v) f = get b f := get_wr_steady hf b (by decide) v
  simp only [alert, emitSideband]
  split
  · rfl
  · split
    · exact hwr _
    · exact hwr _

/-- A discard writes the fields of BLK_STAT that lie above a steady one. -/
theorem get_discard_steady (p o c : Nat) : get (discard p o c b) f = get b f := by
  have hne (g : Fld) (hg : g.off = pageBase p + 0xc ∧ 16 ≤ g.lsb) (b : Block) (v : Nat) : get (put g v b) f = get b f := by
    refine get_put_ne b v hf.1 ?_
    obtain ⟨-, h | h⟩ := hf
    · omega
    · simp only [pageBase] at hg
      omega
  rw [discard, get_raise_steady hf, hne _ ⟨rfl, by simp [fBLK_STAT_DISC_CAUSE]⟩, hne _ ⟨rfl, by simp [fBLK_STAT_DISC_OFFSET]⟩]

theorem get_rollbackOne_steady (r p : Nat) : get (rollbackOne r b p) f = get b f := by
  have hput (g : Fld) (hg : g.off = pageBase p + 0x24) (b : Block) (v : Nat) : get (put g v b) f = get b f :=
    get_put_steady hf b (by simp only [pageBase] at hg; omega) v
  rw [rollbackOne, get_raise_steady hf]
  simp only [endTxn, incr]
  rw [hput _ rfl, hput _ rfl, hput _ rfl, hput _ rfl, hput _ rfl]
  rfl

theorem get_rollbackGroup_steady (r p : Nat) : get (rollbackGroup r p b) f = get b f := by
  have hput (g : Fld) (hg : g.off = rTX_STAT) (b : Block) (v : Nat) : get (put g v b) f = get b f :=
    get_put_steady hf b (by simp only [rTX_STAT, txBase] at hg; omega) v
  rw [rollbackGroup, endTx, get_raise_steady hf, get_setTxn, incr, hput _ rfl, hput _ rfl, hput _ rfl, hput _ rfl]
  exact foldl_keeps (fun b => get b f) _ (fun b q => get_rollbackOne_steady hf b r q) _ b

theorem get_rollback_steady (p r : Nat) : get (rollback p r b) f = get b f := by
  rw [rollback]
  split
  · rfl
  · split
    · exact get_rollbackGroup_steady hf b r p
    · exact get_rollbackOne_steady hf b r p

theorem get_domainRollback_steady (d : Nat) : get (domainRollback d b) f = get b f := by
  simp only [domainRollback]
  rw [foldl_keeps (fun b => get b f) _ (fun b e => get_discard_steady hf b _ _ _)]
  rw [get_setTxn]
  refine foldl_keeps (fun b => get b f) _ (fun b p => ?_) _ b
  split
  · exact get_rollback_steady hf b p 6
  · rfl

theorem get_releaseCluster_steady (c : Nat) : get (releaseCluster b c) f = get b f := by
  have hwr (o : Nat) (ho : 0x30000 ≤ o) (ho' : o % 4096 ≠ 0xc) (b : Block) : get (wr b o 0) f = get b f :=
    get_wr_steady hf b (by omega) 0
  have hopu (b : Block) (i : Nat) : get (releaseOpu b (4 * c + i)) f = get b f := by
    rw [releaseOpu, hwr _ (by simp only [rOP_WSLOT, opBase]; omega) (by simp only [rOP_WSLOT, opBase]; omega),
      hwr _ (by simp only [rOP_STATE, opBase]; omega) (by simp only [rOP_STATE, opBase]; omega)]
    rfl
  have hve (b : Block) (i : Nat) : get (releaseVe b (2 * c + i)) f = get b f := by
    rw [releaseVe, hwr _ (by simp only [rVE_TB, veBase]; omega) (by simp only [rVE_TB, veBase]; omega),
      hwr _ (by simp only [rVE_STATE, veBase]; omega) (by simp only [rVE_STATE, veBase]; omega)]
    rfl
  simp only [releaseCluster]
  rw [foldl_keeps (fun b => get b f) _ hve, foldl_keeps (fun b => get b f) _ hopu,
    hwr _ (by simp only [rSE_STATE, seBase]; omega) (by simp only [rSE_STATE, seBase]; omega)]
  rfl

end Steady

/-! ### An abort -/

/-- The block without its registers and what else the abort of a command may change: memory and its poison, the lodes' fills, the free
values drawn, the commands, the engines and a RESTORE under way (14 R371, R393). -/
def Block.sansWork (b : Block) : Block :=
  { b with regs := [], mem := [], poison := [], lodes := [], free := 0, cmds := [], ses := [], opus := [], ves := [],
           restoring := none, restoreHeld := [] }

/-- A write of bytes changes memory, its poison and the fills of the lodes. -/
theorem memWriteP_keeps {β : Type} (g : Block → β) (hmem : ∀ b m, g { b with mem := m } = g b)
    (hpoison : ∀ b w p, g (setPoison b w p) = g b) (hlode : ∀ b l x, g (setLode l x b) = g b)
    (pa : Nat) (bs : List Byte) (src : Nat → Bool) (b : Block) : g (memWriteP pa bs src b) = g b := by
  have hword (b : Block) (w : Nat) : g (fillWord b w) = g b := by
    simp only [fillWord]
    split
    · exact hlode b _ _
    · rfl
  have hfill (b : Block) : g (fillWrote pa bs.length b) = g b := by
    simp only [fillWrote]
    split
    · exact foldl_keeps g _ (fun b i => hword b _) _ b
    · rfl
  have hunit (u unit : Nat) (b : Block) : g (poisonAfter pa bs.length src u unit b) = g b := by
    simp only [poisonAfter]
    exact foldl_keeps g _ (fun b i => hpoison b _ _) _ b
  simp only [memWriteP]
  rw [foldl_keeps g _ (fun b i => hunit _ _ b), hfill, hmem]

@[simp] theorem memWriteP_regs (pa : Nat) (bs : List Byte) (src : Nat → Bool) (b : Block) : (memWriteP pa bs src b).regs = b.regs :=
  memWriteP_keeps (·.regs) (fun _ _ => rfl) (fun _ _ _ => rfl) (fun _ _ _ => rfl) pa bs src b

theorem get_memWriteP (f : Fld) (pa : Nat) (bs : List Byte) (src : Nat → Bool) (b : Block) : get (memWriteP pa bs src b) f = get b f := by
  simp only [get, rd, memWriteP_regs]

theorem sansWork_memWriteP (pa : Nat) (bs : List Byte) (src : Nat → Bool) (b : Block) :
    (memWriteP pa bs src b).sansWork = b.sansWork :=
  memWriteP_keeps Block.sansWork (fun _ _ => rfl) (fun _ _ _ => rfl) (fun _ _ _ => rfl) pa bs src b

theorem sansWork_undefineWritten (c : Cmd) (b : Block) : (undefineWritten c b).sansWork = b.sansWork :=
  foldl_keeps Block.sansWork _ (fun b _ => sansWork_memWriteP _ _ _ (drawFree b).2) _ b

theorem sansWork_restoreAborted (c : Cmd) (b : Block) : (restoreAborted c b).sansWork = b.sansWork := by
  rw [restoreAborted]
  split <;> rfl

theorem sansWork_releaseCluster (b : Block) (c : Nat) : (releaseCluster b c).sansWork = b.sansWork := by
  have hopu (b : Block) (o : Nat) : (releaseOpu b o).sansWork = b.sansWork := rfl
  have hve (b : Block) (v : Nat) : (releaseVe b v).sansWork = b.sansWork := rfl
  simp only [releaseCluster]
  rw [foldl_keeps Block.sansWork _ (fun b i => hve b _), foldl_keeps Block.sansWork _ (fun b i => hopu b _)]
  rfl

theorem sansWork_finishCmd (q n st d : Nat) (b : Block) : (finishCmd q n st d b).sansWork = b.sansWork := by
  rw [finishCmd]
  split
  · split <;> rfl
  · rfl

theorem sansWork_abortCmd (st d : Nat) (b : Block) (c : Cmd) : (abortCmd st d b c).sansWork = b.sansWork := by
  rw [abortCmd, sansWork_finishCmd, foldl_keeps Block.sansWork _ sansWork_releaseCluster, sansWork_restoreAborted,
    sansWork_undefineWritten]

theorem sansWork_abortWhere (p : Cmd → Bool) (st d : Nat) (b : Block) : (abortWhere p st d b).sansWork = b.sansWork :=
  foldl_keeps Block.sansWork _ (sansWork_abortCmd st d) _ b

theorem sansWork_fenceAll (b : Block) : (fenceAll b).sansWork = b.sansWork := sansWork_abortWhere _ _ _ b

theorem sansWork_pwr (b : Block) : b.sansWork.pwr = b.pwr := rfl

theorem sansWork_dbg (b : Block) : b.sansWork.dbg = b.dbg := rfl

@[simp] theorem fenceAll_pwr (b : Block) : (fenceAll b).pwr = b.pwr := by
  rw [← sansWork_pwr, sansWork_fenceAll, sansWork_pwr]

@[simp] theorem fenceAll_dbg (b : Block) : (fenceAll b).dbg = b.dbg := by
  rw [← sansWork_dbg, sansWork_fenceAll, sansWork_dbg]

section Steady

variable {f : Fld} (hf : f.steady)

include hf

theorem get_abortCmd_steady (st d : Nat) (b : Block) (c : Cmd) : get (abortCmd st d b c) f = get b f := by
  have hfinish (q n : Nat) (b : Block) : get (finishCmd q n st d b) f = get b f := by
    rw [finishCmd]
    split
    · split <;> rfl
    · rfl
  have hrestore (b : Block) : get (restoreAborted c b) f = get b f := by
    rw [restoreAborted]
    split <;> rfl
  have hwritten (b : Block) : get (undefineWritten c b) f = get b f :=
    foldl_keeps (fun b => get b f) _ (fun b p => get_memWriteP f _ _ _ (drawFree b).2) _ b
  rw [abortCmd, hfinish, foldl_keeps (fun b => get b f) _ (get_releaseCluster_steady hf), hrestore, hwritten]

theorem get_abortWhere_steady (p : Cmd → Bool) (st d : Nat) (b : Block) : get (abortWhere p st d b) f = get b f :=
  foldl_keeps (fun b => get b f) _ (get_abortCmd_steady hf st d) _ b

theorem get_fenceAll_steady (b : Block) : get (fenceAll b) f = get b f := get_abortWhere_steady hf _ _ _ b

end Steady

/-! ### A rise of firedamp (17 R488) -/

/-- The firedamp state without what a rise changes in it. -/
def Fd.called (x : Fd) : Fd := { x with fdnOnly := false, fd3Latch := false, fd3At := 0, offDue := false, yieldedAt := 0 }

/-- The block without what a rise of firedamp changes: what an abort changes, records, the pacing level, the firmware's pause, the
canary, what is driven out, and the state of firedamp itself. -/
def Block.calm (b : Block) : Block :=
  { b.sansWork with
    rings := [], out := [], canary := [], paceNext := none, fw := Fw.reset,
    fd := b.fd.called }

theorem calm_congr {b b' : Block} (h : b.sansWork = b'.sansWork) : b.calm = b'.calm := by
  have hcalm (b : Block) : b.calm = b.sansWork.calm := rfl
  rw [hcalm, h, ← hcalm]

theorem calm_raise (p m : Nat) (b : Block) : (raise p m b).calm = b.calm := by
  simp only [raise]
  split <;> rfl

theorem calm_alert (m : Nat) (b : Block) : (alert m b).calm = b.calm := by
  simp only [alert, emitSideband]
  split
  · rfl
  · split <;> rfl

/-- What records, alerts, counts, pauses and the pacing level leave alone, a change of level leaves as its two fields of PW_FD and the end of
its episode leave it. -/
theorem fdChange_of_kept {β : Type} (g : Block → β) (hraise : ∀ p m b, g (raise p m b) = g b) (halert : ∀ m b, g (alert m b) = g b)
    (hpost : ∀ c p d b, g (post c p d b) = g b) (hcanary : ∀ k n b, g (canaryAdd k n b) = g b) (hfw : ∀ w b, g (setFw w b) = g b)
    (hcap : ∀ b, g (applyCap b) = g b) (new cause : Nat) (b : Block) :
    g (fdChange new cause b) = g (setFd (fun x => { x with yieldedAt := 0, fdnOnly := false })
      (put fPW_FD_CAUSE (if new = 0 then 0 else fdCauseOf (put fPW_FD_LEVEL new b) new) (put fPW_FD_LEVEL new b))) := by
  simp only [fdChange, hcap, hfw, apply_ite g, hcanary, halert, ite_self, hraise, hpost]

theorem calm_fdChange (new cause : Nat) (b : Block) : (fdChange new cause b).calm = b.calm :=
  (fdChange_of_kept Block.calm calm_raise calm_alert (fun _ _ _ _ => rfl) (fun _ _ _ => rfl) (fun _ _ => rfl) (fun _ => rfl) new cause b).trans
    rfl

theorem fdChange_fd (new cause : Nat) (b : Block) :
    (fdChange new cause b).fd = { b.fd with yieldedAt := 0, fdnOnly := false } := by
  have hraise (p m : Nat) (b : Block) : (raise p m b).fd = b.fd := by
    simp only [raise]
    split <;> rfl
  have halert (m : Nat) (b : Block) : (alert m b).fd = b.fd := by
    simp only [alert, emitSideband]
    split
    · rfl
    · split <;> rfl
  rw [fdChange_of_kept (·.fd) hraise halert (fun _ _ _ _ => rfl) (fun _ _ _ => rfl) (fun _ _ => rfl) (fun _ => rfl)]
  rfl

theorem calm_fdRise (b : Block) : (fdRise b).calm = b.calm := by
  have hown (b : Block) : (setFd (fun f => { f with fdnOnly := false }) b).calm = b.calm := rfl
  have htrip (b : Block) : (fd3Trip b).calm = b.calm := (calm_congr (sansWork_fenceAll _)).trans rfl
  simp only [fdRise, apply_ite Block.calm, htrip, calm_fdChange, ite_self, hown]

theorem calm_pwr (b : Block) : b.calm.pwr = b.pwr := rfl

@[simp] theorem fdRise_pwr (b : Block) : (fdRise b).pwr = b.pwr := by
  rw [← calm_pwr, calm_fdRise, calm_pwr]

theorem calm_fd (b : Block) : b.calm.fd = b.fd.called := rfl

theorem called_fdRise (b : Block) : (fdRise b).fd.called = b.fd.called := by
  rw [← calm_fd, calm_fdRise, calm_fd]

/-- Readings and causes of firedamp stay as they are. -/
theorem fdRise_of_called {α : Type} {g : Fd → α} (hg : ∀ x : Fd, g x.called = g x) (b : Block) : g (fdRise b).fd = g b.fd := by
  rw [← hg, called_fdRise, hg]

section Steady

variable {f : Fld} (hf : f.steady)

include hf

theorem get_fdChange (new cause : Nat) (b : Block) : get (fdChange new cause b) f =
    get (put fPW_FD_CAUSE (if new = 0 then 0 else fdCauseOf (put fPW_FD_LEVEL new b) new) (put fPW_FD_LEVEL new b)) f :=
  fdChange_of_kept (fun b => get b f) (fun p m b => get_raise_steady hf b p m) (fun m b => get_alert_steady hf b m)
    (fun _ _ _ _ => rfl) (fun _ _ _ => rfl) (fun _ _ => rfl) (fun _ => rfl) new cause b

variable (ho : f.off ≠ rPW_FD)

include ho

/-- A change of level writes PW_FD and nothing else that is steady. -/
theorem get_fdChange_ne (new cause : Nat) (b : Block) : get (fdChange new cause b) f = get b f := by
  rw [get_fdChange hf, get_put_off_ne _ _ (Ne.symm ho), get_put_off_ne _ _ (Ne.symm ho)]

theorem get_fdRise_ne (b : Block) : get (fdRise b) f = get b f := by
  have hown (b : Block) : get (setFd (fun f => { f with fdnOnly := false }) b) f = get b f := rfl
  have htrip (b : Block) : get (fd3Trip b) f = get b f := (get_fenceAll_steady hf _).trans rfl
  simp only [fdRise, apply_ite (fun b => get b f), htrip, get_fdChange_ne hf ho, ite_self, hown]

end Steady

theorem fdLevel_fdChange {new : Nat} (h : new < 4) (cause : Nat) (b : Block) : fdLevel (fdChange new cause b) = new := by
  rw [fdLevel, get_fdChange (by simp [Fld.steady, fPW_FD_LEVEL, pwBase]), get_put_ne _ _ (by decide) (by decide),
    get_put_self _ _ _ (by decide)]
  exact Nat.mod_eq_of_lt h

theorem fdLevel_lt (b : Block) : fdLevel b < 4 := Nat.mod_lt _ (by decide)

/-! ### What follows from a command where nothing waits -/

/-- No command, securing or reloading processor waits for what the state decides: there is no outcome. -/
theorem outcomes_of_quiet {b : Block} (hq : b.quiet = true) (hstep : b.fw.stepping = none) : outcomes b = b := by
  simp only [Block.quiet, Bool.and_eq_true, List.isEmpty_iff, Option.isNone_iff_eq_none, Bool.not_eq_true'] at hq
  obtain ⟨⟨⟨⟨⟨⟨hcmds, hcolls⟩, hsecuring⟩, hjobs⟩, hlost⟩, hoff⟩, hleft⟩ := hq
  have hfd3 : fd3Settle b = b := by simp [fd3Settle, hoff]
  have hcoll : collAborted b = b := by simp [collAborted, hcolls]
  have hscan : scanAborted b = b := by simp [scanAborted, hjobs]
  have hsecure : secureSettle b = b := by simp [secureSettle, secureAbort, hsecuring]
  have hlostSettle : lostSettle b = b := by simp [lostSettle, hlost]
  have hleave : leaveSettle b = b := by simp [leaveSettle, hleft]
  have hhalts : stepHalts b = b := by simp [stepHalts, hstep]
  simp only [outcomes, hcmds, List.foldl_nil, hhalts, hfd3, hcoll, hscan, hsecure, hlostSettle, hleave]

theorem settle_of_off {b : Block} (hq : b.quiet = true) (hstep : b.fw.stepping = none) (hoff : domOn b domPwr = false) :
    settle b = b := by
  rw [settle, outcomes_of_quiet hq hstep, samples, hoff]
  rfl

end Sys2Proof.Machine
end

section
/-!
PROOFS. The power input (02 R35–R42): what power-up, a deferred one, a dip and a warning do, what a loss of power leaves, and the
obligation `PowerInput` assembled from them.
-/

namespace Sys2Proof.Machine

theorem powered_of_up {b : Block} (h : b.pwr.rail = .up) : powered b = true := by simp [powered, h]

theorem inRange_iff (v : Nat) : inRange v = true ↔ 38000 ≤ v ∧ v ≤ 42000 := by simp [inRange]

/-! ### Powering up and down (02 R41, R42) -/

section PowerUp

variable {v low : Nat} {b : Block}

theorem powerUp_of_range (hen : b.pwr.pwrEn = false) (hlow : 100 ≤ low) (hv : inRange v = true) :
    powerUp v low b = put fPW_INPUT_VIN_MV v (setPwr (fun x => { x with pwrEn := true, rail := .charging, cold := true }) b) := by
  rw [powerUp, if_neg (by simp [hen, hlow])]
  simp only [hv, if_true]
  rfl

theorem powerUp_deferred (hen : b.pwr.pwrEn = false) (hlow : 100 ≤ low) (hv : inRange v = false) :
    powerUp v low b = setPwr (fun x => { x with pwrEn := true, rail := .waitInput }) b := by
  rw [powerUp, if_neg (by simp [hen, hlow])]
  simp only [hv, Bool.false_eq_true, if_false]
  rfl

theorem inputEntersRange_of_deferred (hw : b.pwr.rail = .waitInput) (hen : b.pwr.pwrEn = true) (hv : inRange v = true) :
    inputEntersRange v b =
      put fPW_INPUT_VIN_MV v (setPwr (fun x => { x with ovIn := false, rail := .charging, cold := true }) b) := by
  simp only [inputEntersRange, hv, Bool.not_true, Bool.false_eq_true, if_false, setPwr_pwr, hw, hen, and_self, if_true]
  rfl

theorem inputEntersRange_of_up (hup : b.pwr.rail = .up) (hv : inRange v = true) :
    inputEntersRange v b = put fPW_INPUT_VIN_MV v (setPwr (fun x => { x with ovIn := false }) b) := by
  simp [inputEntersRange, hv, hup, powered]

end PowerUp

/-! ### The loss of power (02 R37) -/

theorem mapGet_filter_of_dropped {α : Type} (d : α) (m : SMap α) {p : Nat × α → Bool} {k : Nat} (h : ∀ v, p (k, v) = false) :
    mapGet d (m.filter p) k = d := by
  induction m with
  | nil => rfl
  | cons e t ih =>
    obtain ⟨k', v⟩ := e
    rw [List.filter_cons]
    split
    · next hp =>
      have hne : k' ≠ k := by
        rintro rfl
        exact absurd hp (by simp [h])
      simpa [mapGet, hne] using ih
    · exact ih

theorem settle_powerLost (rail : Rail) (b : Block) : settle (powerLost rail b) = powerLost rail b :=
  settle_of_off rfl rfl domPwr_reset

theorem poweredOff_powerLost (rail : Rail) (b : Block) : poweredOff rail (powerLost rail b) := by
  refine ⟨rfl, rfl, rfl, rfl, rfl, rfl, rfl, fun w hw => ?_, rfl, rfl, rfl, fun pa hpa => ?_⟩
  · simpa using (List.mem_filter.mp hw).2
  · exact mapGet_filter_of_dropped 0 b.mem fun v => by simpa using hpa

theorem exists_poweredOff_after {f : Block → Block} {s : State} {rail : Rail} {b : Block} (hf : f s.blk = powerLost rail b) :
    ∃ t : State, s.run f = .next t ∧ poweredOff rail t.blk ∧ t.blk.pwr.pwrEn = b.pwr.pwrEn ∧ t.pending = s.pending := by
  refine ⟨s.after (powerLost rail b), by rw [run_eq, hf], ?_⟩
  rw [after_blk, settle_powerLost]
  exact ⟨poweredOff_powerLost rail b, rfl, rfl⟩

theorem shutdown_of_powered {b : Block} (h : b.pwr.rail = .charging ∨ b.pwr.rail = .up) :
    shutdown b = powerLost .latchedOff (fenceAll b) := by
  rcases h with h | h <;> simp only [shutdown, h]

theorem powerUpAndDown : Claims.PowerUpAndDown := by
  intro s v low
  refine ⟨fun hen hlow hlo hhi => ?_, fun hen hlow hv hout => ?_, fun hw hen hlo hhi => ?_, fun hup hlo hhi => ?_, fun hen => ?_⟩
  · exact runVin_of_eq (by omega) (powerUp_of_range hen hlow ((inRange_iff v).mpr ⟨hlo, hhi⟩))
  · have hnot : ¬ (38000 ≤ v ∧ v ≤ 42000) := by omega
    exact runVin_of_eq hv (powerUp_deferred hen hlow (Bool.eq_false_iff.mpr ((inRange_iff v).not.mpr hnot)))
  · exact runVin_of_eq (by omega) (inputEntersRange_of_deferred hw hen ((inRange_iff v).mpr ⟨hlo, hhi⟩))
  · exact runVin_of_eq (by omega) (inputEntersRange_of_up hup ((inRange_iff v).mpr ⟨hlo, hhi⟩))
  · obtain ⟨t, ht, hoff, hkeeps, hpending⟩ := exists_poweredOff_after (s := s) (if_pos hen)
    exact ⟨t, ht, hoff, by rw [hkeeps, fenceAll_pwr]; rfl, hpending⟩

/-! ### Shutdowns (02 R36–R38) -/

section Shutdowns

variable {s : State} (h : s.blk.pwr.rail = .charging ∨ s.blk.pwr.rail = .up)

include h

/-- A shutdown, from a block whose input has changed since the command came, latches. -/
theorem exists_latched_after {f : Block → Block} {g : Pwr → Pwr} (hf : f s.blk = shutdown (setPwr g s.blk))
    (hrail : (g s.blk.pwr).rail = s.blk.pwr.rail) (hen : (g s.blk.pwr).pwrEn = s.blk.pwr.pwrEn) :
    ∃ t : State, s.run f = .next t ∧ poweredOff .latchedOff t.blk ∧ t.blk.pwr.pwrEn = s.blk.pwr.pwrEn ∧ t.pending = s.pending := by
  have hpowered : shutdown (setPwr g s.blk) = powerLost .latchedOff (fenceAll (setPwr g s.blk)) :=
    shutdown_of_powered (by rwa [setPwr_pwr, hrail])
  obtain ⟨t, ht, hoff, hkeeps, hpending⟩ := exists_poweredOff_after (hf.trans hpowered)
  exact ⟨t, ht, hoff, by rw [hkeeps, fenceAll_pwr, setPwr_pwr, hen], hpending⟩

theorem exists_latched_of_shutdown {f : Block → Block} (hf : f s.blk = shutdown s.blk) :
    ∃ t : State, s.run f = .next t ∧ poweredOff .latchedOff t.blk ∧ t.blk.pwr.pwrEn = s.blk.pwr.pwrEn ∧ t.pending = s.pending :=
  exists_latched_after h (g := id) hf rfl rfl

end Shutdowns

theorem overVoltage_of_high {v : Nat} (hv : 46000 ≤ v) (b : Block) : overVoltage v b = shutdown b := if_pos hv

theorem dipExpiry_of_dip {b : Block} (hd : b.pwr.dip = true) : dipExpiry b = shutdown b := if_pos hd

section DipEnd

variable {us : Nat} {b : Block} (hd : b.pwr.dip = true)

include hd

theorem dipEnd_of_late (h : 5000 < b.pwr.dipUs + us) :
    dipEnd us b = shutdown (setPwr (fun x => { x with dip := false, dipUs := x.dipUs + us }) b) := by
  simp [dipEnd, hd, h]

theorem dipEnd_of_short (h : b.pwr.dipUs + us ≤ 5000) :
    dipEnd us b = setPwr (fun x => { x with dip := false, dipUs := x.dipUs + us }) b := by
  simp [dipEnd, hd, Nat.not_lt.mpr h]

end DipEnd

theorem shutdownsLatch : Claims.ShutdownsLatch := by
  intro s h
  refine ⟨fun v hlo hhi => ?_, ?_, ?_, fun hd => ?_, fun us hd hlate => ?_⟩
  · obtain ⟨t, ht, hlatched⟩ := exists_latched_of_shutdown h (overVoltage_of_high hlo s.blk)
    exact ⟨t, (runVin_ok _ s hhi).trans ht, hlatched⟩
  · exact exists_latched_of_shutdown h (f := underVoltage) rfl
  · exact exists_latched_of_shutdown h (f := currentTrip) rfl
  · exact exists_latched_of_shutdown h (dipExpiry_of_dip hd)
  · exact exists_latched_after h (dipEnd_of_late hd hlate) rfl rfl

/-! ### Dips and warnings (02 R35, R36) -/

section Dips

variable {v : Nat} {b : Block} (hup : b.pwr.rail = .up)

include hup

theorem inputOvWarn_of_entry (hlo : 42000 < v) (hhi : v < 46000) (hov : b.pwr.ovIn = false) :
    inputOvWarn v b = alert 1 (post 0x0100 2 v (setPwr (fun x => { x with ovIn := true }) (put fPW_INPUT_VIN_MV v b))) :=
  if_pos ⟨powered_of_up hup, hlo, hhi, hov⟩

theorem droopStart_of_entry (hlo : 36000 ≤ v) (hhi : v < 38000) (hd : b.pwr.dip = false) :
    droopStart v b = canaryAdd .droop 1
      (setPwr (fun x => { x with dip := true, droops := x.droops + 1 }) (put fPW_INPUT_VIN_MV v b)) :=
  if_pos ⟨powered_of_up hup, hlo, hhi, hd⟩

end Dips

theorem dipReset_of_no_dip {b : Block} (hd : b.pwr.dip = false) : dipReset b = setPwr (fun x => { x with dipUs := 0 }) b := by
  simp [dipReset, hd]

theorem dipsAndWarnings : Claims.DipsAndWarnings := by
  intro s v us hup
  refine ⟨fun hlo hhi hov => ?_, fun hlo hhi hd => ?_, fun hd hshort => ?_, fun hd => ?_⟩
  · exact runVin_of_eq (by omega) (inputOvWarn_of_entry hup hlo hhi hov)
  · exact runVin_of_eq (by omega) (droopStart_of_entry hup hlo hhi hd)
  · exact run_of_eq (dipEnd_of_short hd hshort)
  · exact run_of_eq (dipReset_of_no_dip hd)

/-- Settles O8: a loss of power leaves a block in which nothing waits and the control path is off, so that nothing follows from it. -/
theorem powerInput : Obligations.PowerInput := ⟨powerUpAndDown, shutdownsLatch, dipsAndWarnings⟩

end Sys2Proof.Machine
end

section
/-!
PROOFS. The module reset that management commands (02 R46, 17 R491): its write comes over I3C, which does not answer while the TAP has
taken the pins, and the refutation of `ModuleResetAndClock` from it.
-/

namespace Sys2Proof.Machine

/-! ### What follows from a command leaves the pins' state -/

theorem showField_pwr (f : Fld) (v : Nat) (b : Block) : (showField f v b).pwr = b.pwr := by
  rw [showField]
  split <;> rfl

theorem redSample_pwr (b : Block) : (redSample b).pwr = b.pwr := by
  simp only [redSample]
  refine (foldl_keeps (·.pwr) _ (fun b s => ?_) _ _).trans ?_
  · split <;> rfl
  · split
    · split <;> rfl
    · split <;> rfl

theorem samples_pwr (b : Block) : (samples b).pwr = b.pwr := by
  have hcause (b : Block) : (showCause b).pwr = b.pwr := by
    simp only [showCause, apply_ite Block.pwr, showField_pwr, ite_self]
  have hcool (b : Block) : (coolSettle b).pwr = b.pwr := rfl
  rw [samples]
  split
  · simp only [showFdn, hcause, showHeld, showPace, showActivity, showField_pwr, hcool, redSample_pwr]
  · rfl

theorem settle_pwr_of_quiet {b : Block} (hq : b.quiet = true) (hstep : b.fw.stepping = none) : (settle b).pwr = b.pwr := by
  rw [settle, outcomes_of_quiet hq hstep, samples_pwr]

/-! ### A write at a port that does not answer -/

theorem regWriteAt_of_dead {port : Port} {b : Block} (h : portLive port b = false) (off size : Nat) (v : W32) :
    regWriteAt port off size v b = b := by
  simp [regWriteAt, h]

/-- A module in its cold boot, its control path ON, whose pins EXTEST has taken (18 R511). -/
def pinsTaken : State where
  blk := { Block.reset with
    pwr := { Pwr.reset with rail := .up, pwrEn := true, pwrGood := true }
    dbg := { Dbg.reset with ir := 0x03 }
    regs := [(rPW_DOM 4, 0x08000000)] }
  pending := []

theorem exec_moduleRow_pinsTaken : exec .moduleRow pinsTaken = .next (pinsTaken.after pinsTaken.blk) := by
  have hdead : portLive .i3c pinsTaken.blk = false := by decide
  exact run_of_eq (regWriteAt_of_dead hdead rPW_RESET 4 (BitVec.ofNat 32 0xA501))

/-- Refutes O9: `ModuleReset` asks of PW_RESET that the control path is ON, and not that I3C answers. With the pins taken by EXTEST the write
does not arrive, and a module in its cold boot stays in it, where a module reset leaves none. -/
theorem not_moduleResetAndClock : ¬ Obligations.ModuleResetAndClock := by
  rintro ⟨hreset, -⟩
  obtain ⟨-, -, -, hmodule⟩ := hreset pinsTaken
  obtain ⟨t, ht, hwas, -⟩ := hmodule (by decide)
  obtain ⟨-, -, -, -, -, -, -, -, -, -, -, -, hcold, -⟩ := hwas
  rw [exec_moduleRow_pinsTaken] at ht
  obtain rfl := Host.Outcome.next.inj ht
  rw [after_blk, settle_pwr_of_quiet rfl rfl] at hcold
  exact absurd hcold (by decide)

end Sys2Proof.Machine
end

section
/-!
PROOFS. The cooling straps (02 R52–R57): the fields of PW_COOL that follow STRAP, LIVE and CONFIRM, and the obligation `Cooling`.
-/

namespace Sys2Proof.Machine

/-! ### PW_COOL's derived fields (02 R55) -/

theorem field_setBit_self (w : W32) {n : Nat} (hn : n < 32) (x : Bool) : field (setBit w n x) n n = b2n x := by
  rw [setBit, field_setField_self w n n _ hn, Nat.add_sub_cancel_left]
  cases x <;> rfl

theorem field_setBit_ne (w : W32) {n msb lsb : Nat} (hm : msb < 32) (h : n < lsb ∨ msb < n) (x : Bool) :
    field (setBit w n x) msb lsb = field w msb lsb :=
  field_setField_ne w _ hm h

section Derived

variable (w : W32)

theorem coolDerived_mismatch : field (coolDerived w) 12 12 = b2n (decide (field w 3 2 ≠ field w 1 0)) := by
  rw [coolDerived, field_setBit_self _ (by decide)]

theorem coolDerived_confirmed : field (coolDerived w) 8 8 =
    b2n (decide (field w 5 4 = field w 1 0 ∧ field w 1 0 ≠ 3 ∧ field w 3 2 = field w 1 0)) := by
  rw [coolDerived, field_setBit_ne _ (by decide) (by decide), field_setField_ne _ _ (by decide) (by decide),
    field_setBit_self _ (by decide)]

theorem coolDerived_active_of_mismatch (h : field w 3 2 ≠ field w 1 0) : field (coolDerived w) 11 10 = 0 := by
  rw [coolDerived, field_setBit_ne _ (by decide) (by decide), field_setField_self _ _ _ _ (by decide)]
  simp [h]

end Derived

section Settle

variable (b : Block)

theorem get_coolSettle {f : Fld} (ho : f.off = rPW_COOL) : get (coolSettle b) f = field (coolDerived (rd b rPW_COOL)) f.msb f.lsb := by
  rw [get, ho, coolSettle, rd_wr_self]

theorem mismatch_coolSettle :
    isSet (coolSettle b) fPW_COOL_MISMATCH = decide (get b fPW_COOL_LIVE ≠ get b fPW_COOL_STRAP) := by
  rw [isSet, get_coolSettle b rfl]
  refine (congrArg (· != 0) (coolDerived_mismatch _)).trans ?_
  rw [show field (rd b rPW_COOL) 3 2 = get b fPW_COOL_LIVE from rfl, show field (rd b rPW_COOL) 1 0 = get b fPW_COOL_STRAP from rfl]
  cases decide (get b fPW_COOL_LIVE ≠ get b fPW_COOL_STRAP) <;> rfl

variable {b} (h : get b fPW_COOL_LIVE ≠ get b fPW_COOL_STRAP)

include h

theorem active_coolSettle_of_mismatch : get (coolSettle b) fPW_COOL_ACTIVE = 0 := by
  rw [get_coolSettle b rfl]
  exact coolDerived_active_of_mismatch _ h

theorem confirmed_coolSettle_of_mismatch : isSet (coolSettle b) fPW_COOL_CONFIRMED = false := by
  rw [isSet, get_coolSettle b rfl]
  refine (congrArg (· != 0) (coolDerived_confirmed _)).trans ?_
  rw [decide_eq_false fun hc => h hc.2.2]
  rfl

end Settle

/-! ### Samples of the straps (02 R55) -/

/-- The block after a sample of the live straps. -/
def coolSampled (live : Nat) (b : Block) : Block :=
  coolSettle (put fPW_COOL_LIVE live (setPwr (fun x => { x with coolPins := live }) b))

section Sample

variable {live : Nat} {b : Block} (hlive : live < 4)

include hlive

theorem live_put_live : get (put fPW_COOL_LIVE live (setPwr (fun x => { x with coolPins := live }) b)) fPW_COOL_LIVE = live := by
  rw [get_put_self _ _ _ (by decide)]
  exact Nat.mod_eq_of_lt hlive

omit hlive in
theorem strap_put_live : get (put fPW_COOL_LIVE live (setPwr (fun x => { x with coolPins := live }) b)) fPW_COOL_STRAP =
    get b fPW_COOL_STRAP :=
  get_put_ne _ _ (by decide) (by decide)

theorem mismatch_coolSampled : isSet (coolSampled live b) fPW_COOL_MISMATCH = decide (live ≠ get b fPW_COOL_STRAP) := by
  rw [coolSampled, mismatch_coolSettle, live_put_live hlive, strap_put_live]

theorem forced_air_coolSampled (h : live ≠ get b fPW_COOL_STRAP) :
    get (coolSampled live b) fPW_COOL_ACTIVE = 0 ∧ isSet (coolSampled live b) fPW_COOL_CONFIRMED = false := by
  have hne : get (put fPW_COOL_LIVE live (setPwr (fun x => { x with coolPins := live }) b)) fPW_COOL_LIVE ≠
      get (put fPW_COOL_LIVE live (setPwr (fun x => { x with coolPins := live }) b)) fPW_COOL_STRAP := by
    rwa [live_put_live hlive, strap_put_live]
  exact ⟨active_coolSettle_of_mismatch hne, confirmed_coolSettle_of_mismatch hne⟩

theorem strapChanged_eq (hl : latched b = true) : strapChanged live b =
    if isSet (coolSampled live b) fPW_COOL_MISMATCH && !isSet b fPW_COOL_MISMATCH then
      alert 8 (post 0x0104 2 (coolData (coolSampled live b)) (coolSampled live b))
    else coolSampled live b := by
  have hl' : latched (setPwr (fun x => { x with coolPins := live }) b) = true := hl
  simp only [strapChanged, Nat.mod_eq_of_lt hlive, hl', Bool.not_true, Bool.false_eq_true, if_false]
  rfl

theorem strapChanged_of_unlatched (hl : latched b = false) : strapChanged live b = setPwr (fun x => { x with coolPins := live }) b := by
  have hl' : latched (setPwr (fun x => { x with coolPins := live }) b) = false := hl
  simp only [strapChanged, Nat.mod_eq_of_lt hlive, hl', Bool.not_false, if_true]

theorem strapChanged_of_first_mismatch (hl : latched b = true) (hwas : isSet b fPW_COOL_MISMATCH = false)
    (hne : live ≠ get b fPW_COOL_STRAP) :
    strapChanged live b = alert 8 (post 0x0104 2 (coolData (coolSampled live b)) (coolSampled live b)) := by
  rw [strapChanged_eq hlive hl, mismatch_coolSampled hlive, hwas, decide_eq_true hne]
  rfl

theorem strapChanged_of_lasting (hl : latched b = true)
    (h : isSet b fPW_COOL_MISMATCH = true ∨ live = get b fPW_COOL_STRAP) : strapChanged live b = coolSampled live b := by
  rw [strapChanged_eq hlive hl, mismatch_coolSampled hlive, if_neg]
  rcases h with h | h <;> simp [h]

end Sample

/-- Settles O10: the fields of PW_COOL after a sample, and the branches of the two rows. -/
theorem cooling : Obligations.Cooling := by
  intro s live
  refine ⟨fun hl => ⟨mismatch_coolSampled live.isLt, forced_air_coolSampled live.isLt, fun hwas hne => ?_, fun h => ?_, ?_⟩, fun hl => ?_⟩
  · exact run_of_eq (strapChanged_of_first_mismatch live.isLt hl hwas hne)
  · exact run_of_eq (strapChanged_of_lasting live.isLt hl h)
  · exact run_of_eq (if_pos hl)
  · exact run_of_eq (strapChanged_of_unlatched live.isLt hl)

end Sys2Proof.Machine
end

section
/-!
PROOFS. Management's writes of the power page (02 R54–R57, 17 R479, R487) through the checks to their effect, the effective envelope, and
the obligations `PowerPageWrites` and `EffectiveEnvelope`.
-/

namespace Sys2Proof.Machine

/-! ### Writes of the power page that act -/

theorem pageOf_pw : pageOf 2 = some (.pw, 0) := rfl

@[simp] theorem pwrRuns_granted (port : Port) (p : Nat) (b : Block) : pwrRuns (granted port p b) = pwrRuns b := by
  simp [pwrRuns]

@[simp] theorem domOn_granted (port : Port) (p : Nat) (b : Block) (d : Nat) : domOn (granted port p b) d = domOn b d := by
  simp [domOn, dom]

theorem forPwr_of_runs {b : Block} (h : pwrRuns b = true) (off : Nat) (v : W32) (f : Block → Block) : forPwr off v f b = f b := if_pos h

theorem applyWo_pw {off : Nat} (hp : off / 4096 = 2) (ho : off % 4096 ≠ 0x068) (port : Port) (v : W32) (b : Block) :
    applyWo port off v b = b := by
  simp [applyWo, hp, pageOf_pw, ho]

/-- A register of the page that has neither W1C bits nor WO fields: the write is that of its RW fields. -/
theorem regWriteAt_pw {off : Nat} (hp : off / 4096 = 2) (ho : off % 4096 ≠ 0x068 ∧ off % 4096 ≠ 0x018 ∧ off ≠ rPW_ALERT) {port : Port}
    {v : W32} {b : Block} (h : actsNow b port off v = true) : regWriteAt port off 4 v b = applyRw off v (granted port 2 b) := by
  rw [regWriteAt_acts port off v b h, applyWo_pw hp ho.1, applyW1c, if_neg ho.2.1, if_neg ho.2.2, hp]

/-- PW_ALERT has W1C bits alone: what its RW fields take is written over. -/
theorem regWriteAt_pwAlert {port : Port} {v : W32} {b : Block} (h : actsNow b port rPW_ALERT v = true) :
    regWriteAt port rPW_ALERT 4 v b = applyAlertClear v (storeRw rPW_ALERT v (granted port 2 b)) := by
  rw [regWriteAt_acts port _ v b h, applyWo_pw (by decide) (by decide)]
  rfl

section Runs

variable {b : Block} (hr : pwrRuns b = true) (v : W32)

include hr

theorem applyRw_pwCool : applyRw rPW_COOL v b = applyConfirm v b := forPwr_of_runs hr _ _ _

theorem applyRw_pwLimit : applyRw rPW_LIMIT v b = storeRw rPW_LIMIT v b := forPwr_of_runs hr _ _ _

theorem applyRw_pwLattol : applyRw rPW_LATTOL v b = applyTol v b := forPwr_of_runs hr _ _ _

end Runs

theorem applyRw_pwFdCtl (v : W32) (b : Block) : applyRw rPW_FD_CTL v b = applyForce v b := by
  simp [applyRw, show rPW_FD_CTL / 4096 = 2 from rfl, show rPW_FD_CTL % 4096 = 0x060 from rfl, pageOf_pw]

/-! ### What each of them does -/

/-- PW_COOL after a CONFIRM. -/
def confirmed (code : Nat) (b : Block) : Block := coolSettle (put fPW_COOL_CONFIRM code b)

theorem applyConfirm_of_strap {v : W32} {b : Block} (h : field v 5 4 = get (confirmed (field v 5 4) b) fPW_COOL_STRAP) :
    applyConfirm v b = setPwr (fun x => { x with unconfirmed := false }) (confirmed (field v 5 4) b) := if_pos h

theorem applyConfirm_of_other {v : W32} {b : Block} (h : field v 5 4 ≠ get (confirmed (field v 5 4) b) fPW_COOL_STRAP) :
    applyConfirm v b = alert 4 (post 0x0103 2 (coolData (confirmed (field v 5 4) b))
      (setPwr (fun x => { x with unconfirmed := true }) (confirmed (field v 5 4) b))) := if_neg h

/-- A bit that a write clears is clear before its condition is looked at. -/
theorem applyAlertClear_storeRw (v : W32) (port : Port) (b : Block) :
    applyAlertClear v (storeRw rPW_ALERT v (granted port 2 b)) =
      alert (alertConditions (wr (granted port 2 b) rPW_ALERT (rd b rPW_ALERT &&& ~~~ v)) &&& v.toNat)
        (wr (granted port 2 b) rPW_ALERT (rd b rPW_ALERT &&& ~~~ v)) := by
  have hro : rwBits rPW_ALERT = 0#32 := by decide
  have hstored : rd (storeRw rPW_ALERT v (granted port 2 b)) rPW_ALERT = rd b rPW_ALERT := by
    rw [storeRw, rd_wr_self, hro, mergeBits]
    simp only [BitVec.and_zero, BitVec.or_zero, BitVec.not_zero, BitVec.and_allOnes, rd_granted]
  rw [applyAlertClear, hstored, storeRw, wr_wr]

theorem applyTol_eq (v : W32) (b : Block) : applyTol v b =
    if field v 23 0 < exitUs (activity b) then wake (put fPW_LATTOL_TOL_US (field v 23 0) b)
    else put fPW_LATTOL_TOL_US (field v 23 0) b := by
  have htol : get (put fPW_LATTOL_TOL_US (field v 23 0) b) fPW_LATTOL_TOL_US = field v 23 0 := by
    rw [get_put_self _ _ _ (by decide)]
    exact Nat.mod_mod _ _
  have hact : activity (put fPW_LATTOL_TOL_US (field v 23 0) b) = activity b := get_put_ne _ _ (by decide) (by decide)
  rw [applyTol, htol, hact]

/-- Settles O11: a register of the page at a time, from the write that acts to the operation on its fields. -/
theorem powerPageWrites : Obligations.PowerPageWrites := by
  intro s port v
  refine ⟨fun h hr => ⟨fun hc => ?_, fun hc => ?_⟩, fun h hr => ?_, fun h => ?_, fun h hr => ?_, fun h => ?_⟩
  · refine run_of_eq ?_
    rw [regWriteAt_pw (by decide) (by decide) h, applyRw_pwCool (by simpa using hr), applyConfirm_of_strap hc]
    rfl
  · refine run_of_eq ?_
    rw [regWriteAt_pw (by decide) (by decide) h, applyRw_pwCool (by simpa using hr), applyConfirm_of_other hc]
    rfl
  · refine run_of_eq ?_
    rw [regWriteAt_pw (by decide) (by decide) h, applyRw_pwLimit (by simpa using hr)]
  · refine run_of_eq ?_
    rw [regWriteAt_pwAlert h, applyAlertClear_storeRw]
  · refine run_of_eq ?_
    rw [regWriteAt_pw (by decide) (by decide) h, applyRw_pwLattol (by simpa using hr), applyTol_eq, activity, get_granted]
    rfl
  · refine run_of_eq ?_
    rw [regWriteAt_pw (by decide) (by decide) h, applyRw_pwFdCtl]
    rfl

/-! ### The effective envelope (02 R56) -/

/-- A field whose bits are those of the mask reads as it was written. -/
theorem field_mergeBits_self (old v : W32) {msb lsb : Nat} (hm : msb < 32) :
    field (mergeBits old v (fieldMask msb lsb)) msb lsb = field v msb lsb := by
  apply Nat.eq_of_testBit_eq
  intro i
  simp only [field_testBit, mergeBits, BitVec.getLsbD_or, BitVec.getLsbD_and, BitVec.getLsbD_not, fieldMask_getLsbD]
  by_cases hi : i < msb + 1 - lsb
  · have h32 : lsb + i < 32 := by omega
    have hin : lsb + i < msb + 1 := by omega
    simp [h32, hin]
  · simp [hi]

theorem limit_storeRw (v : W32) (b : Block) : get (storeRw rPW_LIMIT v b) fPW_LIMIT_LIMIT_W = field v 11 0 := by
  have hrw : rwBits rPW_LIMIT = fieldMask 11 0 := by decide
  rw [get, show fPW_LIMIT_LIMIT_W.off = rPW_LIMIT from rfl, storeRw, rd_wr_self, hrw]
  exact field_mergeBits_self _ v (by decide)

theorem active_storeRw_limit (v : W32) (b : Block) : get (storeRw rPW_LIMIT v b) fPW_COOL_ACTIVE = get b fPW_COOL_ACTIVE :=
  get_wr_ne b _ (by decide)

theorem rPW_LIMIT_div : rPW_LIMIT / 4096 = 2 := rfl

theorem rPW_LIMIT_mod : rPW_LIMIT % 4096 = 0x044 := rfl

theorem regInfo_pwLimit : regInfo .pw 0x044 = some ⟨0xfff, 0xfff, 0, 0⟩ := rfl

/-- The page's domain is the control path's, and a grant leaves it ON. -/
theorem domOn_pwGranted (port : Port) {b : Block} (hon : domOn b domPwr = true) : domOn (granted port 2 b) (pageDomain .pw 0) = true := by
  rw [show pageDomain .pw 0 = domPwr from rfl, domOn_granted, hon]

section Limit

variable {b : Block} {port : Port} {v : W32} (ha : authority b port .pw 0x044 = .rw) (hon : domOn b domPwr = true)
  (hl : portLive port b = true)

include ha hon hl

/-- A LIMIT_W below 600 W is a reserved encoding (00 R9). -/
theorem regWriteAt_pwLimit_of_low (hv : field v 11 0 < 600) :
    regWriteAt port rPW_LIMIT 4 v b = discard 2 0x044 1 (granted port 2 b) := by
  have hjudge : judgeWrite (granted port 2 b) port 2 .pw 0 0x044 v = .discarded 1 :=
    judgeWrite_of_reserved regInfo_pwLimit (by simp) (by rw [authority_granted, ha]) (domOn_pwGranted port hon) (by simp [reservedWrite, hv]) 2
  rw [regWriteAt_judged hl (by rw [rPW_LIMIT_div, pageOf_pw]) (by decide), rPW_LIMIT_div, rPW_LIMIT_mod, hjudge, performWrite,
    rPW_LIMIT_mod]

/-- Any other acts, where no transaction of the page is under way. -/
theorem actsNow_pwLimit (hv : 600 ≤ field v 11 0) (ht : txnState b 2 = 0) : actsNow b port rPW_LIMIT v = true := by
  have hjudge : judgeWrite (granted port 2 b) port 2 .pw 0 0x044 v = .now := by
    rw [judgeWrite_eq_judgeState regInfo_pwLimit (by simp) (by rw [authority_granted, ha]) (domOn_pwGranted port hon) (by simp [reservedWrite, hv])
      (by decide) (by decide) (by decide)]
    exact judgeState_of_idle (by rw [txnState_granted, ht]) rfl (by simp [waitsForSafePoint, enginePage])
  simp [actsNow, hl, rPW_LIMIT_div, pageOf_pw, rPW_LIMIT_mod, hjudge, show rPW_LIMIT % 4 = 0 from rfl]

end Limit

theorem exec_limitW (port : Port) (v : W32) (s : State) :
    exec (.limitW port v) s = .next (s.after (regWriteAt port rPW_LIMIT 4 v s.blk)) := rfl

/-- Settles O59: a LIMIT_W below 600 W fails the check for reserved encodings, and any other is kept by the register that `envelope` reads. -/
theorem effectiveEnvelope : Obligations.EffectiveEnvelope := by
  intro s port v
  refine ⟨rfl, rfl, rfl, rfl, rfl, fun ha hon hl => ⟨fun hv => ?_, fun hv ht hr => ?_⟩⟩
  · rw [exec_limitW, regWriteAt_pwLimit_of_low ha hon hl hv]
  · refine ⟨storeRw rPW_LIMIT v (granted port 2 s.blk), ?_, limit_storeRw v _, ?_⟩
    · rw [exec_limitW, regWriteAt_pw (by decide) (by decide) (actsNow_pwLimit ha hon hl hv ht), applyRw_pwLimit (by simpa using hr)]
    · rw [envelope, limit_storeRw, active_storeRw_limit, get_granted]

end Sys2Proof.Machine
end

section
/-!
PROOFS. Power samples (02 R58) and the governor's choice of a pacing level (17 R484): envelope excursions, the level chosen among those under
the cap, the registers that show the samples, and the obligation `EnvelopeAndPacing`.
-/

namespace Sys2Proof.Machine

/-! ### Excursions (02 R58) -/

/-- PEAK_W after a sample. -/
def peakShown (w : Nat) (b : Block) : Block := put fPW_POWER_PEAK_W (max (get b fPW_POWER_PEAK_W) (min w 4095)) b

section Excursions

variable {w : Nat} {b : Block} (hup : b.pwr.rail = .up)

include hup

theorem excursionHeight_of_above (h : 12 * envelope b < 10 * w) : excursionHeight w b =
    if b.fd.heightCause then fdRise (setFd (fun x => { x with heightCause := true, powerW := w }) (peakShown w b))
    else excursion w 0 (fdRise (setFd (fun x => { x with heightCause := true, powerW := w }) (peakShown w b))) :=
  if_pos ⟨powered_of_up hup, h⟩

theorem excursionLength_of_above (h : envelope b < w) : excursionLength w b =
    if b.fd.lengthCause then fdRise (setFd (fun x => { x with lengthCause := true, powerW := w }) (peakShown w b))
    else excursion w 1 (fdRise (setFd (fun x => { x with lengthCause := true, powerW := w }) (peakShown w b))) :=
  if_pos ⟨powered_of_up hup, h⟩

end Excursions

theorem excursionHeight_of_within {w : Nat} {b : Block} (h : w ≤ envelope b) : excursionHeight w b = b :=
  if_neg fun ⟨_, habove⟩ => by omega

theorem excursionLength_of_within {w : Nat} {b : Block} (h : w ≤ envelope b) : excursionLength w b = b :=
  if_neg fun ⟨_, habove⟩ => by omega

/-! ### The governor's level (17 R484) -/

/-- The last number below `n` that a test names, plus one; 1 where it names none. -/
theorem foldl_last_named (test : Nat → Bool) (n : Nat) :
    let l := (List.range n).foldl (fun l i => if test i = true then i + 1 else l) 1
    1 ≤ l ∧ (l = 1 ∨ (l ≤ n ∧ test (l - 1) = true)) ∧ ∀ i, l ≤ i → i < n → test i = false := by
  induction n with
  | zero => simp
  | succ n ih =>
    rw [List.range_succ, List.foldl_append, List.foldl_cons, List.foldl_nil]
    obtain ⟨hpos, hlast, hrest⟩ := ih
    by_cases hn : test n = true
    · simp only [hn, if_true]
      exact ⟨by omega, .inr ⟨by omega, by simpa using hn⟩, fun i hle hlt => by omega⟩
    · simp only [hn, Bool.false_eq_true, if_false]
      refine ⟨hpos, hlast.imp_right fun ⟨hle, ht⟩ => ⟨by omega, ht⟩, fun i hle hlt => ?_⟩
      rcases Nat.lt_succ_iff_lt_or_eq.mp hlt with h | rfl
      · exact hrest i hle h
      · simpa using hn

/-- The pacing level is the largest under the cap that the envelope's margin allows, or 1. -/
theorem governorLevel_spec (e : Nat) {cap : Nat} (hpos : 1 ≤ cap) (hcap : cap ≤ 64) (predicted : List Nat) :
    1 ≤ governorLevel e cap predicted ∧ governorLevel e cap predicted ≤ cap ∧
    (governorLevel e cap predicted = 1 ∨ 100 * predicted.getD (governorLevel e cap predicted - 1) 0 ≤ 98 * e) ∧
    ∀ k, governorLevel e cap predicted < k → k ≤ cap → 98 * e < 100 * predicted.getD (k - 1) 0 := by
  have h := foldl_last_named (fun i => decide (100 * predicted.getD i 0 ≤ 98 * e)) (min 64 cap)
  simp only [decide_eq_true_eq, decide_eq_false_iff_not, Nat.min_eq_right hcap] at h
  have hl : governorLevel e cap predicted = (List.range cap).foldl
      (fun l i => if 100 * predicted.getD i 0 ≤ 98 * e then i + 1 else l) 1 := by
    rw [governorLevel, Nat.min_eq_right hcap]
  rw [← hl] at h
  obtain ⟨h1, hlast, hrest⟩ := h
  refine ⟨h1, ?_, hlast.imp_right (·.2), fun k hk hkc => ?_⟩
  · rcases hlast with h | h <;> omega
  · exact Nat.not_le.mp (hrest (k - 1) (by omega) (by omega))

theorem fdCap_bounds (l : Nat) : 1 ≤ fdCap l ∧ fdCap l ≤ 64 := by
  rcases l with _ | _ | l <;> simp [fdCap]

/-! ### Pacing updates (17 R484) -/

/-- The registers that show the samples of an update. -/
def samplesShown (vin iin avg w : Nat) (b : Block) : Block :=
  let b := put fPW_INPUT_IIN_10MA (min iin 65535) (put fPW_INPUT_VIN_MV vin b)
  put fPW_POWER_PEAK_W (max (get b fPW_POWER_PEAK_W) (min w 4095)) (put fPW_POWER_AVG_W (min avg 4095) b)

section Samples

variable (vin iin avg w : Nat) (b : Block)

/-- The samples stand in PW_INPUT and PW_POWER. -/
theorem get_samplesShown_ne {f : Fld} (ho : f.off ≠ rPW_INPUT ∧ f.off ≠ rPW_POWER) :
    get (samplesShown vin iin avg w b) f = get b f := by
  have hput (g : Fld) (v : Nat) (b : Block) (hg : g.off = rPW_INPUT ∨ g.off = rPW_POWER) : get (put g v b) f = get b f :=
    get_put_off_ne b v (by rcases hg with hg | hg <;> rw [hg] <;> tauto)
  rw [samplesShown, hput _ _ _ (.inr rfl), hput _ _ _ (.inr rfl), hput _ _ _ (.inl rfl), hput _ _ _ (.inl rfl)]

theorem vin_samplesShown : get (samplesShown vin iin avg w b) fPW_INPUT_VIN_MV = vin % 65536 := by
  rw [samplesShown, get_put_ne _ _ (by decide) (by decide), get_put_ne _ _ (by decide) (by decide),
    get_put_ne _ _ (by decide) (by decide), get_put_self _ _ _ (by decide)]
  rfl

theorem iin_samplesShown : get (samplesShown vin iin avg w b) fPW_INPUT_IIN_10MA = min iin 65535 := by
  rw [samplesShown, get_put_ne _ _ (by decide) (by decide), get_put_ne _ _ (by decide) (by decide),
    get_put_self _ _ _ (by decide)]
  exact Nat.mod_eq_of_lt (show min iin 65535 < 65536 by omega)

theorem avg_samplesShown : get (samplesShown vin iin avg w b) fPW_POWER_AVG_W = min avg 4095 := by
  rw [samplesShown, get_put_ne _ _ (by decide) (by decide), get_put_self _ _ _ (by decide)]
  exact Nat.mod_eq_of_lt (show min avg 4095 < 4096 by omega)

theorem peak_lt : get b fPW_POWER_PEAK_W < 4096 := Nat.mod_lt _ (by decide)

theorem peak_samplesShown : get (samplesShown vin iin avg w b) fPW_POWER_PEAK_W = max (get b fPW_POWER_PEAK_W) (min w 4095) := by
  have hpeak := peak_lt b
  rw [samplesShown, get_put_self _ _ _ (by decide), get_put_ne _ _ (by decide) (by decide), get_put_ne _ _ (by decide) (by decide),
    show fPW_POWER_PEAK_W.msb + 1 - fPW_POWER_PEAK_W.lsb = 12 from rfl, Nat.mod_eq_of_lt (by omega)]

theorem envelope_samplesShown : envelope (samplesShown vin iin avg w b) = envelope b := by
  rw [envelope, get_samplesShown_ne vin iin avg w b (by decide), get_samplesShown_ne vin iin avg w b (by decide), ← envelope]

theorem fdLevel_samplesShown : fdLevel (samplesShown vin iin avg w b) = fdLevel b :=
  get_samplesShown_ne vin iin avg w b (by decide)

theorem pwrRuns_samplesShown : pwrRuns (samplesShown vin iin avg w b) = pwrRuns b := by
  rw [pwrRuns, get_samplesShown_ne vin iin avg w b (by decide), ← pwrRuns]

end Samples

/-- The block that an update leaves while PWR runs. -/
def paced (predicted : List Nat) (vin iin avg w : Nat) (b : Block) : Block :=
  { setFd (fun f => { f with
      heightCause := f.heightCause && decide (12 * envelope b < 10 * w)
      lengthCause := f.lengthCause && decide (envelope b < w) }) (samplesShown vin iin avg w b) with
    paceNext := some (governorLevel (envelope b) (fdCap (fdLevel b)) predicted) }

theorem pacingUpdate_of_runs {b : Block} (hup : b.pwr.rail = .up) (hr : pwrRuns b = true) (predicted : List Nat) (vin iin avg w : Nat) :
    pacingUpdate predicted vin iin avg w b = paced predicted vin iin avg w b := by
  have hpow : powered b = true := powered_of_up hup
  rw [paced, ← envelope_samplesShown vin iin avg w b, ← fdLevel_samplesShown vin iin avg w b]
  rw [← pwrRuns_samplesShown vin iin avg w b] at hr
  simp only [pacingUpdate, hpow, Bool.not_true, Bool.false_eq_true, if_false]
  exact if_pos hr

/-- Settles O12: the branches of an excursion, and for an update the fields that its registers take and the level that the fold chooses. -/
theorem envelopeAndPacing : Obligations.EnvelopeAndPacing := by
  intro s w vin iin avg predicted hup
  refine ⟨fun h => run_of_eq (excursionHeight_of_above hup h), fun h => run_of_eq (excursionLength_of_above hup h),
    fun h => ⟨run_of_eq (excursionHeight_of_within h), run_of_eq (excursionLength_of_within h)⟩, fun hvin hr => ?_⟩
  refine ⟨paced predicted vin iin avg w s.blk, runVin_of_eq hvin (pacingUpdate_of_runs hup hr predicted vin iin avg w),
    vin_samplesShown vin iin avg w s.blk, iin_samplesShown vin iin avg w s.blk, avg_samplesShown vin iin avg w s.blk,
    peak_samplesShown vin iin avg w s.blk, rfl, rfl, ⟨_, rfl, ?_⟩, rfl, rfl⟩
  obtain ⟨hpos, hle⟩ := fdCap_bounds (fdLevel s.blk)
  exact governorLevel_spec (envelope s.blk) hpos hle predicted

end Sys2Proof.Machine
end

section
/-!
PROOFS. What becomes of a register write (03 R66–R76): one equation for each verdict, what a discard leaves, and the obligation
`RegisterWrites` assembled from them.
-/

namespace Sys2Proof.Machine

/-! ### Writes that are not judged -/

section Arrives

variable {port : Port} {b : Block} (hl : portLive port b = true)

include hl

theorem regWriteAt_of_unassigned {off : Nat} (hp : pageOf (off / 4096) = none) (size : Nat) (v : W32) :
    regWriteAt port off size v b = discard 0 (off % 4096) 3 b := by
  simp [regWriteAt, hl, regWriteOk, hp]

theorem regWriteAt_of_bad_size {off size : Nat} {k : PageKind} {n : Nat} (hp : pageOf (off / 4096) = some (k, n))
    (h : size ≠ 4 ∨ off % 4 ≠ 0) (v : W32) :
    regWriteAt port off size v b = discard (off / 4096) (off % 4096) 3 (granted port (off / 4096) b) := by
  simp [regWriteAt, hl, regWriteOk, hp, h]

end Arrives

/-! ### What is done with a judged write -/

section Perform

variable {port : Port} {p off : Nat} {v : W32} {b : Block}

/-- The block after a command of TXN_CTL or TX_CTL, or the cause of its discard. -/
def controlOutcome (port : Port) (p off : Nat) (v : W32) (b : Block) : Except Nat Block :=
  if off = rTX_CTL then txControl port v b else pageControl port p v b

theorem performWrite_control_ok {d : Block} (h : controlOutcome port p off v (rollbackMeets off p v b) = .ok d) :
    (performWrite port p off v .control b).1 = d := by
  rw [controlOutcome] at h
  simp only [performWrite, h]

theorem performWrite_control_error {e : Nat} (h : controlOutcome port p off v (rollbackMeets off p v b) = .error e) :
    (performWrite port p off v .control b).1 = discard p (off % 4096) e (rollbackMeets off p v b) := by
  rw [controlOutcome] at h
  simp only [performWrite, h]

/-- The block in which a one-register write waits or applies: RING of a page's BLK_CTL takes its value at once. -/
def singleBlock (p off : Nat) (v : W32) (b : Block) : Block :=
  if off % 4096 = 0x008 then put (fBLK_CTL_RING (pageBase p)) (field v 3 0) b else b

theorem performWrite_single_safe (h : safePoint (singleBlock p off v b) p = true) :
    (performWrite port p off v .single b).1 =
      applyWo port off v (applySingle (off, v, port) (flipFirst [p] (singleBlock p off v b))) := by
  rw [singleBlock] at h ⊢
  simp only [performWrite, h, if_true]

theorem performWrite_single_waits (h : safePoint (singleBlock p off v b) p = false) :
    (performWrite port p off v .single b).1 = applyWo port off v
      { singleBlock p off v b with txn := { (singleBlock p off v b).txn with singles := (singleBlock p off v b).txn.singles ++ [(off, v, port)] } } := by
  rw [singleBlock] at h ⊢
  simp only [performWrite, h, Bool.false_eq_true, if_false]

/-- The registers of the page that are staged beside this one. -/
def stagedBeside (p off : Nat) (b : Block) : List (Nat × W32) := (mapGet [] b.txn.staged p).filter (fun e => e.1 != off)

theorem performWrite_stages (h : (stagedBeside p off b).length < 64) :
    (performWrite port p off v .stages b).1 = applyWo port off v (applyW1c off v
      (put (fTXN_STAT_STAGED (pageBase p)) ((stagedBeside p off b).length + 1)
        { b with txn := { b.txn with staged := mapSet [] b.txn.staged p ((off, v) :: stagedBeside p off b) } })) := by
  rw [stagedBeside] at h ⊢
  simp only [performWrite, stageWrite, Nat.ne_of_lt h, if_false, if_true]

/-- A 65th register does not fit. -/
theorem performWrite_stages_full (h : (stagedBeside p off b).length = 64) :
    (performWrite port p off v .stages b).1 = rollback p 4 (discard p (off % 4096) 7 b) := by
  rw [stagedBeside] at h
  simp only [performWrite, stageWrite, h, if_true, Bool.false_eq_true, if_false]

end Perform

/-! ### What a discard leaves (03 R69) -/

section Discard

variable (p o c : Nat) (b : Block)

theorem rd_raise_ne (m : Nat) {x : Nat} (h : x ≠ rBLK_EVT_RAW (pageBase p)) : rd (raise p m b) x = rd b x := by
  have hraw (v : W32) : rd (wr b (rBLK_EVT_RAW (pageBase p)) v) x = rd b x := rd_wr_ne b v (Ne.symm h)
  simp only [raise]
  split
  · exact hraw _
  · exact hraw _

theorem rd_raise_self (m : Nat) : rd (raise p m b) (rBLK_EVT_RAW (pageBase p)) =
    BitVec.ofNat 32 ((rd b (rBLK_EVT_RAW (pageBase p))).toNat ||| m) := by
  have hraw := rd_wr_self b (rBLK_EVT_RAW (pageBase p)) (BitVec.ofNat 32 ((rd b (rBLK_EVT_RAW (pageBase p))).toNat ||| m))
  simp only [raise]
  split
  · exact hraw
  · exact hraw

theorem raise_mem (m : Nat) : (raise p m b).mem = b.mem := by
  simp only [raise]
  split <;> rfl

theorem raise_cmds (m : Nat) : (raise p m b).cmds = b.cmds := by
  simp only [raise]
  split <;> rfl

theorem rd_discard_ne {x : Nat} (hs : x ≠ rBLK_STAT (pageBase p)) (hr : x ≠ rBLK_EVT_RAW (pageBase p)) :
    rd (discard p o c b) x = rd b x := by
  rw [discard, rd_raise_ne p _ 1 hr, rd_put_ne _ _ (Ne.symm hs), rd_put_ne _ _ (Ne.symm hs)]

theorem get_raise_ne {f : Fld} (hf : f.off ≠ rBLK_EVT_RAW (pageBase p)) (m : Nat) : get (raise p m b) f = get b f := by
  rw [get, rd_raise_ne p b m hf, ← get]

theorem cause_discard (hc : c < 16) : get (discard p o c b) (fBLK_STAT_DISC_CAUSE (pageBase p)) = c := by
  rw [discard, get_raise_ne p _ (by simp [fBLK_STAT_DISC_CAUSE, rBLK_EVT_RAW]), get_put_self _ _ _ (by simp [fBLK_STAT_DISC_CAUSE])]
  exact Nat.mod_eq_of_lt hc

theorem offset_discard (ho : o < 4096) : get (discard p o c b) (fBLK_STAT_DISC_OFFSET (pageBase p)) = o := by
  rw [discard, get_raise_ne p _ (by simp [fBLK_STAT_DISC_OFFSET, rBLK_EVT_RAW]),
    get_put_ne _ _ (by simp [fBLK_STAT_DISC_OFFSET]) (by simp [fBLK_STAT_DISC_OFFSET, fBLK_STAT_DISC_CAUSE]),
    get_put_self _ _ _ (by simp [fBLK_STAT_DISC_OFFSET])]
  exact Nat.mod_eq_of_lt ho

theorem raised_discard : bit (rd (discard p o c b) (rBLK_EVT_RAW (pageBase p))) 0 = true := by
  simp [discard, rd_raise_self, bit]

end Discard

/-! ### The obligation -/

theorem exec_registerWrite (port : Port) (off size : Nat) (v : W32) (s : State) :
    exec (.registerWrite port off size v) s = .next (s.after (regWriteAt port off size v s.blk)) := rfl

/-- Settles O15: the write is judged on the block that the page's arbiter has granted, and the verdict names what is done with it. -/
theorem registerWrites : Obligations.RegisterWrites := by
  refine ⟨fun s port off size v hp hl => ?_, fun s port off size v hl => ?_, fun s port off size v k n hp hl => ?_⟩
  · rw [exec_registerWrite, regWriteAt_of_unassigned hl hp]
  · rw [exec_registerWrite, regWriteAt_of_dead hl]
  · have hjudged {j : Verdict} (ha : off % 4 = 0)
        (hj : judgeWrite (granted port (off / 4096) s.blk) port (off / 4096) k n (off % 4096) v = j) :
        exec (.registerWrite port off 4 v) s =
          .next (s.after (performWrite port (off / 4096) off v j (granted port (off / 4096) s.blk)).1) := by
      rw [exec_registerWrite, regWriteAt_judged hl hp ha, hj]
    refine ⟨fun h => ?_, fun c ha hj => ?_, fun c ha hj => ?_, fun ha hj => ⟨fun d hd => ?_, fun e he => ?_⟩,
      fun ha hj => ?_, fun ha hj => ⟨fun hsafe => ?_, fun hwaits => ?_⟩, fun ha hj => ⟨fun hfits => ?_, fun hfull => ?_⟩,
      fun ha hj => ?_, fun h => ?_, fun c hc => ?_⟩
    · rw [exec_registerWrite, regWriteAt_acts port off v s.blk h]
    · rw [hjudged ha hj, performWrite]
    · rw [hjudged ha hj, performWrite]
    · rw [hjudged ha hj, performWrite_control_ok hd]
    · rw [hjudged ha hj, performWrite_control_error he]
    · rw [hjudged ha hj, performWrite]
    · rw [hjudged ha hj, performWrite_single_safe hsafe]
      rfl
    · rw [hjudged ha hj, performWrite_single_waits hwaits]
      rfl
    · rw [hjudged ha hj, performWrite_stages hfits]
      rfl
    · rw [hjudged ha hj, performWrite_stages_full hfull]
    · rw [hjudged ha hj, performWrite]
    · rw [exec_registerWrite, regWriteAt_of_bad_size hl hp h]
    · exact ⟨cause_discard _ _ _ _ hc, offset_discard _ _ _ _ (Nat.mod_lt _ (by decide)), raised_discard _ _ _ _,
        raise_mem _ _ _, raise_cmds _ _ _, fun x hs hr => rd_discard_ne _ _ _ _ hs hr⟩

end Sys2Proof.Machine
end

section
/-!
PROOFS. Register reads with the capture rule (03 R66, 05 R136) and I3C transfers (02 R47, 03 R65), and the obligation `ReadsAndI3c`.
-/

namespace Sys2Proof.Machine

/-! ### Reads (03 R66, 05 R136) -/

theorem regValue_granted (port : Port) (p : Nat) (b : Block) (k : PageKind) (n off : Nat) :
    regValue (granted port p b) k n off = regValue b k n off := by
  simp [regValue]

@[simp] theorem latches_granted (port : Port) (p : Nat) (b : Block) : (granted port p b).latches = b.latches := by
  obtain ⟨a, h⟩ := granted_eq port p b
  rw [h]

theorem readValue_counter {k : PageKind} {off : Nat} (h : counterLo k (off % 4096) = true) (n : Nat) (b : Block) :
    readValue k n off b =
      (regValue b k n off, { b with latches := mapSet 0 b.latches (off + 4) ((rd b (off + 4)).toNat + 1) }) := by
  simp [readValue, h]

section NotCounter

variable {k : PageKind} {off : Nat} (h : counterLo k (off % 4096) = false) (n : Nat) {b : Block}

include h

/-- A captured upper half is read once. -/
theorem readValue_captured (hc : mapGet 0 b.latches off ≠ 0) : readValue k n off b =
    (BitVec.ofNat 32 (mapGet 0 b.latches off - 1), { b with latches := mapErase b.latches off }) := by
  simp [readValue, h, hc]

theorem readValue_plain (hc : mapGet 0 b.latches off = 0) (ho : off ≠ rPW_POWER) : readValue k n off b = (regValue b k n off, b) := by
  simp [readValue, h, hc, ho]

end NotCounter

/-- PEAK_W clears as it is read (02 R58). -/
theorem readValue_power {b : Block} (hc : mapGet 0 b.latches rPW_POWER = 0) (n : Nat) :
    readValue .pw n rPW_POWER b = (rd b rPW_POWER, put fPW_POWER_PEAK_W 0 b) := by
  have hcounter : counterLo .pw (rPW_POWER % 4096) = false := rfl
  have hvalue : regValue b .pw n rPW_POWER = rd b rPW_POWER := rfl
  simp [readValue, hcounter, hc, hvalue]

section Arrives

variable {port : Port} {off : Nat} {k : PageKind} {n : Nat} {i : RegInfo} {b : Block} (hp : pageOf (off / 4096) = some (k, n))
  (hi : regInfo k (off % 4096) = some i) (ha : off % 4 = 0) (hau : authority b port k (off % 4096) ≠ .none)

include hp hi ha hau

theorem regRead_of_register : regRead port off 4 b = readValue k n off (granted port (off / 4096) b) := by
  simp [regRead, hp, ha, hau, hi]

theorem regReadOut_of_register (hl : portLive port b = true) {r : W32 × Block}
    (hr : readValue k n off (granted port (off / 4096) b) = r) : regReadOut port off b = emit (.regRead port off r.1) r.2 := by
  simp [regReadOut, hl, regRead_of_register hp hi ha hau, hr]

end Arrives

theorem exec_counterLoRead (port : Port) (off : Nat) (s : State) :
    exec (.counterLoRead port off) s = .next (s.after (regReadOut port off s.blk)) := rfl

theorem exec_peakWRead (s : State) : exec .peakWRead s = .next (s.after (regReadOut .i3c rPW_POWER s.blk)) := rfl

theorem registerReads : Claims.RegisterReads := by
  refine ⟨fun s hl => ?_, fun s port off k n i hp hi ha hau hl => ⟨fun hc => ?_, fun hc hcaptured => ?_, fun hc hnone ho => ?_⟩⟩
  · have hau : authority s.blk .i3c .pw (rPW_POWER % 4096) = .rw := rfl
    have hread {r : W32 × Block} (hr : readValue .pw 0 rPW_POWER (granted .i3c 2 s.blk) = r) :
        exec .peakWRead s = .next (s.after (emit (.regRead .i3c rPW_POWER r.1) r.2)) := by
      rw [exec_peakWRead, regReadOut_of_register (show pageOf (rPW_POWER / 4096) = some (.pw, 0) from rfl)
        (show regInfo .pw (rPW_POWER % 4096) = some ⟨0, 0, 0, 0⟩ from rfl) rfl (by simp [hau]) hl hr]
    split
    · next hnone => rw [hread (readValue_power (by simpa using hnone) 0), rd_granted]
    · next hcaptured => rw [hread (readValue_captured rfl 0 (by simpa using hcaptured)), latches_granted]
  · rw [exec_counterLoRead, regReadOut_of_register hp hi ha hau hl (readValue_counter hc n _), regValue_granted]
  · rw [exec_counterLoRead, regReadOut_of_register hp hi ha hau hl (readValue_captured hc n (by simpa using hcaptured)), latches_granted]
  · rw [exec_counterLoRead, regReadOut_of_register hp hi ha hau hl (readValue_plain hc n (by simpa using hnone) ho), regValue_granted]

/-! ### Private writes (03 R65) -/

theorem leBytes_length (n v : Nat) : (leBytes n v).length = n := by
  induction n generalizing v with
  | zero => rfl
  | succ n ih => rw [leBytes, List.length_cons, ih]

theorem leNat_leBytes (n v : Nat) : leNat (leBytes n v) = v % 256 ^ n := by
  induction n generalizing v with
  | zero => rw [pow_zero, Nat.mod_one]; rfl
  | succ n ih =>
    rw [leBytes, leNat, ih, BitVec.toNat_ofNat]
    calc v % 256 + 256 * (v / 256 % 256 ^ n) = v % (256 * 256 ^ n) := Nat.mod_mul.symm
      _ = v % 256 ^ (n + 1) := by rw [← pow_succ']

theorem word_of_leBytes (w : W32) : BitVec.ofNat 32 (leNat (leBytes 4 w.toNat)) = w := by
  rw [leNat_leBytes, Nat.mod_eq_of_lt (show w.toNat < 256 ^ 4 from w.isLt), BitVec.ofNat_toNat, BitVec.setWidth_eq]

/-- The bytes of whole words, and a rest shorter than one, give the words. -/
theorem wordGroups_of_words (ws : List W32) {rest : List Byte} (hrest : rest.length < 4) :
    ∀ fuel, ws.length ≤ fuel → wordGroups fuel (ws.flatMap (fun w => leBytes 4 w.toNat) ++ rest) = ws := by
  induction ws with
  | nil =>
    rintro (_ | fuel) -
    · rfl
    · simp [wordGroups, hrest]
  | cons w ws ih =>
    rintro (_ | fuel) hfuel
    · simp at hfuel
    · have hlong : ¬ ((w :: ws).flatMap (fun w => leBytes 4 w.toNat) ++ rest).length < 4 := by
        simp [leBytes_length]
      have hsplit : (w :: ws).flatMap (fun w => leBytes 4 w.toNat) ++ rest =
          leBytes 4 w.toNat ++ (ws.flatMap (fun w => leBytes 4 w.toNat) ++ rest) := by simp
      rw [wordGroups, if_neg hlong, hsplit, List.take_left' (leBytes_length 4 _), List.drop_left' (leBytes_length 4 _),
        word_of_leBytes, ih fuel (by simpa using hfuel)]

/-- Words written one after the other, from an offset on. -/
theorem foldl_writes (off : Nat) (ws : List W32) (b : Block) :
    ws.foldl (fun (a : Nat × Block) w => ((a.1 + 4) % 2 ^ 24, regWrite .i3c a.1 w a.2)) (off % 2 ^ 24, b) =
      ((off + 4 * ws.length) % 2 ^ 24,
        (List.range ws.length).foldl (fun b i => regWrite .i3c ((off + 4 * i) % 2 ^ 24) (ws.getD i 0) b) b) := by
  induction ws using List.reverseRecOn with
  | nil => simp
  | append_singleton ws w ih =>
    have hfold : (List.range ws.length).foldl (fun b i => regWrite .i3c ((off + 4 * i) % 2 ^ 24) ((ws ++ [w]).getD i 0) b) b =
        (List.range ws.length).foldl (fun b i => regWrite .i3c ((off + 4 * i) % 2 ^ 24) (ws.getD i 0) b) b := by
      refine List.foldl_ext _ _ _ fun b i hi => ?_
      rw [List.getD_append _ _ _ _ (List.mem_range.mp hi)]
    rw [List.foldl_append, ih, List.length_append, List.length_singleton, List.range_succ, List.foldl_append, hfold]
    simp only [List.foldl_cons, List.foldl_nil, Prod.mk.injEq]
    refine ⟨by omega, ?_⟩
    simp

theorem i3cWrite_of_words {off : Nat} {b : Block} (hup : i3cUp b = true) (ws : List W32) {rest : List Byte} (hrest : rest.length < 4) :
    i3cWrite off (ws.flatMap (fun w => leBytes 4 w.toNat) ++ rest) b =
      setPwr (fun x => { x with i3cOffset := (off + 4 * ws.length) % 2 ^ 24 })
        ((List.range ws.length).foldl (fun b i => regWrite .i3c ((off + 4 * i) % 2 ^ 24) (ws.getD i 0) b) b) := by
  have hfuel : ws.length ≤ (ws.flatMap (fun w => leBytes 4 w.toNat) ++ rest).length := by
    simp [leBytes_length]
    omega
  simp only [i3cWrite, hup, Bool.not_true, Bool.false_eq_true, if_false, wordGroups_of_words ws hrest _ hfuel, foldl_writes]

/-! ### Private reads (03 R65) -/

/-- A read of the words from an offset on: the offset past them, the words, and the block. -/
def i3cWords (off words : Nat) (b : Block) : Nat × List W32 × Block :=
  (List.range words).foldl (fun (a : Nat × List W32 × Block) _ =>
    ((a.1 + 4) % 2 ^ 24, a.2.1 ++ [(regRead .i3c a.1 4 a.2.2).1], (regRead .i3c a.1 4 a.2.2).2)) (off % 2 ^ 24, [], b)

theorem regRead_mem (port : Port) (off size : Nat) (b : Block) : (regRead port off size b).2.mem = b.mem := by
  have hgrant (p : Nat) : (granted port p b).mem = b.mem := by
    obtain ⟨a, h⟩ := granted_eq port p b
    rw [h]
  have hread (k : PageKind) (n : Nat) (b : Block) : (readValue k n off b).2.mem = b.mem := by
    simp only [readValue]
    split
    · rfl
    · split
      · rfl
      · split <;> rfl
  simp only [regRead]
  split
  · rfl
  · split
    · exact hgrant _
    · split
      · exact hgrant _
      · split
        · exact hgrant _
        · rw [hread, hgrant]

theorem i3cWords_succ (off words : Nat) (b : Block) : i3cWords off (words + 1) b =
    (((i3cWords off words b).1 + 4) % 2 ^ 24,
      (i3cWords off words b).2.1 ++ [(regRead .i3c (i3cWords off words b).1 4 (i3cWords off words b).2.2).1],
      (regRead .i3c (i3cWords off words b).1 4 (i3cWords off words b).2.2).2) := by
  simp only [i3cWords, List.range_succ, List.foldl_append, List.foldl_cons, List.foldl_nil]

theorem i3cWords_spec (off words : Nat) (b : Block) :
    (i3cWords off words b).1 = (off + 4 * words) % 2 ^ 24 ∧ (i3cWords off words b).2.1.length = words ∧
      (i3cWords off words b).2.2.mem = b.mem ∧
      (0 < words → (i3cWords off words b).2.1.head? = some (regRead .i3c (off % 2 ^ 24) 4 b).1) := by
  induction words with
  | zero => exact ⟨by simp [i3cWords], rfl, rfl, by simp⟩
  | succ n ih =>
    obtain ⟨hoff, hlen, hmem, hhead⟩ := ih
    rw [i3cWords_succ]
    refine ⟨by simp only [hoff]; omega, by simp [hlen], by rw [regRead_mem, hmem], fun _ => ?_⟩
    rcases Nat.eq_zero_or_pos n with rfl | hpos
    · rfl
    · rw [List.head?_append, hhead hpos]
      rfl

theorem i3cRead_of_up {b : Block} (hup : i3cUp b = true) (off words : Nat) : i3cRead off words b =
    emit (.i3cRead (i3cWords off words b).2.1)
      (setPwr (fun x => { x with i3cOffset := (i3cWords off words b).1 }) (i3cWords off words b).2.2) := by
  simp only [i3cRead, hup, Bool.not_true, Bool.false_eq_true, if_false]
  rfl

/-! ### Addresses (02 R47) -/

theorem setDasa_of_own {static addr : Nat} {b : Block} (hup : i3cUp b = true) (h : static = 0x40 + b.pwr.modAddr) :
    setDasa static addr b = setPwr (fun x => { x with dynAddr := some (addr % 128) }) b := if_pos ⟨hup, h⟩

theorem setDasa_of_other {static addr : Nat} {b : Block} (h : i3cUp b = false ∨ static ≠ 0x40 + b.pwr.modAddr) :
    setDasa static addr b = b := by
  refine if_neg ?_
  rintro ⟨hup, hs⟩
  rcases h with h | h
  · simp [h] at hup
  · exact h hs

theorem entDaa_of_free {addr : Nat} {b : Block} (hup : i3cUp b = true) (h : b.pwr.dynAddr = none) :
    entDaa addr b = setPwr (fun x => { x with dynAddr := some (addr % 128) }) b := if_pos ⟨hup, h⟩

theorem entDaa_of_held {addr : Nat} {b : Block} (h : i3cUp b = false ∨ b.pwr.dynAddr ≠ none) : entDaa addr b = b := by
  refine if_neg ?_
  rintro ⟨hup, hn⟩
  rcases h with h | h
  · simp [h] at hup
  · exact h hn

theorem i3cTransfers : Claims.I3cTransfers := by
  intro s off addr static
  refine ⟨fun hup => ⟨fun ws rest hrest => run_of_eq (i3cWrite_of_words hup ws hrest), fun words => ?_,
      fun h => run_of_eq (setDasa_of_own hup h), fun h => run_of_eq (setDasa_of_other (.inr h)),
      fun h => run_of_eq (entDaa_of_free hup h), fun h => run_of_eq (entDaa_of_held (.inr h))⟩,
    fun hdown data words => ⟨run_of_eq ?_, run_of_eq ?_, run_of_eq (setDasa_of_other (.inl hdown)),
      run_of_eq (entDaa_of_held (.inl hdown))⟩⟩
  · obtain ⟨hoff, hlen, hmem, hhead⟩ := i3cWords_spec off words s.blk
    exact ⟨_, setPwr (fun x => { x with i3cOffset := (i3cWords off words s.blk).1 }) (i3cWords off words s.blk).2.2, hlen, hoff, hhead,
      hmem, run_of_eq (i3cRead_of_up hup off words)⟩
  · simp [i3cWrite, hdown]
  · simp [i3cRead, hdown]

/-- Settles O17: the branches of a read, the words of an I3C write as a fold over their numbers, and those of an I3C read by
induction on how many it asks for. -/
theorem readsAndI3c : Obligations.ReadsAndI3c := ⟨registerReads, i3cTransfers⟩

end Sys2Proof.Machine
end

section
/-!
PROOFS. Rows of firedamp (17 R487–R489) each with its own effect: causes seen and gone, the fall, and the recovery from FD3.
-/

namespace Sys2Proof.Machine

/-! ### Causes -/

theorem fdnLow_of_cause {b : Block} (hp : powered b = true) (hd : fdnDriven b = false) :
    fdnLow b = fdRise (setFd (fun x => { x with fdnPin := true, fdnCause := true }) b) := by
  have hd' : fdnDriven (setFd (fun x => { x with fdnPin := true }) b) = false := hd
  have hp' : powered (setFd (fun x => { x with fdnPin := true }) b) = true := hp
  simp only [fdnLow, hd', hp', Bool.not_false, Bool.and_self, if_true]
  rfl

theorem fdnLow_of_no_cause {b : Block} (h : powered b = false ∨ fdnDriven b = true) :
    fdnLow b = setFd (fun x => { x with fdnPin := true }) b := by
  have hno : (powered b && !fdnDriven b) = false := by rcases h with h | h <;> simp [h]
  have hno' : (powered (setFd (fun x => { x with fdnPin := true }) b) &&
      !fdnDriven (setFd (fun x => { x with fdnPin := true }) b)) = false := hno
  simp only [fdnLow, hno', Bool.false_eq_true, if_false]

/-- The hottest sensor's reading stands in PW_TEMP. -/
theorem dieMax_dieSample {b : Block} (hp : powered b = true) (readings : List Nat) : get (dieSample readings b) fPW_TEMP_DIE_MAX =
    min (hottestDie (((List.range 144).zip readings).foldl dieReading b)).2 255 := by
  have hsteady : fPW_TEMP_DIE_MAX.steady := by simp [Fld.steady, fPW_TEMP_DIE_MAX, pwBase]
  simp only [dieSample, hp, Bool.not_true, Bool.false_eq_true, if_false]
  rw [get_fdRise_ne hsteady (by decide), get_put_ne _ _ (by decide) (by decide), get_put_self _ _ _ (by decide)]
  exact Nat.mod_eq_of_lt (show min _ 255 < 256 by omega)

theorem regulatorFault_of_powered {b : Block} (hp : powered b = true) (lost : Bool) : regulatorFault lost b =
    fdRise (setFd (fun x => { x with regCause := true }) (setPwr (fun x => { x with pwrGood := x.pwrGood && !lost }) b)) := if_pos hp

/-! ### The fall -/

theorem fdFall_of_lower {new : Nat} {b : Block} (h : new < fdLevel b) : fdFall new b = fdChange new 9 b := if_pos h

theorem fallTimer_of_floor {b : Block} (h3 : fdLevel b ≠ 3) (h : fdFloor b < fdLevel b) : fallTimer b = fdChange (fdFloor b) 9 b := by
  rw [fallTimer, if_neg h3, fdFall_of_lower h]

/-! ### The recovery from FD3 -/

/-- FD3 has ended at FD1 with its hold, before the domains are powered back. -/
def fd3Ended (b : Block) : Block :=
  fdChange 1 9 (setFd (fun x => { x with fd3Latch := false, fd1Hold := true })
    (regulationBack (setFd (fun x => { x with regCause := false }) b)))

/-- The domains that the recovery powers back: as far as boot had come, and as the activity state lets them. -/
def fd3Powers (b : Block) : Block :=
  let phase := get b fDEV_BLK_STAT_BOOT_PHASE
  let b := if activity b < 2 ∧ 5 ≤ phase then lodesRefresh false b else b
  if activity b < 2 ∧ 6 ≤ phase then clustersBack (setDoms [74, 75] 2 b) else b

/-- The straps are latched in PW_COOL; nothing else of firedamp or its level changes as regulation comes back. -/
theorem fdLevel_regulationBack (b : Block) : fdLevel (regulationBack b) = fdLevel b := by
  have hput (f : Fld) (v : Nat) (b : Block) (hf : f.off = rPW_COOL) : fdLevel (put f v b) = fdLevel b :=
    get_put_off_ne b v (by rw [hf]; decide)
  have hcool (b : Block) : fdLevel (coolSettle b) = fdLevel b := get_wr_ne b _ (by decide)
  have hpwr (w : Pwr → Pwr) (b : Block) : fdLevel (setPwr w b) = fdLevel b := rfl
  rw [regulationBack]
  split
  · rw [strapLatch, hcool, hpwr, hput _ _ _ rfl, hput _ _ _ rfl, hpwr]
  · rfl

theorem regulationBack_fd (b : Block) : (regulationBack b).fd = b.fd := by
  rw [regulationBack]
  split <;> rfl

theorem fd3Recovery_of_recovered {b : Block} (h3 : fdLevel b = 3)
    (hc : fdCalled (setFd (fun x => { x with regCause := false }) b) < 2) : fd3Recovery b = fd3Powers (fd3Ended b) := by
  have hlevel : 1 < fdLevel (setFd (fun x => { x with fd3Latch := false, fd1Hold := true })
      (regulationBack (setFd (fun x => { x with regCause := false }) b))) := by
    have : fdLevel (regulationBack (setFd (fun x => { x with regCause := false }) b)) = 3 := (fdLevel_regulationBack _).trans h3
    exact this.symm ▸ (by decide : 1 < 3)
  rw [fd3Recovery, if_pos ⟨h3, hc⟩]
  simp only [fdFall_of_lower hlevel]
  rfl

theorem fdLevel_fd3Ended (b : Block) : fdLevel (fd3Ended b) = 1 := fdLevel_fdChange (by decide) 9 _

theorem fd3Ended_fd (b : Block) : (fd3Ended b).fd =
    { b.fd with regCause := false, fd3Latch := false, fd1Hold := true, yieldedAt := 0, fdnOnly := false } := by
  rw [fd3Ended, fdChange_fd, show (setFd (fun x => { x with fd3Latch := false, fd1Hold := true })
      (regulationBack (setFd (fun x => { x with regCause := false }) b))).fd =
    { (regulationBack (setFd (fun x => { x with regCause := false }) b)).fd with fd3Latch := false, fd1Hold := true } from rfl,
    regulationBack_fd]
  rfl

/-- What the domains' fields, the lodes' SELF_REFRESH and the engines' registers leave alone, powering the domains back leaves alone. -/
theorem fd3Powers_keeps {β : Type} (g : Block → β) (hdom : ∀ d v b, g (put (fDom d) v b) = g b)
    (hrefresh : ∀ l v b, g (put (fLD_BLK_STAT_SELF_REFRESH l) v b) = g b) (hlost : ∀ b l, g { b with lostCl := l } = g b)
    (hrelease : ∀ b c, g (releaseCluster b c) = g b) (b : Block) : g (fd3Powers b) = g b := by
  have hset (d v : Nat) (b : Block) : g (setDom d v b) = g b := by
    rw [setDom]
    split
    · rfl
    · exact hdom d v b
  have hsets (ds : List Nat) (v : Nat) (b : Block) : g (setDoms ds v b) = g b := foldl_keeps g _ (fun b d => hset d v b) ds b
  have hlodes (b : Block) : g (lodesRefresh false b) = g b := foldl_keeps g _ (fun b l => by rw [hrefresh, hset]) _ b
  have hon (b : Block) (c : Nat) : g (clusterOn b c) = g b := by
    simp only [clusterOn]
    rw [hset]
    split
    · rw [hrelease, hlost]
    · rfl
  have hclusters (b : Block) : g (clustersBack b) = g b := by
    simp only [clustersBack]
    rw [foldl_keeps g _ hon, hsets]
  simp only [fd3Powers, apply_ite g, hclusters, hsets, hlodes, ite_self]

theorem fdLevel_fd3Powers (b : Block) : fdLevel (fd3Powers b) = fdLevel b := by
  have hsteady : fPW_FD_LEVEL.steady := by simp [Fld.steady, fPW_FD_LEVEL, pwBase]
  refine fd3Powers_keeps fdLevel (fun d v b => get_put_off_ne b v ?_) (fun l v b => get_put_off_ne b v ?_) (fun _ _ => rfl)
    (fun b c => get_releaseCluster_steady hsteady b c) b
  · simp only [fDom, rPW_DOM, fPW_FD_LEVEL]
    omega
  · simp only [fLD_BLK_STAT_SELF_REFRESH, fPW_FD_LEVEL, ldBase, pwBase]
    omega

theorem sansWork_fd (b : Block) : b.sansWork.fd = b.fd := rfl

theorem fd3Powers_fd (b : Block) : (fd3Powers b).fd = b.fd :=
  fd3Powers_keeps (·.fd) (fun _ _ _ => rfl) (fun _ _ _ => rfl) (fun _ _ => rfl)
    (fun b c => by rw [← sansWork_fd, sansWork_releaseCluster, sansWork_fd]) b

/-- The recovery ends FD3 at FD1 with its hold, and the regulator fault with it. -/
theorem recovered_fd3Powers (b : Block) : fdLevel (fd3Powers (fd3Ended b)) = 1 ∧ (fd3Powers (fd3Ended b)).fd.fd1Hold = true ∧
    (fd3Powers (fd3Ended b)).fd.fd3Latch = false ∧ (fd3Powers (fd3Ended b)).fd.regCause = false := by
  rw [fdLevel_fd3Powers, fdLevel_fd3Ended, fd3Powers_fd, fd3Ended_fd]
  exact ⟨rfl, rfl, rfl, rfl⟩

end Sys2Proof.Machine
end

section
/-!
PROOFS. Rows of lodes, staging slices and the fabric (10 R268–R283, 14 R377) each with its own effect.
-/

namespace Sys2Proof.Machine

/-! ### Fills (10 R277) -/

theorem lode_setLode_self (b : Block) (l : Nat) (x : Lode) : lode (setLode l x b) l = x := by simp [lode, setLode]

/-- A word without flipped bits that is not poisoned is read as it is. -/
theorem lodeRead_of_clean {l a : Nat} {b : Block} (ha : a % 8 = 0) (hp : poisoned b (lodePa l a) = false) : lodeRead l a [] b = b := by
  have hword : a / 8 * 8 = a := by omega
  simp only [lodeRead, hword, hp, judge, List.filter_nil]
  exact ite_self b

theorem rgWordAt_aligned (pc j i : Nat) : rgWordAt pc j i % 8 = 0 := by
  simp only [rgWordAt]
  omega

theorem fillCopy_of_clean {l : Nat} {b : Block} {f : Fill} (hf : (lode b l).fill = some f)
    (hr : isSet b (fLD_BLK_STAT_SELF_REFRESH l) = false) (hd : domOn b (domLode l) = true) (hh : hbmLost b = false)
    (hpos : f.pos < rgWords) (hc : f.lost = true ∨ poisoned b (lodePa l (rgWordAt f.pc f.rg f.pos)) = false) :
    fillCopy l [] [] b = setLode l { lode b l with fill := some { f with pos := f.pos + 1 } } b := by
  have hread : (if f.lost then b else lodeRead l (rgWordAt f.pc f.rg f.pos) [] b) = b := by
    split
    · rfl
    · next hlost => exact lodeRead_of_clean (rgWordAt_aligned _ _ _) (hc.resolve_left hlost)
  have hback (pois : Bool) : judge 72 pois [] = if pois then .storedPoison else .clean := by cases pois <;> rfl
  simp only [fillCopy, hf, hr, hd, hh, Nat.not_le.mpr hpos, hread, hback, decide_false, Bool.not_true, Bool.or_self,
    Bool.false_eq_true, if_false, if_true]

/-- The remap table after a fill: the row group reads from its spare. -/
def remapped (x : Lode) (f : Fill) : Lode :=
  { x with fill := none, remap := x.remap.filter (fun e => !(e.1 == f.pc && e.2.1 == f.rg)) ++ [(f.pc, f.rg, f.spare)] }

theorem raise_lodes (p m : Nat) (b : Block) : (raise p m b).lodes = b.lodes := by
  simp only [raise]
  split <;> rfl

theorem lode_congr {b b' : Block} (h : b.lodes = b'.lodes) (l : Nat) : lode b l = lode b' l := by
  rw [lode, lode, h]

/-- A lost region reads as poison but for the words written whole since its fill began (10 R279). -/
def regionPoisoned (l : Nat) (f : Fill) (b : Block) : Block :=
  if f.lost then upTo rgWords (fun b i =>
    let a := rgWordAt f.pc f.rg i
    let pa := lodePa l a
    if lodeHas b l a && !f.written.contains pa then setPoison (setPoison b pa true) (pa + 4) true else b) b
  else b

/-- The remap table has switched, and the next queued fill has not yet begun. -/
def fillSwitched (l : Nat) (f : Fill) (b : Block) : Block :=
  let b := regionPoisoned l f (setLode l (remapped (lode b l) f) b)
  raise (ldPage l) 64 (if get b (fLD_FAIL_RG_ROWGROUP l) = f.rg ∧ get b (fLD_FAIL_PC l) = f.pc then put (fLD_FAIL_OUTCOME l) 5 b else b)

theorem regionPoisoned_lodes (l : Nat) (f : Fill) (b : Block) : (regionPoisoned l f b).lodes = b.lodes := by
  rw [regionPoisoned]
  split
  · refine foldl_keeps (·.lodes) _ (fun b i => ?_) _ b
    simp only
    split <;> rfl
  · rfl

theorem lode_fillSwitched (l : Nat) (f : Fill) (b : Block) : lode (fillSwitched l f b) l = remapped (lode b l) f := by
  have hput (p : Prop) [Decidable p] (b : Block) : (if p then put (fLD_FAIL_OUTCOME l) 5 b else b).lodes = b.lodes := by
    split <;> rfl
  rw [← lode_setLode_self b l (remapped (lode b l) f)]
  exact lode_congr (by simp only [fillSwitched, raise_lodes, hput, regionPoisoned_lodes]) l

theorem fillComplete_of_copied {l : Nat} {b : Block} {f : Fill} (hf : (lode b l).fill = some f)
    (hr : isSet b (fLD_BLK_STAT_SELF_REFRESH l) = false) (hd : domOn b (domLode l) = true) (hh : hbmLost b = false)
    (hpos : rgWords ≤ f.pos) : fillComplete l b =
      fillStat l (nextFill l ((lode (fillSwitched l f b) l).queued.length + 1) (fillSwitched l f b)) := by
  simp only [fillComplete, hf, hr, hd, hh, Nat.not_lt.mpr hpos, Bool.not_true, Bool.false_eq_true, or_self, if_false]
  rfl

/-- Where no fill waits, the row group reads from its spare and no fill runs. -/
theorem lode_fillComplete {l : Nat} {b : Block} {f : Fill} (hf : (lode b l).fill = some f)
    (hr : isSet b (fLD_BLK_STAT_SELF_REFRESH l) = false) (hd : domOn b (domLode l) = true) (hh : hbmLost b = false)
    (hpos : rgWords ≤ f.pos) (hq : (lode b l).queued = []) : lode (fillComplete l b) l = remapped (lode b l) f := by
  have hnone : (lode (fillSwitched l f b) l).queued = [] := by
    rw [lode_fillSwitched]
    exact hq
  have hnext (n : Nat) : nextFill l (n + 1) (fillSwitched l f b) = fillSwitched l f b := by simp only [nextFill, hnone]
  have hstat (b : Block) : lode (fillStat l b) l = lode b l := rfl
  rw [fillComplete_of_copied hf hr hd hh hpos, hnext, hstat, lode_fillSwitched]

theorem lode_lodeRecal (l : Nat) (b : Block) : (lode (lodeRecal l b) l).recals = (lode b l).recals + 1 := by
  rw [lodeRecal, lode_setLode_self]

/-! ### Temperatures (10 R268) -/

theorem hbm_stackTemp {l temp : Nat} {b : Block} (hf : isSet b (fBLK_STAT_FAILED (ldBase l)) = false) (hd : dom b (domLode l) ≠ 0) :
    mapGet 0 (stackTemp l temp b).fd.hbm l = temp := by
  have hd' : (dom b (domLode l) == 0) = false := by simpa using hd
  simp only [stackTemp, hf, hd', Bool.or_self, Bool.false_eq_true, if_false]
  rw [fdRise_of_called (g := Fd.hbm) (fun _ => rfl)]
  exact mapGet_set_self 0 _ l temp

/-! ### Failures (10 R270, R283, 14 R377) -/

section Steady

variable {f : Fld} (hf : f.steady)

include hf

theorem get_fenceCtx_steady {c : Nat} (hc : c < 64) (page data : Nat) (b : Block) : get (fenceCtx c page data b) f = get b f := by
  have hpost (n : Nat) (r : EvRec) (b : Block) : get (postTo n r b) f = get b f := rfl
  have hstop (b : Block) (q : Nat) : get (if qCtx b q = c then stopQueue q b else b) f = get b f := by
    rw [stopQueue]
    split
    · split
      · exact get_put_steady hf b (by simp only [fSQ_STAT_STATE, queueBase]; omega) 2
      · rfl
    · rfl
  simp only [fenceCtx]
  rw [hpost, foldl_keeps (fun b => get b f) _ hstop]
  exact get_put_steady hf b (by simp only [pairBit, rSC_CTX_FENCED_LO, scBase]; omega) 1

theorem get_replaceAdvise_steady (n : Nat) (b : Block) : get (replaceAdvise n b) f = get b f := by
  have hpost (c p d : Nat) (b : Block) : get (post c p d b) f = get b f := rfl
  simp only [replaceAdvise]
  split
  · rfl
  · rw [get_raise_steady hf, hpost, get_put_steady hf _ (by decide)]

theorem get_fencedCtxs_steady (page data : Nat) (b : Block) :
    get ((validCtxs b).foldl (fun b c => fenceCtx c page data b) b) f = get b f :=
  List.foldlRecOn (motive := fun b' => get b' f = get b f) _ _ rfl fun b' hb c hc => by
    have hlt : c < 64 := List.mem_range.mp (List.mem_filter.mp hc).1
    rw [get_fenceCtx_steady hf hlt, hb]

theorem get_loseHbm_steady (page cause detail : Nat) (b : Block) : get (loseHbm page cause detail b) f = get b f := by
  simp only [loseHbm]
  rw [get_fencedCtxs_steady hf, get_abortWhere_steady hf]

end Steady

/-- A domain set FAILED reads FAILED (17 R474). -/
theorem dom_setDom_failed (d : Nat) (b : Block) : dom (setDom d 3 b) d = 3 := by
  rw [setDom]
  split
  · assumption
  · have hwidth : 2 * (d % 16) + 1 + 1 - 2 * (d % 16) = 2 := by omega
    rw [dom, get_put_self _ _ _ (by simp only [fDom]; omega)]
    simp only [fDom, hwidth]
    rfl

/-- The unit at `base`, whose domain is `d`, is FAILED: its page says so, its domain is FAILED and its open transaction rolls back. -/
def unitFailed (base d : Nat) (b : Block) : Block :=
  domainRollback d (setDom d 3 (raise (base / 4096) 8 (put (fBLK_STAT_FAILED base) 1 b)))

theorem isSet_unitFailed {base d : Nat} (hbase : base % 4096 = 0) (hd : d < 80) (b : Block) :
    get (unitFailed base d b) (fBLK_STAT_FAILED base) = 1 := by
  have hfailed : (fBLK_STAT_FAILED base).steady := steady_failed hbase
  have hdom (b : Block) : get (setDom d 3 b) (fBLK_STAT_FAILED base) = get b (fBLK_STAT_FAILED base) := by
    rw [setDom]
    split
    · rfl
    · refine get_put_off_ne b 3 ?_
      simp only [fDom, rPW_DOM, pwBase, fBLK_STAT_FAILED]
      omega
  rw [unitFailed, get_domainRollback_steady hfailed, hdom, get_raise_steady hfailed, get_put_self _ _ _ (by simp only [fBLK_STAT_FAILED]; omega)]
  simp [fBLK_STAT_FAILED]

theorem dom_domainRollback {d : Nat} (hd : d < 80) (b : Block) : dom (domainRollback d (setDom d 3 b)) d = 3 := by
  rw [dom, get_domainRollback_steady (steady_fDom hd)]
  exact dom_setDom_failed d b

theorem get_memZero (lo hi : Nat) (b : Block) (f : Fld) : get (memZero lo hi b) f = get b f := rfl

/-- What follows the failure of a lode leaves steady fields alone: one lode less, HBM lost, advice to replace (10 R270). -/
theorem get_lodeFailure_steady {f : Fld} (hf : f.steady) {l : Nat} {b : Block} (hfail : isSet b (fBLK_STAT_FAILED (ldBase l)) = false) :
    get (lodeFailure l b) f = get (unitFailed (ldBase l) (domLode l) (put (fLD_BLK_STAT_TRAINED l) 0 b)) f := by
  simp only [lodeFailure, hfail, Bool.false_eq_true, if_false]
  rw [get_replaceAdvise_steady hf, get_loseHbm_steady hf, get_memZero, get_put_steady hf _ (by decide)]
  rfl

theorem lodeFailure_fails {l : Nat} (hl : l < 12) {b : Block} (hfail : isSet b (fBLK_STAT_FAILED (ldBase l)) = false) :
    isSet (lodeFailure l b) (fBLK_STAT_FAILED (ldBase l)) = true ∧ dom (lodeFailure l b) (domLode l) = 3 := by
  have hbase : ldBase l % 4096 = 0 := by simp only [ldBase]; omega
  have hd : domLode l < 80 := by simp only [domLode]; omega
  rw [isSet, dom, get_lodeFailure_steady (steady_failed hbase) hfail, get_lodeFailure_steady (steady_fDom hd) hfail,
    isSet_unitFailed hbase hd]
  exact ⟨rfl, dom_domainRollback hd _⟩

/-- So does what follows the failure of a staging slice: its areas lost and, with SG4, every context fenced (10 R283). -/
theorem get_sliceFailure_steady {f : Fld} (hf : f.steady) {s : Nat} {b : Block} (hfail : isSet b (fBLK_STAT_FAILED (sgBase s)) = false) :
    get (sliceFailure s b) f = get (unitFailed (sgBase s) (domSg s) b) f := by
  simp only [sliceFailure, hfail, Bool.false_eq_true, if_false]
  split
  · rw [get_replaceAdvise_steady hf, get_fencedCtxs_steady hf, get_fenceAll_steady hf, get_memZero]
    rfl
  · rw [get_replaceAdvise_steady hf, get_memZero]
    rfl

theorem sliceFailure_fails {s : Nat} (hs : s < 8) {b : Block} (hfail : isSet b (fBLK_STAT_FAILED (sgBase s)) = false) :
    isSet (sliceFailure s b) (fBLK_STAT_FAILED (sgBase s)) = true ∧ dom (sliceFailure s b) (domSg s) = 3 := by
  have hbase : sgBase s % 4096 = 0 := by simp only [sgBase]; omega
  have hd : domSg s < 80 := by simp only [domSg]; omega
  rw [isSet, dom, get_sliceFailure_steady (steady_failed hbase) hfail, get_sliceFailure_steady (steady_fDom hd) hfail,
    isSet_unitFailed hbase hd]
  exact ⟨rfl, dom_domainRollback hd _⟩

theorem dom_fabricFailure {h : Nat} (hh : h < 2) {b : Block} (hfail : dom b (domFab h) ≠ 3) :
    dom (fabricFailure h b) (domFab h) = 3 := by
  have hd : domFab h < 80 := by simp only [domFab]; omega
  have hsteady : (fDom (domFab h)).steady := steady_fDom hd
  have hwho (b : Block) : get (if h = 1 then put fSC_DISPATCH_WHO 2 b else b) (fDom (domFab h)) = get b (fDom (domFab h)) := by
    split
    · exact get_put_steady hsteady b (by decide) 2
    · rfl
  simp only [fabricFailure, hfail, if_false]
  rw [dom, get_replaceAdvise_steady hsteady, hwho, get_abortWhere_steady hsteady, get_loseHbm_steady hsteady, get_memZero]
  exact dom_domainRollback hd b

end Sys2Proof.Machine
end

section
/-!
PROOFS. Attestation and the test port (18 R506, R510–R514) each with its own effect, and the obligation `CompletingCommands`.
-/

namespace Sys2Proof.Machine

/-! ### Attestation (18 R506) -/

@[simp] theorem granted_fw (port : Port) (p : Nat) (b : Block) : (granted port p b).fw = b.fw := by
  simp only [granted, rrGrant]
  split <;> rfl

/-- The write of REQ starts SEC on a request. -/
theorem regWriteAt_attReq {port : Port} {b : Block} (h : actsNowNat b port rSEC_ATT_CTL 1 = true) :
    writeNat port rSEC_ATT_CTL 1 b = attReq (storeRw rSEC_ATT_CTL 1 (granted port 3 b)) := by
  rw [writeNat, regWriteAt_acts port _ _ b h]
  rfl

/-- A write of a register of the SEC page leaves whether SEC runs. -/
theorem secRuns_wr_sec {o : Nat} (ho : o / 4096 = 3) (b : Block) (v : W32) : secRuns (wr b o v) = secRuns b := by
  have hdom : domOn (wr b o v) domSec = domOn b domSec := by
    rw [domOn, dom, get_wr_ne b v (by simp only [fDom, rPW_DOM, pwBase, domSec]; omega)]
    rfl
  rw [secRuns, hdom]
  rfl

theorem secRuns_granted (port : Port) (p : Nat) (b : Block) : secRuns (granted port p b) = secRuns b := by
  rw [secRuns, domOn_granted, proc, granted_fw]
  rfl

theorem state_attReq (b : Block) : get (attReq b) fSEC_ATT_STAT_STATE = if secRuns b then 2 else 1 := by
  rw [attReq]
  split
  · rw [attStart, get_put_ne _ _ (by decide) (by decide), get_put_self _ _ _ (by decide)]
    rfl
  · rw [get_put_self _ _ _ (by decide)]
    rfl

theorem state_request {port : Port} {b : Block} (h : actsNowNat b port rSEC_ATT_CTL 1 = true) :
    get (writeNat port rSEC_ATT_CTL 1 b) fSEC_ATT_STAT_STATE = if secRuns b then 2 else 1 := by
  rw [regWriteAt_attReq h, state_attReq, storeRw, secRuns_wr_sec rfl, secRuns_granted]

/-! ### A buffer that is reached (10 R260, R282) -/

theorem lt_of_rangeOf_staging {pa s : Nat} (h : rangeOf pa = .staging s) : s < 8 := by
  simp only [rangeOf] at h
  split_ifs at h
  cases h
  omega

theorem lt_of_rangeOf_cluster {pa n : Nat} (h : rangeOf pa = .cluster n) : n < 32 := by
  simp only [rangeOf] at h
  split_ifs at h
  cases h
  omega

/-- What reaching an address hangs on: BLK_STAT's FAILED and RETIRED, the domains and SG_PART. -/
theorem reachable_congr {b b' : Block} (hlodes : b'.lodes = b.lodes) (hdead : b'.hostDead = b.hostDead)
    (hsteady : ∀ f : Fld, f.steady → get b' f = get b f)
    (hpart : ∀ s, s < 8 → get b' (fSG_PART_COLL s) = get b (fSG_PART_COLL s) ∧ get b' (fSG_PART_SECURE s) = get b (fSG_PART_SECURE s))
    (pa : Nat) : reachable b' pa = reachable b pa := by
  have hdom {d : Nat} (hd : d < 80) : dom b' d = dom b d := hsteady _ (steady_fDom hd)
  have hfailed {base : Nat} (h : base % 4096 = 0) : isSet b' (fBLK_STAT_FAILED base) = isSet b (fBLK_STAT_FAILED base) := by
    rw [isSet, isSet, hsteady _ (steady_failed h)]
  have htarget : targetReachable b' pa = targetReachable b pa := by
    rw [targetReachable, targetReachable]
    cases hr : rangeOf pa with
    | hbm =>
      have hlode (l : Nat) : isSet b' (fBLK_STAT_FAILED (ldBase l)) = isSet b (fBLK_STAT_FAILED (ldBase l)) :=
        hfailed (by simp only [ldBase]; omega)
      simp only [hbmLost, hlode, hdom (show domFab 0 < 80 by decide), hdom (show domFab 1 < 80 by decide), regionRetired, lode, hlodes]
    | staging s =>
      have hs : s < 8 := lt_of_rangeOf_staging hr
      simp only [hfailed (show sgBase s % 4096 = 0 by simp only [sgBase]; omega), hdom (show domSg s < 80 by simp only [domSg]; omega),
        hdom (show domFab (s / 4) < 80 by simp only [domFab]; omega)]
    | cluster n =>
      have hn : n < 32 := lt_of_rangeOf_cluster hr
      have hbase : clBase n % 4096 = 0 := by simp only [clBase]; omega
      have hretired : isSet b' (fBLK_STAT_RETIRED (clBase n)) = isSet b (fBLK_STAT_RETIRED (clBase n)) := by
        rw [isSet, isSet, hsteady _ (by simp only [Fld.steady, fBLK_STAT_RETIRED]; omega)]
      have hhalf : domFab (halfOfCluster n) < 80 := by
        rw [halfOfCluster]
        split <;> decide
      simp only [hretired, hfailed hbase, hdom (show n < 80 by omega), hdom hhalf]
    | host => simp only [hdead]
    | unassigned => rfl
  have howned : deviceOwned b' pa = deviceOwned b pa := by
    rw [deviceOwned, deviceOwned]
    cases hr : rangeOf pa with
    | staging s =>
      obtain ⟨hcoll, hsecure⟩ := hpart s (lt_of_rangeOf_staging hr)
      have howned : ownedBytes b' s = ownedBytes b s := by rw [ownedBytes, ownedBytes, hcoll, hsecure]
      simp only [howned]
    | hbm | cluster n | host | unassigned => rfl
  rw [reachable, htarget, howned, reachable]

/-- The state of an attestation is none of it. -/
theorem rangeReachable_attState (b : Block) (v pa n : Nat) :
    rangeReachable (put fSEC_ATT_STAT_STATE v b) pa n = rangeReachable b pa n := by
  have hpart (s : Nat) (f : Fld) (hf : f.off = sgBase s + 0x40) : get (put fSEC_ATT_STAT_STATE v b) f = get b f :=
    get_put_off_ne b v (by rw [hf]; simp only [fSEC_ATT_STAT_STATE, secBase, sgBase]; omega)
  have hreach (pa : Nat) : reachable (put fSEC_ATT_STAT_STATE v b) pa = reachable b pa :=
    reachable_congr (b := b) (b' := put fSEC_ATT_STAT_STATE v b) rfl rfl (fun f hf => get_put_steady hf b (by decide) v)
      (fun s _ => ⟨hpart s _ rfl, hpart s _ rfl⟩) pa
  simp only [rangeReachable, hreach]
  rfl

/-- The report and the certificate are written, and SEC says so. -/
theorem attComplete_of_reached {b : Block} (h2 : get b fSEC_ATT_STAT_STATE = 2)
    (hr : rangeReachable b (rd64 b rSEC_ATT_PA_LO) 4096 = true) :
    get (attComplete b) fSEC_ATT_STAT_STATE = 0 ∧ get (attComplete b) fSEC_ATT_STAT_RESULT = 1 := by
  have hwritten (pa : Nat) (bs : List Byte) (b : Block) (f : Fld) : get (paWrite pa bs b) f = get b f := get_memWriteP f pa bs _ b
  have hne : ¬ get b fSEC_ATT_STAT_STATE ≠ 2 := fun h => h h2
  rw [attComplete, if_neg hne]
  simp only [rangeReachable_attState, hr, if_true]
  constructor
  · rw [get_raise_ne _ _ (by decide), get_put_ne _ _ (by decide) (by decide), get_put_ne _ _ (by decide) (by decide), hwritten, hwritten,
      get_put_self _ _ _ (by decide)]
    rfl
  · rw [get_raise_ne _ _ (by decide), get_put_self _ _ _ (by decide)]
    rfl

/-! ### The test port (18 R510–R514) -/

theorem onTap_of_pwrGood {b : Block} (h : b.pwr.pwrGood = true) (f : Block → Block) : onTap f b = f b := if_pos h

/-- The TAP's instruction is the one selected, and all work is fenced until a module reset. -/
theorem takePins_of_powered {b : Block} (hp : powered b = true) (code : Nat) :
    (takePins code b).dbg.ir = code ∧ (takePins code b).pwr.hardFence = true := by
  have hp' : powered (tapSelect code b) = true := hp
  simp only [takePins, hp', if_true, fenceAll_dbg, fenceAll_pwr]
  exact ⟨rfl, rfl⟩

theorem raise_dbg (p m : Nat) (b : Block) : (raise p m b).dbg = b.dbg := by
  simp only [raise]
  split <;> rfl

/-- A token, taken or refused, leaves the TAP's instruction. -/
theorem ir_dbgToken (t : List Byte) (b : Block) : (dbgToken t b).dbg.ir = 0x21 := by
  have hrefused (b : Block) : (tokenRefused b).dbg.ir = b.dbg.ir := by
    rw [tokenRefused, raise_dbg]
    rfl
  have hchallenge (b : Block) : (freshChallenge b).dbg.ir = b.dbg.ir := rfl
  have hblow (g : Nat) (b : Block) : (blowCode g b).dbg.ir = b.dbg.ir := rfl
  have hunlock (g : Nat) (b : Block) : (unlock g b).dbg.ir = b.dbg.ir := rfl
  simp only [dbgToken, apply_ite (fun b : Block => b.dbg.ir), raise_dbg, hchallenge, hrefused, hblow, hunlock, ite_self]

/-- A read of the window is done at once. -/
theorem winDone_dbgRead (off : Nat) (v : W32) (b : Block) : (dbgWindow false off v b).dbg.winDone = true := rfl

/-- A write through the window is done where no access is held longer than before. -/
theorem winDone_dbgWrite (off : Nat) (v : W32) (b : Block) :
    (dbgWindow true off v b).dbg.winDone = decide ((dbgWindow true off v b).act.held.length ≤ b.act.held.length) := rfl

/-- Settles O60: each row's operation by its own lemma; the fields that say its effect lie outside what else the row writes. -/
theorem completingCommands : Obligations.CompletingCommands := by
  intro s l g h readings temp off lost bits t v does
  refine ⟨fun hp hd => ?_, fun hno => ?_, ?_, fun hp => ?_, fun hp => ?_, fun h3 hfloor => ?_, fun h3 hc => ?_, ?_,
    fun f hf hr hd hh => ⟨fun hpos hc => ?_, fun hpos hq => ?_⟩, ?_, fun hfail hd => ?_, fun hfail => ?_, fun hfail => ?_,
    fun hfail => ?_, fun hc ha => ?_, fun hc h2 hr => ?_, ?_, fun hgood => ?_⟩
  · exact ⟨_, run_of_eq (fdnLow_of_cause hp hd), fdRise_of_called (g := Fd.fdnPin) (fun _ => rfl) _,
      fdRise_of_called (g := Fd.fdnCause) (fun _ => rfl) _⟩
  · exact ⟨_, run_of_eq (fdnLow_of_no_cause hno), rfl, rfl⟩
  · exact ⟨_, run_of_eq rfl, rfl, rfl⟩
  · exact ⟨_, run_of_eq rfl, dieMax_dieSample hp readings⟩
  · refine ⟨_, run_of_eq (regulatorFault_of_powered hp lost), fdRise_of_called (g := Fd.regCause) (fun _ => rfl) _, ?_⟩
    rw [fdRise_pwr]
    rfl
  · refine ⟨_, run_of_eq (fallTimer_of_floor h3 hfloor), fdLevel_fdChange ?_ 9 _⟩
    exact Nat.lt_trans hfloor (fdLevel_lt s.blk)
  · exact ⟨_, run_of_eq (fd3Recovery_of_recovered h3 hc), recovered_fd3Powers _⟩
  · exact ⟨_, run_of_eq rfl, rfl⟩
  · exact ⟨_, run_of_eq (fillCopy_of_clean hf hr hd hh hpos hc), congrArg Lode.fill (lode_setLode_self s.blk l _)⟩
  · have hswitched := lode_fillComplete hf hr hd hh hpos hq
    exact ⟨_, run_of_eq rfl, congrArg Lode.fill hswitched, congrArg Lode.remap hswitched⟩
  · exact ⟨_, run_of_eq rfl, lode_lodeRecal l s.blk⟩
  · exact ⟨_, run_of_eq rfl, hbm_stackTemp hfail hd⟩
  · exact ⟨_, run_of_eq rfl, lodeFailure_fails l.isLt hfail⟩
  · exact ⟨_, run_of_eq rfl, sliceFailure_fails g.isLt hfail⟩
  · exact ⟨_, run_of_eq rfl, dom_fabricFailure h.isLt hfail⟩
  · exact ⟨_, run_of_eq (hostGated_active _ _ hc), state_request ha⟩
  · exact ⟨_, run_of_eq (hostGated_active _ _ hc), attComplete_of_reached h2 hr⟩
  · exact ⟨_, run_of_eq rfl, rfl, rfl⟩
  · have tap (f : Block → Block) : s.run (onTap f) = .next (s.after (f s.blk)) := run_of_eq (onTap_of_pwrGood hgood f)
    refine ⟨⟨_, tap _, rfl⟩, ⟨_, tap _, rfl⟩, ⟨_, tap _, rfl, rfl⟩, fun hp => ⟨?_, ?_, ?_⟩, ⟨_, tap _, rfl, rfl⟩,
      ⟨_, tap _, ir_dbgToken t s.blk⟩, ⟨_, tap _, winDone_dbgRead off v s.blk⟩, ⟨_, tap _, winDone_dbgWrite off v s.blk⟩⟩
    · exact ⟨_, tap _, takePins_of_powered hp 0x03⟩
    · exact ⟨_, tap _, takePins_of_powered hp 0x04⟩
    · exact ⟨_, tap _, takePins_of_powered hp 0x05⟩

end Sys2Proof.Machine
end

section
/-!
PROOFS. The link of a Chaell port (15 R403–R408): what a change of link state leaves, one equation for each row of the link, and the
obligation `ChaellLink` assembled from them.
-/

namespace Sys2Proof.Machine

/-! ### A change of link state -/

theorem portState_chState_self (p st : Nat) (b : Block) : portState (chState p st b) p = st % 8 :=
  get_put_self b (fCH_LINK_STATE p) st (show 2 < 32 by decide)

theorem portState_chState_ne {p q : Nat} (h : p ≠ q) (st : Nat) (b : Block) : portState (chState p st b) q = portState b q :=
  get_put_off_ne b (f := fCH_LINK_STATE p) (g := fCH_LINK_STATE q) st (by simp [fCH_LINK_STATE, chBase, h])

/-- A field of CH_LINK is no field of the identity register. -/
theorem stepping_put_link {f : Fld} {p : Nat} (hf : f.off = rCH_LINK p) (v : Nat) (b : Block) : stepping (put f v b) = stepping b := by
  simp only [stepping, rd_put_ne b v (show f.off ≠ 0 by simp [hf, rCH_LINK, chBase])]

theorem stepping_chState (p st : Nat) (b : Block) : stepping (chState p st b) = stepping b :=
  stepping_put_link (f := fCH_LINK_STATE p) (p := p) rfl st b

/-! ### What traffic leaves alone -/

/-- Registers and ports: what says whether a port carries the host's traffic (R405). -/
def Block.portsSeen (b : Block) : SMap W32 × SMap ChPort := (b.regs, b.chaell)

theorem portsSeen_emitFlits (l n : Nat) (b : Block) : (emitFlits l n b).portsSeen = b.portsSeen := by
  induction n generalizing b with
  | zero => rfl
  | succ n ih => exact ih _

theorem portsSeen_pumpFlits (l : Nat) (b : Block) : (pumpFlits l b).portsSeen = b.portsSeen := by
  rw [pumpFlits]
  split
  · exact portsSeen_emitFlits l _ b
  · rfl

theorem portsSeen_chEmit (p : Nat) (b : Block) (t : ChTxn) : (chEmit p b t).portsSeen = b.portsSeen :=
  portsSeen_pumpFlits _ _

theorem portState_of_seen {b b' : Block} (h : b'.portsSeen = b.portsSeen) (p : Nat) : portState b' p = portState b p := by
  simp only [portState, get, rd, (Prod.mk.inj h).1]

theorem chPort_of_seen {b b' : Block} (h : b'.portsSeen = b.portsSeen) (p : Nat) : chPort b' p = chPort b p := by
  simp only [chPort, (Prod.mk.inj h).2]

/-! ### The rows of the link -/

/-- Accesses to host memory no longer fail once a port with ENABLE is ACTIVE (R405). -/
def hostAnswers (enabled : Bool) (b : Block) : Block := if enabled then { b with hostDead := false } else b

/-- The CAPS of a port of a device of this stepping (R408). -/
def ownCaps (p step : Nat) : List Byte :=
  leBytes 2 0x03A5 ++ leBytes 2 0xB240 ++ leBytes 1 step ++ leBytes 1 p ++ leBytes 1 1

theorem sendCaps_of_stepping {p step : Nat} {b : Block} (h : stepping b = step) :
    sendCaps p b = emit (.flit (18 + p) (flitBytes 5 (ownCaps p step))) b := by
  subst h
  rfl

section Rows

variable {p : Nat} {b : Block}

/-- TRAINING forgets the CAPS received and sends this device's own. -/
theorem enterTraining_eq (p : Nat) (b : Block) : enterTraining p b = emit (.flit (18 + p) (flitBytes 5 (ownCaps p (stepping b))))
    (setPort p { chPort b p with caps := none, capsSame := false } (chState p 1 b)) :=
  sendCaps_of_stepping (stepping_chState p 1 b)

theorem trainingStart_of_powered (h : portState b p = 0) (hd : dom b (domCh p) = 2) : trainingStart p b = enterTraining p b :=
  if_pos ⟨h, hd⟩

theorem downRetry_of_down (h : portState b p = 4) : downRetry p b = enterTraining p b := if_pos h

theorem capsFlit_of_exchange (h : portState b p = 1 ∨ portState b p = 3) (caps : List Byte) : capsFlit p caps b =
    setPort p { chPort b p with caps := some caps, capsSame := (chPort b p).caps == some caps && byteAt caps 6 == 1 } b :=
  if_pos h

/-- A port that becomes ACTIVE with ENABLE ends the failure of host accesses (R405). -/
theorem portUp_of_active (h : portState b p = 2) : portUp p b = hostAnswers ((chPort b p).cfgCtl.testBit 0) b := by
  have hactive : portActive b p = (chPort b p).cfgCtl.testBit 0 := by
    simp only [portActive, chPort, show get b (fCH_LINK_STATE p) = 2 from h, beq_self_eq_true, Bool.true_and]
  rw [portUp, hactive, hostAnswers]

theorem trainingComplete_of_same (h : portState b p = 1) (hs : (chPort b p).capsSame = true) : trainingComplete p b =
    hostAnswers ((chPort b p).cfgCtl.testBit 0) (setLink (18 + p) Link.fresh (chState p 2 b)) := by
  have hactive : portState (setLink (18 + p) Link.fresh (chState p 2 b)) p = 2 := portState_chState_self p 2 b
  rw [trainingComplete, if_pos ⟨h, hs⟩]
  exact portUp_of_active hactive

theorem recovery_of_active (h : portState b p = 2) : recovery p b = emit (.flit (18 + p) (flitBytes 5 (ownCaps p (stepping b))))
    (setPort p { chPort b p with caps := none, capsSame := false } (bump (fCH_LINK_RECOVERIES p) 1 (chState p 3 b))) := by
  have hstep : stepping (bump (fCH_LINK_RECOVERIES p) 1 (chState p 3 b)) = stepping b :=
    (stepping_put_link (f := fCH_LINK_RECOVERIES p) (p := p) rfl _ _).trans (stepping_chState p 3 b)
  rw [recovery, if_pos h]
  exact sendCaps_of_stepping hstep

/-! A transaction goes to the stream of an ACTIVE port, waits while the port is in RECOVERY, and is not sent otherwise (R403). -/

theorem chSend_of_active (h : portState b p = 2) (t : ChTxn) : chSend p t b = chEmit p b t := by
  simp only [chSend, show get b (fCH_LINK_STATE p) = 2 from h]

theorem chSend_of_recovery (h : portState b p = 3) (t : ChTxn) :
    chSend p t b = setPort p { chPort b p with waiting := (chPort b p).waiting ++ [t] } b := by
  simp only [chSend, show get b (fCH_LINK_STATE p) = 3 from h]

theorem chSend_of_silent (h2 : portState b p ≠ 2) (h3 : portState b p ≠ 3) (t : ChTxn) : chSend p t b = b := by
  simp only [chSend]
  split
  · exact absurd ‹_› h2
  · exact absurd ‹_› h3
  · rfl

end Rows

/-! ### The end of RECOVERY (R407) -/

/-- The port is ACTIVE again: its flits count from zero and those not acknowledged have gone out again. -/
def replayed (p : Nat) (b : Block) : Block :=
  let l := link b (18 + p)
  pumpFlits (18 + p) (l.buffer.foldl (fun b c => emit (.flit (18 + p) (flitBytes 1 c)) b)
    (setLink (18 + p) { Link.fresh with
      tx := l.buffer.length, buffer := l.buffer, txTail := l.txTail, txBytes := 253 * l.buffer.length + l.txTail.length,
      part := l.part } (chState p 2 b)))

theorem portsSeen_replayed (p : Nat) (b : Block) : (replayed p b).portsSeen = (chState p 2 b).portsSeen :=
  (portsSeen_pumpFlits _ _).trans (foldl_keeps Block.portsSeen (fun b c => emit (.flit (18 + p) (flitBytes 1 c)) b) (fun _ _ => rfl) _ _)

/-- What was held while the port was in RECOVERY goes out behind the replay. -/
def heldSent (p : Nat) (b : Block) : Block :=
  (chPort b p).waiting.foldl (chEmit p) (setPort p { chPort b p with waiting := [] } (replayed p b))

theorem portsSeen_heldSent (p : Nat) (b : Block) :
    (heldSent p b).portsSeen = (setPort p { chPort b p with waiting := [] } (replayed p b)).portsSeen :=
  foldl_keeps Block.portsSeen _ (portsSeen_chEmit p) _ _

theorem portState_heldSent (p : Nat) (b : Block) : portState (heldSent p b) p = 2 :=
  calc portState (heldSent p b) p
    _ = portState (replayed p b) p := portState_of_seen (portsSeen_heldSent p b) p
    _ = portState (chState p 2 b) p := portState_of_seen (portsSeen_replayed p b) p
    _ = 2 := portState_chState_self p 2 b

theorem chPort_heldSent (p : Nat) (b : Block) : chPort (heldSent p b) p = { chPort b p with waiting := [] } :=
  (chPort_of_seen (portsSeen_heldSent p b) p).trans (mapGet_set_self _ _ _ _)

theorem recoveryComplete_of_same {p : Nat} {b : Block} (h : portState b p = 3) (hs : (chPort b p).capsSame = true) :
    recoveryComplete p b = hostAnswers ((chPort b p).cfgCtl.testBit 0) (heldSent p b) := by
  have hport : chPort (replayed p b) p = chPort b p := chPort_of_seen (portsSeen_replayed p b) p
  have hrow : recoveryComplete p b = portUp p ((chPort b p).waiting.foldl (chEmit p)
      (setPort p { chPort (replayed p b) p with waiting := [] } (replayed p b))) := if_pos ⟨h, hs⟩
  rw [hrow, hport]
  change portUp p (heldSent p b) = _
  rw [portUp_of_active (portState_heldSent p b), chPort_heldSent]

/-! ### DOWN (R403, R408, 03 R78) -/

/-- The ports of the device are this one and the other. -/
theorem hostRollback_eq {p : Nat} (hp : p < 2) (b : Block) : hostRollback b =
    if portState b p = 2 ∨ portState b p = 3 ∨ portState b (1 - p) = 2 ∨ portState b (1 - p) = 3 then b else portRollback b := by
  have hany : (List.range 2).any (fun q => get b (fCH_LINK_STATE q) == 2 || get b (fCH_LINK_STATE q) == 3) = true ↔
      portState b p = 2 ∨ portState b p = 3 ∨ portState b (1 - p) = 2 ∨ portState b (1 - p) = 3 := by
    have hports : p = 0 ∨ p = 1 := by omega
    rcases hports with rfl | rfl
    · simp [List.range_succ, portState, or_assoc]
    · simp only [List.range_succ, List.range_zero, List.nil_append, List.any_append, List.any_cons, List.any_nil, Bool.or_false,
        Bool.or_eq_true, beq_iff_eq, portState, Nat.sub_self]
      tauto
  rw [hostRollback, if_congr hany rfl rfl]

section Down

variable {p : Nat} (hp : p < 2) {b : Block}

include hp

theorem portDown_eq : portDown p 4 b =
    if portState b (1 - p) = 2 ∨ portState b (1 - p) = 3 then portLost p (chState p 4 b)
    else portRollback (portLost p (chState p 4 b)) := by
  have hself : portState (portLost p (chState p 4 b)) p = 4 := portState_chState_self p 4 b
  have hother : portState (portLost p (chState p 4 b)) (1 - p) = portState b (1 - p) := portState_chState_ne (by omega) 4 b
  rw [portDown, hostRollback_eq hp, hself, hother]
  simp

theorem portDown_of_other (h : portState b (1 - p) = 2 ∨ portState b (1 - p) = 3) : portDown p 4 b = portLost p (chState p 4 b) := by
  rw [portDown_eq hp, if_pos h]

theorem portDown_of_last (h2 : portState b (1 - p) ≠ 2) (h3 : portState b (1 - p) ≠ 3) :
    portDown p 4 b = portRollback (portLost p (chState p 4 b)) := by
  rw [portDown_eq hp, if_neg (not_or.mpr ⟨h2, h3⟩)]

end Down

/-! ### The obligation -/

/-- Settles O50: the branch of each row, with what a change of link state leaves of the port. -/
theorem chaellLink : Obligations.ChaellLink := by
  intro s p caps st x into up capsOut train down
  have htraining (h : st = 1) : trainingTimeout p s.blk = portDown p 4 s.blk := if_pos h
  have hrecovery (h : st = 3) : recoveryTimeout p s.blk = portDown p 4 s.blk := if_pos h
  refine ⟨fun h hd => ?_, fun h => ?_, fun h => ?_, fun h hs => ?_, fun hother => ⟨fun h => ?_, fun h => ?_⟩,
    fun h2 h3 => ⟨fun h => ?_, fun h => ?_⟩, fun h => ?_, fun h hs => ?_, fun t => ⟨fun h => ?_, fun h => ?_, fun h => ?_⟩⟩
  · exact run_of_eq ((trainingStart_of_powered h hd).trans (enterTraining_eq p s.blk))
  · exact run_of_eq ((downRetry_of_down h).trans (enterTraining_eq p s.blk))
  · exact run_of_eq (capsFlit_of_exchange h caps)
  · exact run_of_eq (trainingComplete_of_same h hs)
  · exact run_of_eq ((htraining h).trans (portDown_of_other p.isLt hother))
  · exact run_of_eq ((hrecovery h).trans (portDown_of_other p.isLt hother))
  · exact run_of_eq ((htraining h).trans (portDown_of_last p.isLt h2 h3))
  · exact run_of_eq ((hrecovery h).trans (portDown_of_last p.isLt h2 h3))
  · exact run_of_eq (recovery_of_active h)
  · exact run_of_eq (recoveryComplete_of_same h hs)
  · exact chSend_of_active h t
  · exact chSend_of_recovery h t
  · exact chSend_of_silent h.1 h.2 t

end Sys2Proof.Machine
end

section
/-!
PROOFS. The device-wide transaction (03 R79) and the roll-back of a page (03 R74, R78): TX_CTL through the checks to its command, the rows
that end the group, what a page is left with, and the obligation `DeviceTransaction` assembled from them.
-/

namespace Sys2Proof.Machine

/-! ### What the commands of TX_CTL read (03 R79) -/

theorem memberPages_congr {b b' : Block} (hvalid : ∀ n, get b' (fTX_MEMBER_VALID n) = get b (fTX_MEMBER_VALID n))
    (hpage : ∀ n, get b' (fTX_MEMBER_PAGE n) = get b (fTX_MEMBER_PAGE n)) : memberPages b' = memberPages b := by
  have hset (n : Nat) : isSet b' (fTX_MEMBER_VALID n) = isSet b (fTX_MEMBER_VALID n) := by rw [isSet, hvalid, ← isSet]
  simp only [memberPages, hset, hpage]

theorem authority_put (f : Fld) (v : Nat) (hf : f.off ≠ fSEC_DBG_UNLOCKED.off) (who : Port) (k : PageKind) (o : Nat) (b : Block) :
    authority (put f v b) who k o = authority b who k o := by
  have hlock : isSet (put f v b) fSEC_DBG_UNLOCKED = isSet b fSEC_DBG_UNLOCKED := by rw [isSet, get_put_off_ne b v hf, ← isSet]
  cases who with
  | test =>
    change testAuthority (put f v b) k = testAuthority b k
    rw [testAuthority, hlock]
    rfl
  | _ => rfl

/-- The block in which a command of TX_CTL acts: the page has granted the port, and TIMEOUT is kept. -/
def txBlock (port : Port) (t : Nat) (b : Block) : Block := put fTX_CTL_TIMEOUT t (granted port 1 b)

section TxBlock

variable {port : Port} {t : Nat} {b : Block}

/-- TX_CTL alone is written. -/
theorem get_txBlock {f : Fld} (h : f.off ≠ rTX_CTL) : get (txBlock port t b) f = get b f :=
  (get_put_off_ne _ t (f := fTX_CTL_TIMEOUT) (Ne.symm h)).trans (get_granted port 1 b f)

theorem memberPages_txBlock : memberPages (txBlock port t b) = memberPages b :=
  memberPages_congr (fun n => get_txBlock (by simp only [fTX_MEMBER_VALID, rTX_CTL]; omega))
    fun n => get_txBlock (by simp only [fTX_MEMBER_PAGE, rTX_CTL]; omega)

theorem memberBad_txBlock (who : Port) (p : Nat) : memberBad (txBlock port t b) who p = memberBad b who p := by
  have hdom (k : PageKind) (n : Nat) : domOn (txBlock port t b) (pageDomain k n) = domOn b (pageDomain k n) := by
    rw [domOn, dom, get_txBlock (by simp only [fDom, rPW_DOM, pwBase, rTX_CTL, txBase]; omega), ← dom, ← domOn]
  have hstate : txnState (txBlock port t b) p = txnState b p :=
    get_txBlock (by simp only [fTXN_STAT_STATE, pageBase, rTX_CTL, txBase]; omega)
  have hauth (k : PageKind) : authority (txBlock port t b) who k 0x020 = authority b who k 0x020 := by
    rw [txBlock, authority_put _ _ (by decide), authority_granted]
  simp only [memberBad, hdom, hstate, hauth]

theorem txBegin_of_good (hgood : (memberPages b).all (fun p => !memberBad b port p) = true) : txBegin port b =
    let opened := (memberPages b).foldl (fun b p => openPage (portOwner port) true p b) b
    put fTX_STAT_OWNER (portOwner port) (put fTX_STAT_STATE 1 { opened with txn := { opened.txn with members := memberPages b } }) := by
  have hnone : (memberPages b).find? (memberBad b port) = none := by
    simpa only [List.find?_eq_none, List.all_eq_true, Bool.not_eq_true', Bool.not_eq_true] using hgood
  simp only [txBegin, hnone]

/-! ### A write of TX_CTL -/

/-- A TX_CTL write by an authority with RW is a command, unless its TIMEOUT is the reserved 0. -/
theorem judgeWrite_txCtl (ha : authority b port .tx 0x040 = .rw) (hon : domOn b domPwr = true) {v : W32} (ht : field v 23 8 ≠ 0)
    (p n : Nat) : judgeWrite b port p .tx n 0x040 v = .control := by
  have hinfo : regInfo .tx 0x040 = some ⟨0x3e800, 0xffff00, 0, 3⟩ := rfl
  have hon' : domOn b (pageDomain .tx n) = true := hon
  simp [judgeWrite, ha, hinfo, hon', reservedWrite, ht]

/-- A write that no check stops acts as its command does; a ROLLBACK finds no commit that is due. -/
theorem deviceCommand_of_control {cmd : Nat} {d : Block} (hl : portLive port b = true) (ha : authority b port .tx 0x040 = .rw)
    (hon : domOn b domPwr = true) (hc : cmd < 4) (ht : t < 65536) (ht0 : t ≠ 0) (hst : get b fTX_STAT_STATE ≠ 2)
    (hd : txControl port (txnCtlWord cmd t) (granted port 1 b) = .ok d) : deviceCommand port cmd t b = d := by
  have hjudge : judgeWrite (granted port 1 b) port 1 .tx 0 0x040 (txnCtlWord cmd t) = .control :=
    judgeWrite_txCtl (by rwa [authority_granted]) (by rwa [domOn_granted]) (by rwa [txnCtlWord_timeout hc ht]) 1 0
  have hstay : rollbackMeets rTX_CTL 1 (txnCtlWord cmd t) (granted port 1 b) = granted port 1 b := by
    have happly : txSafeApply (granted port 1 b) = granted port 1 b := if_neg fun h => hst (by simpa using h.1)
    simp only [rollbackMeets, happly, if_true, ite_self]
  rw [deviceCommand, writeNat, ← txnCtlWord, regWriteAt_judged (k := .tx) (n := 0) hl rfl rfl]
  change (performWrite port 1 rTX_CTL _ (judgeWrite (granted port 1 b) port 1 .tx 0 0x040 (txnCtlWord cmd t))
    (granted port 1 b)).1 = d
  rw [hjudge]
  simp only [performWrite, hstay, if_true, hd]

theorem txControl_begin (ht : t < 65536) (hst : get b fTX_STAT_STATE = 0) :
    txControl port (txnCtlWord 1 t) b = .ok (txBegin port (put fTX_CTL_TIMEOUT t b)) := by
  simp [txControl, hst, txnCtlWord_cmd, txnCtlWord_timeout, ht, controlOk]

theorem txControl_commit (ht : t < 65536) (hst : get b fTX_STAT_STATE = 1) (ho : get b fTX_STAT_OWNER = portOwner port) :
    txControl port (txnCtlWord 2 t) b = .ok (txCommit (put fTX_CTL_TIMEOUT t b)) := by
  simp [txControl, hst, ho, txnCtlWord_cmd, txnCtlWord_timeout, ht, controlOk]

theorem txControl_rollback (ht : t < 65536) (hst : get b fTX_STAT_STATE = 1) (ho : get b fTX_STAT_OWNER = portOwner port) :
    txControl port (txnCtlWord 3 t) b = .ok (rollbackGroup 2 0 (put fTX_CTL_TIMEOUT t b)) := by
  simp [txControl, hst, ho, txnCtlWord_cmd, txnCtlWord_timeout, ht, controlOk]

/-! ### The ends of the group -/

theorem txSafeApply_of_safe (hst : get b fTX_STAT_STATE = 2) (hsafe : b.txn.members.all (safePoint b) = true) :
    txSafeApply b = commitGroup (flipFirst b.txn.members b) := if_pos ⟨hst, hsafe⟩

/-- The timeout of a PENDING group whose members are all at their safe points commits it (R77). -/
theorem txTimeout_of_safe (hst : get b fTX_STAT_STATE = 2) (hsafe : b.txn.members.all (safePoint b) = true) :
    txTimeout b = commitGroup (flipFirst b.txn.members b) := by
  simp only [txTimeout, hst, hsafe, and_self, if_true, OfNat.ofNat_ne_zero, if_false]

/-- A member that is not at its safe point names the failure. -/
theorem txTimeout_of_late {p : Nat} (hst : get b fTX_STAT_STATE ≠ 0)
    (hlate : b.txn.members.find? (fun p => !safePoint b p) = some p) : txTimeout b = rollbackGroup 3 p b := by
  have hnot : ¬ (get b fTX_STAT_STATE = 2 ∧ b.txn.members.all (safePoint b) = true) := by
    rintro ⟨-, hall⟩
    have hsafe := List.all_eq_true.mp hall p (List.mem_of_find?_eq_some hlate)
    exact absurd (List.find?_some hlate) (by simp [hsafe])
  simp only [txTimeout, if_neg hst, if_neg hnot, hlate]

end TxBlock

theorem exec_txBeginRow (port : Port) (t : Nat) (s : State) :
    exec (.txBeginRow port t) s = .next (s.after (deviceCommand port 1 t s.blk)) := rfl

theorem exec_txCommitRow (port : Port) (t : Nat) (s : State) :
    exec (.txCommitRow port t) s = .next (s.after (deviceCommand port 2 t s.blk)) := rfl

theorem exec_txRollbackRow (port : Port) (t : Nat) (s : State) :
    exec (.txRollbackRow port t) s = .next (s.after (deviceCommand port 3 t s.blk)) := rfl

theorem exec_txSafePointApply {s : State} (hclear : hostClear s.blk = true) :
    exec .txSafePointApply s = .next (s.after (txSafeApply s.blk)) :=
  run_of_eq (hostGated_active txSafeApply _ hclear)

theorem groupTransaction : Claims.GroupTransaction := by
  intro s port t ht ht0 ha hon hl b
  have hgranted (f : Fld) : get (granted port 1 s.blk) f = get s.blk f := get_granted port 1 s.blk f
  refine ⟨fun hst hgood => ?_, fun hst ho => ⟨?_, ?_⟩, fun hclear hst hsafe => ?_, fun q hst hsafe => ?_, fun p q hst hlate => ?_⟩
  · have hmembers : memberPages b = memberPages s.blk := memberPages_txBlock
    have hgood' : (memberPages b).all (fun p => !memberBad b port p) = true := by
      rw [hmembers]
      simpa only [show b = txBlock port t s.blk from rfl, memberBad_txBlock] using hgood
    rw [exec_txBeginRow, deviceCommand_of_control hl ha hon (by omega) ht ht0 (by omega) (txControl_begin ht (by rwa [hgranted])),
      txBegin_of_good hgood', hmembers]
  · rw [exec_txCommitRow, deviceCommand_of_control hl ha hon (by omega) ht ht0 (by omega)
      (txControl_commit ht (by rwa [hgranted]) (by rwa [hgranted]))]
  · rw [exec_txRollbackRow, deviceCommand_of_control hl ha hon (by omega) ht ht0 (by omega)
      (txControl_rollback ht (by rwa [hgranted]) (by rwa [hgranted]))]
  · rw [exec_txSafePointApply hclear, txSafeApply_of_safe hst hsafe]
  · rw [exec_txnTimeoutRow, txnTimeout, if_pos rfl, txTimeout_of_safe hst hsafe]
  · rw [exec_txnTimeoutRow, txnTimeout, if_pos rfl, txTimeout_of_late hst hlate]

/-! ### The roll-back of a page (03 R74, R78) -/

section EndTxn

variable (p r : Nat) (b : Block)

/-- The end of a transaction writes TXN_STAT, and no other register. -/
theorem rd_endTxn_ne {o : Nat} (h : o ≠ rTXN_STAT (pageBase p)) : rd (endTxn p r b) o = rd b o := by
  have hput (f : Fld) (hf : f.off = rTXN_STAT (pageBase p)) (v : Nat) (b : Block) : rd (put f v b) o = rd b o :=
    rd_put_ne b v (by rw [hf]; exact Ne.symm h)
  simp only [endTxn, incr]
  rw [hput _ rfl, hput _ rfl, hput _ rfl, hput _ rfl, hput _ rfl]
  rfl

theorem txnState_endTxn : txnState (endTxn p r b) p = 0 := by
  simp only [txnState, endTxn, incr]
  rw [get_put_ne _ _ (by simp [fTXN_STAT_STATE]) (by simp [fTXN_STAT_STATE, fTXN_STAT_SEQ]),
    get_put_ne _ _ (by simp [fTXN_STAT_STATE]) (by simp [fTXN_STAT_STATE, fTXN_STAT_GROUP]),
    get_put_ne _ _ (by simp [fTXN_STAT_STATE]) (by simp [fTXN_STAT_STATE, fTXN_STAT_STAGED]),
    get_put_ne _ _ (by simp [fTXN_STAT_STATE]) (by simp [fTXN_STAT_STATE, fTXN_STAT_RESULT]),
    get_put_self _ _ _ (by simp [fTXN_STAT_STATE]), Nat.zero_mod]

theorem result_endTxn {r : Nat} (hr : r < 16) : get (endTxn p r b) (fTXN_STAT_RESULT (pageBase p)) = r := by
  simp only [endTxn, incr]
  rw [get_put_ne _ _ (by simp [fTXN_STAT_RESULT]) (by simp [fTXN_STAT_RESULT, fTXN_STAT_SEQ]),
    get_put_ne _ _ (by simp [fTXN_STAT_RESULT]) (by simp [fTXN_STAT_RESULT, fTXN_STAT_GROUP]),
    get_put_ne _ _ (by simp [fTXN_STAT_RESULT]) (by simp [fTXN_STAT_RESULT, fTXN_STAT_STAGED]),
    get_put_self _ _ _ (by simp [fTXN_STAT_RESULT])]
  exact Nat.mod_eq_of_lt hr

theorem seq_endTxn : get (endTxn p r b) (fTXN_STAT_SEQ (pageBase p)) =
    (get b (fTXN_STAT_SEQ (pageBase p)) + 1) % 2 ^ ((fTXN_STAT_SEQ (pageBase p)).msb + 1 - (fTXN_STAT_SEQ (pageBase p)).lsb) := by
  have hbelow (f : Fld) (hf : f.msb < 16) (v : Nat) (b : Block) :
      get (put f v b) (fTXN_STAT_SEQ (pageBase p)) = get b (fTXN_STAT_SEQ (pageBase p)) :=
    get_put_ne b v (by simp [fTXN_STAT_SEQ]) (.inr (.inl hf))
  simp only [endTxn, incr]
  rw [get_put_self _ _ _ (by simp [fTXN_STAT_SEQ]), Nat.mod_mod, hbelow _ (by simp [fTXN_STAT_GROUP]),
    hbelow _ (by simp [fTXN_STAT_STAGED]), hbelow _ (by simp [fTXN_STAT_RESULT]), hbelow _ (by simp [fTXN_STAT_STATE])]
  rfl

theorem staged_endTxn : mapGet [] (endTxn p r b).txn.staged p = [] := mapGet_erase_self [] b.txn.staged p

end EndTxn

theorem raise_txn (p m : Nat) (b : Block) : (raise p m b).txn = b.txn := by
  simp only [raise]
  split <;> rfl

theorem rollbackOfAPage : Claims.RollbackOfAPage := by
  intro b p r hr t base
  have hstat : rTXN_STAT base ≠ rBLK_EVT_RAW (pageBase p) := by simp [base, rTXN_STAT, rBLK_EVT_RAW]
  refine ⟨?_, ?_, ?_, ?_, ?_, ?_, ?_, fun off hs hraw => ?_⟩
  · exact (get_raise_ne p _ hstat 4).trans (txnState_endTxn p r b)
  · exact (congrArg (fun x : Txn => mapGet [] x.staged p) (raise_txn p 4 _)).trans (staged_endTxn p r b)
  · exact (get_raise_ne p _ hstat 4).trans (result_endTxn p b hr)
  · exact (get_raise_ne p _ hstat 4).trans (seq_endTxn p r b)
  · simp [t, base, rollbackOne, rd_raise_self, bit]
  · exact raise_mem p _ 4
  · exact raise_cmds p _ 4
  · exact (rd_raise_ne p _ 4 hraw).trans (rd_endTxn_ne p r b hs)

/-- Settles O18: TX_CTL's commands through the checks of a write, the branches of the rows that end the group, and the fields of TXN_STAT
that the end of a transaction writes. -/
theorem deviceTransaction : Obligations.DeviceTransaction := ⟨groupTransaction, rollbackOfAPage⟩

end Sys2Proof.Machine
end

section
/-!
PROOFS. The event registers of a page and the counters that a write clears (03 R69, R70, 05 R136, 06 R167, 07 R199, 09 R258, 12 R342):
a write that acts, through the fields of its register to what they clear, and the obligation `EventsAndCounters` assembled from them.
-/

namespace Sys2Proof.Machine

/-! ### Registers of a page by their place in it -/

section Place

variable {p o off : Nat} (ho : o < 4096) (hoff : off = pageBase p + o)

include ho hoff

theorem page_of_place : off / 4096 = p := by
  subst hoff
  simp only [pageBase]
  omega

theorem offset_of_place : off % 4096 = o := by
  subst hoff
  simp only [pageBase]
  omega

end Place

/-- The page of a write that acts is assigned. -/
theorem pageOf_of_actsNow {b : Block} {port : Port} {off : Nat} {v : W32} (h : actsNow b port off v = true) :
    ∃ k n, pageOf (off / 4096) = some (k, n) := by
  simp only [actsNow, Bool.and_eq_true] at h
  obtain ⟨-, h⟩ := h
  split at h
  · exact absurd h Bool.false_ne_true
  · exact ⟨_, _, ‹_›⟩

/-! ### BLK_EVT_CLR and BLK_EVT_EN (03 R69, R70) -/

section Events

variable {port : Port} {p : Nat} {v : W32} {b : Block}

theorem rBLK_EVT_CLR_div : rBLK_EVT_CLR (pageBase p) / 4096 = p := page_of_place (o := 0x018) (by omega) rfl

theorem rBLK_EVT_CLR_mod : rBLK_EVT_CLR (pageBase p) % 4096 = 0x018 := offset_of_place (o := 0x018) (by omega) rfl

theorem rBLK_EVT_EN_div : rBLK_EVT_EN (pageBase p) / 4096 = p := page_of_place (o := 0x014) (by omega) rfl

theorem rBLK_EVT_EN_mod : rBLK_EVT_EN (pageBase p) % 4096 = 0x014 := offset_of_place (o := 0x014) (by omega) rfl

/-- No page has a WO field in its event registers. -/
theorem applyWo_events {off : Nat} (ho : off % 4096 = 0x014 ∨ off % 4096 = 0x018) : applyWo port off v b = b := by
  cases hp : pageOf (off / 4096) with
  | none => simp only [applyWo, hp]
  | some kn =>
    obtain ⟨k, n⟩ := kn
    rcases ho with ho | ho
    · cases k <;> simp [applyWo, hp, ho]
    · cases k <;> simp [applyWo, hp, ho]

/-- BLK_EVT_CLR has no RW field that acts, on any page. -/
theorem applyRw_evtClr {k : PageKind} {n : Nat} (hp : pageOf p = some (k, n)) :
    applyRw (rBLK_EVT_CLR (pageBase p)) v b = storeRw (rBLK_EVT_CLR (pageBase p)) v b := by
  cases k <;> simp [applyRw, rBLK_EVT_CLR_div, rBLK_EVT_CLR_mod, hp]

theorem regWriteAt_evtClr (h : actsNow b port (rBLK_EVT_CLR (pageBase p)) v = true) :
    regWriteAt port (rBLK_EVT_CLR (pageBase p)) 4 v b =
      applyEvtClr p v (storeRw (rBLK_EVT_CLR (pageBase p)) v (granted port p b)) := by
  obtain ⟨k, n, hp⟩ := pageOf_of_actsNow h
  rw [rBLK_EVT_CLR_div] at hp
  rw [regWriteAt_acts port _ v b h, applyWo_events (.inr rBLK_EVT_CLR_mod), applyW1c, if_pos rBLK_EVT_CLR_mod, rBLK_EVT_CLR_div,
    applyRw_evtClr hp]

theorem regWriteAt_evtEn (h : actsNow b port (rBLK_EVT_EN (pageBase p)) v = true) :
    regWriteAt port (rBLK_EVT_EN (pageBase p)) 4 v b = applyEvtEn p v (granted port p b) := by
  obtain ⟨k, n, hp⟩ := pageOf_of_actsNow h
  have halert : rBLK_EVT_EN (pageBase p) ≠ rPW_ALERT := fun heq => absurd (heq ▸ rBLK_EVT_EN_mod (p := p)) (by decide)
  rw [rBLK_EVT_EN_div] at hp
  rw [regWriteAt_acts port _ v b h, applyWo_events (.inl rBLK_EVT_EN_mod), applyW1c, rBLK_EVT_EN_mod, if_neg (by decide), if_neg halert]
  simp only [applyRw, rBLK_EVT_EN_div, hp, rBLK_EVT_EN_mod, if_true]

end Events

theorem pageEvents : Claims.PageEvents := by
  intro s port p v b base
  refine ⟨fun h => run_of_eq ?_, fun h => run_of_eq ?_⟩
  · have hraw : rd (storeRw (rBLK_EVT_CLR base) v b) (rBLK_EVT_RAW base) = rd b (rBLK_EVT_RAW base) :=
      rd_wr_ne b _ (by simp [rBLK_EVT_CLR, rBLK_EVT_RAW])
    rw [regWriteAt_evtClr h, applyEvtClr, hraw]
  · rw [regWriteAt_evtEn h, applyEvtEn]

/-! ### The clear bits of the engines -/

/-- The kinds of page that have clear bits: the first page and how many there are (03 R67). -/
def countingPages : List (PageKind × Nat × Nat) :=
  [(.se, 0x30, 32), (.ve, 0x50, 64), (.op, 0x90, 128), (.ld, 0x110, 12), (.red, 0x14a, 2)]

theorem pageOf_counting {k : PageKind} {first count n : Nat} (hk : (k, first, count) ∈ countingPages) (hn : n < count) :
    pageOf (first + n) = some (k, n) := by
  simp only [countingPages, List.mem_cons, Prod.mk.injEq, List.not_mem_nil, or_false] at hk
  rcases hk with ⟨rfl, rfl, rfl⟩ | ⟨rfl, rfl, rfl⟩ | ⟨rfl, rfl, rfl⟩ | ⟨rfl, rfl, rfl⟩ | ⟨rfl, rfl, rfl⟩ <;>
  · rw [pageOf]
    repeat rw [if_neg (by omega)]
    rw [if_pos (by omega), Nat.add_sub_cancel_left]

theorem onBit_of_set {v : W32} {i : Nat} (h : bit v i = true) (f : Block → Block) (b : Block) : onBit v i f b = f b := if_pos h

theorem onBit_of_clear {v : W32} {i : Nat} (h : bit v i = false) (f : Block → Block) (b : Block) : onBit v i f b = b := by
  rw [onBit, h, if_neg Bool.false_ne_true]

/-- A register with clear bits: its page's kind and number, and its place in the page, behind the event registers. -/
structure CounterControl (off : Nat) (k : PageKind) (n o : Nat) : Prop where
  kind : ∃ pages, (k, pages) ∈ countingPages
  page : pageOf (off / 4096) = some (k, n)
  place : off % 4096 = o
  behind : 0x018 < o

theorem CounterControl.of_page {k : PageKind} {first count n o off : Nat} (hk : (k, first, count) ∈ countingPages) (hn : n < count)
    (ho : 0x018 < o ∧ o < 4096) (hoff : off = pageBase (first + n) + o) : CounterControl off k n o :=
  ⟨⟨_, hk⟩, by rw [page_of_place ho.2 hoff, pageOf_counting hk hn], offset_of_place ho.2 hoff, ho.1⟩

/-- A write of such a register keeps its RW bits, and then its WO fields act. -/
theorem CounterControl.writeNat {k : PageKind} {n o off : Nat} (c : CounterControl off k n o) {port : Port} {v : Nat} {b : Block}
    (h : actsNowNat b port off v = true) : writeNat port off v b =
      applyWo port off (BitVec.ofNat 32 v) (storeRw off (BitVec.ofNat 32 v) (granted port (off / 4096) b)) := by
  have hen : ¬ off % 4096 = 0x014 := c.place ▸ Nat.ne_of_gt (Nat.lt_trans (by decide) c.behind)
  have hclr : ¬ off % 4096 = 0x018 := c.place ▸ Nat.ne_of_gt c.behind
  have halert : ¬ off = rPW_ALERT := by
    rintro rfl
    have hkind : k = .pw := (by simpa [show pageOf (rPW_ALERT / 4096) = some (.pw, 0) from rfl] using c.page.symm : _ ∧ _).1
    exact absurd c.kind (by simp [hkind, countingPages])
  have hrw (b : Block) : applyRw off (BitVec.ofNat 32 v) b = storeRw off (BitVec.ofNat 32 v) b := by
    have hkind : k = .se ∨ k = .ve ∨ k = .op ∨ k = .ld ∨ k = .red := by simpa [countingPages, exists_or] using c.kind
    rcases hkind with rfl | rfl | rfl | rfl | rfl <;> simp only [applyRw, c.page, hen, if_false]
  rw [Machine.writeNat, regWriteAt_acts port off _ b h, applyW1c, if_neg hclr, if_neg halert, hrw]

/-! Where they are. -/

theorem counterControl_se {n : Nat} (h : n < 32) : CounterControl (rSE_CNT_CTL n) .se n 0x050 :=
  .of_page (first := 0x30) (by simp [countingPages]) h (by omega) (by simp only [rSE_CNT_CTL, seBase, pageBase]; omega)

theorem counterControl_ve {n : Nat} (h : n < 64) : CounterControl (rVE_CNT_CTL n) .ve n 0x048 :=
  .of_page (first := 0x50) (by simp [countingPages]) h (by omega) (by simp only [rVE_CNT_CTL, veBase, pageBase]; omega)

theorem counterControl_sfu {n : Nat} (h : n < 64) : CounterControl (rVE_SFU n) .ve n 0x080 :=
  .of_page (first := 0x50) (by simp [countingPages]) h (by omega) (by simp only [rVE_SFU, veBase, pageBase]; omega)

theorem counterControl_op {n : Nat} (h : n < 128) : CounterControl (rOP_CNT_CTL n) .op n 0x048 :=
  .of_page (first := 0x90) (by simp [countingPages]) h (by omega) (by simp only [rOP_CNT_CTL, opBase, pageBase]; omega)

theorem counterControl_ld {n : Nat} (h : n < 12) : CounterControl (rLD_CTL2 n) .ld n 0x05C :=
  .of_page (first := 0x110) (by simp [countingPages]) h (by omega) (by simp only [rLD_CTL2, ldBase, pageBase]; omega)

theorem counterControl_red {n : Nat} (h : n < 2) : CounterControl (rRED_CTL n) .red n 0x04C :=
  .of_page (first := 0x14a) (by simp [countingPages]) h (by omega) (by simp only [rRED_CTL, redBase, pageBase]; omega)

/-! What their WO fields clear. -/

section Clears

variable {port : Port} {off n v : Nat} {b : Block}

theorem writeNat_se (c : CounterControl off .se n 0x050) (h : actsNowNat b port off v = true) : writeNat port off v b =
    onBit (BitVec.ofNat 32 v) 2 (fun b => wr b (rSE_ECC n) 0) (onBit (BitVec.ofNat 32 v) 1 (fun b => wr b (rSE_IDX n) 0)
      (onBit (BitVec.ofNat 32 v) 0 (fun b => clear64 (rSE_CNT_RD_LO n) (clear64 (rSE_CNT_WR_LO n) (clear64 (rSE_CNT_HOIST_LO n) b)))
        (storeRw off (BitVec.ofNat 32 v) (granted port (off / 4096) b)))) := by
  rw [c.writeNat h]
  simp only [applyWo, c.page, c.place, if_true]

theorem writeNat_ve (c : CounterControl off .ve n 0x048) (h : actsNowNat b port off v = true) : writeNat port off v b =
    onBit (BitVec.ofNat 32 v) 1 (fun b => wr b (rVE_ECC n) 0) (onBit (BitVec.ofNat 32 v) 0
      (fun b => [rVE_CNT_ISSUE_LO n, rVE_CNT_WAIT_LO n, rVE_CNT_BLOCK_LO n, rVE_CNT_PACE_LO n, rVE_CNT_SFU_LO n].foldl
        (fun b o => clear64 o b) b)
      (storeRw off (BitVec.ofNat 32 v) (granted port (off / 4096) b))) := by
  rw [c.writeNat h]
  simp only [applyWo, c.page, c.place, if_true]

theorem writeNat_sfu (c : CounterControl off .ve n 0x080) (h : actsNowNat b port off v = true) : writeNat port off v b =
    onBit (BitVec.ofNat 32 v) 31 (put (fVE_SFU_CE_TBL n) 0) (storeRw off (BitVec.ofNat 32 v) (granted port (off / 4096) b)) := by
  rw [c.writeNat h]
  simp [applyWo, c.page, c.place]

theorem writeNat_op (c : CounterControl off .op n 0x048) (h : actsNowNat b port off v = true) : writeNat port off v b =
    onBit (BitVec.ofNat 32 v) 1 (fun b => wr b (rOP_ECC n) 0) (onBit (BitVec.ofNat 32 v) 0
      (fun b => [rOP_CNT_STEP_LO n, rOP_CNT_BUBBLE_LO n, rOP_CNT_FREEZE_LO n, rOP_CNT_PACE_LO n].foldl (fun b o => clear64 o b) b)
      (storeRw off (BitVec.ofNat 32 v) (granted port (off / 4096) b))) := by
  rw [c.writeNat h]
  simp only [applyWo, c.page, c.place, if_true]

theorem writeNat_ld (c : CounterControl off .ld n 0x05C) (h : actsNowNat b port off v = true) : writeNat port off v b =
    onBit (BitVec.ofNat 32 v) 0 (lodeClear n) (storeRw off (BitVec.ofNat 32 v) (granted port (off / 4096) b)) := by
  rw [c.writeNat h]
  simp only [applyWo, c.page, c.place, if_true]

theorem writeNat_red (c : CounterControl off .red n 0x04C) (h : actsNowNat b port off v = true) : writeNat port off v b =
    onBit (BitVec.ofNat 32 v) 1 (fun b => clear64 (rRED_BYTES_RX_LO n) (clear64 (rRED_BYTES_TX_LO n) b)) (onBit (BitVec.ofNat 32 v) 0
      (fun b => wr (wr (wr b (rRED_CNT n) 0) (rRED_CNT2 n) 0) (rRED_ECC n) 0)
      (storeRw off (BitVec.ofNat 32 v) (granted port (off / 4096) b))) := by
  rw [c.writeNat h]
  simp only [applyWo, c.page, c.place, if_true]

end Clears

/-! ### The obligation -/

/-- Of the word that a clear bit makes, that bit is set and the register's others are clear. -/
theorem countersClear : Claims.CountersClear := by
  intro s port o v c l half
  refine ⟨fun h => run_of_eq ?_, fun h => run_of_eq ?_, fun h => run_of_eq ?_, fun h => run_of_eq ?_, fun h => run_of_eq ?_,
    fun h => run_of_eq ?_, fun h => run_of_eq ?_, fun h => run_of_eq ?_, fun h => run_of_eq ?_, fun h => run_of_eq ?_,
    fun h => run_of_eq ?_⟩
  · rw [writeNat_op (counterControl_op o.isLt) h, onBit_of_clear rfl, onBit_of_set rfl]
    rfl
  · rw [writeNat_op (counterControl_op o.isLt) h, onBit_of_set rfl, onBit_of_clear rfl]
    rfl
  · rw [writeNat_ve (counterControl_ve v.isLt) h, onBit_of_clear rfl, onBit_of_set rfl]
    rfl
  · rw [writeNat_ve (counterControl_ve v.isLt) h, onBit_of_set rfl, onBit_of_clear rfl]
    rfl
  · rw [writeNat_sfu (counterControl_sfu v.isLt) h, onBit_of_set rfl]
    rfl
  · rw [writeNat_se (counterControl_se c.isLt) h, onBit_of_clear rfl, onBit_of_clear rfl, onBit_of_set rfl]
    rfl
  · rw [writeNat_se (counterControl_se c.isLt) h, onBit_of_clear rfl, onBit_of_set rfl, onBit_of_clear rfl]
    rfl
  · rw [writeNat_se (counterControl_se c.isLt) h, onBit_of_set rfl, onBit_of_clear rfl, onBit_of_clear rfl]
    rfl
  · rw [writeNat_ld (counterControl_ld l.isLt) h, onBit_of_set rfl]
    rfl
  · rw [writeNat_red (counterControl_red half.isLt) h, onBit_of_clear rfl, onBit_of_set rfl]
    rfl
  · rw [writeNat_red (counterControl_red half.isLt) h, onBit_of_set rfl, onBit_of_clear rfl]
    rfl

/-- Settles O20: the event registers of any page, and of each engine's clear bits the one that its word sets. -/
theorem eventsAndCounters : Obligations.EventsAndCounters := ⟨pageEvents, countersClear⟩

end Sys2Proof.Machine
end

section
/-!
PROOFS. What follows from a command while a roll steps a processor (16 R462), and the refutation of `SettleOfAQuietBlock`.
-/

namespace Sys2Proof.Machine

/-- The block after reset, but that a roll has come to SEC and SEC has not yet stopped: no command waits, and no attestation is under way
that must end first. -/
def secSteps : Block := setFw (fun w => { w with stepping := some 0 }) Block.reset

theorem secSteps_quiet : secSteps.quiet = true := by decide

/-- SEC stops and reloads with whatever command comes next. -/
theorem halted_settle_secSteps : (settle secSteps).fw.halted = true := by decide

/-- Refutes O7: `Block.quiet` does not ask that no roll steps a processor. In `secSteps` the processor that the roll has come to stops
(16 R462), which is state of the firmware and no register. -/
theorem not_settleOfAQuietBlock : ¬ Obligations.SettleOfAQuietBlock := by
  intro h
  obtain ⟨hframe, -, -⟩ := h secSteps secSteps_quiet
  have hkept : (settle secSteps).fw.halted = secSteps.fw.halted := congrArg (fun b : Block => b.fw.halted) hframe
  rw [halted_settle_secSteps] at hkept
  exact absurd hkept (by decide)

end Sys2Proof.Machine
end

section
/-!
PROOFS. Chunk messages and the timers of a collective (12 R317–R320, R335–R338, R342, 11 R301): a message of this device's generation
through the check of R301 and its half's engine to its classification, the branches of each timer, and the obligation `ChunksAndTimers`.
-/

namespace Sys2Proof.Machine

/-! ### The check of the generation (11 R301) -/

theorem newer16_self (g : Nat) : newer16 g g = false := by
  have hsame : (g + 65536 - g % 65536) % 65536 = 0 := by omega
  simp [newer16, hsame]

theorem genGate_of_own {b : Block} {mgen : Nat} (h : mgen = gen b) : genGate b mgen = .accept := by
  subst h
  simp only [genGate, gen, newer16_self, Bool.false_eq_true, if_false]

/-- What R301 finds of a message of class 1, 2 or 5 of this device's generation. -/
theorem gated_of_own {m : Msg} {b : Block} (hrole : role b ≠ 0) (hgen : m.mgen = gen b) (f : Block → Block) :
    gated m f b = f (hears m.src (takeMsg m b)) := by
  have hrole' : get (hears m.src (takeMsg m b)) fGG_STATE_ROLE ≠ 0 := hrole
  have hgate : genGate (hears m.src (takeMsg m b)) m.mgen = .accept := genGate_of_own hgen
  simp only [gated, if_neg hrole', hgate]

/-- The same for a message without a given layout. -/
theorem gangGate_of_own {b : Block} (hrole : role b ≠ 0) (src : Nat) (g : GangMsg) (f : Block → Block) :
    gangGate src (gen b) g f b = f (setGang (fun x => { x with heldGang := x.heldGang.erase (src, gen b, g) }) (hears src b)) := by
  have hrole' : role (hears src b) ≠ 0 := hrole
  have hgate : genGate (hears src b) (gen b) = .accept := genGate_of_own rfl
  simp only [gangGate, if_neg hrole', hgate]

/-! ### A chunk message on its way to its bucket (12 R322, R342) -/

/-- Counting a message writes registers of the half's engine alone. -/
theorem get_countRxOnce {half : Nat} {m : Msg} {b : Block} {f : Fld} (hf : f.off < 0x14a000) : get (countRxOnce half m b) f = get b f := by
  have hcount : get (countRx half m b) f = get b f := by
    rw [countRx, count64, wr64, get_wr_ne _ _ (by simp only [rRED_BYTES_RX_LO, redBase]; omega),
      get_wr_ne _ _ (by simp only [rRED_BYTES_RX_LO, redBase]; omega)]
  have hheld (b : Block) (l : List Msg) : get { b with gang := { b.gang with counted := l } } f = get b f := rfl
  simp only [countRxOnce]
  split
  · rfl
  · split
    · rw [hheld, hcount]
    · exact hcount

/-- The block in which the engine of its half handles a message: counted, taken, heard, and the adit granted. -/
def chunkArrived (a : Nat) (m : Msg) (b : Block) : Block :=
  redGrant (aditHalf a) (a % 9) (hears m.src (takeMsg m (countRxOnce (aditHalf a) m b)))

theorem chunkMsg_of_off {a : Nat} {m : Msg} {b : Block} (hoff : domOn b (domRed (aditHalf a)) = false) (f : Nat → Block → Block) :
    chunkMsg a m f b = b := by
  simp [chunkMsg, hoff]

theorem chunkMsg_of_own {a : Nat} {m : Msg} {b : Block} (hdst : m.dst = devId b) (hcls : m.cls = 1) (hrole : role b ≠ 0)
    (hgen : m.mgen = gen b) (hon : domOn b (domRed (aditHalf a)) = true)
    (hcross : crossClass (aditHalf a) m (chunkArrived a m b) = none) (f : Nat → Block → Block) :
    chunkMsg a m f b = f (aditHalf a) (chunkArrived a m b) := by
  have hrole' : role (countRxOnce (aditHalf a) m b) ≠ 0 := by rwa [role, get_countRxOnce (by decide), ← role]
  have hgen' : m.mgen = gen (countRxOnce (aditHalf a) m b) := by rwa [gen, get_countRxOnce (by decide), ← gen]
  have hmine : ¬ (m.dst ≠ devId b ∨ (m.cls ≠ 1 ∧ m.cls ≠ 2) ∨ (!domOn b (domRed (aditHalf a))) = true) := by simp [hdst, hcls, hon]
  simp only [chunkMsg, if_neg hmine, gated_of_own hrole' hgen']
  change (crossClass (aditHalf a) m (chunkArrived a m b)).getD _ = _
  rw [hcross]
  rfl

/-! ### Classification (12 R319) -/

/-- The fields of a message that are the bucket's, and those that its KIND states zero (R317). -/
structure ChunkHdr.Fits (h : ChunkHdr) (c : Coll) : Prop where
  zeros : h.zeros (c.kind == 1) = true
  group : h.group = c.group
  op : h.op = c.op
  agreed : h.agreed = c.agreed
  elems : h.elems = c.elems

section Classify

variable {half : Nat} {m : Msg} {b : Block} {c : Coll}
  (hfind : b.colls.find? (fun x => !x.complete && x.tally % 65536 == (chunkHdr m.payload).tally % 65536) = some c)
  (htally : c.tally = (chunkHdr m.payload).tally)

include hfind htally

theorem classify_of_older (hround : roundCmp c.round (chunkHdr m.payload).round = 1) (kinds : List Nat)
    (expected : Coll → ChunkHdr → Bool) (use : Coll → ChunkHdr → Block → Block) :
    classify half m kinds expected use b = setColl { c with stale := c.stale + 1 } (countStale half b) := by
  simp only [classify, hfind, if_pos htally, hround]

theorem classify_of_current (hround : roundCmp c.round (chunkHdr m.payload).round = 0) (hfits : (chunkHdr m.payload).Fits c)
    {kind : Nat} (hkind : (chunkHdr m.payload).kind = kind) {expected : Coll → ChunkHdr → Bool}
    (hexp : expected c (chunkHdr m.payload) = true) (use : Coll → ChunkHdr → Block → Block) :
    classify half m [kind] expected use b = use c (chunkHdr m.payload) b := by
  have hlisted : [kind].contains (chunkHdr m.payload).kind = true := by simp [hkind]
  simp only [classify, hfind, if_pos htally, hround, hlisted, hfits.zeros, hfits.group, hfits.op, hfits.agreed, hfits.elems, hexp,
    bne_self_eq_false, Bool.not_true, Bool.and_false, Bool.or_false, Bool.false_eq_true, if_false]

end Classify

/-! ### The rows of chunk messages -/

/-- The rows that a chunk message can be. -/
def ChunkRow (a : Fin 18) (m : Msg) (ups : List Upset) (i : Instr) : Prop :=
  i = .chunkDataRow a m ups ∨ i = .chunkGrantRow a m ∨ i = .chunkAbortRow a m ∨ i = .chunkClose a m ∨ i = .chunkClosed a m ∨
    i = .chunkRestart a m

/-- Each row is a chunk message that is classified, an ABORT where it is not the master's own marker. -/
theorem exec_chunkRow {s : State} {a : Fin 18} {m : Msg} {ups : List Upset} {i : Instr} (hi : ChunkRow a m ups i) (hcls : m.cls = 1) :
    ∃ f, exec i s = s.run (hostGated (chunkMsg a m f)) ∧ ∀ half b, masterMarker b m = false →
      ∃ kinds expected use, f half b = classify half m kinds expected use b := by
  rcases hi with rfl | rfl | rfl | rfl | rfl | rfl
  · exact ⟨_, rfl, fun half b _ => ⟨_, _, _, if_pos hcls⟩⟩
  · exact ⟨_, rfl, fun half b _ => ⟨_, _, _, if_pos hcls⟩⟩
  · exact ⟨_, rfl, fun half b hmarker => ⟨_, _, _, (if_neg (by omega)).trans (if_neg (by simp [hmarker]))⟩⟩
  · exact ⟨_, rfl, fun half b _ => ⟨_, _, _, if_pos hcls⟩⟩
  · exact ⟨_, rfl, fun half b _ => ⟨_, _, _, if_pos hcls⟩⟩
  · exact ⟨_, rfl, fun half b _ => ⟨_, _, _, if_pos hcls⟩⟩

section Rows

variable {s : State} {a : Fin 18} {m : Msg} (hclear : hostClear s.blk = true) (hdst : m.dst = devId s.blk) (hcls : m.cls = 1)
  (hrole : role s.blk ≠ 0) (hgen : m.mgen = gen s.blk) (hon : domOn s.blk (domRed (aditHalf a)) = true)
  (hcross : crossClass (aditHalf a) m (chunkArrived a m s.blk) = none)

include hclear hdst hcls hrole hgen hon hcross

theorem hostGated_chunkMsg (f : Nat → Block → Block) :
    hostGated (chunkMsg a m f) s.blk = f (aditHalf a) (chunkArrived a m s.blk) := by
  rw [hostGated_active _ _ hclear, chunkMsg_of_own hdst hcls hrole hgen hon hcross]

theorem chunkData_of_own (ups : List Upset) : hostGated (chunkData a m ups) s.blk =
    classify (aditHalf a) m [1] (fun c h => c.predOf c.pos == some h.pos) (useData (aditHalf a) ups m) (chunkArrived a m s.blk) :=
  (hostGated_chunkMsg hclear hdst hcls hrole hgen hon hcross _).trans (if_pos hcls)

theorem chunkGrant_of_own : hostGated (chunkGrant a m) s.blk =
    classify (aditHalf a) m [2] (fun c h => c.succOf c.pos == some h.pos) useGrant (chunkArrived a m s.blk) :=
  (hostGated_chunkMsg hclear hdst hcls hrole hgen hon hcross _).trans (if_pos hcls)

theorem chunkAbort_of_own (hmarker : masterMarker (chunkArrived a m s.blk) m = false) : hostGated (chunkAbort a m) s.blk =
    classify (aditHalf a) m [3] (fun c h => decide (h.pos < c.n) && (c.fromPos m).isSome
      && (c.fromPos m == c.predOf c.pos || c.fromPos m == c.succOf c.pos)) (useAbort m) (chunkArrived a m s.blk) :=
  (hostGated_chunkMsg hclear hdst hcls hrole hgen hon hcross _).trans ((if_neg (by omega)).trans (if_neg (by simp [hmarker])))

/-- The rows of the closing lap. -/
theorem chunkLap_of_own (kind : Nat) (use : Coll → Block → Block) : hostGated (chunkLap kind a m use) s.blk =
    classify (aditHalf a) m [kind] (fun c h => c.prevLap == some h.pos) (fun c _ => use c) (chunkArrived a m s.blk) :=
  (hostGated_chunkMsg hclear hdst hcls hrole hgen hon hcross _).trans (if_pos hcls)

end Rows

/-! ### The closing lap (12 R335, R336) -/

section Lap

variable {c : Coll} {b : Block}

theorem useClose_of_closer (hpos : c.pos = c.closer) (hsent : c.closeSent = true) : useClose c b = lapSend c 6 (collComplete c b) := by
  rw [useClose, if_pos hpos, if_pos hsent]

theorem useClose_of_finished (hpos : c.pos ≠ c.closer) (hfin : c.finished = true) :
    useClose c b = lapSend c 5 (setColl { c with closeSent := true, closeSeen := true } b) := by
  rw [useClose, if_neg hpos, if_pos hfin]

theorem useClose_of_running (hpos : c.pos ≠ c.closer) (hfin : c.finished = false) :
    useClose c b = setColl { c with closeSeen := true } b := by
  rw [useClose, if_neg hpos, hfin, if_neg Bool.false_ne_true]

theorem useRestart_of_awaited (hw : c.waitVerdict = true) :
    useRestart c b = restartRound c (if c.nextLap = some c.closer then b else lapSend c 7 b) := by
  rw [useRestart, hw, if_neg (by simp)]

end Lap

theorem chunkMessages : Claims.ChunkMessages := by
  intro s a m ups c hclear hdst hcls hrole hgen h half b
  refine ⟨fun i hi hoff => ?_, fun hon hcross hfind htally hmarker => ⟨fun i hi hround => ?_,
    fun hround hzeros hgroup hop hagreed helems => ?_⟩⟩
  · obtain ⟨f, hrun, -⟩ := exec_chunkRow (s := s) hi hcls
    rw [hrun]
    exact run_of_eq ((hostGated_active _ _ hclear).trans (chunkMsg_of_off hoff f))
  · obtain ⟨f, hrun, hclassifies⟩ := exec_chunkRow (s := s) hi hcls
    obtain ⟨kinds, expected, use, hclass⟩ := hclassifies half b hmarker
    rw [hrun]
    exact run_of_eq ((hostGated_chunkMsg hclear hdst hcls hrole hgen hon hcross f).trans
      (hclass.trans (classify_of_older hfind htally hround kinds expected use)))
  · have hfits : h.Fits c := ⟨hzeros, hgroup, hop, hagreed, helems⟩
    have hcurrent {kind : Nat} (hkind : h.kind = kind) {expected : Coll → ChunkHdr → Bool} (hexp : expected c h = true)
        (use : Coll → ChunkHdr → Block → Block) : classify half m [kind] expected use b = use c h b :=
      classify_of_current hfind htally hround hfits hkind hexp use
    have hlap {kind : Nat} (hkind : h.kind = kind) (hfrom : c.prevLap = some h.pos) (use : Coll → Block → Block) :
        hostGated (chunkLap kind a m use) s.blk = use c b :=
      (chunkLap_of_own hclear hdst hcls hrole hgen hon hcross kind use).trans (hcurrent hkind (by simpa using hfrom) fun c _ => use c)
    refine ⟨fun hkind hfrom => ?_, fun hkind hfrom => ?_, fun hkind hpos hsome hside => ?_,
      fun hkind hfrom => ⟨fun hc hsent => ?_, fun hc hfin => ?_, fun hc hfin => ?_⟩, fun hkind hfrom => ?_, fun hkind hfrom hw => ?_⟩
    · exact run_of_eq ((chunkData_of_own hclear hdst hcls hrole hgen hon hcross ups).trans
        (hcurrent hkind (by simpa using hfrom) _))
    · exact run_of_eq ((chunkGrant_of_own hclear hdst hcls hrole hgen hon hcross).trans
        (hcurrent hkind (by simpa using hfrom) useGrant))
    · have hexp : (decide (h.pos < c.n) && (c.fromPos m).isSome
          && (c.fromPos m == c.predOf c.pos || c.fromPos m == c.succOf c.pos)) = true := by
        simpa [hpos, Option.isSome_iff_ne_none, hsome] using hside
      exact run_of_eq ((chunkAbort_of_own hclear hdst hcls hrole hgen hon hcross hmarker).trans (hcurrent hkind hexp (useAbort m)))
    · exact run_of_eq ((hlap hkind hfrom useClose).trans (useClose_of_closer hc hsent))
    · exact run_of_eq ((hlap hkind hfrom useClose).trans (useClose_of_finished hc hfin))
    · exact run_of_eq ((hlap hkind hfrom useClose).trans (useClose_of_running hc hfin))
    · exact run_of_eq (hlap hkind hfrom useClosed)
    · exact run_of_eq ((hlap hkind hfrom useRestart).trans (useRestart_of_awaited hw))

/-! ### A bucket without a message (12 R320, R335, R337) -/

section Finish

variable {b : Block} {q n : Nat} {c : Coll} (hcoll : collOf b q n = some c) (hfin : c.finished = true)

include hcoll hfin

theorem collFinish_of_alone (hpos : c.pos = c.closer) (hsent : c.closeSent = false) (hnext : c.nextLap = none) :
    collFinish q n b = collComplete c b := by
  simp [collFinish, hcoll, hfin, hpos, hsent, hnext]

theorem collFinish_of_closer (hpos : c.pos = c.closer) (hsent : c.closeSent = false) (hnext : c.nextLap ≠ none) :
    collFinish q n b = lapSend c 5 (setColl { c with closeSent := true } b) := by
  simp [collFinish, hcoll, hfin, hpos, hsent, hnext]

theorem collFinish_of_held (hpos : c.pos ≠ c.closer) (hseen : c.closeSeen = true) (hsent : c.closeSent = false) :
    collFinish q n b = lapSend c 5 (setColl { c with closeSent := true } b) := by
  simp [collFinish, hcoll, hfin, hpos, hseen, hsent]

end Finish

section Timers

variable {b : Block} {q n : Nat}

theorem grantTimer_of_untold {c : Coll} (hcoll : collOf b q n = some c) (hc : c.complete = false) (htold : c.freed ≠ c.told)
    (hw : c.waitVerdict = false) : grantTimer q n b = setColl (grant c b).1 (grant c b).2 := by
  simp [grantTimer, hcoll, hc, htold, hw]

theorem barrierTimeout_of_waiting {c : Coll} (hcoll : collOf b q n = some c) (hc : c.complete = false)
    (hwait : c.sendQ = [] ∨ c.granted ≤ c.sent) (hrole : role b ≠ 0) :
    barrierTimeout q n b = waitReport c.tally c.group (waitsOn c) b := by
  have hnothing : (!c.sendQ.isEmpty && decide (c.sent < c.granted)) = false := by
    rcases hwait with hempty | hno
    · simp [hempty]
    · simp [Nat.not_lt.mpr hno]
  simp [barrierTimeout, hcoll, hc, hnothing, hrole]

theorem barrierTimeout_of_scan {c : Cmd} {j : Job} {d : Nat} (hcoll : collOf b q n = none) (hj : jobCmd b (some (q, n)) = some (c, j))
    (hd : scanSucc b c = some d) (hwait : scanWaitsGrant c j = true) (hrole : role b ≠ 0) :
    barrierTimeout q n b = waitReport c.scanTally c.scanGroup d b := by
  simp [barrierTimeout, hcoll, hj, hd, hwait, hrole]

theorem waitReportIn_of_master (hrole : role b = 3) (src tally grp waits : Nat) : waitReportIn src (gen b) tally grp waits b =
    addReport src tally grp waits
      (setGang (fun x => { x with heldGang := x.heldGang.erase (src, gen b, .waitReport tally grp waits) }) (hears src b)) := by
  rw [waitReportIn, gangGate_of_own (by omega)]
  exact if_pos hrole

end Timers

/-- The devices that others wait on and that have not reported themselves. -/
def silentOf (r : Reports) : List Nat :=
  ((r.got.map (fun p => p.2)).filter (fun d => !r.got.any (fun p => p.1 == d))).eraseDups

section Gather

variable {b : Block} {tally : Nat} {r : Reports} (hrole : role b = 3) (hr : b.reports.find? (fun r => r.tally == tally) = some r)

include hrole hr

theorem gatherEnd_of_silent (hsilent : silentOf r ≠ []) : gatherEnd tally b =
    declareMembers (silentOf r) 4 2 { b with reports := b.reports.filter (fun x => x.tally != tally) } := by
  have hmaster : ¬ role { b with reports := b.reports.filter (fun x => x.tally != tally) } ≠ 3 := not_not.mpr hrole
  have hsome : (silentOf r).isEmpty = false := by simpa using hsilent
  simp only [silentOf] at hsome
  simp only [gatherEnd, hr, if_neg hmaster, hsome, Bool.false_eq_true, if_false, silentOf]

theorem gatherEnd_of_heard (hsilent : silentOf r = []) {g : Group} (hg : groupOf b r.group = some g) : gatherEnd tally b =
    let t : Block := { b with reports := b.reports.filter (fun x => x.tally != tally) }
    collTimedOut tally ((g.drift.filter (fun d => d != devId b)).foldl (fun t d => sendMsg d 1 0 (timeoutMarker t r) t) t) := by
  have hmaster : ¬ role { b with reports := b.reports.filter (fun x => x.tally != tally) } ≠ 3 := not_not.mpr hrole
  have hg' : groupOf { b with reports := b.reports.filter (fun x => x.tally != tally) } r.group = some g := hg
  simp only [silentOf] at hsilent
  simp only [gatherEnd, hr, if_neg hmaster, hsilent, List.isEmpty_nil, if_true, hg']
  rfl

end Gather

theorem collectiveTimers : Claims.CollectiveTimers := by
  intro s q n
  refine ⟨fun c hcoll hclear hfin => ?_, fun c hcoll hc htold hw => ?_, fun c hcoll hc hwait hrole => ?_,
    fun c j d hcoll hj hd hwait hrole => ?_, fun src tally grp waits hrole => ?_, fun tally r hrole hr =>
    ⟨fun hsilent => ?_, fun hsilent g hg => ?_⟩⟩
  · have hgate : hostGated (collFinish q n) s.blk = collFinish q n s.blk := hostGated_active _ _ hclear
    exact ⟨fun hpos hsent hnext => run_of_eq (hgate.trans (collFinish_of_alone hcoll hfin hpos hsent hnext)),
      fun hpos hsent hnext => run_of_eq (hgate.trans (collFinish_of_closer hcoll hfin hpos hsent hnext)),
      fun hpos hseen hsent => run_of_eq (hgate.trans (collFinish_of_held hcoll hfin hpos hseen hsent))⟩
  · exact run_of_eq (grantTimer_of_untold hcoll hc htold hw)
  · exact run_of_eq (barrierTimeout_of_waiting hcoll hc hwait hrole)
  · exact run_of_eq (barrierTimeout_of_scan hcoll hj hd hwait hrole)
  · exact run_of_eq (waitReportIn_of_master hrole src tally grp waits)
  · exact run_of_eq (gatherEnd_of_silent hrole hr hsilent)
  · exact run_of_eq (gatherEnd_of_heard hrole hr hsilent hg)

/-- Settles O36: a message of this generation is classified on the block in which its engine has taken it up, and each timer by its
branches. -/
theorem chunksAndTimers : Obligations.ChunksAndTimers := ⟨chunkMessages, collectiveTimers⟩

end Sys2Proof.Machine
end

section
/-!
PROOFS. A write of bytes to memory (04 R108, 10 R260, R272, R273): the list of poisoned words stays in its canonical form, a storage word of
HBM written whole takes the poison of what is written, and the obligation `MemoryReadsBack`.
-/

namespace Sys2Proof.Machine

/-! ### The list of poisoned words -/

theorem rising_iff_pairwise (l : List Nat) : rising l = true ↔ l.Pairwise (· < ·) := by
  rw [← List.isChain_iff_pairwise]
  induction l using rising.induct with
  | case1 => simp [rising]
  | case2 a => simp [rising]
  | case3 a b l ih => rw [rising, Bool.and_eq_true, decide_eq_true_iff, ih, List.isChain_cons_cons]

theorem mem_setInsert {l : List Nat} {k x : Nat} : x ∈ setInsert l k ↔ x = k ∨ x ∈ l := by
  induction l with
  | nil => simp [setInsert]
  | cons h t ih =>
    simp only [setInsert]
    split
    · simp
    · split
      · next hk => simp [hk]
      · simp only [List.mem_cons, ih]
        tauto

theorem rising_setInsert {l : List Nat} (h : rising l = true) (k : Nat) : rising (setInsert l k) = true := by
  rw [rising_iff_pairwise] at *
  induction l with
  | nil => exact List.pairwise_singleton _ k
  | cons a t ih =>
    obtain ⟨hhead, htail⟩ := List.pairwise_cons.mp h
    simp only [setInsert]
    split
    · next hk => exact List.pairwise_cons.mpr ⟨List.forall_mem_cons.mpr ⟨hk, fun x hx => hk.trans (hhead x hx)⟩, h⟩
    · split
      · exact h
      · refine List.pairwise_cons.mpr ⟨fun x hx => ?_, ih htail⟩
        rcases mem_setInsert.mp hx with rfl | hx
        · omega
        · exact hhead x hx

theorem rising_setErase {l : List Nat} (h : rising l = true) (k : Nat) : rising (setErase l k) = true := by
  rw [rising_iff_pairwise] at *
  exact h.filter _

theorem rising_setPoison {b : Block} (h : rising b.poison = true) (w : Nat) (p : Bool) : rising (setPoison b w p).poison = true := by
  cases p with
  | true => exact rising_setInsert h w
  | false => exact rising_setErase h w

/-- A word reads the poison that it was marked with, every other word as before. -/
theorem poisoned_setPoison (b : Block) (w : Nat) (p : Bool) (pa : Nat) :
    poisoned (setPoison b w p) pa = if pa / 4 * 4 = w then p else poisoned b pa := by
  rw [Bool.eq_iff_iff]
  cases p with
  | true => simp [poisoned, setPoison, mem_setInsert]
  | false => simp [poisoned, setPoison, setErase, and_comm]

/-! ### What a write of bytes leaves -/

theorem rising_poisonAfter (pa n : Nat) (src : Nat → Bool) (u unit : Nat) {b : Block} (h : rising b.poison = true) :
    rising (poisonAfter pa n src u unit b).poison = true := by
  simp only [poisonAfter]
  exact foldl_inv (fun b => rising b.poison = true) _ (fun b i hb => rising_setPoison hb _ _) _ b h

@[simp] theorem fillWord_poison (b : Block) (w : Nat) : (fillWord b w).poison = b.poison := by
  simp only [fillWord]
  split <;> rfl

@[simp] theorem fillWrote_poison (pa n : Nat) (b : Block) : (fillWrote pa n b).poison = b.poison := by
  simp only [fillWrote]
  split
  · exact foldl_keeps (fun b : Block => b.poison) _ (fun b i => fillWord_poison b _) _ _
  · rfl

theorem rising_memWriteP (pa : Nat) (bs : List Byte) (src : Nat → Bool) {b : Block} (h : rising b.poison = true) :
    rising (memWriteP pa bs src b).poison = true := by
  simp only [memWriteP]
  refine foldl_inv (fun b => rising b.poison = true) _ (fun b i hb => rising_poisonAfter _ _ _ _ _ hb) _ _ ?_
  rw [fillWrote_poison]
  exact h

/-- A write of bytes keeps memory and poison in their canonical form. -/
theorem memOk_memWriteP (pa : Nat) (bs : List Byte) (src : Nat → Bool) {b : Block} (h : b.memOk = true) :
    (memWriteP pa bs src b).memOk = true := by
  obtain ⟨hmem, hpoison⟩ := (Bool.and_eq_true _ _).mp h
  exact (Bool.and_eq_true _ _).mpr ⟨memWriteP_wf pa bs src b hmem, rising_memWriteP pa bs src hpoison⟩

theorem memByte_memWriteP_at (pa : Nat) {i : Nat} {bs : List Byte} (src : Nat → Bool) (b : Block) (h : i < bs.length) :
    memByte (memWriteP pa bs src b) (pa + i) = bs.getD i 0 := by
  rw [memByte, memWriteP_mem, memPut_at bs _ _ _ h]

theorem memByte_memWriteP_ne {pa a : Nat} {bs : List Byte} (src : Nat → Bool) (b : Block) (h : a < pa ∨ pa + bs.length ≤ a) :
    memByte (memWriteP pa bs src b) a = memByte b a := by
  rw [memByte, memWriteP_mem]
  rcases h with h | h
  · exact memPut_below bs _ _ _ h
  · exact memPut_above bs _ _ _ h

theorem memWriteP_cmds (pa : Nat) (bs : List Byte) (src : Nat → Bool) (b : Block) : (memWriteP pa bs src b).cmds = b.cmds :=
  memWriteP_keeps (·.cmds) (fun _ _ => rfl) (fun _ _ _ => rfl) (fun _ _ _ => rfl) pa bs src b

/-! ### A storage word of HBM written whole (10 R272, R273) -/

theorem poisonUnit_of_hbm {pa : Nat} (h : pa < 0x8000000000) : poisonUnit pa = 8 := by
  simp only [poisonUnit, rangeOf, if_pos h]

/-- A unit of 8 bytes that the write covers takes the poison of what is written, and its own plays no part. -/
theorem poisonAfter_of_whole (pa : Nat) (src : Nat → Bool) (b : Block) : poisonAfter pa 8 src pa 8 b =
    setPoison (setPoison b pa ((List.range 8).any src)) (pa + 4) ((List.range 8).any src) := by
  simp [poisonAfter, List.range_succ]

theorem memWriteP_of_word {pa : Nat} {bs : List Byte} (ha : pa % 8 = 0) (hpa : pa < 0x8000000000) (hn : bs.length = 8)
    (src : Nat → Bool) (b : Block) : memWriteP pa bs src b =
    poisonAfter pa 8 src pa 8 (fillWrote pa 8 { b with mem := memPut b.mem pa bs }) := by
  have hfirst : pa / 8 * 8 = pa := Nat.div_mul_cancel (Nat.dvd_of_mod_eq_zero ha)
  have hunits : (pa + 8 + 8 - 1) / 8 - pa / 8 = 1 := by omega
  simp only [memWriteP, poisonUnit_of_hbm hpa, hn, hunits, List.range_one, List.foldl_cons, List.foldl_nil, Nat.add_zero, hfirst]

theorem poisoned_memWriteP_of_word {pa : Nat} {bs : List Byte} (ha : pa % 8 = 0) (hpa : pa < 0x8000000000) (hn : bs.length = 8)
    (src : Nat → Bool) (b : Block) : poisoned (memWriteP pa bs src b) pa = (List.range 8).any src ∧
    poisoned (memWriteP pa bs src b) (pa + 4) = (List.range 8).any src := by
  have hlow : pa / 4 * 4 = pa := by omega
  have hhigh : (pa + 4) / 4 * 4 = pa + 4 := by omega
  rw [memWriteP_of_word ha hpa hn, poisonAfter_of_whole]
  simp only [poisoned_setPoison, hlow, hhigh, if_true, ite_self, and_self]

/-! ### The obligation -/

theorem writesReadBack : Claims.WritesReadBack := by
  intro b pa bs src hok
  exact ⟨memOk_memWriteP pa bs src hok, fun i hi => memByte_memWriteP_at pa src b hi, fun a ha => memByte_memWriteP_ne src b ha,
    memWriteP_regs pa bs src b, memWriteP_cmds pa bs src b⟩

theorem wholeWordClearsPoison : Claims.WholeWordClearsPoison := by
  intro b pa bs ha hpa hn
  obtain ⟨hlow, hhigh⟩ := poisoned_memWriteP_of_word ha (show pa < 0x8000000000 by omega) hn (fun _ => false) b
  obtain ⟨hlow', hhigh'⟩ := poisoned_memWriteP_of_word ha (show pa < 0x8000000000 by omega) hn (fun _ => true) b
  exact ⟨hlow, hhigh, hlow', hhigh'⟩

/-- Settles O26: every step of a write keeps the canonical form, and the one unit that a whole word is takes the poison written. -/
theorem memoryReadsBack : Obligations.MemoryReadsBack := ⟨writesReadBack, wholeWordClearsPoison⟩

end Sys2Proof.Machine
end

section
/-!
PROOFS. Transactions of the host and of the device on a Chaell port (15 R405, R408–R411): one equation for each branch of the rows that take
and send them, and the obligation `HostPort` assembled from them.
-/

namespace Sys2Proof.Machine

/-! ### Ports -/

@[simp] theorem chPort_setPort_self (p : Nat) (x : ChPort) (b : Block) : chPort (setPort p x b) p = x := mapGet_set_self _ _ _ _

theorem chPort_memWriteP (p pa : Nat) (bs : List Byte) (src : Nat → Bool) (b : Block) :
    chPort (memWriteP pa bs src b) p = chPort b p :=
  memWriteP_keeps (chPort · p) (fun _ _ => rfl) (fun _ _ _ => rfl) (fun _ _ _ => rfl) pa bs src b

theorem memWriteP_hostFail (pa : Nat) (bs : List Byte) (src : Nat → Bool) (b : Block) :
    (memWriteP pa bs src b).hostFail = b.hostFail :=
  memWriteP_keeps (·.hostFail) (fun _ _ => rfl) (fun _ _ _ => rfl) (fun _ _ _ => rfl) pa bs src b

/-- An ACTIVE port serves the host while ENABLE is 1 (15 R408). -/
theorem portActive_of_active {p : Nat} {b : Block} (h : portState b p = 2) : portActive b p = (chPort b p).cfgCtl.testBit 0 := by
  simp only [portActive, chPort, show get b (fCH_LINK_STATE p) = 2 from h, beq_self_eq_true, Bool.true_and]

/-- A port that carries traffic changes nothing but whether accesses to host memory fail. -/
theorem portUp_keeps {β : Type} (g : Block → β) (h : ∀ b v, g { b with hostDead := v } = g b) (p : Nat) (b : Block) :
    g (portUp p b) = g b := by
  rw [portUp]
  split
  · exact h b false
  · rfl

/-! ### The configuration block (15 R408) -/

theorem cfgBytes_length (b : Block) (p : Nat) : (cfgBytes b p).length = 64 := by
  simp [cfgBytes, leBytes_length]

/-- What is written over a block reads as written. -/
theorem fieldAt_overlay {blk data : List Byte} {off n : Nat} (h : off + data.length ≤ blk.length) (hn : n ≤ data.length) :
    fieldAt (overlay blk off data) off n = fieldAt data 0 n := by
  have hbytes : ((overlay blk off data).drop off).take n = data.take n := by
    refine List.ext_getElem (by simp [overlay]; omega) fun i hi hi' => ?_
    have hlt : i < data.length := by simp at hi'; omega
    simp [overlay, hlt]
  rw [fieldAt, hbytes, fieldAt, List.drop_zero]

/-- A port with the windows and the control bits of a configuration block. -/
def configured (n : List Byte) (x : ChPort) : ChPort :=
  { x with
    ctrlBase := fieldAt n 8 8 / 0x1000000 * 0x1000000
    memBase := fieldAt n 0x10 8 / 2 ^ 40 * 2 ^ 40
    cfgCtl := byteAt n 0x18 % 4 }

/-- With no interrupt held, none is sent. -/
theorem releaseIntr_of_none (p : Nat) {x : ChPort} (h : x.intrHeld = []) (b : Block) :
    chPort (releaseIntr p (setPort p x b)) p = x ∧ (releaseIntr p (setPort p x b)).mem = b.mem ∧
    (releaseIntr p (setPort p x b)).regs = b.regs := by
  have hself : { x with intrHeld := [] } = x := by rw [← h]
  simp only [releaseIntr, chPort_setPort_self, h, List.foldl_nil, hself]
  split <;> simp

section Config

variable {p : Nat} {t : ChTxn} {b : Block}

theorem cfgRead_of_clean (h : portState b p = 2) (hc : txnClean t false = true) : cfgRead p t b =
    chSend p (cplDataTxn t.tag (toLen t.len (slice (cfgBytes b p) t.addr t.len)) 0) b := by
  simp [cfgRead, h, hc]

/-- While ENABLE is 1 the bases stay as they are. -/
theorem cfgWrite_of_enabled (he : (chPort b p).cfgCtl.testBit 0 = true) (hlow : t.addr < 0x18) (hhigh : 8 < t.addr + t.len) :
    cfgWrite p t b = b := by
  simp [cfgWrite, he, hlow, hhigh]

variable (h : portState b p = 2) (hc : txnClean t true = true) (hp : t.poison = none)

include h hc hp

theorem cfgWrite_of_open (ho : (chPort b p).cfgCtl.testBit 0 = false ∨ 0x18 ≤ t.addr ∨ t.addr + t.len ≤ 8) : cfgWrite p t b =
    portUp p (releaseIntr p (setPort p (configured (overlay (cfgBytes b p) t.addr t.data) (chPort b p)) b)) := by
  have hopen : ¬ ((chPort b p).cfgCtl.testBit 0 = true ∧ t.addr < 0x18 ∧ 8 < t.addr + t.len) := by
    rintro ⟨he, hlow, hhigh⟩
    rcases ho with ho | ho | ho
    · exact Bool.false_ne_true (ho.symm.trans he)
    · omega
    · omega
  simp only [cfgWrite, h, hc, hp, if_neg hopen, ne_eq, not_true_eq_false, Option.isSome_none, Bool.false_eq_true, Bool.not_true,
    or_self, if_false]
  rfl

/-- Where no interrupt is held, a write of the configuration block changes the port, and nothing in memory or the registers. -/
theorem cfgWrite_leaves (ho : (chPort b p).cfgCtl.testBit 0 = false ∨ 0x18 ≤ t.addr ∨ t.addr + t.len ≤ 8)
    (hi : (chPort b p).intrHeld = []) :
    chPort (cfgWrite p t b) p = configured (overlay (cfgBytes b p) t.addr t.data) (chPort b p) ∧
    (cfgWrite p t b).mem = b.mem ∧ (cfgWrite p t b).regs = b.regs := by
  rw [cfgWrite_of_open h hc hp ho, portUp_keeps (chPort · p) (fun _ _ => rfl), portUp_keeps (·.mem) (fun _ _ => rfl),
    portUp_keeps (·.regs) (fun _ _ => rfl)]
  exact releaseIntr_of_none p (x := configured (overlay (cfgBytes b p) t.addr t.data) (chPort b p)) hi b

end Config

theorem txnClean_data_length {t : ChTxn} (h : txnClean t true = true) : t.data.length = t.len := by
  simpa using ((Bool.and_eq_true _ _).mp h).2

/-! ### Reads of the host (15 R409, R410) -/

/-- The flips come before the read that meets them (04 R107). -/
theorem hostRead_of_upsets (p : Nat) (t : ChTxn) (ups : List Upset) (b : Block) :
    hostRead p t ups b = hostRead p t [] (ups.foldl sramUpset b) := rfl

section HostRead

variable {p : Nat} {t : ChTxn} {b : Block} (h : portState b p = 2)

include h

theorem hostRead_of_disabled (he : (chPort b p).cfgCtl.testBit 0 = false) : hostRead p t [] b = chSend p (cplTxn t.tag 1) b := by
  simp [hostRead, h, portActive_of_active h, he]

variable (he : (chPort b p).cfgCtl.testBit 0 = true) (hc : txnClean t false = true)

include he hc

theorem hostRead_of_control {off : Nat} (hw : windowOf (chPort b p) t.addr = .control off) (hn : t.len = 4) : hostRead p t [] b =
    chSend p (cplDataTxn t.tag (leBytes 4 (regRead (portOf p) off 4 b).1.toNat) 0) (regRead (portOf p) off 4 b).2 := by
  simp [hostRead, h, portActive_of_active h, he, hc, hw, hn]

theorem hostRead_of_memory {pa : Nat} (hw : windowOf (chPort b p) t.addr = .memory pa) (hm : memoryHeld b pa = false)
    (hp : portHeld b pa = false) : hostRead p t [] b = windowAnswer p pa t.len t.tag b := by
  simp [hostRead, h, portActive_of_active h, he, hc, hw, hm, hp]

theorem hostRead_of_outside (hw : windowOf (chPort b p) t.addr = .outside) : hostRead p t [] b = chSend p (cplTxn t.tag 1) b := by
  simp [hostRead, h, portActive_of_active h, he, hc, hw]

end HostRead

theorem windowAnswer_eq (p pa n tag : Nat) (b : Block) : windowAnswer p pa n tag b =
    chSend p (if domOn b (domFab p) = true then cplDataTxn tag (windowBytes b pa n) (windowPoison b pa n)
      else cplDataTxn tag (leBytes n 0) 0) b := by
  rw [windowAnswer]
  split
  · rfl
  · rfl

/-! ### Writes of the host (15 R409–R411, R414) -/

theorem hostWr_of_disabled {p : Nat} {b : Block} (h : portState b p = 2) (he : (chPort b p).cfgCtl.testBit 0 = false) (t : ChTxn) :
    hostWr p t b = b := by
  simp [hostWr, portActive_of_active h, he]

section HostWrite

variable {p : Nat} {t : ChTxn} {b : Block} (h : portState b p = 2) (he : (chPort b p).cfgCtl.testBit 0 = true)
  (hc : txnClean t true = true)

include h he hc

theorem hostWr_of_outside (hw : windowOf (chPort b p) t.addr = .outside) : hostWr p t b = b := by
  simp [hostWr, portActive_of_active h, he, hc, hw]

theorem hostWr_of_poisoned_control {off : Nat} (hw : windowOf (chPort b p) t.addr = .control off) (hp : t.poison.isSome = true)
    {k : PageKind × Nat} (hk : pageOf (off / 4096) = some k) : hostWr p t b = discard (off / 4096) (off % 4096) 3 b := by
  simp [hostWr, portActive_of_active h, he, hc, hw, hp, hk]

theorem hostWr_of_poisoned_memory {pa : Nat} (hw : windowOf (chPort b p) t.addr = .memory pa) (hp : t.poison.isSome = true) :
    hostWr p t b = discardWindow 3 b := by
  simp [hostWr, portActive_of_active h, he, hc, hw, hp]

variable (hp : t.poison = none)

include hp

theorem hostWr_of_control {off : Nat} (hw : windowOf (chPort b p) t.addr = .control off) (hn : t.len = 4)
    (hq : writeWaits b p = false) : hostWr p t b = regWrite (portOf p) off (BitVec.ofNat 32 (leNat (t.data.take 4))) b := by
  simp [hostWr, portActive_of_active h, he, hc, hw, hp, hn, hq, regWrite]

/-- A write that follows a held one of its port waits behind it (15 R414). -/
theorem hostWr_of_waiting {off : Nat} (hw : windowOf (chPort b p) t.addr = .control off) (hq : writeWaits b p = true)
    (hroom : b.act.held.length < 64) : hostWr p t b =
    { b with act := { b.act with held := b.act.held ++ [⟨portOf p, true, off, true, t.data, t.len, 0, 0⟩] } } := by
  simp [hostWr, portActive_of_active h, he, hc, hw, hp, hq, hroom]

theorem hostWr_of_memory {pa : Nat} (hw : windowOf (chPort b p) t.addr = .memory pa) (hm : memoryHeld b pa = false)
    (hh : portHeld b pa = false) (hq : writeWaits b p = false) : hostWr p t b = windowStore p pa t.data b := by
  simp [hostWr, portActive_of_active h, he, hc, hw, hp, hm, hh, hq]

end HostWrite

/-- Without the fabric of the port's half no memory is reached (01 R18). -/
theorem windowStore_of_off {p : Nat} {b : Block} (h : domOn b (domFab p) = false) (pa : Nat) (bs : List Byte) :
    windowStore p pa bs b = b := by
  simp [windowStore, h]

/-- Bytes that lie within 4 KiB are written at once. -/
theorem windowStore_of_within {p pa : Nat} {bs : List Byte} {b : Block} (hon : domOn b (domFab p) = true)
    (hr : reachable b pa = true) (hne : bs ≠ []) (hwithin : pa % 4096 + bs.length ≤ 4096) :
    windowStore p pa bs b = memWrite pa bs b := by
  have hall : min bs.length (4096 - pa % 4096) = bs.length := by omega
  simp [windowStore, hon, windowWrite, hall, hr, List.length_pos_iff.mpr hne]

/-! ### Reads and writes of the device (15 R405, R409) -/

/-- The poison of each byte of a transaction: that of its line of 64 bytes (15 R411). -/
def lineMarks (t : ChTxn) (i : Nat) : Bool :=
  (match t.poison with
    | some m => m.toNat
    | none => 0).testBit (i / 64)

/-- Of the 4097 tags that are tried, fewer than 4097 outstanding reads leave one that none of them carries. -/
theorem freeTag_is_free {x : ChPort} (h : x.reads.length < 4097) : ∀ r ∈ x.reads, r.1 ≠ freeTag x := by
  have hnodup : ((List.range 4097).map (fun i => (x.nextTag + i) % 65536)).Nodup := by
    refine List.Nodup.map_on (fun i hi j hj hij => ?_) List.nodup_range
    rw [List.mem_range] at hi hj
    omega
  have hfound : (((List.range 4097).map (fun i => (x.nextTag + i) % 65536)).find?
      (fun t => !x.reads.any (fun r => r.1 == t))).isSome = true := by
    by_contra hnone
    rw [Option.not_isSome_iff_eq_none, List.find?_eq_none] at hnone
    have hsub : (List.range 4097).map (fun i => (x.nextTag + i) % 65536) ⊆ x.reads.map (·.1) := fun t ht => by
      simpa using hnone t ht
    have hlen := (hnodup.subperm hsub).length_le
    rw [List.length_map, List.length_map, List.length_range] at hlen
    omega
  obtain ⟨g, hg⟩ := Option.isSome_iff_exists.mp hfound
  have hfree := List.find?_some hg
  rw [freeTag, hg]
  simpa using hfree

theorem portFor_own {b : Block} {p : Nat} (h : portCarries b p = true) : portFor b p = some p := if_pos h

theorem portFor_other {b : Block} {p : Nat} (h : portCarries b p = false) (ho : portCarries b (1 - p) = true) :
    portFor b p = some (1 - p) := by
  simp [portFor, h, ho]

section Device

variable {half q : Nat} {t : ChTxn} {b : Block}

theorem deviceRead_of_no_port (h : portFor b half = none) : deviceRead half t b = b := by
  simp only [deviceRead, h]

theorem deviceWrite_of_no_port (h : portFor b half = none) : deviceWrite half t b = b := by
  simp only [deviceWrite, h]

variable (h : portFor b half = some q)

include h

theorem deviceRead_of_port (hc : txnClean t false = true) (hroom : (chPort b q).reads.length < 4096) : deviceRead half t b =
    chSend q { t with kind := 1, tag := freeTag (chPort b q) } (setPort q { chPort b q with
      reads := (chPort b q).reads ++ [(freeTag (chPort b q), t.addr, t.len)]
      nextTag := (freeTag (chPort b q) + 1) % 65536 } b) := by
  simp [deviceRead, h, hc, hroom]

theorem deviceWrite_of_port (hc : txnClean t true = true) : deviceWrite half t b =
    chSend q { t with kind := 2 } (memWriteP (hostPa t.addr) t.data (lineMarks t) b) := by
  simp only [deviceWrite, h, hc, Bool.not_true, Bool.false_eq_true, if_false]
  rfl

end Device

/-! ### The end of a read of the device (15 R410, R411) -/

/-- The port without the outstanding read that carries a tag. -/
def readGone (p tag : Nat) (b : Block) : Block :=
  setPort p { chPort b p with reads := (chPort b p).reads.filter (fun y => y.1 != tag) } b

section Ends

variable {p : Nat} {t : ChTxn} {r : Nat × Nat × Nat} {b : Block}
  (hr : (chPort b p).reads.find? (fun r => r.1 == t.tag) = some r)

theorem cplIn_of_addressed (h : t.addr ≠ 0) : cplIn p t b = b := by
  simp [cplIn, h]

include hr

/-- A read that fails does so for the access that it belongs to. -/
theorem endRead_of_failed : endRead p t.tag true b =
    { readGone p t.tag b with hostFail := b.hostFail ++ [(hostPa r.2.1, r.2.2)] } := by
  simp only [endRead, hr, if_true]
  rfl

theorem endRead_of_done : endRead p t.tag false b = readGone p t.tag b := by
  simp only [endRead, hr, Bool.false_eq_true, if_false]
  rfl

theorem cplDataIn_of_addressed (h : t.addr ≠ 0) : cplDataIn p t b = b := by
  simp [cplDataIn, hr, h]

variable (h : portState b p = 2) (ha : t.addr = 0)

include h ha

omit hr in
theorem cplIn_of_status (hs : t.status ≠ 0) (hs2 : t.status ≤ 2) : cplIn p t b = endRead p t.tag true b :=
  if_pos ⟨h, ha, hs, hs2⟩

theorem cplDataIn_of_status (hs : t.status ≠ 0) (hs2 : t.status ≤ 2) : cplDataIn p t b = endRead p t.tag true b := by
  simp [cplDataIn, hr, h, ha, hs, hs2]

theorem cplDataIn_of_data (hs : t.status = 0) (hn : t.data.length = r.2.2) : cplDataIn p t b =
    readGone p t.tag (memWriteP (hostPa r.2.1) t.data (lineMarks t) b) := by
  have hr' : (chPort (memWriteP (hostPa r.2.1) t.data (lineMarks t) b) p).reads.find? (fun r => r.1 == t.tag) = some r := by
    rw [chPort_memWriteP, hr]
  rw [← endRead_of_done hr']
  simp only [cplDataIn, hr, h, ha, hs, hn, ne_eq, not_true_eq_false, or_self, and_false, Nat.not_lt_zero, if_false]
  rfl

end Ends

theorem hostTimeout_of_silent {b : Block} (h : anyPortActive b = false) : hostTimeout b = { b with hostDead := true } := by
  simp [hostTimeout, h]

/-! ### The rows RD and WR, for the host and for the device -/

section Rows

variable {p : Fin 2} {t : ChTxn} {s : State} {b : Block}

theorem rdTxn_of_host {ups : List Upset} (h : hostRead p t [] (ups.foldl sramUpset s.blk) = b) :
    exec (.rdTxn p false t ups) s = .next (s.after b) :=
  run_of_eq (f := hostRead p t ups) ((hostRead_of_upsets p t ups s.blk).trans h)

theorem wrTxn_of_host (h : hostWr p t s.blk = b) : exec (.wrTxn p false t) s = .next (s.after b) := run_of_eq (f := hostWr p t) h

theorem rdTxn_of_device (ups : List Upset) (h : deviceRead p t s.blk = b) : exec (.rdTxn p true t ups) s = .next (s.after b) :=
  run_of_eq (f := deviceRead p t) h

theorem wrTxn_of_device (h : deviceWrite p t s.blk = b) : exec (.wrTxn p true t) s = .next (s.after b) :=
  run_of_eq (f := deviceWrite p t) h

end Rows

/-! ### The obligation -/

theorem hostTransactions : Claims.HostTransactions := by
  intro s p t hstate x port
  refine ⟨fun hc => ?_, fun hc hp ha hn hi => ?_, fun hc hp ho => ?_, fun hc hp he ha hn hi => ?_, fun _ he hlow hhigh => ?_,
    fun he => ?_, fun ups hb => ⟨fun he => ?_, fun he hc => ⟨fun off hw hn => ?_, fun pa hw hm hh => ?_, fun hw => ?_⟩⟩,
    fun he hc => ⟨fun off hw hn hp => ⟨fun hq => ?_, fun hq hroom => ?_⟩, fun off k hw hp hk => ?_, fun pa hw hp => ?_,
      fun pa hw hp hm hh hq hoff => ?_, fun pa hw hp hm hh hq hon hr hne hwithin => ?_, fun hw => ?_⟩⟩
  · exact run_of_eq (cfgRead_of_clean hstate hc)
  · have hdata : t.data.length = 4 := (txnClean_data_length hc).trans hn
    obtain ⟨hport, hmem, hregs⟩ := cfgWrite_leaves hstate hc hp (.inr (.inl ha.ge)) hi
    have hctl : byteAt (overlay (cfgBytes s.blk p) t.addr t.data) 0x18 = byteAt t.data 0 := by
      rw [ha]
      exact fieldAt_overlay (by rw [hdata, cfgBytes_length]; decide) (by omega)
    exact ⟨_, rfl, by rw [hport]; exact congrArg (· % 4) hctl, hmem, hregs⟩
  · exact run_of_eq (cfgWrite_of_open hstate hc hp ho)
  · have hdata : t.data.length = 8 := (txnClean_data_length hc).trans hn
    obtain ⟨hport, -, -⟩ := cfgWrite_leaves hstate hc hp (.inl he) hi
    have hbase : fieldAt (overlay (cfgBytes s.blk p) t.addr t.data) 8 8 = leNat t.data := by
      rw [ha, fieldAt_overlay (by rw [hdata, cfgBytes_length]; omega) hdata.ge, fieldAt, List.drop_zero,
        List.take_of_length_le hdata.le]
    exact ⟨_, rfl, by rw [hport]; exact congrArg (· / 0x1000000 * 0x1000000) hbase⟩
  · exact run_of_eq (cfgWrite_of_enabled he hlow hhigh)
  · exact wrTxn_of_host (hostWr_of_disabled hstate he t)
  · exact rdTxn_of_host (hostRead_of_disabled hb he)
  · exact rdTxn_of_host (hostRead_of_control hb he hc hw hn)
  · exact rdTxn_of_host ((hostRead_of_memory hb he hc hw hm hh).trans (windowAnswer_eq p pa t.len t.tag _))
  · exact rdTxn_of_host (hostRead_of_outside hb he hc hw)
  · exact wrTxn_of_host (hostWr_of_control hstate he hc hp hw hn hq)
  · exact wrTxn_of_host (hostWr_of_waiting hstate he hc hp hw hq hroom)
  · exact wrTxn_of_host (hostWr_of_poisoned_control hstate he hc hw hp hk)
  · exact wrTxn_of_host (hostWr_of_poisoned_memory hstate he hc hw hp)
  · exact wrTxn_of_host ((hostWr_of_memory hstate he hc hp hw hm hh hq).trans (windowStore_of_off hoff pa t.data))
  · exact wrTxn_of_host ((hostWr_of_memory hstate he hc hp hw hm hh hq).trans (windowStore_of_within hon hr hne hwithin))
  · exact wrTxn_of_host (hostWr_of_outside hstate he hc hw)

theorem deviceTransactions : Claims.DeviceTransactions := by
  intro s p t
  refine ⟨portFor_own, portFor_other, fun q hq => ⟨fun ups hc hroom => ⟨freeTag_is_free (by omega), ?_⟩, fun hc => ?_⟩,
    fun hnone ups => ⟨?_, ?_⟩, fun r hr => ⟨?_, fun hstate ha hs hs2 => ⟨?_, ?_⟩, fun hstate ha hs hn => ?_, fun ha => ⟨?_, ?_⟩⟩,
    fun hsilent => ?_⟩
  · exact rdTxn_of_device ups (deviceRead_of_port hq hc hroom)
  · exact wrTxn_of_device (deviceWrite_of_port hq hc)
  · exact rdTxn_of_device ups (deviceRead_of_no_port hnone)
  · exact wrTxn_of_device (deviceWrite_of_no_port hnone)
  · exact run_of_eq (endRead_of_failed hr)
  · exact run_of_eq ((cplIn_of_status hstate ha hs hs2).trans (endRead_of_failed hr))
  · exact run_of_eq ((cplDataIn_of_status hr hstate ha hs hs2).trans (endRead_of_failed hr))
  · refine ⟨_, run_of_eq (cplDataIn_of_data hr hstate ha hs hn), ?_, ?_, rfl⟩
    · rw [readGone, chPort_setPort_self, chPort_memWriteP]
    · exact memWriteP_hostFail _ _ _ _
  · exact run_of_eq (cplIn_of_addressed ha)
  · exact run_of_eq (cplDataIn_of_addressed hr ha)
  · exact run_of_eq (hostTimeout_of_silent hsilent)

/-- Settles O51: each row by its branch, on the block in which it meets the transaction. -/
theorem hostPort : Obligations.HostPort := ⟨hostTransactions, deviceTransactions⟩

end Sys2Proof.Machine
end

section
/-!
PROOFS. The outer-product engine (05 R112–R121, R131, R137): one equation for each branch of the fill pipeline, of the loading of a tile and of
the drain port, and the obligation `OuterProductEngine` assembled from them.
-/

namespace Sys2Proof.Machine

/-! ### The fill pipeline (05 R112–R117, R131, 17 R484) -/

/-- Every stage hands its group on, `q` being what enters B1 and the block that this leaves. -/
def stagesMoved (o : Nat) (x : Opu) (q : Option Grp × Block) : Block :=
  put (fOP_STATE_FROZEN o) 0
    (setOpu o { opu q.2 o with b2 := q.1, mul := x.b2, add := x.mul, frozen := 0, stalled := false } q.2)

/-- The adder starts the tile of `g` from zero and reads no accumulator word (05 R116). -/
def startsAtZero (c : Cmd) (g : Grp) : Bool := g.first && c.accInit == 0

/-- The block once the accumulator words that the adder reads for `g` are checked. -/
def addChecked (o : Nat) (c : Cmd) (g : Grp) (ups : List Upset) (b : Block) : Block :=
  if startsAtZero c g then b else opuUpsets o (g.tile % 2) ups b

/-- The adder reads a poisoned accumulator word for `g`. -/
def addPoisoned (o : Nat) (c : Cmd) (g : Grp) (b : Block) : Bool :=
  !startsAtZero c g && (opu b o).cellPois.any (fun k => k / 32768 == g.tile % 2)

section Fill

variable {o aclk : Nat} {ups : List Upset} {b : Block} {c : Cmd} {j : Job} (hj : jobCmd b (opu b o).job = some (c, j))

include hj

theorem opuCycle_of_paced (hi : issues b aclk = false) :
    opuCycle o aclk ups b = put (fOP_STATE_FROZEN o) 1 (count64 (rOP_CNT_PACE_LO o) 1 b) := by
  simp [opuCycle, hj, hi]

variable (hi : issues b aclk = true)

include hi

theorem opuCycle_of_freeze {g : Grp} (hadd : (opu b o).add = some g) (hfirst : g.first = true)
    (hfree : tileFree (opu b o) c g.tile = false) :
    opuCycle o aclk ups b = put (fOP_STATE_FROZEN o) 1
      (count64 (rOP_CNT_FREEZE_LO o) 1 (setOpu o { opu b o with frozen := (opu b o).frozen + 1 } b)) := by
  simp [opuCycle, hj, hi, hadd, hfirst, hfree]

theorem opuCycle_of_empty_adder (hadd : (opu b o).add = none) (hmul : grpPoison (opu b o).mul = false) :
    opuCycle o aclk ups b = stagesMoved o (opu b o) (enterGroup o c ups (countCycle o c b)) := by
  simp [opuCycle, stagesMoved, hj, hi, hadd, hmul]

theorem opuCycle_of_poison_behind_empty_adder (hadd : (opu b o).add = none) (hmul : grpPoison (opu b o).mul = true) :
    opuCycle o aclk ups b = poisonTask (o / 4) c.queue c.count (countCycle o c b) := by
  simp [opuCycle, hj, hi, hadd, hmul]

variable {g : Grp} (hadd : (opu b o).add = some g) (hgo : g.first = false ∨ tileFree (opu b o) c g.tile = true)

include hadd hgo

/-- A cycle in which the adder takes a group: poison at the multiplier or in what the adder reads aborts, else every stage moves. -/
theorem opuCycle_of_group : opuCycle o aclk ups b =
    if grpPoison (opu b o).mul || addPoisoned o c g (addChecked o c g ups (countCycle o c b)) then
      poisonTask (o / 4) c.queue c.count (addChecked o c g ups (countCycle o c b))
    else stagesMoved o (opu b o) (enterGroup o c ups (accumulate o c g (addChecked o c g ups (countCycle o c b)))) := by
  have hnotFrozen : (g.first && !tileFree (opu b o) c g.tile) = false := by
    rcases hgo with h | h <;> simp [h]
  simp only [opuCycle, hj, hi, hadd, hnotFrozen, Bool.not_true, Bool.false_eq_true, if_false]
  rfl

theorem opuCycle_of_clean_group (hmul : grpPoison (opu b o).mul = false)
    (hread : addPoisoned o c g (addChecked o c g ups (countCycle o c b)) = false) : opuCycle o aclk ups b =
      stagesMoved o (opu b o) (enterGroup o c ups (accumulate o c g (addChecked o c g ups (countCycle o c b)))) := by
  simp [opuCycle_of_group hj hi hadd hgo, hmul, hread]

theorem opuCycle_of_poisoned_group (hpois : grpPoison (opu b o).mul = true ∨
      addPoisoned o c g (addChecked o c g ups (countCycle o c b)) = true) :
    opuCycle o aclk ups b = poisonTask (o / 4) c.queue c.count (addChecked o c g ups (countCycle o c b)) := by
  rw [opuCycle_of_group hj hi hadd hgo, if_pos (Bool.or_eq_true _ _ ▸ hpois)]

end Fill

/-! ### Tiles, slots and the drain stall (05 R118, R125, R137) -/

theorem tileComplete_of_switch {o : Nat} {b : Block} {c : Cmd} {j : Job} (hj : jobCmd b (opu b o).job = some (c, j))
    (hswitch : (opu b o).switch = true) :
    tileComplete o b = drainState o c (put (fOP_STATE_FILL_TILE o) (((opu b o).fill + 1) % 2)
      (setOpu o { opu b o with switch := false, fill := (opu b o).fill + 1,
                               drains := (opu b o).drains ++ [((opu b o).fill, 0)] } b)) := by
  simp [tileComplete, hj, hswitch]

theorem slotFilled_of_complete {o k : Nat} {b : Block} {c : Cmd} {j : Job} (hj : jobCmd b (opu b o).job = some (c, j))
    (hslot : slotState b o k = 1) (hrows : (mapGet [] (opu b o).slots k).length =
      min 128 (c.klen - (mapGet 0 (opu b o).ords k - 1) % max c.setSlots 1 * 128)) :
    slotFilled o k b = setSlot o k 2 b := by
  simp only [slotFilled, hj, hslot, hrows, and_self, if_true]

theorem drainStall_of_over_limit {o : Nat} {b : Block} (hstalled : (opu b o).stalled = false)
    (hlimit : get b (fOP_STALL_LIMIT_LIMIT o) ≠ 0) (hover : get b (fOP_STALL_LIMIT_LIMIT o) < (opu b o).frozen) :
    drainStall o b = raise (opBase o / 4096) 16 (setOpu o { opu b o with stalled := true } b) := by
  simp [drainStall, hstalled, hlimit, Nat.not_le.mpr hover]

theorem opuRuns : Claims.OpuRuns := by
  intro s o aclk ups c j hj
  refine ⟨fun hi => ?_, fun g hi hadd hfirst hfree => ?_, fun hi hadd => ⟨fun hmul => ?_, fun hmul => ?_⟩,
    fun g hi hadd hgo => ⟨fun hmul hread => ?_, fun hpois => ?_⟩, fun hswitch => ?_, fun k hslot hrows => ?_,
    fun hstalled hlimit hover => ?_⟩
  · exact run_of_eq (opuCycle_of_paced hj hi)
  · exact run_of_eq (opuCycle_of_freeze hj hi hadd hfirst hfree)
  · exact run_of_eq (opuCycle_of_empty_adder hj hi hadd hmul)
  · exact run_of_eq (opuCycle_of_poison_behind_empty_adder hj hi hadd hmul)
  · exact run_of_eq (opuCycle_of_clean_group hj hi hadd hgo hmul hread)
  · exact run_of_eq (opuCycle_of_poisoned_group hj hi hadd hgo hpois)
  · exact run_of_eq (tileComplete_of_switch hj hswitch)
  · exact run_of_eq (slotFilled_of_complete hj hslot hrows)
  · exact run_of_eq (drainStall_of_over_limit hstalled hlimit hover)

/-! ### Rows that enter a tile (05 R116, R119) -/

theorem loadRow_of_paced {o aclk : Nat} {b : Block} (ups : List Upset) (hi : issues b aclk = false) : loadRow o aclk ups b = b := by
  simp only [loadRow, hi]
  cases jobCmd b (opu b o).job <;> simp

/-- Where row `r` of OPU `o`'s tile `t` begins in the stream of initial values. -/
def initialFirst (o : Nat) (c : Cmd) (t r : Nat) : Nat :=
  (t * max c.opus.length 1 + (c.opus.idxOf? (o % 4)).getD 0) * 32768 + 256 * r

/-- The OPU once `row` has filled row `r` of its tile `t`: each word in its cell, with its poison. -/
def rowLoaded (x : Opu) (t r : Nat) (row : List Elem) : Opu :=
  let base := 32768 * (t % 2) + 256 * r
  { x with
    cells := ((List.range 256).zip row).foldl (fun m p => mapSet 0 m (base + p.1) (BitVec.ofNat 32 p.2.raw)) x.cells,
    cellPois := ((List.range 256).zip row).foldl (fun l p =>
      if p.2.pois then setInsert l (base + p.1) else setErase l (base + p.1)) x.cellPois,
    loadTile := t, loaded := r + 1 }

theorem loadRow_of_row {o aclk : Nat} {b : Block} {c : Cmd} {j : Job} {t r : Nat} {vs : List Elem} (ups : List Upset)
    (hj : jobCmd b (opu b o).job = some (c, j)) (hinit : c.accInit = 1) (hi : issues b aclk = true)
    (hnext : loadNext (opu b o) (totalSteps b (o / 4) c / max c.klen 1) = some (t, r))
    (hvs : elemsAt (entryOf (se b (o / 4)) 2) (initialFirst o c t r) 256 = some vs) :
    loadRow o aclk ups b =
      let checked := upsetRow (c.tensor 2).fmt ups vs
      drainState o c (consume (o / 4) 2 (initialFirst o c t r) 256
        (setOpu o (rowLoaded (opu b o) t r checked.1) (countBuf (o / 4) checked.2.1 checked.2.2 b))) := by
  unfold initialFirst at hvs
  simp only [loadRow, hj, hinit, hi, hnext, hvs, ne_eq, not_true, Bool.not_true, Bool.false_eq_true, or_self, if_false]
  rfl

/-! ### What a check of an accumulator word leaves (05 R131) -/

/-- The task of an OPU and the tiles that it drains: what decides the row that it offers, but for the cells. -/
def drainWork (b : Block) (o : Nat) : Option (Cmd × Job) × List (Nat × Nat) := (jobCmd b (opu b o).job, (opu b o).drains)

theorem jobCmd_congr {b b' : Block} (hcmds : b'.cmds = b.cmds) (hjobs : b'.jobs = b.jobs) (w : Option (Nat × Nat)) :
    jobCmd b' w = jobCmd b w := by
  simp only [jobCmd, findCmd, jobOf, hcmds, hjobs]

theorem drainWork_congr {b b' : Block} {o : Nat} (hcmds : b'.cmds = b.cmds) (hjobs : b'.jobs = b.jobs) (hopus : b'.opus = b.opus) :
    drainWork b' o = drainWork b o := by
  simp only [drainWork, opu, hopus, jobCmd_congr hcmds hjobs]

theorem drainWork_setOpu (b : Block) (o : Nat) (x : Opu) : drainWork (setOpu o x b) o = (jobCmd b x.job, x.drains) := by
  simp only [drainWork, opu, setOpu_opus, mapGet_set_self, jobCmd_congr (setOpu_cmds b o x) (setOpu_jobs b o x)]

theorem drainWork_chipUe (ue : Bool) (b : Block) (o : Nat) : drainWork (chipUe ue b) o = drainWork b o := by
  cases ue <;> rfl

theorem drainWork_raise (p m : Nat) (b : Block) (o : Nat) : drainWork (raise p m b) o = drainWork b o := by
  simp only [raise]
  split <;> exact drainWork_congr rfl rfl rfl

theorem drainWork_countOpu (n : Nat) (f : Nat → Fld) (b : Block) (o : Nat) : drainWork (countOpu n f b) o = drainWork b o := by
  rw [countOpu, drainWork_raise]
  exact drainWork_congr rfl rfl rfl

theorem drainWork_cellUpset (o k : Nat) (bits : List Nat) (b : Block) : drainWork (cellUpset o k bits b) o = drainWork b o := by
  simp only [cellUpset]
  split
  · rw [drainWork_countOpu, drainWork_chipUe, drainWork_setOpu, drainWork]
  · rw [drainWork_chipUe, drainWork_setOpu, drainWork]

/-! ### The drain port (05 R120, R121, R131) -/

/-- A grant moves its arbiter's pointer alone. -/
theorem drainWork_rrGrant (a n : Nat) (req : Nat → Bool) (b : Block) (o : Nat) : drainWork (rrGrant a n req b).2 o = drainWork b o := by
  cases h : rrPick (mapGet 0 b.arb a) n req with
  | none => rw [rrGrant_of_no_pick h]
  | some i =>
    rw [rrGrant_of_pick h]
    exact drainWork_congr rfl rfl rfl

theorem drainWork_portGrant {cl e : Nat} {b go : Block} (o : Nat) (h : portGrant cl e b = some go) :
    drainWork go o = drainWork b o := by
  simp only [portGrant, Option.ite_none_right_eq_some, Option.some.injEq] at h
  obtain ⟨-, rfl⟩ := h
  exact drainWork_rrGrant _ _ _ b o

/-- The drain port's arbiter has moved past OPU `i`. -/
def drainPicked (cl p i : Nat) (b : Block) : Block := { b with arb := mapSet 0 b.arb (arbDrain cl p) ((i + 1) % 4) }

/-- The checks of the words of row `r` of tile `t` as the drain reads them. -/
def rowChecked (o t r : Nat) (ups : List Upset) (b : Block) : Block :=
  ups.foldl (fun b u => cellUpset o (32768 * (t % 2) + 256 * r + u.word % 256) u.bits b) b

/-- An accepted row goes to the VE of its port or, from port 2, to the stream. -/
def rowDelivered (cl p i : Nat) (c : Cmd) (t r : Nat) (row : List Drained) (b : Block) : Block :=
  let q := (c.opus.idxOf? i).getD 0
  let taken := rowAccepted (4 * cl + i) c row b
  if p < 2 then
    landRow (2 * cl + p) 0 (t * (c.feeders p).length + ((c.feeders p).idxOf? q).getD 0) c (row.map (fun d => (d.w, d.pois))) taken
  else drainToStream cl c t q r row taken

theorem drainWork_rowChecked (o t r : Nat) (ups : List Upset) (b : Block) : drainWork (rowChecked o t r ups b) o = drainWork b o :=
  foldl_keeps (drainWork · o) _ (fun b _ => drainWork_cellUpset o _ _ b) ups b

/-- Steps that check a word of the row at the head of the drain check the row `(t, r)` throughout, since a check leaves the drain as it is. -/
theorem foldl_eq_rowChecked {o t r : Nat} {rest : List (Nat × Nat)} {f : Block → Upset → Block}
    (hf : ∀ b u, (opu b o).drains = (t, r) :: rest → f b u = cellUpset o (32768 * (t % 2) + 256 * r + u.word % 256) u.bits b)
    (ups : List Upset) {b : Block} (hb : (opu b o).drains = (t, r) :: rest) : ups.foldl f b = rowChecked o t r ups b := by
  induction ups generalizing b with
  | nil => rfl
  | cons u us ih =>
    rw [List.foldl_cons, hf b u hb, rowChecked, List.foldl_cons]
    exact ih ((congrArg Prod.snd (drainWork_cellUpset o _ _ b)).trans hb)

theorem offeredRow_drains {b : Block} {o t r : Nat} {row : List Drained} (h : offeredRow b o = some (t, r, row)) :
    ∃ rest, (opu b o).drains = (t, r) :: rest := by
  simp only [offeredRow] at h
  split at h
  · next rest _ hdrains =>
    obtain ⟨rfl, rfl, -⟩ : _ = t ∧ _ = r ∧ _ = row := by simpa using h
    exact ⟨rest, hdrains⟩
  · simp at h

theorem drainAccept_of_paced {cl p aclk : Nat} {b : Block} (ups : List Upset) (hi : issues b aclk = false) :
    drainAccept cl p aclk ups b = b := by
  simp [drainAccept, hi]

section Drain

variable {cl p aclk i t r : Nat} {ups : List Upset} {b go : Block} {c : Cmd} {j : Job} {row0 row : List Drained}
  (hi : issues b aclk = true) (hpick : rrPick (mapGet 0 b.arb (arbDrain cl p)) 4 (drainAsks b cl p) = some i)
  (hj : jobCmd b (opu b (4 * cl + i)).job = some (c, j)) (hoffer : offeredRow b (4 * cl + i) = some (t, r, row0))
  (hgo : (if p < 2 then some (drainPicked cl p i b) else portGrant cl 7 (drainPicked cl p i b)) = some go)
  (hread : offeredRow (rowChecked (4 * cl + i) t r ups go) (4 * cl + i) = some (t, r, row))

include hgo in
/-- The grants leave the OPUs' tasks and tiles. -/
theorem drainWork_granted (o : Nat) : drainWork go o = drainWork b o := by
  split at hgo
  · rw [← Option.some.inj hgo]
    exact drainWork_congr rfl rfl rfl
  · rw [drainWork_portGrant o hgo]
    exact drainWork_congr rfl rfl rfl

include hi hpick hj hoffer hgo hread

/-- The granted OPU's row as it is read: a poisoned word that met arithmetic aborts, else the row is delivered. -/
theorem drainAccept_of_row : drainAccept cl p aclk ups b =
    if row.any (fun d => d.consumed) then poisonTask cl c.queue c.count (rowChecked (4 * cl + i) t r ups go)
    else rowDelivered cl p i c t r row (rowChecked (4 * cl + i) t r ups go) := by
  obtain ⟨rest, hdrains⟩ := offeredRow_drains hoffer
  have hwork := drainWork_granted hgo (4 * cl + i)
  have htiles : (opu go (4 * cl + i)).drains = (t, r) :: rest := (congrArg Prod.snd hwork).trans hdrains
  have htask := (congrArg Prod.fst ((drainWork_rowChecked (4 * cl + i) t r ups go).trans hwork)).trans hj
  simp only [drainWork] at htask
  unfold drainPicked at hgo
  simp only [drainAccept, hi, Bool.not_true, Bool.false_eq_true, if_false, rrGrant_of_pick hpick, hgo]
  rw [foldl_eq_rowChecked (fun b u h => by simp only [h]) ups htiles]
  simp only [htask, hread]
  rfl

theorem drainAccept_of_clean_row (hclean : row.any (fun d => d.consumed) = false) :
    drainAccept cl p aclk ups b = rowDelivered cl p i c t r row (rowChecked (4 * cl + i) t r ups go) := by
  rw [drainAccept_of_row hi hpick hj hoffer hgo hread, hclean, if_neg Bool.false_ne_true]

theorem drainAccept_of_poisoned_row (hpois : row.any (fun d => d.consumed) = true) :
    drainAccept cl p aclk ups b = poisonTask cl c.queue c.count (rowChecked (4 * cl + i) t r ups go) := by
  rw [drainAccept_of_row hi hpick hj hoffer hgo hread, if_pos hpois]

end Drain

/-! ### The obligation -/

theorem exec_drainRowAccept {s : State} (hclear : hostClear s.blk = true) (cl : Fin 32) (p : Fin 3) {aclk : Nat} {ups : List Upset}
    {b : Block} (h : drainAccept cl p aclk ups s.blk = b) : exec (.drainRowAccept cl p aclk ups) s = .next (s.after b) :=
  run_of_eq ((hostGated_active (drainAccept cl p aclk ups) _ hclear).trans h)

theorem exec_accLoadRow {s : State} (hclear : hostClear s.blk = true) (o : Fin 128) {aclk : Nat} {ups : List Upset} {b : Block}
    (h : loadRow o aclk ups s.blk = b) : exec (.accLoadRow o aclk ups) s = .next (s.after b) :=
  run_of_eq ((hostGated_active (loadRow o aclk ups) _ hclear).trans h)

theorem opuRows : Claims.OpuRows := by
  intro s o cl p aclk ups c j hclear
  refine ⟨fun hi => ⟨?_, ?_⟩, fun hj hinit hi t r vs hnext hvs => ?_,
    fun i t r row0 row go hi hpick hj hoffer hgo hread => ⟨fun hclean => ?_, fun hpois => ?_⟩⟩
  · exact exec_drainRowAccept hclear cl p (drainAccept_of_paced ups hi)
  · exact exec_accLoadRow hclear o (loadRow_of_paced ups hi)
  · exact exec_accLoadRow hclear o (loadRow_of_row ups hj hinit hi hnext hvs)
  · exact exec_drainRowAccept hclear cl p (drainAccept_of_clean_row hi hpick hj hoffer hgo hread hclean)
  · exact exec_drainRowAccept hclear cl p (drainAccept_of_poisoned_row hi hpick hj hoffer hgo hread hpois)

/-- Settles O21: the branches of each row, and for the drain that a check of the row's words leaves the task and the tiles of its OPU. -/
theorem outerProductEngine : Obligations.OuterProductEngine := ⟨opuRuns, opuRows⟩

end Sys2Proof.Machine
end

section
/-!
PROOFS. The instructions of a vector engine on one lane element (06 R148–R151, R162): what a run of one leaves, that the checks of what the engine
reads keep its task (07 R199), the results on words and on values without an order, and the obligation `LaneInstructions`.
-/

namespace Sys2Proof.Machine

/-! ### One instruction on one element (06 R148–R150, R162) -/

/-- Word `w` run on element (m, n) from the element's X. -/
def wordRun (v m n : Nat) (blk : Block) (tbl : List (Nat × W32)) (c : Cmd) (j : Job) (wk : Work) (rank : Nat) (w : LaneWord) : LaneRun :=
  laneStep (ve blk v) { laneEnv blk v c j wk with tbl := tbl } m n (positionOf c rank v wk m n)
    ⟨mapGet 0 (ve blk v).x (256 * m + n), (ve blk v).xPois.contains (256 * m + n), [], 0, 0, 0, false⟩ w

/-- The engine with the buffer elements that the run `r` of element (m, n) wrote. -/
def tmpsWritten (m n : Nat) (c : Cmd) (r : LaneRun) (x : Ve) : Ve :=
  r.tmps.foldl (fun x t => putElem c.pack t.1 m n t.2 x) x

/-- The block after the run `r` of element (m, n): buffers, X and its poison, counts and flags. -/
def laneWritten (v m n : Nat) (blk : Block) (c : Cmd) (r : LaneRun) : Block :=
  let y := tmpsWritten m n c r (ve blk v)
  let k := 256 * m + n
  veFlags v r.fl (addCounts c.queue c.count r.nans r.ovfs
    (setVe v { y with x := mapSet 0 y.x k r.x, xPois := if r.xp then setInsert y.xPois k else setErase y.xPois k } blk))

/-- On a running command, instruction `i` in state `s` does what word `w` does on the block `blk` that the engine reads. -/
def LaneDoes (s : State) (v : Fin 64) (m : Fin 128) (n : Fin 256) (i : Instr) (blk : Block) (tbl : List (Nat × W32)) (w : LaneWord) : Prop :=
  ∀ (c : Cmd) (j : Job) (wk : Work) (rank : Nat), jobCmd blk (ve blk v).job = some (c, j) → workNow blk v c = some (wk, rank) →
    w.argOk j.psidy = true →
    ((wordRun v m n blk tbl c j wk rank w).used = false →
      exec i s = .next (s.after (laneWritten v m n blk c (wordRun v m n blk tbl c j wk rank w)))) ∧
    ((wordRun v m n blk tbl c j wk rank w).used = true →
      exec i s = .next (s.after (poisonTask (v.val / 2) c.queue c.count blk)))

/-- A run that consumes poison aborts the task, any other is written back. -/
theorem laneInstr_of_running {v m n : Nat} {blk : Block} {tbl : List (Nat × W32)} {w : LaneWord} {c : Cmd} {j : Job} {wk : Work} {rank : Nat}
    (hj : jobCmd blk (ve blk v).job = some (c, j)) (hwork : workNow blk v c = some (wk, rank)) (hok : w.argOk j.psidy = true) :
    laneInstr w.op v m n w.dst w.a w.b w.c tbl blk =
    if (wordRun v m n blk tbl c j wk rank w).used then poisonTask (v / 2) c.queue c.count blk
    else laneWritten v m n blk c (wordRun v m n blk tbl c j wk rank w) := by
  simp only [laneInstr, hj, hwork, hok, Bool.not_true, Bool.false_eq_true, if_false]
  rfl

theorem laneDoes_of_exec {s : State} {v : Fin 64} {m : Fin 128} {n : Fin 256} {i : Instr} {blk : Block} {tbl : List (Nat × W32)} {w : LaneWord}
    (h : exec i s = .next (s.after (laneInstr w.op v m n w.dst w.a w.b w.c tbl blk))) : LaneDoes s v m n i blk tbl w := by
  intro c j wk rank hj hwork hok
  have hrun := laneInstr_of_running (m := m) (n := n) (tbl := tbl) hj hwork hok
  refine ⟨fun hclean => ?_, fun hpois => ?_⟩
  · rw [h, hrun, hclean, if_neg Bool.false_ne_true]
  · rw [h, hrun, hpois, if_pos rfl]

/-! ### What a check of a store or table word leaves (06 R140, 07 R199) -/

/-- What decides the command that engine `v` runs and the work that it is at. -/
def veTask (b : Block) (v : Nat) : (List Cmd × List Job × SMap Se) × Option (Nat × Nat) × Nat :=
  ((b.cmds, b.jobs, b.ses), (ve b v).job, (ve b v).tile)

theorem veTask_congr {b b' : Block} {v : Nat} (hcmds : b'.cmds = b.cmds) (hjobs : b'.jobs = b.jobs) (hses : b'.ses = b.ses)
    (hves : b'.ves = b.ves) : veTask b' v = veTask b v := by
  simp only [veTask, ve, hcmds, hjobs, hses, hves]

theorem veTask_setVe (b : Block) {v : Nat} {x : Ve} (hjob : x.job = (ve b v).job) (htile : x.tile = (ve b v).tile) :
    veTask (setVe v x b) v = veTask b v := by
  simp only [veTask, ve, setVe_cmds, setVe_jobs, setVe_ses, setVe_ves, mapGet_set_self] at hjob htile ⊢
  rw [hjob, htile]

@[simp] theorem setImage_job (off : Nat) (w : W32) (x : Ve) : (x.setImage off w).job = x.job := rfl
@[simp] theorem setImage_tile (off : Nat) (w : W32) (x : Ve) : (x.setImage off w).tile = x.tile := rfl

theorem veTask_raise (p mask : Nat) (b : Block) (v : Nat) : veTask (raise p mask b) v = veTask b v := by
  simp only [raise]
  split <;> exact veTask_congr rfl rfl rfl rfl

theorem veTask_chipUe (ue : Bool) (b : Block) (v : Nat) : veTask (chipUe ue b) v = veTask b v := by
  cases ue <;> rfl

theorem veTask_countVe (v : Nat) (f : Fld) (page : Bool) (r : Checked) (b : Block) : veTask (countVe v f page r b) v = veTask b v := by
  have hbump : veTask (bump f 1 (canaryAdd .ceChip 1 (chipUe r.ue b))) v = veTask b v :=
    (veTask_congr rfl rfl rfl rfl).trans (veTask_chipUe r.ue b v)
  simp only [countVe]
  split
  · split
    · rw [veTask_raise, hbump]
    · exact hbump
  · exact veTask_chipUe r.ue b v

/-- A checked word that goes back into a store of the engine. -/
theorem veTask_countVe_setVe {b : Block} {v : Nat} {x : Ve} (f : Fld) (page : Bool) (r : Checked) (hjob : x.job = (ve b v).job)
    (htile : x.tile = (ve b v).tile) : veTask (countVe v f page r (setVe v x b)) v = veTask b v := by
  rw [veTask_countVe, veTask_setVe b hjob htile]

theorem veTask_veUpset (v : Nat) (p : VeRead) (u : Upset) : veTask (veUpset v p u).blk v = veTask p.blk v := by
  simp only [veUpset]
  split
  case isTrue tileBuffer => exact veTask_countVe_setVe _ _ _ rfl rfl
  split
  case isTrue store =>
    split
    · rfl
    split
    case isTrue programWord =>
      split
      · rfl
      · exact veTask_countVe_setVe _ _ _ (setImage_job _ _ _) (setImage_tile _ _ _)
    split
    case isTrue constant =>
      refine veTask_countVe_setVe _ _ _ ?_ ?_
      · simp only [setImage_job]
      · simp only [setImage_tile]
    split
    · rfl
    · exact veTask_countVe_setVe _ _ _ rfl rfl
  case isFalse table =>
    split
    · exact veTask_countVe _ _ _ _ _
    split
    · exact veTask_countVe _ _ _ _ _
    · exact (veTask_congr rfl rfl rfl rfl).trans (veTask_countVe _ _ _ _ _)

theorem veTask_foldl_veUpset (v : Nat) (ups : List Upset) (p : VeRead) : veTask (ups.foldl (veUpset v) p).blk v = veTask p.blk v := by
  induction ups generalizing p with
  | nil => rfl
  | cons u us ih => rw [List.foldl_cons, ih, veTask_veUpset]

theorem veTask_veUpsets (v : Nat) (ups : List Upset) (b : Block) : veTask (veUpsets v ups b).blk v = veTask b v :=
  veTask_foldl_veUpset v ups _

section Task

variable {b b' : Block} {v : Nat} (h : veTask b' v = veTask b v)

include h

theorem jobCmd_of_veTask : jobCmd b' (ve b' v).job = jobCmd b (ve b v).job := by
  simp only [veTask, Prod.mk.injEq] at h
  obtain ⟨⟨hcmds, hjobs, -⟩, hjob, -⟩ := h
  rw [hjob, jobCmd_congr hcmds hjobs]

theorem workNow_of_veTask (c : Cmd) : workNow b' v c = workNow b v c := by
  simp only [veTask, Prod.mk.injEq] at h
  obtain ⟨⟨-, -, hses⟩, -, htile⟩ := h
  have hse : se b' (v / 2) = se b (v / 2) := congrArg (mapGet Se.fresh · (v / 2)) hses
  have hitems : veItems b' c v = veItems b c v := by
    simp only [veItems, veTiles, hse]
  simp only [workNow, hse, hitems, htile]

end Task

/-! ### SFU (07 R199) -/

theorem laneSfu_of_running {v m n dst a fn : Nat} {ups : List Upset} {b : Block} {c : Cmd} {j : Job} {wk : Work} {rank : Nat}
    (hj : jobCmd b (ve b v).job = some (c, j)) (hwork : workNow b v c = some (wk, rank))
    (hok : (⟨0x0D, dst, a, fn, 0⟩ : LaneWord).argOk j.psidy = true) : laneSfu v m n dst a fn ups b =
    if (veUpsets v ups b).stop then poisonTask (v / 2) c.queue c.count (veUpsets v ups b).blk
    else laneInstr 0x0D v m n dst a fn 0 (veUpsets v ups b).tbl (veUpsets v ups b).blk := by
  simp only [laneSfu, hj, hwork, hok, Option.isNone_some, Bool.not_true, Bool.or_self, Bool.false_eq_true, if_false]

section Sfu

variable {s : State} {v : Fin 64} {m : Fin 128} {n : Fin 256} {dst : Fin 8} {a b : Fin 64} {ups : List Upset}

theorem exec_veSfu (v : Fin 64) (m : Fin 128) (n : Fin 256) (dst : Fin 8) (a b : Fin 64) (ups : List Upset) (s : State) :
    exec (.veSfu v m n dst a b ups) s = .next (s.after (laneSfu v m n dst a b ups s.blk)) := rfl

/-- The command, the work and the argument are the same before and after the checks, so SFU runs on what it has read. -/
theorem laneDoes_veSfu (hread : (veUpsets v ups s.blk).stop = false) :
    LaneDoes s v m n (.veSfu v m n dst a b ups) (veUpsets v ups s.blk).blk (veUpsets v ups s.blk).tbl ⟨0x0D, dst, a, b, 0⟩ := by
  intro c j wk rank hj hwork hok
  have htask := veTask_veUpsets v ups s.blk
  have hrun := laneSfu_of_running (m := m) (n := n) (ups := ups) ((jobCmd_of_veTask htask).symm.trans hj)
    ((workNow_of_veTask htask c).symm.trans hwork) hok
  rw [hread, if_neg Bool.false_ne_true] at hrun
  exact laneDoes_of_exec (by rw [exec_veSfu, hrun]) c j wk rank hj hwork hok

theorem exec_veSfu_of_stop (hstop : (veUpsets v ups s.blk).stop = true) {c : Cmd} {j : Job} {wk : Work} {rank : Nat}
    (hj : jobCmd s.blk (ve s.blk v).job = some (c, j)) (hwork : workNow s.blk v c = some (wk, rank))
    (hok : (⟨0x0D, dst, a, b, 0⟩ : LaneWord).argOk j.psidy = true) :
    exec (.veSfu v m n dst a b ups) s = .next (s.after (poisonTask (v.val / 2) c.queue c.count (veUpsets v ups s.blk).blk)) := by
  rw [exec_veSfu, laneSfu_of_running hj hwork hok, hstop, if_pos rfl]

end Sfu

/-- The 32 rows without checks are their word's run on the block, each by its meaning; SFU runs on what its checks leave. -/
theorem laneEffects : Claims.LaneEffects := by
  intro s v m n dst a b c ups
  iterate 32 refine ⟨laneDoes_of_exec rfl, ?_⟩
  exact ⟨laneDoes_veSfu, fun hstop c j wk rank hj hwork hok => exec_veSfu_of_stop hstop hj hwork hok⟩

/-! ### Results on NaN (06 R151) -/

theorem eq_nan_of_isNaN {x : Fp} (h : fpIsNaN x = true) : x = .nan := by
  cases x with
  | nan => rfl
  | inf s => exact absurd h Bool.false_ne_true
  | fin s m e => exact absurd h Bool.false_ne_true

@[simp] theorem fpMax_nan_left (y : Fp) : fpMax .nan y = .nan := rfl
@[simp] theorem fpMin_nan_left (y : Fp) : fpMin .nan y = .nan := rfl
@[simp] theorem fpMax_nan_right (x : Fp) : fpMax x .nan = .nan := if_pos (Bool.or_true _)
@[simp] theorem fpMin_nan_right (x : Fp) : fpMin x .nan = .nan := if_pos (Bool.or_true _)
@[simp] theorem fpEq_nan_left (y : Fp) : fpEq .nan y = false := rfl
@[simp] theorem fpLt_nan_left (y : Fp) : fpLt .nan y = false := rfl
@[simp] theorem fpLe_nan_left (y : Fp) : fpLe .nan y = false := rfl

@[simp] theorem laneExact_nan_w : (laneExact false .nan).w = 0x7FC00000#32 := by decide

theorem laneBool_w (q : Bool) : (laneBool false q).w = if q then 1#32 else 0#32 := rfl

theorem toInt32_of_nan {a : W32} (h : fp32 a = .nan) : toInt32 a = ⟨0#32, flInvalid, 0, 0⟩ := by
  rw [toInt32, h]

section NaN

variable (p : Bool) {a : W32} (b c : W32) (h : fp32 a = .nan)

include h

theorem extrema_of_nan :
    (laneOp p false 0x06 0 0 a b c).w = 0x7FC00000#32 ∧ (laneOp p false 0x07 0 0 a b c).w = 0x7FC00000#32 ∧
    (laneOp p false 0x06 0 0 b a c).w = 0x7FC00000#32 ∧ (laneOp p false 0x07 0 0 b a c).w = 0x7FC00000#32 := by
  simp [laneOp, h]

theorem comparisons_of_nan :
    (laneOp p false 0x10 0 0 a b c).w = 0 ∧ (laneOp p false 0x11 0 0 a b c).w = 0 ∧ (laneOp p false 0x12 0 0 a b c).w = 0 ∧
    (laneOp p false 0x13 0 0 a b c).w = 1 := by
  simp [laneOp, h, laneBool_w, fpIsNaN]

theorem cvtfi_of_nan : laneOp p false 0x23 0 0 a b c = ⟨0#32, flInvalid, 0, 0⟩ := toInt32_of_nan h

end NaN

/-! ### Results at single values (06 R151) -/

theorem max_of_zeros : (laneExact false (fpMax (fp32 0x80000000#32) (fp32 0#32))).w = 0#32 := by decide
theorem min_of_zeros : (laneExact false (fpMin (fp32 0#32) (fp32 0x80000000#32))).w = 0x80000000#32 := by decide
theorem fpEq_of_zeros : fpEq (fp32 0x80000000#32) (fp32 0#32) = true := by decide

theorem div_one_by_negative_zero : laneRound false (xDiv (fp32 0x3F800000#32) (fp32 0x80000000#32)) = ⟨0xFF800000#32, flDivZero, 0, 0⟩ := by
  decide
theorem div_one_by_zero : laneRound false (xDiv (fp32 0x3F800000#32) (fp32 0#32)) = ⟨0x7F800000#32, flDivZero, 0, 0⟩ := by decide
theorem div_zero_by_zero : laneRound false (xDiv (fp32 0#32) (fp32 0#32)) = ⟨0x7FC00000#32, flInvalid, 0, 0⟩ := by decide

theorem sqrt_of_negative_zero : laneRound false (xSqrt (fp32 0x80000000#32)) = ⟨0x80000000#32, 0, 0, 0⟩ := by decide
theorem sqrt_of_minus_one : laneRound false (xSqrt (fp32 0xBF800000#32)) = ⟨0x7FC00000#32, flInvalid, 0, 0⟩ := by decide

theorem toInt32_of_two_pow_31 : toInt32 0x4F000000#32 = ⟨0x7FFFFFFF#32, flSat, 0, 0⟩ := by decide
theorem toInt32_of_minus_two_pow_31 : toInt32 0xCF000000#32 = ⟨0x80000000#32, 0, 0, 0⟩ := by decide

theorem icmplt_w (p : Bool) (a b c : W32) : (laneOp p false 0x21 0 0 a b c).w = if a.toInt < b.toInt then 1 else 0 := by
  simp [laneOp, laneBool_w]

theorem sel_w (p : Bool) (a b c : W32) : (laneOp p false 0x14 0 0 a b c).w = if c = 0 then b else a := by
  simp [laneOp]

theorem laneResults : Claims.LaneResults := by
  intro p a b c
  refine ⟨rfl, rfl, rfl, rfl, rfl, rfl, rfl, rfl, rfl, icmplt_w p a b c, rfl, sel_w p a b c, fun hnan => ?_, max_of_zeros, min_of_zeros,
    congrArg (fun q => (laneBool false q).w) fpEq_of_zeros, congrArg LaneOut.w div_one_by_negative_zero, congrArg LaneOut.fl div_one_by_zero,
    congrArg LaneOut.w div_zero_by_zero, congrArg LaneOut.fl div_zero_by_zero, congrArg LaneOut.w sqrt_of_negative_zero,
    congrArg LaneOut.fl sqrt_of_minus_one, congrArg LaneOut.w toInt32_of_two_pow_31, congrArg LaneOut.w toInt32_of_minus_two_pow_31⟩
  have ha := eq_nan_of_isNaN hnan
  obtain ⟨hmax, hmin, hmax', hmin'⟩ := extrema_of_nan p b c ha
  obtain ⟨heq, hlt, hle, hisnan⟩ := comparisons_of_nan p b c ha
  have hcvtfi := cvtfi_of_nan p b c ha
  exact ⟨hmax, hmin, hmax', hmin', heq, hlt, hle, hisnan, congrArg LaneOut.w hcvtfi, congrArg LaneOut.fl hcvtfi⟩

/-- Settles O23: every row is its word's run on the element, SFU's on a block in which the checks keep the engine's task, and the results follow
from the operation of each opcode. -/
theorem laneInstructions : Obligations.LaneInstructions := ⟨laneEffects, laneResults⟩

end Sys2Proof.Machine
end

section
/-!
PROOFS. Carries of a scan along a drift (08 R212–R216, 12 R334): a message of class 2 on its way to its scan, what a part of a carry, a GRANT and
an abort marker do there, the barrier timeout, and the obligation `ScanCarries`.
-/

namespace Sys2Proof.Machine

/-! ### A message of class 2 on its way to its scan (12 R319, R322, R342) -/

theorem chunkMsg_of_scan {a : Nat} {m : Msg} {b : Block} (hdst : m.dst = devId b) (hcls : m.cls = 2) (hrole : role b ≠ 0)
    (hgen : m.mgen = gen b) (hon : domOn b (domRed (aditHalf a)) = true)
    (hcross : crossClass (aditHalf a) m (chunkArrived a m b) = none) (f : Nat → Block → Block) :
    chunkMsg a m f b = f (aditHalf a) (chunkArrived a m b) := by
  have hrole' : role (countRxOnce (aditHalf a) m b) ≠ 0 := by rwa [role, get_countRxOnce (by decide), ← role]
  have hgen' : m.mgen = gen (countRxOnce (aditHalf a) m b) := by rwa [gen, get_countRxOnce (by decide), ← gen]
  have hmine : ¬ (m.dst ≠ devId b ∨ (m.cls ≠ 1 ∧ m.cls ≠ 2) ∨ (!domOn b (domRed (aditHalf a))) = true) := by simp [hdst, hcls, hon]
  simp only [chunkMsg, if_neg hmine, gated_of_own hrole' hgen']
  change (crossClass (aditHalf a) m (chunkArrived a m b)).getD _ = _
  rw [hcross]
  rfl

/-! ### Classification (12 R317, R319) -/

/-- The fields of a message that are the scan's, and those that are zero in a message of class 2 (R317). -/
structure ChunkHdr.FitsScan (h : ChunkHdr) (c : Cmd) : Prop where
  zeros : h.zeros false = true
  group : h.group = c.scanGroup
  op : h.op = 0
  agreed : h.agreed = 0
  round : h.round = 0
  elems : h.elems = c.scanElems h.kind

/-- The fields of a CARRY message for a part of a carry that scan `c` takes over from the drift (R334). -/
structure ChunkHdr.IsPart (h : ChunkHdr) (c : Cmd) (m : Msg) : Prop where
  kind : h.kind = 4
  shard : h.shard < c.chBlocks
  chunk : h.chunk < c.carryParts h.shard
  count : h.count = min 1008 (c.blockCh h.shard - 1008 * h.chunk)
  contrib : h.contrib = 0
  length : 64 + 4 * h.count ≤ m.payload.length

/-- The job with the part of a carry that a message brings. -/
def Job.withPart (j : Job) (m : Msg) : Job :=
  let h := chunkHdr m.payload
  { j with parts := j.parts ++ [(h.shard, h.chunk, chunkWords m h.count)] }

/-- The job with the words of channel block `i`'s carry, +0 in the channels past its end. -/
def Job.withCarry (j : Job) (c : Cmd) (i : Nat) (ws : List (W32 × Bool)) : Job :=
  { j with carries := mapSet none j.carries (i * c.segments) (some (ws ++ List.replicate (256 * c.chTiles - ws.length) (0#32, false))) }

section Classify

variable {half : Nat} {m : Msg} {b : Block} {c : Cmd} {j : Job} {d : Nat}
  (hscan : scanByBucket b ((chunkHdr m.payload).tally % 65536) = some (c, j)) (htally : c.scanTally = (chunkHdr m.payload).tally)
  (hfits : (chunkHdr m.payload).FitsScan c) (hpos : scanPos b c d = some (chunkHdr m.payload).pos)

include hscan htally hfits hpos

theorem scanClassify_of_current {peer : Block → Cmd → Option Nat} (hpeer : peer b c = some d)
    (use : Cmd → Job → ChunkHdr → Block → Block) : scanClassify half m peer use b = use c j (chunkHdr m.payload) b := by
  simp only [scanClassify, hscan, if_pos htally, hpeer, hpos, hfits.zeros, hfits.group, hfits.op, hfits.agreed, hfits.round, hfits.elems,
    Option.isNone_some, Option.bind_some, bne_self_eq_false, Bool.not_true, Bool.or_false, Bool.false_eq_true, if_false]

theorem useCarry_of_part (hpred : scanPred b c = some d) (hfrom : c.fromDrift = true) (hpart : (chunkHdr m.payload).IsPart c m)
    (hnew : j.parts.any (fun p => p.1 == (chunkHdr m.payload).shard && p.2.1 == (chunkHdr m.payload).chunk) = false) :
    useCarry half m b = setJob (match assemble c (j.withPart m) (chunkHdr m.payload).shard with
      | some ws => (j.withPart m).withCarry c (chunkHdr m.payload).shard ws
      | none => j.withPart m) b := by
  have hshard := Nat.not_le.mpr hpart.shard
  have hchunk := Nat.not_le.mpr hpart.chunk
  have hlength := Nat.not_lt.mpr hpart.length
  rw [useCarry, scanClassify_of_current hscan htally hfits hpos hpred]
  simp only [← hpart.count, hpart.kind, hpart.contrib, hfrom, hshard, hchunk, hlength, hnew, ne_eq, not_true_eq_false, decide_false,
    bne_self_eq_false, Bool.not_true, Bool.or_false, Bool.false_eq_true, if_false]
  rfl

theorem useCarry_of_open (hpred : scanPred b c = some d) (hfrom : c.fromDrift = true) (hpart : (chunkHdr m.payload).IsPart c m)
    (hnew : j.parts.any (fun p => p.1 == (chunkHdr m.payload).shard && p.2.1 == (chunkHdr m.payload).chunk) = false)
    (hopen : assemble c (j.withPart m) (chunkHdr m.payload).shard = none) : useCarry half m b = setJob (j.withPart m) b := by
  rw [useCarry_of_part hscan htally hfits hpos hpred hfrom hpart hnew, hopen]

theorem useCarry_of_whole (hpred : scanPred b c = some d) (hfrom : c.fromDrift = true) (hpart : (chunkHdr m.payload).IsPart c m)
    (hnew : j.parts.any (fun p => p.1 == (chunkHdr m.payload).shard && p.2.1 == (chunkHdr m.payload).chunk) = false)
    {ws : List (W32 × Bool)} (hwhole : assemble c (j.withPart m) (chunkHdr m.payload).shard = some ws) :
    useCarry half m b = setJob ((j.withPart m).withCarry c (chunkHdr m.payload).shard ws) b := by
  rw [useCarry_of_part hscan htally hfits hpos hpred hfrom hpart hnew, hwhole]

theorem useScanAbort_of_missing (hpred : scanPred b c = some d) (hfrom : c.fromDrift = true) (hkind : (chunkHdr m.payload).kind = 3) {i : Nat}
    (hmissing : missingBlock c j = some i) : useScanAbort half m b = abortTask c.queue c.count 0x31 i b := by
  rw [useScanAbort, scanClassify_of_current hscan htally hfits hpos hpred]
  simp [scanAbort, hkind, hfrom, hmissing]

theorem useScanGrant_of_sender (hsucc : scanSucc b c = some d) (hto : c.toDrift = true) (hkind : (chunkHdr m.payload).kind = 2) :
    useScanGrant half m b = pumpCarry c.queue c.count (setJob { j with granted := max j.granted (chunkHdr m.payload).chunk } b) := by
  rw [useScanGrant, scanClassify_of_current hscan htally hfits hpos hsucc]
  simp [hkind, hto]

end Classify

/-! ### The rows of a scan's messages -/

section Rows

variable {s : State} {a : Fin 18} {m : Msg} (hclear : hostClear s.blk = true) (hdst : m.dst = devId s.blk) (hcls : m.cls = 2)
  (hrole : role s.blk ≠ 0) (hgen : m.mgen = gen s.blk) (hon : domOn s.blk (domRed (aditHalf a)) = true)
  (hcross : crossClass (aditHalf a) m (chunkArrived a m s.blk) = none)

include hclear hdst hcls hrole hgen hon hcross

theorem hostGated_chunkMsg_of_scan (f : Nat → Block → Block) :
    hostGated (chunkMsg a m f) s.blk = f (aditHalf a) (chunkArrived a m s.blk) := by
  rw [hostGated_active _ _ hclear, chunkMsg_of_scan hdst hcls hrole hgen hon hcross]

theorem exec_chunkCarryRow_of_scan {b : Block} (huse : useCarry (aditHalf a) m (chunkArrived a m s.blk) = b) :
    exec (.chunkCarryRow a m) s = .next (s.after b) :=
  run_of_eq ((hostGated_chunkMsg_of_scan hclear hdst hcls hrole hgen hon hcross _).trans ((if_pos hcls).trans huse))

theorem exec_chunkAbortRow_of_scan {b : Block} (huse : useScanAbort (aditHalf a) m (chunkArrived a m s.blk) = b) :
    exec (.chunkAbortRow a m) s = .next (s.after b) :=
  run_of_eq ((hostGated_chunkMsg_of_scan hclear hdst hcls hrole hgen hon hcross _).trans ((if_pos hcls).trans huse))

theorem exec_chunkGrantRow_of_scan {b : Block} (huse : useScanGrant (aditHalf a) m (chunkArrived a m s.blk) = b) :
    exec (.chunkGrantRow a m) s = .next (s.after b) :=
  run_of_eq ((hostGated_chunkMsg_of_scan hclear hdst hcls hrole hgen hon hcross _).trans ((if_neg (by omega)).trans huse))

end Rows

theorem carriesTravel : Claims.CarriesTravel := by
  intro s a m c j hclear hdst hcls hrole hgen h b hon hcross hscan htally hzeros hgroup hop hagreed hround helems
  have hfits : h.FitsScan c := ⟨hzeros, hgroup, hop, hagreed, hround, helems⟩
  refine ⟨fun d hpred hpos hfrom => ⟨?_, fun hkind i hmissing => ?_⟩, fun d hsucc hpos hto hkind => ?_⟩
  · intro hkind hshard hchunk hcount hcontrib hlength hnew k
    have hpart : h.IsPart c m := ⟨hkind, hshard, hchunk, hcount, hcontrib, hlength⟩
    exact ⟨fun hopen => exec_chunkCarryRow_of_scan hclear hdst hcls hrole hgen hon hcross
        (useCarry_of_open hscan htally hfits hpos hpred hfrom hpart hnew hopen),
      fun ws hwhole => exec_chunkCarryRow_of_scan hclear hdst hcls hrole hgen hon hcross
        (useCarry_of_whole hscan htally hfits hpos hpred hfrom hpart hnew hwhole)⟩
  · exact exec_chunkAbortRow_of_scan hclear hdst hcls hrole hgen hon hcross
      (useScanAbort_of_missing hscan htally hfits hpos hpred hfrom hkind hmissing)
  · exact exec_chunkGrantRow_of_scan hclear hdst hcls hrole hgen hon hcross
      (useScanGrant_of_sender hscan htally hfits hpos hsucc hto hkind)

/-! ### The barrier timeout (08 R216) -/

theorem scanTimeout_of_missing {b : Block} {q n i d : Nat} {c : Cmd} {j : Job} (hj : jobCmd b (some (q, n)) = some (c, j))
    (hfrom : c.fromDrift = true) (hmissing : missingBlock c j = some i) (hpred : scanPred b c = some d) :
    scanTimeout q n b = if role (abortTask q n 0x30 i b) = 0 then abortTask q n 0x30 i b
      else waitReport c.scanTally c.scanGroup d (abortTask q n 0x30 i b) := by
  simp only [scanTimeout, hj, hmissing, hpred, hfrom, Bool.not_true, Bool.false_eq_true, if_false]

theorem scanTimesOut : Claims.ScanTimesOut := by
  intro s q n i d c j hj hfrom hmissing hpred
  exact run_of_eq (scanTimeout_of_missing hj hfrom hmissing hpred)

/-- Settles O37: a message of class 2 reaches the running scan of its bucket on the block in which its engine has taken it up, and the timeout
is the abort of the task followed by a wait report. -/
theorem scanCarries : Obligations.ScanCarries := ⟨carriesTravel, scanTimesOut⟩

end Sys2Proof.Machine
end

section
/-!
PROOFS. Stream programs (09 R230, R231, R234): what each instruction does on the entry of a cluster whose command runs it, and the obligation
`StreamPrograms`.
-/

namespace Sys2Proof.Machine

/-! ### The grant of a fabric port (09 R249) -/

/-- A grant moves the pointer of the arbiter alone. -/
theorem portGrant_eq {cl e : Nat} {b go : Block} (h : portGrant cl e b = some go) : ∃ a, go = { b with arb := a } := by
  simp only [portGrant, Option.ite_none_right_eq_some, Option.some.injEq] at h
  obtain ⟨-, rfl⟩ := h
  cases hpick : rrPick (mapGet 0 b.arb (arbStream cl)) 8 (wantsPort b cl) with
  | none => exact ⟨b.arb, by rw [rrGrant_of_no_pick hpick]⟩
  | some i => exact ⟨_, by rw [rrGrant_of_pick hpick]⟩

/-- What an entry does once its cluster's fabric port is granted, where it has an index to fetch. -/
def atPort (cl e : Nat) (f : Block → Block) (b : Block) : Block :=
  if indexAsks b cl e then match portGrant cl e b with
    | none => b
    | some go => f go
  else f b

theorem streamLoop_eq (cl e : Nat) : streamLoop cl e = atPort cl e (iterLoop cl e) := rfl

theorem streamEnd_eq (cl e : Nat) : streamEnd cl e = atPort cl e (iterEnd cl e) := rfl

section Port

variable {cl e : Nat} {b : Block} (f : Block → Block)

theorem atPort_of_no_index (ha : indexAsks b cl e = false) : atPort cl e f b = f b := by
  simp only [atPort, ha, Bool.false_eq_true, if_false]

theorem atPort_of_refused (ha : indexAsks b cl e = true) (hg : portGrant cl e b = none) : atPort cl e f b = b := by
  simp only [atPort, ha, if_true, hg]

theorem atPort_of_go {indir : Bool} {go : Block} (ha : indexAsks b cl e = indir)
    (hg : (if indir then portGrant cl e b else some b) = some go) : atPort cl e f b = f go := by
  cases indir with
  | false => rw [atPort_of_no_index f ha, Option.some.inj hg]
  | true =>
    have hgo : portGrant cl e b = some go := hg
    simp only [atPort, ha, if_true, hgo]

end Port

/-! ### The instruction that an entry has come to -/

/-- `i` is the next instruction of an entry that runs its program, on a cluster that serves command `c`. -/
structure AtInstr (b : Block) (cl e : Nat) (c : Cmd) (i : SInstr) : Prop where
  task : ∃ j, jobCmd b (se b cl).job = some (c, j)
  next : nextInstr c e (entryOf (se b cl) e) = some i
  runs : runsProgram c (se b cl).rank e = true

section Instr

variable {cl e : Nat} {b : Block} {c : Cmd} {i : SInstr} (h : AtInstr b cl e c i)

include h

theorem onInstr_of_op {op : Nat} (hop : i.op = op) (f : Cmd → SInstr → Entry → Block → Block) :
    onInstr op cl e f b = f c i (entryOf (se b cl) e) b := by
  obtain ⟨⟨j, hj⟩, hnext, hruns⟩ := h
  simp only [onInstr, hj, hnext, hop, hruns, and_self, if_true]

/-- A grant leaves the entry at its instruction. -/
theorem AtInstr.of_go {indir : Bool} {go : Block} (hg : (if indir then portGrant cl e b else some b) = some go) :
    AtInstr go cl e c i ∧ se go cl = se b cl := by
  cases indir with
  | false =>
    obtain rfl : b = go := Option.some.inj hg
    exact ⟨h, rfl⟩
  | true =>
    obtain ⟨a, rfl⟩ := portGrant_eq hg
    exact ⟨⟨h.task, h.next, h.runs⟩, rfl⟩

/-! ### LOOP (R230) -/

/-- The first iteration that is the cluster's own: that of its rank in a PART loop. -/
def firstIter (i : SInstr) (rank : Nat) : Nat := if i.part then rank else 0

theorem indexAsks_of_loop (hop : i.op = 1) :
    indexAsks b cl e = (i.indir && decide (firstIter i (se b cl).rank < i.count)) := by
  obtain ⟨⟨j, hj⟩, hnext, hruns⟩ := h
  simp only [indexAsks, hj, hnext, hop, hruns, Bool.true_and, if_true]
  rfl

theorem streamLoop_of_iteration (hop : i.op = 1) (hleft : firstIter i (se b cl).rank < i.count) {go : Block}
    (hg : (if i.indir then portGrant cl e b else some b) = some go) :
    streamLoop cl e b = startIter cl e c i ⟨(entryOf (se b cl) e).pc, firstIter i (se b cl).rank, (entryOf (se b cl) e).row,
      (entryOf (se b cl) e).col, (entryOf (se b cl) e).zero⟩ (entryOf (se b cl) e).frames go := by
  have hasks : indexAsks b cl e = i.indir := by simp only [indexAsks_of_loop h hop, hleft, decide_true, Bool.and_true]
  obtain ⟨hthere, hse⟩ := h.of_go hg
  rw [streamLoop_eq, atPort_of_go _ hasks hg, iterLoop, onInstr_of_op hthere hop, hse]
  exact if_neg (Nat.not_le.mpr hleft)

theorem streamLoop_of_refused (hop : i.op = 1) (hleft : firstIter i (se b cl).rank < i.count) (hindir : i.indir = true)
    (hg : portGrant cl e b = none) : streamLoop cl e b = b := by
  have hasks : indexAsks b cl e = true := by simp only [indexAsks_of_loop h hop, hindir, hleft, decide_true, Bool.and_true]
  rw [streamLoop_eq, atPort_of_refused _ hasks hg]

theorem streamLoop_of_no_iteration (hop : i.op = 1) (hnone : i.count ≤ firstIter i (se b cl).rank) :
    streamLoop cl e b = setEntry cl e { entryOf (se b cl) e with pc := (c.prog e).length } b := by
  have hasks : indexAsks b cl e = false := by
    simp only [indexAsks_of_loop h hop, Nat.not_lt.mpr hnone, decide_false, Bool.and_false]
  rw [streamLoop_eq, atPort_of_no_index _ hasks, iterLoop, onInstr_of_op h hop]
  exact if_pos hnone

/-! ### END (R230) -/

section End

variable {f : Frame} {rest : List Frame} {l : SInstr} (hop : i.op = 2) (hframes : (entryOf (se b cl) e).frames = f :: rest)
  (hloop : (c.prog e)[f.pc]? = some l)

/-- The cluster's next iteration of loop `l`, whose iteration in progress is that of frame `f`. -/
def nextIter (c : Cmd) (l : SInstr) (f : Frame) : Nat := f.i + (if l.part then c.nclus else 1)

include hop hframes hloop

theorem indexAsks_of_end : indexAsks b cl e = (l.indir && decide (nextIter c l f < l.count)) := by
  obtain ⟨⟨j, hj⟩, hnext, hruns⟩ := h
  simp only [indexAsks, hj, hnext, hop, hruns, hframes, hloop, Bool.true_and, OfNat.ofNat_ne_one, if_false, if_true]
  rfl

theorem iterEnd_of_iteration (hleft : nextIter c l f < l.count) :
    iterEnd cl e b = startIter cl e c l { f with i := nextIter c l f } rest b := by
  rw [iterEnd, onInstr_of_op h hop]
  simp only [hframes, hloop]
  exact if_pos hleft

theorem streamEnd_of_iteration (hleft : nextIter c l f < l.count) {go : Block}
    (hg : (if l.indir then portGrant cl e b else some b) = some go) :
    streamEnd cl e b = startIter cl e c l { f with i := nextIter c l f } rest go := by
  have hasks : indexAsks b cl e = l.indir := by
    simp only [indexAsks_of_end h hop hframes hloop, hleft, decide_true, Bool.and_true]
  obtain ⟨hthere, hse⟩ := h.of_go hg
  rw [streamEnd_eq, atPort_of_go _ hasks hg, iterEnd_of_iteration hthere hop (hse ▸ hframes) hloop hleft]

theorem streamEnd_of_refused (hleft : nextIter c l f < l.count) (hindir : l.indir = true) (hg : portGrant cl e b = none) :
    streamEnd cl e b = b := by
  have hasks : indexAsks b cl e = true := by
    simp only [indexAsks_of_end h hop hframes hloop, hindir, hleft, decide_true, Bool.and_true]
  rw [streamEnd_eq, atPort_of_refused _ hasks hg]

theorem streamEnd_of_last (hlast : l.count ≤ nextIter c l f) :
    streamEnd cl e b = wrapProgram cl e c (setEntry cl e { entryOf (se b cl) e with
      frames := rest, pc := (entryOf (se b cl) e).pc + 1, row := f.row, col := f.col, zero := f.zero } b) := by
  have hasks : indexAsks b cl e = false := by
    simp only [indexAsks_of_end h hop hframes hloop, Nat.not_lt.mpr hlast, decide_false, Bool.and_false]
  rw [streamEnd_eq, atPort_of_no_index _ hasks, iterEnd, onInstr_of_op h hop]
  simp only [hframes, hloop]
  exact if_neg (Nat.not_lt.mpr hlast)

end End

/-! ### RUN (R231, R234) -/

section Run

variable (hop : i.op = 3)

include hop

theorem streamRun_of_emits (hbase : (entryOf (se b cl) e).zero = true ∨
      belowBase (entryOf (se b cl) e).row (entryOf (se b cl) e).col i.drow i.dcol i.count = none) :
    streamRun cl e b = wrapProgram cl e c (emitSeg cl e (entryOf (se b cl) e) ⟨(entryOf (se b cl) e).emitted, i.count,
      (entryOf (se b cl) e).row, (entryOf (se b cl) e).col, i.drow, i.dcol, (entryOf (se b cl) e).zero,
      windowNow c e (entryOf (se b cl) e)⟩ b) := by
  rw [streamRun, onInstr_of_op h hop]
  cases hzero : (entryOf (se b cl) e).zero with
  | true => simp only [if_true]
  | false =>
    have hnone := hbase.resolve_left (hzero ▸ Bool.false_ne_true)
    simp only [Bool.false_eq_true, if_false, hnone]

theorem streamRun_of_below (hzero : (entryOf (se b cl) e).zero = false) {k : Nat}
    (hbelow : belowBase (entryOf (se b cl) e).row (entryOf (se b cl) e).col i.drow i.dcol i.count = some k) :
    streamRun cl e b = streamFault cl e 1 ((entryOf (se b cl) e).row + k * i.drow) ((entryOf (se b cl) e).col + k * i.dcol)
      c.queue c.count b := by
  rw [streamRun, onInstr_of_op h hop]
  simp only [hzero, Bool.false_eq_true, if_false, hbelow]

end Run

end Instr

/-! ### The obligation -/

/-- Settles O24: the entry is at its instruction, on the granted block too, and each instruction takes its branch there. -/
theorem streamPrograms : Obligations.StreamPrograms := by
  intro s cl e c j i hj x hnext hruns
  have h : AtInstr s.blk cl e c i := ⟨⟨j, hj⟩, hnext, hruns⟩
  refine ⟨?loop, ?endLoop, ?run, ?below, ?add, ?pad⟩
  case loop =>
    rintro hop first rfl
    exact ⟨fun hleft => ⟨fun go hg => run_of_eq (streamLoop_of_iteration h hop hleft hg),
      fun hindir hg => run_of_eq (streamLoop_of_refused h hop hleft hindir hg)⟩,
      fun hnone => run_of_eq (streamLoop_of_no_iteration h hop hnone)⟩
  case endLoop =>
    intro hop f rest l hframes hloop k
    exact ⟨fun hleft => ⟨fun go hg => run_of_eq (streamEnd_of_iteration h hop hframes hloop hleft hg),
      fun hindir hg => run_of_eq (streamEnd_of_refused h hop hframes hloop hleft hindir hg)⟩,
      fun hlast => run_of_eq (streamEnd_of_last h hop hframes hloop hlast)⟩
  case run => exact fun hop hbase => run_of_eq (streamRun_of_emits h hop hbase)
  case below => exact fun hop hzero k hbelow => run_of_eq (streamRun_of_below h hop hzero hbelow)
  case add => exact fun hop => run_of_eq (onInstr_of_op h hop _)
  case pad => exact fun hop => run_of_eq (onInstr_of_op h hop _)

end Sys2Proof.Machine
end

section
/-!
PROOFS. The start of kernel-class commands (15 R427, 09 R242–R247, 12 R315): one lemma per way in which a start ends, the portions of a pure
move, and the obligation `KernelsStart`.
-/

namespace Sys2Proof.Machine

/-- A start that fails is a task abort where the fetch of its blocks or poison ends it, and a failed check otherwise (R10, R145, R243). -/
theorem startFails_eq (q n : Nat) (fetch : Bool) (e : StartErr) (b : Block) : startFails q n fetch e b =
    if (fetch && e.status == 0x13) = true ∨ e.status = 0x24 then abortTask q n e.status e.detail b
    else finishCmd q n e.status e.detail b := by
  simp only [startFails, Bool.and_eq_true, beq_iff_eq, or_comm]

/-! ### The predecessor of a scan on its drift (08 R216) -/

section Pred

variable {c : Cmd} {b : Block} (j : Job)

theorem startScan_of_failed {d : Nat} (hpred : scanPred b c = some d) (hfrom : c.fromDrift = true)
    (hfailed : (failedIds b).contains d = true) : startScan c j b = scanAbort c j b := by
  simp only [startScan, hpred, hfrom, hfailed, Bool.and_self, if_true]

theorem startScan_of_standing
    (h : scanPred b c = none ∨ c.fromDrift = false ∨ ∀ d, scanPred b c = some d → (failedIds b).contains d = false) :
    startScan c j b = scanGrant c b := by
  cases hpred : scanPred b c with
  | none => simp only [startScan, hpred]
  | some d =>
    have hgoes : (c.fromDrift && (failedIds b).contains d) = false := by
      rcases h with hnone | hfrom | hstands
      · exact absurd (hpred.symm.trans hnone) (Option.some_ne_none d)
      · rw [hfrom, Bool.false_and]
      · rw [hstands d hpred, Bool.and_false]
    simp only [startScan, hpred, hgoes, Bool.false_eq_true, if_false]

end Pred

/-! ### A command with its job (09 R238, R241, 12 R315) -/

/-- The job of a command that starts, with the owner-table entries that it has read. -/
def Job.withOwners (j : Job) (me : Nat) (c : Cmd) (owners : SMap (List Byte)) : Job :=
  { j with owners := owners, ordered := needsOrder me c owners }

/-- The block with a command's engines at work, its streams noted and its fetches counted. -/
def enginesAtWork (c : Cmd) (j : Job) (b : Block) : Block :=
  let t := noteStreams c j (startEngines c j b)
  ownerGrants c (countStart t c j t)

/-- The rest of a start, for a command whose job is made: its owner tables, its tally, its engines. -/
def startJob (q n : Nat) (c : Cmd) (j : Job) (b : Block) : Block :=
  match fetchOwners (startEngines c j b) c with
  | .error e => startFails q n false e b
  | .ok os => match shadowFail c os with
    | some e => finishCmd q n e.status e.detail b
    | none => match takeTally c b with
      | none => finishCmd q n 0x38 (c.scanTally % 65536) b
      | some t => startScan c (j.withOwners (devId t) c os) (enginesAtWork c (j.withOwners (devId t) c os) t)

section Job

variable {c : Cmd} {j : Job} {b : Block} (q n : Nat)

theorem startJob_of_no_owners {e : StartErr} (howners : fetchOwners (startEngines c j b) c = .error e) :
    startJob q n c j b = startFails q n false e b := by
  simp only [startJob, howners]

variable {os : SMap (List Byte)} (howners : fetchOwners (startEngines c j b) c = .ok os)

include howners

theorem startJob_of_shadow {e : StartErr} (hshadow : shadowFail c os = some e) :
    startJob q n c j b = finishCmd q n e.status e.detail b := by
  simp only [startJob, howners, hshadow]

variable (hclean : shadowFail c os = none)

include hclean

theorem startJob_of_tally_reused (htally : takeTally c b = none) :
    startJob q n c j b = finishCmd q n 0x38 (c.scanTally % 65536) b := by
  simp only [startJob, howners, hclean, htally]

theorem startJob_of_tally {t : Block} (htally : takeTally c b = some t) :
    startJob q n c j b = startScan c (j.withOwners (devId t) c os) (enginesAtWork c (j.withOwners (devId t) c os) t) := by
  simp only [startJob, howners, hclean, htally]

end Job

/-! ### The checks of a start (15 R427, 09 R242–R247) -/

section Start

variable {cls q n : Nat} {b : Block} {m : Cmd} (hfind : findCmd b q n = some m) (hcls : m.cls = cls) (hstage : m.stage = .dispatched)

include hfind hcls hstage

theorem kernelStart_of_unread {e : StartErr} (hblocks : fetchBlocks b m = .error e) :
    kernelStart cls q n b = startFails q n true e b := by
  simp [kernelStart, hfind, hstage, hcls, hblocks]

variable {c : Cmd} (hblocks : fetchBlocks b m = .ok c)

include hblocks

theorem kernelStart_of_invalid {e : StartErr} (hinvalid : startChecks b c (ctx b c.ctx).psidy = some e) :
    kernelStart cls q n b = finishCmd q n e.status e.detail b := by
  simp [kernelStart, hfind, hstage, hcls, hblocks, hinvalid]

variable (hvalid : startChecks b c (ctx b c.ctx).psidy = none)

include hvalid

theorem kernelStart_of_missing {d : Nat} (hmissing : startMissing b c = some d) :
    kernelStart cls q n b = finishCmd q n 0x11 d b := by
  simp [kernelStart, hfind, hstage, hcls, hblocks, hvalid, hmissing]

variable (hpresent : startMissing b c = none)

include hpresent

theorem kernelStart_of_no_job {e : StartErr} (hjob : makeJob b c = .error e) :
    kernelStart cls q n b = startFails q n false e b := by
  simp [kernelStart, hfind, hstage, hcls, hblocks, hvalid, hpresent, hjob]

theorem kernelStart_of_job {j : Job} (hjob : makeJob b c = .ok j) :
    kernelStart cls q n b = startJob q n { c with stage := .running, ran := true } j b := by
  simp [kernelStart, hfind, hstage, hcls, hblocks, hvalid, hpresent, hjob]
  rfl

end Start

/-! ### The rows of the classes -/

section Row

variable {cls q n : Nat} {s : State} {m : Cmd} (hclear : hostClear s.blk = true) (hfind : findCmd s.blk q n = some m) (hcls : m.cls = cls)

include hclear hfind hcls

theorem run_kernelRow_of_dispatched (hstage : m.stage = .dispatched) {t : Block} (hstart : kernelStart cls q n s.blk = t) :
    s.run (hostGated (kernelRow cls q n)) = .next (s.after t) := by
  refine run_of_eq ((hostGated_active _ _ hclear).trans (Eq.trans ?_ hstart))
  simp [kernelRow, hfind, hcls, hstage]

/-- A pure move takes its next portion on each of its clusters (09 R252). -/
theorem run_kernelRow_of_move (hstage : m.stage = .running) (hmove : m.isMove = true) :
    s.run (hostGated (kernelRow cls q n)) = .next (s.after (m.clusters.foldl (fun b cl => moveStep cl b) s.blk)) := by
  refine run_of_eq ((hostGated_active _ _ hclear).trans ?_)
  simp [kernelRow, hfind, hcls, hstage, hmove]

end Row

/-! ### The obligation -/

/-- Settles O48: every row is its class's row, and a start ends in the branch of the first check that fails. -/
theorem kernelsStart : Obligations.KernelsStart := by
  intro s q n m hclear hfind starts
  have row (cls : Nat) (hcls : m.cls = cls) : starts (s.run (hostGated (kernelRow cls q n))) := by
    refine ⟨fun hstage => ?start, run_kernelRow_of_move hclear hfind hcls⟩
    have ends {t : Block} := run_kernelRow_of_dispatched (t := t) hclear hfind hcls hstage
    refine ⟨fun e hblocks => ends ((kernelStart_of_unread hfind hcls hstage hblocks).trans (startFails_eq ..)), fun c hblocks => ?_⟩
    refine ⟨fun e hinvalid => ends (kernelStart_of_invalid hfind hcls hstage hblocks hinvalid),
      fun d hvalid hmissing => ends (kernelStart_of_missing hfind hcls hstage hblocks hvalid hmissing), fun hvalid hpresent => ?_⟩
    refine ⟨fun e hjob => ends ((kernelStart_of_no_job hfind hcls hstage hblocks hvalid hpresent hjob).trans (startFails_eq ..)),
      fun j hjob => ?_⟩
    have hstart := kernelStart_of_job hfind hcls hstage hblocks hvalid hpresent hjob
    refine ⟨fun e howners => ends (hstart.trans ((startJob_of_no_owners q n howners).trans (startFails_eq ..))),
      fun os e howners hshadow => ends (hstart.trans (startJob_of_shadow q n howners hshadow)), fun os howners hclean => ?_⟩
    refine ⟨fun htally => ends (hstart.trans (startJob_of_tally_reused q n howners hclean htally)), fun t htally => ?_⟩
    have hready := hstart.trans (startJob_of_tally q n howners hclean htally)
    exact ⟨fun d hpred hfrom hfailed => ends (hready.trans (startScan_of_failed _ hpred hfrom hfailed)),
      fun hstands => ends (hready.trans (startScan_of_standing _ hstands))⟩
  exact ⟨row 1, row 2, row 3, row 4, row 5⟩

end Sys2Proof.Machine
end

section
/-!
PROOFS. The place of an HBM byte among the twelve lodes (10 R266): the mapping and `lodePa` undo each other, and the obligation
`HbmInterleave`.
-/

namespace Sys2Proof.Machine

theorem lodeOf_eq (pa : Nat) : lodeOf pa = (pa / 4096 % 12 + (pa / 4096 / 12) / 2 ^ 10 + (pa / 4096 / 12) / 2 ^ 20) % 12 := by
  simp only [lodeOf, Nat.shiftRight_eq_div_pow]

theorem lodePa_eq (l a : Nat) : lodePa l a =
    (12 * (a / 4096) + (l + 12 - ((a / 4096) / 2 ^ 10 + (a / 4096) / 2 ^ 20) % 12) % 12) * 4096 + a % 4096 := by
  simp only [lodePa, Nat.shiftRight_eq_div_pow]

theorem lodeLocal_granule (pa : Nat) : lodeLocal pa / 4096 = pa / 4096 / 12 := by
  simp only [lodeLocal]
  omega

theorem lodeLocal_offset (pa : Nat) : lodeLocal pa % 4096 = pa % 4096 := by
  simp only [lodeLocal]
  omega

/-- The rotation by which a group of granules is dealt out comes off again. -/
theorem lodePa_lodeOf (pa : Nat) : lodePa (lodeOf pa) (lodeLocal pa) = pa := by
  rw [lodePa_eq, lodeLocal_granule, lodeLocal_offset, lodeOf_eq]
  omega

theorem lodeOf_lodePa {l : Nat} (hl : l < 12) (a : Nat) : lodeOf (lodePa l a) = l := by
  have hgranule : lodePa l a / 4096 / 12 = a / 4096 := by
    rw [lodePa_eq]
    omega
  rw [lodeOf_eq, hgranule, lodePa_eq]
  omega

/-- Lode `l`'s granule of group `q` is one of the group's twelve. -/
theorem lodePa_in_group (l q : Nat) : ∃ r, r < 12 ∧ (q * 12 + r) * 4096 = lodePa l (q * 4096) := by
  refine ⟨(l + 12 - (q / 2 ^ 10 + q / 2 ^ 20) % 12) % 12, Nat.mod_lt _ (by decide), ?_⟩
  rw [lodePa_eq, Nat.mul_div_cancel q (by decide)]
  omega

/-- Settles O27: the group's rotation only moves granules within their group, so each lode's granule of a group is one of the twelve. -/
theorem hbmInterleave : Obligations.HbmInterleave := by
  intro a _
  refine ⟨lodeOf_eq a, lodeLocal_granule a, lodeLocal_offset a, lodePa_lodeOf a, fun l hl => ?_⟩
  obtain ⟨r, hr, hpa⟩ := lodePa_in_group l (a / 4096 / 12)
  exact ⟨r, hr, hpa ▸ lodeOf_lodePa hl _⟩

end Sys2Proof.Machine
end

section
/-!
PROOFS. Translations that succeed (10 R262–R264): the walk ends at a page, the end of a walk checks page and address, and the obligation
`TranslationIsSafe`.
-/

namespace Sys2Proof.Machine

/-- What the end of a walk has checked when it answers an address (R264). -/
theorem finishWalk_ok {b : Block} {va size page pa : Nat} {rdOk wrOk write : Bool}
    (h : finishWalk b va size page rdOk wrOk write = .ok pa) :
    pageAllowed page size = true ∧ reachable b pa = true ∧ pa = page + va % size := by
  simp only [finishWalk] at h
  generalize (if write then !wrOk else !rdOk) = refused at h
  split at h
  · cases h
  next hpage =>
  split at h
  · cases h
  split at h
  · cases h
  next hreach =>
  cases h
  simp only [Bool.or_eq_true, not_or, Bool.not_eq_true, Bool.not_eq_false'] at hpage hreach
  exact ⟨hpage, hreach.left, rfl⟩

theorem lt_of_no_high_bits {va n : Nat} (h : ¬ (va / 2 ^ n != 0) = true) : va < 2 ^ n := by
  simpa using h

/-- A walk that answers an address ended at a page of 1 GiB or of 2 MiB (R262). -/
theorem translate_ok {b : Block} {c va pa : Nat} {write : Bool} (h : translate b c va write = .ok pa) :
    va < 2 ^ 52 ∧ ∃ page size rdOk wrOk, (size = 2 ^ 21 ∨ size = 2 ^ 30) ∧ finishWalk b va size page rdOk wrOk write = .ok pa := by
  simp only [translate] at h
  split at h
  · cases h
  next hva =>
  refine ⟨lt_of_no_high_bits hva, ?_⟩
  split at h
  · cases h
  split at h
  case h_2 t1 _ =>
    split at h
    · cases h
    split at h
    case h_2 page rdOk wrOk _ => exact ⟨page, _, rdOk, wrOk, .inr rfl, h⟩
    case h_3 t2 _ =>
      split at h
      · cases h
      split at h
      case h_2 page rdOk wrOk _ => exact ⟨page, _, rdOk, wrOk, .inl rfl, h⟩
      all_goals cases h
    all_goals cases h
  all_goals cases h

/-- Settles O28: only the end of a walk answers an address, and it has checked the page and the address. -/
theorem translationIsSafe : Obligations.TranslationIsSafe := by
  intro b c va pa write h
  obtain ⟨hva, page, size, rdOk, wrOk, hsize, hend⟩ := translate_ok h
  obtain ⟨hpage, hreach, rfl⟩ := finishWalk_ok hend
  have hoffset : va % size < size := Nat.mod_lt va (by omega)
  exact ⟨hva, hreach, page, size, hpage, hsize, Nat.le_add_right .., Nat.add_lt_add_left hoffset page, rfl⟩

end Sys2Proof.Machine
end

section
/-!
PROOFS. Accesses of lodes (10 R271–R274): what each check of a storage word leaves, and the obligation `LodeAccesses`.
-/

namespace Sys2Proof.Machine

/-! ### Storage words and their flipped bits (10 R271) -/

theorem wordStart_of_aligned {a : Nat} (ha : a % 8 = 0) : a / 8 * 8 = a := Nat.div_mul_cancel (Nat.dvd_of_mod_eq_zero ha)

theorem judge_corrected {w i : Nat} (hi : i < w) : judge w false [i] = .corrected := by simp [judge, hi]

theorem judge_uncorrectable {w i k : Nat} (hi : i < w) (hk : k < w) : judge w false [i, k] = .uncorrectable := by simp [judge, hi, hk]

theorem onChip_of_clean (v : Nat) : onChip v false [] = (v, false, 0) := rfl

section Reached

variable {l a : Nat} {b : Block} (ha : a % 8 = 0) (hr : targetReachable b (lodePa l a) = true) (hd : domOn b (domLode l) = true)
  (hh : lodeHas b l a = true)

include ha hr hd hh

theorem lodeRead_of_storedPoison (hp : poisoned b (lodePa l a) = true) :
    lodeRead l a [] b = setPoison (setPoison b (lodePa l a) true) (lodePa l a + 4) true := by
  simp [lodeRead, wordStart_of_aligned ha, hr, hd, hh, hp, judge]

theorem lodeRead_of_one_flip (hp : poisoned b (lodePa l a) = false) {i : Nat} (hi : i < 72) : lodeRead l a [i] b = lodeCe l a b := by
  simp [lodeRead, wordStart_of_aligned ha, hr, hd, hh, hp, judge_corrected hi]

theorem lodeRead_of_two_flips (hp : poisoned b (lodePa l a) = false) {i k : Nat} (hi : i < 72) (hk : k < 72) :
    lodeRead l a [i, k] b = lodeUe l a b := by
  simp [lodeRead, wordStart_of_aligned ha, hr, hd, hh, hp, judge_uncorrectable hi hk]

/-- A whole storage word is written without a read of what it replaces (10 R273). -/
theorem lodeWrite_of_whole (v0 v1 : Nat) : lodeWrite l a 0 8 v0 v1 false false [] [] [] b =
    memWriteP (lodePa l a) (leBytes 4 v0 ++ leBytes 4 v1) (fun _ => false) b := by
  simp [lodeWrite, wordStart_of_aligned ha, hr, hd, hh, onChip_of_clean, leBytes, b2n]

end Reached

/-! ### The patrol (10 R274) -/

theorem scrubLode_of_clean {l : Nat} {b : Block} (hs : isSet b (fLD_BLK_STAT_SELF_REFRESH l) = false) (hd : domOn b (domLode l) = true)
    (hh : hbmLost b = false) (hmore : (lode b l).scrubPos + 1 < lodeGranules b l * 512) (hf : (lode b l).fill = none)
    (hp : poisoned b (lodePa l ((lode b l).scrubPos * 8)) = false) :
    scrubLode l [] false b = setLode l { lode b l with scrubPos := (lode b l).scrubPos + 1 } b := by
  have hfill : inFill (lode b l) ((lode b l).scrubPos * 8) = false := by simp only [inFill, hf]
  have hread := lodeRead_of_clean (Nat.mul_mod_left _ 8) hp
  simp [scrubLode, hs, hd, hh, hfill, hread, Nat.not_le.mpr hmore]

theorem scrubRead_lode {u l : Nat} (hu : u = l) (hl : l < 12) (flips : List Nat) (caughtUp : Bool) (b : Block) :
    scrubRead u flips caughtUp b = scrubLode l flips caughtUp b := by
  rw [scrubRead, hu, if_pos hl]

theorem scrubCatchup_of_lode {l : Nat} {b : Block} (hl : l < 12) (hc : (lode b l).catchup = false) :
    scrubCatchup l b = yieldGuarantee (ldPage l) 5 2 0x10 (setLode l { lode b l with catchup := true } b) := by
  simp [scrubCatchup, hl, hc]

theorem scrubCatchup_of_slice {g : Nat} {b : Block} (hc : b.sgCatchup.contains g = false) :
    scrubCatchup (12 + g) b = yieldGuarantee (sgPage g) 5 2 0x10 { b with sgCatchup := setInsert b.sgCatchup g } := by
  have hslice : ¬ 12 + g < 12 := by omega
  simp only [scrubCatchup, hslice, if_false, Nat.add_sub_cancel_left, hc, Bool.false_eq_true]

/-! ### The obligation -/

/-- Settles O29: each hypothesis fixes what the check of the word finds, and with it the one branch of the access. -/
theorem lodeAccesses : Obligations.LodeAccesses := by
  intro s l a ha hr hd hh
  refine ⟨fun hp => ⟨?clean, fun i hi => ⟨?one, fun k hk _ => ?two⟩⟩,
    fun hp => ?stored, fun _ _ => ?write, ?patrol, ?lodeLate, ?sliceLate⟩
  case clean => exact run_of_eq (lodeRead_of_clean ha hp)
  case one => exact run_of_eq (lodeRead_of_one_flip ha hr hd hh hp hi)
  case two => exact run_of_eq (lodeRead_of_two_flips ha hr hd hh hp hi hk)
  case stored => exact run_of_eq (lodeRead_of_storedPoison ha hr hd hh hp)
  case write => exact run_of_eq (lodeWrite_of_whole ha hr hd hh _ _)
  case patrol =>
    rintro u hu hs hlost rfl hmore hf hp
    exact run_of_eq ((scrubRead_lode hu l.isLt _ _ _).trans (scrubLode_of_clean hs hd hlost hmore hf hp))
  case lodeLate =>
    intro u hu hc
    exact run_of_eq ((congrArg (scrubCatchup · s.blk) hu).trans (scrubCatchup_of_lode l.isLt hc))
  case sliceLate =>
    intro u g hu hc
    exact run_of_eq ((congrArg (scrubCatchup · s.blk) hu).trans (scrubCatchup_of_slice hc))

end Sys2Proof.Machine
end

section
/-!
PROOFS. The liveness of a gang (11 R301, R305–R307): the check of the generation, a message of a member in the block that has heard it, the
timers, and the obligation `GangLiveness`.
-/

namespace Sys2Proof.Machine

/-! ### The check of the generation (R301) -/

section Gate

variable {b : Block} {mgen : Nat}

theorem genGate_of_older (h : newer16 (gen b) mgen = true) : genGate b mgen = .stale := if_pos h

theorem genGate_of_newer (hold : newer16 (gen b) mgen = false) (h : newer16 mgen (gen b) = true) : genGate b mgen = .hold := by
  simp only [gen] at hold h
  simp only [genGate, hold, h, Bool.false_eq_true, if_false, if_true]

variable (hrole : role b ≠ 0) (src : Nat) (g : GangMsg) (f : Block → Block)

include hrole

theorem gangGate_of_older (h : newer16 (gen b) mgen = true) : gangGate src mgen g f b = bump fGG_CNT_STALE 1 (hears src b) := by
  have hrole' : role (hears src b) ≠ 0 := hrole
  have hgate : genGate (hears src b) mgen = .stale := genGate_of_older h
  simp only [gangGate, if_neg hrole', hgate]

theorem gangGate_of_newer (hold : newer16 (gen b) mgen = false) (h : newer16 mgen (gen b) = true) : gangGate src mgen g f b =
    setGang (fun x => { x with heldGang := x.heldGang ++ [(src, mgen, g)] }) (hears src b) := by
  have hrole' : role (hears src b) ≠ 0 := hrole
  have hgate : genGate (hears src b) mgen = .hold := genGate_of_newer hold h
  simp only [gangGate, if_neg hrole', hgate]

end Gate

/-- A device in a gang keeps the tables that it receives as it handles any message of its gang (R303). -/
theorem tablesIn_of_member {b : Block} (hrole : role b ≠ 0) (src mgen epoch : Nat) (t : Tables) (barrier beat : Nat) :
    ∃ f, tablesIn src mgen epoch t barrier beat b = gangGate src mgen (.tables epoch t barrier beat) f b :=
  ⟨_, if_neg hrole⟩

/-- Each row of a message without a given layout is the check of R301 and what the message does. -/
theorem generationGate : Claims.GenerationGate := by
  intro s src mgen epoch dev tally grp waits barrier beat t hrole i g hi
  have hgated : ∃ f, exec i s = .next (s.after (gangGate src mgen g f s.blk)) := by
    rcases hi with ⟨rfl, rfl⟩ | ⟨rfl, rfl⟩ | ⟨rfl, rfl⟩ | ⟨rfl, rfl⟩ | ⟨rfl, rfl⟩ | ⟨rfl, rfl⟩ | ⟨rfl, rfl⟩
    case inr.inr.inr.inr.inr.inr =>
      obtain ⟨f, hf⟩ := tablesIn_of_member hrole src mgen epoch t barrier beat
      exact ⟨f, run_of_eq hf⟩
    all_goals exact ⟨_, rfl⟩
  obtain ⟨f, hf⟩ := hgated
  refine ⟨fun h => ?_, fun hold h => ?_⟩
  · rw [hf, gangGate_of_older hrole src g f h]
  · rw [hf, gangGate_of_newer hrole src g f hold h]

/-! ### A message of this generation (R301, R305, R306) -/

/-- The block in which a message of this device's generation is handled: its sender heard, and the message held no more. -/
def gangHeard (src : Nat) (g : GangMsg) (b : Block) : Block :=
  setGang (fun x => { x with heldGang := x.heldGang.erase (src, gen b, g) }) (hears src b)

theorem run_gangGate_of_own {s : State} (hrole : role s.blk ≠ 0) {src : Nat} {g : GangMsg} {f : Block → Block} {t : Block}
    (h : f (gangHeard src g s.blk) = t) : s.run (gangGate src (gen s.blk) g f) = .next (s.after t) :=
  run_of_eq ((gangGate_of_own hrole src g f).trans h)

section Heard

variable (src : Nat) (g : GangMsg) (b : Block)

@[simp] theorem role_gangHeard : role (gangHeard src g b) = role b := rfl
@[simp] theorem masterId_gangHeard : masterId (gangHeard src g b) = masterId b := rfl
@[simp] theorem devId_gangHeard : devId (gangHeard src g b) = devId b := rfl
@[simp] theorem others_gangHeard : others (gangHeard src g b) = others b := rfl
@[simp] theorem liveDeputy_gangHeard : liveDeputy (gangHeard src g b) = liveDeputy b := rfl
@[simp] theorem dispatcherRuns_gangHeard : dispatcherRuns (gangHeard src g b) = dispatcherRuns b := rfl
@[simp] theorem gangHeard_loggedDev : (gangHeard src g b).gang.loggedDev = b.gang.loggedDev := rfl
@[simp] theorem gangHeard_takingOver : (gangHeard src g b).gang.takingOver = b.gang.takingOver := rfl
theorem gangHeard_masterQuiet : (gangHeard src g b).gang.masterQuiet = (hears src b).gang.masterQuiet := rfl
theorem gangHeard_heard : (gangHeard src g b).gang.heard = (hears src b).gang.heard := rfl

end Heard

/-- The master's silence ends with any message of it. -/
theorem masterQuiet_hears_master {b : Block} (hcur : b.gang.cur.isSome = true) : (hears (masterId b) b).gang.masterQuiet = false := by
  obtain ⟨t, ht⟩ := Option.isSome_iff_exists.mp hcur
  simp [hears, masterId, ht]

/-- A message of another member leaves the master's silence as it is. -/
theorem masterQuiet_hears_other {b : Block} {src : Nat} (h : src ≠ masterId b) : (hears src b).gang.masterQuiet = b.gang.masterQuiet := by
  cases hcur : b.gang.cur with
  | none => simp [hears, hcur]
  | some t =>
    have hother : t.master ≠ src := fun heq => h (by simp [masterId, hcur, heq])
    simp [hears, hcur, hother]

theorem setInsert_setInsert (l : List Nat) (k : Nat) : setInsert (setInsert l k) k = setInsert l k := by
  induction l with
  | nil => simp [setInsert]
  | cons h t ih =>
    rcases Nat.lt_trichotomy k h with hlt | rfl | hgt
    · simp [setInsert, hlt]
    · simp [setInsert]
    · simp [setInsert, Nat.lt_asymm hgt, Nat.ne_of_gt hgt, ih]

/-- The master has heard each other member that a message comes from (R305). -/
theorem heard_hears_member {b : Block} {src : Nat} (hmaster : role b = 3) (hother : (others b).contains src = true) :
    (hears src b).gang.heard = setInsert b.gang.heard src := by
  cases hcur : b.gang.cur with
  | none => simp [others, hcur] at hother
  | some t =>
    have hmember : src ∈ tblIds t ∧ src ≠ devId b := by simpa [others, hcur] using hother
    have hlisted : (t.members.any fun m => m.1 == src) = true := by simpa [tblIds] using hmember.1
    have hrole : get b fGG_STATE_ROLE = 3 := hmaster
    simp only [hears, hcur, hrole, hlisted, ne_eq, hmember.2, not_false_eq_true, and_self, if_true]

/-- So an answer is counted once: to count its sender again changes nothing. -/
theorem recount_gangHeard {b : Block} {src : Nat} (g : GangMsg) (hmaster : role b = 3) (hother : (others b).contains src = true) :
    setGang (fun x => { x with heard := setInsert x.heard src }) (gangHeard src g b) = gangHeard src g b := by
  have hheard : setInsert (gangHeard src g b).gang.heard src = (gangHeard src g b).gang.heard := by
    rw [gangHeard_heard, heard_hears_member hmaster hother, setInsert_setInsert]
  simp only [setGang, hheard]

/-! ### Heartbeats (R305) -/

section Heartbeats

variable {s : State} {src : Nat}

theorem heartbeatTimer_of_master {b : Block} (hmaster : role b = 3) (hruns : dispatcherRuns b = true) :
    heartbeatTimer b = (others b).foldl (fun b d => sendGang d .heartbeat b) b := by
  simp [heartbeatTimer, hmaster, hruns]

theorem exec_heartbeat_of_running (hrole : role s.blk ≠ 0) (hruns : dispatcherRuns s.blk = true) :
    exec (.heartbeatRow (masterId s.blk) (gen s.blk)) s =
      .next (s.after (sendGang (masterId s.blk) .heartbeatAnswer (gangHeard (masterId s.blk) .heartbeat s.blk))) :=
  run_gangGate_of_own hrole (by simp [hruns])

theorem exec_heartbeat_of_stopped (hrole : role s.blk ≠ 0) (hruns : dispatcherRuns s.blk = false) :
    exec (.heartbeatRow (masterId s.blk) (gen s.blk)) s = .next (s.after (gangHeard (masterId s.blk) .heartbeat s.blk)) :=
  run_gangGate_of_own hrole (by simp [hruns])

theorem exec_heartbeatAnswer (hmaster : role s.blk = 3) (hother : (others s.blk).contains src = true) :
    exec (.heartbeatAnswerRow src (gen s.blk)) s = .next (s.after (
      let b := setGang (fun g => { g with heard := setInsert g.heard src }) (gangHeard src .heartbeatAnswer s.blk)
      tryDecide (if quorum b then setGang (fun g => { g with stopped := false }) b else b))) := by
  rw [recount_gangHeard _ hmaster hother]
  exact run_gangGate_of_own (by omega) (if_neg (by simpa [hmaster] using hother))

/-- The block in which a member's answer is missing. -/
def notHeard (dev : Nat) (b : Block) : Block := setGang (fun g => { g with heard := setErase g.heard dev }) b

section Timeout

variable {b : Block} {dev : Nat} (hmaster : role b = 3) (hother : (others b).contains dev = true)

include hmaster hother

theorem heartbeatTimeout_of_quorum (hq : quorum (notHeard dev b) = true) :
    heartbeatTimeout dev b = declareFailed dev 2 2 (notHeard dev b) := by
  rw [heartbeatTimeout, if_neg (by simpa [hmaster] using hother)]
  exact if_pos hq

theorem heartbeatTimeout_of_no_quorum (hq : quorum (notHeard dev b) = false) :
    heartbeatTimeout dev b = quorumLost (heardCount (notHeard dev b)) (notHeard dev b) := by
  rw [heartbeatTimeout, if_neg (by simpa [hmaster] using hother)]
  exact if_neg (Bool.eq_false_iff.mp hq)

end Timeout

end Heartbeats

/-! ### Declarations (R305, R336) -/

section Declarations

variable {s : State} {dev : Nat} (hrole : role s.blk ≠ 0)

include hrole

theorem exec_failureDeclaration_of_logged (hlogged : ¬ (role s.blk = 2 ∧ dev ≠ devId s.blk ∧ s.blk.gang.loggedDev.contains dev = false)) :
    exec (.failureDeclaration (masterId s.blk) (gen s.blk) dev) s = .next (s.after (applyDeclaration (masterId s.blk) dev
      (setGang (fun g => { g with loggedDev := setErase g.loggedDev dev }) (gangHeard (masterId s.blk) (.declaration dev) s.blk)))) := by
  refine run_gangGate_of_own hrole ?_
  dsimp only
  rw [if_neg (by simp), if_neg (by simpa using hlogged)]

theorem exec_failureDeclaration_of_deputy (hdeputy : role s.blk = 2) (hother : dev ≠ devId s.blk)
    (hfirst : s.blk.gang.loggedDev.contains dev = false) :
    exec (.failureDeclaration (masterId s.blk) (gen s.blk) dev) s = .next (s.after (sendLogAck (masterId s.blk) (stepEpoch s.blk)
      (setGang (fun g => { g with loggedDev := setInsert g.loggedDev dev }) (gangHeard (masterId s.blk) (.declaration dev) s.blk)))) := by
  refine run_gangGate_of_own hrole ?_
  dsimp only
  rw [if_neg (by simp), if_pos (by simpa [hdeputy, hother] using hfirst)]
  rfl

end Declarations

theorem devId_setGang (f : Gang → Gang) (b : Block) : devId (setGang f b) = devId b := rfl

/-- A member that goes to OUT holds no decision (13 R358). -/
theorem goOut_is_out (lost : Bool) (b : Block) :
    pitState (goOut lost b) = 6 ∧ (goOut lost b).pit.decision = none ∧ (goOut lost b).pit.lost = lost :=
  ⟨get_put_self _ fGG_PIT_STATE 6 (by decide), rfl, rfl⟩

theorem applyDeclaration_own_is_out {dev : Nat} {b : Block} (h : dev = devId b) (src : Nat) :
    pitState (applyDeclaration src dev b) = 6 ∧ (applyDeclaration src dev b).pit.decision = none := by
  rw [applyDeclaration, if_pos h]
  obtain ⟨hout, hdecision, -⟩ := goOut_is_out false (excludeScans (excludeAll b))
  exact ⟨hout, hdecision⟩

theorem gangLost_is_out (b : Block) : pitState (gangLost b) = 6 ∧ (gangLost b).pit.lost = true := by
  obtain ⟨hout, -, hlost⟩ := goOut_is_out true (excludeScans (excludeAll b))
  exact ⟨hout, hlost⟩

/-! ### A silent master (R306) -/

section Silence

variable {b : Block} (hin : pitState b ≠ 6)

include hin

theorem masterSilence_of_deputy (hdeputy : role b = 2) (htaking : b.gang.takingOver = false) (hstopped : b.gang.stopped = false) :
    masterSilence b = (others b).foldl (fun b d => sendGang d .takeoverRequest b)
      (setGang (fun g => { g with masterQuiet := true, takingOver := true, acks := [] }) b) := by
  have hmember : ¬ (role b = 0 ∨ role b = 3 ∨ pitState b = 6) := by simp [hdeputy, hin]
  have hnot : ¬ ((setGang (fun g => { g with masterQuiet := true }) b).gang.takingOver ||
      (setGang (fun g => { g with masterQuiet := true }) b).gang.stopped) = true := by simp [setGang, htaking, hstopped]
  rw [masterSilence, if_neg hmember]
  exact (if_pos hdeputy).trans (if_neg hnot)

section Member

variable (hmember : role b = 1)

include hmember

theorem masterSilence_of_member : masterSilence b =
    (let quiet := setGang (fun g => { g with masterQuiet := true }) b
     if b.gang.masterQuiet && (liveDeputy quiet).isNone then gangLost quiet else quiet) := by
  have hin' : ¬ (role b = 0 ∨ role b = 3 ∨ pitState b = 6) := by simp [hmember, hin]
  have hnot : ¬ role b = 2 := by omega
  rw [masterSilence, if_neg hin']
  exact if_neg hnot

theorem masterSilence_of_first (hfirst : b.gang.masterQuiet = false) :
    masterSilence b = setGang (fun g => { g with masterQuiet := true }) b := by
  simp [masterSilence_of_member hin hmember, hfirst]

theorem masterSilence_of_lost (hquiet : b.gang.masterQuiet = true) (hnone : liveDeputy b = none) :
    masterSilence b = gangLost (setGang (fun g => { g with masterQuiet := true }) b) := by
  have hnone' : liveDeputy (setGang (fun g => { g with masterQuiet := true }) b) = none := hnone
  simp [masterSilence_of_member hin hmember, hquiet, hnone']

end Member

end Silence

/-! ### Takeover (R306, R307) -/

section Takeover

variable {s : State} {src : Nat}

theorem exec_takeoverRequest_of_quiet (hrole : role s.blk ≠ 0) (hquiet : s.blk.gang.masterQuiet = true)
    (hdeputy : liveDeputy s.blk = some src) (hother : src ≠ masterId s.blk) :
    exec (.takeoverRequestRow src (gen s.blk)) s =
      .next (s.after (sendGang src .takeoverAck (gangHeard src .takeoverRequest s.blk))) := by
  refine run_gangGate_of_own hrole (if_pos ?_)
  rw [gangHeard_masterQuiet, masterQuiet_hears_other hother, hquiet, liveDeputy_gangHeard, hdeputy]
  simp

theorem exec_takeoverAck_of_deputy (hdeputy : role s.blk = 2) (htaking : s.blk.gang.takingOver = true)
    (hother : (others s.blk).contains src = true) :
    exec (.takeoverAckRow src (gen s.blk)) s = .next (s.after (
      let b := setGang (fun g => { g with acks := setInsert g.acks src }) (gangHeard src .takeoverAck s.blk)
      if majority b (b.gang.acks.length + 1) then becomeMaster b else b)) :=
  run_gangGate_of_own (by omega) (if_neg (by simpa [hdeputy, htaking] using hother))

theorem takeoverTimeout_of_taking {b : Block} (h : b.gang.takingOver = true) : takeoverTimeout b =
    quorumLost (b.gang.acks.length + 1) (setGang (fun g => { g with takingOver := false }) b) := by
  simp [takeoverTimeout, h]

end Takeover

/-! ### The obligation -/

theorem liveness : Claims.Liveness := by
  intro s src dev hrole got
  refine ⟨fun hmaster hruns => ?heartbeats, ?heartbeat, ?silenceEnds, fun hmaster hother => ?answer, fun hmaster hother => ?timeout,
    ?declared, ?logs, ?own, fun hdeputy hin htaking hstopped => ?asks, fun hmember hin hfirst => ?first, ?lost, ?follows,
    fun hdeputy htaking hother => ?acked, fun htaking => ?late⟩
  case heartbeats => exact run_of_eq (heartbeatTimer_of_master hmaster hruns)
  case heartbeat =>
    rintro rfl
    exact ⟨exec_heartbeat_of_running hrole, exec_heartbeat_of_stopped hrole⟩
  case silenceEnds =>
    rintro hcur rfl
    exact masterQuiet_hears_master hcur
  case answer => exact exec_heartbeatAnswer hmaster hother
  case timeout =>
    exact ⟨fun hq => run_of_eq (heartbeatTimeout_of_quorum hmaster hother hq),
      fun hq => run_of_eq (heartbeatTimeout_of_no_quorum hmaster hother hq)⟩
  case declared =>
    rintro rfl - hrole2
    exact exec_failureDeclaration_of_logged hrole (fun h => hrole2 h.1)
  case logs =>
    rintro rfl hother hdeputy hfirst
    exact exec_failureDeclaration_of_deputy hrole hdeputy hother hfirst
  case own =>
    rintro rfl rfl
    refine ⟨_, exec_failureDeclaration_of_logged hrole (fun h => h.2.1 rfl), ?_⟩
    exact applyDeclaration_own_is_out (by rw [devId_setGang, devId_gangHeard]) _
  case asks => exact run_of_eq (masterSilence_of_deputy hin hdeputy htaking hstopped)
  case first => exact run_of_eq (masterSilence_of_first hin hmember hfirst)
  case lost =>
    intro hmember hin hquiet hnone
    exact ⟨_, run_of_eq (masterSilence_of_lost hin hmember hquiet hnone), gangLost_is_out _⟩
  case follows =>
    intro hquiet hdeputy hother
    exact exec_takeoverRequest_of_quiet hrole hquiet hdeputy hother
  case acked => exact exec_takeoverAck_of_deputy hdeputy htaking hother
  case late => exact run_of_eq (takeoverTimeout_of_taking htaking)

/-- Settles O34: the check of R301 with each row's message, and the branch of each row that its hypotheses name. -/
theorem gangLiveness : Obligations.GangLiveness := ⟨generationGate, liveness⟩

end Sys2Proof.Machine
end

section
/-!
PROOFS. What messages that leave (11 R288–R296, R299) do not change: everything but arbiters, links, bundles, what is driven out, free values
drawn, and the count of messages dropped; and what a roll-back of transactions (03 R78) does not change.
-/

namespace Sys2Proof.Machine

/-- The block without what carries messages: arbiters, links, bundles, what is driven out and the free values drawn. -/
def Block.sansTraffic (b : Block) : Block := { b with arb := [], links := [], bundles := [], out := [], free := 0 }

@[simp] theorem sansTraffic_setLink (l : Nat) (x : Link) (b : Block) : (setLink l x b).sansTraffic = b.sansTraffic := (rfl)

@[simp] theorem sansTraffic_emit (o : Out) (b : Block) : (emit o b).sansTraffic = b.sansTraffic := (rfl)

section Same

variable {b b' : Block} (h : b.sansTraffic = b'.sansTraffic)

include h

theorem eq_of_sansTraffic {β : Type} (g : Block → β) (hsans : ∀ b : Block, g b.sansTraffic = g b) : g b = g b' := by
  rw [← hsans b, h, hsans]

theorem rd_of_sansTraffic (o : Nat) : rd b o = rd b' o := eq_of_sansTraffic h (rd · o) (fun _ => rfl)

theorem get_of_sansTraffic (f : Fld) : get b f = get b' f := eq_of_sansTraffic h (get · f) (fun _ => rfl)

theorem mem_of_sansTraffic : b.mem = b'.mem := eq_of_sansTraffic h Block.mem (fun _ => rfl)

theorem cmds_of_sansTraffic : b.cmds = b'.cmds := eq_of_sansTraffic h Block.cmds (fun _ => rfl)

end Same

/-! ### Streams and bundles (R288–R296) -/

section Stream

variable {β : Type} (g : Block → β) (hlink : ∀ l x b, g (setLink l x b) = g b) (hemit : ∀ o b, g (emit o b) = g b)

include hlink hemit

theorem emitFlits_keeps (l n : Nat) (b : Block) : g (emitFlits l n b) = g b := by
  induction n generalizing b with
  | zero => rfl
  | succ n ih => rw [emitFlits, ih, hemit, hlink]

/-- A stream changes its link and what is driven out. -/
theorem stream_keeps (l : Nat) (bs : List Byte) (m : Option Msg) (b : Block) : g (stream l bs m b) = g b := by
  simp only [stream, pumpFlits]
  split
  · rw [emitFlits_keeps g hlink hemit, hlink]
  · exact hlink l _ b

end Stream

theorem sansTraffic_stream (l : Nat) (bs : List Byte) (m : Option Msg) (b : Block) : (stream l bs m b).sansTraffic = b.sansTraffic :=
  stream_keeps Block.sansTraffic sansTraffic_setLink sansTraffic_emit l bs m b

theorem stream_bundles (l : Nat) (bs : List Byte) (m : Option Msg) (b : Block) : (stream l bs m b).bundles = b.bundles :=
  stream_keeps Block.bundles (fun _ _ _ => rfl) (fun _ _ => rfl) l bs m b

theorem sansTraffic_rrGrant (a n : Nat) (req : Nat → Bool) (b : Block) : (rrGrant a n req b).2.sansTraffic = b.sansTraffic := by
  rw [rrGrant]
  split <;> rfl

theorem sansTraffic_onBundle (d : Nat) (m : Msg) (b : Block) : (onBundle d m b).sansTraffic = b.sansTraffic := by
  rw [onBundle]
  split
  · exact (sansTraffic_stream _ _ _ _).trans (sansTraffic_rrGrant _ _ _ b)
  · rfl

theorem sansTraffic_resend (a d : Nat) (b : Block) : (resend a d b).sansTraffic = b.sansTraffic :=
  foldl_keeps Block.sansTraffic _ (fun b m => sansTraffic_onBundle d m b) _ _

/-! ### Messages of this device (R288, R299, log 11) -/

/-- A message that leaves changes what carries messages, or the count of those dropped. -/
theorem routeMsg_keeps {β : Type} (g : Block → β) (hsans : ∀ b : Block, g b.sansTraffic = g b)
    (hdrop : ∀ b, g (bump fGG_CNT_FWD_DROP 1 b) = g b) (m : Msg) (b : Block) : g (routeMsg m b) = g b := by
  rw [routeMsg]
  split
  · exact hdrop b
  · split
    · rw [sendOnBundle, ← hsans, sansTraffic_onBundle]
      exact hsans b
    · exact hdrop b

theorem sendGang_keeps {β : Type} (g : Block → β) (hsans : ∀ b : Block, g b.sansTraffic = g b)
    (hdrop : ∀ b, g (bump fGG_CNT_FWD_DROP 1 b) = g b) (dst : Nat) (m : GangMsg) (b : Block) : g (sendGang dst m b) = g b := by
  have hfree (b : Block) (n : Nat) : g { b with free := n } = g b := (hsans _).symm.trans (hsans b)
  rw [sendGang, routeMsg_keeps g hsans hdrop]
  exact (hfree _ _).trans (hfree b _)

theorem get_sendGang {f : Fld} (hf : f.off ≠ rGG_CNT) (dst : Nat) (m : GangMsg) (b : Block) : get (sendGang dst m b) f = get b f :=
  sendGang_keeps (get · f) (fun _ => rfl) (fun b => get_put_off_ne b _ (Ne.symm hf)) dst m b

theorem sendGang_gang (dst : Nat) (m : GangMsg) (b : Block) : (sendGang dst m b).gang = b.gang :=
  sendGang_keeps (·.gang) (fun _ => rfl) (fun _ => rfl) dst m b

/-! ### The roll-back of a domain's transactions (03 R78) -/

/-- The registers that a roll-back writes: BLK_STAT, BLK_EVT_RAW and TXN_STAT of a page, and TX_STAT. -/
def rollsBack (o : Nat) : Prop := o % 4096 = 0x0c ∨ o % 4096 = 0x10 ∨ o % 4096 = 0x24 ∨ o = rTX_STAT

section Rollback

variable {β : Type} (g : Block → β) (hwr : ∀ b o v, rollsBack o → g (wr b o v) = g b) (hring : ∀ b n r, g (setRing n r b) = g b)
  (htxn : ∀ b t, g { b with txn := t } = g b)

include hwr hring

theorem raise_keeps (p m : Nat) (b : Block) : g (raise p m b) = g b := by
  have hraw (v : W32) : g (wr b (rBLK_EVT_RAW (pageBase p)) v) = g b :=
    hwr _ _ _ (.inr (.inl (by simp only [rBLK_EVT_RAW, pageBase]; omega)))
  simp only [raise]
  split
  · exact hraw _
  · exact (hring _ _ _).trans (hraw _)

theorem discard_keeps (p o c : Nat) (b : Block) : g (discard p o c b) = g b := by
  have hstat (f : Fld) (hf : f.off = pageBase p + 0xc) (v : Nat) (b : Block) : g (put f v b) = g b :=
    hwr _ _ _ (.inl (by simp only [pageBase] at hf; omega))
  rw [discard, raise_keeps g hwr hring, hstat _ rfl, hstat _ rfl]

include htxn

theorem rollbackOne_keeps (r p : Nat) (b : Block) : g (rollbackOne r b p) = g b := by
  have hstat (f : Fld) (hf : f.off = pageBase p + 0x24) (v : Nat) (b : Block) : g (put f v b) = g b :=
    hwr _ _ _ (.inr (.inr (.inl (by simp only [pageBase] at hf; omega))))
  rw [rollbackOne, raise_keeps g hwr hring]
  simp only [endTxn, incr]
  rw [hstat _ rfl, hstat _ rfl, hstat _ rfl, hstat _ rfl, hstat _ rfl, htxn]

theorem rollbackGroup_keeps (r p : Nat) (b : Block) : g (rollbackGroup r p b) = g b := by
  have hstat (f : Fld) (hf : f.off = rTX_STAT) (v : Nat) (b : Block) : g (put f v b) = g b := hwr _ _ _ (.inr (.inr (.inr hf)))
  rw [rollbackGroup, endTx, raise_keeps g hwr hring, htxn, incr, hstat _ rfl, hstat _ rfl, hstat _ rfl, hstat _ rfl]
  exact foldl_keeps g _ (fun b q => rollbackOne_keeps g hwr hring htxn r q b) _ b

/-- What reads none of these registers, no record and no transaction sees no roll-back. -/
theorem domainRollback_keeps (d : Nat) (b : Block) : g (domainRollback d b) = g b := by
  have hone (p r : Nat) (b : Block) : g (rollback p r b) = g b := by
    rw [rollback]
    split
    · rfl
    · split
      · exact rollbackGroup_keeps g hwr hring htxn r p b
      · exact rollbackOne_keeps g hwr hring htxn r p b
  simp only [domainRollback]
  rw [foldl_keeps g _ (fun b e => discard_keeps g hwr hring _ _ _ b), htxn]
  refine foldl_keeps g _ (fun b p => ?_) _ b
  split
  · exact hone p 6 b
  · rfl

end Rollback

theorem raise_links (p m : Nat) (b : Block) : (raise p m b).links = b.links :=
  raise_keeps Block.links (fun _ _ _ _ => rfl) (fun _ _ _ => rfl) p m b

theorem raise_bundles (p m : Nat) (b : Block) : (raise p m b).bundles = b.bundles :=
  raise_keeps Block.bundles (fun _ _ _ _ => rfl) (fun _ _ _ => rfl) p m b

end Sys2Proof.Machine
end

section
/-!
PROOFS. The states of an adit and its identification (11 R291–R295, R310, 17 R475): writes of AD_CTL, what the entry of a state leaves, each
row's branch, and the obligation `AditStates`.
-/

namespace Sys2Proof.Machine

/-! ### The adit's page (03 R67) -/

theorem pageOf_adit {a : Nat} (ha : a < 18) : pageOf (0x120 + a) = some (.ad, a) := by
  rw [pageOf]
  repeat rw [if_neg (by omega)]
  rw [if_pos (by omega), Nat.add_sub_cancel_left]

theorem rAD_CTL_div (a : Nat) : rAD_CTL a / 4096 = 0x120 + a :=
  page_of_place (o := 0x040) (by omega) (by simp only [rAD_CTL, adBase, pageBase]; omega)

theorem rAD_CTL_mod (a : Nat) : rAD_CTL a % 4096 = 0x040 :=
  offset_of_place (p := 0x120 + a) (by omega) (by simp only [rAD_CTL, adBase, pageBase]; omega)

/-- A write of AD_CTL that acts: EN takes its value, then CLR_CNT and RETRAIN act. -/
theorem writeNat_adCtl {a : Nat} (ha : a < 18) {port : Port} {v : Nat} {b : Block} (h : actsNowNat b port (rAD_CTL a) v = true) :
    writeNat port (rAD_CTL a) v b = onBit (BitVec.ofNat 32 v) 1 (aditRetrain a) (onBit (BitVec.ofNat 32 v) 2 (aditClear a)
      (aditEnable a (bit (BitVec.ofNat 32 v) 0) (granted port (rAD_CTL a / 4096) b))) := by
  have hclr : ¬ rAD_CTL a % 4096 = 0x018 := by simp [rAD_CTL_mod]
  have halert : ¬ rAD_CTL a = rPW_ALERT := by simp only [rAD_CTL, adBase, rPW_ALERT, pwBase]; omega
  have hrw (v : W32) (b : Block) : applyRw (rAD_CTL a) v b = aditEnable a (bit v 0) b := by
    simp [applyRw, rAD_CTL_div, rAD_CTL_mod, pageOf_adit ha]
  have hwo (v : W32) (b : Block) :
      applyWo port (rAD_CTL a) v b = onBit v 1 (aditRetrain a) (onBit v 2 (aditClear a) b) := by
    simp [applyWo, rAD_CTL_div, rAD_CTL_mod, pageOf_adit ha]
  rw [Machine.writeNat, regWriteAt_acts port _ _ b h, hwo, applyW1c, if_neg hclr, if_neg halert, hrw]

/-! ### Changes of one page -/

/-- Of memory, commands and registers, only registers of page `p` differ. -/
structure ChangesPage (p : Nat) (b t : Block) : Prop where
  mem : t.mem = b.mem
  cmds : t.cmds = b.cmds
  elsewhere : ∀ o, o / 4096 ≠ p → rd t o = rd b o

namespace ChangesPage

variable {p : Nat} {b t u : Block}

theorem trans (h : ChangesPage p b t) (h' : ChangesPage p t u) : ChangesPage p b u :=
  ⟨h'.mem.trans h.mem, h'.cmds.trans h.cmds, fun o ho => (h'.elsewhere o ho).trans (h.elsewhere o ho)⟩

theorem get_eq (h : ChangesPage p b t) {f : Fld} (hf : f.off / 4096 ≠ p) : get t f = get b f := by
  rw [get, h.elsewhere _ hf, ← get]

theorem of_sansTraffic (h : t.sansTraffic = b.sansTraffic) : ChangesPage p b t :=
  ⟨mem_of_sansTraffic h, cmds_of_sansTraffic h, fun o _ => rd_of_sansTraffic h o⟩

theorem of_put {f : Fld} (hf : f.off / 4096 = p) (v : Nat) (b : Block) : ChangesPage p b (put f v b) :=
  ⟨rfl, rfl, fun _ ho => rd_put_ne b v (fun heq => ho (heq ▸ hf))⟩

theorem of_raise (p m : Nat) (b : Block) : ChangesPage p b (raise p m b) :=
  ⟨raise_mem p b m, raise_cmds p b m, fun _ ho => rd_raise_ne p b m (fun heq => ho (by subst heq; simp only [rBLK_EVT_RAW, pageBase]; omega))⟩

theorem of_canaryAdd (k : CanaryKind) (n : Nat) (b : Block) : ChangesPage p b (canaryAdd k n b) := ⟨rfl, rfl, fun _ _ => rfl⟩

end ChangesPage

/-- A change of an adit's page gives the adit its state and leaves every other adit alone. -/
theorem aditEntered_of_changesPage {b t : Block} {a st : Nat} (h : ChangesPage (0x120 + a) b t) (hst : aditState t a = st) :
    aditEntered b t a st := by
  refine ⟨hst, h.mem, h.cmds, fun a' _ hne => ⟨h.get_eq ?_, h.get_eq ?_⟩⟩
  · simp only [fAD_BLK_STAT_STATE, adBase]
    omega
  · simp only [fAD_PEER_PEER_ID, adBase]
    omega

/-! ### Fields of an adit's page -/

section Fields

variable (a : Nat) (b : Block)

theorem adit_field_page {f : Fld} {o : Nat} (ho : o < 4096) (hf : f.off = adBase a + o) : f.off / 4096 = 0x120 + a := by
  rw [hf, adBase]
  omega

theorem aditState_setAdit {st : Nat} (h : st < 16) : aditState (setAdit a st b) a = st := by
  rw [aditState, setAdit, get_put_self _ _ _ (by simp [fAD_BLK_STAT_STATE])]
  exact Nat.mod_eq_of_lt h

theorem changesPage_setAdit (st : Nat) : ChangesPage (0x120 + a) b (setAdit a st b) :=
  .of_put (adit_field_page a (o := 0xc) (by omega) rfl) st b

theorem peerId_clearPeer : peerId (clearPeer a b) a = 0xFFFF := by
  rw [peerId, clearPeer, get_put_ne _ _ (by simp [fAD_PEER_PEER_ID]) (by simp [fAD_PEER_PEER_ID, fAD_PEER_PEER_STEP]),
    get_put_ne _ _ (by simp [fAD_PEER_PEER_ID]) (by simp [fAD_PEER_PEER_ID, fAD_PEER_PEER_ADIT]),
    get_put_self _ _ _ (by simp [fAD_PEER_PEER_ID])]
  simp [fAD_PEER_PEER_ID]

theorem changesPage_clearPeer : ChangesPage (0x120 + a) b (clearPeer a b) := by
  have hput (f : Fld) (hf : f.off = adBase a + 0x44) (v : Nat) (b : Block) : ChangesPage (0x120 + a) b (put f v b) :=
    .of_put (adit_field_page a (by omega) hf) v b
  exact ((hput _ rfl _ b).trans (hput _ rfl _ _)).trans (hput _ rfl _ _)

theorem peerId_setAdit (st : Nat) : peerId (setAdit a st b) a = peerId b a :=
  get_put_off_ne b st (by simp [fAD_BLK_STAT_STATE, fAD_PEER_PEER_ID])

/-- What is raised on the adit's page is no state of it and no peer. -/
theorem aditState_raise (m : Nat) : aditState (raise (0x120 + a) m b) a = aditState b a :=
  get_raise_ne _ b (by simp only [fAD_BLK_STAT_STATE, adBase, rBLK_EVT_RAW, pageBase]; omega) m

theorem peerId_raise (m : Nat) : peerId (raise (0x120 + a) m b) a = peerId b a :=
  get_raise_ne _ b (by simp only [fAD_PEER_PEER_ID, adBase, rBLK_EVT_RAW, pageBase]; omega) m

@[simp] theorem get_canaryAdd (k : CanaryKind) (n : Nat) (f : Fld) : get (canaryAdd k n b) f = get b f := (rfl)

@[simp] theorem get_setLink (l : Nat) (x : Link) (f : Fld) : get (setLink l x b) f = get b f := (rfl)

end Fields

/-! ### DOWN (R291, R294) -/

section Down

variable (a : Nat) (b : Block)

/-- The adit is DOWN, its peer forgotten and the fall counted; its link is as it was. -/
def aditDown : Block := canaryAdd .down 1 (bump (fAD_TRAIN_DOWNS a) 1 (setAdit a 7 (clearPeer a b)))

theorem enterDown_of_up (h : aditState b a = 5 ∨ aditState b a = 6) :
    enterDown a b = raise (0x120 + a) 32 (resend a (peerId b a) (aditDown a b)) := if_pos h

theorem enterDown_of_below (h : ¬ (aditState b a = 5 ∨ aditState b a = 6)) : enterDown a b = setLink a Link.fresh (aditDown a b) := if_neg h

theorem get_aditDown {f : Fld} (hcount : f.off ≠ rAD_TRAIN a) : get (aditDown a b) f = get (setAdit a 7 (clearPeer a b)) f := by
  rw [aditDown, get_canaryAdd, bump, get_put_off_ne _ _ (Ne.symm hcount)]

theorem aditState_aditDown : aditState (aditDown a b) a = 7 := by
  rw [aditState, get_aditDown a b (by simp [fAD_BLK_STAT_STATE, rAD_TRAIN])]
  exact aditState_setAdit a _ (by decide)

theorem peerId_aditDown : peerId (aditDown a b) a = 0xFFFF := by
  rw [peerId, get_aditDown a b (by simp [fAD_PEER_PEER_ID, rAD_TRAIN])]
  exact (peerId_setAdit a _ 7).trans (peerId_clearPeer a b)

theorem changesPage_aditDown : ChangesPage (0x120 + a) b (aditDown a b) := by
  have hdown : ChangesPage (0x120 + a) b (setAdit a 7 (clearPeer a b)) := (changesPage_clearPeer a b).trans (changesPage_setAdit a _ 7)
  exact (hdown.trans (.of_put (adit_field_page a (o := 0x50) (by omega) rfl) _ _)).trans (.of_canaryAdd .down 1 _)

theorem enterDown_leaves : ChangesPage (0x120 + a) b (enterDown a b) ∧ aditState (enterDown a b) a = 7 ∧ peerId (enterDown a b) a = 0xFFFF := by
  by_cases h : aditState b a = 5 ∨ aditState b a = 6
  · have hresent := sansTraffic_resend a (peerId b a) (aditDown a b)
    have hstate : aditState (resend a (peerId b a) (aditDown a b)) a = 7 := (get_of_sansTraffic hresent _).trans (aditState_aditDown a b)
    have hpeer : peerId (resend a (peerId b a) (aditDown a b)) a = 0xFFFF := (get_of_sansTraffic hresent _).trans (peerId_aditDown a b)
    rw [enterDown_of_up a b h, aditState_raise, peerId_raise]
    exact ⟨((changesPage_aditDown a b).trans (.of_sansTraffic hresent)).trans (.of_raise _ _ _), hstate, hpeer⟩
  · rw [enterDown_of_below a b h]
    exact ⟨(changesPage_aditDown a b).trans (.of_sansTraffic (sansTraffic_setLink _ _ _)), (get_setLink _ _ _ _).trans (aditState_aditDown a b),
      (get_setLink _ _ _ _).trans (peerId_aditDown a b)⟩

/-- LINK_DOWN (R291). -/
theorem enterDown_raises (h : aditState b a = 5 ∨ aditState b a = 6) :
    bit (rd (enterDown a b) (rBLK_EVT_RAW (pageBase (0x120 + a)))) 5 = true := by
  simp [enterDown_of_up a b h, rd_raise_self, bit]

end Down

/-! ### UP (R291, R295) -/

section Up

variable (a d : Nat) (forms : Bool) (b : Block)

/-- The adit is UP with a new link; what it kept is not yet sent again. -/
def aditUp : Block := raise (0x120 + a) 16 (setAdit a 5 (setLink a Link.fresh b))

/-- The bundle of an adit that is UP, where one forms. -/
def bundleUp : Block := if forms then formBundle d (aditUp a b) else aditUp a b

theorem enterUp_eq : enterUp a d forms b = ((link b a).unacked.filterMap (fun e => e.2)).foldl
    (fun b m => stream a (msgBytes m) (some m) (emit (.message a m) b)) (bundleUp a d forms b) := rfl

theorem sansTraffic_enterUp : (enterUp a d forms b).sansTraffic = (aditUp a b).sansTraffic := by
  have hbundle : (bundleUp a d forms b).sansTraffic = (aditUp a b).sansTraffic := by
    rw [bundleUp]
    split <;> rfl
  have hsent (b : Block) (m : Msg) : (stream a (msgBytes m) (some m) (emit (.message a m) b)).sansTraffic = b.sansTraffic :=
    sansTraffic_stream a _ _ _
  rw [enterUp_eq, foldl_keeps Block.sansTraffic _ hsent, hbundle]

theorem changesPage_enterUp : ChangesPage (0x120 + a) b (enterUp a d forms b) := by
  have hlink : ChangesPage (0x120 + a) b (setLink a Link.fresh b) := .of_sansTraffic (sansTraffic_setLink _ _ _)
  have hup : ChangesPage (0x120 + a) b (aditUp a b) := hlink.trans ((changesPage_setAdit a _ 5).trans (.of_raise _ 16 _))
  exact hup.trans (.of_sansTraffic (sansTraffic_enterUp a d forms b))

theorem get_enterUp {f : Fld} (hraw : f.off ≠ rBLK_EVT_RAW (pageBase (0x120 + a))) :
    get (enterUp a d forms b) f = get (setAdit a 5 b) f :=
  (get_of_sansTraffic (sansTraffic_enterUp a d forms b) f).trans (get_raise_ne _ _ hraw 16)

theorem aditState_enterUp : aditState (enterUp a d forms b) a = 5 :=
  (get_enterUp a d forms b (by simp only [fAD_BLK_STAT_STATE, adBase, rBLK_EVT_RAW, pageBase]; omega)).trans (aditState_setAdit a b (by decide))

/-- LINK_UP (R291). -/
theorem enterUp_raises : bit (rd (enterUp a d forms b) (rBLK_EVT_RAW (pageBase (0x120 + a)))) 4 = true := by
  rw [rd_of_sansTraffic (sansTraffic_enterUp a d forms b), aditUp, rd_raise_self]
  simp [bit]

/-- A bundle that forms numbers again from zero what waited for it (R295). -/
theorem bundle_enterUp : bundle (enterUp a d true b) d = ⟨(bundle b d).queued.length, 0, [], renumber 0 (bundle b d).queued⟩ := by
  have hsame : bundle (aditUp a b) d = bundle b d := congrArg (mapGet Bundle.fresh · d) (raise_bundles _ 16 _)
  have hstream (b : Block) (m : Msg) : (stream a (msgBytes m) (some m) (emit (.message a m) b)).bundles = b.bundles :=
    stream_bundles a _ _ _
  have hsent : (enterUp a d true b).bundles = (bundleUp a d true b).bundles := foldl_keeps Block.bundles _ hstream _ _
  rw [bundle, hsent, bundleUp, if_pos rfl, formBundle, hsame]
  exact mapGet_set_self _ _ _ _

end Up

/-! ### RETRAIN (R293) -/

section Retrain

variable (a : Nat) (b : Block)

/-- The adit in RETRAIN, the retrain counted and not yet signalled. -/
def aditRetrains : Block :=
  canaryAdd .retrain 1 (bump (fAD_TRAIN_RETRAINS a) 1 (setAdit a 6 (setLink a { link b a with full := 0, replays := 0 } b)))

theorem enterRetrain_eq : enterRetrain a true b = emit (.retrain a) (raise (0x120 + a) 64 (aditRetrains a b)) := rfl

theorem changesPage_enterRetrain : ChangesPage (0x120 + a) b (enterRetrain a true b) := by
  have hlink : ChangesPage (0x120 + a) b (setLink a { link b a with full := 0, replays := 0 } b) :=
    .of_sansTraffic (sansTraffic_setLink _ _ _)
  have hcount : ChangesPage (0x120 + a) b (aditRetrains a b) :=
    ((hlink.trans (changesPage_setAdit a _ 6)).trans (.of_put (adit_field_page a (o := 0x50) (by omega) rfl) _ _)).trans
      (.of_canaryAdd .retrain 1 _)
  exact (hcount.trans (.of_raise _ 64 _)).trans (.of_sansTraffic (sansTraffic_emit _ _))

theorem aditState_aditRetrains : aditState (aditRetrains a b) a = 6 := by
  rw [aditState, aditRetrains, get_canaryAdd, bump, get_put_off_ne _ _ (by simp [fAD_TRAIN_RETRAINS, fAD_BLK_STAT_STATE])]
  exact aditState_setAdit a _ (by decide)

theorem aditState_enterRetrain : aditState (enterRetrain a true b) a = 6 :=
  (aditState_raise a (aditRetrains a b) 64).trans (aditState_aditRetrains a b)

theorem unacked_enterRetrain : (link (enterRetrain a true b) a).unacked = (link b a).unacked := by
  have hlink : link (enterRetrain a true b) a = { link b a with full := 0, replays := 0 } :=
    (congrArg (mapGet Link.fresh · a) (raise_links (0x120 + a) 64 (aditRetrains a b))).trans (mapGet_set_self Link.fresh b.links a _)
  rw [hlink]

theorem enterRetrain_raises : bit (rd (enterRetrain a true b) (rBLK_EVT_RAW (pageBase (0x120 + a)))) 6 = true := by
  have hraw := rd_raise_self (0x120 + a) (aditRetrains a b) 64
  rw [enterRetrain_eq]
  exact (congrArg (bit · 6) hraw).trans (by simp [bit])

end Retrain

end Sys2Proof.Machine
end

section
/-!
PROOFS. The rows of an adit (11 R291–R294, R310, 17 R475), its identification (R292), and the obligation `AditStates`.
-/

namespace Sys2Proof.Machine

/-! ### DISABLED (R294) -/

section Disabled

variable (a : Nat) (b : Block)

/-- The adit is DISABLED and its peer forgotten; its link is as it was. -/
def aditOff : Block := setAdit a 0 (clearPeer a b)

theorem disableAdit_eq : ∃ t, t.sansTraffic = (aditOff a b).sansTraffic ∧
    disableAdit a b = domainRollback (domAdit a) (setDom (domAdit a) 0 t) := by
  simp only [disableAdit]
  split
  · exact ⟨_, sansTraffic_resend a _ _, rfl⟩
  · exact ⟨_, sansTraffic_setLink a _ _, rfl⟩

theorem mem_disableAdit : (disableAdit a b).mem = b.mem := by
  obtain ⟨t, hsame, heq⟩ := disableAdit_eq a b
  have hdom : (setDom (domAdit a) 0 t).mem = t.mem := by
    rw [setDom]
    split <;> rfl
  rw [heq, domainRollback_keeps Block.mem (fun _ _ _ _ => rfl) (fun _ _ _ => rfl) (fun _ _ => rfl), hdom, mem_of_sansTraffic hsame]
  rfl

variable {a}

/-- A field of the adit's page lies in no register of domains. -/
theorem get_setDom_adit {f : Fld} (hf : f.off / 4096 = 0x120 + a) (v : Nat) (b : Block) :
    get (setDom (domAdit a) v b) f = get b f := by
  rw [setDom]
  split
  · rfl
  · refine get_put_off_ne b v ?_
    simp only [fDom, domAdit, rPW_DOM, pwBase]
    omega

/-- What the adit's page shows after a disable, beside the registers that a roll-back writes. -/
theorem get_disableAdit {f : Fld} (hf : f.off / 4096 = 0x120 + a) (hroll : ¬ rollsBack f.off) :
    get (disableAdit a b) f = get (aditOff a b) f := by
  obtain ⟨t, hsame, heq⟩ := disableAdit_eq a b
  have hwr (b : Block) (o : Nat) (v : W32) (ho : rollsBack o) : get (wr b o v) f = get b f :=
    get_wr_ne b v (fun h => hroll (h ▸ ho))
  rw [heq, domainRollback_keeps (get · f) hwr (fun _ _ _ => rfl) (fun _ _ => rfl), get_setDom_adit hf, get_of_sansTraffic hsame]

theorem aditState_disableAdit : aditState (disableAdit a b) a = 0 := by
  obtain ⟨t, hsame, heq⟩ := disableAdit_eq a b
  have hsteady : (fAD_BLK_STAT_STATE a).steady := by
    simp only [Fld.steady, fAD_BLK_STAT_STATE, adBase]
    omega
  rw [aditState, heq, get_domainRollback_steady hsteady, get_setDom_adit (adit_field_page a (o := 0xc) (by omega) rfl),
    get_of_sansTraffic hsame]
  exact aditState_setAdit a _ (by decide)

theorem peerId_disableAdit : peerId (disableAdit a b) a = 0xFFFF := by
  have hroll : ¬ rollsBack (fAD_PEER_PEER_ID a).off := by
    simp only [rollsBack, fAD_PEER_PEER_ID, adBase, rTX_STAT, txBase]
    omega
  rw [peerId, get_disableAdit b (adit_field_page a (o := 0x44) (by omega) rfl) hroll]
  exact (peerId_setAdit a _ 0).trans (peerId_clearPeer a b)

theorem enabled_disableAdit : get (disableAdit a b) (fAD_CTL_EN a) = get b (fAD_CTL_EN a) := by
  have hroll : ¬ rollsBack (fAD_CTL_EN a).off := by
    simp only [rollsBack, fAD_CTL_EN, adBase, rTX_STAT, txBase]
    omega
  have hpeer (f : Fld) (hf : f.off = rAD_PEER a) (v : Nat) (b : Block) : get (put f v b) (fAD_CTL_EN a) = get b (fAD_CTL_EN a) :=
    get_put_off_ne b v (by simp [hf, rAD_PEER, fAD_CTL_EN])
  rw [get_disableAdit b (adit_field_page a (o := 0x40) (by omega) rfl) hroll, aditOff, setAdit,
    get_put_off_ne _ _ (by simp [fAD_BLK_STAT_STATE, fAD_CTL_EN]), clearPeer, hpeer _ rfl, hpeer _ rfl, hpeer _ rfl]

end Disabled

/-! ### Writes of AD_CTL (R291, R293, R294, R310) -/

section Control

variable {s : State} {a : Fin 18} {port : Port}

theorem aditEnable_of_disabled {a : Nat} {b : Block} (hoff : isSet b (fAD_CTL_EN a) = false) (hdom : dom b (domAdit a) ≠ 3) :
    aditEnable a true b = setAdit a 1 (put (fDom (domAdit a)) 2 (put (fAD_CTL_EN a) 1 b)) := by
  have hdom' : dom (put (fAD_CTL_EN a) 1 b) (domAdit a) ≠ 3 := by
    rw [dom, get_put_off_ne _ _ (by simp only [fAD_CTL_EN, adBase, fDom, domAdit, rPW_DOM, pwBase]; omega), ← dom]
    exact hdom
  rw [← setDom_eq _ _ _ hdom']
  simp only [aditEnable, hoff, Bool.false_eq_true, if_false, if_true, b2n]

theorem aditEnable_of_enabled {a : Nat} {b : Block} (hon : isSet b (fAD_CTL_EN a) = true) :
    aditEnable a true b = put (fAD_CTL_EN a) 1 b := by
  simp only [aditEnable, hon, if_true, b2n]

theorem aditEnable_off {a : Nat} {b : Block} (hon : isSet b (fAD_CTL_EN a) = true) :
    aditEnable a false b = disableAdit a (put (fAD_CTL_EN a) 0 b) := by
  simp [aditEnable, hon, b2n]

theorem isSet_granted (p : Nat) (b : Block) (f : Fld) : isSet (granted port p b) f = isSet b f := by
  simp only [isSet, get_granted]

theorem exec_adEnWrite_on (h : actsNowNat s.blk port (rAD_CTL a) 1 = true) (hoff : isSet s.blk (fAD_CTL_EN a) = false)
    (hdom : dom s.blk (domAdit a) ≠ 3) : exec (.adEnWrite port a true) s = .next (s.after (setAdit a 1 (put (fDom (domAdit a)) 2
      (put (fAD_CTL_EN a) 1 (granted port (rAD_CTL a / 4096) s.blk))))) := by
  refine run_of_eq ((writeNat_adCtl a.isLt h).trans ?_)
  rw [onBit_of_clear rfl, onBit_of_clear rfl]
  exact aditEnable_of_disabled ((isSet_granted _ _ _).trans hoff) (by rwa [dom, get_granted])

theorem exec_adEnWrite_off (h : actsNowNat s.blk port (rAD_CTL a) 0 = true) (hon : isSet s.blk (fAD_CTL_EN a) = true) :
    exec (.adEnWrite port a false) s = .next (s.after (disableAdit a (put (fAD_CTL_EN a) 0 (granted port (rAD_CTL a / 4096) s.blk)))) := by
  refine run_of_eq ((writeNat_adCtl a.isLt h).trans ?_)
  rw [onBit_of_clear rfl, onBit_of_clear rfl]
  exact aditEnable_off ((isSet_granted _ _ _).trans hon)

theorem mem_granted (p : Nat) (b : Block) : (granted port p b).mem = b.mem := by
  obtain ⟨arb, heq⟩ := granted_eq port p b
  rw [heq]

/-- What a disable leaves. -/
theorem disabled_adEnWrite (a : Fin 18) (b : Block) :
    let t := disableAdit a (put (fAD_CTL_EN a) 0 b)
    aditState t a = 0 ∧ peerId t a = 0xFFFF ∧ isSet t (fAD_CTL_EN a) = false ∧ t.mem = b.mem := by
  refine ⟨aditState_disableAdit _, peerId_disableAdit _, ?_, mem_disableAdit _ _⟩
  rw [isSet, enabled_disableAdit _, get_put_self _ _ _ (by simp [fAD_CTL_EN])]
  rfl

theorem exec_adRetrain_of_up (h : actsNowNat s.blk port (rAD_CTL a) 3 = true) (hon : isSet s.blk (fAD_CTL_EN a) = true)
    (hup : aditState s.blk a = 5) : exec (.adRetrain port a true) s = .next (s.after (enterRetrain a true
      (put (fAD_CTL_EN a) 1 (granted port (rAD_CTL a / 4096) s.blk)))) := by
  have hup' : aditState (put (fAD_CTL_EN a) 1 (granted port (rAD_CTL a / 4096) s.blk)) a = 5 := by
    rw [aditState, get_put_off_ne _ _ (by simp [fAD_CTL_EN, fAD_BLK_STAT_STATE]), get_granted]
    exact hup
  refine run_of_eq ((writeNat_adCtl a.isLt h).trans ?_)
  rw [onBit_of_set rfl, onBit_of_clear rfl]
  refine (congrArg (aditRetrain a) (aditEnable_of_enabled ((isSet_granted _ _ _).trans hon))).trans ?_
  exact if_pos hup'

theorem exec_adClrCnt_of_enabled (h : actsNowNat s.blk port (rAD_CTL a) 5 = true) (hon : isSet s.blk (fAD_CTL_EN a) = true) :
    exec (.adClrCnt port a true) s = .next (s.after (aditClear a (put (fAD_CTL_EN a) 1 (granted port (rAD_CTL a / 4096) s.blk)))) := by
  refine run_of_eq ((writeNat_adCtl a.isLt h).trans ?_)
  rw [onBit_of_clear rfl, onBit_of_set rfl]
  exact congrArg (aditClear a) (aditEnable_of_enabled ((isSet_granted _ _ _).trans hon))

end Control

/-! ### Presence, training and alignment (R291, R293) -/

section Rows

variable {a : Nat} {b : Block}

theorem presenceSeen_of_detect (h : aditState b a = 1) (optical : Bool) : presenceSeen a optical b =
    setAdit a 2 (put (fAD_BLK_STAT_OPTICAL a) (b2n optical) (put (fAD_BLK_STAT_PRESENT a) 1 b)) := by
  refine if_pos ?_
  rw [aditState, get_put_ne _ _ (by simp [fAD_BLK_STAT_STATE]) (by simp [fAD_BLK_STAT_STATE, fAD_BLK_STAT_OPTICAL]),
    get_put_ne _ _ (by simp [fAD_BLK_STAT_STATE]) (by simp [fAD_BLK_STAT_STATE, fAD_BLK_STAT_PRESENT])]
  exact h

theorem presenceLost_of_started (hlo : 2 ≤ aditState b a) (hhi : aditState b a ≤ 6) :
    presenceLost a b = enterDown a (put (fAD_BLK_STAT_PRESENT a) 0 b) := by
  have hstate : aditState (put (fAD_BLK_STAT_PRESENT a) 0 b) a = aditState b a :=
    get_put_ne b 0 (by simp [fAD_BLK_STAT_STATE]) (by simp [fAD_BLK_STAT_STATE, fAD_BLK_STAT_PRESENT])
  refine if_pos ?_
  rw [hstate]
  exact ⟨hlo, hhi⟩

theorem aditState_put_reversed (v : Nat) (b : Block) : aditState (put (fAD_BLK_STAT_REVERSED a) v b) a = aditState b a :=
  get_put_ne b v (by simp [fAD_BLK_STAT_STATE]) (by simp [fAD_BLK_STAT_STATE, fAD_BLK_STAT_REVERSED])

theorem inTrain_of_train (h : aditState b a = 2) : inTrain b a = true := by simp [inTrain, h]

theorem inTrain_of_retrain (h : aditState b a = 6) (hpart : (link b a).full = 1) : inTrain b a = true := by
  simp [inTrain, retrainPart, h, hpart]

theorem inAlign_of_align (h : aditState b a = 3) : inAlign b a = true := by simp [inAlign, h]

theorem inAlign_of_retrain (h : aditState b a = 6) (hpart : (link b a).full = 2) : inAlign b a = true := by
  simp [inAlign, retrainPart, h, hpart]

theorem trainDone_of_train (h : aditState b a = 2) (reversed : Bool) :
    trainDone a reversed b = setAdit a 3 (put (fAD_BLK_STAT_REVERSED a) (b2n reversed) b) := by
  simp [trainDone, inTrain_of_train h, aditState_put_reversed, h]

theorem trainDone_of_retrain (h : aditState b a = 6) (hpart : (link b a).full = 1) (reversed : Bool) : trainDone a reversed b =
    setLink a { link b a with full := 2 } (put (fAD_BLK_STAT_REVERSED a) (b2n reversed) b) := by
  simp only [trainDone, inTrain_of_retrain h hpart, aditState_put_reversed, h]
  rfl

theorem trainTimeout_of_inTrain (h : inTrain b a = true) : trainTimeout a b = enterDown a b := if_pos h

theorem alignDone_of_align (h : aditState b a = 3) : alignDone a b = setAdit a 4 (setLink a Link.fresh b) := by
  simp [alignDone, inAlign_of_align h, h]

theorem alignDone_of_retrain (h : aditState b a = 6) (hpart : (link b a).full = 2) :
    alignDone a b = enterUp a (peerId b a) false b := by
  simp [alignDone, inAlign_of_retrain h hpart, h]

theorem alignTimeout_of_inAlign (h : inAlign b a = true) : alignTimeout a b = enterDown a b := if_pos h

theorem retrainNow_of_up (h : aditState b a = 5) : retrainNow a b = enterRetrain a true b := if_pos h

theorem quickDone_of_quick (h : aditState b a = 6) (hpart : (link b a).full = 0) : quickDone a b = enterUp a (peerId b a) false b :=
  if_pos ⟨h, hpart⟩

theorem quickFail_of_quick (h : aditState b a = 6) (hpart : (link b a).full = 0) :
    quickFail a b = setLink a { link b a with full := 1 } b :=
  if_pos ⟨h, hpart⟩

theorem downRetryAdit_of_down (h : aditState b a = 7) (hon : isSet b (fAD_CTL_EN a) = true) : downRetryAdit a b = setAdit a 1 b :=
  if_pos ⟨h, hon⟩

end Rows

/-- Each row's state and part of a retrain name its branch. -/
theorem aditChanges : Claims.AditChanges := by
  intro s a port f st full
  refine ⟨exec_adEnWrite_on, fun h hon => ⟨_, exec_adEnWrite_off h hon, ?off⟩, fun h => ?present, fun hlo hhi => ?absent, ?down,
    fun h => ?train, fun h hpart => ?retrainTrain, fun h => ?align, fun h hpart => ?retrainAlign, ?up, fun h => ?retrain,
    exec_adRetrain_of_up, fun h hpart => ?quick, fun h hon => ?retry, exec_adClrCnt_of_enabled⟩
  case off =>
    obtain ⟨hstate, hpeer, hoff, hmem⟩ := disabled_adEnWrite a (granted port (rAD_CTL a / 4096) s.blk)
    exact ⟨hstate, hpeer, hoff, hmem.trans (mem_granted _ _)⟩
  case present => exact run_of_eq (presenceSeen_of_detect h f)
  case absent => exact run_of_eq (presenceLost_of_started hlo hhi)
  case down =>
    obtain ⟨hpage, hstate, hpeer⟩ := enterDown_leaves a s.blk
    exact ⟨aditEntered_of_changesPage hpage hstate, hpeer, enterDown_raises a s.blk⟩
  case train =>
    exact ⟨run_of_eq (trainDone_of_train h f), run_of_eq (trainTimeout_of_inTrain (inTrain_of_train h))⟩
  case retrainTrain =>
    exact ⟨run_of_eq (trainDone_of_retrain h hpart f), run_of_eq (trainTimeout_of_inTrain (inTrain_of_retrain h hpart))⟩
  case align => exact ⟨run_of_eq (alignDone_of_align h), run_of_eq (alignTimeout_of_inAlign (inAlign_of_align h))⟩
  case retrainAlign =>
    exact ⟨run_of_eq (alignDone_of_retrain h hpart), run_of_eq (alignTimeout_of_inAlign (inAlign_of_retrain h hpart))⟩
  case up =>
    exact ⟨aditEntered_of_changesPage (changesPage_enterUp a _ f s.blk) (aditState_enterUp a _ f s.blk), enterUp_raises a _ f s.blk⟩
  case retrain =>
    exact ⟨run_of_eq (retrainNow_of_up h), run_of_eq (retrainNow_of_up h),
      aditEntered_of_changesPage (changesPage_enterRetrain a s.blk) (aditState_enterRetrain a s.blk), unacked_enterRetrain a s.blk,
      enterRetrain_raises a s.blk⟩
  case quick => exact ⟨run_of_eq (quickDone_of_quick h hpart), run_of_eq (quickFail_of_quick h hpart)⟩
  case retry => exact run_of_eq (downRetryAdit_of_down h hon)

/-! ### Identification (R292) -/

section Ident

variable {a id pa step : Nat} {b : Block}

/-- The block that keeps an IDENT flit. -/
def identKept (a id pa step : Nat) (b : Block) : Block := setLink a { link b a with ident := some (id, pa, step) } b

/-- The block that keeps an IDENT flit, with the peer that it names. -/
def identPeer (a id pa step : Nat) (b : Block) : Block :=
  put (fAD_PEER_PEER_STEP a) step (put (fAD_PEER_PEER_ADIT a) pa (put (fAD_PEER_PEER_ID a) id (identKept a id pa step b)))

theorem identFlit_of_conflict (hident : aditState b a = 4) (h : id = devId b ∨ id = 0xFFFF ∨ devId b = 0xFFFF) (up : Bool) :
    identFlit a id pa step up b = raise (0x120 + a) 128 (identKept a id pa step b) :=
  (if_pos hident).trans (if_pos h)

section Valid

variable (hident : aditState b a = 4) (hown : id ≠ devId b) (hid : id ≠ 0xFFFF) (hvalid : devId b ≠ 0xFFFF)

include hident hown hid hvalid

theorem identFlit_of_first (hnew : (link b a).ident ≠ some (id, pa, step)) (up : Bool) :
    identFlit a id pa step up b = identKept a id pa step b := by
  have hok : ¬ (id = devId b ∨ id = 0xFFFF ∨ devId b = 0xFFFF) := by tauto
  have hnot : (!((link b a).ident == some (id, pa, step))) = true := by simpa using hnew
  exact (if_pos hident).trans ((if_neg hok).trans (if_pos hnot))

theorem identFlit_of_second (hsame : (link b a).ident = some (id, pa, step)) :
    identFlit a id pa step false b = enterUp a id (!isBundlePeer b id) (identPeer a id pa step b) := by
  have hok : ¬ (id = devId b ∨ id = 0xFFFF ∨ devId b = 0xFFFF) := by tauto
  have hnot : ¬ (!((link b a).ident == some (id, pa, step))) = true := by simpa using hsame
  exact (if_pos hident).trans ((if_neg hok).trans ((if_neg hnot).trans (if_neg Bool.false_ne_true)))

end Valid

theorem identFlit_of_up (hup : aditState b a = 5) (up : Bool) : identFlit a id pa step up b = if up then confirmLink a b else b := by
  have hident : ¬ aditState b a = 4 := by omega
  cases up with
  | false => exact (if_neg hident).trans (if_neg (by simp))
  | true => exact (if_neg hident).trans (if_pos ⟨hup, rfl⟩)

theorem identTimer_of_unconfirmed (h : aditState b a = 4 ∨ (aditState b a = 5 ∧ (link b a).confirmed = false)) :
    identTimer a b = emit (identOut b a) b := if_pos h

/-- AD_PEER as the flit gives it (R292). -/
theorem peer_of_ident (forms : Bool) (hid : id < 0xFFFF) (hpa : pa < 32) :
    peerId (enterUp a id forms (identPeer a id pa step b)) a = id ∧
      get (enterUp a id forms (identPeer a id pa step b)) (fAD_PEER_PEER_ADIT a) = pa := by
  have hup (f : Fld) (hf : f.off = rAD_PEER a) :
      get (enterUp a id forms (identPeer a id pa step b)) f = get (identPeer a id pa step b) f := by
    rw [get_enterUp a id forms _ (by simp only [hf, rAD_PEER, adBase, rBLK_EVT_RAW, pageBase]; omega), setAdit,
      get_put_off_ne _ _ (by simp [hf, rAD_PEER, fAD_BLK_STAT_STATE])]
  rw [peerId, hup _ rfl, hup _ rfl, identPeer]
  constructor
  · rw [get_put_ne _ _ (by simp [fAD_PEER_PEER_ID]) (by simp [fAD_PEER_PEER_ID, fAD_PEER_PEER_STEP]),
      get_put_ne _ _ (by simp [fAD_PEER_PEER_ID]) (by simp [fAD_PEER_PEER_ID, fAD_PEER_PEER_ADIT]),
      get_put_self _ _ _ (by simp [fAD_PEER_PEER_ID])]
    exact Nat.mod_eq_of_lt (Nat.lt_trans hid (by simp [fAD_PEER_PEER_ID]))
  · rw [get_put_ne _ _ (by simp [fAD_PEER_PEER_ADIT]) (by simp [fAD_PEER_PEER_ADIT, fAD_PEER_PEER_STEP]),
      get_put_self _ _ _ (by simp [fAD_PEER_PEER_ADIT])]
    exact Nat.mod_eq_of_lt hpa

end Ident

theorem aditIdent : Claims.AditIdent := by
  intro s a id pa step b
  refine ⟨fun hident h up => run_of_eq (identFlit_of_conflict hident h up), fun hident hown hid hvalid => ⟨fun hnew up => ?first,
    fun hsame hlt hpa => ?second⟩, fun hup => ⟨?told, ?untold⟩, fun h => run_of_eq (identTimer_of_unconfirmed h)⟩
  case first => exact run_of_eq (identFlit_of_first hident hown hid hvalid hnew up)
  case second =>
    obtain ⟨hpeer, hadit⟩ := peer_of_ident (a := a) (step := step) (b := s.blk) (!isBundlePeer s.blk id) hlt hpa
    have hmem := (changesPage_enterUp a id (!isBundlePeer s.blk id) (identPeer a id pa step s.blk)).mem
    refine ⟨_, run_of_eq (identFlit_of_second hident hown hid hvalid hsame), aditState_enterUp a id _ _, hpeer, hadit, hmem, fun hforms => ?_⟩
    rw [hforms]
    exact bundle_enterUp a id _
  case told => exact run_of_eq (identFlit_of_up hup true)
  case untold => exact run_of_eq (identFlit_of_up hup false)

/-- Settles O31: the branch of each row that its hypotheses name, and what the entry of a state leaves on the adit's page and elsewhere. -/
theorem aditStates : Obligations.AditStates := ⟨aditChanges, aditIdent⟩

end Sys2Proof.Machine
end

section
/-!
PROOFS. How a gang forms (11 R302, R303, R311) and its route questions (11 R517): GG_CTL's commands, what the adoption of a table leaves, the
branches of formation, and the obligation `GangForms`.
-/

namespace Sys2Proof.Machine

/-! ### GG_CTL (R311) -/

section Control

variable {s : State} {port : Port} {v : W32}

/-- The block in which a write of GG_CTL acts. -/
def gangCtlBlock (port : Port) (v : W32) (b : Block) : Block := storeRw rGG_CTL v (granted port (rGG_CTL / 4096) b)

theorem get_gangCtlBlock (b : Block) {f : Fld} (hf : f.off ≠ rGG_CTL) : get (gangCtlBlock port v b) f = get b f := by
  rw [gangCtlBlock, storeRw, get_wr_ne _ _ (Ne.symm hf), get_granted]

theorem role_gangCtlBlock (b : Block) : role (gangCtlBlock port v b) = role b := get_gangCtlBlock b (by decide)

theorem regWriteAt_ggCtl {b : Block} (h : actsNow b port rGG_CTL v = true) :
    regWriteAt port rGG_CTL 4 v b = gangCtl v (gangCtlBlock port v b) := by
  have hrw (b : Block) : applyRw rGG_CTL v b = storeRw rGG_CTL v b := by
    simp [applyRw, show pageOf (rGG_CTL / 4096) = some (.gg, 0) from rfl, show rGG_CTL % 4096 = 0x044 from rfl]
  have hwo (b : Block) : applyWo port rGG_CTL v b = gangCtl v b := by
    simp [applyWo, show pageOf (rGG_CTL / 4096) = some (.gg, 0) from rfl, show rGG_CTL % 4096 = 0x044 from rfl]
  rw [regWriteAt_acts port _ v b h, hwo, applyW1c, if_neg (by decide), if_neg (by decide), hrw, gangCtlBlock]

section Bits

variable {b : Block} {r : List (Nat × Nat) × List (Nat × Nat)}

theorem gangCtl_join (h0 : bit v 0 = true) (h1 : bit v 1 = false) (h2 : bit v 2 = false) (hr : gangRegions b = some r) :
    gangCtl v b = joinStart r b := by
  simp [gangCtl, h0, h1, h2, hr]

theorem gangCtl_propose (h0 : bit v 0 = false) (h1 : bit v 1 = true) (h2 : bit v 2 = false) (hr : gangRegions b = some r) :
    gangCtl v b = proposeStart r b := by
  simp [gangCtl, h0, h1, h2, hr]

theorem gangCtl_cancel (h0 : bit v 0 = false) (h1 : bit v 1 = false) (h2 : bit v 2 = true) : gangCtl v b = gangCancel b := by
  simp [gangCtl, h0, h1, h2]

end Bits

theorem exec_join (h : actsNow s.blk port rGG_CTL 1 = true) {r : List (Nat × Nat) × List (Nat × Nat)}
    (hr : gangRegions (gangCtlBlock port 1 s.blk) = some r) {t : Block} (ht : joinStart r (gangCtlBlock port 1 s.blk) = t) :
    exec (.join port) s = .next (s.after t) :=
  run_of_eq ((regWriteAt_ggCtl h).trans ((gangCtl_join rfl rfl rfl hr).trans ht))

theorem exec_propose (h : actsNow s.blk port rGG_CTL 2 = true) {r : List (Nat × Nat) × List (Nat × Nat)}
    (hr : gangRegions (gangCtlBlock port 2 s.blk) = some r) {t : Block} (ht : proposeStart r (gangCtlBlock port 2 s.blk) = t) :
    exec (.propose port) s = .next (s.after t) :=
  run_of_eq ((regWriteAt_ggCtl h).trans ((gangCtl_propose rfl rfl rfl hr).trans ht))

theorem exec_cancel (h : actsNow s.blk port rGG_CTL 4 = true) :
    exec (.cancel port) s = .next (s.after (gangCancel (gangCtlBlock port 4 s.blk))) :=
  run_of_eq ((regWriteAt_ggCtl h).trans (gangCtl_cancel rfl rfl rfl))

end Control

/-! ### JOIN and PROPOSE (R302, R303) -/

section Propose

variable {b : Block} (r : List (Nat × Nat) × List (Nat × Nat))

theorem joinStart_of_none (h : role b = 0) :
    joinStart r b = sendGang (get b fGG_JOIN_MASTER) .joinRequest (put fGG_STATE_JOINING 1 (keepRegions r b)) :=
  if_neg (not_not.mpr h)

/-- The block that has taken the copy of PROPOSED. -/
def copyTaken (b : Block) : Block :=
  put fGG_STATE_TAKEN 1 (setGang (fun g => { g with
    taken := some (readProposed b).1, takenBad := (readProposed b).2, nextTaken := false, routeOut := [], routeSent := false,
    routeBad := none }) b)

theorem role_put_taken (v : Nat) (b : Block) : role (put fGG_STATE_TAKEN v b) = role b := get_put_ne b v (by decide) (by decide)

theorem proposeStart_of_master (h : role b = 3) : proposeStart r b = sendRoutes (copyTaken b) := by
  have hmay : ¬ (role b = 1 ∨ role b = 2) := by omega
  have hmaster : role (copyTaken b) = 3 := (role_put_taken 1 _).trans h
  simp only [proposeStart, if_neg hmay, show ¬ role b = 0 by omega, if_false]
  exact if_pos hmaster

/-- The first of rules 1 to 4 and 6 that the copy of PROPOSED breaks. -/
def copyRule (b : Block) : Option Nat := tableRule (copyTaken b) (readProposed b).1 (readProposed b).2

section Before

variable (h : role b = 0)

include h

theorem proposeStart_of_none : proposeStart r b = (match copyRule (keepRegions r b) with
    | some k => dropTaken (refuseTable k (readProposed (keepRegions r b)).1 (copyTaken (keepRegions r b)))
    | none => tryForm (copyTaken (keepRegions r b))) := by
  have hmay : ¬ (role b = 1 ∨ role b = 2) := by omega
  have hmaster : ¬ role (copyTaken (keepRegions r b)) = 3 := by
    rw [copyTaken, role_put_taken, show role (setGang _ (keepRegions r b)) = 0 from h]
    decide
  simp only [proposeStart, if_neg hmay, if_pos h]
  exact if_neg hmaster

theorem proposeStart_of_broken {k : Nat} (hk : copyRule (keepRegions r b) = some k) :
    proposeStart r b = dropTaken (refuseTable k (readProposed (keepRegions r b)).1 (copyTaken (keepRegions r b))) := by
  rw [proposeStart_of_none r h, hk]

theorem proposeStart_of_sound (hk : copyRule (keepRegions r b) = none) :
    proposeStart r b = tryForm (copyTaken (keepRegions r b)) := by
  rw [proposeStart_of_none r h, hk]

end Before

end Propose

/-! ### Join requests and refusals (R302, R303) -/

theorem tryForm_of_no_copy {b : Block} (h : b.gang.taken = none) : tryForm b = b := by simp only [tryForm, h]

theorem joinRequestIn_of_member {b : Block} (h : role b = 1 ∨ role b = 2) (src : Nat) : joinRequestIn src b = b := if_pos h

theorem joinRequestIn_of_no_copy {b : Block} (h1 : role b ≠ 1) (h2 : role b ≠ 2) (hnone : b.gang.taken = none) (src : Nat) :
    joinRequestIn src b = setGang (fun g => { g with asked := setInsert g.asked src }) b := by
  have hmay : ¬ (role b = 1 ∨ role b = 2) := by tauto
  exact (if_neg hmay).trans (tryForm_of_no_copy hnone)

theorem tryForm_of_absent {b : Block} {t : Tables} (htaken : b.gang.taken = some t) (h : allAsked b t = false) : tryForm b = b := by
  simp [tryForm, htaken, h]

section Taken

variable {b : Block} {t : Tables} (htaken : b.gang.taken = some t) (hrole : role b = 0)

include htaken hrole

theorem formationTimeout_of_absent (h : allAsked b t = false) : formationTimeout b = dropTaken (refuseTable 8 t b) := by
  simp [formationTimeout, htaken, hrole, h]

theorem tryForm_of_answered (h : allAsked b t = true) (hsent : b.gang.routeSent = true)
    (hanswered : b.gang.routeOut = [] ∨ b.gang.routeBad.isSome = true) : tryForm b = tryForm.form t b := by
  have hdone : (b.gang.routeOut.isEmpty || b.gang.routeBad.isSome) = true := by
    rcases hanswered with hout | hbad
    · simp [hout]
    · simp [hbad]
  simp [tryForm, htaken, hrole, h, hsent, hdone]

theorem routeTimeout_of_first {d p : Nat} {rest : List (Nat × Nat)} (hout : b.gang.routeOut = (d, p) :: rest) (hbad : b.gang.routeBad = none) :
    routeTimeout b = dropTaken (refuseTable 5 t (setGang (fun g => { g with routeBad := some d, routeOut := [] }) b)) := by
  have hrole' (f : Gang → Gang) : role (setGang f b) = 0 := hrole
  have hkept : setGang (fun g => { g with routeBad := some (g.routeBad.getD d), routeOut := [] }) b =
      setGang (fun g => { g with routeBad := some d, routeOut := [] }) b := by simp only [setGang, hbad, Option.getD_none]
  simp only [routeTimeout, htaken, hout, hkept]
  exact if_pos (hrole' _)

end Taken

theorem form_of_bad {b : Block} (t : Tables) {d : Nat} (hbad : b.gang.routeBad = some d) : tryForm.form t b = dropTaken (refuseTable 5 t b) := by
  simp [tryForm.form, routeFail, hbad]

/-! ### What an adoption leaves (R302, R303, R311) -/

/-- Registers and the gang: what a write of memory leaves alone. -/
def Block.gangSeen (b : Block) : SMap W32 × Gang := (b.regs, b.gang)

theorem gangSeen_regionWrite (ps : List (Nat × Nat)) (off : Nat) (bs : List Byte) (b : Block) :
    (regionWrite ps off bs b).gangSeen = b.gangSeen := by
  induction bs generalizing off b with
  | nil => rfl
  | cons v vs ih =>
    rw [regionWrite, ih]
    split
    · exact memWriteP_keeps Block.gangSeen (fun _ _ => rfl) (fun _ _ _ => rfl) (fun _ _ _ => rfl) _ _ _ b
    · rfl

theorem gangSeen_regionZero (ps : List (Nat × Nat)) (off n : Nat) (b : Block) : (regionZero ps off n b).gangSeen = b.gangSeen := by
  induction ps generalizing off n b with
  | nil => rfl
  | cons p t ih =>
    rw [regionZero]
    split
    · exact ih _ _ _
    · exact ih _ _ _

theorem gangSeen_writeCurrent (t : Tables) (b : Block) : (writeCurrent t b).gangSeen = b.gangSeen := by
  rw [writeCurrent, foldl_keeps Block.gangSeen _ (fun b p => gangSeen_regionWrite _ _ _ b), gangSeen_regionZero]

theorem get_of_gangSeen {b b' : Block} (h : b.gangSeen = b'.gangSeen) (f : Fld) : get b f = get b' f := by
  have hregs : b.regs = b'.regs := congrArg Prod.fst h
  simp only [get, rd, hregs]

section Adopt

variable (t : Tables) (barrier beat : Nat) (b : Block)

/-- The working table of an adoption: members declared failed stay FAILED (13 R359). -/
def workingTable : Tables := { t with members := t.members.map (fun m => if (failedIds b).contains m.1 then (m.1, 2) else m) }

/-- GG_STATE of a device that adopts a table. -/
def adoptState : Block :=
  put fGG_STATE_GEN t.gen (put fGG_STATE_ROLE (tblRole (workingTable t b) (devId b)) (put fGG_STATE_JOINING 0 b))

/-- The gang of a device that adopts a table. -/
def adoptGang : Block := setGang (fun g => { g with
  cur := some (workingTable t b), next := none, barrier := barrier, heartbeat := beat,
  heard := (tblIds (workingTable t b)).filter (fun d => d != devId b), masterQuiet := false,
  asked := g.asked.filter (fun d => !(tblIds (workingTable t b)).contains d) }) (adoptState t b)

/-- The pithead of a device that adopts its first table is IDLE. -/
def adoptPit : Block :=
  if pitState (adoptGang t barrier beat b) = 0 then setPitState 1 (adoptGang t barrier beat b) else adoptGang t barrier beat b

theorem adopt_eq : adopt t barrier beat b = releaseHeld (writeCurrent (workingTable t b) (adoptPit t barrier beat b)) := rfl

theorem get_adopt (f : Fld) : get (adopt t barrier beat b) f = get (adoptPit t barrier beat b) f := by
  have hheld (b : Block) : get (releaseHeld b) f = get b f := rfl
  rw [adopt_eq, hheld]
  exact get_of_gangSeen (gangSeen_writeCurrent _ _) f

theorem get_adoptPit_ne {f : Fld} (hf : f.off ≠ rGG_PIT) : get (adoptPit t barrier beat b) f = get (adoptState t b) f := by
  rw [adoptPit]
  split
  · exact get_put_off_ne _ _ (Ne.symm hf)
  · rfl

theorem gen_adopt (hgen : t.gen < 65536) : gen (adopt t barrier beat b) = t.gen := by
  rw [gen, get_adopt, get_adoptPit_ne _ _ _ _ (by decide), adoptState, get_put_self _ _ _ (by decide)]
  exact Nat.mod_eq_of_lt hgen

theorem tblRole_lt (t : Tables) (d : Nat) : tblRole t d < 4 := by
  rw [tblRole]
  split
  · decide
  · split <;> decide

theorem role_adopt : role (adopt t barrier beat b) = tblRole t (devId b) := by
  rw [role, get_adopt, get_adoptPit_ne _ _ _ _ (by decide), adoptState, get_put_ne _ _ (by decide) (by decide),
    get_put_self _ _ _ (by decide)]
  exact Nat.mod_eq_of_lt (tblRole_lt _ _)

theorem joining_adopt : isSet (adopt t barrier beat b) fGG_STATE_JOINING = false := by
  rw [isSet, get_adopt, get_adoptPit_ne _ _ _ _ (by decide), adoptState, get_put_ne _ _ (by decide) (by decide),
    get_put_ne _ _ (by decide) (by decide), get_put_self _ _ _ (by decide)]
  rfl

theorem pitState_adopt (h : pitState b = 0) : pitState (adopt t barrier beat b) = 1 := by
  have hgang : pitState (adoptGang t barrier beat b) = 0 := by
    have hput (f : Fld) (hf : f.off ≠ rGG_PIT) (v : Nat) (b : Block) : get (put f v b) fGG_PIT_STATE = get b fGG_PIT_STATE :=
      get_put_off_ne b v hf
    have hstate : pitState (adoptGang t barrier beat b) = pitState (adoptState t b) := rfl
    rw [hstate, pitState, adoptState, hput _ (by decide), hput _ (by decide), hput _ (by decide)]
    exact h
  rw [pitState, get_adopt, adoptPit, if_pos hgang, setPitState, get_put_self _ _ _ (by decide)]
  rfl

/-- What an adoption leaves of the gang, beside the messages held until then. -/
theorem adopt_gang : (adopt t barrier beat b).gang =
    { (adoptGang t barrier beat b).gang with held := (adopt t barrier beat b).gang.held } := by
  have hcurrent := congrArg Prod.snd (gangSeen_writeCurrent (workingTable t b) (adoptPit t barrier beat b))
  have hpit : (adoptPit t barrier beat b).gang = (adoptGang t barrier beat b).gang := by
    rw [adoptPit]
    split <;> rfl
  have hheld (b : Block) : (releaseHeld b).gang = { b.gang with held := (releaseHeld b).gang.held } := rfl
  rw [adopt_eq, hheld, show (writeCurrent (workingTable t b) (adoptPit t barrier beat b)).gang = _ from hcurrent.trans hpit]

theorem workingTable_of_none (h : failedIds b = []) : workingTable t b = t := by simp [workingTable, h]

theorem cur_adopt (h : failedIds b = []) : (adopt t barrier beat b).gang.cur = some t := by
  rw [adopt_gang]
  exact congrArg some (workingTable_of_none t b h)

theorem times_adopt : (adopt t barrier beat b).gang.barrier = barrier ∧ (adopt t barrier beat b).gang.heartbeat = beat := by
  rw [adopt_gang]
  exact ⟨rfl, rfl⟩

end Adopt

end Sys2Proof.Machine
end

section
/-!
PROOFS. The rows that form a gang and adopt its tables (11 R302, R303, R304), ROUTE_Q and ROUTE_A (11 R517), and the obligation `GangForms`.
-/

namespace Sys2Proof.Machine

/-! ### The adoption of generation 1 (R302) -/

section Tables

variable (ds : List Nat) (epoch : Nat) (t : Tables) (b : Block)

theorem get_sendTables {f : Fld} (hf : f.off ≠ rGG_CNT) : get (sendTables ds epoch t b) f = get b f :=
  foldl_keeps (get · f) _ (fun b d => get_sendGang hf d _ b) ds b

theorem sendTables_gang : (sendTables ds epoch t b).gang = b.gang := foldl_keeps (·.gang) _ (fun b d => sendGang_gang d _ b) ds b

end Tables

section Drop

variable (b : Block)

theorem gen_dropTaken : gen (dropTaken b) = gen b := get_put_ne _ 0 (by decide) (by decide)

theorem role_dropTaken : role (dropTaken b) = role b := get_put_ne _ 0 (by decide) (by decide)

theorem pitState_dropTaken : pitState (dropTaken b) = pitState b := get_put_off_ne _ 0 (by decide)

theorem taken_dropTaken : isSet (dropTaken b) fGG_STATE_TAKEN = false := by
  rw [isSet, dropTaken, get_put_self _ _ _ (by decide)]
  rfl

end Drop

/-- The block that adopts a copy as generation 1, with the master's own timeouts. -/
def formed (t : Tables) (b : Block) : Block :=
  adopt { t with gen := 1 } (get b fGG_TIMEOUT_BARRIER) (get b fGG_TIMEOUT_HEARTBEAT) b

theorem form_of_routes {b : Block} (t : Tables) (hbad : b.gang.routeBad = none) (hout : b.gang.routeOut = [])
    (hsent : b.gang.routeSent = true) : tryForm.form t b =
      dropTaken (sendTables (others (formed t b)) (stepEpoch (formed t b)) { t with gen := 1 } (formed t b)) := by
  refine if_neg ?_
  simp [routeFail, hbad, hout, hsent]

/-- What formation leaves: generation 1, this device's role in it, no copy taken, the table adopted and the pithead IDLE. -/
theorem formed_leaves (t : Tables) (b : Block) (ds : List Nat) (epoch : Nat) (sent : Tables) :
    let u := dropTaken (sendTables ds epoch sent (formed t b))
    gen u = 1 ∧ role u = tblRole t (devId b) ∧ isSet u fGG_STATE_TAKEN = false ∧ u.gang.taken = none ∧
      (failedIds b = [] → u.gang.cur = some { t with gen := 1 }) ∧ (pitState b = 0 → pitState u = 1) := by
  refine ⟨?_, ?_, taken_dropTaken _, rfl, fun hfailed => ?_, fun hpit => ?_⟩
  · rw [gen_dropTaken, gen, get_sendTables _ _ _ _ (by decide)]
    exact gen_adopt { t with gen := 1 } _ _ b (show 1 < 65536 by decide)
  · rw [role_dropTaken, role, get_sendTables _ _ _ _ (by decide)]
    exact role_adopt _ _ _ b
  · exact (congrArg Gang.cur (sendTables_gang _ _ _ _)).trans (cur_adopt _ _ _ b hfailed)
  · rw [pitState_dropTaken, pitState, get_sendTables _ _ _ _ (by decide)]
    exact pitState_adopt _ _ _ b hpit

/-! ### Adopted tables (R302–R304) -/

theorem tablesIn_of_joining {b : Block} {t : Tables} (hrole : role b = 0) (hjoining : isSet b fGG_STATE_JOINING = true)
    (hpresent : (tblIds t).contains (devId b) = true) (mgen epoch barrier beat : Nat) :
    tablesIn (get b fGG_JOIN_MASTER) mgen epoch t barrier beat b = adopt t barrier beat b := by
  simp only [tablesIn, if_pos hrole, hjoining, hpresent, beq_self_eq_true, Bool.and_self, if_true]

section Member

variable {s : State} {t : Tables} {src : Nat} (hrole : role s.blk ≠ 0) (hsrc : src = masterId s.blk ∨ src = t.master)
  (hnewer : newer16 t.gen (gen s.blk) = true) (epoch barrier beat : Nat)

include hrole hsrc hnewer

/-- A member that is told newer tables leaves where it is OUT and absent from them, and keeps them otherwise. -/
theorem exec_adoptedTables_of_member {u : Block}
    (hu : (if pitState s.blk = 6 ∧ (!(tblIds t).contains (devId s.blk)) = true then
        leaveGang (gangHeard src (.tables epoch t barrier beat) s.blk)
      else setGang (fun g => { g with next := some t, nextEpoch := epoch, nextTimes := (barrier, beat), nextTaken := false })
        (gangHeard src (.tables epoch t barrier beat) s.blk)) = u) :
    exec (.adoptedTables src (gen s.blk) epoch t barrier beat) s = .next (s.after u) := by
  have hknown : ¬ (src ≠ masterId s.blk ∧ src ≠ t.master) := by tauto
  have hnew : ¬ (!newer16 t.gen (gen s.blk)) = true := by simp [hnewer]
  refine run_of_eq ((if_neg hrole).trans ((gangGate_of_own hrole _ _ _).trans ?_))
  exact (if_neg hknown).trans ((if_neg hnew).trans hu)

theorem exec_adoptedTables_of_kept (hstays : (tblIds t).contains (devId s.blk) = true ∨ pitState s.blk ≠ 6) :
    exec (.adoptedTables src (gen s.blk) epoch t barrier beat) s = .next (s.after
      (setGang (fun g => { g with next := some t, nextEpoch := epoch, nextTimes := (barrier, beat), nextTaken := false })
        (gangHeard src (.tables epoch t barrier beat) s.blk))) := by
  refine exec_adoptedTables_of_member hrole hsrc hnewer epoch barrier beat (if_neg ?_)
  rintro ⟨hout, habsent⟩
  rcases hstays with hpresent | hin
  · rw [hpresent] at habsent
    exact absurd habsent (by decide)
  · exact hin hout

theorem exec_adoptedTables_of_left (habsent : (tblIds t).contains (devId s.blk) = false) (hout : pitState s.blk = 6) :
    exec (.adoptedTables src (gen s.blk) epoch t barrier beat) s =
      .next (s.after (leaveGang (gangHeard src (.tables epoch t barrier beat) s.blk))) := by
  refine exec_adoptedTables_of_member hrole hsrc hnewer epoch barrier beat (if_pos ⟨hout, ?_⟩)
  rw [habsent]
  rfl

end Member

theorem forming : Claims.Forming := by
  intro s port
  refine ⟨fun v h => ⟨?join, ?propose, ?cancel⟩, fun hjoining => ?asks, fun src => ⟨fun h => ?member, fun h1 h2 hnone => ?asked⟩,
    fun t htaken hrole => ⟨fun habsent => ⟨?late, ?waits⟩, fun hall hsent => ⟨fun d hbad => ?refused, fun hbad hout => ?forms⟩,
      fun d p rest hout hbad => ?unanswered⟩,
    fun src mgen epoch barrier beat t => ⟨?adopts, ?keeps⟩⟩
  case join =>
    rintro rfl r hr hrole
    refine exec_join h hr ((joinStart_of_none r ((role_gangCtlBlock s.blk).trans hrole)).trans ?_)
    rw [get_gangCtlBlock s.blk (by decide)]
    rfl
  case propose =>
    rintro rfl r hr -
    refine ⟨fun hmaster => ?_, fun hnone e he => ?_, fun hnone hok => ?_⟩
    · refine exec_propose h hr ((proposeStart_of_master r ((role_gangCtlBlock s.blk).trans hmaster)).trans ?_)
      rw [if_neg (by omega)]
      rfl
    · rw [if_pos hnone] at he ⊢
      exact exec_propose h hr (proposeStart_of_broken r ((role_gangCtlBlock s.blk).trans hnone) he)
    · rw [if_pos hnone] at hok ⊢
      exact exec_propose h hr (proposeStart_of_sound r ((role_gangCtlBlock s.blk).trans hnone) hok)
  case cancel =>
    rintro rfl
    exact exec_cancel h
  case asks => exact run_of_eq (if_pos hjoining)
  case member => exact run_of_eq (joinRequestIn_of_member h src)
  case asked => exact run_of_eq (joinRequestIn_of_no_copy h1 h2 hnone src)
  case late => exact run_of_eq (formationTimeout_of_absent htaken hrole habsent)
  case waits => exact run_of_eq (tryForm_of_absent htaken habsent)
  case refused =>
    exact run_of_eq ((tryForm_of_answered htaken hrole hall hsent (.inr (by simp [hbad]))).trans (form_of_bad t hbad))
  case forms =>
    exact ⟨_, run_of_eq ((tryForm_of_answered htaken hrole hall hsent (.inl hout)).trans (form_of_routes t hbad hout hsent)),
      formed_leaves t s.blk _ _ _⟩
  case unanswered => exact run_of_eq (routeTimeout_of_first htaken hrole hout hbad)
  case adopts =>
    rintro hpresent hrole hjoining rfl hgen
    obtain ⟨hbarrier, hbeat⟩ := times_adopt t barrier beat s.blk
    exact ⟨_, run_of_eq (tablesIn_of_joining hrole hjoining hpresent mgen epoch barrier beat), gen_adopt t barrier beat s.blk hgen,
      role_adopt t barrier beat s.blk, joining_adopt t barrier beat s.blk, cur_adopt t barrier beat s.blk, hbarrier, hbeat⟩
  case keeps =>
    rintro hrole hsrc rfl hnewer
    exact ⟨exec_adoptedTables_of_kept hrole hsrc hnewer epoch barrier beat,
      exec_adoptedTables_of_left hrole hsrc hnewer epoch barrier beat⟩

/-! ### ROUTE_Q and ROUTE_A (R517) -/

/-- The ROUTE_A that answers a ROUTE_Q: the first listed device to which this device has no route, or 0xFFFF. -/
def routeAnswer (m : Msg) (b : Block) : Block :=
  let ids := (List.range (fieldAt m.payload 4 2)).map (fun i => fieldAt m.payload (16 + 2 * i) 2)
  let bad := ids.find? (fun d => !hasRoute b d)
  sendMsg m.src 5 0 (leBytes 1 0x31 ++ leBytes 1 (if bad.isSome then 2 else 1) ++ leBytes 2 (fieldAt m.payload 2 2)
    ++ leBytes 2 (fieldAt m.payload 6 2) ++ leBytes 2 (bad.getD 0xFFFF) ++ leBytes 8 0) b

section Routes

variable {a : Nat} {m : Msg} {b : Block} (hcls : m.cls = 5)

section Question

variable (hkind : byteAt m.payload 0 = 0x30) (hknown : role b ≠ 0 ∨ m.src = get b fGG_JOIN_MASTER)

include hcls hkind hknown

theorem routeQ_of_known : routeQ a m b =
    if byteAt m.payload 1 ≠ 0 ∨ !zeroAt m.payload 8 8 ∨ fieldAt m.payload 4 2 = 0 ∨ 2040 < fieldAt m.payload 4 2 ∨
        m.payload.length < 16 + 2 * fieldAt m.payload 4 2 then gangProto a (takeMsg m b)
    else routeAnswer m (takeMsg m b) := by
  have hq : ¬ (m.cls ≠ 5 ∨ byteAt m.payload 0 ≠ 0x30) := by simp [hcls, hkind]
  have hmine : ¬ (role (takeMsg m b) = 0 ∧ m.src ≠ get (takeMsg m b) fGG_JOIN_MASTER) := by
    rintro ⟨hnone, hother⟩
    exact hknown.elim (fun h => h hnone) (fun h => hother h)
  rw [routeQ, if_neg hq]
  exact if_neg hmine

theorem routeQ_of_reserved (h : byteAt m.payload 1 ≠ 0 ∨ fieldAt m.payload 4 2 = 0 ∨ 2040 < fieldAt m.payload 4 2) :
    routeQ a m b = gangProto a (takeMsg m b) := by
  rw [routeQ_of_known hcls hkind hknown]
  exact if_pos (by tauto)

theorem routeQ_of_valid (hvalue : byteAt m.payload 1 = 0) (hzero : zeroAt m.payload 8 8 = true) (hlo : 1 ≤ fieldAt m.payload 4 2)
    (hhi : fieldAt m.payload 4 2 ≤ 2040) (hlen : 16 + 2 * fieldAt m.payload 4 2 ≤ m.payload.length) :
    routeQ a m b = routeAnswer m (takeMsg m b) := by
  rw [routeQ_of_known hcls hkind hknown]
  refine if_neg ?_
  simp only [hvalue, hzero, ne_eq, not_true_eq_false, Bool.not_true, Bool.false_eq_true, false_or]
  omega

end Question

section Answer

variable (hkind : byteAt m.payload 0 = 0x31) (hlen : m.payload.length = 16) (hzero : zeroAt m.payload 8 8 = true)
  (htaken : b.gang.taken.isSome = true) (hgen : fieldAt m.payload 2 2 = copyGen b)
  (hout : b.gang.routeOut.contains (m.src, fieldAt m.payload 4 2) = true)

include hcls hkind hlen hzero htaken hgen hout

/-- An answer to an outstanding question is taken off, and kept against its device where it names one without a route. -/
theorem routeA_of_outstanding (hlo : byteAt m.payload 1 ≠ 0) (hhi : byteAt m.payload 1 ≤ 2) {u : Block}
    (hu : setGang (fun g => { g with
      routeOut := g.routeOut.erase (m.src, fieldAt m.payload 4 2)
      routeBad := if byteAt m.payload 1 = 2 then some (g.routeBad.getD m.src) else g.routeBad }) (takeMsg m b) = u) :
    routeA a m b = if role b = 0 then tryForm u else u := by
  have hans : ¬ (m.cls ≠ 5 ∨ byteAt m.payload 0 ≠ 0x31) := by simp [hcls, hkind]
  have hok : ¬ (m.payload.length ≠ 16 ∨ byteAt m.payload 1 = 0 ∨ 2 < byteAt m.payload 1 ∨ (!zeroAt m.payload 8 8) = true) := by
    simp only [hlen, hzero, ne_eq, not_true_eq_false, Bool.not_true, Bool.false_eq_true, false_or, or_false]
    omega
  have hmine : ¬ ((takeMsg m b).gang.taken.isNone = true ∨ fieldAt m.payload 2 2 ≠ copyGen (takeMsg m b) ∨
      (!(takeMsg m b).gang.routeOut.contains (m.src, fieldAt m.payload 4 2)) = true) := by
    rintro (hnone | hother | hnot)
    · rw [show (takeMsg m b).gang.taken = b.gang.taken from rfl, Option.isNone_iff_eq_none] at hnone
      rw [hnone] at htaken
      exact absurd htaken (by decide)
    · exact hother hgen
    · rw [show (takeMsg m b).gang.routeOut = b.gang.routeOut from rfl, hout] at hnot
      exact absurd hnot (by decide)
  rw [routeA, if_neg hans]
  refine (if_neg hok).trans ((if_neg hmine).trans ?_)
  have hrole : role u = role b := hu ▸ rfl
  rw [hu]
  dsimp only
  rw [hrole]

theorem routeA_of_good (hgood : byteAt m.payload 1 = 1) : routeA a m b =
    (let off := setGang (fun g => { g with routeOut := g.routeOut.erase (m.src, fieldAt m.payload 4 2) }) (takeMsg m b)
     if role b = 0 then tryForm off else off) := by
  refine routeA_of_outstanding hcls hkind hlen hzero htaken hgen hout (by omega) (by omega) ?_
  rw [hgood]
  rfl

theorem routeA_of_first_bad (hv : byteAt m.payload 1 = 2) (hbad : b.gang.routeBad = none) : routeA a m b =
    (let kept := setGang (fun g => { g with routeBad := some m.src })
      (setGang (fun g => { g with routeOut := g.routeOut.erase (m.src, fieldAt m.payload 4 2) }) (takeMsg m b))
     if role b = 0 then tryForm kept else kept) := by
  refine routeA_of_outstanding hcls hkind hlen hzero htaken hgen hout (by omega) (by omega) ?_
  simp only [setGang, hv, if_true, show (takeMsg m b).gang.routeBad = none from hbad, Option.getD_none]

end Answer

end Routes

theorem routeQuestions : Claims.RouteQuestions := by
  intro s a m hcls p b
  refine ⟨fun hkind hknown => ⟨fun hvalue hzero hlo hhi hlen => ?answers, fun h => ?drops⟩,
    fun hkind hlen hzero htaken hgen hout => ⟨fun hgood => ?good, fun hv hbad => ?bad⟩⟩
  case answers => exact run_of_eq (routeQ_of_valid hcls hkind hknown hvalue hzero hlo hhi hlen)
  case drops => exact run_of_eq (routeQ_of_reserved hcls hkind hknown h)
  case good => exact run_of_eq (routeA_of_good hcls hkind hlen hzero htaken hgen hout hgood)
  case bad => exact run_of_eq (routeA_of_first_bad hcls hkind hlen hzero htaken hgen hout hv hbad)

/-- Settles O33: GG_CTL's commands through the checks of a write, the branches of formation, what an adoption leaves, and the checks of the
two route messages. -/
theorem gangForms : Obligations.GangForms := ⟨forming, routeQuestions⟩

end Sys2Proof.Machine
end

section
/-!
PROOFS. One step: the front of the queue runs, an empty queue is one cycle of PCLK (log 15), and commands leave first in, first out; the
obligations `StepRunsFront`, `EmptyQueueTicks` and `QueueIsFifo`.
-/

namespace Sys2Proof.Machine

theorem step_of_cons {c : Instr} {rest : List Instr} {s : State} (h : s.pending = c :: rest) :
    step s = exec c { s with pending := rest } := by
  simp only [step, h]

theorem step_of_empty {s : State} (h : s.pending = []) : step s = .next { s with blk := tick s.blk } := by
  simp only [step, h]

/-- Settles O1: the second branch of `step`. -/
theorem stepRunsFront : Obligations.StepRunsFront := fun _ _ _ h => step_of_cons h

/-! ### What a cycle of PCLK changes -/

theorem rd64_wr64_self (b : Block) (lo v : Nat) : rd64 (wr64 b lo v) lo = v % 2 ^ 64 := by
  simp only [rd64, wr64, rd_wr_self, rd_wr_ne _ _ (show lo + 4 ≠ lo by omega), BitVec.toNat_ofNat, Nat.shiftRight_eq_div_pow]
  omega

theorem rd_wr64_ne (b : Block) {lo o : Nat} (v : Nat) (hlo : lo ≠ o) (hhi : lo + 4 ≠ o) : rd (wr64 b lo v) o = rd b o := by
  simp only [wr64, rd_wr_ne _ _ hlo, rd_wr_ne _ _ hhi]

theorem rd64_congr {b b' : Block} {lo : Nat} (hlo : rd b' lo = rd b lo) (hhi : rd b' (lo + 4) = rd b (lo + 4)) :
    rd64 b' lo = rd64 b lo := by
  simp only [rd64, hlo, hhi]

/-- The registers of the two timers of a block after one cycle (15 R443). -/
def timersCounted (b : Block) : Block := count64 rTM_TS_LO 1 (count64 rTM_ACLK_LO 12 b)

theorem rd64_ts_timersCounted (b : Block) : rd64 (timersCounted b) rTM_TS_LO = (rd64 b rTM_TS_LO + 1) % 2 ^ 64 := by
  have hkept : rd64 (count64 rTM_ACLK_LO 12 b) rTM_TS_LO = rd64 b rTM_TS_LO :=
    rd64_congr (rd_wr64_ne b _ (by decide) (by decide)) (rd_wr64_ne b _ (by decide) (by decide))
  rw [timersCounted, count64, rd64_wr64_self, hkept, Nat.mod_mod]

theorem rd64_aclk_timersCounted (b : Block) : rd64 (timersCounted b) rTM_ACLK_LO = (rd64 b rTM_ACLK_LO + 12) % 2 ^ 64 := by
  have hkept : rd64 (timersCounted b) rTM_ACLK_LO = rd64 (count64 rTM_ACLK_LO 12 b) rTM_ACLK_LO :=
    rd64_congr (rd_wr64_ne _ _ (by decide) (by decide)) (rd_wr64_ne _ _ (by decide) (by decide))
  rw [hkept, count64, rd64_wr64_self, Nat.mod_mod]

/-- A cycle leaves a part of the block that neither the fields it writes nor links, outputs and the firmware's wait are in. -/
theorem tick_keeps {β : Type} (g : Block → β) {b : Block} (hrun : dividersRun b = true)
    (hpace : ∀ b v l, g (put fPW_PACE_LEVEL v { b with paceNext := l }) = g b)
    (hwait : ∀ b v n, g (showField fSEC_FW_WAIT_SECONDS v (setFw (fun f => { f with waited := n }) b)) = g b)
    (hlinks : ∀ b l, g { b with links := l } = g b) (hemit : ∀ b o, g (emit o b) = g b) : g (tick b) = g (timersCounted b) := by
  have hcaps (b : Block) (p : Nat) : g (capsTimer b p) = g b := by
    rw [capsTimer]
    split
    · exact hemit _ _
    · rfl
  have hack (b : Block) (l : Nat) : g (lateAck b l) = g b := by
    simp only [lateAck]
    split
    · exact (hemit _ _).trans (hlinks _ _)
    · rfl
  have htickWait (b : Block) : g (tickWait b) = g b := by
    rw [tickWait]
    split
    · exact hwait _ _ _
    · rfl
  have htime : g (tickTime b) = g (timersCounted b) := by
    simp only [tickTime]
    split
    · split
      · rfl
      · exact hpace _ _ _
    · rfl
  rw [tick, if_pos hrun]
  exact (foldl_keeps g _ hcaps _ _).trans ((foldl_keeps g _ hack _ _).trans ((htickWait _).trans htime))

theorem rd_showField_ne (b : Block) {f : Fld} {o : Nat} (v : Nat) (h : f.off ≠ o) : rd (showField f v b) o = rd b o := by
  rw [showField]
  split
  · rfl
  · exact rd_put_ne b v h

theorem rd_tick {b : Block} (hrun : dividersRun b = true) {o : Nat} (hpace : rPW_PACE ≠ o) (hwait : fSEC_FW_WAIT_SECONDS.off ≠ o) :
    rd (tick b) o = rd (timersCounted b) o :=
  tick_keeps (rd · o) hrun (fun _ v _ => rd_put_ne _ v hpace) (fun _ v _ => rd_showField_ne _ v hwait) (fun _ _ => rfl) (fun _ _ => rfl)

/-- Settles O2: of what a cycle does only `timersCounted` writes the timers. -/
theorem emptyQueueTicks : Obligations.EmptyQueueTicks := by
  intro s hs
  refine ⟨_, step_of_empty hs, hs, fun hrun => ⟨?_, ?_⟩, fun hstop => ?_⟩
  · rw [← rd64_ts_timersCounted]
    exact rd64_congr (rd_tick hrun (by decide) (by decide)) (rd_tick hrun (by decide) (by decide))
  · rw [← rd64_aclk_timersCounted]
    exact rd64_congr (rd_tick hrun (by decide) (by decide)) (rd_tick hrun (by decide) (by decide))
  · rw [tick, hstop]
    rfl

/-! ### The queue -/

theorem exec_pending {i : Instr} {s t : State} (h : exec i s = .next t) : t.pending = s.pending := by
  obtain ⟨f, hf⟩ := exec_eq_run i s
  rw [hf] at h
  split at h
  · rw [runVin_eq] at h
    split at h
    · contradiction
    · exact Host.Outcome.next.inj h ▸ rfl
  · exact Host.Outcome.next.inj h ▸ rfl

theorem step_pending {s t : State} (h : step s = .next t) : t.pending = s.pending.drop 1 := by
  cases hp : s.pending with
  | nil =>
    rw [step_of_empty hp] at h
    exact Host.Outcome.next.inj h ▸ hp
  | cons c rest => exact exec_pending (step_of_cons hp ▸ h)

theorem step_of_core_run {k : Nat} {s t : core.State} (h : core.run (k + 1) s = .next t) :
    ∃ u, core.step s = .next u ∧ core.run k u = .next t := by
  rw [Host.Core.run] at h
  split at h
  next u hu => exact ⟨u, hu, h⟩
  next => contradiction
  next => contradiction

/-- Settles O3, by induction on the number of steps. -/
theorem queueIsFifo : Obligations.QueueIsFifo := by
  intro k
  induction k with
  | zero => exact fun s t h => Host.Outcome.next.inj h ▸ rfl
  | succ k ih =>
    intro s t h
    obtain ⟨u, hu, hrest⟩ := step_of_core_run h
    rw [ih u t hrest, step_pending hu, List.drop_drop, Nat.add_comm]

end Sys2Proof.Machine
end

section
/-!
PROOFS. What the page registers show of the block's state (16 R470, 17 R479, R488, R495): what the shown fields are computed from, the
samples that end every command, the cycle of an empty queue, and the obligation `StepKeepsShown`.
-/

namespace Sys2Proof.Machine

/-- Two fields that share no bit, the second within a word. -/
def Fld.apart (f g : Fld) : Bool := decide (g.msb < 32) && (decide (f.off ≠ g.off) || decide (f.msb < g.lsb) || decide (g.msb < f.lsb))

theorem get_put_apart (b : Block) {f g : Fld} (v : Nat) (h : f.apart g = true) : get (put f v b) g = get b g := by
  simp only [Fld.apart, Bool.and_eq_true, Bool.or_eq_true, decide_eq_true_eq, or_assoc] at h
  exact get_put_ne b v h.1 h.2

theorem get_showField_apart (b : Block) {f g : Fld} (v : Nat) (h : f.apart g = true) : get (showField f v b) g = get b g := by
  rw [showField]
  split
  · rfl
  · exact get_put_apart b v h

/-! ### What the shown fields are computed from -/

/-- The fields that the values of the shown fields are computed from. -/
def sourceFields : List Fld :=
  [fPW_FD_LEVEL, fPW_FD_CTL_FORCE, fGG_STATE_ROLE, fCH_LINK_STATE 0, fPW_LATTOL_TOL_US] ++ (List.range 18).map fAD_CTL_EN ++
    (List.range 32).map fCL_BLK_STAT_PARKED ++ (List.range 32).map fCL_BLK_STAT_GOV_PARKED

/-- The fields that `Block.shown` speaks of. -/
def shownField : Fin 8 → Fld :=
  ![fPW_PACE_CAP, fPW_FD_FD_N_OUT, fPW_FD_FD_N_IN, fSC_DISPATCH_HELD, fPW_PACE_HOST_PARKED, fPW_PACE_GOV_PARKED, fPW_ASTATE_ALLOWED,
    fPW_ASTATE_A3_BLOCK]

/-- The value that each of them shows. -/
def Block.shownValue (b : Block) : Fin 8 → Nat :=
  ![fdCap (fdLevel b), b2n (fdnDriven b), b2n (b.fd.fdnPin || fdnDriven b), min 63 (b.cmds.filter (fun c => c.stage == .held)).length,
    ((List.range 32).filter (fun c => isSet b (fCL_BLK_STAT_PARKED c))).length,
    ((List.range 32).filter (fun c => isSet b (fCL_BLK_STAT_GOV_PARKED c))).length, allowedState b, a3Block b]

theorem shown_iff (b : Block) : b.shown ↔ ∀ i, get b (shownField i) = b.shownValue i := by
  simp only [Fin.forall_fin_succ, IsEmpty.forall_iff, and_true]
  rfl

/-- State that no register shows and on which shown fields depend. -/
def Block.behindShown (b : Block) : List Cmd × Pwr × Dbg × Fd := (b.cmds, b.pwr, b.dbg, b.fd)

theorem wr_behindShown (b : Block) (o : Nat) (v : W32) : (wr b o v).behindShown = b.behindShown := by
  simp only [Block.behindShown, wr_cmds, wr_pwr, wr_dbg, wr_fd]

theorem filter_isSet_congr {b b' : Block} {n : Nat} {f : Nat → Fld} (h : ∀ c, c < n → get b' (f c) = get b (f c)) :
    (List.range n).filter (fun c => isSet b' (f c)) = (List.range n).filter (fun c => isSet b (f c)) :=
  List.filter_congr fun c hc => by simp only [isSet, h c (List.mem_range.1 hc)]

theorem shownValue_congr {b b' : Block} (hstate : b'.behindShown = b.behindShown) (hfields : ∀ f ∈ sourceFields, get b' f = get b f) :
    b'.shownValue = b.shownValue := by
  simp only [Block.behindShown, Prod.mk.injEq] at hstate
  obtain ⟨hcmds, hpwr, hdbg, hfd⟩ := hstate
  simp only [sourceFields, List.mem_append, List.mem_cons, List.not_mem_nil, List.mem_map, List.mem_range, or_false] at hfields
  have hlevel : fdLevel b' = fdLevel b := hfields _ (by simp)
  have hforce := hfields fPW_FD_CTL_FORCE (by simp)
  have hrole := hfields fGG_STATE_ROLE (by simp)
  have hlink := hfields (fCH_LINK_STATE 0) (by simp)
  have htol := hfields fPW_LATTOL_TOL_US (by simp)
  have hadits : (List.range 18).any (fun a => isSet b' (fAD_CTL_EN a)) = (List.range 18).any (fun a => isSet b (fAD_CTL_EN a)) := by
    rw [Bool.eq_iff_iff, List.any_eq_true, List.any_eq_true]
    refine exists_congr fun a => and_congr_right fun ha => ?_
    rw [isSet, isSet, hfields _ (.inl (.inl (.inr ⟨a, List.mem_range.1 ha, rfl⟩)))]
  have hparked := filter_isSet_congr (n := 32) (f := fCL_BLK_STAT_PARKED) fun c hc => hfields _ (.inl (.inr ⟨c, hc, rfl⟩))
  have hgov := filter_isSet_congr (n := 32) (f := fCL_BLK_STAT_GOV_PARKED) fun c hc => hfields _ (.inr ⟨c, hc, rfl⟩)
  have hdriven : fdnDriven b' = fdnDriven b := by
    simp only [fdnDriven, pinsDriven, fdOwnCause, fdCauses, hlevel, hpwr, hdbg, hfd, hforce]
  have hblock : a3Block b' = a3Block b := by simp only [a3Block, hrole, hadits, hlink]
  have hallowed : allowedState b' = allowedState b := by simp only [allowedState, htol, hblock]
  simp only [Block.shownValue, hlevel, hdriven, hfd, hcmds, hparked, hgov, hallowed, hblock]

/-- What keeps the sources and the shown fields keeps what is shown. -/
theorem shown_of_kept {b b' : Block} (h : b.shown) (hstate : b'.behindShown = b.behindShown)
    (hsource : ∀ f ∈ sourceFields, get b' f = get b f) (hfields : ∀ i, get b' (shownField i) = get b (shownField i)) : b'.shown := by
  rw [shown_iff] at h ⊢
  intro i
  rw [hfields i, h i, shownValue_congr hstate hsource]

/-! ### The samples that end every command -/

/-- The fields that a sample writes, none of them a source. -/
def sampledFields : List Fld := fPW_ASTATE_IDLE :: fPW_FD_CAUSE :: List.ofFn shownField

theorem shownField_sampled (i : Fin 8) : shownField i ∈ sampledFields :=
  List.mem_cons_of_mem _ (List.mem_cons_of_mem _ (List.mem_ofFn.2 ⟨i, rfl⟩))

theorem sampled_apart_source : ∀ f ∈ sampledFields, ∀ g ∈ sourceFields, f.apart g = true := by decide

theorem sampled_apart_shown : ∀ f ∈ sampledFields, ∀ i, f ≠ shownField i → f.apart (shownField i) = true := by decide

theorem shownField_injective {i k : Fin 8} (h : shownField i = shownField k) : i = k := by
  revert i k
  decide

theorem shownField_fits : ∀ i, (shownField i).msb < 32 := by decide

/-- The values that the shown fields show fit them. -/
theorem shownValue_lt (b : Block) (i : Fin 8) : b.shownValue i < 2 ^ ((shownField i).msb + 1 - (shownField i).lsb) := by
  have hbit (x : Bool) : b2n x < 2 := by cases x <;> decide
  have hparked (p : Nat → Bool) : ((List.range 32).filter p).length < 64 :=
    lt_of_le_of_lt (List.length_filter_le _ _) (by simp)
  fin_cases i
  · exact lt_of_le_of_lt (fdCap_bounds _).2 (by decide)
  · exact hbit _
  · exact hbit _
  · exact lt_of_le_of_lt (min_le_left _ _) (by decide)
  · exact hparked _
  · exact hparked _
  · show allowedState b < 8
    simp only [allowedState]
    split_ifs <;> decide
  · show a3Block b < 8
    have h0 := hbit (get b fGG_STATE_ROLE != 0)
    have h1 := hbit ((List.range 18).any (fun a => isSet b (fAD_CTL_EN a)))
    have h2 := hbit (get b (fCH_LINK_STATE 0) != 2)
    simp only [a3Block]
    omega

theorem showField_behindShown (f : Fld) (v : Nat) (b : Block) : (showField f v b).behindShown = b.behindShown := by
  rw [showField]
  split
  · rfl
  · exact wr_behindShown _ _ _

theorem shownValue_showField {f : Fld} (hf : f ∈ sampledFields) (v : Nat) (b : Block) :
    (showField f v b).shownValue = b.shownValue :=
  shownValue_congr (showField_behindShown f v b) fun g hg => get_showField_apart b v (sampled_apart_source f hf g hg)

/-- The block shows the fields of a list of numbers as their values are. -/
def Block.showsIn (b : Block) (is : List (Fin 8)) : Prop := ∀ i ∈ is, get b (shownField i) = b.shownValue i

/-- A sample of a field that `Block.shown` does not speak of leaves what is shown. -/
theorem showsIn_showField_other {b : Block} {is : List (Fin 8)} (h : b.showsIn is) {f : Fld} (hf : f ∈ sampledFields)
    (hne : ∀ i, f ≠ shownField i) (v : Nat) : (showField f v b).showsIn is := by
  intro i hi
  rw [get_showField_apart b v (sampled_apart_shown f hf i (hne i)), shownValue_showField hf, h i hi]

/-- A sample of a shown field shows it too. -/
theorem showsIn_showField {b : Block} {is : List (Fin 8)} (h : b.showsIn is) (i : Fin 8) {v : Nat} (hv : v = b.shownValue i) :
    (showField (shownField i) v b).showsIn (i :: is) := by
  have hf := shownField_sampled i
  intro k hk
  rw [shownValue_showField hf]
  rcases eq_or_ne k i with rfl | hki
  · rw [get_showField_self b _ v (shownField_fits k) (hv ▸ shownValue_lt b k), hv]
  · rw [get_showField_apart b v (sampled_apart_shown _ hf k fun heq => hki (shownField_injective heq).symm)]
    exact h k ((List.mem_cons.1 hk).resolve_left hki)

theorem showsIn_showActivity (b : Block) : (showActivity b).showsIn [7, 6] := by
  have hnone : b.showsIn [] := fun _ hi => absurd hi (by simp)
  have hallowed := showsIn_showField hnone 6 (v := allowedState b) rfl
  have hidle := showsIn_showField_other hallowed (f := fPW_ASTATE_IDLE) (by decide) (by decide) (b2n (ready b && deviceIdle b))
  refine showsIn_showField hidle 7 ?_
  rw [shownValue_showField (by decide), shownValue_showField (by decide)]
  rfl

theorem showsIn_showPace {b : Block} {is : List (Fin 8)} (h : b.showsIn is) : (showPace b).showsIn (0 :: 5 :: 4 :: is) := by
  refine showsIn_showField (showsIn_showField (showsIn_showField h 4 rfl) 5 ?_) 0 ?_
  · rw [shownValue_showField (by decide)]
    rfl
  · rw [shownValue_showField (by decide), shownValue_showField (by decide)]
    rfl

theorem showsIn_showCause {b : Block} {is : List (Fin 8)} (h : b.showsIn is) : (showCause b).showsIn is := by
  rw [showCause]
  split
  · exact showsIn_showField_other h (by decide) (by decide) _
  · split
    · exact h
    · exact showsIn_showField_other h (by decide) (by decide) _

theorem showsIn_showFdn {b : Block} {is : List (Fin 8)} (h : b.showsIn is) : (showFdn b).showsIn (2 :: 1 :: is) := by
  refine showsIn_showField (showsIn_showField h 1 rfl) 2 ?_
  rw [shownValue_showField (by decide)]
  rfl

theorem shown_samples {b : Block} (hon : domOn b domPwr = true) : (samples b).shown := by
  rw [samples, if_pos hon, shown_iff]
  have hall := showsIn_showFdn (showsIn_showCause (showsIn_showField (showsIn_showPace
    (showsIn_showActivity (coolSettle (redSample b)))) 3 rfl))
  exact fun i => hall i (by fin_cases i <;> decide)

theorem samples_of_off {b : Block} (hoff : domOn b domPwr = false) : samples b = b := by rw [samples, hoff]; rfl

theorem shown_settle {b : Block} (hon : domOn (settle b) domPwr = true) : (settle b).shown := by
  rw [settle] at hon ⊢
  rcases Bool.eq_false_or_eq_true (domOn (outcomes b) domPwr) with h | h
  · exact shown_samples h
  · rw [samples_of_off h] at hon
    exact absurd hon (by simp [h])

/-! ### The cycle of an empty queue -/

/-- The fields that a cycle writes beside the timers. -/
def tickedFields : List Fld := [fPW_PACE_LEVEL, fSEC_FW_WAIT_SECONDS]

/-- No field of these is one of a timer or shares a bit with one that a cycle writes. -/
def Fld.untouchedByTick (g : Fld) : Bool :=
  tickedFields.all (·.apart g) && [rTM_TS_LO, rTM_TS_LO + 4, rTM_ACLK_LO, rTM_ACLK_LO + 4].all (· != g.off)

theorem get_tick {b : Block} (hrun : dividersRun b = true) {g : Fld} (hg : g.untouchedByTick = true) : get (tick b) g = get b g := by
  simp only [Fld.untouchedByTick, tickedFields, List.all_cons, List.all_nil, Bool.and_true, Bool.and_eq_true, bne_iff_ne] at hg
  obtain ⟨⟨hpace, hwait⟩, hts, hts', haclk, haclk'⟩ := hg
  have htick : get (tick b) g = get (timersCounted b) g :=
    tick_keeps (get · g) hrun (fun _ v _ => get_put_apart _ v hpace) (fun _ v _ => get_showField_apart _ v hwait) (fun _ _ => rfl)
      (fun _ _ => rfl)
  have htimers : rd (timersCounted b) g.off = rd b g.off :=
    (rd_wr64_ne _ _ hts hts').trans (rd_wr64_ne _ _ haclk haclk')
  rw [htick, get, htimers, get]

theorem tick_of_stopped {b : Block} (h : dividersRun b = false) : tick b = b := by rw [tick, h]; rfl

theorem tick_behindShown {b : Block} (hrun : dividersRun b = true) : (tick b).behindShown = b.behindShown := by
  have htick : (tick b).behindShown = (timersCounted b).behindShown :=
    tick_keeps Block.behindShown hrun (fun _ _ _ => wr_behindShown _ _ _)
      (fun _ _ _ => showField_behindShown _ _ _) (fun _ _ => rfl) (fun _ _ => rfl)
  rw [htick]
  simp only [timersCounted, count64, wr64, wr_behindShown]

theorem shown_tick {b : Block} (h : b.shown) : (tick b).shown := by
  rcases Bool.eq_false_or_eq_true (dividersRun b) with hrun | hstop
  · refine shown_of_kept h (tick_behindShown hrun) (fun f hf => get_tick hrun ?_) fun i => get_tick hrun ?_
    · revert f
      decide
    · revert i
      decide
  · rwa [tick_of_stopped hstop]

theorem domOn_tick (b : Block) : domOn (tick b) domPwr = domOn b domPwr := by
  rcases Bool.eq_false_or_eq_true (dividersRun b) with hrun | hstop
  · rw [domOn, dom, get_tick hrun (by decide), domOn, dom]
  · rw [tick_of_stopped hstop]

/-! ### The obligation -/

theorem exec_settles {i : Instr} {s t : State} (h : exec i s = .next t) : ∃ b, t.blk = settle b := by
  obtain ⟨f, hf⟩ := exec_eq_run i s
  rw [hf] at h
  split at h
  · rw [runVin_eq] at h
    split at h
    · contradiction
    · exact ⟨f s.blk, congrArg State.blk (Host.Outcome.next.inj h).symm⟩
  · exact ⟨f s.blk, congrArg State.blk (Host.Outcome.next.inj h).symm⟩

/-- Settles O5: every command ends with the samples, and a cycle touches neither what is shown nor what it is computed from. -/
theorem stepKeepsShown : Obligations.StepKeepsShown := by
  intro s t hshown hstep hon
  cases hp : s.pending with
  | nil =>
    obtain rfl := Host.Outcome.next.inj (step_of_empty hp ▸ hstep)
    exact shown_tick (hshown (domOn_tick s.blk ▸ hon))
  | cons c rest =>
    obtain ⟨b, hb⟩ := exec_settles (step_of_cons hp ▸ hstep)
    rw [hb] at hon ⊢
    exact shown_settle hon

end Sys2Proof.Machine
end

section
/-!
PROOFS. The retirement and the failure of a cluster (14 R373–R375), and the obligation `ClustersRetire`.
-/

namespace Sys2Proof.Machine

/-! ### A write of CL_RETIRE (14 R374) -/

theorem pageOf_cluster {c : Nat} (hc : c < 32) : pageOf (0x10 + c) = some (.cl, c) := by
  rw [pageOf]
  repeat rw [if_neg (by omega)]
  rw [if_pos (by omega), Nat.add_sub_cancel_left]

theorem writeNat_clRetire {c : Nat} (hc : c < 32) {port : Port} {b : Block} (h : actsNowNat b port (rCL_RETIRE c) 1 = true) :
    writeNat port (rCL_RETIRE c) 1 b = retireReq c port (storeRw (rCL_RETIRE c) 1 (granted port (rCL_RETIRE c / 4096) b)) := by
  have hdiv : rCL_RETIRE c / 4096 = 0x10 + c := page_of_place (o := 0x0F0) (by omega) (by simp only [rCL_RETIRE, clBase, pageBase]; omega)
  have hmod : rCL_RETIRE c % 4096 = 0x0F0 := offset_of_place (p := 0x10 + c) (by omega) (by simp only [rCL_RETIRE, clBase, pageBase]; omega)
  have halert : rCL_RETIRE c ≠ rPW_ALERT := by simp only [rCL_RETIRE, clBase, rPW_ALERT, pwBase]; omega
  have hrw (v : W32) (b : Block) : applyRw (rCL_RETIRE c) v b = storeRw (rCL_RETIRE c) v b := by
    simp only [applyRw, hdiv, pageOf_cluster hc, hmod]
    rfl
  have hw1c (v : W32) (b : Block) : applyW1c (rCL_RETIRE c) v b = b := by
    rw [applyW1c, if_neg (by omega), if_neg halert]
  have hwo (v : W32) (hv : bit v 0 = true) (b : Block) : applyWo port (rCL_RETIRE c) v b = retireReq c port b := by
    simp only [applyWo, hdiv, pageOf_cluster hc, hmod]
    exact onBit_of_set hv _ _
  rw [writeNat, regWriteAt_acts _ _ _ _ h, hrw, hw1c, hwo _ rfl]
  rfl

theorem retired_clRetireStored {c : Nat} (port : Port) (v : W32) (b : Block) :
    isSet (storeRw (rCL_RETIRE c) v (granted port (rCL_RETIRE c / 4096) b)) (fBLK_STAT_RETIRED (clBase c)) =
      isSet b (fBLK_STAT_RETIRED (clBase c)) := by
  rw [isSet, storeRw, get_wr_ne _ _ (by simp only [rCL_RETIRE, fBLK_STAT_RETIRED]; omega), get_granted, isSet]

theorem clusterSafe_congr {b b' : Block} (h : b'.cmds = b.cmds) (c : Nat) : clusterSafe b' c = clusterSafe b c := by
  rw [clusterSafe, h, clusterSafe]

/-- The grant and the store of a write leave the commands. -/
theorem clusterSafe_clRetireStored {c : Nat} (port : Port) (v : W32) (b : Block) :
    clusterSafe (storeRw (rCL_RETIRE c) v (granted port (rCL_RETIRE c / 4096) b)) c = clusterSafe b c := by
  obtain ⟨a, heq⟩ := granted_eq port (rCL_RETIRE c / 4096) b
  exact clusterSafe_congr (by rw [heq, storeRw, wr_cmds]) c

section Request

variable {c : Nat} {b : Block} (port : Port)

theorem retireReq_of_retired (h : isSet b (fBLK_STAT_RETIRED (clBase c)) = true) : retireReq c port b = b := if_pos h

theorem retireReq_of_safe (h : isSet b (fBLK_STAT_RETIRED (clBase c)) = false) (hsafe : clusterSafe b c = true) :
    retireReq c port b = retireCluster c 1 false b := by
  rw [retireReq, if_neg (by simp [h]), if_pos hsafe]

theorem retireReq_of_used (h : isSet b (fBLK_STAT_RETIRED (clBase c)) = false) (hsafe : clusterSafe b c = false) :
    retireReq c port b = { b with txn := { b.txn with singles := b.txn.singles ++ [(rCL_RETIRE c, 1, port)] } } := by
  rw [retireReq, if_neg (by simp [h]), if_neg (by simp [hsafe])]

end Request

/-! ### What a retirement leaves -/

section Retirement

variable {c : Nat} {failed : Bool}

/-- RETIRED, and of a failure FAILED and the core's state, are set. -/
def retiredMarked (c : Nat) (failed : Bool) (b : Block) : Block :=
  let b := put (fBLK_STAT_RETIRED (clBase c)) 1 (if failed then put (fBLK_STAT_FAILED (clBase c)) 1 b else b)
  if failed then put (fCL_CORE_STATE c) 3 b else b

/-- The contents of its SRAM and of its engines are lost (17 R474). -/
def contentsLost (c : Nat) (b : Block) : Block := { clusterLost b c with lostCl := setInsert b.lostCl c }

theorem clusterOff_eq (c : Nat) (b : Block) : clusterOff b c = domainRollback c (setDom c 0 (contentsLost c b)) := rfl

/-- Its domain is off, or FAILED. -/
def retiredOff (c : Nat) (failed : Bool) (b : Block) : Block :=
  let b := clusterOff (retiredMarked c failed b) c
  if failed then put (fDom c) 3 b else b

/-- CLUSTERS and the cause follow. -/
def retiredCounted (c cause : Nat) (failed : Bool) (b : Block) : Block :=
  put (fCL_RETIRE_CAUSE c) cause
    (put fDEV_BLK_CAP_CLUSTERS (get (retiredOff c failed b) fDEV_BLK_CAP_CLUSTERS - 1) (retiredOff c failed b))

/-- The record of a retirement (14 R374). -/
def retiredPosted (c cause : Nat) (failed : Bool) (b : Block) : Block :=
  post 0x0400 (0x10 + c) (c + cause * 2 ^ 8) (if failed then raise (0x10 + c) 8 b else b)

/-- The record, and where few clusters are left the advice to replace the module (14 R376). -/
def retiredTold (c cause : Nat) (failed : Bool) (b : Block) : Block :=
  if get (retiredPosted c cause failed b) fDEV_BLK_CAP_CLUSTERS ≤ 28 then replaceAdvise 3 (retiredPosted c cause failed b)
  else retiredPosted c cause failed b

theorem retireCluster_eq (cause : Nat) {b : Block} (h : isSet b (fBLK_STAT_RETIRED (clBase c)) = false) :
    retireCluster c cause failed b = retiredTold c cause failed (retiredCounted c cause failed b) := by
  rw [retireCluster, if_neg (by simp [h])]
  rfl

/-- What reads neither the registers of a roll-back nor REPLACE nor a record sees nothing of the records. -/
theorem retiredTold_keeps {β : Type} (g : Block → β) (hwr : ∀ b o v, rollsBack o → g (wr b o v) = g b)
    (hcanary : ∀ b v, g (wr b rGG_CANARY v) = g b) (hring : ∀ b n r, g (setRing n r b) = g b) (cause : Nat) (b : Block) :
    g (retiredTold c cause failed b) = g b := by
  have hraise := raise_keeps g hwr hring
  have hadvise (b : Block) : g (replaceAdvise 3 b) = g b := by
    simp only [replaceAdvise]
    split
    · rfl
    · exact (hraise _ _ _).trans ((hring _ _ _).trans (hcanary _ _))
  have hpost : g (retiredPosted c cause failed b) = g b := by
    refine (hring _ _ _).trans ?_
    split
    · exact hraise _ _ _
    · rfl
  rw [retiredTold]
  split
  · exact (hadvise _).trans hpost
  · exact hpost

theorem get_retiredTold_ne {f : Fld} (hf : ¬ rollsBack f.off) (hcanary : rGG_CANARY ≠ f.off) (cause : Nat) (b : Block) :
    get (retiredTold c cause failed b) f = get b f :=
  retiredTold_keeps (get · f) (fun b _ v ho => get_wr_ne b v fun heq => hf (heq ▸ ho)) (fun b v => get_wr_ne b v hcanary)
    (fun _ _ _ => rfl) cause b

theorem get_retiredTold_steady {f : Fld} (hf : f.steady) (cause : Nat) (b : Block) : get (retiredTold c cause failed b) f = get b f := by
  have hpost : get (retiredPosted c cause failed b) f = get b f := by
    rw [retiredPosted, get, get, rd, post_regs, ← rd, ← get]
    split
    · exact get_raise_steady hf b _ _
    · rfl
  rw [retiredTold]
  split
  · exact (get_replaceAdvise_steady hf _ _).trans hpost
  · exact hpost

/-- Marking the cluster leaves every other register. -/
theorem get_retiredMarked_ne {f : Fld} (hstat : clBase c + 0xc ≠ f.off) (hcore : (fCL_CORE_STATE c).off ≠ f.off) (b : Block) :
    get (retiredMarked c failed b) f = get b f := by
  cases failed
  · exact get_put_off_ne b 1 hstat
  · exact (get_put_off_ne _ 3 hcore).trans ((get_put_off_ne _ 1 hstat).trans (get_put_off_ne b 1 hstat))

theorem retired_retiredMarked (b : Block) : get (retiredMarked c failed b) (fBLK_STAT_RETIRED (clBase c)) = 1 := by
  have hset (b : Block) : get (put (fBLK_STAT_RETIRED (clBase c)) 1 b) (fBLK_STAT_RETIRED (clBase c)) = 1 :=
    get_put_self b _ 1 (by simp [fBLK_STAT_RETIRED])
  cases failed
  · exact hset b
  · exact (get_put_off_ne _ 3 (by simp [fCL_CORE_STATE, fBLK_STAT_RETIRED])).trans (hset _)

theorem fDom_off_lt {d : Nat} (hd : d < 80) : (fDom d).off < 0x20d0 := by simp only [fDom, rPW_DOM, pwBase]; omega

/-- Its domain's fall leaves every field that no roll-back writes. -/
theorem get_retiredOff_ne {f : Fld} (hdom : (fDom c).off ≠ f.off) (hf : f.steady ∨ ¬ rollsBack f.off) (b : Block) :
    get (retiredOff c failed b) f = get (retiredMarked c failed b) f := by
  have hoff (b : Block) : get (clusterOff b c) f = get b f := by
    have hset : get (setDom c 0 (contentsLost c b)) f = get b f := by
      rw [setDom]
      split
      · rfl
      · exact get_put_off_ne _ 0 hdom
    refine Eq.trans ?_ hset
    rcases hf with hsteady | hroll
    · exact get_domainRollback_steady hsteady _ c
    · exact domainRollback_keeps (get · f) (fun b _ v ho => get_wr_ne b v fun heq => hroll (heq ▸ ho)) (fun _ _ _ => rfl)
        (fun _ _ => rfl) c _
  cases failed
  · exact hoff _
  · exact (get_put_off_ne _ 3 hdom).trans (hoff _)

variable (hc : c < 32)
include hc

theorem dom_retiredOff {b : Block} (h3 : dom b c ≠ 3) : dom (retiredOff c failed b) c = if failed then 3 else 0 := by
  have hfits : (fDom c).msb < 32 := by simp only [fDom]; omega
  have hwidth : (fDom c).msb + 1 - (fDom c).lsb = 2 := by simp only [fDom]; omega
  cases failed
  · have hmarked : dom (contentsLost c (retiredMarked c false b)) c = dom b c :=
      get_retiredMarked_ne (Nat.ne_of_gt (Nat.lt_of_lt_of_le (fDom_off_lt (by omega)) (by simp only [clBase]; omega)))
        (Nat.ne_of_gt (Nat.lt_of_lt_of_le (fDom_off_lt (by omega)) (by simp only [fCL_CORE_STATE, clBase]; omega))) b
    show dom (clusterOff (retiredMarked c false b) c) c = 0
    rw [clusterOff_eq, dom, get_domainRollback_steady (steady_fDom (by omega)), setDom_eq _ _ _ (hmarked ▸ h3),
      get_put_self _ _ _ hfits, hwidth]
    rfl
  · show get (put (fDom c) 3 _) (fDom c) = 3
    rw [get_put_self _ _ _ hfits, hwidth]
    rfl

omit hc in
theorem mem_retiredOff (b : Block) : (retiredOff c failed b).mem =
    b.mem.filter (fun e => decide (e.1 < clusterSram c ∨ clusterSram c + 0xC00000 ≤ e.1)) := by
  have hset (b : Block) : (setDom c 0 b).mem = b.mem := by
    rw [setDom]
    split <;> rfl
  have hoff (b : Block) : (clusterOff b c).mem = (contentsLost c b).mem :=
    (domainRollback_keeps Block.mem (fun _ _ _ _ => rfl) (fun _ _ _ => rfl) (fun _ _ => rfl) c _).trans (hset _)
  cases failed
  · exact hoff _
  · exact hoff _

/-- What a retirement leaves of the cluster and of CLUSTERS. -/
theorem retireCluster_leaves (cause : Nat) {b : Block} (hnot : isSet b (fBLK_STAT_RETIRED (clBase c)) = false) (h3 : dom b c ≠ 3)
    (hhi : get b fDEV_BLK_CAP_CLUSTERS ≤ 32) :
    let t := retireCluster c cause failed b
    isSet t (fBLK_STAT_RETIRED (clBase c)) = true ∧ dom t c = (if failed then 3 else 0) ∧
      get t fDEV_BLK_CAP_CLUSTERS = get b fDEV_BLK_CAP_CLUSTERS - 1 ∧
      get t (fCL_RETIRE_CAUSE c) = cause % 2 ^ ((fCL_RETIRE_CAUSE c).msb + 1 - (fCL_RETIRE_CAUSE c).lsb) ∧
      (∀ a, clusterSram c ≤ a → a < clusterSram c + 0xC00000 → memByte t a = 0) := by
  have hdomOff := fDom_off_lt (d := c) (by omega)
  have hdev : ¬ rollsBack fDEV_BLK_CAP_CLUSTERS.off := by simp [rollsBack, fDEV_BLK_CAP_CLUSTERS, devBase, rTX_STAT, txBase]
  have hcause : ¬ rollsBack (fCL_RETIRE_CAUSE c).off := by
    simp only [rollsBack, fCL_RETIRE_CAUSE, clBase, rTX_STAT, txBase]
    omega
  have hretired : (fBLK_STAT_RETIRED (clBase c)).steady := ⟨by simp [fBLK_STAT_RETIRED], .inl (by simp only [fBLK_STAT_RETIRED, clBase]; omega)⟩
  have hcounted {f : Fld} (hne : clBase c + 0xf0 ≠ f.off) (hne' : devBase + 0x4 ≠ f.off) :
      get (retiredCounted c cause failed b) f = get (retiredOff c failed b) f :=
    (get_put_off_ne _ _ hne).trans (get_put_off_ne _ _ hne')
  rw [retireCluster_eq cause hnot]
  refine ⟨?retired, ?domain, ?clusters, ?cause, fun a hfrom hto => ?sram⟩
  case retired =>
    rw [isSet, get_retiredTold_steady hretired, hcounted (by simp [fBLK_STAT_RETIRED]) (by simp only [fBLK_STAT_RETIRED, clBase, devBase]; omega),
      get_retiredOff_ne (by simp only [fBLK_STAT_RETIRED, clBase]; omega) (.inl hretired), retired_retiredMarked]
    rfl
  case domain =>
    rw [dom, get_retiredTold_steady (steady_fDom (by omega)), hcounted (by simp only [clBase]; omega)
      (by simp only [fDom, rPW_DOM, pwBase, devBase]; omega), ← dom, dom_retiredOff hc h3]
  case clusters =>
    have hoff : get (retiredOff c failed b) fDEV_BLK_CAP_CLUSTERS = get b fDEV_BLK_CAP_CLUSTERS :=
      (get_retiredOff_ne (by simp only [fDom, rPW_DOM, pwBase, fDEV_BLK_CAP_CLUSTERS, devBase]; omega) (.inr hdev) b).trans
        (get_retiredMarked_ne (by simp [fDEV_BLK_CAP_CLUSTERS, devBase]) (by simp [fDEV_BLK_CAP_CLUSTERS, devBase, fCL_CORE_STATE, clBase]) b)
    rw [get_retiredTold_ne hdev (by decide), retiredCounted,
      get_put_off_ne _ _ (by simp only [fCL_RETIRE_CAUSE, clBase, fDEV_BLK_CAP_CLUSTERS, devBase]; omega),
      get_put_self _ _ _ (by decide), hoff]
    exact Nat.mod_eq_of_lt (lt_of_le_of_lt (Nat.sub_le_sub_right hhi 1) (by decide))
  case cause =>
    rw [get_retiredTold_ne hcause (by simp only [rGG_CANARY, ggBase, fCL_RETIRE_CAUSE, clBase]; omega), retiredCounted,
      get_put_self _ _ _ (by simp [fCL_RETIRE_CAUSE])]
  case sram =>
    have hmem : (retiredTold c cause failed (retiredCounted c cause failed b)).mem = (retiredOff c failed b).mem :=
      retiredTold_keeps Block.mem (fun _ _ _ _ => rfl) (fun _ _ => rfl) (fun _ _ _ => rfl) cause _
    rw [memByte, hmem, mem_retiredOff]
    exact mapGet_filter_of_dropped 0 _ fun _ => by simp [hfrom, Nat.not_le.2 hto]

end Retirement

/-! ### The obligation -/

/-- Settles O44: RETIRE through the checks of a write, and what the steps of a retirement leave. -/
theorem clustersRetire : Obligations.ClustersRetire := by
  intro s c port cause
  refine ⟨fun hacts => ?retire, ?failure, fun failed hnot h3 _ hhi => retireCluster_leaves c.isLt cause hnot h3 hhi⟩
  case retire =>
    intro b
    have hwrite : writeNat port (rCL_RETIRE c) 1 s.blk = retireReq c port b := writeNat_clRetire c.isLt hacts
    have hretired : isSet b (fBLK_STAT_RETIRED (clBase c)) = isSet s.blk (fBLK_STAT_RETIRED (clBase c)) :=
      retired_clRetireStored port 1 s.blk
    have hsafe : clusterSafe b c = clusterSafe s.blk c := clusterSafe_clRetireStored port 1 s.blk
    exact ⟨fun h => run_of_eq (hwrite.trans (retireReq_of_retired port (hretired.trans h))),
      fun h hs => run_of_eq (hwrite.trans (retireReq_of_safe port (hretired.trans h) (hsafe.trans hs))),
      fun h hs => run_of_eq (hwrite.trans (retireReq_of_used port (hretired.trans h) (hsafe.trans hs)))⟩
  case failure => exact run_eq (failCluster c cause) s

end Sys2Proof.Machine
end

section
/-!
PROOFS. The commands of SC_CTX_CTL (15 R415–R417): the write that reaches them, what LOAD leaves, and the obligation `ContextCommands`.
-/

namespace Sys2Proof.Machine

/-! ### A write of SC_CTX_CTL (15 R416) -/

/-- The word that a row writes: CTX and CMD. -/
def ctxWord (c cmd : Nat) : W32 := BitVec.ofNat 32 (c + cmd * 256)

theorem field_ctxWord_cmd {c cmd : Nat} (hc : c < 64) (hcmd : cmd < 8) : field (ctxWord c cmd) 10 8 = cmd := by
  simp only [field, ctxWord, BitVec.toNat_ofNat, Nat.shiftRight_eq_div_pow]
  omega

theorem field_ctxWord_ctx {c : Nat} (hc : c < 64) (cmd : Nat) : field (ctxWord c cmd) 5 0 = c := by
  simp only [field, ctxWord, BitVec.toNat_ofNat, Nat.shiftRight_eq_div_pow]
  omega

theorem rwBits_ctxCtl : rwBits rSC_CTX_CTL = fieldMask 5 0 := by decide

theorem get_ctx_storeRw (v : W32) (b : Block) : get (storeRw rSC_CTX_CTL v b) fSC_CTX_CTL_CTX = field v 5 0 := by
  rw [get, show fSC_CTX_CTL_CTX.off = rSC_CTX_CTL from rfl, storeRw, rd_wr_self, rwBits_ctxCtl]
  exact field_mergeBits_self _ v (by decide)

section StoreRw

variable (o : Nat) (v : W32) (b : Block)

theorem storeRw_mem : (storeRw o v b).mem = b.mem := wr_mem ..

theorem storeRw_poison : (storeRw o v b).poison = b.poison := wr_poison ..

theorem storeRw_hostFail : (storeRw o v b).hostFail = b.hostFail := wr_hostFail ..

end StoreRw

/-- The block in which a command of SC_CTX_CTL acts. -/
def ctxCtlBlock (port : Port) (v : W32) (b : Block) : Block := storeRw rSC_CTX_CTL v (granted port 4 b)

theorem contextCommand_of_acts {port : Port} {c : Fin 64} {cmd : Nat} (hcmd : cmd < 8) {b : Block}
    (h : actsNow b port rSC_CTX_CTL (ctxWord c cmd) = true) :
    contextCommand port c cmd b = ctxCommand cmd c (ctxCtlBlock port (ctxWord c cmd) b) := by
  have hmod : c.val % 64 = c := Nat.mod_eq_of_lt c.isLt
  have hwo (v : W32) (b : Block) : applyWo port rSC_CTX_CTL v b = ctxCommand (field v 10 8) (get b fSC_CTX_CTL_CTX) b := rfl
  rw [contextCommand, hmod, writeNat, ← ctxWord, regWriteAt_acts _ _ _ _ h, hwo, field_ctxWord_cmd c.isLt hcmd]
  show ctxCommand cmd (get (ctxCtlBlock port (ctxWord c cmd) b) fSC_CTX_CTL_CTX) (ctxCtlBlock port (ctxWord c cmd) b) = _
  rw [ctxCtlBlock, get_ctx_storeRw, field_ctxWord_ctx c.isLt]

/-! ### What the grant and the store leave -/

section Stored

variable (port : Port) (v : W32) (b : Block)

theorem rd_ctxCtlBlock {o : Nat} (h : rSC_CTX_CTL ≠ o) : rd (ctxCtlBlock port v b) o = rd b o := by
  rw [ctxCtlBlock, storeRw, rd_wr_ne _ _ h, rd_granted]

theorem get_ctxCtlBlock {f : Fld} (h : rSC_CTX_CTL ≠ f.off) : get (ctxCtlBlock port v b) f = get b f := by
  rw [get, rd_ctxCtlBlock port v b h, get]

/-- All but the arbiters' pointers and SC_CTX_CTL is as it was. -/
theorem ctxCtlBlock_eq : ∃ a r, ctxCtlBlock port v b = { b with arb := a, regs := r } := by
  obtain ⟨a, ha⟩ := granted_eq port 4 b
  exact ⟨a, (ctxCtlBlock port v b).regs, by rw [ctxCtlBlock, ha]; rfl⟩

theorem ctxs_ctxCtlBlock : (ctxCtlBlock port v b).ctxs = b.ctxs := by
  obtain ⟨a, r, h⟩ := ctxCtlBlock_eq port v b
  rw [h]

theorem mem_ctxCtlBlock : (ctxCtlBlock port v b).mem = b.mem := by
  obtain ⟨a, r, h⟩ := ctxCtlBlock_eq port v b
  rw [h]

theorem ctxSource_ctxCtlBlock : rd64 (ctxCtlBlock port v b) rSC_CTX_SRC_LO = rd64 b rSC_CTX_SRC_LO :=
  rd64_congr (rd_ctxCtlBlock port v b (by decide)) (rd_ctxCtlBlock port v b (by decide))

theorem ctxValid_ctxCtlBlock (c : Nat) : ctxValid (ctxCtlBlock port v b) c = ctxValid b c := by
  rw [ctxValid, isSet, get_ctxCtlBlock port v b (by simp only [pairBit, rSC_CTX_CTL, rSC_CTX_VALID_LO, scBase]; omega), ← isSet, ← ctxValid]

theorem reachable_ctxCtlBlock (pa : Nat) : reachable (ctxCtlBlock port v b) pa = reachable b pa := by
  have hfield {f : Fld} (h : rSC_CTX_CTL ≠ f.off) := get_ctxCtlBlock port v b h
  obtain ⟨a, r, heq⟩ := ctxCtlBlock_eq port v b
  refine reachable_congr (by rw [heq]) (by rw [heq]) (fun f hf => hfield (hf.off_ne (by decide))) (fun s _ => ⟨hfield ?_, hfield ?_⟩) pa
  · simp only [rSC_CTX_CTL, scBase, fSG_PART_COLL, sgBase]; omega
  · simp only [rSC_CTX_CTL, scBase, fSG_PART_SECURE, sgBase]; omega

end Stored

/-! ### LOAD and READ (15 R416) -/

/-- The context that LOAD makes of its record. -/
def ctxLoaded (c : Nat) (b : Block) : Ctx :=
  ctxOfRecord (memBytes b (rd64 b rSC_CTX_SRC_LO) 128) (if ctxValid b c then (ctx b c).tokens else [])

/-- The block that a LOAD of a whole record leaves. -/
def ctxTaken (c : Nat) (b : Block) : Block :=
  put (pairBit rSC_CTX_VALID_LO c) (byteAt (memBytes b (rd64 b rSC_CTX_SRC_LO) 128) 0 % 2) (setCtx c (ctxLoaded c b) b)

/-- A write of SC_CTX_CTL that acts has passed the checks of its encoding and of the state (03 R76). -/
theorem checks_of_now {b : Block} {port : Port} {n : Nat} {v : W32} (h : judgeWrite b port 4 .sc n 0x048 v = .now) :
    reservedWrite b .sc n 0x048 v = false ∧ stateOk b .sc n 0x048 v = true := by
  have hjudge : judgeWrite b port 4 .sc n 0x048 v = if authority b port .sc 0x048 != .rw then .discarded 2
      else if !domOn b (pageDomain .sc n) then
        (if domainHeld b (pageDomain .sc n) && decide (b.act.held.length < 64) then .holds else .discarded 4)
      else if reservedWrite b .sc n 0x048 v then .discarded 1
      else if stateOk b .sc n 0x048 v then .now else .discarded 5 := rfl
  rw [hjudge] at h
  split_ifs at h with _ _ _ hreserved hstate
  exact ⟨Bool.not_eq_true _ ▸ hreserved, hstate⟩

/-- A LOAD acts where its record can be taken (15 R416). -/
theorem ctxLoad_of_acts {port : Port} {c : Fin 64} {b : Block} (h : actsNow b port rSC_CTX_CTL (ctxWord c 1) = true) :
    ctxLoad c (granted port 4 b) = some (ctxTaken c (granted port 4 b)) := by
  have hnow : judgeWrite (granted port 4 b) port 4 .sc 0 0x048 (ctxWord c 1) = .now := by
    have hacts := (Bool.and_eq_true _ _ ▸ h : _ ∧ _).2
    exact eq_of_beq (Bool.and_eq_true _ _ ▸ hacts : _ ∧ _).2
  obtain ⟨hreserved, hstate⟩ := checks_of_now hnow
  have hcmd : field (ctxWord c 1) 10 8 = 1 := field_ctxWord_cmd c.isLt (by decide)
  have hctx : field (ctxWord c 1) 5 0 = c := field_ctxWord_ctx c.isLt 1
  have hquiet : ctxQuiet (granted port 4 b) c = true := by simpa [stateOk, hcmd, hctx] using hstate
  have hsome : (ctxLoad c (granted port 4 b)).isSome = true := by simpa [reservedWrite, hcmd, hctx, hquiet] using hreserved
  unfold ctxLoad at hsome ⊢
  dsimp only at hsome ⊢
  split at hsome
  · exact absurd hsome Bool.false_ne_true
  · next hgood =>
    rw [if_neg hgood]
    rfl

/-- What a LOAD takes does not depend on the registers it does not read. -/
theorem ctxLoad_congr {b b' : Block} {c : Nat} (hreach : ∀ pa, reachable b' pa = reachable b pa) (hmem : b'.mem = b.mem)
    (hfail : b'.hostFail = b.hostFail) (hpoison : b'.poison = b.poison) (hsrc : rd64 b' rSC_CTX_SRC_LO = rd64 b rSC_CTX_SRC_LO)
    (h : ctxLoad c b = some (ctxTaken c b)) : ctxLoad c b' = some (ctxTaken c b') := by
  have hbytes (pa n : Nat) : memBytes b' pa n = memBytes b pa n := by simp only [memBytes, memByte, hmem]
  have hpois (pa n : Nat) : anyPoison b' pa n = anyPoison b pa n := by simp only [anyPoison, hpoison]
  have hfails (pa : Nat) : readFails b' pa = readFails b pa := by simp only [readFails, hfail]
  unfold ctxLoad at h ⊢
  dsimp only at h ⊢
  rw [hsrc, hreach, hreach, hfails, hfails, hpois, hbytes]
  split at h
  · contradiction
  · next hgood =>
    rw [if_neg hgood]
    simp only [ctxTaken, ctxLoaded, hbytes, hsrc]

theorem reachable_granted (port : Port) (p : Nat) (b : Block) (pa : Nat) : reachable (granted port p b) pa = reachable b pa := by
  obtain ⟨a, h⟩ := granted_eq port p b
  rw [h]
  rfl

theorem ctxCommand_of_loaded {c : Nat} {b t : Block} (h : ctxLoad c b = some t) : ctxCommand 1 c b = t := by
  unfold ctxCommand
  rw [h]
  rfl

/-- The context's record stays closed, lest the check of the match evaluate it. -/
theorem ctxCommand_of_read {c : Nat} {b t : Block} (h : ctxRead c b = t) : ctxCommand 2 c b = t := by
  unfold ctxCommand
  rw [h]
  rfl

theorem ctxCommand_load {port : Port} {c : Fin 64} {b : Block} (h : actsNow b port rSC_CTX_CTL (ctxWord c 1) = true) :
    ctxCommand 1 c (ctxCtlBlock port (ctxWord c 1) b) = ctxTaken c (ctxCtlBlock port (ctxWord c 1) b) := by
  have hload : ctxLoad c (ctxCtlBlock port (ctxWord c 1) b) = some (ctxTaken c (ctxCtlBlock port (ctxWord c 1) b)) := by
    refine ctxLoad_congr (fun pa => ?_) (storeRw_mem _ _ _) (storeRw_hostFail _ _ _) (storeRw_poison _ _ _) ?_ (ctxLoad_of_acts h)
    · rw [reachable_ctxCtlBlock, reachable_granted]
    · rw [ctxSource_ctxCtlBlock]
      exact (rd64_congr (rd_granted _ _ _ _) (rd_granted _ _ _ _)).symm
  exact ctxCommand_of_loaded hload

/-- What a LOAD leaves of the contexts. -/
theorem ctx_ctxTaken (c : Nat) (b : Block) : ctx (ctxTaken c b) c = ctxLoaded c b ∧ (∀ x, x ≠ c → ctx (ctxTaken c b) x = ctx b x) ∧
    ctxValid (ctxTaken c b) c = (byteAt (memBytes b (rd64 b rSC_CTX_SRC_LO) 128) 0).testBit 0 ∧ (ctxTaken c b).mem = b.mem := by
  refine ⟨mapGet_set_self _ _ _ _, fun x hx => mapGet_set_ne _ _ _ (Ne.symm hx), ?_, rfl⟩
  rw [ctxTaken, ctxValid, isSet, get_put_self _ _ _ (by simp only [pairBit]; omega), Nat.testBit_zero]
  have hwidth : (pairBit rSC_CTX_VALID_LO c).msb + 1 - (pairBit rSC_CTX_VALID_LO c).lsb = 1 := by simp only [pairBit]; omega
  rw [hwidth]
  generalize byteAt _ 0 = n
  rcases Nat.mod_two_eq_zero_or_one n with h | h <;> simp [h]

theorem ctxCommand_read {c : Nat} {b : Block} (h0 : reachable b (rd64 b rSC_CTX_SRC_LO) = true)
    (h1 : reachable b (rd64 b rSC_CTX_SRC_LO + 127) = true) :
    ctxCommand 2 c b = memWrite (rd64 b rSC_CTX_SRC_LO) (contextBytes b c) b := by
  refine ctxCommand_of_read ?_
  unfold ctxRead
  dsimp only
  rw [h0, h1, Bool.and_self, if_pos rfl]

/-! ### The obligation -/

/-- Settles O52: each row writes SC_CTX_CTL, and a LOAD that acts has passed the checks of its record. -/
theorem contextCommands : Obligations.ContextCommands := by
  intro s port c hclear v b pa
  have hsrc (cmd : Nat) : rd64 (b cmd) rSC_CTX_SRC_LO = pa := ctxSource_ctxCtlBlock port (v cmd) s.blk
  have hctxs (cmd x : Nat) : ctx (b cmd) x = ctx s.blk x := congrArg (mapGet Ctx.fresh · x) (ctxs_ctxCtlBlock port (v cmd) s.blk)
  have hmem (cmd : Nat) : (b cmd).mem = s.blk.mem := mem_ctxCtlBlock port (v cmd) s.blk
  have hvalid' (cmd : Nat) : ctxValid (b cmd) c = ctxValid s.blk c := ctxValid_ctxCtlBlock port (v cmd) s.blk c
  have hreach (cmd a : Nat) : reachable (b cmd) a = reachable s.blk a := reachable_ctxCtlBlock port (v cmd) s.blk a
  refine ⟨fun h => ?load, fun h h0 h1 => ?read, fun h => ?unfence, fun h => ?invalidate⟩
  case load =>
    obtain ⟨hself, hothers, hvalid, hkept⟩ := ctx_ctxTaken c (b 1)
    have hrecord (n : Nat) : memBytes (b 1) pa n = memBytes s.blk pa n := by simp only [memBytes, memByte, hmem]
    rw [hsrc, hrecord] at hvalid
    refine ⟨ctxTaken c (b 1), run_of_eq ((hostGated_active _ _ hclear).trans ?_), ?_, hvalid, fun x hx => (hothers x hx).trans (hctxs 1 x),
      hkept.trans (hmem 1)⟩
    · exact (contextCommand_of_acts (by decide) h).trans (ctxCommand_load h)
    · rw [hself, ctxLoaded, hsrc, hrecord, hvalid', hctxs]
  case read =>
    refine run_of_eq ((hostGated_active _ _ hclear).trans ((contextCommand_of_acts (by decide) h).trans ?_))
    have hread : ctxCommand 2 c (b 2) = memWrite (rd64 (b 2) rSC_CTX_SRC_LO) (contextBytes (b 2) c) (b 2) :=
      ctxCommand_read (by rw [hsrc, hreach, h0]) (by rw [hsrc, hreach, h1])
    rw [hsrc] at hread
    exact hread
  case unfence => exact run_of_eq (contextCommand_of_acts (by decide) h)
  case invalidate =>
    refine run_of_eq ((contextCommand_of_acts (by decide) h).trans ?_)
    rw [← hctxs 4]
    rfl

end Sys2Proof.Machine
end

section
/-!
PROOFS. Commands that use no engine: FENCE, DRAIN, WAIT and EVENT (15 R429–R431) and TXN (15 R432), and the obligation
`CommandCompletion`.
-/

namespace Sys2Proof.Machine

/-! ### FENCE, DRAIN, WAIT and EVENT (15 R429–R431) -/

section Plain

variable {q n : Nat} {m : Cmd} {b : Block} (hfind : findCmd b q n = some m)
include hfind

theorem fenceRow_of_dispatched {cls : Nat} (hstage : m.stage = .dispatched) (hcls : m.cls = cls) :
    fenceRow cls q n b = finishCmd q n 0 0 (setCmd { m with stage := .running } b) :=
  onDispatched_some _ b hfind hstage hcls

/-- A WAIT of the row's MODE ends at its time, at once where that has come. -/
theorem waitFrom_of_dispatched {mode : Nat} (ends : Cmd → Block → Nat) (hstage : m.stage = .dispatched) (hcls : m.cls = 0x0C)
    (hmode : m.waitMode = mode) : waitFrom mode q n ends b =
      let run := { m with stage := .running }
      let t := ends run (setCmd run b)
      if t ≤ now b then finishCmd q n 0 0 (setCmd run b) else setCmd { run with endAt := t } (setCmd run b) :=
  (onDispatched_some _ b hfind hstage hcls).trans (if_neg (not_not.2 hmode))

theorem eventRow_of_dispatched (hstage : m.stage = .dispatched) (hcls : m.cls = 0x0D) : eventRow q n b =
    postTo (byteAt m.desc 0x10 % 16) ⟨0x0600, m.ctx, 4, q, m.seq, now b, fieldAt m.desc 0x18 8⟩ (setCmd { m with stage := .running } b) :=
  onDispatched_some _ b hfind hstage hcls

theorem waitExpiry_of_running (hcls : m.cls = 0x0C) (hstage : m.stage = .running) :
    waitExpiry q n b = if m.endAt ≤ now b then finishCmd q n 0 0 b else b := by
  simp [waitExpiry, hfind, hcls, hstage]

/-- A WAIT that is its queue's next command, its token not reached, ends at its TIMEOUT (15 R430). -/
theorem waitExpiry_of_next (hcls : m.cls = 0x0C) (hstage : m.stage = .fetched ∨ m.stage = .held) (hhead : (cmdsOf b q).head? = some m)
    (hstate : qState b q = 1) (htimeout : m.waitTimeout ≠ 0) (hdesc : descFail m = none) (htoken : tokenReached b m = false) :
    waitExpiry q n b = if m.since + m.waitTimeout ≤ now b
      then finishCmd q n 0x17 0 (takeDispSeq m { b with dispatches := b.dispatches + 1 }) else b := by
  rcases hstage with hstage | hstage <;> simp [waitExpiry, hfind, hcls, hstage, hhead, hstate, htimeout, hdesc, htoken]

end Plain

theorem plainCommands : Claims.PlainCommands := by
  intro s q n m hfind run b
  refine ⟨fun hstage => ⟨?fence, ?drain, ?token, ?untilTime, ?forTime, ?event⟩, fun hcls hstage => ?running,
    fun hcls hstage hhead hstate htimeout hdesc htoken => ?next⟩
  case fence => exact fun hcls => run_of_eq (fenceRow_of_dispatched hfind hstage hcls)
  case drain => exact fun hcls => run_of_eq (fenceRow_of_dispatched hfind hstage hcls)
  case token => exact fun hcls hmode => run_of_eq ((waitFrom_of_dispatched hfind _ hstage hcls hmode).trans (if_pos (le_refl (now b))))
  case untilTime => exact fun hcls hmode => run_of_eq (waitFrom_of_dispatched hfind _ hstage hcls hmode)
  case forTime => exact fun hcls hmode => run_of_eq (waitFrom_of_dispatched hfind _ hstage hcls hmode)
  case event => exact fun hcls => run_of_eq (eventRow_of_dispatched hfind hstage hcls)
  case running => exact run_of_eq (waitExpiry_of_running hfind hcls hstage)
  case next => exact run_of_eq (waitExpiry_of_next hfind hcls hstage hhead hstate htimeout hdesc htoken)

/-! ### TXN (15 R432) -/

theorem onTxn_of_dispatched {op q n : Nat} {m : Cmd} {b : Block} (f : Cmd → Block → Block) (hfind : findCmd b q n = some m)
    (hstage : m.stage = .dispatched) (hcls : m.cls = 0x0E) (hop : m.txnOp = op) :
    onTxn op q n f b = f { m with stage := .running } (setCmd { m with stage := .running } b) := by
  rw [onTxn, hfind]
  exact (if_pos hop).trans (onDispatched_some f b hfind hstage hcls)

section Commit

variable {c : Cmd} (hstage : c.stage = .running) (hcls : c.cls = 0x0E) (hop : c.txnOp = 2) {b : Block}
include hstage hcls hop

theorem txnSettle_of_commit : txnSettle b c = if (txnStatus b c.txnPage).1 ≠ 0 then b
    else if (txnStatus b c.txnPage).2.2 = 1 then finishCmd c.queue c.count 0 0 b
    else finishCmd c.queue c.count 0x19 (txnStatus b c.txnPage).2.2 b := by
  simp only [txnSettle, hstage, hcls, hop, beq_self_eq_true, Bool.and_self, if_true]

theorem txnSettle_of_open (h : (txnStatus b c.txnPage).1 ≠ 0) : txnSettle b c = b := by
  rw [txnSettle_of_commit hstage hcls hop, if_pos h]

theorem txnSettle_of_ended (h : (txnStatus b c.txnPage).1 = 0) : txnSettle b c =
    if (txnStatus b c.txnPage).2.2 = 1 then finishCmd c.queue c.count 0 0 b
    else finishCmd c.queue c.count 0x19 (txnStatus b c.txnPage).2.2 b := by
  rw [txnSettle_of_commit hstage hcls hop, if_neg (not_not.2 h)]

end Commit

theorem txnCommands : Claims.TxnCommands := by
  intro s q n m hfind hstage hcls run b off
  refine ⟨fun hop => ?begin, fun hop => ?commit, fun hop => ?rollback, fun hop => ?write⟩
  case begin => exact run_of_eq (onTxn_of_dispatched _ hfind hstage hcls hop)
  case commit =>
    intro r
    have hcommit : txnCmdCommit q n s.blk = if r.2 then txnSettle r.1 run else finishCmd q n 0x18 off r.1 :=
      onTxn_of_dispatched _ hfind hstage hcls hop
    refine ⟨fun hrefused => run_of_eq ?_, fun htaken hopen => run_of_eq ?_, fun htaken hended => run_of_eq ?_⟩
    · rw [hcommit, hrefused, if_neg Bool.false_ne_true]
    · rw [hcommit, if_pos htaken, txnSettle_of_open (c := run) rfl hcls hop hopen]
    · rw [hcommit, if_pos htaken, txnSettle_of_ended (c := run) rfl hcls hop hended]
      rfl
  case rollback => exact run_of_eq (onTxn_of_dispatched _ hfind hstage hcls hop)
  case write => exact run_of_eq (onTxn_of_dispatched _ hfind hstage hcls hop)

/-- Settles O49: each row runs on the command that is dispatched, and a WAIT or COMMIT takes the branch of its time or outcome. -/
theorem commandCompletion : Obligations.CommandCompletion := ⟨plainCommands, txnCommands⟩

end Sys2Proof.Machine
end

section
/-!
PROOFS. A PITHEAD command that runs (13 R345–R351, 14 R387): the branches of its row, alone and in the gang, and the obligation
`PitheadVotes`.
-/

namespace Sys2Proof.Machine

/-! ### The row's branches -/

/-- The command as it runs. -/
def asRunning (m : Cmd) : Cmd := { m with stage := .running }

/-- A command that asks for a securing is noted (13 R351). -/
def secureNoted (c : Cmd) (b : Block) : Block :=
  if (byteAt c.desc 0x15).testBit 0 then setPit (fun p => { p with secureAsked := setInsert p.secureAsked c.ctx }) b else b

/-- The command runs, alone or as the gang's. -/
def pitRuns (q n : Nat) (gang : Bool) (c : Cmd) (b : Block) : Block :=
  secureNoted c (if gang then setPit (fun p => { p with running := some (q, n) }) (setCmd c b) else setCmd c b)

/-- What the row then reads of the state is as it was before. -/
theorem pitRuns_keeps (q n : Nat) (gang : Bool) (c : Cmd) (b : Block) : let t := pitRuns q n gang c b
    pitState t = pitState b ∧ t.securing = b.securing ∧ t.pit.lost = b.pit.lost ∧ t.pit.decision = b.pit.decision ∧
      t.pit.voted = b.pit.voted := by
  have hnoted (b : Block) : pitState (secureNoted c b) = pitState b ∧ (secureNoted c b).securing = b.securing ∧
      (secureNoted c b).pit.lost = b.pit.lost ∧ (secureNoted c b).pit.decision = b.pit.decision ∧
      (secureNoted c b).pit.voted = b.pit.voted := by
    rw [secureNoted]
    split <;> exact ⟨rfl, rfl, rfl, rfl, rfl⟩
  cases gang
  · exact hnoted _
  · exact hnoted _

section Row

variable {q n : Nat} {b : Block} {m : Cmd} (hfind : findCmd b q n = some m) (hactive : m.active = true) (hcls : m.cls = 0x07)
  {ready : Bool} (hready : (byteAt m.desc 0x14 == 1 && !b.pit.dirty.contains m.ctx) = ready)

include hfind hactive hcls hready

theorem pitheadRow_eq {gang : Bool} (hgang : (m.ctx == stepCtx b && role b != 0) = gang) : pitheadRow q n b =
    let t := pitRuns q n gang (asRunning m) b
    if gang && pitState t == 6 then finishPit (asRunning m) (if t.pit.lost then 0x43 else 0x42) 0 (ctxEpoch t m.ctx) none false false t
    else if gang && t.pit.decision.isSome then t
    else if ready && t.securing.isSome then t
    else if !gang then localPit (asRunning m) ready ((byteAt m.desc 0x15).testBit 0) t
    else if t.pit.voted.isSome then t
    else sendVote ready ((byteAt m.desc 0x15).testBit 0 || secureDue m.ctx t) (byteAt m.desc 0x14 == 2) t := by
  subst hgang hready
  simp only [pitheadRow, hfind, hactive, hcls, Bool.not_true, bne_self_eq_false, Bool.or_self, Bool.false_eq_true, if_false]
  rfl

section Alone

variable (halone : m.ctx ≠ stepCtx b ∨ role b = 0)
include halone

/-- Outside the gang a command is decided here, or waits for the securing under way. -/
theorem pitheadRow_of_alone : pitheadRow q n b = if ready && b.securing.isSome then pitRuns q n false (asRunning m) b
    else localPit (asRunning m) ready ((byteAt m.desc 0x15).testBit 0) (pitRuns q n false (asRunning m) b) := by
  have hgang : (m.ctx == stepCtx b && role b != 0) = false := by rcases halone with h | h <;> simp [h]
  obtain ⟨-, hsecuring, -⟩ := pitRuns_keeps q n false (asRunning m) b
  rw [pitheadRow_eq hfind hactive hcls hready hgang]
  simp only [Bool.false_and, Bool.false_eq_true, if_false, hsecuring, Bool.not_false, if_true]

end Alone

section Gang

variable (hctx : m.ctx = stepCtx b) (hrole : role b ≠ 0)
include hctx hrole

theorem pitheadRow_of_gang : pitheadRow q n b =
    let t := pitRuns q n true (asRunning m) b
    if pitState b = 6 then finishPit (asRunning m) (if b.pit.lost then 0x43 else 0x42) 0 (ctxEpoch t m.ctx) none false false t
      else if b.pit.decision.isSome then t
      else if ready && b.securing.isSome then t
      else if b.pit.voted.isSome then t
      else sendVote ready ((byteAt m.desc 0x15).testBit 0 || secureDue m.ctx t) (byteAt m.desc 0x14 == 2) t := by
  have hgang : (m.ctx == stepCtx b && role b != 0) = true := by simp [hctx, hrole]
  obtain ⟨hstate, hsecuring, hlost, hdecision, hvoted⟩ := pitRuns_keeps q n true (asRunning m) b
  rw [pitheadRow_eq hfind hactive hcls hready hgang]
  simp only [Bool.true_and, beq_iff_eq, hstate, hsecuring, hlost, hdecision, hvoted, Bool.not_true, Bool.false_eq_true, if_false]

end Gang

end Row

/-! ### The obligation -/

theorem exec_pithead {s : State} (hclear : hostClear s.blk = true) (q : Fin 512) (n : Nat) {b : Block} (h : pitheadRow q n s.blk = b) :
    exec (.pithead q n) s = .next (s.after b) :=
  run_of_eq ((hostGated_active _ _ hclear).trans h)

/-- A vote is not READY, or no securing holds it up. -/
theorem not_held_up {ready : Bool} {w : Option Securing} (h : ready = false ∨ w = none) : ¬ (ready && w.isSome) = true := by
  rcases h with rfl | rfl <;> simp

/-- Settles O38: the row's branches in their order, on the block in which the command runs. -/
theorem pitheadVotes : Obligations.PitheadVotes := by
  intro s q n m hclear hfind hactive hcls ready req c asks alone mine
  refine ⟨fun halone => ?alone, fun hctx hrole => ?gang⟩
  case alone =>
    have hrow := pitheadRow_of_alone hfind hactive hcls (ready := ready) rfl halone
    exact ⟨fun h => exec_pithead hclear q n (hrow.trans (if_neg (not_held_up h))),
      fun hr hw => exec_pithead hclear q n (hrow.trans (if_pos (by rw [hr, hw]; rfl)))⟩
  case gang =>
    have hrow := pitheadRow_of_gang hfind hactive hcls (ready := ready) rfl hctx hrole
    refine ⟨fun h6 => exec_pithead hclear q n (hrow.trans (if_pos h6)),
      fun h6 hd => exec_pithead hclear q n (hrow.trans ((if_neg h6).trans (if_pos hd))), fun h6 hd => ?_⟩
    have hopen := hrow.trans ((if_neg h6).trans (if_neg (by simp [hd])))
    refine ⟨fun hr hw => exec_pithead hclear q n (hopen.trans (if_pos (by rw [hr, hw]; rfl))),
      fun h hv => exec_pithead hclear q n (hopen.trans ((if_neg (not_held_up h)).trans (if_neg (by simp [hv])))),
      fun hv => exec_pithead hclear q n (hopen.trans ?_)⟩
    rw [if_pos (Option.isSome_iff_ne_none.2 hv), ite_self]
    rfl

end Sys2Proof.Machine
end

section
/-!
PROOFS. Votes at the master and its decision (13 R352, R355): what a vote does, the end of the barrier, the declaration of members and
what is decided, and the obligation `VotesDecide`.
-/

namespace Sys2Proof.Machine

/-! ### What the master decides (13 R352) -/

section Decides

variable {b : Block}

theorem tryDecide_of_held (h : quorum b = false ∨ dispatcherRuns b = false) : tryDecide b = b :=
  if_pos (by rcases h with h | h <;> simp [h])

variable (hrole : role b = 3) (hquorum : quorum b = true) (hcollects : collecting b = true) (hruns : dispatcherRuns b = true)
include hrole hquorum hcollects hruns

theorem tryDecide_eq : tryDecide b =
    let vs := b.gang.votes.filter (fun v => v.epoch == stepEpoch b)
    match b.gang.failedNow, vs.find? (fun v => !v.ready) with
    | (d, c) :: _, _ => decideStep false c d false b
    | [], some v => decideStep false 1 v.dev v.host b
    | [], none => match b.gang.cur with
      | none => b
      | some t => if (tblActive t).all (fun d => vs.any (fun v => v.dev == d)) then decideStep true 0 0xFFFF false b else b := by
  have hfree : ¬ (role b ≠ 3 ∨ (!quorum b) = true ∨ (!collecting b) = true ∨ (!dispatcherRuns b) = true) := by
    simp [hrole, hquorum, hcollects, hruns]
  exact if_neg hfree

end Decides

/-! ### The declaration of members (11 R305) -/

section Declare

variable {b : Block} {t : Tables} {ds : List Nat} (cause why : Nat) (hcur : b.gang.cur = some t) (hactive : ∀ d ∈ ds, d ∈ tblActive t)
  (hsome : ds ≠ [])
include hcur hactive hsome

theorem declareMembers_of_active : declareMembers ds cause why b =
    if !quorum b then quorumLost (heardCount b) b else tryDecide (ds.foldl (fun b d => declareMember d cause why b) b) := by
  unfold declareMembers
  simp only [hcur]
  rw [List.filter_eq_self.2 fun d hd => List.contains_iff_mem.2 (hactive d hd)]
  exact if_neg (by simpa using hsome)

end Declare

/-! ### A vote (13 R355) -/

section Vote

variable {v : Vote} {b : Block} {t : Tables} (hrole : role b = 3) (hcur : b.gang.cur = some t)
  (hactive : (tblActive t).contains v.dev = true)
  (hfirst : b.gang.votes.any (fun x => x.dev == v.dev && x.epoch == v.epoch) = false)
include hrole hcur hactive hfirst

theorem countVote_of_member : countVote v b =
    if !collecting b then
      if v.epoch = (stepEpoch b + 1) % 2 ^ 32 then setGang (fun g => { g with votes := g.votes ++ [v] }) b else b
    else if v.epoch = stepEpoch b then
      let b := setGang (fun g => { g with votes := g.votes ++ [v] }) b
      tryDecide (setMState 1 (put fGG_PIT_VOTES ((b.gang.votes.filter (fun x => x.epoch == stepEpoch b)).length) b))
    else declareFailed v.dev 3 4 b := by
  simp only [countVote, hrole, hcur, hactive, hfirst, ne_eq, not_true_eq_false, Bool.not_true, Bool.false_eq_true, or_self, if_false]
  rfl

end Vote

theorem voteIn_of_bad {a : Nat} {m : Msg} {b : Block} (hcls : m.cls = 5) (hkind : byteAt m.payload 0 = 0x10)
    (hok : pitOk m (fun v => v == 1 || v == 2) false false = false) : voteIn a m b = bump (fAD_RETRY_PROTO a) 1 (takeMsg m b) := by
  simp only [voteIn, pitMsg, hcls, hkind, hok, ne_eq, not_true_eq_false, or_self, Bool.not_false, if_false, if_true]
  rfl

/-- A vote that keeps its layout, of this generation, is counted. -/
theorem voteIn_of_own {a : Nat} {m : Msg} {b : Block} (hcls : m.cls = 5) (hkind : byteAt m.payload 0 = 0x10)
    (hok : pitOk m (fun v => v == 1 || v == 2) false false = true) (hrole : role b = 3) (hgen : m.mgen = gen b) :
    let p := m.payload
    voteIn a m b = countVote ⟨fieldAt p 8 2, byteAt p 1 == 1, (byteAt p 2).testBit 0, (byteAt p 2).testBit 2, fieldAt p 4 4⟩
      (hears m.src (takeMsg m b)) := by
  intro p
  have hmember : role b ≠ 0 := by rw [hrole]; decide
  simp only [voteIn, pitMsg, hcls, hkind, hok, ne_eq, not_true_eq_false, or_self, Bool.not_true, Bool.false_eq_true, if_false]
  exact gated_of_own hmember hgen _

/-! ### The end of the barrier (13 R352) -/

section Timeout

variable {b : Block} {t : Tables} (hrole : role b = 3) (hcollects : collecting b = true)
  (hvotes : b.gang.votes.any (fun v => v.epoch == stepEpoch b) = true) (hcur : b.gang.cur = some t)
include hrole hcollects hvotes hcur

theorem voteTimeout_of_collecting : voteTimeout b =
    let voted := fun (d : Nat) => b.gang.votes.any (fun v => v.dev == d && v.epoch == stepEpoch b)
    let missing := (tblActive t).filter (fun d => d != devId b && !voted d)
    if missing.isEmpty then
      if voted (devId b) = true ∨ (!quorum b) = true ∨ (!dispatcherRuns b) = true then b else decideStep false 2 (devId b) false b
    else declareMembers missing 1 2 b := by
  simp only [voteTimeout, hrole, hcollects, hvotes, hcur, ne_eq, not_true_eq_false, Bool.not_true, Bool.false_eq_true, or_self, if_false]

end Timeout

/-! ### The obligation -/

/-- Settles O39: a vote is counted on the block that has heard its sender, and the timeout, the declaration and the decision by the branches
of their conditions. -/
theorem votesDecide : Obligations.VotesDecide := by
  intro s a m hrole hcls hkind p v ok b
  refine ⟨fun hbad => run_of_eq (voteIn_of_bad hcls hkind hbad), fun t hok hgen hcur hactive hfirst => ?vote,
    fun t hcollects hvotes hcur => ?timeout, fun t ds cause why hcur hsome hactive => ?declare, fun hquorum hcollects hruns => ?decide,
    tryDecide_of_held⟩
  case vote =>
    have hvote : voteIn a m s.blk = countVote v b := voteIn_of_own hcls hkind hok hrole hgen
    have hcount := hvote.trans (countVote_of_member (v := v) (b := b) hrole hcur hactive hfirst)
    have hcollect : collecting b = collecting s.blk := rfl
    refine ⟨fun hc he => run_of_eq (hcount.trans ?_), fun hc he => run_of_eq (hcount.trans ?_), fun hc he => run_of_eq (hcount.trans ?_)⟩
    · have hc' : ¬ (!collecting b) = true := by simp [hcollect, hc]
      exact (if_neg hc').trans (if_pos he)
    · have hc' : (!collecting b) = true := by simp [hcollect, hc]
      exact (if_pos hc').trans (if_pos he)
    · have hc' : ¬ (!collecting b) = true := by simp [hcollect, hc]
      exact (if_neg hc').trans (if_neg he)
  case timeout =>
    have hrow := voteTimeout_of_collecting hrole hcollects hvotes hcur
    refine ⟨fun hmissing => run_of_eq (hrow.trans (if_neg ?_)), fun hnone hmine hquorum hruns => run_of_eq (hrow.trans ?_)⟩
    · simpa using hmissing
    · rw [if_pos (List.isEmpty_iff.2 hnone)]
      exact if_neg (by simp [hmine, hquorum, hruns])
  case declare =>
    have hrow := declareMembers_of_active cause why hcur hactive hsome
    exact ⟨fun hq => hrow.trans (if_pos (by simp [hq])), fun hq => hrow.trans (if_neg (by simp [hq]))⟩
  case decide =>
    have hrow := tryDecide_eq hrole hquorum hcollects hruns
    refine ⟨fun d why rest hf => hrow.trans (by simp only [hf]), fun v hf hv => hrow.trans (by simp only [hf, hv]), fun t hf hv hcur => ?_⟩
    simp only [hf, hv, hcur] at hrow
    exact ⟨fun hall => hrow.trans (if_pos hall), fun hall => hrow.trans (if_neg (by simp only [hall, Bool.false_eq_true, not_false_eq_true]))⟩

end Sys2Proof.Machine
end

section
/-!
PROOFS. The start of a collective (12 R313–R316): the branches of its row, the shards of its bucket (12 R314), and the obligation
`CollectivesStart`.
-/

namespace Sys2Proof.Machine

/-! ### The branches of the row (12 R313–R316, 15 R435) -/

section Start

variable {q n : Nat} {m : Cmd} {b : Block} {kind : Nat} (hfind : findCmd b q n = some m) (hstage : m.stage = .dispatched)
  (hcls : m.cls = 0x06) (hkind : byteAt m.desc 0x3C % 8 = kind)
include hfind hstage hcls hkind

/-- The position of this device is found before the command is noted as running. -/
theorem collRun_eq : collRun kind q n b =
    let run := setCmd { m with stage := .running } b
    let bid := fieldAt m.desc 0x34 2
    let gen := fieldAt m.desc 0x36 2
    if !newer16 gen (mapGet 0 b.lastGen bid) then finishCmd q n 0x38 bid run
    else match groupOf b (fieldAt m.desc 0x38 2) with
    | none => finishCmd q n 0x10 0x38 run
    | some g => match posOf g.drift (devId b) with
      | none => finishCmd q n 0x10 0x38 run
      | some p => match collCheck (collNew b m g p) with
        | some o => finishCmd q n 0x10 o run
        | none => collStart (collNew b m g p) { run with lastGen := mapSet 0 b.lastGen bid gen } := by
  simp only [collRun, hfind, hstage, hcls, hkind, bne_self_eq_false, Bool.or_self, Bool.false_eq_true, if_false]
  rfl

/-- What `Claims.CollectiveDispatch` says of a command of each KIND, for the row. -/
theorem collRun_starts : let bid := fieldAt m.desc 0x34 2
    let g := fieldAt m.desc 0x36 2
    let run := setCmd { m with stage := .running } b
    (newer16 g (mapGet 0 b.lastGen bid) = false → collRun kind q n b = finishCmd q n 0x38 bid run) ∧
    (newer16 g (mapGet 0 b.lastGen bid) = true →
      (groupOf b (fieldAt m.desc 0x38 2) = none → collRun kind q n b = finishCmd q n 0x10 0x38 run) ∧
      (∀ grp, groupOf b (fieldAt m.desc 0x38 2) = some grp →
        (posOf grp.drift (devId b) = none → collRun kind q n b = finishCmd q n 0x10 0x38 run) ∧
        (∀ p, posOf grp.drift (devId b) = some p →
          (∀ o, collCheck (collNew b m grp p) = some o → collRun kind q n b = finishCmd q n 0x10 o run) ∧
          (collCheck (collNew b m grp p) = none →
            collRun kind q n b = collStart (collNew b m grp p) { run with lastGen := mapSet 0 b.lastGen bid g })))) := by
  intro bid g run
  have hrow := collRun_eq hfind hstage hcls hkind
  refine ⟨fun hold => hrow.trans (if_pos (by simp [hold, g, bid])), fun hnew => ?_⟩
  replace hrow := hrow.trans (if_neg (by simp [hnew, g, bid]))
  refine ⟨fun hgroup => hrow.trans (by simp only [hgroup]; rfl), fun grp hgroup => ?_⟩
  simp only [hgroup] at hrow
  refine ⟨fun hpos => hrow.trans (by simp only [hpos]; rfl), fun p hpos => ?_⟩
  simp only [hpos] at hrow
  exact ⟨fun o ho => hrow.trans (by simp only [ho]; rfl), fun ho => hrow.trans (by simp only [ho]; rfl)⟩

end Start

theorem collectiveDispatch : Claims.CollectiveDispatch := by
  intro s q n m hclear hfind _ _ hstage hcls kind starts
  have hstarts {i : Instr} {k : Nat} (hexec : exec i s = s.run (hostGated (collRun k q n))) (hkind : kind = k) : starts (exec i s) := by
    have hran {b : Block} (h : collRun k q n s.blk = b) : exec i s = .next (s.after b) :=
      hexec.trans (run_of_eq ((hostGated_active _ _ hclear).trans h))
    obtain ⟨hold, hnew⟩ := collRun_starts (kind := k) hfind hstage hcls hkind
    refine ⟨fun h => hran (hold h), fun h => ?_⟩
    obtain ⟨hnone, hsome⟩ := hnew h
    refine ⟨fun h => hran (hnone h), fun grp h => ?_⟩
    obtain ⟨hout, hmember⟩ := hsome grp h
    exact ⟨fun h => hran (hout h), fun p h => ⟨fun o ho => hran ((hmember p h).1 o ho), fun ho => hran ((hmember p h).2 ho)⟩⟩
  exact ⟨hstarts rfl, hstarts rfl, hstarts rfl, hstarts rfl⟩

/-! ### Shards (12 R314) -/

/-- The shards of all positions hold the bucket. -/
theorem le_mul_shardSize (e : Nat) {n : Nat} (hn : 0 < n) : e ≤ n * shardSize e n := by
  have h := Nat.div_add_mod (e + 32 * n - 1) (32 * n)
  have hlt := Nat.mod_lt (e + 32 * n - 1) (show 0 < 32 * n by omega)
  have hsize : n * shardSize e n = 32 * n * ((e + 32 * n - 1) / (32 * n)) := by rw [shardSize, ceilDiv]; ring
  omega

theorem shardsCover : Claims.ShardsCover := by
  intro c hn
  have hcover := le_mul_shardSize c.elems hn
  have hstep (j : Nat) : (j + 1) * shardSize c.elems c.n = j * shardSize c.elems c.n + shardSize c.elems c.n := Nat.succ_mul ..
  refine ⟨by simp [Coll.shardSpan], fun j => ?next, fun j hj => ?whole, ?last, fun j hj => ?beyond, Nat.mul_mod_right ..⟩
  case next =>
    have := hstep j
    simp only [Coll.shardSpan]
    omega
  case whole =>
    have := hstep j
    simp only [Coll.shardSpan]
    omega
  case last =>
    have : c.n - 1 + 1 = c.n := by omega
    have := hstep (c.n - 1)
    simp only [Coll.shardSpan, Nat.sub_add_cancel hn] at *
    omega
  case beyond =>
    have := hstep j
    have : c.n * shardSize c.elems c.n ≤ j * shardSize c.elems c.n := Nat.mul_le_mul_right _ hj
    simp only [Coll.shardSpan]
    omega

/-- Settles O35: the row's branches in their order, for each KIND, and the spans of the shards. -/
theorem collectivesStart : Obligations.CollectivesStart := ⟨collectiveDispatch, shardsCover⟩

end Sys2Proof.Machine
end

section
/-!
PROOFS. A securing under way (14 R386, R388, R401): its stream, its complete record and its failures, and the obligation `Securings`.
-/

namespace Sys2Proof.Machine

/-! ### The stream (14 R386) -/

/-- What the securing reads of a section (14 R386). -/
def sectionRead (b : Block) (w : Securing) (x : Section) : Except Xlat VRead :=
  if 3 ≤ x.typ then .ok ⟨x.data, []⟩ else vRead b w.ctx x.va x.bytes

/-- The securing once a section is hashed. -/
def sectionHashed (delays : Bool) (x : Section) (bytes : List Byte) (w : Securing) : Securing :=
  { w with
    sections := w.sections.set w.next { x with digest := sectionDigest x.typ x.id x.blk w.epoch bytes }
    next := w.next + 1
    yielded := w.yielded || delays }

/-- The targets have the section. -/
def sectionSent (delays : Bool) (x : Section) (bytes : List Byte) (w : Securing) (b : Block) : Block :=
  let b := { b with securing := some (sectionHashed delays x bytes w) }
  let b := if delays = true ∧ w.yielded = false then yieldGuarantee 7 5 3 0x12 b else b
  let b := match w.holder with
    | some h => if w.peer then sendGang h (.keepWrite w.peerSlot (sectionOffset w.sections w.next) bytes) b else b
    | none => b
  hostWrite (sectionOffset w.sections w.next) bytes (sectionHashed delays x bytes w) b

/-- The keep holder gets the table of the sections (14 R383). -/
def tableSent (h : Nat) (w : Securing) (b : Block) : Block :=
  let table := recordHeader b w true ++ sectionTable w.sections
  sendGang h (if w.peer then .keepTable w.peerSlot table else .ledgerTable w.hostSlot table) b

/-- The table goes to a keep holder where the attempt goes on. -/
def tableDue (w : Securing) (b : Block) : Block :=
  match b.securing, w.holder with
  | some y, some h => tableSent h y b
  | _, _ => b

theorem tableDue_of_none {w : Securing} {b : Block} (h : b.securing = none ∨ w.holder = none) : tableDue w b = b := by
  rcases h with h | h
  · simp only [tableDue, h]
  · cases hb : b.securing <;> simp only [tableDue, h, hb]

theorem tableDue_of_some {w y : Securing} {h : Nat} {b : Block} (hy : b.securing = some y) (hh : w.holder = some h) :
    tableDue w b = tableSent h y b := by
  simp only [tableDue, hy, hh]

section Stream

variable {b : Block} {w : Securing} {x : Section} (hw : b.securing = some w) (hx : w.sections[w.next]? = some x) (delays : Bool)
include hw hx

theorem secureStream_of_error {e : Xlat} (hread : sectionRead b w x = .error e) :
    secureStream delays b = secureFail 4 w.target w.epoch b := by
  rw [sectionRead] at hread
  split at hread
  case isTrue => cases hread
  case isFalse hold => simp only [secureStream, hw, hx, hold, if_false, hread]

theorem secureStream_of_read {v : VRead} (hread : sectionRead b w x = .ok v) : secureStream delays b =
    if v.bad then secureFail 3 w.target w.epoch b
    else
      let b := sectionSent delays x v.bytes w b
      if w.next + 1 ≠ w.sections.length then b else tableDue w b := by
  have hlength : (w.sections.set w.next { x with digest := sectionDigest x.typ x.id x.blk w.epoch v.bytes }).length = w.sections.length :=
    List.length_set
  rw [sectionRead] at hread
  split at hread
  case isTrue hold =>
    cases hread
    simp only [secureStream, hw, hx, hold, if_true, hlength, Bool.and_eq_true, Bool.not_eq_true']
    rfl
  case isFalse hold =>
    simp only [secureStream, hw, hx, hold, if_false, hread, hlength, Bool.and_eq_true, Bool.not_eq_true']
    rfl

end Stream

/-! ### The complete record (14 R388) -/

/-- The registers of a record that is complete. -/
def recordPage (w : Securing) (b : Block) : Block :=
  put fGG_SECURE_SEQ_SEQ w.seq (put fGG_SECURE_EPOCH_EPOCH w.epoch
    (put fGG_SECURE_STAT_STATE 0 (put fGG_SECURE_STAT_SINCE 0 (put fGG_CANARY_REQUEST 0 b))))

/-- A record is complete. -/
def recordDone (peerAck : Bool) (w : Securing) (b : Block) : Block :=
  raise 7 32 (post 0x0403 7 (w.seq + w.epoch * 2 ^ 32) { recordPage w b with
    securing := none
    secFailed := false
    peerLate := if w.peer && !peerAck then some (w.epoch, w.peerSlot) else none
    peerSlot := if w.peer && peerAck then 1 - w.peerSlot else b.peerSlot })

theorem secureComplete_eq {peerAck ledgerAck : Bool} {b b1 b2 : Block} {w w1 w2 : Securing} (hw : b.securing = some w)
    (hsent : w.next = w.sections.length) (hledger : w.holder = none ∨ ledgerAck = true)
    (hb1 : hostWrite 0x100 (sectionTable w.sections) w b = b1) (hw1 : b1.securing = some w1)
    (hb2 : hostWrite 0 (recordHeader b1 w1 true) w1 b1 = b2) (hw2 : b2.securing = some w2)
    (hkept : w2.host = true ∨ (w2.peer = true ∧ peerAck = true)) :
    secureComplete peerAck ledgerAck b = recordDone peerAck w2 b2 := by
  have hgo : ¬ (w.next ≠ w.sections.length ∨ (w.holder.isSome = true ∧ (!ledgerAck) = true)) := by
    rcases hledger with h | h <;> simp [hsent, h]
  have hstay : ¬ (!(w2.host || (w2.peer && peerAck))) = true := by
    rcases hkept with h | ⟨hp, ha⟩
    · simp [h]
    · simp [hp, ha]
  simp only [secureComplete, hw, hb1, hw1, hb2, hw2]
  exact (if_neg hgo).trans (if_neg hstay)

theorem raise_securing (p m : Nat) (b : Block) : (raise p m b).securing = b.securing := by
  simp only [raise]
  split <;> rfl

theorem raise_secFailed (p m : Nat) (b : Block) : (raise p m b).secFailed = b.secFailed := by
  simp only [raise]
  split <;> rfl

theorem raised_recordDone (peerAck : Bool) (w : Securing) (b : Block) :
    bit (rd (recordDone peerAck w b) (rBLK_EVT_RAW (pageBase 7))) 5 = true := by
  rw [recordDone, rd_raise_self]
  simp [bit]

theorem get_recordDone (peerAck : Bool) (w : Securing) (b : Block) {f : Fld} (hf : f.off ≠ rBLK_EVT_RAW (pageBase 7)) :
    get (recordDone peerAck w b) f = get (recordPage w b) f :=
  get_raise_ne 7 _ hf 32

theorem state_recordPage (w : Securing) (b : Block) : get (recordPage w b) fGG_SECURE_STAT_STATE = 0 := by
  rw [recordPage, get_put_off_ne _ _ (by decide), get_put_off_ne _ _ (by decide), get_put_self _ _ _ (by decide), Nat.zero_mod]

theorem since_recordPage (w : Securing) (b : Block) : get (recordPage w b) fGG_SECURE_STAT_SINCE = 0 := by
  rw [recordPage, get_put_off_ne _ _ (by decide), get_put_off_ne _ _ (by decide), get_put_ne _ _ (by decide) (by decide),
    get_put_self _ _ _ (by decide), Nat.zero_mod]

theorem request_recordPage (w : Securing) (b : Block) : get (recordPage w b) fGG_CANARY_REQUEST = 0 := by
  rw [recordPage, get_put_off_ne _ _ (by decide), get_put_off_ne _ _ (by decide), get_put_off_ne _ _ (by decide),
    get_put_off_ne _ _ (by decide), get_put_self _ _ _ (by decide), Nat.zero_mod]

theorem seq_recordPage (w : Securing) (b : Block) : get (recordPage w b) fGG_SECURE_SEQ_SEQ = w.seq % 2 ^ 32 :=
  get_put_self _ _ _ (by decide)

theorem epoch_recordPage (w : Securing) (b : Block) : get (recordPage w b) fGG_SECURE_EPOCH_EPOCH = w.epoch % 2 ^ 32 :=
  (get_put_off_ne _ _ (by decide)).trans (get_put_self _ _ _ (by decide))

/-! ### Failures (14 R401) -/

section Failure

variable {cause target : Nat} {refused : Bool} {b : Block} {w : Securing} (hw : b.securing = some w) (h1 : 1 ≤ cause) (h6 : cause ≤ 6)
include hw h1 h6

/-- The row's branches, a slot that the keep holder refuses given up first. -/
theorem secureFailure_of_securing : secureFailure cause target refused b =
    let b := if refused && w.peer && target != 1 then { b with peerSlot := 1 - w.peerSlot } else b
    if target = 1 then if w.host then targetFail cause true w b else b
    else if target = 2 then if w.peer then targetFail cause false w b else b
    else secureFail cause w.target w.epoch b := by
  simp only [secureFailure, hw]
  exact if_neg (by omega)

end Failure

/-! ### The obligation -/

/-- Settles O41: the stream by what the read of the section gives, the complete record by its registers, the failures by their target. -/
theorem securings : Obligations.Securings := by
  intro s w hclear hw
  have hran {i : Instr} {f : Block → Block} {b : Block} (hexec : exec i s = s.run (hostGated f)) (h : f s.blk = b) :
      exec i s = .next (s.after b) :=
    hexec.trans (run_of_eq ((hostGated_active _ _ hclear).trans h))
  refine ⟨fun x delays hx => ?stream, fun peerAck ledgerAck hsent hledger => ?complete,
    fun cause target refused h1 h6 => ?failure⟩
  case stream =>
    refine ⟨fun e hr => hran rfl (secureStream_of_error hw hx delays hr), fun v hr hbad => ?_, fun v hr hbad => ?_⟩
    · exact hran rfl ((secureStream_of_read hw hx delays hr).trans (if_pos hbad))
    · intro w' off b0 b1 b2 b3
      have hrow := (secureStream_of_read hw hx delays hr).trans (if_neg (by simp [hbad]))
      refine ⟨fun hmore => hran rfl (hrow.trans (if_pos hmore.ne)),
        fun hlast hnone => hran rfl (hrow.trans ((if_neg (not_not.2 hlast)).trans (tableDue_of_none hnone))),
        fun y h hlast hy hh => hran rfl (hrow.trans ((if_neg (not_not.2 hlast)).trans (tableDue_of_some hy hh)))⟩
  case complete =>
    intro b1 w1 hw1 b2 w2 hw2 hkept
    refine ⟨recordDone peerAck w2 b2, hran rfl (secureComplete_eq hw hsent hledger rfl hw1 rfl hw2 hkept), ?_⟩
    have hget {f : Fld} (hf : f.off ≠ rBLK_EVT_RAW (pageBase 7)) : get (recordDone peerAck w2 b2) f = get (recordPage w2 b2) f :=
      get_recordDone peerAck w2 b2 hf
    exact ⟨raise_securing .., raise_secFailed .., (hget (by decide)).trans (state_recordPage w2 b2),
      (hget (by decide)).trans (since_recordPage w2 b2), (hget (by decide)).trans (request_recordPage w2 b2),
      (hget (by decide)).trans (seq_recordPage w2 b2), (hget (by decide)).trans (epoch_recordPage w2 b2), raise_mem .., raised_recordDone ..⟩
  case failure =>
    have hrow := secureFailure_of_securing (target := target) (refused := refused) hw h1 h6
    refine ⟨fun ht hhost => run_of_eq (hrow.trans ?_), fun ht hpeer => run_of_eq (hrow.trans ?_), fun ht => run_of_eq (hrow.trans ?_)⟩
    · subst ht
      simp [hhost]
    · subst ht
      simp [hpeer]
    · subst ht
      simp

end Sys2Proof.Machine
end

section
/-!
PROOFS. Keep holders (14 R383), SECURE, the canary and digest requests (15 R428, 14 R379, R395), and the obligation `SecuringService`.
-/

namespace Sys2Proof.Machine

/-! ### A keep holder (14 R383) -/

theorem ledgerFits_congr {b b' : Block} (hregs : b'.regs = b.regs) (hledger : b'.ledger = b.ledger) (slot n : Nat) :
    ledgerFits b' slot n = ledgerFits b slot n := by
  have hget (f : Fld) : get b' f = get b f := by rw [get, rd, hregs, ← rd, ← get]
  have hspace : secureSpace b' = secureSpace b := by
    simp only [secureSpace, isSet, hget]
    rfl
  rw [ledgerFits, ledgerSpace, hspace, hledger, ← ledgerSpace, ← ledgerFits]

theorem memWrite_regs (pa : Nat) (bs : List Byte) (b : Block) : (memWrite pa bs b).regs = b.regs :=
  memWriteP_keeps Block.regs (fun _ _ => rfl) (fun _ _ _ => rfl) (fun _ _ _ => rfl) pa bs _ b

theorem memWrite_ledger (pa : Nat) (bs : List Byte) (b : Block) : (memWrite pa bs b).ledger = b.ledger :=
  memWriteP_keeps Block.ledger (fun _ _ => rfl) (fun _ _ _ => rfl) (fun _ _ _ => rfl) pa bs _ b

/-- The slot of the newest complete record. -/
def newestKept (b : Block) : Option Nat :=
  newestSlot (memBytes b (keepSlot b 0).1 256) (memBytes b (keepSlot b 1).1 256)

section Keep

variable {src : Nat} {slot : Fin 2} {off : Nat} {part : KeepPart} {data : List Byte} {b : Block}

/-- The table of a record kept elsewhere (14 R383). -/
theorem keepReceive_ledger : keepReceive src slot off .ledger data b = ledgerTake src slot data b := by
  simp only [keepReceive, Nat.not_le.2 slot.isLt, if_false, if_true]

/-- The refusals of a piece or a table, in their order. -/
theorem keepReceive_eq (hpart : part ≠ .ledger) : keepReceive src slot off part data b =
    let p := keepSlot b slot
    let writer := mapGet 0 b.keepWriter slot
    if writer ≠ 0 ∧ writer ≠ src + 1 then sendGang src (.keepRefuse slot 1) b
    else if writer = 0 ∧ newestKept b = some slot.val then sendGang src (.keepRefuse slot 1) b
    else if !targetReachable b p.1 ∨ rangeOf p.1 ≠ .hbm then sendGang src (.keepRefuse slot 1) b
    else if p.2 < off + data.length then sendGang src (.keepRefuse slot 2) b
    else if part = .table then
      if !ledgerFits b slot data.length then sendGang src (.keepRefuse slot 5) b
      else
        let b := memWrite p.1 (data.take 256) (memWrite (p.1 + 0x100) (data.drop 256) b)
        ledgerTake src slot data { b with keepWriter := mapErase b.keepWriter slot }
    else
      let b := if writer = 0 then memWrite p.1 (List.replicate 256 0#8) b else b
      memWrite (p.1 + off) data { b with keepWriter := mapSet 0 b.keepWriter slot (src + 1) } := by
  simp only [keepReceive, Nat.not_le.2 slot.isLt, hpart, if_false]
  rfl

/-- The slot may be HBM that the keep holder reaches. -/
def keptThere (b : Block) (slot : Nat) : Bool := targetReachable b (keepSlot b slot).1 && decide (rangeOf (keepSlot b slot).1 = .hbm)

/-- The slot is the sender's, or free and not that of the newest complete record. -/
def keptFor (src : Nat) (b : Block) (slot : Nat) : Prop :=
  mapGet 0 b.keepWriter slot = src + 1 ∨ (mapGet 0 b.keepWriter slot = 0 ∧ newestKept b ≠ some slot)

theorem keepReceive_of_target (hpart : part ≠ .ledger) (h : (mapGet 0 b.keepWriter slot ≠ 0 ∧ mapGet 0 b.keepWriter slot ≠ src + 1) ∨
    (mapGet 0 b.keepWriter slot = 0 ∧ newestKept b = some slot.val) ∨ keptThere b slot = false) :
    keepReceive src slot off part data b = sendGang src (.keepRefuse slot 1) b := by
  rw [keepReceive_eq hpart]
  by_cases hother : mapGet 0 b.keepWriter slot ≠ 0 ∧ mapGet 0 b.keepWriter slot ≠ src + 1
  · exact if_pos hother
  by_cases hnewest : mapGet 0 b.keepWriter slot = 0 ∧ newestKept b = some slot.val
  · exact (if_neg hother).trans (if_pos hnewest)
  have haway : keptThere b slot = false := by tauto
  have haway' : (!targetReachable b (keepSlot b slot).1) = true ∨ rangeOf (keepSlot b slot).1 ≠ .hbm := by
    simpa [keptThere, or_iff_not_imp_left] using haway
  exact (if_neg hother).trans ((if_neg hnewest).trans (if_pos haway'))

theorem keepReceive_of_mine (hpart : part ≠ .ledger) (hmine : keptFor src b slot) (hthere : keptThere b slot = true) :
    keepReceive src slot off part data b =
      let p := keepSlot b slot
      if p.2 < off + data.length then sendGang src (.keepRefuse slot 2) b
      else if part = .table then
        if !ledgerFits b slot data.length then sendGang src (.keepRefuse slot 5) b
        else
          let b := memWrite p.1 (data.take 256) (memWrite (p.1 + 0x100) (data.drop 256) b)
          ledgerTake src slot data { b with keepWriter := mapErase b.keepWriter slot }
      else
        let b := if mapGet 0 b.keepWriter slot = 0 then memWrite p.1 (List.replicate 256 0#8) b else b
        memWrite (p.1 + off) data { b with keepWriter := mapSet 0 b.keepWriter slot (src + 1) } := by
  have hother : ¬ (mapGet 0 b.keepWriter slot ≠ 0 ∧ mapGet 0 b.keepWriter slot ≠ src + 1) := by
    rcases hmine with h | ⟨h, -⟩ <;> simp [h]
  have hnewest : ¬ (mapGet 0 b.keepWriter slot = 0 ∧ newestKept b = some slot.val) := by
    rcases hmine with h | ⟨-, h⟩ <;> simp [h]
  have haway : ¬ ((!targetReachable b (keepSlot b slot).1) = true ∨ rangeOf (keepSlot b slot).1 ≠ .hbm) := by
    simpa [keptThere] using hthere
  rw [keepReceive_eq hpart]
  exact (if_neg hother).trans ((if_neg hnewest).trans (if_neg haway))

/-- The ledger has room for the table as before the record's header is written. -/
theorem ledgerTake_kept (pa pa' : Nat) (bs bs' : List Byte) (w : List (Nat × Nat)) (h : ledgerFits b slot data.length = true) :
    let b' := memWrite pa bs (memWrite pa' bs' b)
    ledgerTake src slot data { b' with keepWriter := w } =
      sendGang src (.keepAck slot) { b' with keepWriter := w, ledger := mapSet [] b'.ledger slot data } := by
  intro b'
  have hfits : ledgerFits { b' with keepWriter := w } slot data.length = true :=
    (ledgerFits_congr (b := b) ((memWrite_regs ..).trans (memWrite_regs ..)) ((memWrite_ledger ..).trans (memWrite_ledger ..)) ..).trans h
  exact if_pos hfits

end Keep

theorem keepHolderPieces : Claims.KeepHolder := by
  intro s src off slot data p writer newest there mine refused
  have hpiece : KeepPart.piece ≠ .ledger := by decide
  have htable : KeepPart.table ≠ .ledger := by decide
  refine ⟨fun h => ⟨run_of_eq (keepReceive_of_target hpiece h), run_of_eq (keepReceive_of_target htable h)⟩,
    fun hmine hthere hsize => ?size, fun hthere hroom => ?room, fun hfull => ?full, fun hfits => ?fits⟩
  case size =>
    exact ⟨run_of_eq ((keepReceive_of_mine hpiece hmine hthere).trans (if_pos hsize)),
      run_of_eq ((keepReceive_of_mine htable hmine hthere).trans (if_pos hsize))⟩
  case room =>
    have hpieces (hmine : mine) := (keepReceive_of_mine (off := off) (data := data) hpiece hmine hthere).trans
      ((if_neg hroom.not_gt).trans (if_neg (by decide)))
    have htables (hmine : mine) := (keepReceive_of_mine (off := off) (data := data) htable hmine hthere).trans
      ((if_neg hroom.not_gt).trans (if_pos rfl))
    refine ⟨fun hw => run_of_eq ((hpieces (.inl hw)).trans ?_), fun hw hn => run_of_eq ((hpieces (.inr ⟨hw, hn⟩)).trans ?_),
      fun hmine hfull => run_of_eq ((htables hmine).trans (if_pos (by simp [hfull]))),
      fun hmine hfits => run_of_eq ((htables hmine).trans ((if_neg (by simp [hfits])).trans ?_))⟩
    · rw [if_neg (show mapGet 0 s.blk.keepWriter slot ≠ 0 by rw [show mapGet 0 s.blk.keepWriter slot = src + 1 from hw]; omega)]
    · rw [if_pos (show mapGet 0 s.blk.keepWriter slot = 0 from hw)]
    · exact ledgerTake_kept _ _ _ _ _ hfits
  case full => exact run_of_eq (keepReceive_ledger.trans (if_neg (by simp [hfull])))
  case fits => exact run_of_eq (keepReceive_ledger.trans (if_pos hfits))

/-! ### SECURE (15 R428) -/

theorem secureRow_of_active {q n : Nat} {b : Block} {m : Cmd} (hfind : findCmd b q n = some m) (hactive : m.active = true)
    (hcls : m.cls = 0x08) : secureRow q n b =
    let run := setCmd { m with stage := .running } b
    if get b fGG_SECURE_STAT_STATE ≠ 0 then run
    else if b.secFailed then finishCmd q n 0x1A (get b fGG_SECURE_STAT_CAUSE) run
    else finishCmd q n 0 0 run := by
  simp only [secureRow, hfind, hactive, hcls, Bool.not_true, bne_self_eq_false, Bool.or_self, Bool.false_eq_true, if_false]
  rfl

/-! ### The canary (14 R379) -/

theorem canaryScore_le (b : Block) : canaryScore b ≤ 255 := by
  rw [canaryScore]
  split
  · rfl
  · exact Nat.min_le_left ..

theorem canaryScore_of_replace {b : Block} (h : get b fGG_CANARY_REPLACE ≠ 0) : canaryScore b = 255 := if_pos h

/-- The points and the score in their registers. -/
def canaryShown (b : Block) : Block :=
  put fGG_CANARY_SCORE (canaryScore b)
    (wr (wr b rGG_CANARY_IN0 (fourBytes ((canaryPoints b).take 4))) rGG_CANARY_IN1 (fourBytes ((canaryPoints b).drop 4)))

theorem score_canaryShown (b : Block) : get (canaryShown b) fGG_CANARY_SCORE = canaryScore b :=
  (get_put_self _ _ _ (by decide)).trans (Nat.mod_eq_of_lt (Nat.lt_succ_of_le (canaryScore_le b)))

theorem in0_canaryShown (b : Block) : rd (canaryShown b) rGG_CANARY_IN0 = fourBytes ((canaryPoints b).take 4) := by
  rw [canaryShown, rd_put_ne _ _ (by decide), rd_wr_ne _ _ (by decide), rd_wr_self]

theorem in1_canaryShown (b : Block) : rd (canaryShown b) rGG_CANARY_IN1 = fourBytes ((canaryPoints b).drop 4) := by
  rw [canaryShown, rd_put_ne _ _ (by decide), rd_wr_self]

theorem canaryUpdate_eq (b : Block) : canaryUpdate b =
    canaryRearm (canaryScore b) (get b fGG_CANARY_CTL_THRESH)
      (canaryRequest (canaryScore b) (get b fGG_CANARY_CTL_THRESH) (canaryShown b)) := rfl

/-- The request for a securing, and its arming, leave what is outside REQUEST, ARMED and the events of the page. -/
theorem canaryUpdate_leaves {β : Type} (g : Block → β) (hlast : ∀ b v, g { b with canaryLast := v } = g b)
    (harmed : ∀ b v, g (put fGG_CANARY_ARMED v b) = g b) (hrequest : ∀ b v, g (put fGG_CANARY_REQUEST v b) = g b)
    (hrecord : ∀ b d, g (raise 7 16 (post 0x0402 7 d b)) = g b) (b : Block) : g (canaryUpdate b) = g (canaryShown b) := by
  have hreq (s t : Nat) (b : Block) : g (canaryRequest s t b) = g b := by
    rw [canaryRequest]
    split
    · exact (hrecord _ _).trans ((harmed _ _).trans ((hrequest _ _).trans (hlast _ _)))
    · rfl
  have hrearm (s t : Nat) (b : Block) : g (canaryRearm s t b) = g b := by
    rw [canaryRearm, apply_ite g, harmed, ite_self]
  rw [canaryUpdate_eq, hrearm, hreq]

theorem get_canaryUpdate_score (b : Block) : get (canaryUpdate b) fGG_CANARY_SCORE = canaryScore b :=
  (canaryUpdate_leaves (get · fGG_CANARY_SCORE) (fun _ _ => rfl) (fun b v => get_put_ne b v (by decide) (by decide))
    (fun b v => get_put_ne b v (by decide) (by decide)) (fun _ _ => get_raise_ne _ _ (by decide) _) b).trans (score_canaryShown b)

theorem rd_canaryUpdate {r : Nat} (hevt : r ≠ rBLK_EVT_RAW (pageBase 7)) (hcanary : rGG_CANARY ≠ r) (b : Block) :
    rd (canaryUpdate b) r = rd (canaryShown b) r :=
  canaryUpdate_leaves (rd · r) (fun _ _ => rfl) (fun b v => rd_put_ne b v hcanary) (fun b v => rd_put_ne b v hcanary)
    (fun _ _ => rd_raise_ne _ _ _ hevt) b

theorem canaryUpdate_mem (b : Block) : (canaryUpdate b).mem = b.mem :=
  canaryUpdate_leaves Block.mem (fun _ _ => rfl) (fun _ _ => rfl) (fun _ _ => rfl) (fun _ _ => raise_mem _ _ _) b

/-! ### Digest requests (14 R395) -/

section Heard

variable (m : Msg) (b : Block)

/-- That a message is heard leaves what a virtual address means. -/
theorem translate_heard (c va : Nat) (write : Bool) : translate (hears m.src (takeMsg m b)) c va write = translate b c va write := rfl

theorem pieces_heard (c : Nat) (write : Bool) (f va n : Nat) :
    pieces (hears m.src (takeMsg m b)) c write f va n = pieces b c write f va n := by
  induction f generalizing va n with
  | zero => rfl
  | succ f ih => simp only [pieces, ih, translate_heard]

theorem vRead_heard (c va n : Nat) : vRead (hears m.src (takeMsg m b)) c va n = vRead b c va n := by
  simp only [vRead, vaPieces, pieces_heard]
  rfl

theorem localBytes_heard (c va n : Nat) : localBytes (hears m.src (takeMsg m b)) c va n = localBytes b c va n := by
  simp only [localBytes, vaPieces, pieces_heard, vRead_heard]

theorem liveDigest_heard (typ id blk epoch : Nat) : liveDigest (hears m.src (takeMsg m b)) typ id blk epoch = liveDigest b typ id blk epoch := by
  have hmanifest (c : Nat) : readManifest (hears m.src (takeMsg m b)) c = readManifest b c := by
    simp only [readManifest, localBytes_heard]
    rfl
  have howned (c e : Nat) (x : ManEntry) (k : Nat) : ownedBlock (hears m.src (takeMsg m b)) c e x k = ownedBlock b c e x k := by
    simp only [ownedBlock, localBytes_heard]
  simp only [liveDigest, hmanifest, howned, vRead_heard]
  rfl

end Heard

theorem digestReq_of_own {m : Msg} {b : Block} (hcls : m.cls = 5) (hkind : byteAt m.payload 0 = 0x20) (hrole : role b ≠ 0)
    (hgen : m.mgen = gen b) :
    let p := m.payload
    let id := fieldAt p 2 2
    let blk := fieldAt p 4 4
    let e := fieldAt p 8 4
    let dev := fieldAt p 12 2
    let typ := byteAt p 14
    let a := match liveDigest b typ id blk e with
      | some [] => (0, [])
      | some d => (1, d)
      | none => match ledgerDigest b typ id blk e dev with
        | some d => (2, d)
        | none => (0, [])
    digestReq m b = sendMsg m.src 5 0 (digestPayload 0x21 a.1 id blk e dev typ a.2) (hears m.src (takeMsg m b)) := by
  have hkind' : ¬ (m.cls ≠ 5 ∨ byteAt m.payload 0 ≠ 0x20) := by simp [hcls, hkind]
  simp only [digestReq, hkind', if_false, gated_of_own hrole hgen, liveDigest_heard]
  rfl

theorem secureCanaryDigest : Claims.SecureCanaryDigest := by
  intro s q n m g hclear
  refine ⟨fun hfind hactive hcls => ?secure, ⟨canaryUpdate s.blk, rfl, ?canary⟩, fun hcls hkind hrole hgen => ?digest⟩
  case secure =>
    have hrow := secureRow_of_active hfind hactive hcls
    refine ⟨fun h => run_of_eq (hrow.trans (if_pos h)), fun h => run_of_eq (hrow.trans ((if_neg (not_not.2 h)).trans ?_))⟩
    rfl
  case canary =>
    exact ⟨get_canaryUpdate_score _, canaryScore_le _, canaryScore_of_replace,
      (rd_canaryUpdate (by decide) (by decide) _).trans (in0_canaryShown _),
      (rd_canaryUpdate (by decide) (by decide) _).trans (in1_canaryShown _), canaryUpdate_mem _⟩
  case digest =>
    have hrow := (hostGated_active _ _ hclear).trans (digestReq_of_own hcls hkind hrole hgen)
    refine ⟨fun x d h => run_of_eq (hrow.trans ?_), fun h => run_of_eq (hrow.trans ?_), fun d h hl => run_of_eq (hrow.trans ?_),
      fun h hl => run_of_eq (hrow.trans ?_)⟩
    · simp only [h]
    · simp only [h]
    · simp only [h, hl]
    · simp only [h, hl]

/-- Settles O42: the keep holder's refusals in their order, the canary by its registers, the digest request on the block that has heard it. -/
theorem securingService : Obligations.SecuringService := ⟨keepHolderPieces, secureCanaryDigest⟩

end Sys2Proof.Machine
end

section
/-!
PROOFS. Fetch and dispatch (15 R420, 16 R446–R452, 13 R357): the fetch of a descriptor, a dispatch opportunity and the checks of a
command that is dispatched, and the obligation `FetchAndDispatch`.
-/

namespace Sys2Proof.Machine

/-! ### The fetch of a descriptor (15 R420) -/

/-- Where a queue's next descriptor lies. -/
def headPa (b : Block) (q : Nat) : Nat := rd64 b (rSQ_BASE_LO q) + get b (fSQ_HEAD_HEAD q) % ringSize b q * 64

/-- The queue has taken its next descriptor. -/
def headTaken (q : Nat) (b : Block) : Block :=
  put (fSQ_SEQ_NEXT_SEQ q) ((get b (fSQ_SEQ_NEXT_SEQ q) + 1) % 2 ^ 32) (put (fSQ_HEAD_HEAD q) ((get b (fSQ_HEAD_HEAD q) + 1) % 2 ^ 32) b)

/-- A command is fetched; one that is finished at its fetch stops its queue. -/
def fetchedAs (q : Nat) (c : Cmd) (b : Block) : Block :=
  let b' := meetFails (headPa b q) 64 { headTaken q b with cmds := b.cmds ++ [c] }
  if c.stage == .finished then stopQueue q b' else b'

/-- The descriptor can be read. -/
def headReads (b : Block) (q : Nat) : Bool :=
  reachable b (headPa b q) && reachable b (headPa b q + 63) && !readFails b (headPa b q) && !readFails b (headPa b q + 63)

theorem headReads_iff (b : Block) (q : Nat) : headReads b q = true ↔ reachable b (headPa b q) = true ∧ reachable b (headPa b q + 63) = true ∧
    readFails b (headPa b q) = false ∧ readFails b (headPa b q + 63) = false := by
  simp only [headReads, Bool.and_eq_true, Bool.not_eq_true', and_assoc]

section Fetch

variable {q : Nat} {b : Block}

theorem qState_headTaken : qState (headTaken q b) q = qState b q := by
  rw [headTaken, qState, get_put_off_ne _ _ (by simp only [fSQ_SEQ_NEXT_SEQ, fSQ_STAT_STATE]; omega),
    get_put_off_ne _ _ (by simp only [fSQ_HEAD_HEAD, fSQ_STAT_STATE]; omega), ← qState]

variable (hactive : qState b q = 1)
include hactive

theorem fetchedAs_of_finished {c : Cmd} (h : c.stage = .finished) :
    fetchedAs q c b = put (fSQ_STAT_STATE q) 2 (meetFails (headPa b q) 64 { headTaken q b with cmds := b.cmds ++ [c] }) := by
  have hfin : (c.stage == .finished) = true := by rw [h]; rfl
  have hstate : qState (meetFails (headPa b q) 64 { headTaken q b with cmds := b.cmds ++ [c] }) q = 1 :=
    (qState_headTaken (q := q) (b := b)).trans hactive
  exact (if_pos hfin).trans (if_pos hstate)

variable (hmore : get b (fSQ_HEAD_HEAD q) ≠ get b (fSQ_TAIL_TAIL q)) (hready : ready b = true) (hact : activity b = 0)
  (hruns : dispatcherRuns b = true) (hdom : domOn b (domFab 1) = true) (hreach : canReach b (headPa b q) = true)
include hmore hready hact hruns hdom hreach

theorem fetchDescriptor_eq : fetchDescriptor q b =
    let pa := headPa b q
    let next := get b (fSQ_SEQ_NEXT_SEQ q)
    let ok := headReads b q
    let d := if ok then memBytes b pa 64 else []
    let seq := if ok then fieldAt d 12 4 else next
    let c := freshCmd q (get b (fSQ_HEAD_HEAD q)) seq (qCtx b q) d (now b)
    fetchedAs q (if !ok then { c with stage := .finished, status := 0x13 }
      else if anyPoison b pa 64 then { c with stage := .finished, status := 0x24, detail := dispatchUnit b }
      else if seq ≠ next then { c with stage := .finished, status := 0x14 }
      else c) b := by
  have hgo : ¬ (qState b q ≠ 1 ∨ get b (fSQ_HEAD_HEAD q) = get b (fSQ_TAIL_TAIL q) ∨ (!canReach b (headPa b q)) = true ∨
      (!ready b) = true ∨ activity b ≠ 0 ∨ (!dispatcherRuns b) = true ∨ (!domOn b (domFab 1)) = true) := by
    simp [hactive, hmore, hready, hact, hruns, hdom, hreach]
  exact if_neg hgo

/-- A descriptor that cannot be read completes with TRANSLATION. -/
theorem fetchDescriptor_of_unread (h : headReads b q = false) : fetchDescriptor q b =
    put (fSQ_STAT_STATE q) 2 (meetFails (headPa b q) 64 { headTaken q b with
      cmds := b.cmds ++ [{ freshCmd q (get b (fSQ_HEAD_HEAD q)) (get b (fSQ_SEQ_NEXT_SEQ q)) (qCtx b q) [] (now b) with
        stage := .finished, status := 0x13 }] }) := by
  rw [fetchDescriptor_eq hactive hmore hready hact hruns hdom hreach]
  simp only [h, Bool.false_eq_true, Bool.not_false, if_false, if_true]
  exact fetchedAs_of_finished hactive rfl

/-- What a descriptor that can be read is fetched as. -/
theorem fetchDescriptor_of_read (h : headReads b q = true) : fetchDescriptor q b =
    let pa := headPa b q
    let d := memBytes b pa 64
    let c := freshCmd q (get b (fSQ_HEAD_HEAD q)) (fieldAt d 12 4) (qCtx b q) d (now b)
    fetchedAs q (if anyPoison b pa 64 then { c with stage := .finished, status := 0x24, detail := dispatchUnit b }
      else if fieldAt d 12 4 ≠ get b (fSQ_SEQ_NEXT_SEQ q) then { c with stage := .finished, status := 0x14 }
      else c) b := by
  rw [fetchDescriptor_eq hactive hmore hready hact hruns hdom hreach]
  simp only [h, if_true, Bool.not_true, Bool.false_eq_true, if_false]

end Fetch

/-! ### A dispatch opportunity (16 R446–R452) -/

theorem dispatchOpportunity_of_closed {b : Block} (h : dispatchOpen b = false) : dispatchOpportunity b = b := if_pos (by simp [h])

section Opportunity

variable {b h : Block} (hopen : dispatchOpen b = true) (hheld : dispatchHeld b.cmds.length b = h)
include hopen hheld

/-- A dispatch opportunity without a ready head ends with the held commands. -/
theorem dispatchOpportunity_of_none (hnone : readyHeads h = []) : dispatchOpportunity b = h := by
  simp only [dispatchOpportunity, hopen, hheld, hnone, Bool.not_true, Bool.false_eq_true, if_false, List.isEmpty_nil, if_true]

theorem dispatchOpportunity_of_pick {i : Nat} {c : Cmd} (hpick : rrPick (mapGet 0 h.arb arbQueues) 512
      (fun i => (readyHeads h).any (fun c => c.queue == i && qClass h i == pickClass h (readyHeads h))) = some i)
    (hhead : (readyHeads h).find? (fun c => c.queue == i) = some c) : dispatchOpportunity b =
      let b := put fSC_DISPATCH_WHEEL ((get h fSC_DISPATCH_WHEEL + 1) % 15) { h with arb := mapSet 0 h.arb arbQueues ((i + 1) % 512) }
      if enginesFree b c then dispatchCmd c b else holdCmd c b := by
  have hsome : (readyHeads h).isEmpty = false := by
    cases hlist : readyHeads h with
    | nil => simp [hlist] at hhead
    | cons x xs => rfl
  simp only [dispatchOpportunity, hopen, hheld, hsome, Bool.not_true, Bool.false_eq_true, if_false, rrGrant_of_pick hpick, hhead]
  rfl

end Opportunity

theorem dispatchHeld_of_ready {b : Block} {c : Cmd} (h : heldReady b = some c) (n : Nat) :
    dispatchHeld (n + 1) b = dispatchHeld n (dispatchCmd c b) := by
  simp only [dispatchHeld, h]

/-! ### The checks of a command that is dispatched (15 R435, 16 R449) -/

/-- The command as its dispatch makes it. -/
def asDispatched (b : Block) (c : Cmd) : Cmd :=
  { c with stage := .dispatched, epoch := ctxEpoch b c.ctx, mask := clMask c.desc, order := b.dispatches + 1, endAt := now b }

/-- The command has been dispatched. -/
def dispatchNoted (c : Cmd) (b : Block) : Block :=
  setCmd (asDispatched b c) { takeDispSeq c b with dispatches := b.dispatches + 1 }

section Dispatch

variable {c : Cmd} {b : Block} (hnewer : newer32 c.seq (queue b c.queue).dispSeq = true)
include hnewer

theorem dispatchCmd_eq : dispatchCmd c b = match b.pit.owed with
    | some e => if c.ctx = stepCtx b then dispatchCmd.dispatchOwed e (asDispatched b c) (dispatchNoted c b)
      else dispatchCmd.dispatchRest (asDispatched b c) (dispatchNoted c b)
    | none => dispatchCmd.dispatchRest (asDispatched b c) (dispatchNoted c b) :=
  if_neg (by simp [hnewer])

/-- Under an owed abort the command does not run (13 R357). -/
theorem dispatchCmd_of_owed {e : Nat} (howed : b.pit.owed = some e) (hctx : c.ctx = stepCtx b)
    (hepoch : c.cls ≠ 0x07 ∨ fieldAt c.desc 0x10 4 ≠ e) :
    dispatchCmd c b = finishCmd c.queue c.count (if c.cls = 0x07 then 0x40 else 0x44) 0 (dispatchNoted c b) := by
  have hstatus : owedStatus e (asDispatched b c) = if c.cls = 0x07 then 0x40 else 0x44 := by
    change (if c.cls = 0x07 then if fieldAt c.desc 0x10 4 = e then 0x41 else 0x40 else 0x44) = _
    split
    case isTrue hpit => exact if_neg (hepoch.resolve_left (not_not.2 hpit))
    case isFalse => rfl
  have hother : (if c.cls = 0x07 then 0x40 else 0x44) ≠ 0x41 := by split <;> decide
  simp only [dispatchCmd_eq hnewer, howed, hctx, if_true, dispatchCmd.dispatchOwed, hstatus, hother, if_false]
  rfl

variable (howed : b.pit.owed = none) (hlength : c.desc.length = 64)
include howed hlength

theorem dispatchCmd_of_clear : dispatchCmd c b = match descFail (asDispatched b c) with
    | some o => finishCmd c.queue c.count 0x10 (invalidDetail 0 o) (dispatchNoted c b)
    | none => dispatchCmd.dispatchClean (asDispatched b c) (dispatchNoted c b) := by
  have hwhole : ¬ (asDispatched b c).desc.length < 64 := hlength.not_lt
  simp only [dispatchCmd_eq hnewer, howed, dispatchCmd.dispatchRest, hwhole, if_false]
  rfl

end Dispatch

/-! ### The checks after the descriptor's own -/

section Clean

variable {x : Cmd} {b : Block}

theorem dispatchClean_of_fenced (h : ctxFenced b x.ctx = true) :
    dispatchCmd.dispatchClean x b = finishCmd x.queue x.count 0x15 0 (stopQueue x.queue b) := if_pos h

variable (hfenced : ctxFenced b x.ctx = false)
include hfenced

theorem dispatchClean_of_skipped (h : condHolds b x = false) : dispatchCmd.dispatchClean x b =
    setCmd { x with stage := .finished, status := 0x01, branch := (token b x.ctx (waitToken x.desc)).2 } b :=
  (if_neg (by simp [hfenced])).trans (if_pos (by simp [h]))

variable (hcond : condHolds b x = true)
include hcond

theorem dispatchClean_of_unavailable {n : Nat} (h : unavailable b x.mask = some n) :
    dispatchCmd.dispatchClean x b = finishCmd x.queue x.count 0x12 n b := by
  simp only [dispatchCmd.dispatchClean, hfenced, hcond, h, Bool.not_true, Bool.false_eq_true, if_false]
  rfl

variable (hthere : unavailable b x.mask = none)
include hthere

theorem dispatchClean_of_down {d : Nat} (h : missingDomain b x = some d) :
    dispatchCmd.dispatchClean x b = finishCmd x.queue x.count 0x11 d b := by
  simp only [dispatchCmd.dispatchClean, hfenced, hcond, hthere, h, Bool.not_true, Bool.false_eq_true, if_false]
  rfl

variable (hup : missingDomain b x = none)
include hup

theorem dispatchClean_of_up : dispatchCmd.dispatchClean x b =
    if x.cls = 0x07 ∧ x.ctx = stepCtx b ∧ pitState b = 6 then
      finishPit x (if b.pit.lost then 0x43 else 0x42) 0 (ctxEpoch b x.ctx) none false false b
    else if x.cls = 0x07 ∧ fieldAt x.desc 0x10 4 ≠ ctxEpoch b x.ctx then finishCmd x.queue x.count 0x40 0 b else b := by
  simp only [dispatchCmd.dispatchClean, hfenced, hcond, hthere, hup, Bool.not_true, Bool.false_eq_true, if_false]
  rfl

end Clean

/-! ### The obligation -/

/-- Settles O46: the fetch by what its read gives, the dispatch opportunity by the head that is picked, and a dispatched command by the
first of its checks that fails. -/
theorem fetchAndDispatch : Obligations.FetchAndDispatch := by
  intro s q o
  refine ⟨fun hactive hmore hready hact hruns hdom hreach => ⟨fun hread => ?read, fun hunread => ?unread⟩,
    ⟨fun hclosed => ?closed, fun hopen => ?opened⟩, fun c e hnewer howed hctx hepoch => ?owed,
    fun c hnewer hlength howed => ?clear⟩
  case read =>
    obtain ⟨hfirst, hlast, hclean, hclean'⟩ := hread
    have hok : headReads s.blk q = true := (headReads_iff s.blk q).2 ⟨hfirst, hlast, hclean, hclean'⟩
    have hrow := fetchDescriptor_of_read hactive hmore hready hact hruns hdom hreach hok
    have hfetched {c c' : Cmd} (h : c = c') : fetchedAs q c s.blk = fetchedAs q c' s.blk := h ▸ rfl
    refine ⟨fun hpoison => run_of_eq (hrow.trans ((hfetched (if_pos hpoison)).trans (fetchedAs_of_finished hactive rfl))),
      fun hpure => ⟨fun hseq => ?_, fun hseq => ?_⟩⟩
    · exact run_of_eq (hrow.trans (hfetched ((if_neg (Bool.eq_false_iff.1 hpure)).trans (if_neg (not_not.2 hseq)))))
    · exact run_of_eq (hrow.trans ((hfetched ((if_neg (Bool.eq_false_iff.1 hpure)).trans (if_pos hseq))).trans
        (fetchedAs_of_finished hactive rfl)))
  case unread =>
    have hok : headReads s.blk q = false := by
      rw [Bool.eq_false_iff, ne_eq, headReads_iff]
      rintro ⟨hfirst, hlast, hclean, hclean'⟩
      rcases hunread with h | h | h | h
      · exact absurd (hfirst.symm.trans h) (by decide)
      · exact absurd (hlast.symm.trans h) (by decide)
      · exact absurd (hclean.symm.trans h) (by decide)
      · exact absurd (hclean'.symm.trans h) (by decide)
    exact run_of_eq (fetchDescriptor_of_unread hactive hmore hready hact hruns hdom hreach hok)
  case closed => exact run_of_eq (dispatchOpportunity_of_closed hclosed)
  case opened =>
    exact ⟨fun hnone => run_of_eq (dispatchOpportunity_of_none hopen rfl hnone),
      fun i c hpick hhead => run_of_eq (dispatchOpportunity_of_pick hopen rfl hpick hhead), fun n c hheld => dispatchHeld_of_ready hheld n⟩
  case owed => exact dispatchCmd_of_owed hnewer howed hctx hepoch
  case clear =>
    intro x b
    have hrow := dispatchCmd_of_clear hnewer howed hlength
    refine ⟨fun o hfail => ?fail, fun hfail => ?pass⟩
    case fail =>
      rw [show descFail (asDispatched s.blk c) = some o from hfail] at hrow
      exact hrow
    case pass =>
      rw [show descFail (asDispatched s.blk c) = none from hfail] at hrow
      refine ⟨fun hfenced => hrow.trans (dispatchClean_of_fenced hfenced), fun (hfenced : ctxFenced b x.ctx = false) => ⟨fun hcond => ?_,
        fun (hcond : condHolds b x = true) => ⟨fun n hn => ?_, fun (hthere : unavailable b x.mask = none) => ?_⟩⟩⟩
      · exact hrow.trans (dispatchClean_of_skipped hfenced hcond)
      · exact hrow.trans (dispatchClean_of_unavailable hfenced hcond hn)
      refine ⟨fun d hd => hrow.trans (dispatchClean_of_down hfenced hcond hthere hd), fun hup hcls => ?_, fun hup hcls hctx hpit => ?_,
        fun hup hcls hother => ?_⟩
      · exact hrow.trans ((dispatchClean_of_up hfenced hcond hthere hup).trans
          ((if_neg fun h => hcls h.1).trans (if_neg fun h => hcls h.1)))
      · exact hrow.trans ((dispatchClean_of_up hfenced hcond hthere hup).trans (if_pos ⟨hcls, hctx, hpit⟩))
      · have hgo := hrow.trans ((dispatchClean_of_up hfenced hcond hthere hup).trans
          (if_neg fun ⟨_, hctx, hpit⟩ => hother.elim (absurd hctx) (absurd hpit)))
        by_cases hepoch : fieldAt c.desc 0x10 4 = ctxEpoch s.blk c.ctx
        · exact hgo.trans ((if_neg fun h => h.2 hepoch).trans (if_pos hepoch).symm)
        · exact hgo.trans ((if_pos ⟨hcls, hepoch⟩).trans (if_neg hepoch).symm)

end Sys2Proof.Machine
end

section
/-!
PROOFS. The completion of a queue's oldest finished command (15 R421, R426, R433, R434), and the obligation `Completions`.
-/

namespace Sys2Proof.Machine

/-! ### The record, and the command gone (15 R421) -/

/-- Where a command's completion record lies. -/
def recordPa (b : Block) (q : Nat) (c : Cmd) : Nat := rd64 b (rSQ_CQ_LO q) + c.count % 2 ^ get b (fSQ_CFG_SIZE_LOG2 q) * 32

/-- A command's completion record. -/
def recordOf (b : Block) (q : Nat) (c : Cmd) : List Byte := completionBytes c (phaseOf c.count (get b (fSQ_CFG_SIZE_LOG2 q))) (now b)

/-- The command is gone, and the next one is its queue's oldest. -/
def commandGone (q : Nat) (c : Cmd) (b : Block) : Block := nextOldest q (dropCmd c b)

/-- DONE_SEQ is the command's. -/
def doneShown (q : Nat) (c : Cmd) (b : Block) : Block :=
  let b := put (fSQ_DONE_DONE_SEQ q) c.seq b
  setQueue q { queue b q with doneCount := (c.count + 1) % 2 ^ 32 } b

/-- The record is written and the command is gone. -/
def recordWritten (q : Nat) (c : Cmd) (b : Block) : Block :=
  doneShown q c (commandGone q c (memWrite (recordPa b q c) (recordOf b q c) b))

theorem recordOf_length (b : Block) (q : Nat) (c : Cmd) : (recordOf b q c).length = 32 := by
  simp only [recordOf, completionBytes, List.length_append, leBytes_length]

theorem commandGone_keeps {β : Type} (g : Block → β) (hcmds : ∀ b l, g { b with cmds := l } = g b) (q : Nat) (c : Cmd) (b : Block) :
    g (commandGone q c b) = g b := by
  have hdrop : g (dropCmd c b) = g b := hcmds _ _
  rw [commandGone, nextOldest]
  split
  · exact (hcmds _ _).trans hdrop
  · exact hdrop

section Record

variable (q : Nat) (c : Cmd) (b : Block)

theorem findCmd_dropCmd : findCmd (dropCmd c b) c.queue c.count = none := by
  simp only [findCmd, dropCmd, List.find?_eq_none, List.mem_filter]
  rintro x ⟨-, hx⟩ heq
  simp [heq] at hx

/-- A command that is replaced keeps its name. -/
theorem findCmd_setCmd_of_none {n : Nat} (x : Cmd) (h : findCmd b q n = none) : findCmd (setCmd x b) q n = none := by
  simp only [findCmd, setCmd, List.find?_eq_none, List.mem_map] at h ⊢
  rintro _ ⟨y, hy, rfl⟩
  split
  case isTrue hsame =>
    obtain ⟨hqueue, hcount⟩ : y.queue = x.queue ∧ y.count = x.count := by simpa using hsame
    rw [← hqueue, ← hcount]
    exact h y hy
  case isFalse => exact h y hy

theorem findCmd_commandGone : findCmd (commandGone c.queue c b) c.queue c.count = none := by
  rw [commandGone, nextOldest]
  split
  · exact findCmd_setCmd_of_none _ _ _ (findCmd_dropCmd c b)
  · exact findCmd_dropCmd c b

theorem get_doneShown {f : Fld} (hf : (fSQ_DONE_DONE_SEQ q).off ≠ f.off) : get (doneShown q c b) f = get b f :=
  get_put_off_ne b c.seq hf

theorem done_doneShown (hseq : c.seq < 2 ^ 32) : get (doneShown q c b) (fSQ_DONE_DONE_SEQ q) = c.seq := by
  have hput : get (doneShown q c b) (fSQ_DONE_DONE_SEQ q) = c.seq % 2 ^ 32 := get_put_self b _ c.seq (by simp only [fSQ_DONE_DONE_SEQ]; omega)
  rw [hput, Nat.mod_eq_of_lt hseq]

theorem done_recordWritten (hseq : c.seq < 2 ^ 32) : get (recordWritten q c b) (fSQ_DONE_DONE_SEQ q) = c.seq := done_doneShown q c _ hseq

theorem get_memWrite (pa : Nat) (bs : List Byte) (f : Fld) : get (memWrite pa bs b) f = get b f := by
  rw [get, rd, memWrite_regs, ← rd, ← get]

theorem get_commandGone (f : Fld) : get (commandGone q c b) f = get b f := commandGone_keeps (get · f) (fun _ _ => rfl) q c b

theorem get_recordWritten {f : Fld} (hf : (fSQ_DONE_DONE_SEQ q).off ≠ f.off) : get (recordWritten q c b) f = get b f := by
  rw [recordWritten, get_doneShown _ _ _ hf, get_commandGone, get_memWrite]

theorem doneShown_ctxs : (doneShown q c b).ctxs = b.ctxs := rfl

theorem doneShown_cmds : (doneShown q c b).cmds = b.cmds := rfl

theorem memByte_doneShown (a : Nat) : memByte (doneShown q c b) a = memByte b a := rfl

theorem recordWritten_ctxs : (recordWritten q c b).ctxs = b.ctxs := by
  rw [recordWritten, doneShown_ctxs, commandGone_keeps Block.ctxs (fun _ _ => rfl)]
  exact memWriteP_keeps Block.ctxs (fun _ _ => rfl) (fun _ _ _ => rfl) (fun _ _ _ => rfl) _ _ _ b

theorem findCmd_recordWritten (hq : c.queue = q) : findCmd (recordWritten q c b) q c.count = none := by
  subst hq
  rw [recordWritten, findCmd, doneShown_cmds, ← findCmd, findCmd_commandGone]

theorem memByte_recordWritten (a : Nat) : memByte (recordWritten q c b) a = memByte (memWrite (recordPa b q c) (recordOf b q c) b) a := by
  rw [recordWritten, memByte_doneShown, commandGone_keeps (memByte · a) (fun _ _ => rfl)]

/-- The record lies where it is written, and the rest of memory is as before. -/
theorem memByte_recordWritten_at {i : Nat} (hi : i < 32) :
    memByte (recordWritten q c b) (recordPa b q c + i) = (recordOf b q c).getD i 0 := by
  rw [memByte_recordWritten, memByte_memWrite_at _ _ _ _ (by rw [recordOf_length]; exact hi)]

theorem memByte_recordWritten_ne {a : Nat} (ha : a < recordPa b q c ∨ recordPa b q c + 32 ≤ a) :
    memByte (recordWritten q c b) a = memByte b a := by
  rw [memByte_recordWritten, memByte_memWrite_ne _ _ _ _ (by rw [recordOf_length]; exact ha)]

end Record

/-! ### The end of a command (15 R426, R433, R434) -/

/-- A success signals its token. -/
def tokenSignalled (c : Cmd) (b : Block) : Block :=
  if fieldAt c.desc 8 2 < 1024 then signalToken c.ctx (fieldAt c.desc 8 2) c.branch b else b

/-- An error is shown. -/
def errorShown (q : Nat) (c : Cmd) (b : Block) : Block :=
  put (fSQ_STAT_ERR_STATUS q) c.status (put (fSQ_ERR_SEQ_SEQ q) c.seq b)

theorem qState_errorShown (q : Nat) (c : Cmd) (b : Block) : qState (errorShown q c b) q = qState b q := by
  rw [qState, errorShown, get_put_ne _ _ (by simp only [fSQ_STAT_STATE]; omega)
    (.inr (.inr (by simp only [fSQ_STAT_STATE, fSQ_STAT_ERR_STATUS]; omega))),
    get_put_off_ne _ _ (by simp only [fSQ_ERR_SEQ_SEQ, fSQ_STAT_STATE]; omega), ← qState]

theorem status_errorShown (q : Nat) {c : Cmd} (b : Block) (h : c.status < 256) :
    get (errorShown q c b) (fSQ_STAT_ERR_STATUS q) = c.status :=
  (get_put_self _ _ _ (by simp only [fSQ_STAT_ERR_STATUS]; omega)).trans (Nat.mod_eq_of_lt h)

theorem errSeq_errorShown (q : Nat) {c : Cmd} (b : Block) (h : c.seq < 2 ^ 32) : get (errorShown q c b) (fSQ_ERR_SEQ_SEQ q) = c.seq := by
  rw [errorShown, get_put_off_ne _ _ (by simp only [fSQ_STAT_ERR_STATUS, fSQ_ERR_SEQ_SEQ]; omega),
    get_put_self _ _ _ (by simp only [fSQ_ERR_SEQ_SEQ]; omega)]
  exact Nat.mod_eq_of_lt h

theorem state_stopped (q : Nat) (b : Block) : qState (put (fSQ_STAT_STATE q) 2 b) q = 2 :=
  get_put_self _ _ _ (by simp only [fSQ_STAT_STATE]; omega)

theorem status_stopped (q : Nat) (b : Block) : get (put (fSQ_STAT_STATE q) 2 b) (fSQ_STAT_ERR_STATUS q) = get b (fSQ_STAT_ERR_STATUS q) :=
  get_put_ne _ _ (by simp only [fSQ_STAT_ERR_STATUS]; omega)
    (.inr (.inl (by simp only [fSQ_STAT_STATE, fSQ_STAT_ERR_STATUS]; omega)))

theorem errSeq_stopped (q : Nat) (b : Block) : get (put (fSQ_STAT_STATE q) 2 b) (fSQ_ERR_SEQ_SEQ q) = get b (fSQ_ERR_SEQ_SEQ q) :=
  get_put_off_ne _ _ (by simp only [fSQ_STAT_STATE, fSQ_ERR_SEQ_SEQ]; omega)

theorem stepCtx_put_queue {f : Fld} (hf : 0x400000 ≤ f.off) (v : Nat) (b : Block) : stepCtx (put f v b) = stepCtx b :=
  get_put_off_ne b v (by simp only [fGG_STEP_CTX_CTX, ggBase]; omega)

theorem stepCtx_errorShown (q : Nat) (c : Cmd) (b : Block) : stepCtx (errorShown q c b) = stepCtx b := by
  rw [errorShown, stepCtx_put_queue (by simp only [fSQ_STAT_ERR_STATUS, queueBase]; omega),
    stepCtx_put_queue (by simp only [fSQ_ERR_SEQ_SEQ, queueBase]; omega)]

theorem qState_recordWritten (q : Nat) (c : Cmd) (b : Block) : qState (recordWritten q c b) q = qState b q :=
  get_recordWritten q c b (by simp only [fSQ_DONE_DONE_SEQ, fSQ_STAT_STATE]; omega)

theorem stepCtx_recordWritten (q : Nat) (c : Cmd) (b : Block) : stepCtx (recordWritten q c b) = stepCtx b :=
  get_recordWritten q c b (by simp only [fSQ_DONE_DONE_SEQ, queueBase, fGG_STEP_CTX_CTX, ggBase]; omega)

/-- An error outside the step context dirties its context alone. -/
theorem stepError_elsewhere {c : Nat} {b : Block} (h : c ≠ stepCtx b) : ∃ p, stepError c b = { b with pit := p } :=
  ⟨_, if_neg fun hvote => h hvote.1⟩

theorem stepCtx_rings (b : Block) (r : SMap Ring) : stepCtx { b with rings := r } = stepCtx b := rfl

theorem stopQueue_postTo {q n : Nat} {r : EvRec} {b : Block} (h : qState b q = 1) :
    stopQueue q (postTo n r b) = { put (fSQ_STAT_STATE q) 2 b with rings := (postTo n r b).rings } := if_pos h

/-- An error has stopped its queue; what is told of it, and the context that it dirties, are in the rings and the pithead. -/
def errorEnded (q : Nat) (c : Cmd) (r : SMap Ring) (p : Pit) (b : Block) : Block :=
  { put (fSQ_STAT_STATE q) 2 (errorShown q c b) with rings := r, pit := p }

/-- The end writes the queue's STAT and ERR_SEQ, the rings and the pithead. -/
theorem errorEnded_keeps {β : Type} (g : Block → β) {q : Nat} (hrings : ∀ b l p, g { b with rings := l, pit := p } = g b)
    (hput : ∀ b f v, f.off = queueBase q + 0x5C ∨ f.off = queueBase q + 0x6C → g (put f v b) = g b)
    (c : Cmd) (r : SMap Ring) (p : Pit) (b : Block) : g (errorEnded q c r p b) = g b := by
  rw [errorEnded, hrings, hput _ _ _ (.inl rfl), errorShown, hput _ _ _ (.inl rfl), hput _ _ _ (.inr rfl)]

theorem get_rings_pit (b : Block) (r : SMap Ring) (p : Pit) (f : Fld) : get { b with rings := r, pit := p } f = get b f := rfl

theorem get_errorEnded (q : Nat) (c : Cmd) (r : SMap Ring) (p : Pit) (b : Block) (f : Fld) :
    get (errorEnded q c r p b) f = get (put (fSQ_STAT_STATE q) 2 (errorShown q c b)) f := by
  unfold errorEnded
  exact get_rings_pit (put (fSQ_STAT_STATE q) 2 (errorShown q c b)) r p f

theorem state_errorEnded (q : Nat) (c : Cmd) (r : SMap Ring) (p : Pit) (b : Block) : qState (errorEnded q c r p b) q = 2 := by
  rw [qState, get_errorEnded, ← qState, state_stopped]

theorem status_errorEnded (q : Nat) {c : Cmd} (r : SMap Ring) (p : Pit) (b : Block) (h : c.status < 256) :
    get (errorEnded q c r p b) (fSQ_STAT_ERR_STATUS q) = c.status := by
  rw [get_errorEnded, status_stopped, status_errorShown q b h]

theorem errSeq_errorEnded (q : Nat) {c : Cmd} (r : SMap Ring) (p : Pit) (b : Block) (h : c.seq < 2 ^ 32) :
    get (errorEnded q c r p b) (fSQ_ERR_SEQ_SEQ q) = c.seq := by
  rw [get_errorEnded, errSeq_stopped, errSeq_errorShown q b h]

theorem done_errorEnded (q : Nat) (c : Cmd) (r : SMap Ring) (p : Pit) (b : Block) :
    get (errorEnded q c r p b) (fSQ_DONE_DONE_SEQ q) = get b (fSQ_DONE_DONE_SEQ q) :=
  errorEnded_keeps (get · (fSQ_DONE_DONE_SEQ q)) (fun _ _ _ => rfl)
    (fun b f v hf => get_put_off_ne b v (by simp only [fSQ_DONE_DONE_SEQ]; omega)) c r p b

theorem findCmd_errorEnded (q : Nat) (c : Cmd) (r : SMap Ring) (p : Pit) (b : Block) (n : Nat) :
    findCmd (errorEnded q c r p b) q n = findCmd b q n :=
  errorEnded_keeps (findCmd · q n) (fun _ _ _ => rfl) (fun _ _ _ _ => rfl) c r p b

theorem memByte_errorEnded (q : Nat) (c : Cmd) (r : SMap Ring) (p : Pit) (b : Block) (a : Nat) :
    memByte (errorEnded q c r p b) a = memByte b a :=
  errorEnded_keeps (memByte · a) (fun _ _ _ => rfl) (fun _ _ _ _ => rfl) c r p b

theorem errorEnded_ctxs (q : Nat) (c : Cmd) (r : SMap Ring) (p : Pit) (b : Block) : (errorEnded q c r p b).ctxs = b.ctxs :=
  errorEnded_keeps Block.ctxs (fun _ _ _ => rfl) (fun _ _ _ _ => rfl) c r p b

/-- The queue stops, and the context is dirtied where the status asks for it. -/
theorem stopped_of_error {q : Nat} {c : Cmd} {b : Block} (hactive : qState b q = 1) (hctx : c.ctx ≠ stepCtx b) (n : Nat) (e : EvRec) :
    ∃ r p, (if cleanStatus c.status then stopQueue q (postTo n e b) else stepError c.ctx (stopQueue q (postTo n e b))) =
      { put (fSQ_STAT_STATE q) 2 b with rings := r, pit := p } := by
  rw [stopQueue_postTo hactive]
  split
  · exact ⟨_, _, rfl⟩
  · refine ⟨_, stepError_elsewhere ?_⟩
    rwa [stepCtx_rings, stepCtx_put_queue (by simp only [fSQ_STAT_STATE, queueBase]; omega)]

section Ends

variable {q : Nat} {c : Cmd} {b : Block} (hhead : (cmdsOf b q).head? = some c)
include hhead

/-- A command that has not finished completes nothing. -/
theorem completeOldest_of_unfinished (h : c.stage ≠ .finished) : completeOldest q b = b := by
  simp only [completeOldest, hhead]
  exact if_pos (by simp [h])

variable (hfinished : c.stage = .finished) (hcan : canReach b (recordPa b q c) = true) (hfirst : reachable b (recordPa b q c) = true)
  (hlast : reachable b (recordPa b q c + 31) = true)
include hfinished hcan hfirst hlast

theorem completeOldest_eq : completeOldest q b =
    let b' := recordWritten q c b
    let phase := phaseOf c.count (get b (fSQ_CFG_SIZE_LOG2 q))
    let rec' := fun code => ⟨code, c.ctx, 4, q, c.seq, now b', commandData c phase⟩
    let rg := get b' (fSQ_CFG_RING q)
    if isSuccess c.status then
      let b' := tokenSignalled c b'
      if c.flags.testBit 0 then postTo rg (rec' 0x0001) b' else b'
    else
      let b' := errorShown q c b'
      let b' := if errorStops c.status then stopQueue q (postTo rg (rec' 0x0002) b') else b'
      if cleanStatus c.status then b' else stepError c.ctx b' := by
  have hstage : (c.stage != .finished) = false := by rw [hfinished]; rfl
  have hcan' : canReach b (rd64 b (rSQ_CQ_LO q) + c.count % 2 ^ get b (fSQ_CFG_SIZE_LOG2 q) * 32) = true := hcan
  have hfirst' : reachable b (rd64 b (rSQ_CQ_LO q) + c.count % 2 ^ get b (fSQ_CFG_SIZE_LOG2 q) * 32) = true := hfirst
  have hlast' : reachable b (rd64 b (rSQ_CQ_LO q) + c.count % 2 ^ get b (fSQ_CFG_SIZE_LOG2 q) * 32 + 31) = true := hlast
  simp only [completeOldest, hhead, hstage, hcan', hfirst', hlast', Bool.not_true, Bool.or_self, Bool.false_eq_true, if_false, Bool.and_self,
    if_true, recordWritten, doneShown, commandGone, recordPa, recordOf, tokenSignalled, errorShown]

theorem completeOldest_of_success (hsuccess : isSuccess c.status = true) :
    ∃ r, completeOldest q b = { tokenSignalled c (recordWritten q c b) with rings := r } := by
  rw [completeOldest_eq hhead hfinished hcan hfirst hlast]
  simp only [hsuccess, if_true]
  generalize recordWritten q c b = w
  split
  · exact ⟨_, rfl⟩
  · exact ⟨_, rfl⟩

/-- An error outside the step context stops its queue and dirties its context. -/
theorem completeOldest_of_error (herror : errorStops c.status = true) (hctx : c.ctx ≠ stepCtx b) (hactive : qState b q = 1) :
    ∃ r p, completeOldest q b = errorEnded q c r p (recordWritten q c b) := by
  have hfails : isSuccess c.status = false := by
    simp only [errorStops, Bool.and_eq_true, Bool.not_eq_true'] at herror
    exact herror.1.1
  rw [completeOldest_eq hhead hfinished hcan hfirst hlast]
  simp only [hfails, herror, Bool.false_eq_true, if_false, if_true]
  refine stopped_of_error ?_ ?_ _ _
  · rw [qState_errorShown, qState_recordWritten, hactive]
  · rw [stepCtx_errorShown, stepCtx_recordWritten]
    exact hctx

end Ends

/-! ### Tokens (15 R426) -/

section Signal

variable {c t : Nat} (br : Bool) (b : Block)

theorem token_signalToken : token (signalToken c t br b) c t = (((token b c t).1 + 1) % 2 ^ 32, br) := by
  simp only [signalToken, token, ctx, setCtx, mapGet_set_self]

theorem token_signalToken_ne {x u : Nat} (h : x ≠ c ∨ u ≠ t) : token (signalToken c t br b) x u = token b x u := by
  by_cases hx : c = x
  · subst hx
    have hu : t ≠ u := (h.resolve_left (not_not.2 rfl)).symm
    simp only [signalToken, token, ctx, setCtx, mapGet_set_self, mapGet_set_ne _ _ _ hu]
  · simp only [signalToken, token, ctx, setCtx, mapGet_set_ne _ _ _ hx]

end Signal

theorem token_tokenSignalled (c : Cmd) (b : Block) {t : Nat} (ht : t = fieldAt c.desc 8 2) (hlt : t < 1024) :
    token (tokenSignalled c b) c.ctx t = (((token b c.ctx t).1 + 1) % 2 ^ 32, c.branch) := by
  subst ht
  rw [tokenSignalled, if_pos hlt, token_signalToken]

theorem token_tokenSignalled_ne (c : Cmd) (b : Block) {x t : Nat} (h : x ≠ c.ctx ∨ t ≠ fieldAt c.desc 8 2) :
    token (tokenSignalled c b) x t = token b x t := by
  rw [tokenSignalled]
  split
  · exact token_signalToken_ne _ _ h
  · rfl

/-- A signal changes its context's tokens alone. -/
theorem tokenSignalled_keeps {β : Type} (g : Block → β) (hctxs : ∀ b l, g { b with ctxs := l } = g b) (c : Cmd) (b : Block) :
    g (tokenSignalled c b) = g b := by
  rw [tokenSignalled]
  split
  · exact hctxs _ _
  · rfl

theorem token_congr {b b' : Block} (h : b'.ctxs = b.ctxs) (x t : Nat) : token b' x t = token b x t := by rw [token, ctx, h, ← ctx, ← token]

/-! ### The commands that have ended (15 R421) -/

/-- A queue none of whose commands runs completes its oldest. -/
theorem completionRow_of_idle {q : Nat} {b : Block} (h : ∀ x ∈ cmdsOf b q, x.stage ≠ .running) : completionRow q b = completeOldest q b := by
  have hended (l : List Cmd) (hl : ∀ x ∈ l, x.stage ≠ .running) :
      l.foldl (fun b c => if c.stage == .running && kernelDone b c then kernelEnd c b else b) b = b := by
    induction l with
    | nil => rfl
    | cons x xs ih =>
      have hx : (x.stage == .running) = false := by simpa using hl x List.mem_cons_self
      simp only [List.foldl_cons, hx, Bool.false_and, Bool.false_eq_true, if_false]
      exact ih fun y hy => hl y (List.mem_cons_of_mem _ hy)
  rw [completionRow, hended _ h]

/-- A kernel-class command whose work is done ends first. -/
theorem completionRow_of_done {q : Nat} {c : Cmd} {b : Block} (honly : cmdsOf b q = [c]) (hstage : c.stage = .running)
    (hdone : kernelDone b c = true) : completionRow q b = completeOldest q (kernelEnd c b) := by
  have hruns : (c.stage == .running) = true := by rw [hstage]; rfl
  simp only [completionRow, honly, List.foldl_cons, List.foldl_nil, hruns, hdone, Bool.and_self, if_true]

/-! ### The obligation -/

/-- Settles O47: a queue whose commands have ended completes its oldest, whose record, command and DONE_SEQ are those of `recordWritten`;
a success then signals its token, an error stops the queue. -/
theorem completions : Obligations.Completions := by
  intro s q c hhead log pa
  have hqueue : c.queue = q.val := by
    have hmem := List.mem_of_mem_head? hhead
    simpa [cmdsOf] using (List.mem_filter.1 hmem).2
  refine ⟨fun hidle hstage => ?unfinished, fun honly hstage hdone => run_of_eq (completionRow_of_done honly hstage hdone),
    fun hidle hstage hcan hfirst hlast hseq hstatus hmem => ⟨fun hsuccess => ?success, fun herror hctx hactive => ?error⟩⟩
  case unfinished => exact run_of_eq ((completionRow_of_idle hidle).trans (completeOldest_of_unfinished hhead hstage))
  case success =>
    obtain ⟨r, hend⟩ := completeOldest_of_success hhead hstage hcan hfirst hlast hsuccess
    refine ⟨_, run_of_eq ((completionRow_of_idle hidle).trans hend), ?_⟩
    have hkeeps {β : Type} (g : Block → β) (hctxs : ∀ b l, g { b with ctxs := l } = g b) (hrings : ∀ b l, g { b with rings := l } = g b) :
        g { tokenSignalled c (recordWritten q c s.blk) with rings := r } = g (recordWritten q c s.blk) :=
      (hrings _ _).trans (tokenSignalled_keeps g hctxs c _)
    refine ⟨?_, ?_, fun i hi => ?_, fun a ha => ?_, ?_, fun t ht hlt => ?_, fun x t h => ?_⟩
    · exact (hkeeps (get · _) (fun _ _ => rfl) (fun _ _ => rfl)).trans (done_recordWritten q c s.blk hseq)
    · exact (hkeeps (findCmd · q c.count) (fun _ _ => rfl) (fun _ _ => rfl)).trans (findCmd_recordWritten q c s.blk hqueue)
    · exact (hkeeps (memByte · _) (fun _ _ => rfl) (fun _ _ => rfl)).trans (memByte_recordWritten_at q c s.blk hi)
    · exact (hkeeps (memByte · a) (fun _ _ => rfl) (fun _ _ => rfl)).trans (memByte_recordWritten_ne q c s.blk ha)
    · exact (hkeeps (qState · q) (fun _ _ => rfl) (fun _ _ => rfl)).trans (qState_recordWritten q c s.blk)
    · exact (token_tokenSignalled c (recordWritten q c s.blk) ht hlt).trans (by rw [token_congr (recordWritten_ctxs q c s.blk)])
    · exact (token_tokenSignalled_ne c (recordWritten q c s.blk) h).trans (token_congr (recordWritten_ctxs q c s.blk) x t)
  case error =>
    obtain ⟨r, p, hend⟩ := completeOldest_of_error hhead hstage hcan hfirst hlast herror hctx hactive
    refine ⟨_, run_of_eq ((completionRow_of_idle hidle).trans hend), ?_⟩
    refine ⟨?_, ?_, state_errorEnded .., status_errorEnded _ _ _ _ hstatus, errSeq_errorEnded _ _ _ _ hseq, fun i hi => ?_, fun a ha => ?_, ?_⟩
    · rw [done_errorEnded, done_recordWritten _ _ _ hseq]
    · rw [findCmd_errorEnded, findCmd_recordWritten _ _ _ hqueue]
    · rw [memByte_errorEnded]
      exact memByte_recordWritten_at q c s.blk hi
    · rw [memByte_errorEnded]
      exact memByte_recordWritten_ne q c s.blk ha
    · rw [errorEnded_ctxs, recordWritten_ctxs]

end Sys2Proof.Machine
end

section
/-!
PROOFS. Event rings (15 R436–R442): the record in its slot, the backlog of a blocked ring, the host's registers and the vector, and the
obligation `EventRings`.
-/

namespace Sys2Proof.Machine

/-! ### A ring that is set twice -/

section Maps

variable {α : Type} (d : α) (m : SMap α) (k : Nat) (v w : α)

theorem mapErase_mapInsert : mapErase (mapInsert m k v) k = mapErase m k := by
  induction m with
  | nil => simp [mapInsert, mapErase]
  | cons e m ih =>
    simp only [mapErase] at ih
    simp only [mapInsert]
    split <;> simp [mapErase, List.filter_cons, ih]

theorem mapErase_mapErase : mapErase (mapErase m k) k = mapErase m k := by simp [mapErase, List.filter_filter]

theorem mapSet_mapSet [DecidableEq α] : mapSet d (mapSet d m k v) k w = mapSet d m k w := by
  have herase : mapErase (mapSet d m k v) k = mapErase m k := by
    rw [mapSet]
    split
    · exact mapErase_mapErase m k
    · rw [mapErase_mapInsert, mapErase_mapErase]
  rw [mapSet, herase, ← mapSet]

end Maps

theorem setRing_setRing (n : Nat) (x y : Ring) (b : Block) : setRing n y (setRing n x b) = setRing n y b := by
  simp only [setRing, mapSet_mapSet]

theorem ring_setRing (n : Nat) (x : Ring) (b : Block) : ring (setRing n x b) n = x := mapGet_set_self _ _ _ _

theorem get_setRing (n : Nat) (x : Ring) (b : Block) (f : Fld) : get (setRing n x b) f = get b f := rfl

theorem rd_setRing (n : Nat) (x : Ring) (b : Block) (o : Nat) : rd (setRing n x b) o = rd b o := rfl

/-! ### What a ring owes (15 R437) -/

section Flush

variable {n : Nat} {b : Block}

theorem flushRing_of_closed (h : ringOpen b n = false) (f : Nat) : flushRing n f b = b := by
  cases f with
  | zero => rfl
  | succ f => simp only [flushRing, h, Bool.not_false, if_true]

theorem flushRing_of_nothing (hdropped : (ring b n).dropped = 0) (hwaiting : (ring b n).waiting = []) (f : Nat) : flushRing n f b = b := by
  cases f with
  | zero => rfl
  | succ f => simp [flushRing, hdropped, hwaiting]

theorem flush_of_blocked (h : ringBlocked b n = true) : flush n b = b := flushRing_of_closed (by simp [ringOpen, h]) _

theorem rings_memWrite (pa : Nat) (bs : List Byte) (b : Block) : (memWrite pa bs b).rings = b.rings :=
  memWriteP_keeps Block.rings (fun _ _ => rfl) (fun _ _ _ => rfl) (fun _ _ _ => rfl) pa bs _ b

theorem ring_writeSlot (n : Nat) (e : EvRec) (b : Block) : ring (writeSlot n e b) n = { ring b n with irqDue := true } := by
  have hring (pa : Nat) (bs : List Byte) (f : Fld) (k : Nat) : ring (incr f k (memWrite pa bs b)) n = ring b n := by
    rw [ring, incr, put_rings, rings_memWrite, ← ring]
  rw [writeSlot, ring_setRing, hring]

theorem evTail_writeSlot (n : Nat) (e : EvRec) (b : Block) : evTail (writeSlot n e b) n = (evTail b n + 1) % 2 ^ 32 := by
  have hmem (pa : Nat) (bs : List Byte) : get (memWrite pa bs b) (fEV_TAIL_TAIL n) = evTail b n := get_memWrite b pa bs _
  have hput (k : Nat) (b : Block) : get (incr (fEV_TAIL_TAIL n) k b) (fEV_TAIL_TAIL n) = (get b (fEV_TAIL_TAIL n) + k) % 2 ^ 32 := by
    rw [incr, get_put_self _ _ _ (by simp only [fEV_TAIL_TAIL]; omega)]
    exact Nat.mod_mod _ _
  rw [writeSlot, evTail, get_setRing, hput, hmem]

theorem eventBytes_length (e : EvRec) (phase : Bool) : (e.bytes phase).length = 32 := by
  simp only [EvRec.bytes, List.length_append, leBytes_length]

theorem memByte_writeSlot (n : Nat) (e : EvRec) (b : Block) (a : Nat) : memByte (writeSlot n e b) a =
    memByte (memWrite (slotPa b n) (e.bytes (phaseOf (evTail b n) (get b (fEV_CFG_SIZE_LOG2 n)))) b) a := by
  rw [writeSlot, memByte, setRing_mem, incr, put_mem, ← memByte]

theorem slotPa_setRing (n : Nat) (x : Ring) (b : Block) : slotPa (setRing n x b) n = slotPa b n := by
  rw [slotPa, evTail, evSize, get_setRing, get_setRing, rd64_congr (rd_setRing ..) (rd_setRing ..), slotPa, evTail, evSize]

theorem reachable_setRing (n : Nat) (x : Ring) (b : Block) (pa : Nat) : reachable (setRing n x b) pa = reachable b pa :=
  reachable_congr rfl rfl (fun _ _ => rfl) (fun _ _ => ⟨rfl, rfl⟩) pa

theorem slotOk_setRing (n : Nat) (x : Ring) (b : Block) : slotOk (setRing n x b) n = slotOk b n := by
  simp only [slotOk, slotPa_setRing, reachable_setRing, readFails, setRing_hostFail]

theorem ringBlocked_setRing (n : Nat) (x : Ring) (b : Block) : ringBlocked (setRing n x b) n = ringBlocked b n := by
  rw [ringBlocked, isSet, evSize, evTail, evHead, get_setRing, get_setRing, get_setRing, get_setRing, ringBlocked, isSet, evSize, evTail, evHead]

theorem canReach_setRing (n : Nat) (x : Ring) (b : Block) (pa : Nat) : canReach (setRing n x b) pa = canReach b pa := by
  simp only [canReach, anyPortActive, portCarries, portActive, domOn, dom, activity, get_setRing, setRing_chaell]

theorem ringOpen_setRing (n : Nat) (x : Ring) (b : Block) : ringOpen (setRing n x b) n = ringOpen b n := by
  rw [ringOpen, ringBlocked_setRing, slotPa_setRing, canReach_setRing, ← ringOpen]

/-- A record that waits alone is written into its slot. -/
theorem flushRing_of_one {e : EvRec} (hopen : ringOpen b n = true) (hslot : slotOk b n = true) (hdropped : (ring b n).dropped = 0)
    (hwaiting : (ring b n).waiting = [e]) (f : Nat) :
    flushRing n (f + 1) b = writeSlot n e (setRing n { ring b n with waiting := [] } b) := by
  have hstep : flushRing n (f + 1) b = flushRing n f (writeSlot n e (setRing n { ring b n with waiting := [] } b)) := by
    simp only [flushRing, hopen, hdropped, hwaiting, slotOk_setRing, hslot, Bool.not_true, Bool.false_eq_true, if_false, if_true, Nat.lt_irrefl,
      false_and]
  rw [hstep, flushRing_of_nothing]
  · rw [ring_writeSlot, ring_setRing]
    exact hdropped
  · rw [ring_writeSlot, ring_setRing]

end Flush

/-! ### The oldest record (15 R437, R441) -/

section Record

variable {n : Nat} {b : Block} {e : EvRec} {rest : List EvRec} (hposted : (ring b n).posted = e :: rest)
include hposted

/-- An open ring that owes nothing takes the record into its next slot. -/
theorem recordWrite_of_open (hopen : ringOpen b n = true) (hslot : slotOk b n = true) (hdropped : (ring b n).dropped = 0)
    (hwaiting : (ring b n).waiting = []) :
    recordWrite n b = writeSlot n e (setRing n { ring b n with posted := rest, waiting := [] } b) := by
  obtain ⟨hfree, hreach⟩ : ringBlocked b n = false ∧ canReach b (slotPa b n) = true := by simpa [ringOpen] using hopen
  have hflush : flush n b = b := flushRing_of_nothing hdropped hwaiting _
  have hset : flush n (setRing n { ring b n with posted := rest, waiting := [e] } b) =
      writeSlot n e (setRing n { ring b n with posted := rest, waiting := [] } b) := by
    refine (flushRing_of_one (n := n) (e := e) ?_ ?_ ?_ ?_ 129).trans ?_
    · rw [ringOpen_setRing, hopen]
    · rw [slotOk_setRing, hslot]
    · rw [ring_setRing]
      exact hdropped
    · rw [ring_setRing]
    · rw [ring_setRing, setRing_setRing]
  simp only [recordWrite, hposted, hfree, hreach, hflush, hwaiting, Bool.not_false, Bool.not_true, Bool.and_false, Bool.false_eq_true, if_false,
    List.length_nil, List.nil_append, hset]
  rfl

variable (hblocked : ringBlocked b n = true)
include hblocked

/-- At a blocked ring the record waits. -/
theorem recordWrite_of_blocked (hroom : (ring b n).waiting.length < 64) :
    recordWrite n b = setRing n { ring b n with posted := rest, waiting := (ring b n).waiting ++ [e] } b := by
  have hblocked' : ringBlocked (setRing n { ring b n with posted := rest, waiting := (ring b n).waiting ++ [e] } b) n = true := by
    rw [ringBlocked_setRing, hblocked]
  simp only [recordWrite, hposted, hblocked, flush_of_blocked hblocked, Bool.not_true, Bool.false_and, Bool.false_eq_true, if_false, hroom,
    if_true, flush_of_blocked hblocked']

/-- The 65th record that waits is lost. -/
theorem recordWrite_of_full (hfull : 64 ≤ (ring b n).waiting.length) :
    recordWrite n b = bump (fEV_LOST_COUNT n) 1 (setRing n { ring b n with posted := rest, dropped := (ring b n).dropped + 1 } b) := by
  simp only [recordWrite, hposted, hblocked, flush_of_blocked hblocked, Bool.not_true, Bool.false_and, Bool.false_eq_true, if_false,
    hfull.not_gt, dropRecord, ring_setRing, setRing_setRing]

end Record

/-! ### The host's registers (15 R436) -/

/-- A write of a ring's CFG or HEAD is kept and then what the ring owes is written. -/
theorem regWriteAt_ring {port : Port} {v : W32} {n o : Nat} {b : Block} (hn : n < 16) (ho : o = 8 ∨ o = 12)
    (h : actsNow b port (evBase + 0x40 + o + 32 * n) v = true) : regWriteAt port (evBase + 0x40 + o + 32 * n) 4 v b =
      flush n (storeRw (evBase + 0x40 + o + 32 * n) v (granted port 5 b)) := by
  have hdiv : (evBase + 0x40 + o + 32 * n) / 4096 = 5 := by simp only [evBase]; omega
  have hmod : (evBase + 0x40 + o + 32 * n) % 4096 = 0x40 + o + 32 * n := by simp only [evBase]; omega
  have hreg : (evBase + 0x40 + o + 32 * n) % 32 = 8 ∨ (evBase + 0x40 + o + 32 * n) % 32 = 12 := by simp only [evBase]; omega
  have hring : (0x40 + o + 32 * n - 0x40) / 32 = n := by omega
  have hpage : pageOf 5 = some (.ev, 0) := rfl
  have hrw (b : Block) : applyRw (evBase + 0x40 + o + 32 * n) v b = flush n (storeRw (evBase + 0x40 + o + 32 * n) v b) := by
    simp only [applyRw, hdiv, hmod, hpage]
    rw [if_neg (by omega), if_pos (by omega), applyRing, if_pos hreg, hmod, hring]
  have hw1c (b : Block) : applyW1c (evBase + 0x40 + o + 32 * n) v b = b := by
    rw [applyW1c, hmod, if_neg (by omega), if_neg (by simp only [evBase, rPW_ALERT, pwBase]; omega)]
  have hwo (b : Block) : applyWo port (evBase + 0x40 + o + 32 * n) v b = b := by
    simp only [applyWo, hdiv, hpage]
  rw [regWriteAt_acts _ _ _ _ h, hwo, hw1c, hrw, hdiv]

/-! ### The vector (15 R438) -/

section Vector

variable {n p : Nat} {b : Block} (hport : ringPort b n = some p)
include hport

/-- A ring's port has its ENABLE. -/
theorem enabled_of_ringPort : (chPort b p).cfgCtl.testBit 0 = true := by
  have hfor (h : Nat) (hp : portFor b h = some p) : (chPort b p).cfgCtl.testBit 0 = true := by
    have hcarries : portCarries b p = true := by
      rw [portFor] at hp
      split_ifs at hp with hown hother
      · rwa [← Option.some.inj hp]
      · rwa [← Option.some.inj hp]
    simp only [portCarries, portActive, Bool.and_eq_true] at hcarries
    exact hcarries.1.2
  rw [ringPort] at hport
  split at hport
  · exact hfor _ hport
  · exact hfor _ hport
  · exact hfor _ hport

theorem ringIntr_of_held {t : Nat} (hsent : (ring b n).sentAt = some t) (hnow : now b < t + 100 * get b (fEV_IRQ_MOD n)) :
    ringIntr n b = b := by
  simp only [ringIntr, hport, moderated, hsent, hnow, decide_true, Bool.not_true, Bool.and_false, Bool.false_eq_true, if_false]

theorem ringIntr_of_due (hdue : (ring b n).irqDue = true) (hon : (chPort b p).cfgCtl.testBit 1 = true)
    (hpast : ∀ t, (ring b n).sentAt = some t → t + 100 * get b (fEV_IRQ_MOD n) ≤ now b) :
    ringIntr n b = chSend p ⟨5, 0, 0, 0, get b (fEV_IRQ_VECTOR n), none, []⟩
      (setRing n { ring b n with irqDue := false, sentAt := some (now b) } b) := by
  have hmoderated : moderated b n = false := by
    rw [moderated]
    split
    case h_1 t ht => exact decide_eq_false (hpast t ht).not_gt
    case h_2 => rfl
  have hbits : (chPort b p).cfgCtl % 4 = 3 := by
    have h0 := enabled_of_ringPort hport
    rw [Nat.testBit_eq_decide_div_mod_eq, decide_eq_true_eq] at h0 hon
    omega
  simp only [ringIntr, hport, hdue, hmoderated, Bool.not_false, Bool.and_self, if_true]
  exact if_pos hbits

end Vector

/-! ### The obligation -/

/-- Settles O53: the record in the slot that an open ring writes, the backlog of a blocked one, the host's writes and the vector. -/
theorem eventRings : Obligations.EventRings := by
  intro s r port v x
  refine ⟨fun e rest hposted => ⟨fun hopen hslot hdropped hwaiting hmem => ?opened, fun hblocked hroom => ?blocked, fun hblocked hfull => ?full⟩,
    fun hacts => ?head, fun hacts => ?cfg, fun p hport hdue hon => ⟨fun hpast => ?sent, fun t hsent hnow => ?held⟩⟩
  case opened =>
    refine ⟨_, run_of_eq (recordWrite_of_open hposted hopen hslot hdropped hwaiting), ?_⟩
    generalize hx : ({ ring s.blk r with posted := rest, waiting := [] } : Ring) = y
    have hpa := slotPa_setRing r y s.blk
    refine ⟨?_, ?_, ?_, ?_, fun i hi => ?_, fun a ha => ?_⟩
    · rw [evTail_writeSlot, evTail, get_setRing, ← evTail]
    · rw [ring_writeSlot, ring_setRing, ← hx]
    · rw [ring_writeSlot, ring_setRing, ← hx]
    · rw [ring_writeSlot]
    · rw [memByte_writeSlot, hpa, evTail, get_setRing, get_setRing, ← evTail, memByte_memWrite_at]
      rw [eventBytes_length]
      exact hi
    · rw [memByte_writeSlot, hpa, memByte_memWrite_ne _ _ _ _ (by rwa [eventBytes_length]), memByte, setRing_mem, ← memByte]
  case blocked => exact run_of_eq (recordWrite_of_blocked hposted hblocked hroom)
  case full => exact run_of_eq (recordWrite_of_full hposted hblocked hfull)
  case head => exact run_of_eq (regWriteAt_ring r.isLt (.inr rfl) hacts)
  case cfg => exact run_of_eq (regWriteAt_ring r.isLt (.inl rfl) hacts)
  case sent => exact ⟨run_of_eq (ringIntr_of_due hport hdue hon hpast), run_of_eq (ringIntr_of_due hport hdue hon hpast)⟩
  case held => exact ⟨run_of_eq (ringIntr_of_held hport hsent hnow), run_of_eq (ringIntr_of_held hport hsent hnow)⟩

end Sys2Proof.Machine
end

section
/-!
PROOFS. Watchdogs (16 R445, R453–R457): the fires, the services and the restart limit, and the obligation `Watchdogs`.
-/

namespace Sys2Proof.Machine

/-! ### Fires (16 R453–R457) -/

section Core

variable {n : Nat} {b : Block} (hon : coreOn b n = true)
include hon

theorem coreFire_eq : coreFire n b =
    let b' := bump (fCL_CORE_FIRES n) 1 (fireProc (4 + n) b)
    if stepsNow b (4 + n) then rollStepFail b'
    else if thirdFire b' (4 + n) then failCluster n 3 (restarted (4 + n) 1 2 (setProc (4 + n) { proc b' (4 + n) with heldDown := true } b'))
    else put (fCL_CORE_STATE n) 1 (abortWhere (fun m => m.mask.testBit n) 0x25 n b') :=
  if_neg (by simp [hon])

end Core

section Processor

variable {p : Nat} {b : Block} (hon : procOn b p = true) (hroll : stepsNow b p = false)
include hon hroll

/-- A fire of SCH that is not its third within 1 s, while an RCX core runs (16 R454). -/
theorem schFire_of_first (hp : p = 2) (hfirst : thirdFire (fireProc 2 b) 2 = false) (hcores : rcxCores (fireProc 2 b) ≠ 0) (us : Nat) :
    schFire us b = settleWho (put fSC_DISPATCH_SCH_STATE 1 (put fSC_FW_TAKE_LAST_US (min us 50) (fireProc 2 b))) := by
  subst hp
  have hfirst' : thirdFire (put fSC_FW_TAKE_LAST_US (min us 50) (fireProc 2 b)) 2 = false := hfirst
  simp only [schFire, hon, hroll, hcores, hfirst', Bool.not_true, Bool.false_eq_true, if_false]

theorem rcxFire_of_running {c : Nat} (hp : p = 40 + c) :
    rcxFire c b = settleWho (put ⟨rSC_DISPATCH, 8 + c, 8 + c⟩ 0 (fireProc (40 + c) b)) := by
  subst hp
  simp only [rcxFire, hon, hroll, Bool.not_true, Bool.false_eq_true, if_false]

theorem pwrFire_of_running (hp : p = 1) : pwrFire b = put fPW_FW_PWR_STATE 1 (fireProc 1 b) := by
  subst hp
  simp only [pwrFire, hon, hroll, Bool.not_true, Bool.false_eq_true, if_false]

/-- What SEC was at is put back, ended or paused (16 R457). -/
theorem secFire_of_running (hp : p = 0) : secFire b =
    let b := fireProc 0 b
    let b := if get b fSEC_ATT_STAT_STATE = 2 then put fSEC_ATT_STAT_STATE 1 b else b
    let b := if fwState b = 1 then stageRefused 6 b else b
    if fwState b = 4 ∨ fwState b = 5 then setFw (fun f => { f with paused := true }) b else b := by
  subst hp
  simp only [secFire, hon, hroll, Bool.not_true, Bool.false_eq_true, if_false]

end Processor

theorem fwState_put_att (v : Nat) (b : Block) : fwState (put fSEC_ATT_STAT_STATE v b) = fwState b := get_put_off_ne b v (by decide)

/-- A STAGE that ends without an image leaves the idle state. -/
theorem stageRefused_of_empty {result : Nat} {b : Block} (h : b.fw.staged = []) :
    stageRefused result b = raise 3 32 (setFwResult result (setFwState 0 b)) := by
  simp only [stageRefused, stageIdle, h, List.isEmpty_nil, if_true]

theorem fwState_refused (result : Nat) (b : Block) : fwState (raise 3 32 (setFwResult result (setFwState 0 b))) = 0 := by
  rw [fwState, get_raise_ne 3 _ (by decide), setFwResult, get_put_ne _ _ (by decide) (by decide), setFwState,
    get_put_self _ _ _ (by decide), Nat.zero_mod]

/-! ### Services (16 R445) -/

section Service

variable (take : Block → Block) {p : Nat} {b : Block} (near : Bool) (ups : List Upset) (hon : procOn b p = true)
include hon

theorem watchdogService_of_up (hup : (proc b p).down = false) :
    watchdogService take p near ups b = if near then nearMissed p b else b := by
  simp only [watchdogService, hon, hup, Bool.not_true, Bool.not_false, Bool.false_eq_true, if_false, if_true]

variable (hdown : (proc b p).down = true)
include hdown

theorem watchdogService_of_spoilt (hload : (restartLoad p ups b).1 = false) :
    watchdogService take p near ups b = (restartLoad p ups b).2 := by
  simp only [watchdogService, hon, hdown, hload, Bool.not_true, Bool.not_false, Bool.false_eq_true, if_false, if_true]

/-- Outside the steps of a roll the first service ends the restart. -/
theorem watchdogService_of_loaded {n : Block} (hload : (restartLoad p ups b).1 = true)
    (hn : (if near then nearMissed p (restartLoad p ups b).2 else (restartLoad p ups b).2) = n) (hstate : fwState n < 4) :
    watchdogService take p near ups b =
      serviceEffects take p (setProc p { proc (restarted p 1 1 n) p with down := false } (restarted p 1 1 n)) := by
  have hroll : (fwState n == 5) = false := by simpa using (show fwState n ≠ 5 by omega)
  simp only [watchdogService, hon, hdown, hload, hn, hroll, Bool.not_true, Bool.false_and, Bool.false_eq_true, if_false]

end Service

section Effects

variable (take : Block → Block) {b : Block}

theorem serviceEffects_core {n : Nat} (hn : n < 32) (hstate : fwState b < 4) :
    serviceEffects take (4 + n) b = put (fCL_CORE_STATE n) 0 (releaseCluster b n) := by
  have hroll : (fwState b == 4) = false := by simpa using hstate.ne
  have hcore : 4 ≤ 4 + n ∧ 4 + n < 36 := by omega
  simp only [serviceEffects, hcore, hroll, Bool.false_and, Bool.false_eq_true, if_false, if_true, Nat.add_sub_cancel_left, and_self]

theorem serviceEffects_rcx (c : Nat) : serviceEffects take (40 + c) b =
    tryDecide (serviceEffects.takeover (settleWho (put ⟨rSC_DISPATCH, 8 + c, 8 + c⟩ 1 (bump fSC_FW_CNT_RCX_RESTARTS 1 b))) b) := by
  have hother : ¬ (4 ≤ 40 + c ∧ 40 + c < 36) := by omega
  have hcancel : 40 + c - 40 = c := Nat.add_sub_cancel_left ..
  simp only [serviceEffects, hother, if_false]
  split
  case h_1 h => omega
  case h_2 h => omega
  case h_3 h => omega
  case h_4 => rw [hcancel]

end Effects

/-! ### The restart limit (16 R445) -/

theorem restartMissed_core {n : Nat} {b : Block} (hn : n < 32) (hdown : (proc b (4 + n)).down = true) (hon : procOn b (4 + n) = true) :
    restartMissed (4 + n) b =
      let b := setProc (4 + n) { proc b (4 + n) with late := true } b
      failCluster n 2 (failedBack (restarted (4 + n) 2 2 (setProc (4 + n) { proc b (4 + n) with heldDown := true } b))) := by
  have hcore : 4 ≤ 4 + n ∧ 4 + n < 36 := by omega
  simp only [restartMissed, hdown, hon, hcore, Bool.not_true, Bool.or_self, Bool.false_eq_true, if_false, if_true, Nat.add_sub_cancel_left,
    and_self]

/-! ### The obligation -/

/-- Settles O54: the fires, services and limits by the branches of their conditions. -/
theorem watchdogs : Obligations.Watchdogs := by
  intro s cl core us p near ups fires
  refine ⟨fun hon hroll => ⟨fun hfirst => ?core, fun hthird => ?third⟩, fun hon hroll => ?coreStep, fun ⟨hon, hroll⟩ hfirst hcores => ?sch,
    fun ⟨hon, hroll⟩ => ?rcx, fun ⟨hon, hroll⟩ => ?pwr, fun hdown => ?absent, fun ⟨hon, hroll⟩ => ?sec, fun hon => ?service,
    fun take b hstate => ⟨rfl, ?effCore, ?effRcx, rfl, rfl⟩, fun hdown hon => ?limit⟩
  case core => exact run_of_eq ((coreFire_eq hon).trans ((if_neg (by simp [hroll])).trans (if_neg (by simpa using hfirst))))
  case third => exact run_of_eq ((coreFire_eq hon).trans ((if_neg (by simp [hroll])).trans (if_pos hthird)))
  case coreStep => exact run_of_eq ((coreFire_eq hon).trans (if_pos hroll))
  case sch => exact run_of_eq (schFire_of_first hon hroll rfl hfirst hcores us)
  case rcx => exact run_of_eq (rcxFire_of_running hon hroll rfl)
  case pwr => exact run_of_eq (pwrFire_of_running hon hroll rfl)
  case absent => exact run_of_eq (if_pos hdown)
  case sec =>
    have hrow := secFire_of_running hon hroll rfl
    refine ⟨fun hatt hidle => run_of_eq (hrow.trans ?_), fun hatt hstage hempty => run_of_eq (hrow.trans ?_),
      fun hatt hrolls => run_of_eq (hrow.trans ?_)⟩
    · have hidle' := (fwState_put_att 1 (fireProc 0 s.blk)).trans hidle
      simp only [hatt, if_true, hidle', Nat.zero_ne_one, if_false]
      exact if_neg (by decide)
    · simp only [hatt, if_false, hstage, if_true, stageRefused_of_empty hempty, fwState_refused]
      rfl
    · have hother : fwState (fireProc 0 s.blk) ≠ 1 := by omega
      simp only [hatt, if_false, hother, hrolls, if_true]
  case service =>
    exact ⟨fun hup => run_of_eq (watchdogService_of_up _ _ _ hon hup), fun hdown =>
      ⟨fun hload => run_of_eq (watchdogService_of_spoilt _ _ _ hon hdown hload),
       fun hload hstate => run_of_eq (watchdogService_of_loaded _ _ _ hon hdown hload rfl hstate)⟩⟩
  case effCore => exact serviceEffects_core take cl.isLt hstate
  case effRcx => exact serviceEffects_rcx take core
  case limit => exact run_of_eq (restartMissed_core cl.isLt hdown hon)

end Sys2Proof.Machine
end

section
/-!
PROOFS. Staging, activation and the steps of a firmware roll (16 R460–R464, 18 R500, R501), and the obligation `Rolls`.
-/

namespace Sys2Proof.Machine

/-! ### A write of SEC_FW_CTL (16 R460, R461) -/

theorem writeNat_fwCtl {port : Port} {cmd : Nat} {b : Block} (hcmd : cmd < 4) (h : actsNowNat b port rSEC_FW_CTL cmd = true) :
    writeNat port rSEC_FW_CTL cmd b = fwCommand cmd (storeRw rSEC_FW_CTL (BitVec.ofNat 32 cmd) (granted port 3 b)) := by
  have hwo (v : W32) (b : Block) : applyWo port rSEC_FW_CTL v b = fwCommand (field v 1 0) b := rfl
  have hfield : field (BitVec.ofNat 32 cmd) 1 0 = cmd := by
    simp only [field, BitVec.toNat_ofNat, Nat.shiftRight_eq_div_pow]
    omega
  rw [writeNat, regWriteAt_acts _ _ _ _ h, hwo, hfield]
  rfl

/-- The store of the command leaves the roll's state. -/
theorem fwState_fwCtl (port : Port) (v : W32) (b : Block) : fwState (storeRw rSEC_FW_CTL v (granted port 3 b)) = fwState b := by
  rw [fwState, storeRw, get_wr_ne _ _ (by decide), get_granted, ← fwState]

theorem fw_fwCtl (port : Port) (v : W32) (b : Block) : (storeRw rSEC_FW_CTL v (granted port 3 b)).fw = b.fw := by
  rw [storeRw, wr_fw, granted_fw]

/-! ### Staging (16 R460, 18 R500) -/

section Staging

variable {b : Block} (hstate : fwState b = 1) (hverified : unverified b = false)
include hstate hverified

theorem stageComplete_eq : stageComplete b =
    let pa := rd64 b rSEC_FW_SRC_LO
    let n := get b fSEC_FW_LEN_BYTES
    if !rangeReachable b pa n || anyPoison b pa n then stageRefused 5 b
    else
      let img := memBytes b pa n
      let r := verifyImage b img (some n)
      if r = 0 then
        let b := setFw (fun f => { f with staged := img }) b
        raise 3 16 (setFwResult 1 (setFwState 2 (put fSEC_FW_STAGED_EPOCH (imageEpoch img) b)))
      else stageRefused r b :=
  if_neg (by simp [hstate, hverified])

end Staging

/-! ### Activation (16 R461) -/

/-- The roll waits. -/
def rollWaits (b : Block) : Block := put fSEC_FW_WAIT_SECONDS 0 (setFwState 3 (setFw (fun f => { f with waited := 0 }) b))

theorem activate_of_may {b : Block} (hmay : rollMay (rollWaits b) = true) (hquiet : (rollWaits b).fw.fd1Quiet = true) :
    activate b = rollBegin (rollWaits b) := by
  rw [activate, ← rollWaits]
  exact if_pos (by rw [hmay, hquiet]; rfl)

theorem activate_of_held {b : Block} (h : rollMay (rollWaits b) = false ∨ (rollWaits b).fw.fd1Quiet = false) :
    activate b = rollWaits b := by
  rw [activate, ← rollWaits]
  exact if_neg (by rcases h with h | h <;> simp [h])

theorem fwDiscard_of_staged {b : Block} (hstate : fwState b = 2) (hstaged : b.fw.staged ≠ []) : fwDiscard b =
    setFwResult 9 (setFwState 0 (put fSEC_FW_STAGED_EPOCH 0 (setFw (fun f => { f with staged := [] }) b))) := by
  have hsome : b.fw.staged.isEmpty = false := by simpa using hstaged
  have hother : fwState (put fSEC_FW_STAGED_EPOCH 0 (setFw (fun f => { f with staged := [] }) b)) ≠ 1 := by
    have hkeep : fwState (put fSEC_FW_STAGED_EPOCH 0 (setFw (fun f => { f with staged := [] }) b)) = fwState b :=
      get_put_off_ne (setFw (fun f => { f with staged := [] }) b) 0 (by decide)
    omega
  simp only [fwDiscard, hsome, Bool.false_eq_true, if_false, hother]

theorem stagingAndActivation : Claims.StagingAndActivation := by
  intro s port w
  refine ⟨fun hacts hruns => ?stage, fun hclear hstate hverified => ?complete, fun hacts => ?activate, fun hacts hstate hstaged => ?discard,
    fun hmay hstate => ?start, fun hstate => ?deferred⟩
  case stage => exact run_of_eq ((writeNat_fwCtl (by decide) hacts).trans (if_pos hruns))
  case complete =>
    have hrow := (hostGated_active _ _ hclear).trans (stageComplete_eq hstate hverified)
    refine ⟨fun hsource hempty => run_of_eq (hrow.trans ?_), fun hreach hclean =>
      ⟨fun hr => run_of_eq (hrow.trans ?_), fun hr hempty => run_of_eq (hrow.trans ?_)⟩⟩
    · rw [← stageRefused_of_empty hempty]
      exact if_pos (by rcases hsource with h | h <;> simp [h])
    · exact (if_neg (by simp [hreach, hclean])).trans (if_pos hr)
    · rw [← stageRefused_of_empty hempty]
      exact (if_neg (by simp [hreach, hclean])).trans (if_neg hr)
  case activate =>
    have hrow : writeNat port rSEC_FW_CTL 2 s.blk = activate (w 2) := writeNat_fwCtl (by decide) hacts
    exact ⟨fun hmay hquiet => run_of_eq (hrow.trans (activate_of_may hmay hquiet)), fun h => run_of_eq (hrow.trans (activate_of_held h))⟩
  case discard =>
    exact run_of_eq ((writeNat_fwCtl (by decide) hacts).trans (fwDiscard_of_staged ((fwState_fwCtl ..).trans hstate) (by rwa [fw_fwCtl])))
  case start => exact run_of_eq ((if_neg (by simp [hmay])).trans (if_pos hstate))
  case deferred => exact run_of_eq (if_pos (.inl hstate))

/-! ### What a step leaves (16 R462) -/

/-- The firmware's state, SEC's page, the fuses, memory and the commands are as before. -/
structure StatusOnly (b b' : Block) : Prop where
  fw : b'.fw = b.fw
  sec : ∀ f : Fld, f.off / 4096 = 3 → get b' f = get b f
  fuses : b'.fuses = b.fuses
  mem : b'.mem = b.mem
  cmds : b'.cmds = b.cmds

namespace StatusOnly

variable {b b' : Block}

theorem refl (b : Block) : StatusOnly b b := ⟨rfl, fun _ _ => rfl, rfl, rfl, rfl⟩

theorem put (h : StatusOnly b b') {f : Fld} (hf : f.off / 4096 ≠ 3) (v : Nat) : StatusOnly b (put f v b') :=
  ⟨h.fw, fun g hg => (get_put_off_ne b' v fun heq => hf (by rw [heq, hg])).trans (h.sec g hg), h.fuses, h.mem, h.cmds⟩

theorem settleWho (h : StatusOnly b b') : StatusOnly b (settleWho b') := h.put (by decide) _

/-- The status of a processor that is no control core. -/
theorem stepStatus {p : Nat} (hp : p < 4) (st : Nat) (b : Block) : StatusOnly b (stepStatus p st b) := by
  match p, hp with
  | 0, _ => exact .refl b
  | 1, _ => exact (refl b).put (by decide) st
  | 2, _ =>
    rw [Machine.stepStatus]
    split
    · exact (refl b).settleWho
    · exact ((refl b).put (by decide) st).settleWho
  | 3, _ => exact ((refl b).put (by decide) _).settleWho

/-- PWR returns with nothing that waited for it. -/
theorem pwrReturn (h : StatusOnly b b') (hwrites : b.fw.pwrWrites = []) (hposts : b.fw.pwrPosts = []) (hheld : b'.act.held = []) :
    StatusOnly b (pwrReturn b') := by
  have hsame : setFw (fun f => { f with pwrWrites := [], pwrPosts := [] }) b' = b' := by
    have hwrites' : b'.fw.pwrWrites = [] := h.fw ▸ hwrites
    have hposts' : b'.fw.pwrPosts = [] := h.fw ▸ hposts
    rw [setFw, ← hwrites', ← hposts']
  have hreturn : Machine.pwrReturn b' = b' := by
    simp only [Machine.pwrReturn, h.fw, hwrites, hposts, hsame, List.foldl_nil, hheld, List.isEmpty_nil, if_true]
  rwa [hreturn]

theorem procUp {p : Nat} (hp : p < 4) (hpwr : p = 1 → b.fw.pwrWrites = [] ∧ b.fw.pwrPosts = [] ∧ b.act.held = []) :
    StatusOnly b (procUp p b) := by
  by_cases h1 : p = 1
  · subst h1
    obtain ⟨hwrites, hposts, hheld⟩ := hpwr rfl
    exact (stepStatus (by decide) 0 b).pwrReturn hwrites hposts hheld
  · have hup : Machine.procUp p b = Machine.stepStatus p 0 b := by
      rw [Machine.procUp]
      exact h1
    rw [hup]
    exact stepStatus hp 0 b

end StatusOnly

/-! ### The image store (16 R459) -/

/-- The store once a processor's units have loaded their sections. -/
def storeLoaded (img : List Byte) (l : List Nat) (m : SMap (List Byte)) : SMap (List Byte) :=
  l.foldl (fun m u => mapSet [] m u (sectionBytes img (sectionOf u))) m

theorem loadStep_eq (img : List Byte) (b : Block) (p : Nat) :
    loadStep img b p = setFw (fun f => { f with store := storeLoaded img (unitProcs p) f.store }) b := by
  rw [loadStep]
  induction unitProcs p generalizing b with
  | nil => rfl
  | cons u l ih => exact ih (loadStore img b u)

theorem mapGet_storeLoaded (img : List Byte) {l : List Nat} {m : SMap (List Byte)} {u : Nat}
    (h : u ∈ l ∨ mapGet [] m u = sectionBytes img (sectionOf u)) : mapGet [] (storeLoaded img l m) u = sectionBytes img (sectionOf u) := by
  induction l generalizing m with
  | nil => exact h.resolve_left List.not_mem_nil
  | cons x l ih =>
    refine ih ?_
    by_cases hx : x = u
    · subst hx
      exact .inr (mapGet_set_self ..)
    · rw [mapGet_set_ne _ _ _ hx]
      exact h.imp_left fun hu => (List.mem_cons.1 hu).resolve_left (Ne.symm hx)

/-! ### The steps of a roll (16 R462) -/

/-- A processor has stepped to the staged image. -/
def stepTaken (p : Nat) (b : Block) : Block :=
  let b := setFw (fun f => { f with
    stepping := none
    halted := false
    stepped := p :: f.stepped
    runMap := withBit f.runMap p (p != 0) }) (loadStep b.fw.staged b p)
  put fSEC_FW_STAT_ROLL_POS (get b fSEC_FW_STAT_ROLL_POS + 1) b

theorem rollStepComplete_of_forward {p : Nat} {b : Block} (hp : p < 4) (hstate : fwState b = 4) (hstep : b.fw.stepping = some p)
    (hmay : stepMay b p = true) : rollStepComplete b = nextStep 40 (stepTaken p (procUp p b)) := by
  have hback : (fwState b == 5) = false := by rw [hstate]; rfl
  have hother : ¬ (fwState b = 5 ∧ b.fw.failed = some p) := by omega
  have himage (v : Nat) (b : Block) : newImage p v b = b := if_neg (by omega)
  simp only [rollStepComplete, hstep, hother, hmay, hback, himage, Bool.not_true, Bool.false_and, Bool.false_eq_true, if_false, Bool.not_false,
    Bool.true_and]
  rfl

/-- The firmware's state once a processor has stepped. -/
def fwTaken (p : Nat) (f : Fw) : Fw :=
  { f with
    store := storeLoaded f.staged (unitProcs p) f.store
    stepping := none
    halted := false
    stepped := p :: f.stepped
    runMap := withBit f.runMap p (p != 0) }

theorem stepTaken_eq (p : Nat) (b : Block) :
    stepTaken p b = put fSEC_FW_STAT_ROLL_POS (get b fSEC_FW_STAT_ROLL_POS + 1) { b with fw := fwTaken p b.fw } := by
  rw [stepTaken, loadStep_eq]
  rfl

theorem fw_stepTaken (p : Nat) (b : Block) : (stepTaken p b).fw = fwTaken p b.fw := by rw [stepTaken_eq, put_fw]

theorem fwState_stepTaken (p : Nat) (b : Block) : fwState (stepTaken p b) = fwState b := by
  rw [stepTaken_eq, fwState, get_put_ne _ _ (by decide) (by decide)]
  rfl

theorem rollPos_stepTaken {p : Nat} {b : Block} (h : get b fSEC_FW_STAT_ROLL_POS < 36) :
    get (stepTaken p b) fSEC_FW_STAT_ROLL_POS = get b fSEC_FW_STAT_ROLL_POS + 1 := by
  rw [stepTaken_eq, get_put_self _ _ _ (by decide)]
  exact Nat.mod_eq_of_lt (show _ < 2 ^ 6 by omega)

section Next

variable {b : Block} (hpaused : b.fw.paused = false) (hidle : b.fw.stepping = none)
include hpaused hidle

/-- A processor that is no control core takes the next step. -/
theorem nextStep_of_processor {q : Nat} {rest : List Nat} (horder : b.fw.order = q :: rest) (hq : q < 4) (f : Nat) :
    nextStep (f + 1) b = setFw (fun w => { w with order := rest, stepping := some q, halted := false }) b := by
  have hskip (b : Block) : stepSkipped b q = false := by simp [stepSkipped, hq]
  simp only [nextStep, hpaused, hidle, horder, hskip, Option.isSome_none, Bool.or_self, Bool.false_eq_true, if_false]
  rfl

theorem nextStep_of_last (horder : b.fw.order = []) (hstate : fwState b = 4) (f : Nat) : nextStep (f + 1) b = rollDone b := by
  have hforward : fwState b ≠ 5 := by omega
  simp only [nextStep, hpaused, hidle, horder, hforward, Option.isSome_none, Bool.or_self, Bool.false_eq_true, if_false]

end Next

/-- An attestation that waited is taken up; that changes the attestation alone. -/
theorem rollStepRow_keeps {β : Type} (g : Block → β) (hput : ∀ b f v, f.off = secBase + 0x5C → g (put f v b) = g b)
    (hnonce : ∀ b n, g { b with attNonce := n } = g b) (b : Block) : g (rollStepRow attStart b) = g (rollStepComplete b) := by
  rw [rollStepRow]
  split
  case isTrue =>
    rw [secBack]
    split
    case isTrue => rw [attStart, hput _ _ _ rfl, hput _ _ _ rfl, hnonce]
    case isFalse => rfl
  case isFalse => rfl

/-! ### The end of a roll (18 R501) -/

/-- The slot last written after one slot is written: its own, or the one before. -/
theorem getLastD_filterMap_set {α : Type} (l : List (Option α)) (k : Nat) (x d : α) :
    ((l.set k (some x)).filterMap id).getLastD d = x ∨ ((l.set k (some x)).filterMap id).getLastD d = (l.filterMap id).getLastD d := by
  induction l generalizing k d with
  | nil => exact .inr rfl
  | cons a l ih =>
    cases k with
    | zero =>
      rw [List.set_cons_zero, List.filterMap_cons_some (f := id) rfl, List.getLastD_cons]
      cases hl : l.filterMap id with
      | nil => exact .inl rfl
      | cons z t =>
        refine .inr ?_
        cases a with
        | none => rw [List.filterMap_cons_none (f := id) rfl, hl, List.getLastD_cons, List.getLastD_cons]
        | some y => rw [List.filterMap_cons_some (f := id) rfl, hl, List.getLastD_cons, List.getLastD_cons, List.getLastD_cons]
    | succ k =>
      rw [List.set_cons_succ]
      cases a with
      | none =>
        rw [List.filterMap_cons_none (f := id) rfl, List.filterMap_cons_none (f := id) rfl]
        exact ih k d
      | some y =>
        rw [List.filterMap_cons_some (f := id) rfl, List.filterMap_cons_some (f := id) rfl, List.getLastD_cons, List.getLastD_cons]
        exact ih k y

theorem leNat_lt (l : List Byte) : leNat l < 256 ^ l.length := by
  induction l with
  | nil => simp [leNat]
  | cons v l ih =>
    have hv := v.isLt
    simp only [leNat, List.length_cons, Nat.pow_succ]
    omega

theorem imageEpoch_lt (img : List Byte) : imageEpoch img < 2 ^ 32 := by
  have hlt := leNat_lt ((img.drop 4).take 4)
  have hlength : ((img.drop 4).take 4).length ≤ 4 := List.length_take_le ..
  exact hlt.trans_le (Nat.pow_le_pow_right (n := 256) (by decide) hlength)

/-- The floor does not fall. -/
theorem rollbackFloor_le_raised (img : List Byte) (b : Block) : rollbackFloor b ≤ rollbackFloor (raiseAndRevoke img b) := by
  have hfloors : (raiseAndRevoke img b).fuses.floors =
      if (imageFlags img).testBit 0 && decide (rollbackFloor b < imageEpoch img) then
        b.fuses.floors.setIfInBounds (floorsWritten b).length (some (BitVec.ofNat 32 (imageEpoch img)))
      else b.fuses.floors := rfl
  have hvalue : (BitVec.ofNat 32 (imageEpoch img)).toNat = imageEpoch img := Nat.mod_eq_of_lt (imageEpoch_lt img)
  conv_rhs => rw [rollbackFloor, floorsWritten, hfloors]
  split
  case isTrue hup =>
    obtain ⟨-, habove⟩ : (imageFlags img).testBit 0 = true ∧ rollbackFloor b < imageEpoch img := by simpa using hup
    rw [Vector.toList_setIfInBounds]
    rcases getLastD_filterMap_set b.fuses.floors.toList (floorsWritten b).length (BitVec.ofNat 32 (imageEpoch img)) 0 with h | h
    · rw [h, hvalue]
      exact habove.le
    · rw [h, rollbackFloor, floorsWritten]
  case isFalse => exact le_refl (rollbackFloor b)

/-- The registers of a control core's image, on its cluster's page. -/
theorem rollClear_keeps {β : Type} (g : Block → β) (hput : ∀ b f v, 0x10 ≤ f.off / 4096 → g (put f v b) = g b)
    (hfw : ∀ b f, g { b with fw := f } = g b) (b : Block) : g (rollClear b) = g b := by
  have himage (b : Block) (n : Nat) : g (newImage (4 + n) 0 b) = g b := by
    rw [newImage]
    split
    · exact hput _ _ _ (by simp only [fCL_CORE_NEW_IMAGE, clBase]; omega)
    · rfl
  exact (hfw _ _).trans (foldl_keeps g _ himage _ b)

/-- No roll is under way. -/
def fwCleared (f : Fw) : Fw :=
  { f with runMap := 0, order := [], stepping := none, halted := false, stepped := [], failed := none, paused := false }

theorem fw_rollClear (b : Block) : (rollClear b).fw = fwCleared b.fw := by
  have himage (b : Block) (n : Nat) : (newImage (4 + n) 0 b).fw = b.fw := by
    rw [newImage]
    split <;> rfl
  have hfold := foldl_keeps Block.fw (fun b n => newImage (4 + n) 0 b) himage (List.range 32) b
  rw [rollClear, ← hfold]
  rfl

/-- The banks have switched. -/
def banksSwitched (b : Block) : Block := rollClear (setFw (fun f => { f with active := b.fw.staged, staged := [] }) b)

theorem fw_banksSwitched (b : Block) : (banksSwitched b).fw = fwCleared { b.fw with active := b.fw.staged, staged := [] } :=
  fw_rollClear _

theorem fuses_banksSwitched (b : Block) : (banksSwitched b).fuses = b.fuses :=
  rollClear_keeps Block.fuses (fun _ _ _ _ => rfl) (fun _ _ => rfl) _

theorem cmds_banksSwitched (b : Block) : (banksSwitched b).cmds = b.cmds :=
  rollClear_keeps Block.cmds (fun _ _ _ _ => rfl) (fun _ _ => rfl) _

/-- ACTIVATED and the epoch are shown. -/
def activatedShown (e : Nat) (b : Block) : Block :=
  setFwResult 7 (setFwState 0 (put fSEC_FW_STAGED_EPOCH 0 (put fSEC_FW_EPOCH_EPOCH e b)))

theorem rollDone_eq (b : Block) : rollDone b = raise 3 64 (fwActivated (imageEpoch b.fw.staged) 0 0
    (activatedShown (imageEpoch b.fw.staged) (raiseAndRevoke b.fw.staged (banksSwitched b)))) := by
  simp only [rollDone, activatedShown, banksSwitched]

section Activated

variable (e : Nat) (b : Block)

theorem fwState_activatedShown : fwState (activatedShown e b) = 0 := by
  rw [activatedShown, fwState, setFwResult, get_put_ne _ _ (by decide) (by decide), setFwState, get_put_self _ _ _ (by decide), Nat.zero_mod]

theorem result_activatedShown : get (activatedShown e b) fSEC_FW_STAT_RESULT = 7 := get_put_self _ _ _ (by decide)

theorem epoch_activatedShown (he : e < 2 ^ 32) : get (activatedShown e b) fSEC_FW_EPOCH_EPOCH = e := by
  rw [activatedShown, setFwResult, get_put_off_ne _ _ (by decide), setFwState, get_put_off_ne _ _ (by decide),
    get_put_off_ne _ _ (by decide), get_put_self _ _ _ (by decide)]
  exact Nat.mod_eq_of_lt he

end Activated

theorem get_rollDone (b : Block) {f : Fld} (hf : f.off ≠ rBLK_EVT_RAW (pageBase 3)) : get (rollDone b) f =
    get (activatedShown (imageEpoch b.fw.staged) (raiseAndRevoke b.fw.staged (banksSwitched b))) f := by
  rw [rollDone_eq, get_raise_ne 3 _ hf, fwActivated, post, postTo, get_setRing]

/-- What the end of a roll shows leaves the rest of the block. -/
theorem rollDone_keeps {β : Type} (g : Block → β) (hwr : ∀ b o v, g (wr b o v) = g b) (hring : ∀ b n r, g (setRing n r b) = g b)
    (b : Block) : g (rollDone b) = g (raiseAndRevoke b.fw.staged (banksSwitched b)) := by
  have hput (f : Fld) (v : Nat) (b : Block) : g (put f v b) = g b := hwr _ _ _
  rw [rollDone_eq, raise_keeps g (fun _ _ _ _ => hwr _ _ _) hring, fwActivated, post, postTo, hring, activatedShown, setFwResult, hput,
    setFwState, hput, hput, hput]

theorem raiseAndRevoke_fw (img : List Byte) (b : Block) : (raiseAndRevoke img b).fw = b.fw := rfl

theorem raiseAndRevoke_cmds (img : List Byte) (b : Block) : (raiseAndRevoke img b).cmds = b.cmds := rfl

theorem fw_rollDone (b : Block) : (rollDone b).fw = fwCleared { b.fw with active := b.fw.staged, staged := [] } :=
  (rollDone_keeps Block.fw (fun _ _ _ => rfl) (fun _ _ _ => rfl) b).trans ((raiseAndRevoke_fw ..).trans (fw_banksSwitched b))

theorem cmds_rollDone (b : Block) : (rollDone b).cmds = b.cmds :=
  (rollDone_keeps Block.cmds (fun _ _ _ => rfl) (fun _ _ _ => rfl) b).trans ((raiseAndRevoke_cmds ..).trans (cmds_banksSwitched b))

theorem rollbackFloor_congr {b b' : Block} (h : b'.fuses = b.fuses) : rollbackFloor b' = rollbackFloor b := by
  rw [rollbackFloor, floorsWritten, h, ← floorsWritten, ← rollbackFloor]

theorem rollbackFloor_le_rollDone (b : Block) : rollbackFloor b ≤ rollbackFloor (rollDone b) := by
  have hraised := rollbackFloor_le_raised b.fw.staged (banksSwitched b)
  rwa [rollbackFloor_congr (fuses_banksSwitched b), ← rollbackFloor_congr (rollDone_keeps Block.fuses (fun _ _ _ => rfl) (fun _ _ _ => rfl) b)]
    at hraised

/-! ### A step that fails (16 R464) -/

theorem rollStepFail_of_alone {p : Nat} {b : Block} (hstate : fwState b = 4) (hstep : b.fw.stepping = some p) (hp : p ≠ 3)
    (hheld : (proc b p).heldDown = false) : rollStepFail b =
      stepStatus p 1 (setFwState 5 (setFw (fun f => { f with failed := some p, order := f.stepped, halted := true })
        (setProc p { proc b p with down := true, firedAt := now b } b))) := by
  have hforward : ¬ fwState b ≠ 4 := not_not.2 hstate
  simp only [rollStepFail, hstep, hforward, if_false, unitProcs, hp, List.foldl_cons, List.foldl_nil, hheld, Bool.false_eq_true]

/-! ### The obligation -/

/-- The roll as it starts, before its first step. -/
def rollSetOut (b : Block) : Block :=
  put fSEC_FW_STAT_ROLL_POS 0 (setFwState 4 (setFw (fun f =>
    { f with order := rollOrder, stepping := none, halted := false, stepped := [], failed := none, paused := false }) b))

theorem rollBegin_eq (b : Block) : rollBegin b = setFw (fun w =>
    { w with order := 2 :: 1 :: (List.range 32).map (fun n => 4 + n) ++ [0], stepping := some 3, halted := false }) (rollSetOut b) := by
  rw [rollBegin, ← rollSetOut]
  exact nextStep_of_processor (b := rollSetOut b) rfl rfl rfl (by decide) 39

theorem get_setFw (f : Fw → Fw) (b : Block) (x : Fld) : get (setFw f b) x = get b x := rfl

theorem rollBegins (b : Block) : fwState (rollBegin b) = 4 ∧ (rollBegin b).fw.stepping = some 3 ∧
    get (rollBegin b) fSEC_FW_STAT_ROLL_POS = 0 ∧ (rollBegin b).fw.order = 2 :: 1 :: (List.range 32).map (fun n => 4 + n) ++ [0] := by
  rw [rollBegin_eq]
  refine ⟨?_, rfl, ?_, rfl⟩
  · rw [fwState, get_setFw, rollSetOut, get_put_ne _ _ (by decide) (by decide), setFwState, get_put_self _ _ _ (by decide)]
    decide
  · rw [get_setFw, rollSetOut, get_put_self _ _ _ (by decide), Nat.zero_mod]

/-- What a step forward leaves of the roll: SEC's page outside FW_STAT, memory and the commands, and the firmware's state but for the step. -/
theorem stepForward {p : Nat} {b : Block} (hp : p < 4) (hpwr : p = 1 → b.fw.pwrWrites = [] ∧ b.fw.pwrPosts = [] ∧ b.act.held = []) :
    (stepTaken p (procUp p b)).fw = fwTaken p b.fw ∧ fwState (stepTaken p (procUp p b)) = fwState b ∧
      get (procUp p b) fSEC_FW_STAT_ROLL_POS = get b fSEC_FW_STAT_ROLL_POS ∧ (stepTaken p (procUp p b)).fuses = b.fuses ∧
      (stepTaken p (procUp p b)).mem = b.mem ∧ (stepTaken p (procUp p b)).cmds = b.cmds := by
  have hup := StatusOnly.procUp hp hpwr
  refine ⟨by rw [fw_stepTaken, hup.fw], ?_, hup.sec _ rfl, ?_, ?_, ?_⟩
  · rw [fwState_stepTaken]
    exact hup.sec _ rfl
  · rw [stepTaken_eq, put_fuses]
    exact hup.fuses
  · rw [stepTaken_eq, put_mem]
    exact hup.mem
  · rw [stepTaken_eq, put_cmds]
    exact hup.cmds

theorem rollSteps : Claims.RollSteps := by
  intro s
  refine ⟨rollBegins s.blk, fun p q rest hstate hstep horder hp1 hp4 hq hpaused hpwr hpos => ?forward,
    fun hstate hstep horder hpaused hatt => ?last, fun p hstate hstep ⟨hp, hp2⟩ hheld => ?fail⟩
  case forward =>
    have hmay : stepMay s.blk p = true := by
      rw [stepMay, if_neg (by omega), if_neg (by omega)]
    obtain ⟨hfw, hstate', hpos', -, hmem, hcmds⟩ := stepForward hp4 hpwr
    generalize htaken : stepTaken p (procUp p s.blk) = t at hfw hstate' hmem hcmds
    have hrow : rollStepComplete s.blk = setFw (fun w => { w with order := rest, stepping := some q, halted := false }) t := by
      rw [rollStepComplete_of_forward hp4 hstate hstep hmay, htaken]
      exact nextStep_of_processor (by rw [hfw]; exact hpaused) (by rw [hfw]; rfl) (by rw [hfw]; exact horder) hq 39
    have hkeeps {β : Type} (g : Block → β) (hput : ∀ b f v, f.off = secBase + 0x5C → g (put f v b) = g b)
        (hnonce : ∀ b n, g { b with attNonce := n } = g b) : g (rollStepRow attStart s.blk) =
          g (setFw (fun w => { w with order := rest, stepping := some q, halted := false }) t) := by
      rw [rollStepRow_keeps g hput hnonce, hrow]
    have hgot {f : Fld} (hf : secBase + 0x5C ≠ f.off) : get (rollStepRow attStart s.blk) f = get t f :=
      (hkeeps (get · f) (fun b x v hx => get_put_off_ne b v (by rwa [hx])) (fun _ _ => rfl)).trans (get_setFw ..)
    have hfw' := hkeeps Block.fw (fun _ _ _ _ => rfl) (fun _ _ => rfl)
    refine ⟨_, rfl, ?_, ?_, ?_, ?_, ?_, ?_, ?_, fun u hu => ?_⟩
    · rw [hfw']
      rfl
    · rw [hfw']
      rfl
    · rw [hfw', setFw, hfw]
      rfl
    · rw [hgot (by decide), ← htaken, rollPos_stepTaken (by omega), hpos']
    · rw [fwState, hgot (by decide), ← fwState, hstate', hstate]
    · exact (hkeeps Block.mem (fun _ _ _ _ => rfl) (fun _ _ => rfl)).trans hmem
    · exact (hkeeps Block.cmds (fun _ _ _ _ => rfl) (fun _ _ => rfl)).trans hcmds
    · rw [hfw', setFw, hfw]
      exact mapGet_storeLoaded _ (.inl hu)
  case last =>
    have hmay : stepMay s.blk 0 = true := by
      rw [stepMay, if_pos rfl]
      simpa using hatt
    obtain ⟨hfw, hstate', hpos', hfuses, hmem, hcmds⟩ := stepForward (p := 0) (b := s.blk) (by decide) (fun h => absurd h (by decide))
    generalize htaken : stepTaken 0 (procUp 0 s.blk) = t at hfw hstate' hfuses hmem hcmds
    have hstaged : t.fw.staged = s.blk.fw.staged := by rw [hfw]; rfl
    have hrow : rollStepComplete s.blk = rollDone t := by
      rw [rollStepComplete_of_forward (by decide) hstate hstep hmay, htaken]
      exact nextStep_of_last (by rw [hfw]; exact hpaused) (by rw [hfw]; rfl) (by rw [hfw]; exact horder) (hstate'.trans hstate) 39
    have hkeeps {β : Type} (g : Block → β) (hput : ∀ b f v, f.off = secBase + 0x5C → g (put f v b) = g b)
        (hnonce : ∀ b n, g { b with attNonce := n } = g b) : g (rollStepRow attStart s.blk) = g (rollDone t) := by
      rw [rollStepRow_keeps g hput hnonce, hrow]
    have hgot {f : Fld} (hf : secBase + 0x5C ≠ f.off) (hevt : f.off ≠ rBLK_EVT_RAW (pageBase 3)) :
        get (rollStepRow attStart s.blk) f =
          get (activatedShown (imageEpoch s.blk.fw.staged) (raiseAndRevoke s.blk.fw.staged (banksSwitched t))) f := by
      rw [← hstaged, ← get_rollDone t hevt]
      exact hkeeps (get · f) (fun b x v hx => get_put_off_ne b v (by rwa [hx])) (fun _ _ => rfl)
    have hfw' := (hkeeps Block.fw (fun _ _ _ _ => rfl) (fun _ _ => rfl)).trans (fw_rollDone t)
    refine ⟨_, rfl, ?_, ?_, ?_, ?_, ?_, ?_, ?_, ?_⟩
    · rw [fwState, hgot (by decide) (by decide), ← fwState, fwState_activatedShown]
    · rw [hgot (by decide) (by decide), result_activatedShown]
    · rw [hfw', ← hstaged]
      rfl
    · rw [hfw']
      rfl
    · rw [hfw']
      rfl
    · rw [hgot (by decide) (by decide), epoch_activatedShown _ _ (imageEpoch_lt _)]
    · exact (hkeeps Block.cmds (fun _ _ _ _ => rfl) (fun _ _ => rfl)).trans ((cmds_rollDone t).trans hcmds)
    · have hfloor := rollbackFloor_le_rollDone t
      rw [rollbackFloor_congr hfuses] at hfloor
      rwa [rollbackFloor_congr (hkeeps Block.fuses (fun _ _ _ _ => rfl) (fun _ _ => rfl))]
  case fail =>
    have hrow := rollStepFail_of_alone hstate hstep (by omega) hheld
    generalize hset : setFw (fun f => { f with failed := some p, order := f.stepped, halted := true })
      (setProc p { proc s.blk p with down := true, firedAt := now s.blk } s.blk) = t at hrow
    have hstatus := StatusOnly.stepStatus (p := p) (by omega) 1 (setFwState 5 t)
    have hfw : (stepStatus p 1 (setFwState 5 t)).fw = t.fw := hstatus.fw
    refine ⟨_, run_of_eq hrow, ?_, ?_, ?_, ?_, ?_, ?_⟩
    · rw [fwState, hstatus.sec _ rfl, setFwState, get_put_self _ _ _ (by decide)]
      decide
    · rw [hfw, ← hset]
      rfl
    · rw [hfw, ← hset]
      rfl
    · rw [proc, hfw, ← hset]
      exact congrArg Proc.down (mapGet_set_self Proc.fresh s.blk.fw.procs p { proc s.blk p with down := true, firedAt := now s.blk })
    · rw [hstatus.mem, ← hset]
      rfl
    · rw [hstatus.cmds, ← hset]
      rfl

/-- Settles O55: staging and activation by their conditions; a step by what it leaves of the roll's state, and its failure. -/
theorem rolls : Obligations.Rolls := ⟨stagingAndActivation, rollSteps⟩

end Sys2Proof.Machine
end

section
/-!
PROOFS. Each phase of the boot (17 R493, 18 R502), and the obligation `BootSequence`.
-/

namespace Sys2Proof.Machine

/-! ### Domains that are set (17 R474) -/

/-- A pass over a list reaches what one of its elements brings about and the others leave. -/
theorem foldl_reaches {f : Block → Nat → Block} {e : Nat} {l : List Nat} (P Q : Block → Prop)
    (hbefore : ∀ b, ∀ x ∈ l, x ≠ e → P b → P (f b x)) (hat : ∀ b, P b → Q (f b e)) (hafter : ∀ b, ∀ x ∈ l, x ≠ e → Q b → Q (f b x))
    (hagain : ∀ b, Q b → P b) (hmem : e ∈ l) {b : Block} (hb : P b) : Q (l.foldl f b) := by
  have hstays (r : List Nat) (hr : r ⊆ l) (b : Block) (hb : Q b) : Q (r.foldl f b) := by
    induction r generalizing b with
    | nil => exact hb
    | cons x r ih =>
      refine ih (List.subset_of_cons_subset hr) _ ?_
      by_cases hx : x = e
      · exact hx ▸ hat b (hagain b hb)
      · exact hafter b x (hr List.mem_cons_self) hx hb
  have hreaches (r : List Nat) (hr : r ⊆ l) (hin : e ∈ r) (b : Block) (hb : P b) : Q (r.foldl f b) := by
    induction r generalizing b with
    | nil => exact absurd hin List.not_mem_nil
    | cons x r ih =>
      by_cases hx : x = e
      · exact hstays r (List.subset_of_cons_subset hr) _ (hx ▸ hat b hb)
      · exact ih (List.subset_of_cons_subset hr) ((List.mem_cons.1 hin).resolve_left (Ne.symm hx)) _
          (hbefore b x (hr List.mem_cons_self) hx hb)
  exact hreaches l (List.Subset.refl l) hmem b hb

section Domains

variable {d e : Nat} (v : Nat) (b : Block)

/-- Setting a domain writes PW_DOM alone. -/
theorem get_setDom_ne {f : Fld} (hd : d < 80) (hf : f.off < 0x2070 ∨ 0x2084 ≤ f.off) : get (setDom d v b) f = get b f := by
  rw [setDom]
  split
  · rfl
  · refine get_put_off_ne b v ?_
    simp only [fDom, rPW_DOM, pwBase]
    omega

theorem dom_setDom_ne (h : d ≠ e) : dom (setDom d v b) e = dom b e := by
  rw [setDom]
  split
  · rfl
  · refine get_put_ne b v (by simp only [fDom]; omega) ?_
    simp only [fDom, rPW_DOM, pwBase]
    omega

variable {v b}

theorem dom_setDom_self (hv : v < 4) (h : dom b d ≠ 3) : dom (setDom d v b) d = v := by
  have hwidth : 2 * (d % 16) + 1 + 1 - 2 * (d % 16) = 2 := by omega
  rw [setDom_eq d v b h, dom, get_put_self _ _ _ (by simp only [fDom]; omega)]
  simp only [fDom, hwidth]
  exact Nat.mod_eq_of_lt hv

variable (v b)

theorem get_setDoms_ne {f : Fld} {ds : List Nat} (hds : ∀ d ∈ ds, d < 80) (hf : f.off < 0x2070 ∨ 0x2084 ≤ f.off) :
    get (setDoms ds v b) f = get b f := by
  rw [setDoms]
  induction ds generalizing b with
  | nil => rfl
  | cons d ds ih =>
    rw [List.foldl_cons, ih (b := setDom d v b) (fun x hx => hds x (List.mem_cons_of_mem _ hx)),
      get_setDom_ne v b (hds d List.mem_cons_self) hf]

theorem dom_setDoms_of_not_mem {ds : List Nat} (h : e ∉ ds) : dom (setDoms ds v b) e = dom b e := by
  rw [setDoms]
  induction ds generalizing b with
  | nil => rfl
  | cons d ds ih =>
    rw [List.foldl_cons, ih (b := setDom d v b) (fun hx => h (List.mem_cons_of_mem _ hx)),
      dom_setDom_ne v b fun (hd : d = e) => h (hd ▸ List.mem_cons_self)]

/-- A domain of the list that has not failed takes the state. -/
theorem dom_setDoms_of_mem {ds : List Nat} (hv : v < 3) (hmem : e ∈ ds) (h : dom b e ≠ 3) : dom (setDoms ds v b) e = v := by
  rw [setDoms]
  refine foldl_reaches (f := fun b d => setDom d v b) (fun b => dom b e ≠ 3) (fun b => dom b e = v) (fun b x _ hx hb => ?_)
    (fun b hb => dom_setDom_self (by omega) hb) (fun b x _ hx hb => ?_) (fun b hb => ?_) hmem h
  · rwa [dom_setDom_ne v b hx]
  · rwa [dom_setDom_ne v b hx]
  · omega

/-- Setting domains writes registers alone. -/
theorem setDoms_keeps {β : Type} (g : Block → β) (hput : ∀ b f v, g (put f v b) = g b) (ds : List Nat) : g (setDoms ds v b) = g b := by
  refine foldl_keeps g _ (fun b d => ?_) ds b
  rw [setDom, apply_ite g, hput, ite_self]

end Domains

/-! ### The phase that is shown -/

theorem phase_bootPhase {n : Nat} (hn : n < 16) (b : Block) : get (bootPhase n b) fDEV_BLK_STAT_BOOT_PHASE = n :=
  (get_put_self _ _ _ (by decide)).trans (Nat.mod_eq_of_lt hn)

theorem get_bootPhase (n : Nat) (b : Block) {f : Fld} (hf : fDEV_BLK_STAT_BOOT_PHASE.off ≠ f.off) : get (bootPhase n b) f = get b f :=
  get_put_off_ne b n hf

section Phases

variable {b : Block} (ls cs : List Nat) (sp rg : List (Nat × Nat × Nat)) (hpowered : powered b = true) (hready : ready b = false)
  (hwait : b.pwr.rstWait = false) (hfail : b.pwr.bootFail = false)
include hpowered hready hwait hfail

/-- A phase of a module that is powered and has not failed does its work. -/
theorem bootComplete_of_powered : bootComplete ls cs sp rg b = match get b fDEV_BLK_STAT_BOOT_PHASE with
    | 0 => bootPower b
    | 1 => bootClocks b
    | 2 => let p := bootVerify b
           if p.2 then bootPhase 3 p.1 else bootFailed p.1
    | 3 => bootFabric b
    | 4 => bootMemory ls sp rg b
    | 5 => bootClusters cs b
    | _ => bootScheduler b := by
  have hgo : ¬ (!powered b || ready b || b.pwr.rstWait || b.pwr.bootFail) = true := by simp [hpowered, hready, hwait, hfail]
  exact if_neg hgo

end Phases

/-! ### VERIFY (18 R502) -/

theorem bootVerify_of_good {b : Block} (h : verifyImage b b.fw.active none = 0) : bootVerify b = (loadImages b, true) := if_pos h

/-- Neither bank holds an image that passes. -/
theorem bootVerify_of_bad {b : Block} (h : verifyImage b b.fw.active none ≠ 0) (hempty : b.fw.staged = []) :
    bootVerify b = (put fSEC_BOOT_VERIFY_FAIL (verifyImage b b.fw.active none) b, false) := by
  have hempty' : (put fSEC_BOOT_VERIFY_FAIL (verifyImage b b.fw.active none) b).fw.staged.isEmpty = true := by
    rw [put_fw, hempty]
    rfl
  exact (if_neg h).trans (if_pos hempty')

/-! ### FABRIC (17 R493) -/

theorem get_chState (p st : Nat) (b : Block) (f : Fld) : get (chState p st b) f = get (put (fCH_LINK_STATE p) st b) f := rfl

theorem get_sendCaps (p : Nat) (b : Block) (f : Fld) : get (sendCaps p b) f = get b f := rfl

/-- Both ports train. -/
def portsTrain (b : Block) : Block := sendCaps 1 (chState 1 1 (sendCaps 0 (chState 0 1 b)))

theorem portState_portsTrain {p : Nat} (hp : p < 2) (b : Block) : portState (portsTrain b) p = 1 := by
  have hother : (fCH_LINK_STATE 1).off ≠ (fCH_LINK_STATE 0).off := by decide
  have hself (q : Nat) (b : Block) : get (put (fCH_LINK_STATE q) 1 b) (fCH_LINK_STATE q) = 1 :=
    get_put_self _ _ _ (by simp only [fCH_LINK_STATE]; omega)
  rw [portState, portsTrain, get_sendCaps, get_chState]
  match p, hp with
  | 0, _ => rw [get_put_off_ne _ _ hother, get_sendCaps, get_chState, hself]
  | 1, _ => rw [hself]

theorem get_portsTrain (b : Block) {f : Fld} (hf : f.off < 0x140000) : get (portsTrain b) f = get b f := by
  rw [portsTrain, get_sendCaps, get_chState, get_put_off_ne _ _ (by simp only [fCH_LINK_STATE, chBase]; omega), get_sendCaps, get_chState,
    get_put_off_ne _ _ (by simp only [fCH_LINK_STATE, chBase]; omega)]

/-- Memory between two addresses reads zero. -/
theorem memByte_memZero_of_mem {lo hi pa : Nat} (b : Block) (h : lo ≤ pa) (h' : pa < hi) : memByte (memZero lo hi b) pa = 0 := by
  rw [memByte, memZero]
  exact mapGet_filter_of_dropped 0 b.mem fun v => decide_eq_false (by omega)

/-- Staging is zero and the FCLK domains run, before the ports train. -/
def fabricOn (b : Block) : Block :=
  let b := setDoms ([domFab 0, domFab 1] ++ (List.range 8).map domSg) 2 b
  let b := (List.range 8).foldl (fun b g => if dom b (domSg g) = 3 then put (fBLK_STAT_FAILED (sgBase g)) 1 b else b) b
  let b := memZero 0x8000000000 0x8010000000 b
  setDoms [domCh 0, domCh 1] 2 (put fPW_CLK_FCLK_OUT 1 b)

theorem bootFabric_eq (b : Block) : bootFabric b = bootPhase 4 (portsTrain (fabricOn b)) := rfl

theorem fclk_fabricOn (b : Block) : get (fabricOn b) fPW_CLK_FCLK_OUT = 1 :=
  (get_setDoms_ne 2 _ (by decide) (by decide)).trans (get_put_self _ _ _ (by decide))

theorem memByte_fabricOn (b : Block) {pa : Nat} (h : 0x8000000000 ≤ pa) (h' : pa < 0x8010000000) : memByte (fabricOn b) pa = 0 :=
  (setDoms_keeps 2 _ (memByte · pa) (fun _ _ _ => rfl) _).trans (memByte_memZero_of_mem _ h h')

/-! ### MEMORY (17 R493) -/

/-- A lode that works trains; another counts as failed. -/
def lodeUp (b : Block) (l : Nat) : Block :=
  if dom b (domLode l) = 3 then put fDEV_BLK_CAP_LODES (get b fDEV_BLK_CAP_LODES - 1) (put (fBLK_STAT_FAILED (ldBase l)) 1 b)
  else put (fLD_BLK_STAT_TRAINED l) 1 (put (fLD_BLK_STAT_SELF_REFRESH l) 0 (setDom (domLode l) 2 b))

/-- A lode goes to RETAIN or back. -/
def lodeRefresh (on : Bool) (b : Block) (l : Nat) : Block :=
  put (fLD_BLK_STAT_SELF_REFRESH l) (b2n on) (setDom (domLode l) (if on then 1 else 2) b)

/-- The lode has trained and its domain is as given. -/
def lodeTrained (l v : Nat) (b : Block) : Prop := get b (fLD_BLK_STAT_TRAINED l) = 1 ∧ dom b (domLode l) = v

section Lodes

variable {l x : Nat}

theorem dom_put_ld {f : Fld} (hf : f.off < 0x2070 ∨ 0x2084 ≤ f.off) (hl : l < 12) (v : Nat) (b : Block) :
    dom (put f v b) (domLode l) = dom b (domLode l) := by
  refine get_put_off_ne b v ?_
  simp only [fDom, rPW_DOM, pwBase, domLode]
  omega

theorem dom_lodeUp_ne (hl : l < 12) (h : x ≠ l) (b : Block) : dom (lodeUp b x) (domLode l) = dom b (domLode l) := by
  have hdom : domLode x ≠ domLode l := by simp only [domLode]; omega
  rw [lodeUp]
  split
  · rw [dom_put_ld (.inl (by decide)) hl, dom_put_ld (.inr (by simp only [fBLK_STAT_FAILED, ldBase]; omega)) hl]
  · rw [dom_put_ld (.inr (by simp only [fLD_BLK_STAT_TRAINED, ldBase]; omega)) hl,
      dom_put_ld (.inr (by simp only [fLD_BLK_STAT_SELF_REFRESH, ldBase]; omega)) hl, dom_setDom_ne _ _ hdom]

theorem trained_put_selfRefresh (x l v : Nat) (b : Block) :
    get (put (fLD_BLK_STAT_SELF_REFRESH x) v b) (fLD_BLK_STAT_TRAINED l) = get b (fLD_BLK_STAT_TRAINED l) :=
  get_put_ne b v (by simp only [fLD_BLK_STAT_TRAINED]; omega)
    (.inr (.inr (by simp only [fLD_BLK_STAT_TRAINED, fLD_BLK_STAT_SELF_REFRESH]; omega)))

theorem trained_setDom (hx : x < 12) (l v : Nat) (b : Block) :
    get (setDom (domLode x) v b) (fLD_BLK_STAT_TRAINED l) = get b (fLD_BLK_STAT_TRAINED l) :=
  get_setDom_ne v b (by simp only [domLode]; omega) (.inr (by simp only [fLD_BLK_STAT_TRAINED, ldBase]; omega))

theorem trained_lodeUp_ne (h : x ≠ l) (hx : x < 12) (b : Block) :
    get (lodeUp b x) (fLD_BLK_STAT_TRAINED l) = get b (fLD_BLK_STAT_TRAINED l) := by
  rw [lodeUp]
  split
  · rw [get_put_off_ne _ _ (by simp only [fDEV_BLK_CAP_LODES, devBase, fLD_BLK_STAT_TRAINED, ldBase]; omega),
      get_put_ne _ _ (by simp only [fLD_BLK_STAT_TRAINED]; omega)
        (.inr (.inl (by simp only [fBLK_STAT_FAILED, fLD_BLK_STAT_TRAINED]; omega)))]
  · rw [get_put_off_ne _ _ (by simp only [fLD_BLK_STAT_TRAINED, ldBase]; omega), trained_put_selfRefresh, trained_setDom hx]

theorem trained_lodeUp (hl : l < 12) {b : Block} (h : dom b (domLode l) ≠ 3) : lodeTrained l 2 (lodeUp b l) := by
  rw [lodeUp, if_neg h]
  refine ⟨get_put_self _ _ _ (by simp only [fLD_BLK_STAT_TRAINED]; omega), ?_⟩
  rw [dom_put_ld (.inr (by simp only [fLD_BLK_STAT_TRAINED, ldBase]; omega)) hl,
    dom_put_ld (.inr (by simp only [fLD_BLK_STAT_SELF_REFRESH, ldBase]; omega)) hl, dom_setDom_self (by decide) h]

/-- Every lode that has not failed trains. -/
theorem trained_lodesUp (hl : l < 12) {b : Block} (h : dom b (domLode l) ≠ 3) : lodeTrained l 2 ((List.range 12).foldl lodeUp b) := by
  refine foldl_reaches (fun b => dom b (domLode l) ≠ 3) (lodeTrained l 2) (fun b x _ hx hb => ?_) (fun b hb => trained_lodeUp hl hb)
    (fun b x hin hx hb => ?_) (fun b hb => ?_) (List.mem_range.2 hl) h
  · rwa [dom_lodeUp_ne hl hx]
  · rwa [lodeTrained, trained_lodeUp_ne hx (List.mem_range.1 hin), dom_lodeUp_ne hl hx]
  · rw [hb.2]
    decide

theorem dom_lodeRefresh_ne (on : Bool) (hl : l < 12) (h : x ≠ l) (b : Block) : dom (lodeRefresh on b x) (domLode l) = dom b (domLode l) := by
  have hdom : domLode x ≠ domLode l := by simp only [domLode]; omega
  rw [lodeRefresh, dom_put_ld (.inr (by simp only [fLD_BLK_STAT_SELF_REFRESH, ldBase]; omega)) hl, dom_setDom_ne _ _ hdom]

theorem trained_lodeRefresh (on : Bool) (l : Nat) (hx : x < 12) (b : Block) :
    get (lodeRefresh on b x) (fLD_BLK_STAT_TRAINED l) = get b (fLD_BLK_STAT_TRAINED l) := by
  rw [lodeRefresh, trained_put_selfRefresh, trained_setDom hx]

/-- Lodes that have trained go to RETAIN (17 R488). -/
theorem trained_lodesRefresh (hl : l < 12) {b : Block} (h : lodeTrained l 2 b) : lodeTrained l 1 (lodesRefresh true b) := by
  refine foldl_reaches (f := lodeRefresh true) (fun b => get b (fLD_BLK_STAT_TRAINED l) = 1 ∧ dom b (domLode l) ≠ 3) (lodeTrained l 1)
    (fun b x hin hx hb => ?_) (fun b hb => ⟨?_, ?_⟩) (fun b x hin hx hb => ?_) (fun b hb => ⟨hb.1, ?_⟩) (List.mem_range.2 hl) ⟨h.1, ?_⟩
  · rwa [trained_lodeRefresh _ _ (List.mem_range.1 hin), dom_lodeRefresh_ne _ hl hx]
  · rw [trained_lodeRefresh _ _ hl, hb.1]
  · rw [lodeRefresh, dom_put_ld (.inr (by simp only [fLD_BLK_STAT_SELF_REFRESH, ldBase]; omega)) hl, dom_setDom_self (by decide) hb.2]
    rfl
  · rwa [lodeTrained, trained_lodeRefresh _ _ (List.mem_range.1 hin), dom_lodeRefresh_ne _ hl hx]
  · rw [hb.2]
    decide
  · rw [h.2]
    decide

end Lodes

/-- HBM is zero after a cold boot, and the lodes train. -/
def lodesOn (b : Block) : Block := (List.range 12).foldl lodeUp (if b.pwr.cold then memZero 0 0x8000000000 b else b)

/-- Without a lode, a spare or a row group that fails, the phase ends with the lodes on, in RETAIN under FD3. -/
theorem bootMemory_of_good (b : Block) : bootMemory [] [] [] b =
    bootPhase 5 (if fdLevel (lodesOn b) = 3 then lodesRefresh true (lodesOn b) else lodesOn b) := by
  have hretest (b : Block) : retest [] [] b = b := by simp [retest]
  have hlode (b : Block) : (List.range 12).foldl (fun b l =>
      if dom b (domLode l) = 3 then
        put fDEV_BLK_CAP_LODES (get b fDEV_BLK_CAP_LODES - 1) (put (fBLK_STAT_FAILED (ldBase l)) 1 b)
      else put (fLD_BLK_STAT_TRAINED l) 1 (put (fLD_BLK_STAT_SELF_REFRESH l) 0 (setDom (domLode l) 2 b))) b = (List.range 12).foldl lodeUp b := rfl
  simp only [bootMemory, hlode, hretest, lodesOn, List.filter_nil, List.foldl_nil]
  rfl

theorem lodesRefresh_keeps {β : Type} (g : Block → β) (hput : ∀ b f v, g (put f v b) = g b) (on : Bool) (b : Block) :
    g (lodesRefresh on b) = g b := by
  refine foldl_keeps g _ (fun b l => ?_) _ b
  rw [hput, setDom, apply_ite g, hput, ite_self]

theorem lodesUp_keeps {β : Type} (g : Block → β) (hput : ∀ b f v, g (put f v b) = g b) (b : Block) :
    g ((List.range 12).foldl lodeUp b) = g b := by
  refine foldl_keeps g _ (fun b l => ?_) _ b
  rw [lodeUp, apply_ite g, hput, hput, hput, hput, setDom, apply_ite g, hput, ite_self, ite_self]

theorem fdLevel_lodesOn (b : Block) : fdLevel (lodesOn b) = fdLevel b := by
  have hlode (b : Block) (l : Nat) : fdLevel (lodeUp b l) = fdLevel b := by
    have hput {f : Fld} (hf : f.off ≠ 0x205c) (v : Nat) (b : Block) : fdLevel (put f v b) = fdLevel b := get_put_off_ne b v hf
    have hdom (b : Block) : fdLevel (setDom (domLode l) 2 b) = fdLevel b := by
      rw [setDom, apply_ite fdLevel, hput (by simp only [fDom, rPW_DOM, pwBase]; omega), ite_self]
    rw [lodeUp, apply_ite fdLevel, hput (by decide), hput (by simp only [fBLK_STAT_FAILED, ldBase]; omega),
      hput (by simp only [fLD_BLK_STAT_TRAINED, ldBase]; omega), hput (by simp only [fLD_BLK_STAT_SELF_REFRESH, ldBase]; omega), hdom,
      ite_self]
  rw [lodesOn, foldl_keeps fdLevel _ hlode, apply_ite fdLevel]
  exact ite_self _

theorem memByte_lodesOn (b : Block) {pa : Nat} (h : pa < 0x8000000000) :
    memByte (lodesOn b) pa = if b.pwr.cold then 0 else memByte b pa := by
  rw [lodesOn, lodesUp_keeps (memByte · pa) (fun _ _ _ => rfl)]
  split
  · exact memByte_memZero_of_mem b (Nat.zero_le pa) h
  · rfl

theorem dom_lodesOn_start {b : Block} {l : Nat} (h : dom b (domLode l) ≠ 3) :
    dom (if b.pwr.cold then memZero 0 0x8000000000 b else b) (domLode l) ≠ 3 := by
  have hzero : dom (memZero 0 0x8000000000 b) (domLode l) = dom b (domLode l) := get_memZero ..
  split
  · rwa [hzero]
  · exact h

/-! ### CLUSTERS (17 R486, R493) -/

section Clusters

variable {c x : Nat}

theorem get_clusterOn {f : Fld} (hf : f.steady) (hdom : f.off < 0x2070 ∨ 0x2084 ≤ f.off) (hx : x < 80) (b : Block) :
    get (clusterOn b x) f = get b f := by
  rw [clusterOn, get_setDom_ne _ _ hx hdom]
  split
  · exact get_releaseCluster_steady hf _ x
  · rfl

/-- A cluster whose domain comes back keeps those of the others. -/
theorem dom_clusterOn_ne (hc : c < 80) (h : x ≠ c) (b : Block) : dom (clusterOn b x) c = dom b c := by
  rw [clusterOn, dom_setDom_ne _ _ h]
  split
  · exact get_releaseCluster_steady (steady_fDom hc) _ x
  · rfl

theorem dom_clusterOn (hc : c < 80) {b : Block} (h : dom b c ≠ 3) : dom (clusterOn b c) c = 2 := by
  have hreleased (b' : Block) (hb : ∀ f : Fld, get b' f = get b f) : dom (releaseCluster b' c) c ≠ 3 := by
    rwa [dom, get_releaseCluster_steady (steady_fDom hc) b' c, hb, ← dom]
  rw [clusterOn]
  refine dom_setDom_self (by decide) ?_
  split
  · exact hreleased _ fun _ => rfl
  · exact h

theorem lt_of_mem_running {b : Block} (h : c ∈ runningClusters b) : c < 32 :=
  List.mem_range.1 (List.mem_filter.1 (List.mem_filter.1 h).1).1

theorem lt_of_mem_usable {b : Block} (h : c ∈ usableClusters b) : c < 32 := List.mem_range.1 (List.mem_filter.1 h).1

theorem parked_of_mem_running {b : Block} (h : c ∈ runningClusters b) : isSet b (fCL_BLK_STAT_PARKED c) = false := by
  have hgoverned := (List.mem_filter.1 (List.mem_filter.1 h).1).2
  simp only [Bool.and_eq_true, Bool.not_eq_true'] at hgoverned
  exact hgoverned.2

/-- The usable clusters that the host has parked and whose domain is off. -/
def parkedOff (b : Block) : List Nat := (usableClusters b).filter (fun c => isSet b (fCL_BLK_STAT_PARKED c) && dom b c == 0)

theorem clustersBack_eq (b : Block) : clustersBack b = (runningClusters b).foldl clusterOn (setDoms (parkedOff b) 1 b) := rfl

theorem lt_of_mem_parkedOff {b : Block} (h : c ∈ parkedOff b) : c < 32 := lt_of_mem_usable (List.mem_filter.1 h).1

/-- A cluster that the host parked goes to RETAIN. -/
theorem dom_clustersBack_of_parked {b : Block} (huse : c ∈ usableClusters b) (hparked : isSet b (fCL_BLK_STAT_PARKED c) = true)
    (hoff : dom b c = 0) : dom (clustersBack b) c = 1 := by
  have hc := lt_of_mem_usable huse
  have hin : c ∈ parkedOff b := List.mem_filter.2 ⟨huse, by simp [hparked, hoff]⟩
  have hstopped : c ∉ runningClusters b := fun h => by simp [parked_of_mem_running h] at hparked
  have hstays (l : List Nat) (hl : c ∉ l) (b : Block) : dom (l.foldl clusterOn b) c = dom b c := by
    induction l generalizing b with
    | nil => rfl
    | cons x l ih =>
      rw [List.foldl_cons, ih fun h => hl (List.mem_cons_of_mem _ h), dom_clusterOn_ne (by omega) fun (h : x = c) => hl (h ▸ List.mem_cons_self)]
  rw [clustersBack_eq, hstays _ hstopped, dom_setDoms_of_mem 1 b (by decide) hin (by omega)]

/-- A cluster that runs is powered. -/
theorem dom_clustersBack_of_running {b : Block} (hrun : c ∈ runningClusters b) (hdom : dom b c ≠ 3) : dom (clustersBack b) c = 2 := by
  have hc := lt_of_mem_running hrun
  have hout : c ∉ parkedOff b := fun h => by
    have hparked := (List.mem_filter.1 h).2
    simp [parked_of_mem_running hrun] at hparked
  rw [clustersBack_eq]
  refine foldl_reaches (fun b => dom b c ≠ 3) (fun b => dom b c = 2) (fun b x _ hx hb => ?_) (fun b hb => dom_clusterOn (by omega) hb)
    (fun b x _ hx hb => ?_) (fun b hb => ?_) hrun ?_
  · rwa [dom_clusterOn_ne (by omega) hx]
  · rwa [dom_clusterOn_ne (by omega) hx]
  · omega
  · rwa [dom_setDoms_of_not_mem 1 b hout]

theorem get_clustersBack {f : Fld} (hf : f.steady) (hdom : f.off < 0x2070 ∨ 0x2084 ≤ f.off) (b : Block) :
    get (clustersBack b) f = get b f := by
  have hfold (l : List Nat) (hl : ∀ x ∈ l, x < 80) (b : Block) : get (l.foldl clusterOn b) f = get b f := by
    induction l generalizing b with
    | nil => rfl
    | cons x l ih =>
      rw [List.foldl_cons, ih fun y hy => hl y (List.mem_cons_of_mem _ hy), get_clusterOn hf hdom (hl x List.mem_cons_self)]
  rw [clustersBack_eq, hfold _ fun x hx => (lt_of_mem_running hx).trans (by decide),
    get_setDoms_ne _ _ (fun x hx => (lt_of_mem_parkedOff hx).trans (by decide)) hdom]

/-- ACLK is out, before the clusters' domains come back. -/
def aclkOut (b : Block) : Block := setDoms [domRed 0, domRed 1] 2 (put fPW_CLK_ACLK_OUT 1 b)

theorem get_aclkOut {f : Fld} (hf : f.off < 0x206c ∨ 0x2084 ≤ f.off) (b : Block) : get (aclkOut b) f = get b f := by
  rw [aclkOut, get_setDoms_ne _ _ (by decide) (by omega), get_put_off_ne _ _ (by simp only [fPW_CLK_ACLK_OUT, pwBase]; omega)]

theorem dom_aclkOut (hc : c < 32) (b : Block) : dom (aclkOut b) c = dom b c := by
  have hout : c ∉ [domRed 0, domRed 1] := by simp only [domRed, List.mem_cons, List.not_mem_nil, or_false]; omega
  rw [aclkOut, dom_setDoms_of_not_mem _ _ hout]
  exact get_put_off_ne _ _ (by simp only [fPW_CLK_ACLK_OUT, fDom, rPW_DOM, pwBase]; omega)

/-- What the cluster pages show is as before. -/
theorem clusters_aclkOut (b : Block) : usableClusters (aclkOut b) = usableClusters b ∧ runningClusters (aclkOut b) = runningClusters b := by
  have hcl {f : Fld} (hf : 0x10000 ≤ f.off) : get (aclkOut b) f = get b f := get_aclkOut (.inr (by omega)) b
  have hretired (c : Nat) := hcl (f := fBLK_STAT_RETIRED (clBase c)) (by simp only [fBLK_STAT_RETIRED, clBase]; omega)
  have hfailed (c : Nat) := hcl (f := fBLK_STAT_FAILED (clBase c)) (by simp only [fBLK_STAT_FAILED, clBase]; omega)
  have hparked (c : Nat) := hcl (f := fCL_BLK_STAT_PARKED c) (by simp only [fCL_BLK_STAT_PARKED, clBase]; omega)
  have hgov (c : Nat) := hcl (f := fCL_BLK_STAT_GOV_PARKED c) (by simp only [fCL_BLK_STAT_GOV_PARKED, clBase]; omega)
  constructor
  · simp only [usableClusters, isSet, hretired, hfailed]
  · simp only [runningClusters, governedClusters, isSet, hretired, hfailed, hparked, hgov]

end Clusters

/-- Without a cluster that fails, the phase ends with the clusters back, unless FD3 holds them off. -/
theorem bootClusters_of_good (b : Block) : bootClusters [] b =
    bootPhase 6 (if fdLevel b = 3 then put fPW_CLK_ACLK_OUT 1 b else clustersBack (aclkOut b)) := by
  have hlevel : fdLevel (put fPW_CLK_ACLK_OUT 1 b) = fdLevel b := get_put_off_ne b 1 (by decide)
  simp only [bootClusters, hlevel, List.filter_nil, List.foldl_nil]
  rfl

/-! ### SCHEDULER (02 R53) -/

/-- The schedulers' domains run and READY is set. -/
def schedulerOn (b : Block) : Block := put fDEV_BLK_STAT_READY 1 (settleWho (setDoms [domSch, domRcx] 2 b))

theorem get_schedulerOn {f : Fld} (hready : fDEV_BLK_STAT_READY.off ≠ f.off) (hwho : fSC_DISPATCH_WHO.off ≠ f.off)
    (hdom : f.off < 0x2070 ∨ 0x2084 ≤ f.off) (b : Block) : get (schedulerOn b) f = get b f := by
  rw [schedulerOn, get_put_off_ne _ _ hready, settleWho, get_put_off_ne _ _ hwho, get_setDoms_ne _ _ (by decide) hdom]

theorem bootScheduler_of_cool {b : Block} (h : get b fPW_COOL_STRAP ≠ 3) : bootScheduler b = schedulerOn b := by
  have hcool : coolReserved (schedulerOn b) = false := by
    rw [coolReserved, get_schedulerOn (by decide) (by decide) (by decide)]
    simpa using h
  rw [bootScheduler, ← schedulerOn]
  exact if_neg (Bool.eq_false_iff.1 hcool)

theorem ready_schedulerOn (b : Block) : ready (schedulerOn b) = true := by
  rw [ready, isSet, schedulerOn, get_put_self _ _ _ (by decide)]
  decide

theorem schedulerOn_mem (b : Block) : (schedulerOn b).mem = b.mem := setDoms_keeps 2 b Block.mem (fun _ _ _ => rfl) _

/-! ### The obligation -/

/-- Settles O56: each phase by its own work, and what it leaves. -/
theorem bootSequence : Obligations.BootSequence := by
  intro s ls cs sp rg hready hwait phase
  refine ⟨fun hpowered => run_of_eq (if_pos (by simp [hpowered, hready, hwait])), fun hpowered hfail => ?_⟩
  have hboot {n : Nat} (ls cs : List Nat) (sp rg : List (Nat × Nat × Nat)) (h : phase = n) := by
    have hrow := bootComplete_of_powered ls cs sp rg hpowered hready hwait hfail
    rw [show get s.blk fDEV_BLK_STAT_BOOT_PHASE = n from h] at hrow
    exact hrow
  refine ⟨fun h hrail => run_of_eq ((hboot ls cs sp rg h).trans (if_pos hrail)),
    fun h hrefclk => run_of_eq ((hboot ls cs sp rg h).trans (if_pos hrefclk)),
    fun h => ⟨fun hr => run_of_eq ((hboot ls cs sp rg h).trans ?good), fun hr hempty => run_of_eq ((hboot ls cs sp rg h).trans ?bad)⟩,
    fun h => ⟨_, run_of_eq ((hboot ls cs sp rg h).trans (bootFabric_eq _)), ?fabric⟩,
    fun h hlodes => ⟨_, run_of_eq ((hboot [] cs [] [] h).trans (bootMemory_of_good _)), ?memory⟩,
    fun h => ⟨_, run_of_eq ((hboot ls [] sp rg h).trans (bootClusters_of_good _)), ?clusters⟩,
    fun h c => run_of_eq ((hboot ls [c.val] sp rg h).trans ?failing),
    fun h hcool => ⟨_, run_of_eq ((hboot ls cs sp rg h).trans (bootScheduler_of_cool hcool)), ?scheduler⟩⟩
  case good =>
    simp only [bootVerify_of_good hr, if_true]
    rfl
  case bad =>
    simp only [bootVerify_of_bad hr hempty, Bool.false_eq_true, if_false]
  case fabric =>
    refine ⟨phase_bootPhase (by decide) _, ?_, ?_, ?_, fun pa hlo hhi => ?_⟩
    · exact (get_bootPhase _ _ (by decide)).trans (portState_portsTrain (by decide) _)
    · exact (get_bootPhase _ _ (by decide)).trans (portState_portsTrain (by decide) _)
    · rw [get_bootPhase _ _ (by decide), get_portsTrain _ (by decide), fclk_fabricOn]
    · exact memByte_fabricOn s.blk hlo hhi
  case memory =>
    refine ⟨phase_bootPhase (by decide) _, fun l hl => ?_, fun pa hpa => ?_⟩
    · have hup : lodeTrained l 2 (lodesOn s.blk) := trained_lodesUp hl (dom_lodesOn_start (hlodes l hl))
      have htrained : lodeTrained l (if fdLevel s.blk = 3 then 1 else 2)
          (if fdLevel (lodesOn s.blk) = 3 then lodesRefresh true (lodesOn s.blk) else lodesOn s.blk) := by
        rw [fdLevel_lodesOn]
        split
        · exact trained_lodesRefresh hl hup
        · exact hup
      rwa [get_bootPhase _ _ (by simp only [fDEV_BLK_STAT_BOOT_PHASE, devBase, fLD_BLK_STAT_TRAINED, ldBase]; omega), dom,
        get_bootPhase _ _ (by simp only [fDEV_BLK_STAT_BOOT_PHASE, devBase, fDom, rPW_DOM, pwBase]; omega), ← dom]
    · have hmem : memByte (if fdLevel (lodesOn s.blk) = 3 then lodesRefresh true (lodesOn s.blk) else lodesOn s.blk) pa =
          memByte (lodesOn s.blk) pa := by
        rw [apply_ite (memByte · pa), lodesRefresh_keeps (memByte · pa) (fun _ _ _ => rfl), ite_self]
      exact hmem.trans (memByte_lodesOn s.blk hpa)
  case clusters =>
    refine ⟨phase_bootPhase (by decide) _, ?_, fun c hlevel huse => ?_⟩
    · rw [get_bootPhase _ _ (by decide)]
      split
      · exact get_put_self _ _ _ (by decide)
      · rw [get_clustersBack (by simp only [Fld.steady, fPW_CLK_ACLK_OUT, pwBase]; omega) (by decide)]
        exact (get_setDoms_ne 2 _ (by decide) (by decide)).trans (get_put_self _ _ _ (by decide))
    · have huse' : c ∈ usableClusters s.blk := List.contains_iff_mem.1 huse
      have hc := lt_of_mem_usable huse'
      have hparked : isSet (aclkOut s.blk) (fCL_BLK_STAT_PARKED c) = isSet s.blk (fCL_BLK_STAT_PARKED c) := by
        rw [isSet, get_aclkOut (.inr (by simp only [fCL_BLK_STAT_PARKED, clBase]; omega)), ← isSet]
      have hdom : dom (bootPhase 6 (clustersBack (aclkOut s.blk))) c = dom (clustersBack (aclkOut s.blk)) c :=
        get_bootPhase _ _ (by simp only [fDEV_BLK_STAT_BOOT_PHASE, devBase, fDom, rPW_DOM, pwBase]; omega)
      rw [if_neg hlevel, hdom]
      refine ⟨fun hpark hoff => dom_clustersBack_of_parked ?_ (hparked.trans hpark) ?_,
        fun hrun hdom => dom_clustersBack_of_running ?_ ?_⟩
      · rwa [(clusters_aclkOut s.blk).1]
      · rwa [dom_aclkOut hc]
      · rw [(clusters_aclkOut s.blk).2]
        exact List.contains_iff_mem.1 hrun
      · rwa [dom_aclkOut hc]
  case failing =>
    have hlist : [c.val].filter (fun c => decide (c < 32)) = [c.val] := by simp [c.isLt]
    simp only [bootClusters, hlist, List.foldl_cons, List.foldl_nil]
    rfl
  case scheduler =>
    exact ⟨ready_schedulerOn _, get_schedulerOn (by decide) (by decide) (by decide) _, schedulerOn_mem _⟩

end Sys2Proof.Machine
end

section
/-!
PROOFS. The attestation, the TAP's instructions, the unlock tokens and the debug window (18 R506, R510–R514): the obligation
`AttestationAndTestPort`.
-/

namespace Sys2Proof.Machine

/-! ### Attestation (18 R506) -/

/-- A request that finds SEC running is taken: the nonce is read once. -/
theorem attReq_of_runs {b : Block} (h : secRuns b = true) : attReq b = attStart b := if_pos h

/-- A request that finds SEC down waits. -/
theorem attReq_of_down {b : Block} (h : secRuns b = false) : attReq b = put fSEC_ATT_STAT_STATE 1 b :=
  if_neg (Bool.eq_false_iff.1 h)

/-- A request that SEC has taken, with its buffer reached: the report, and behind it the certificate. -/
theorem attComplete_eq_of_reached {b : Block} (h2 : get b fSEC_ATT_STAT_STATE = 2)
    (hr : rangeReachable (put fSEC_ATT_STAT_STATE 0 b) (rd64 b rSEC_ATT_PA_LO) 4096 = true) :
    attComplete b =
      raise 3 128 (put fSEC_ATT_STAT_RESULT 1
        (put fSEC_ATT_STAT_CERT_LEN (if lifecycle b = 2 then b.fuses.cert.take 2048 else []).length
          (paWrite (rd64 b rSEC_ATT_PA_LO + 0x400) (if lifecycle b = 2 then b.fuses.cert.take 2048 else [])
            (paWrite (rd64 b rSEC_ATT_PA_LO) (attReport (put fSEC_ATT_STAT_STATE 0 b)) (put fSEC_ATT_STAT_STATE 0 b))))) :=
  (if_neg (not_not_intro h2)).trans (if_pos hr)

/-! ### The test port (18 R510–R514) -/

/-- EXTEST, CLAMP and HIGHZ of a powered module fence all its work until a module reset. -/
theorem takePins_eq_of_powered {b : Block} (hp : powered b = true) (code : Nat) :
    takePins code b = fenceAll (setPwr (fun p => { p with hardFence := true }) (tapSelect code b)) := if_pos hp

/-- A token that SEC checks: one that is right unlocks or blows its code, any other is counted, and each draws a new challenge. -/
theorem dbgToken_of_secRuns {b : Block} (hp : powered b = true) (hphase : 2 ≤ get b fDEV_BLK_STAT_BOOT_PHASE)
    (hsec : secRuns b = true) (t : List Byte) :
    dbgToken t b =
      if tokenOk (tapSelect 0x21 b) t = true then
        raise 3 256 (freshChallenge
          (if (fieldAt t 4 2).testBit 14 || (fieldAt t 4 2).testBit 15 then blowCode (fieldAt t 4 2) (tapSelect 0x21 b)
            else unlock (fieldAt t 4 2) (tapSelect 0x21 b)))
      else freshChallenge (tokenRefused (tapSelect 0x21 b)) := by
  have hready : ¬ (!powered (tapSelect 0x21 b) || decide (get (tapSelect 0x21 b) fDEV_BLK_STAT_BOOT_PHASE < 2)) = true := by
    have hphase' : ¬ get (tapSelect 0x21 b) fDEV_BLK_STAT_BOOT_PHASE < 2 := Nat.not_lt.2 hphase
    have hp' : powered (tapSelect 0x21 b) = true := hp
    simp only [hp', hphase', Bool.not_true, Bool.false_or, decide_false, Bool.false_eq_true, not_false_eq_true]
  have hruns : ¬ (!secRuns (tapSelect 0x21 b)) = true := by
    have hsec' : secRuns (tapSelect 0x21 b) = true := hsec
    simp [hsec']
  exact (if_neg hready).trans (if_neg hruns)

/-- Settles O57: an attestation by whether SEC runs and the buffer is reached, the TAP's rows by the instruction each selects. -/
theorem attestationAndTestPort : Obligations.AttestationAndTestPort := by
  intro s bits t off v ir
  refine ⟨fun hc ha => ?_, fun hc h2 => ?_, run_of_eq rfl, fun hgood => ?_⟩
  · intro b taken
    have hreq : s.run (hostGated (writeNat .ch0 rSEC_ATT_CTL 1)) = .next (s.after (attReq b)) :=
      run_of_eq ((hostGated_active _ _ hc).trans (regWriteAt_attReq ha))
    exact ⟨fun hruns => hreq.trans (by rw [attReq_of_runs hruns]; rfl), fun hdown => hreq.trans (by rw [attReq_of_down hdown])⟩
  · intro pa b cert hr
    exact run_of_eq ((hostGated_active _ _ hc).trans (attComplete_eq_of_reached h2 hr))
  · have tap (f : Block → Block) : s.run (onTap f) = .next (s.after (f s.blk)) := run_of_eq (onTap_of_pwrGood hgood f)
    have pins (hp : powered s.blk = true) (code : Nat) : s.run (onTap (takePins code)) =
        .next (s.after (fenceAll (setPwr (fun x => { x with hardFence := true }) (ir code)))) :=
      run_of_eq ((onTap_of_pwrGood hgood _).trans (takePins_eq_of_powered hp code))
    refine ⟨tap _, tap _, tap _, fun hp => ⟨pins hp 3, pins hp 4, pins hp 5⟩, tap _, fun hp hphase hsec => ?_, tap _, tap _⟩
    intro g
    refine ⟨fun hok h14 h15 => run_of_eq ?unlocked, fun hok hcode => run_of_eq ?blown, fun hbad => run_of_eq ?refused⟩
    all_goals refine (onTap_of_pwrGood hgood _).trans ((dbgToken_of_secRuns hp hphase hsec t).trans ?_)
    case unlocked =>
      have hno : ¬ (g.testBit 14 || g.testBit 15) = true := by simp only [h14, h15, Bool.or_self, Bool.false_eq_true, not_false_eq_true]
      exact (if_pos hok).trans (congrArg (fun b => raise 3 256 (freshChallenge b)) (if_neg hno))
    case blown =>
      have hsome : (g.testBit 14 || g.testBit 15) = true := Bool.or_eq_true_iff.2 hcode
      exact (if_pos hok).trans (congrArg (fun b => raise 3 256 (freshChallenge b)) (if_pos hsome))
    case refused => exact if_neg (Bool.eq_false_iff.1 hbad)

end Sys2Proof.Machine
end
